-- ==== Sys2Proof/Word.lean ====
section
/-! DEFINITION. The machine's words: a byte and a 64-bit register word (R15: registers are 64 bits wide
unless their table states otherwise; R11: little-endian fields, byte 0 the least significant). -/

namespace Sys2Proof

/-- One byte, as host memory, HBM, frames and record images hold it. -/
abbrev Byte := BitVec 8

/-- One 64-bit BAR0 register word. -/
abbrev Word := BitVec 64

end Sys2Proof
end

