-- ==== Sys2Proof/Syntax.lean ====
section
/-! DEFINITION. The commands of the block, one constructor per row of spec/opcode_table.json, with the
operands each carries. What a command finds outside the device (the bytes host memory returns, the bytes of
an arriving frame, a measured value, a verdict of a check the spec leaves to hardware) comes as an operand. -/

namespace Sys2Proof

/-- What a read of host memory returned: its bytes, or nothing where the read failed. -/
abbrev HostData := Option (List Byte)

/-- A function of the readiness map (R123, R124). -/
inductive Fn where
  | die (d : Fin 9)
  | pilot
  | pipe (p : Fin 8)
  | hbm (s : Fin 12)
  | time (d : Fin 2)
  | engine (e : Fin 16)
  | laser (m : Fin 4)
  | port (n : Fin 1024)
  | tile (t : Fin 176)
  deriving DecidableEq, Repr

/-- What caused a host port reset (R106). -/
inductive PortResetCause where
  | perst
  | hotReset
  | linkDown
  | functionLevel
  deriving DecidableEq, Repr

/-- How a received frame ends (R176, R177, R196). -/
inductive Fcs where
  /-- With this FCS: its first byte on the wire is bits [7:0]. -/
  | received (fcs : BitVec 32)
  /-- A codeword of the frame could not be corrected. -/
  | fec
  deriving DecidableEq, Repr

/-- What a read of a 1 KiB HBM stripe met in its 18 members of 64 bytes (R472): the difference of each member from
what was last written to it, byte for byte, whether its transfer failed each of its tries, and whether its own code found it uncorrected. -/
structure StripeRead where
  errors : List (List Byte)
  lost : List Bool
  uncorrected : List Bool
  deriving DecidableEq, Repr

/-- What the code of an SRAM found on a read (R318). -/
inductive Sram where
  | clean
  | corrected
  | uncorrectable
  deriving DecidableEq, Repr

/-- What asks for a pseudo-channel retrain (R498, R499). -/
inductive RetrainCause where
  /-- A write of MS_HBM_CTL with RETRAIN set. -/
  | write (value : Word)
  /-- PERIOD_S / 64 seconds have passed: the turn of the stack's next pseudo-channel comes round. -/
  | turn
  /-- The stack reports its temperature, in °C. -/
  | temperature (temp : BitVec 8)
  /-- A pseudo-channel has made 64 inner corrections or interface retries within one second. -/
  | errors (channel : Fin 64)
  /-- A row of a pseudo-channel has made 4 inner corrections within 24 h (R501). -/
  | row (channel : Fin 64) (row : BitVec 24)
  deriving DecidableEq, Repr

/-- What cuts a laser (R541). -/
inductive LaserCut where
  /-- A laser's monitor read above the limit for 10 µs, at `power` in 0.01 dBm; `responds` says whether lowering its
  current brought it down. -/
  | overPower (position : Fin 9) (laser : Fin 2) (power : BitVec 16) (responds : Bool)
  /-- The module reports an open output. -/
  | interlock
  deriving DecidableEq, Repr

/-- The supply rails (R630). -/
inductive Rail where
  | vddPkt
  | vddSram
  | vddSerdes
  | vddhSerdes
  | vddRda
  | vddRdb
  | vddCtl
  | vddioCtl
  | vddHbm
  | vddqHbm
  | vppHbm
  deriving DecidableEq, Repr

/-- A safety limit of R593 whose sensed value came back inside. -/
inductive Limit where
  | junction105 (die : Fin 2)
  | junction110 (die : Fin 9)
  | current (rail : Rail)
  deriving DecidableEq, Repr

/-- The commands. -/
inductive Instr where
  /-- NOP (R76): Descriptor that does nothing beyond its checks and completion. -/
  | nop (ring : Fin 4096)
  /-- REG_READ (R76): Descriptor that reads COUNT BAR0 registers into host memory, subject to REG_BLOCK permissions. -/
  | regRead (ring : Fin 4096) (written : Bool)
  /-- REG_WRITE (R78): Descriptor that writes COUNT BAR0 registers in address order; refused whole if a P1/P2 ring touches an RWL field. -/
  | regWrite (ring : Fin 4096) (data : HostData)
  /-- DMA_TO_DEVICE (R77): Descriptor that moves host bytes into a device target of the given kind. -/
  | dmaToDevice (ring : Fin 4096) (data : HostData)
  /-- DMA_FROM_DEVICE (R77): Descriptor that moves bytes of a device target into host memory. -/
  | dmaFromDevice (ring : Fin 4096) (written : Bool)
  /-- PROT_UPDATE (R96): Descriptor that checks an array of protection entries and writes them all into the staging table. -/
  | protUpdate (ring : Fin 4096) (data : HostData)
  /-- PROT_COMMIT (R97): Descriptor that makes the staging table the table in force and increments the generation, after any old generation drains. -/
  | protCommit (ring : Fin 4096)
  /-- PROT_GENERATION_BOUNDARY (R98): Instant at which every die holds the new protection table; waiting descriptors are rechecked and the PROTECTION log entry is made. -/
  | protGenerationBoundary
  /-- PARTITION_SET (R100): Descriptor that activates a FREE partition or changes an ACTIVE partition's quotas. -/
  | partitionSet (ring : Fin 4096)
  /-- PARTITION_DRAIN (R454): Descriptor that makes a partition DRAINING and tears down its work in order. -/
  | partitionDrain (ring : Fin 4096)
  /-- DRAIN_CONTEXT_RELEASE (R454): Rate-limited release of the next context of a draining partition. -/
  | drainContextRelease (partition : Fin 256)
  /-- DRAIN_COMPLETE (R454): Once no work of the partition from generations up to G is in flight, the partition becomes FREE and the drain completes. -/
  | drainComplete (partition : Fin 256)
  /-- FT_INSERT (R226): Descriptor that inserts or replaces an endpoint entry in each masked pipeline by cuckoo search. -/
  | ftInsert (ring : Fin 4096) (data : HostData)
  /-- FT_DELETE (R228): Descriptor that clears a key's slot in each masked pipeline. -/
  | ftDelete (ring : Fin 4096) (data : HostData)
  /-- LPM_INSERT (R246): Descriptor that inserts a prefix into all four LPM copies by moving region boundaries. -/
  | lpmInsert (ring : Fin 4096) (data : HostData)
  /-- LPM_DELETE (R246): Descriptor that removes a prefix from all four LPM copies and closes the hole. -/
  | lpmDelete (ring : Fin 4096) (data : HostData)
  /-- FT_SHADOW_COMPARE (R251): Descriptor that writes per-block digests of an endpoint table or LPM copy to host memory. -/
  | ftShadowCompare (ring : Fin 4096) (written : Bool) (met : Nat)
  /-- GROUP_REGISTER (R415): Descriptor that reads, checks and registers a group record, or restores a retained one. -/
  | groupRegister (ring : Fin 4096) (data : HostData)
  /-- GROUP_RELEASE (R418): Descriptor that frees a registered, unarmed group. -/
  | groupRelease (ring : Fin 4096)
  /-- CONTEXT_ARM (R421): Descriptor that arms every leg of a group as a context and reserves its resources, or arms none. -/
  | contextArm (ring : Fin 4096)
  /-- CONTEXT_DISARM (R424): Descriptor that completes started operations up to S, discards the rest and releases the contexts. -/
  | contextDisarm (ring : Fin 4096)
  /-- COLLECTIVE_LAUNCH (R438): Descriptor that launches one operation of a HOST group and completes when its record is written. -/
  | collectiveLaunch (ring : Fin 4096) (data : HostData)
  /-- RESULT_ACK (R446): Descriptor that acknowledges an operation and discards its retained state. -/
  | resultAck (ring : Fin 4096)
  /-- MOORING_SET (R427): Descriptor that updates a mooring's COUNT, TARGET and ACTION at its home, evaluating waits first. -/
  | mooringSet (ring : Fin 4096)
  /-- MOORING_WAIT (R429): Descriptor that waits until a mooring's COUNT reaches the awaited value. -/
  | mooringWait (ring : Fin 4096)
  /-- ATOMIC_CAS (R489): Descriptor that performs a 64-bit compare-and-swap in the home shared cache. -/
  | atomicCas (ring : Fin 4096) (sram : Sram)
  /-- ATOMIC_ADD (R489): Descriptor that performs a 64-bit add in the home shared cache and returns the old value. -/
  | atomicAdd (ring : Fin 4096) (sram : Sram)
  /-- MANIFEST_LOAD (R377): Descriptor that measures and checks a manifest image and places it in a slot. -/
  | manifestLoad (ring : Fin 4096) (data : HostData)
  /-- MANIFEST_ACTIVATE (R380): MANIFEST_ACTIVATE with ACTION 0: grants reservations, loads instruction memories and makes the slot ACTIVE. -/
  | manifestActivate (ring : Fin 4096)
  /-- MANIFEST_DEACTIVATE (R363): MANIFEST_ACTIVATE with ACTION 1: stops new epochs and returns the slot to LOADED after its running epoch. -/
  | manifestDeactivate (ring : Fin 4096)
  /-- MANIFEST_UNLOAD (R363): MANIFEST_ACTIVATE with ACTION 2: frees a LOADED slot's image. -/
  | manifestUnload (ring : Fin 4096)
  /-- COUNTER_SNAPSHOT (R308): Descriptor that copies a range of counters of one class to host memory. -/
  | counterSnapshot (ring : Fin 4096) (written : Bool)
  /-- FAULT_LOG_READ (R621): Descriptor that copies fault-log records from a given SEQ to host memory. -/
  | faultLogRead (ring : Fin 4096) (written : Bool)
  /-- SQ_TAIL (R64): Host doorbell write of a submission producer index, accepted or rejected. -/
  | sqTail (ring : Fin 4096) (value : BitVec 32)
  /-- CQ_HEAD (R654): Host doorbell write of completions consumed, optionally re-arming the CQ. -/
  | cqHead (ring : Fin 4096) (value : Word)
  /-- DESCRIPTOR_FETCH (R66): The device fetches descriptors from a ring once a valid doorbell and CQ room exist. -/
  | descriptorFetch (ring : Fin 4096) (data : HostData)
  /-- CQ_MODERATION_TIMEOUT (R73): The oldest unconsumed completion of an armed CQ reaches MOD_TIME and the vector is sent. -/
  | cqModerationTimeout (ring : Fin 4096)
  /-- RING_ENABLE (R59): Write setting HI_RING_CFG.ENABLE that enables the ring pair or sets CFG_ERR. -/
  | ringEnable (ring : Fin 4096) (value : Word)
  /-- RING_DISABLE (R71): Write clearing ENABLE that stops fetching and aborts unstarted descriptors. -/
  | ringDisable (ring : Fin 4096) (value : Word)
  /-- GANGWAY_ENABLE (R86): Write setting HI_GW_TARGET.ENABLE that latches and opens a window or sets CFG_ERR. -/
  | gangwayEnable (window : Fin 16) (value : Word)
  /-- GANGWAY_CLOSE (R656): Write clearing a window's ENABLE that commits its partial granule and closes it. -/
  | gangwayClose (window : Fin 16) (value : Word)
  /-- GANGWAY_WRITE (R88): Host write into a BAR2 window, placed by DIRECT offset or STREAM cursor. -/
  | gangwayWrite (window : Fin 16) (offset : Nat) (data : List (Option Byte))
  /-- GANGWAY_READ (R92): Host read of a BAR2 window returning target data or zero. -/
  | gangwayRead (window : Fin 16) (offset length : Nat)
  /-- GANGWAY_STATUS_READ (R91): Read of HI_GW_STATUS that flushes and commits earlier window writes. -/
  | gangwayStatusRead (window : Fin 16)
  /-- GANGWAY_GRANULE_TIMEOUT (R89): A partly written granule idle for 10 µs is committed by read-modify-write. -/
  | gangwayGranuleTimeout (window : Fin 16)
  /-- POWER_STATE_D3HOT (R52): The function enters D3hot; host writes and messages are held. -/
  | powerStateD3hot
  /-- POWER_STATE_D0 (R52): The function returns to D0 and issues held writes and messages in order. -/
  | powerStateD0
  /-- HOST_PORT_RESET (R107): PERST, hot reset, link down or FLR resets the PCIe controller and HI_ block while the data plane runs on. -/
  | hostPortReset (cause : PortResetCause)
  /-- CONFIG_SPACE_READY (R655): Configuration space answers again after a host port reset. -/
  | configSpaceReady
  /-- REGISTER_WRITE (R15): Write to a BAR0 register without a row of its own, acting by its access codes and block lock. -/
  | registerWrite (offset : Nat) (value : Word)
  /-- COMPANION_COUNT_READ (R105): Read of a companion count register that returns and clears SETS and COLLISIONS. -/
  | companionCountRead (offset : Nat)
  /-- COLD_RESET (R106): POR_L low clears everything except fuses and the trip record. -/
  | coldReset
  /-- POR_RELEASE (R121): POR_L rises and the start-up sequence begins. -/
  | porRelease (x4 : Bool)
  /-- WARM_RESET (R110): Write of BT_RESET.WARM with the right key resets all but fuses, repair map and PCIe link. -/
  | warmReset (value : Word)
  /-- LOCK_SET (R112): W1S write to BT_LOCK locking RWL fields of blocks. -/
  | lockSet (value : Word)
  /-- FIRMWARE_START (R117): BT_FW_CTL.START commits the image window and begins CHECKING. -/
  | firmwareStart (value : Word)
  /-- FIRMWARE_ABANDON (R115): BT_FW_CTL.ABANDON discards the image store and returns to EMPTY. -/
  | firmwareAbandon (value : Word)
  /-- FIRMWARE_CHECK_DONE (R117): Image check ends; the image is logged and Pilot starts or the load is refused. -/
  | firmwareCheckDone
  /-- FUNCTION_READY (R124): A function's conditions all hold and its readiness bit rises. -/
  | functionReady (fn : Fn)
  /-- FUNCTION_LEAVES_SERVICE (R128): A function is withdrawn or loses a condition and its readiness bit falls. -/
  | functionLeavesService (fn : Fn)
  /-- QUOTE_START (R137): EV_QUOTE_CTL.START begins signing a quote over the nonce and log. -/
  | quoteStart (value : Word)
  /-- QUOTE_DONE (R137): The signed quote is placed in EV_QUOTE_OUT and state becomes DONE. -/
  | quoteDone
  /-- EVBAUTH_ID_TIMER (R140): Every 1 ms after FEC lock the port sends its ID message. -/
  | evbauthIdTimer (port : Fin 1024)
  /-- EVBAUTH_ID_RECEIVED (R140): A peer ID message is recorded and the port sends its PROOF. -/
  | evbauthIdReceived (port : Fin 1024) (tag : Option (BitVec 48)) (payload : List Byte)
  /-- EVBAUTH_PROOF_RECEIVED (R140): A peer PROOF is verified, ending the exchange as VERIFIED, MISMATCH or FAILED. -/
  | evbauthProofReceived (port : Fin 1024) (tag : Option (BitVec 48)) (payload : List Byte)
  /-- EVBAUTH_TIMEOUT (R140): 100 ms without a verified PROOF ends the exchange as UNVERIFIED. -/
  | evbauthTimeout (port : Fin 1024)
  /-- PORT_ENABLE (R152): Write setting PC_PORT_CFG.ENABLE that starts training, or is discarded. -/
  | portEnable (port : Fin 1024) (value : Word)
  /-- PORT_DISABLE (R152): Write clearing ENABLE that takes the link down at once. -/
  | portDisable (port : Fin 1024) (value : Word)
  /-- LANE_LAYOUT_WRITE (R150): Write of PC_LANE_GROUP.LAYOUT applied only while its ports are disabled and down. -/
  | laneLayoutWrite (group : Fin 256) (value : Word)
  /-- LINK_FEC_LOCK (R154): A port's lanes train and FEC locks; the port enters LINK_INIT. -/
  | linkFecLock (port : Fin 1024)
  /-- PORT_LINK_DOWN (R213): A port's link fails; queued frames are discarded and the replay store emptied. -/
  | portLinkDown (port : Fin 1024)
  /-- FRAME_HEADER_ARRIVAL (R173): A frame's head arrives: it is parsed, looked up, metered and admitted or dropped. -/
  | frameHeaderArrival (port : Fin 1024) (tag : Option (BitVec 48)) (head : List Byte)
  /-- FRAME_TAIL_ARRIVAL (R175): A frame's tail and FCS arrive; it becomes eligible, is dropped, or is stomped if already leaving. -/
  | frameTailArrival (port : Fin 1024) (rest : List Byte) (fcs : Fcs)
  /-- SCHEDULER_SELECT (R277): A port's two-level scheduler picks the next eligible frame and egress begins. -/
  | schedulerSelect (port : Fin 1024)
  /-- FRAME_DEPARTED (R299): A frame's last bit leaves; its cells are freed and fence counts and XON state updated. -/
  | frameDeparted (port : Fin 1024) (sram : Sram)
  /-- PFC_FRAME_RECEIVED (R183): A received PFC frame pauses or resumes a class within 200 ns. -/
  | pfcFrameReceived (port : Fin 1024) (classes : BitVec 8) (quanta : List (BitVec 16))
  /-- PFC_XOFF_REFRESH (R181): XOFF is repeated each half quanta while the class stays paused. -/
  | pfcXoffRefresh (port : Fin 1024) (cls : Fin 8)
  /-- PFC_QUANTA_EXPIRY (R183): A received pause's quanta expire and the class resumes. -/
  | pfcQuantaExpiry (port : Fin 1024) (cls : Fin 8)
  /-- PAUSE_RECEIVED (R184): An 802.3 PAUSE or misdirected PFC frame is discarded and counted. -/
  | pauseReceived (port : Fin 1024)
  /-- LINK_INIT_RECEIVED (R190): A fabric INIT frame advances or restarts link initialisation. -/
  | linkInitReceived (port : Fin 1024) (payload : List Byte)
  /-- LINK_INIT_TIMER (R190): Every 10 µs during LINK_INIT an INIT frame is sent. -/
  | linkInitTimer (port : Fin 1024)
  /-- INIT_TIMEOUT (R190): Initialisation incomplete after 100 ms sets INIT_TIMEOUT. -/
  | initTimeout (port : Fin 1024)
  /-- LINK_STATUS_RECEIVED (R199): A STATUS frame returns credits, acknowledges frames, measures RTT, or triggers retransmission on NAK. -/
  | linkStatusReceived (port : Fin 1024) (payload : List Byte)
  /-- LINK_STATUS_TIMER (R198): Each end sends STATUS at least every 250 ns. -/
  | linkStatusTimer (port : Fin 1024)
  /-- LINK_RETRY_TIMEOUT (R199): No ACK advance for RTT plus 2 µs resends from the oldest held frame. -/
  | linkRetryTimeout (port : Fin 1024)
  /-- MARKER_RECEIVED (R203): An accepted MARKER applies its lane, laser or Ford change to later frames. -/
  | markerReceived (port : Fin 1024) (tag : BitVec 48) (payload : List Byte)
  /-- LANE_SWAP (R155): A spare lane is trained and switched in behind a logical lane. -/
  | laneSwap (port : Fin 1024) (lane : Fin 8)
  /-- SLIPWAY_SPILL (R208): Cells of reservations or long queues are moved to HBM in pages. -/
  | slipwaySpill (die : Fin 2)
  /-- SLIPWAY_PAGE_FETCH (R209): A resident queue's next page is requested when its head falls below HEAD_CELLS. -/
  | slipwayPageFetch (queue : Fin 1048576)
  /-- SLIPWAY_FETCH_DONE (R212): A page lands in SRAM, or an uncorrectable read drops or stomps its frames. -/
  | slipwayFetchDone (queue : Fin 1048576) (readOk : Bool)
  /-- FENCE_RELEASE (R300): A held fence packet becomes eligible once earlier packets of its phase are complete. -/
  | fenceRelease (slot : Fin 65536)
  /-- LEARN (R234): A pipeline's table engine inserts or moves a learned entry and writes a record. -/
  | learn (pipeline : Fin 8)
  /-- LEARN_ENABLE (R239): Write setting FT_LEARN_CFG.ENABLE, checked against alignment and HOST_REGION. -/
  | learnEnable (value : Word)
  /-- AGE_SWEEP_VISIT (R241): The sweeper visits a slot, clearing HIT, setting STALE or removing the entry. -/
  | ageSweepVisit (pipeline : Fin 8) (way : Fin 4) (slot : Fin 1048576)
  /-- TABLE_IMAGE_LOAD_START (R231): Setting FT_PIPE_CTL.IMAGE_LOAD clears the table and opens it to image writes. -/
  | tableImageLoadStart (pipeline : Fin 8) (value : Word)
  /-- TABLE_IMAGE_CHECK (R233): Clearing IMAGE_LOAD starts the check of every slot. -/
  | tableImageCheck (pipeline : Fin 8) (value : Word)
  /-- TABLE_IMAGE_DONE (R233): Clearing or checking completes, IMAGE_BUSY falls and lookups resume. -/
  | tableImageDone (pipeline : Fin 8)
  /-- LPM_IMAGE_LOAD_START (R248): Setting FT_LPM_CFG.IMAGE_LOAD clears every LPM copy. -/
  | lpmImageLoadStart (value : Word)
  /-- LPM_IMAGE_CHECK (R249): Clearing IMAGE_LOAD checks the LPM image and clears it all if invalid. -/
  | lpmImageCheck (value : Word)
  /-- SPRAY_GROUP_COMMIT (R254): Write of FT_GROUP_CFG makes a group's count and members take effect together. -/
  | sprayGroupCommit (group : Fin 4096) (value : Word)
  /-- GATE_COMMIT (R288): TQ_GATE_CTL.COMMIT copies the administrative schedule into the pending copy or is refused. -/
  | gateCommit (schedule : Fin 128) (value : Word)
  /-- GATE_CHANGE (R289): At the change time the pending gate list becomes operational. -/
  | gateChange (schedule : Fin 128)
  /-- GATE_CYCLE_START (R290): An operational gate cycle begins, possibly extended before a change. -/
  | gateCycleStart (schedule : Fin 128)
  /-- GATE_ENTRY_END (R291): A gate-list entry's interval ends and the next gate states apply. -/
  | gateEntryEnd (schedule : Fin 128)
  /-- METER_REFILL (R284): Meter buckets are refilled at their configured rates. -/
  | meterRefill (meter : Fin 65536) (ns : Nat)
  /-- METER_PROFILE_APPLY (R283): Write of profile word 0 applies words 0–2 to every meter of the profile, or is refused. -/
  | meterProfileApply (profile : Fin 256) (value : Word)
  /-- METER_RESTART (R281): Write of TQ_METER_CFG restarts a meter with full buckets. -/
  | meterRestart (meter : Fin 65536) (value : BitVec 32)
  /-- CONTRIBUTION_RECEIVED (R431): A CONTRIBUTION addressed to the device is checked and steered to its landing frame, early slot, wait or drop. -/
  | contributionReceived (port : Fin 1024) (tag : Option (BitVec 48)) (packet : List Byte)
  /-- CONTRIBUTION_COUNTED (R342): A landed contribution passes FCS, sequence and check word and is counted into its mooring. -/
  | contributionCounted (port : Fin 1024) (fcs : Fcs)
  /-- ARM_WAIT_EXPIRY (R435): A contribution waiting for arming is dropped as NOT_ARMED after ARM_WAIT_US. -/
  | armWaitExpiry
  /-- TRIGGER_INSTANT (R382): A time trigger instant of a slot arrives; the epoch's nominal start comes or the instant is skipped. -/
  | triggerInstant (slot : Fin 128)
  /-- EPOCH_START (R384): An epoch starts on the first RED edge at which all start conditions hold. -/
  | epochStart (slot : Fin 128)
  /-- EPOCH_END (R386): An epoch ends L cycles after its first edge; halves are released and records counted. -/
  | epochEnd (slot : Fin 128)
  /-- EPOCH_RERUN (R392): A void epoch is run again with the same number, halves and program. -/
  | epochRerun (slot : Fin 128)
  /-- CLEAR (R373): Tile instruction that zeroes a block's accumulator slots and check register. -/
  | clear (slot : Fin 128) (tile : Fin 176)
  /-- ADD (R328): Tile instruction that converts a landed payload and adds it exactly into accumulators and the check register. -/
  | add (slot : Fin 128) (tile : Fin 176) (sram : Sram)
  /-- CHECK (R343): Tile instruction that compares the accumulators' exact check with the check register. -/
  | check (slot : Fin 128) (tile : Fin 176) (sram : Sram) (holds : Bool)
  /-- ROUND (R345): Tile instruction that rounds elements in units A and B into a staging buffer and computes its output check. -/
  | round (slot : Fin 128) (tile : Fin 176) (sram : Sram) (mismatch : Bool)
  /-- SEND (R441): Tile instruction that hands a staging buffer to the result port as a result write or upward contribution. -/
  | send (slot : Fin 128) (tile : Fin 176)
  /-- MLOAD (R373): Tile instruction that reads matrix rows from HBM into the weight store with column sums. -/
  | mload (slot : Fin 128) (tile : Fin 176) (onTime : Bool)
  /-- PROJ (R347): Tile instruction that multiplies a block's G by the resident matrix into output accumulators. -/
  | proj (slot : Fin 128) (tile : Fin 176)
  /-- PCHECK (R351): Tile instruction that runs the row and column residue checks of a projection. -/
  | pcheck (slot : Fin 128) (tile : Fin 176) (holds : Bool)
  /-- SPILL (R373): Tile instruction that writes a block's slots to the spill buffer in HBM. -/
  | spill (slot : Fin 128) (tile : Fin 176) (sram : Sram)
  /-- FILL (R373): Tile instruction that reads a block's slots back from the spill buffer. -/
  | fill (slot : Fin 128) (tile : Fin 176) (onTime : Bool)
  /-- REPEAT (R373): Tile instruction that runs the next SPAN instructions COUNT times with offset and block increments. -/
  | repeat (slot : Fin 128) (tile : Fin 176)
  /-- GEN (R373): Sentinel-only tile instruction that generates inputs inside the tile. -/
  | gen (die : Fin 2) (phys : Fin 96)
  /-- TIDELINE_EVALUATION (R586): Every 10 µs Tideline evaluates a reduction die and requests a variant or clock stretch. -/
  | tidelineEvaluation (die : Fin 2) (dies : List (BitVec 12 × BitVec 12)) (rise : Int) (package : BitVec 12)
  /-- VOLTAGE_RAMP_DONE (R585): A reduction die's voltage reaches the faster variant's level and the clock change is requested. -/
  | voltageRampDone (die : Fin 2)
  /-- VARIANT_CHANGE (R387): After running epochs end and X4 empties, the reduction die changes clock variant. -/
  | variantChange (die : Fin 2)
  /-- SENTINEL_RUN (R397): The device runs a sentinel manifest on a tile and compares its digest. -/
  | sentinelRun (die : Fin 2) (phys : Fin 96) (pattern : Fin 64) (pass : Bool)
  /-- LOCKSTEP_ENABLE (R399): Setting MF_LS_CFG.ENABLE reserves the pair port or sets CFG_ERR. -/
  | lockstepEnable (value : Word)
  /-- LOCKSTEP_DIGEST_RECEIVED (R401): A peer DIGEST is stored and compared field by field with the own digest. -/
  | lockstepDigestReceived (port : Fin 1024) (tag : Option (BitVec 48)) (payload : List Byte)
  /-- LOCKSTEP_PEER_TIMEOUT (R403): A peer digest missing after TIMEOUT_US sets PEER_LATE and drops the comparison. -/
  | lockstepPeerTimeout (slot : Fin 128)
  /-- LOCKSTEP_MISMATCH_CLEAR (R404): Writing 1 to MISMATCH unfreezes tile entries and resumes halted slots. -/
  | lockstepMismatchClear (value : Word)
  /-- REPLAY_TIMER (R448): A frame still empty REPLAY_AFTER_US after its use began triggers a REPLAY_REQUEST. -/
  | replayTimer (group : Fin 32768) (leg : Fin 33) (half : Fin 2)
  /-- REPLAY_REQUEST_RECEIVED (R449): A received REPLAY_REQUEST queues a rerun of the unacknowledged operation. -/
  | replayRequestReceived (port : Fin 1024) (tag : Option (BitVec 48)) (packet : List Byte)
  /-- HOP_ACK_RECEIVED (R446): A received HOP_ACK acknowledges an operation or broadcast version. -/
  | hopAckReceived (port : Fin 1024) (tag : Option (BitVec 48)) (packet : List Byte)
  /-- RESULT_WRITE_RECEIVED (R443): A relay device receives a result write or record and places it for its own members. -/
  | resultWriteReceived (port : Fin 1024) (tag : Option (BitVec 48)) (packet : List Byte)
  /-- BROADCAST_RECEIVED (R452): A BROADCAST block is taken, replacing the held version once complete, and acknowledged. -/
  | broadcastReceived (port : Fin 1024) (tag : Option (BitVec 48)) (packet : List Byte)
  /-- BROADCAST_RESEND (R452): Every RESEND_US the held version is resent to unacknowledged members. -/
  | broadcastResend (group : Fin 32768)
  /-- RETAINED_GROUP_EXPIRY (R457): Retained groups not restored within 1 s of reactivation are discarded. -/
  | retainedGroupExpiry (partition : Fin 256)
  /-- MOORING_CHECKPOINT (R491): Every 1 ms the mooring store is written to the older checkpoint. -/
  | mooringCheckpoint (die : Fin 2)
  /-- CACHE_RESIZE (R467): Write of MS_CACHE_CFG.SHARE starts a cache resize or is refused. -/
  | cacheResize (die : Fin 2) (value : Word)
  /-- CACHE_RESIZE_DONE (R467): The resize completes and RESIZING falls. -/
  | cacheResizeDone (die : Fin 2)
  /-- HINT_RANGE_SET (R482): Write of MS_HINT_RANGE word 1 validates and applies a hint range or sets HINT_REFUSED. -/
  | hintRangeSet (die : Fin 2) (range : Fin 16) (value : Word)
  /-- WCB_FLUSH (R481): A write-combining entry is written to HBM when full, 10 µs old or needed. -/
  | wcbFlush (stripe : Fin 536870912) (sram : Sram)
  /-- HBM_READ_COMPLETE (R475): A stripe read returns and is decoded as clean, corrected, erasure-filled or uncorrectable. -/
  | hbmReadComplete (stripe : Fin 536870912) (read : StripeRead)
  /-- PATROL_SCRUB (R477): The scrubber reads and corrects the next stripe of its stack. -/
  | patrolScrub (stack : Fin 12) (read : StripeRead)
  /-- HBM_RETRAIN_REQUEST (R497): MS_HBM_CTL.RETRAIN or a device trigger queues a pseudo-channel retrain. -/
  | hbmRetrainRequest (stack : Fin 12) (cause : RetrainCause)
  /-- HBM_RETRAIN_START (R499): A queued retrain starts, declaring the pseudo-channel an erasure. -/
  | hbmRetrainStart (stack : Fin 12)
  /-- HBM_PHY_RETRAIN_DONE (R499): The PHY retrain and row repairs of a pseudo-channel finish and the rebuild sweep begins. -/
  | hbmPhyRetrainDone (stack : Fin 12) (trained : Bool) (spareRows : BitVec 8)
  /-- HBM_RETRAIN_DONE (R499): The rebuild sweep ends, the erasure is lifted and full rate returns. -/
  | hbmRetrainDone (stack : Fin 12)
  /-- HBM_TEST_ENTER (R503): Setting MS_HBM_CTL.TEST withdraws a stack for test access, or is discarded. -/
  | hbmTestEnter (stack : Fin 12) (value : Word)
  /-- HBM_TEST_SHIFT (R504): MS_HBM_TEST_CMD.GO shifts data through the stack's test wrapper. -/
  | hbmTestShift (stack : Fin 12) (value : Word)
  /-- HBM_TEST_SHIFT_DONE (R504): The wrapper shift ends and BUSY falls. -/
  | hbmTestShiftDone (stack : Fin 12) (data : List Byte)
  /-- HBM_TEST_EXIT (R505): Clearing TEST retrains and zeroes the stack. -/
  | hbmTestExit (stack : Fin 12) (value : Word)
  /-- FLOW_ENABLE (R495): Setting MS_FLOW_CFG.ENABLE starts flow counting or sets CFG_ERR. -/
  | flowEnable (pipeline : Fin 8) (value : Word)
  /-- FLOW_ENTRY_FLUSH (R493): A gathered flow entry is added to HBM with ADD32 on eviction or age. -/
  | flowEntryFlush (pipeline : Fin 8) (index : Fin 16777216)
  /-- ENGINE_DOWN_FRAME (R524): Every 1 µs ring heaters are updated by the tuning loop and a down frame sent. -/
  | engineDownFrame (engine : Fin 16) (p0 p1 : BitVec 12)
  /-- ENGINE_UP_FRAME (R521): An engine up frame delivers monitor readings and command acknowledgement. -/
  | engineUpFrame (engine : Fin 16) (frame : List Byte)
  /-- ENGINE_HOLD_EXPIRY (R522): An engine in HOLD for 10 ms leaves service. -/
  | engineHoldExpiry (engine : Fin 16)
  /-- LASER_DOWN_FRAME (R523): Every 100 µs drive currents are sent to a laser module. -/
  | laserDownFrame (laserModule : Fin 4)
  /-- LASER_UP_FRAME (R536): A laser up frame gives monitor powers and the active laser's current is adjusted. -/
  | laserUpFrame (laserModule : Fin 4) (frame : List Byte)
  /-- LASER_LINK_TIMEOUT (R523): 100 ms without a good laser frame marks the module not ready. -/
  | laserLinkTimeout (laserModule : Fin 4)
  /-- LASER_TREND_SAMPLE (R537): Once a second each laser's margin trend and PREDICT_S are refitted. -/
  | laserTrendSample (laserModule : Fin 4)
  /-- LASER_SPARE_AT_POWER (R539): The spare laser reaches SET_POWER, rings relock and the position reads SPARE_USED. -/
  | laserSpareAtPower (laserModule : Fin 4) (position : Fin 9) (reached : Bool)
  /-- LASER_SAFETY_CUT (R541): A laser above 21 dBm for 10 µs, or an interlock, is cut back or switched off. -/
  | laserSafetyCut (laserModule : Fin 4) (cut : LaserCut)
  /-- MOVE_REQUEST (R530): A received MOVE_REQUEST is granted or refused by the fibre's receiver. -/
  | moveRequest (port : Fin 1024) (tag : Option (BitVec 48)) (payload : List Byte)
  /-- MOVE_GRANT (R530): A received grant lets the transmitter bridge the lane and send its LASER_SWAP marker. -/
  | moveGrant (port : Fin 1024) (tag : Option (BitVec 48)) (payload : List Byte)
  /-- MOVE_REFUSE (R532): A received refusal abandons the move for later, or forces an unbridged move. -/
  | moveRefuse (port : Fin 1024) (tag : Option (BitVec 48)) (payload : List Byte)
  /-- MOVE_ANSWER_TIMEOUT (R530): No answer to a MOVE_REQUEST within 1 ms counts as a refusal. -/
  | moveAnswerTimeout (fibre : Fin 256)
  /-- CALIBRATION_START (R533): The oldest-calibrated channel of a ROTATING fibre is moved to FREE for calibration. -/
  | calibrationStart (fibre : Fin 256)
  /-- CALIBRATION_DONE (R533): The channel's sweep ends, new ring values are set and it becomes FREE. -/
  | calibrationDone (fibre : Fin 256) (target ki window : BitVec 16)
  /-- FORD_WINDOW (R543): At each WINDOW the pair demand is measured and circuits offered or removed. -/
  | fordWindow (engine : Fin 16)
  /-- FORD_ACCEPT (R545): A leaf's acceptance; with both accepted, FORD_ADD markers are sent. -/
  | fordAccept (port : Fin 1024) (tag : Option (BitVec 48)) (payload : List Byte)
  /-- FORD_DECLINE (R545): A leaf's decline withdraws the offer and holds the pair off. -/
  | fordDecline (port : Fin 1024) (tag : Option (BitVec 48)) (payload : List Byte)
  /-- FORD_ANSWER_TIMEOUT (R545): No answer to an offer within 1 ms is handled as a decline. -/
  | fordAnswerTimeout (engine : Fin 16) (circuit : Fin 8)
  /-- FORD_RELEASED (R547): A leaf's release lets the device park Ford rings and restore lanes. -/
  | fordReleased (port : Fin 1024) (tag : Option (BitVec 48)) (payload : List Byte)
  /-- FORD_RELEASE_TIMEOUT (R547): 1 ms without FORD_RELEASED continues circuit removal. -/
  | fordReleaseTimeout (engine : Fin 16) (circuit : Fin 8)
  /-- FORD_REMOVE_CMD (R552): OC_FORD_CMD.REMOVE removes the circuit holding a port. -/
  | fordRemoveCmd (value : Word)
  /-- TIME_ADJUST (R561): Write of ADJ_NS adds to a domain's REMAINING slew. -/
  | timeAdjust (domain : Fin 2) (value : Word)
  /-- TIME_STEP (R562): TB_DOM_CTL.STEP loads a domain's value and withdraws it. -/
  | timeStep (domain : Fin 2) (value : Word)
  /-- TIME_STEP_SETTLED (R562): 10,000 cycles after a step the domain is ready again and consumers resume. -/
  | timeStepSettled (domain : Fin 2)
  /-- DOMAIN_ENABLE (R564): Setting TB_DOM_CTL.ENABLE starts a domain, domain 1 copying domain 0. -/
  | domainEnable (domain : Fin 2) (value : Word)
  /-- DOMAIN_FOLLOW (R565): Setting FOLLOW makes a domain slew onto the other and then copy it. -/
  | domainFollow (domain : Fin 2) (value : Word)
  /-- TCLK_LOST (R567): No TCLK edge for 200 ns enters holdover. -/
  | tclkLost
  /-- HOLDOVER_EXPIRY (R567): After HOLDOVER_MS both domains leave readiness. -/
  | holdoverExpiry
  /-- TCLK_RELOCK (R568): TCLK returns and the PLL relocks; enabled domains become ready. -/
  | tclkRelock
  /-- REPLICA_CHECK (R569): Every 1 ms replicas are compared and any that differ realigned. -/
  | replicaCheck (drift : List (Fin 9 × Int))
  /-- TIME_SNAPSHOT (R580): TB_SNAP_CTL.GO captures both domains at one edge. -/
  | timeSnapshot (value : Word)
  /-- TRIGGER_CONFIG_WRITE (R576): A write to a trigger output's registers takes effect at a common edge or is refused. -/
  | triggerConfigWrite (output : Fin 8) (register : Fin 4) (value : Word)
  /-- TRIGGER_OUTPUT_CHANGE (R574): A trigger output changes level at its scheduled instant. -/
  | triggerOutputChange (output : Fin 8) (level : Bool)
  /-- PPS_OUTPUT_PULSE (R577): PPS_OUT rises at each whole second of its domain plus LEAD_NS. -/
  | ppsOutputPulse (level : Bool)
  /-- CAPTURE_EDGE (R578): An edge on a capture input writes both domains' times into its FIFO. -/
  | captureEdge (input : Fin 5) (rising : Bool)
  /-- CAPTURE_POP (R579): TB_CAP_CTL.POP removes the oldest capture entry. -/
  | capturePop (input : Fin 5) (value : Word)
  /-- TEMP_EMERGENCY (R593): A sensor reaching 110 °C forces stretch or variant 3 and epoch gaps. -/
  | tempEmergency (die : Fin 9) (temp : BitVec 12)
  /-- RAIL_CURRENT_LIMIT (R593): A rail over its current limit for 1 µs forces stretch and variant 3. -/
  | railCurrentLimit (rail : Rail) (sensed : BitVec 16)
  /-- SAFETY_RELEASE (R597): A sensed value inside its limit for 1 ms releases the safety action. -/
  | safetyRelease (limit : Limit)
  /-- THERMAL_TRIP (R595): 120 °C asserts THERMTRIP_L, stops all but TIME, switches lasers off and records the trip. -/
  | thermalTrip (die : Fin 9) (sensor : BitVec 5) (temp : BitVec 12)
  /-- RAIL_FAULT (R636): A rail outside 92–108% for 2 µs stops the device with FAULT_L or holds dies in reset. -/
  | railFault (rail : Rail)
  /-- CORE_REFCLK_LOST (R639): CORE_REFCLK missing for 1 µs in service stops the device with FAULT_L. -/
  | coreRefclkLost
  /-- SERDES_REFCLK_LOST (R639): A missing SERDES_REFCLK takes every port of its port die down. -/
  | serdesRefclkLost (die : Fin 4)
  /-- SERDES_REFCLK_RESTORED (R639): A restored SERDES_REFCLK lets the die's ports retrain. -/
  | serdesRefclkRestored (die : Fin 4)
  /-- BRIDGE_REPLAY (R23): A bridge transfer unit with a bad CRC is replayed from the sender. -/
  | bridgeReplay (bridge : Fin 9) (unit : BitVec 16)
  /-- BRIDGE_RETRAIN (R24): Eight failed replays make both ends retrain the bridge under back-pressure. -/
  | bridgeRetrain (bridge : Fin 9)
  /-- BRIDGE_RETRAIN_DONE (R616): A bridge retrain ends, or three failures make the bridge FAILED and reset a die. -/
  | bridgeRetrainDone (bridge : Fin 9) (ok : Bool)
  /-- DIE_RESET (R617): Recovery resets one PD, SD or RD die and restores it from the control die. -/
  | dieReset (die : Fin 8)
  /-- DIE_RESET_DONE (R617): A reset die's functions are restored and rise in BT_READY_MAP. -/
  | dieResetDone (die : Fin 8) (copies : List (Fin 64)) (checkpoints : Fin 3)
  /-- LANE_ERROR_CHECK (R606): Each second a lane's error ratio and lock losses are judged for permanent failure. -/
  | laneErrorCheck (lane : Fin 2304) (errors symbols : BitVec 64) (losses : Fin 4)
  /-- RECOVERY_START (R611): A permanent fault starts a recovery of its unit in QUIESCE. -/
  | recoveryStart (kind : Fin 16) (logical : BitVec 32)
  /-- RECOVERY_STATE_DONE (R611): A recovery state completes and the next state begins, up to RESUME. -/
  | recoveryStateDone (place : Fin 16) (lost : List (Fin 256))
  /-- RETIRE_REQUEST (R608): FH_RETIRE_REQ.GO retires a named physical unit as if it had failed. -/
  | retireRequest (value : Word)
  /-- MERGE_WINDOW_EXPIRY (R620): A merge window ends and one record with the merged COUNT is written. -/
  | mergeWindowExpiry (code : BitVec 16) (logical : BitVec 32)
  /-- LOG_ACK (R622): Write of FH_LOG_ACK, resending vector 0 if records lie beyond it. -/
  | logAck (value : Word)
  /-- PROGRESS_TICK (R626): Every 64 ms the full-service or short-service progress count advances. -/
  | progressTick
  /-- LPM_IMAGE_DONE (R249): The clearing of every LPM copy, or the check of a loaded image, completes, IMAGE_BUSY falls and LPM lookups resume. -/
  | lpmImageDone
  /-- ENGINE_ENTERS_HOLD (R522): An engine link loses its good frames for 20 µs, the engine enters HOLD, LINK_HOLD is set and the control unit starts retraining the link. -/
  | engineEntersHold (engine : Fin 16)
  /-- ENGINE_LINK_RETRAINED (R522): The retrain of an engine link completes within 2 ms, the engine leaves HOLD and the tuning loops resume. -/
  | engineLinkRetrained (engine : Fin 16)
  /-- DOMAIN_LOCKED (R565): A following time domain comes to agree with the other domain in all 112 bits, copies it from then on and TB_STATUS shows it LOCKED. -/
  | domainLocked (domain : Fin 2)
  /-- CORE_REFCLK_RESTORED (R639): CORE_REFCLK arrives after POR_L has risen, and start-up proceeds from step 1. -/
  | coreRefclkRestored
  deriving DecidableEq, Repr

end Sys2Proof
end

