-- ==== Sys2Proof/Machine/Bits.lean ====
section
/-! DEFINITION. Bit fields of numbers, byte strings as numbers in both byte orders (R11 little-endian for
registers and records, R12 most significant byte first on the wire), saturating and wrapping counts. -/

namespace Sys2Proof.Machine

/-- Bits `hi` down to `lo` of `n`, as a number. -/
def bitsOf (n hi lo : Nat) : Nat := (n >>> lo) % 2 ^ (hi + 1 - lo)

/-- Bit `i` of `n`. -/
def bitOf (n i : Nat) : Bool := n.testBit i

/-- `n` with bits `hi` down to `lo` replaced by the low bits of `v`. -/
def withBits (n hi lo v : Nat) : Nat :=
  n - (bitsOf n hi lo) * 2 ^ lo + (v % 2 ^ (hi + 1 - lo)) * 2 ^ lo

/-- A truth value as a bit. -/
def bit (b : Bool) : Nat := if b then 1 else 0

/-- `n` read as a two's complement number of `w` bits. -/
def sext (w n : Nat) : Int :=
  if n % 2 ^ w < 2 ^ (w - 1) then ((n % 2 ^ w : Nat) : Int) else ((n % 2 ^ w : Nat) : Int) - ((2 ^ w : Nat) : Int)

/-- An integer as a two's complement number of `w` bits. -/
def twos (w : Nat) (i : Int) : Nat := (i % ((2 ^ w : Nat) : Int)).toNat

/-- The sum of `a` and `b`, stopping at the largest `w`-bit number. -/
def satAdd (w a b : Nat) : Nat := min (a + b) (2 ^ w - 1)

/-- The sum of `a` and `b` modulo `2 ^ w`. -/
def wrapAdd (w a b : Nat) : Nat := (a + b) % 2 ^ w

/-- The forward distance from `b` to `a` modulo `2 ^ w`. -/
def wrapSub (w a b : Nat) : Nat := (a % 2 ^ w + 2 ^ w - b % 2 ^ w) % 2 ^ w

/-- The least multiple of `m` that is at least `n`. -/
def roundUp (m n : Nat) : Nat := (n + m - 1) / m * m

/-- The number a byte string spells, its first byte least significant (R11). -/
def leNat : List Byte → Nat
  | [] => 0
  | b :: bs => b.toNat + 256 * leNat bs

/-- The number a byte string spells, its first byte most significant (R12). -/
def beNat (bs : List Byte) : Nat := bs.foldl (fun n b => 256 * n + b.toNat) 0

/-- `n` as `len` bytes, the least significant first. -/
def natLe : Nat → Nat → List Byte
  | 0, _ => []
  | len + 1, n => BitVec.ofNat 8 n :: natLe len (n / 256)

/-- `n` as `len` bytes, the most significant first. -/
def natBe (len n : Nat) : List Byte := (natLe len n).reverse

/-- The `len` bytes of a string from offset `off`; shorter where the string ends. -/
def slice (bs : List Byte) (off len : Nat) : List Byte := (bs.drop off).take len

/-- The little-endian field of `len` bytes at offset `off`. -/
def le (bs : List Byte) (off len : Nat) : Nat := leNat (slice bs off len)

/-- The big-endian field of `len` bytes at offset `off`. -/
def be (bs : List Byte) (off len : Nat) : Nat := beNat (slice bs off len)

/-- A run of zero bytes. -/
def zeros (n : Nat) : List Byte := List.replicate n 0

/-- Every byte of the string is zero. -/
def allZero (bs : List Byte) : Bool := bs.all (fun b => b == 0)

/-- The string cut or padded with zeros to exactly `n` bytes. -/
def fitTo (n : Nat) (bs : List Byte) : List Byte := bs.take n ++ zeros (n - bs.length)

/-- A string with the bytes from offset `off` on overwritten. -/
def overlay (bs : List Byte) (off : Nat) (new : List Byte) : List Byte :=
  fitTo off bs ++ new ++ bs.drop (off + new.length)

/-- A byte string cut into pieces of `n` bytes, at most `fuel` of them. -/
def chunks (n : Nat) : Nat → List Byte → List (List Byte)
  | 0, _ => []
  | fuel + 1, bs => if bs.isEmpty then [] else bs.take n :: chunks n fuel (bs.drop n)

/-- The positions of the set bits of `n` below `w`, rising. -/
def setBits (w n : Nat) : List Nat := (List.range w).filter (fun i => n.testBit i)

/-- The number of set bits of `n` below `w`. -/
def popCount (w n : Nat) : Nat := (setBits w n).length

/-- Replace the element at place `i` of a list (no change past its end). -/
def setAt {α : Type} (l : List α) (i : Nat) (v : α) : List α := l.set i v

/-- The first place at which a predicate holds, if any. -/
def findPlace {α : Type} (p : α → Bool) (l : List α) : Option Nat :=
  let i := l.findIdx p
  if i < l.length then some i else none

end Sys2Proof.Machine
end

