-- ==== Sys2Proof/Machine/Arith.lean ====
section
/-! DEFINITION. Exact arithmetic (R316, R319 to R336): element formats, conversion to fixed point, accumulation
and rounding. Every value is an exact integer multiple of a power of two. -/

namespace Sys2Proof.Machine

/-! ### Formats (R319 to R324) -/

/-- What a floating-point format keeps of its top exponent. -/
inductive TopExp where
  /-- Infinity and NaN, as IEEE 754. -/
  | ieee
  /-- One NaN, at the top mantissa. -/
  | nanOnly
  /-- Finite values only. -/
  | finite
  deriving DecidableEq, Repr

/-- A floating-point element: exponent bits, mantissa bits, bias (R324). -/
structure FloatFmt where
  eb : Nat
  m : Nat
  bias : Nat
  top : TopExp
  deriving DecidableEq, Repr

/-- R319, R324: the floating-point element of a format code. -/
def floatFmt : Nat → Option FloatFmt
  | 0x01 => some ⟨8, 23, 127, .ieee⟩
  | 0x02 => some ⟨8, 7, 127, .ieee⟩
  | 0x03 => some ⟨5, 10, 15, .ieee⟩
  | 0x04 => some ⟨4, 3, 7, .nanOnly⟩
  | 0x05 => some ⟨5, 2, 15, .ieee⟩
  | 0x10 => some ⟨4, 3, 7, .nanOnly⟩
  | 0x11 => some ⟨5, 2, 15, .ieee⟩
  | 0x12 => some ⟨3, 2, 3, .finite⟩
  | 0x13 => some ⟨2, 3, 1, .finite⟩
  | 0x14 => some ⟨2, 1, 1, .finite⟩
  | _ => none

/-- R319: a format code is defined and carries elements. -/
def formatDefined (c : Nat) : Bool :=
  decide ((1 ≤ c ∧ c ≤ 5) ∨ (0x10 ≤ c ∧ c ≤ 0x15) ∨ c = 0x20 ∨ c = 0x21 ∨ c = 0x30 ∨ c = 0x31)

/-- An MX format. -/
def isMx (c : Nat) : Bool := decide (0x10 ≤ c ∧ c ≤ 0x15)

/-- R319: bits of an element. -/
def formatBits (c : Nat) : Nat :=
  match c with
  | 0x01 => 32 | 0x02 => 16 | 0x03 => 16 | 0x04 => 8 | 0x05 => 8
  | 0x10 => 8 | 0x11 => 8 | 0x12 => 6 | 0x13 => 6 | 0x14 => 4 | 0x15 => 8
  | 0x20 => 8 | 0x21 => 32 | 0x30 => 320 | 0x31 => 128
  | _ => 0

/-- An accumulator layout (R316, R325): wide and narrow with L, their unit being 2^-L, and integer. -/
inductive Layout where
  | wide
  | narrow (l : Nat)
  | integer
  deriving DecidableEq, Repr

/-- R319, R325: the layout of an input format. -/
def layoutOf (c : Nat) : Layout :=
  match c with
  | 0x04 => .narrow 9
  | 0x05 => .narrow 16
  | 0x20 => .integer
  | 0x21 => .integer
  | 0x31 => .integer
  | _ => .wide

/-- L of a layout: its unit is 2^-L. -/
def Layout.unit : Layout → Nat
  | .wide => 149
  | .narrow l => l
  | .integer => 0

/-- R316: accumulators that a slot holds. -/
def Layout.perSlot : Layout → Nat
  | .wide => 1
  | .narrow _ => 6
  | .integer => 3

/-- R320: an output format is allowed for an input layout. -/
def outAllowed (l : Layout) (c : Nat) : Bool :=
  match l with
  | .wide => decide (1 ≤ c ∧ c ≤ 5) || isMx c || c == 0x30
  | .narrow _ => decide (1 ≤ c ∧ c ≤ 5) || c == 0x30
  | .integer => c == 0x20 || c == 0x21 || c == 0x31

/-- R321, R322: payload bytes of `n` elements. -/
def payloadBytes (c n : Nat) : Nat :=
  if isMx c then roundUp 8 (n / 32) + n * formatBits c / 8 else n * formatBits c / 8

/-- R369, R411: a block size that a format can have: at least one element, MX units whole, within 8,192 bytes. -/
def blockSizeOk (c n : Nat) : Bool := decide (1 ≤ n ∧ payloadBytes c n ≤ 8192) && (!isMx c || n % 32 == 0)

/-! ### Numbers -/

/-- A decoded element: a finite value sig × 2^exp with its sign, an infinity or a NaN. -/
inductive Num where
  | fin (neg : Bool) (sig : Nat) (exp : Int)
  | inf (neg : Bool)
  | nan
  deriving DecidableEq, Repr

/-- A signed magnitude. -/
def signed (neg : Bool) (n : Nat) : Int := if neg then -(n : Int) else (n : Int)

/-- R324: the value of an encoding. -/
def FloatFmt.decode (f : FloatFmt) (bits : Nat) : Num :=
  let neg := bits.testBit (f.eb + f.m)
  let e := bits / 2 ^ f.m % 2 ^ f.eb
  let fr := bits % 2 ^ f.m
  let topE := 2 ^ f.eb - 1
  if f.top = .ieee ∧ e = topE then (if fr = 0 then .inf neg else .nan)
  else if f.top = .nanOnly ∧ e = topE ∧ fr = 2 ^ f.m - 1 then .nan
  else if e = 0 then .fin neg fr (1 - f.bias - f.m : Int)
  else .fin neg (2 ^ f.m + fr) (e - f.bias - f.m : Int)

/-- A finite value times a power of two. -/
def Num.scale (k : Int) : Num → Num
  | .fin neg s e => .fin neg s (e + k)
  | n => n

/-- A signed integer as a number. -/
def Num.ofInt (i : Int) : Num := .fin (decide (i < 0)) i.natAbs 0

/-- R325, R326: the integer X of an element in units of 2^-L; zero for what is not finite. -/
def Num.toX (l : Nat) : Num → Int
  | .fin neg s e => signed neg (s * 2 ^ (e + l).toNat)
  | .inf _ => 0
  | .nan => 0

/-- R326: the flags an element sets: bit 0 NaN, bit 1 +Inf, bit 2 -Inf. -/
def Num.flags : Num → Nat
  | .fin _ _ _ => 0
  | .inf neg => if neg then 4 else 2
  | .nan => 1

/-! ### Payloads (R321 to R324) -/

/-- Element `i` of the element part of a payload, as raw bits. -/
def rawElement (c : Nat) (part : List Byte) (i : Nat) : Nat :=
  match formatBits c with
  | 6 => le part (i / 4 * 3) 3 / 2 ^ (6 * (i % 4)) % 64
  | 4 => le part (i / 2) 1 / 2 ^ (4 * (i % 2)) % 16
  | w => le part (i * (w / 8)) (w / 8)

/-- R323: an X-wide element, which a flag makes special. -/
def xwideElement (raw : Nat) : Num :=
  let fl := raw / 2 ^ 304 % 8
  if fl.testBit 0 then .nan
  else if fl.testBit 1 then .inf false
  else if fl.testBit 2 then .inf true
  else Num.scale (-149) (Num.ofInt (sext 304 raw))

/-- An element of MX format `c` under the E8M0 scale `s` (R324). -/
def mxElement (c s raw : Nat) : Num :=
  if s = 255 then .nan
  else
    let v := if c = 0x15 then Num.scale (-6) (Num.ofInt (sext 8 raw)) else match floatFmt c with
      | some f => f.decode raw
      | none => .nan
    v.scale ((s : Int) - 127)

/-- R321 to R324: the `n` elements of a payload. -/
def elements (c n : Nat) (payload : List Byte) : List Num :=
  let part := if isMx c then payload.drop (roundUp 8 (n / 32)) else payload
  (List.range n).map (fun i =>
    let raw := rawElement c part i
    if isMx c then mxElement c (le payload (i / 32) 1) raw
    else match floatFmt c with
      | some f => f.decode raw
      | none =>
        if c = 0x30 then xwideElement raw
        else if c = 0x31 then Num.ofInt (sext 96 raw)
        else Num.ofInt (sext (formatBits c) raw))

/-! ### Accumulators (R316, R328, R329) -/

/-- One accumulator: A, WRAP and FLAGS. -/
structure Accum where
  a : Int
  wrap : Int
  flags : Nat
  deriving DecidableEq, Repr

/-- Bits of the A field of a layout. -/
def Layout.bits : Layout → Nat
  | .wide => 304
  | .narrow _ => 48
  | .integer => 96

/-- R328: X is added with its flags. -/
def Accum.add (l : Layout) (v : Accum) (x : Int) (fl : Nat) : Accum :=
  let t := v.a + x
  let half : Int := ((2 ^ (l.bits - 1) : Nat) : Int)
  let f := match l with
    | .integer => 0
    | _ => v.flags ||| fl
  match l with
  | .narrow _ => ⟨t, 0, f⟩
  | _ =>
    if half ≤ t then ⟨t - 2 * half, v.wrap + 1, f⟩
    else if t < -half then ⟨t + 2 * half, v.wrap - 1, f⟩
    else ⟨t, v.wrap, f⟩

/-- R329: the exact sum. -/
def Accum.sum (l : Layout) (v : Accum) : Int :=
  match l with
  | .narrow _ => v.a
  | _ => v.a + v.wrap * ((2 ^ l.bits : Nat) : Int)

/-- R316: accumulator `j` of a 42-byte slot image. -/
def accumAt (l : Layout) (img : List Byte) (j : Nat) : Accum :=
  match l with
  | .wide => ⟨sext 304 (le img 0 38), sext 16 (le img 38 2), le img 40 1 % 8⟩
  | .narrow _ => ⟨sext 48 (le img (7 * j) 6), 0, le img (7 * j + 6) 1 % 8⟩
  | .integer => ⟨sext 96 (le img (14 * j) 12), sext 16 (le img (14 * j + 12) 2), 0⟩

/-- R316: a slot image with accumulator `j` stored. -/
def putAccum (l : Layout) (img : List Byte) (j : Nat) (v : Accum) : List Byte :=
  match l with
  | .wide => natLe 38 (twos 304 v.a) ++ natLe 2 (twos 16 v.wrap) ++ natLe 1 v.flags ++ natLe 1 0
  | .narrow _ => overlay img (7 * j) (natLe 6 (twos 48 v.a) ++ natLe 1 v.flags)
  | .integer => overlay img (14 * j) (natLe 12 (twos 96 v.a) ++ natLe 2 (twos 16 v.wrap))

/-- R370: accumulator slots that `e` elements need in a layout. -/
def Layout.slots (l : Layout) (e : Nat) : Nat := (e + l.perSlot - 1) / l.perSlot

/-! ### Rounding (R331, R332, R336) -/

/-- Rounding modes of byte 14 of the result record (R352). -/
inductive Mode where
  | rne
  | rtz
  | sr
  deriving DecidableEq, Repr

/-- The mode of a ROUNDING byte. -/
def modeOf (rounding : Nat) : Mode := if rounding % 4 = 0 then .rne else if rounding % 4 = 1 then .rtz else .sr

/-- SATURATE of a ROUNDING byte. -/
def saturates (rounding : Nat) : Bool := rounding.testBit 2

/-- R331: what an accumulator holds; a finite value is in units of 2^-L. -/
inductive Exact where
  | nan
  | inf (neg : Bool)
  | over (neg : Bool)
  | fin (s : Int)
  deriving DecidableEq, Repr

/-- R331: the classification of an accumulator. -/
def Accum.exact (l : Layout) (v : Accum) : Exact :=
  if v.flags.testBit 0 || (v.flags.testBit 1 && v.flags.testBit 2) then .nan
  else if v.flags.testBit 1 then .inf false
  else if v.flags.testBit 2 then .inf true
  else if l = .integer then .fin (v.sum l)
  else if 0 < v.wrap then .over false
  else if v.wrap < 0 then .over true
  else .fin (v.sum l)

/-- R333: the mixing function. -/
def mix64 (x : Nat) : Nat :=
  let a := (x ^^^ (x >>> 32)) * 0xD6E8FEB86659FD93 % 2 ^ 64
  let b := (a ^^^ (a >>> 29)) * 0xA3B195E4C5F22D17 % 2 ^ 64
  b ^^^ (b >>> 32)

/-- R333: the random value of output element `i`. -/
def srValue (seed group sequence block i : Nat) : Nat :=
  let a := mix64 (seed ^^^ group)
  let b := mix64 (a ^^^ sequence)
  mix64 (b ^^^ ((block * 65536 + i) % 2 ^ 64)) / 2 ^ 32

/-- R332: n of the magnitude sig × 2^exp in units of 2^qe, rounded by the mode. -/
def roundTo (mode : Mode) (u sig : Nat) (exp qe : Int) : Nat :=
  if qe ≤ exp then sig * 2 ^ (exp - qe).toNat
  else
    let d := 2 ^ (qe - exp).toNat
    let n := sig / d
    let r := sig % d
    match mode with
    | .rne => if d < 2 * r ∨ (2 * r = d ∧ n % 2 = 1) then n + 1 else n
    | .sr => if 2 ^ 32 ≤ r * 2 ^ 32 / d + u then n + 1 else n
    | .rtz => n

/-- ⌊log2⌋ of a non-zero magnitude sig × 2^exp. -/
def log2Of (sig : Nat) (exp : Int) : Int := (Nat.log2 sig : Int) + exp

/-- The largest finite value of a format, as sig × 2^exp. -/
def FloatFmt.largest (f : FloatFmt) : Nat × Int :=
  match f.top with
  | .ieee => (2 ^ (f.m + 1) - 1, ((2 ^ f.eb - 2 : Nat) : Int) - f.bias - f.m)
  | .nanOnly => (2 ^ (f.m + 1) - 2, ((2 ^ f.eb - 1 : Nat) : Int) - f.bias - f.m)
  | .finite => (2 ^ (f.m + 1) - 1, ((2 ^ f.eb - 1 : Nat) : Int) - f.bias - f.m)

/-- The encoding of n × 2^qe without its sign, n at most 2^(m + 1) (R332). -/
def FloatFmt.encode (f : FloatFmt) (n : Nat) (qe : Int) : Nat :=
  if n < 2 ^ f.m then n
  else
    let (n', q') := if n = 2 ^ (f.m + 1) then (2 ^ f.m, qe + 1) else (n, qe)
    (q' + f.bias + f.m).toNat * 2 ^ f.m + (n' - 2 ^ f.m)

/-- The encoding of the largest finite value. -/
def FloatFmt.largestBits (f : FloatFmt) : Nat := f.encode f.largest.1 f.largest.2

/-- R336: the positive encoding of an infinity; E4M3 has none and gives its NaN. -/
def FloatFmt.infBits (f : FloatFmt) : Nat :=
  match f.top with
  | .ieee => (2 ^ f.eb - 1) * 2 ^ f.m
  | _ => 2 ^ (f.eb + f.m) - 1

/-- R336: the canonical NaN. -/
def FloatFmt.nanBits (f : FloatFmt) : Nat :=
  match f.top with
  | .ieee => (2 ^ f.eb - 1) * 2 ^ f.m + 2 ^ (f.m - 1)
  | _ => 2 ^ (f.eb + f.m) - 1

/-- A sign bit joined to a magnitude. -/
def FloatFmt.withSign (f : FloatFmt) (neg : Bool) (bits : Nat) : Nat := if neg then bits + 2 ^ (f.eb + f.m) else bits

/-- An encoded element with what it adds to the record: OVERFLOW and SPECIAL (R336). -/
structure Enc where
  bits : Nat
  overflow : Bool
  special : Bool
  deriving DecidableEq, Repr

/-- What R332 makes of a finite non-zero value: zero, a value n × 2^qe, or an overflow. -/
inductive Rounded where
  | zero
  | val (n : Nat) (qe : Int)
  | over
  deriving DecidableEq, Repr

/-- R332: a magnitude sig × 2^exp rounded to a format. -/
def FloatFmt.round (f : FloatFmt) (mode : Mode) (u sig : Nat) (exp : Int) : Rounded :=
  let qe := max (log2Of sig exp) (1 - (f.bias : Int)) - f.m
  let n := roundTo mode u sig exp qe
  let (ls, lexp) := f.largest
  let above := if lexp ≤ qe then decide (ls < n * 2 ^ (qe - lexp).toNat) else decide (ls * 2 ^ (lexp - qe).toNat < n)
  if n = 0 then .zero else if above then .over else .val n qe

/-- R336: an infinity of the format: with a sign where it has infinities. -/
def FloatFmt.encInf (f : FloatFmt) (neg : Bool) : Nat := if f.top = .ieee then f.withSign neg f.infBits else f.infBits

/-- R336: the overflow column of the table. -/
def FloatFmt.encOver (f : FloatFmt) (mode : Mode) (sat neg : Bool) : Enc :=
  if sat || mode == .rtz then ⟨f.withSign neg f.largestBits, true, false⟩ else ⟨f.encInf neg, true, true⟩

/-- R331, R332, R336: the element that an exact value gives in a floating-point format; `u` is its random value and
2^-l the unit. -/
def encodeFloat (f : FloatFmt) (mode : Mode) (sat : Bool) (u l : Nat) : Exact → Enc
  | .nan => ⟨f.nanBits, false, true⟩
  | .inf neg => if sat then ⟨f.withSign neg f.largestBits, true, false⟩ else ⟨f.encInf neg, false, true⟩
  | .over neg => f.encOver mode sat neg
  | .fin s =>
    if s = 0 then ⟨0, false, false⟩
    else match f.round mode u s.natAbs (-(l : Int)) with
      | .zero => ⟨0, false, false⟩
      | .over => f.encOver mode sat (decide (s < 0))
      | .val n qe => ⟨f.withSign (decide (s < 0)) (f.encode n qe), false, false⟩

/-! ### MX outputs (R334) -/

/-- R334: emax of an MX element format. -/
def mxEmax : Nat → Int
  | 0x10 => 8
  | 0x11 => 15
  | 0x12 => 4
  | 0x13 => 2
  | 0x14 => 2
  | _ => 0

/-- The largest finite element of an MX format, without a sign. -/
def mxLargest (c : Nat) : Nat := match floatFmt c with
  | some f => f.largestBits
  | none => 127

/-- A signed element of an MX format from its magnitude bits. -/
def mxSigned (c : Nat) (neg : Bool) (mag : Nat) : Nat := match floatFmt c with
  | some f => f.withSign neg mag
  | none => twos 8 (signed neg mag)

/-- Steps 6 and 7 of R334: a finite element against the scale 2^x. -/
def mxRound (c : Nat) (mode : Mode) (u l : Nat) (x s : Int) : Nat :=
  if s = 0 then 0
  else
    let neg := decide (s < 0)
    match floatFmt c with
    | some f => match f.round mode u s.natAbs (-(l : Int) - x) with
      | .zero => 0
      | .over => f.withSign neg f.largestBits
      | .val n qe => f.withSign neg (f.encode n qe)
    | none => mxSigned c neg (min 127 (roundTo mode u s.natAbs (-(l : Int) - x) (-6)))

/-- An exact value that is larger than every finite one (step 3 of R334). -/
def Exact.huge : Exact → Bool
  | .inf _ => true
  | .over _ => true
  | _ => false

/-- The sign of an exact value. -/
def Exact.negative : Exact → Bool
  | .inf neg => neg
  | .over neg => neg
  | .fin s => decide (s < 0)
  | .nan => false

/-- R334: one MX unit: its scale byte and elements, with OVERFLOW and SPECIAL. `us` gives each element's random value. -/
def mxUnit (c : Nat) (mode : Mode) (sat : Bool) (l : Nat) (us : List Nat) (vs : List Exact) : Nat × List Nat × Bool × Bool :=
  let beyondFinite := vs.any (fun v => match v with
    | .over _ => true
    | _ => false)
  let huge := vs.any Exact.huge
  let mx := (vs.map (fun v => match v with
    | .fin s => s.natAbs
    | _ => 0)).foldl max 0
  let raw : Int := if mx = 0 then 0 else log2Of mx (-(l : Int)) - mxEmax c
  let beyond := huge || (decide (mx ≠ 0) && decide (127 < raw))
  if vs.any (fun v => v == .nan) || (!sat && huge) then (255, vs.map (fun _ => 0), beyondFinite, true)
  else if beyond && !sat then (255, vs.map (fun _ => 0), true, true)
  else
    let x : Int := if beyond then 127 else max raw (-127)
    let es := (vs.zip us).map (fun vu => match vu.1 with
      | .fin s => mxRound c mode vu.2 l x s
      | v => mxSigned c v.negative (mxLargest c))
    ((x + 127).toNat, es, beyond, false)

/-! ### Integer and exact outputs (R335) -/

/-- R335: an integer clamped to `w` bits, with whether it was. -/
def clampTo (w : Nat) (s : Int) : Enc :=
  let hi : Int := ((2 ^ (w - 1) : Nat) : Int) - 1
  let c := max (-hi - 1) (min hi s)
  ⟨twos w c, decide (c ≠ s), false⟩

/-- R335: an X-wide output element, as 320 bits. -/
def encodeXwide (l : Nat) : Exact → Enc
  | .nan => ⟨2 ^ 304, false, true⟩
  | .inf neg => ⟨if neg then 2 ^ 306 else 2 ^ 305, false, true⟩
  | .over neg => ⟨if neg then 2 ^ 306 else 2 ^ 305, true, true⟩
  | .fin s => ⟨twos 304 (s * ((2 ^ (149 - l) : Nat) : Int)), false, false⟩

/-- R331 to R336: an output element of a format that is not MX. -/
def encodeOut (c : Nat) (mode : Mode) (sat : Bool) (u l : Nat) (v : Exact) : Enc :=
  match floatFmt c with
  | some f => encodeFloat f mode sat u l v
  | none =>
    if c = 0x30 then encodeXwide l v
    else match v with
      | .fin s => clampTo (if c = 0x31 then 96 else formatBits c) s
      | _ => ⟨0, false, false⟩

/-! ### Payloads out -/

/-- R322: 6-bit and 4-bit elements packed, 8-bit ones as bytes. -/
def packElements (w : Nat) (es : List Nat) : List Byte :=
  let total := (es.zipIdx.map (fun ei => ei.1 * 2 ^ (w * ei.2))).sum
  natLe (es.length * w / 8) total

/-- A rounded payload with its record flags. -/
structure Payload where
  bytes : List Byte
  overflow : Bool
  special : Bool
  deriving DecidableEq, Repr

/-- R321, R322, R331 to R336: exact values rounded into a payload of format `c`; `us` gives the random values. -/
def roundPayload (c rounding l : Nat) (us : List Nat) (vs : List Exact) : Payload :=
  let mode := modeOf rounding
  let sat := saturates rounding
  if isMx c then
    let units := (List.range (vs.length / 32)).map (fun k => mxUnit c mode sat l ((us.drop (32 * k)).take 32) ((vs.drop (32 * k)).take 32))
    let scales := fitTo (roundUp 8 units.length) (units.map (fun x => BitVec.ofNat 8 x.1))
    ⟨scales ++ packElements (formatBits c) (units.flatMap (fun x => x.2.1)), units.any (fun x => x.2.2.1), units.any (fun x => x.2.2.2)⟩
  else
    let es := (vs.zip us).map (fun vu => encodeOut c mode sat vu.2 l vu.1)
    ⟨es.flatMap (fun e => natLe (formatBits c / 8) e.bits), es.any (fun e => e.overflow), es.any (fun e => e.special)⟩

end Sys2Proof.Machine
end

