-- ==== Sys2Proof/Machine/Check.lean ====
section
/-! DEFINITION. The Sceca check word (R337 to R340, R344) and the projection with its residue checks (R347 to R351). -/

namespace Sys2Proof.Machine

/-! ### Check words -/

/-- R337: p = 2^61 - 1. -/
def prime61 : Nat := 2 ^ 61 - 1

/-- R337: r(X), the residue of an integer. -/
def residue (x : Int) : Nat := (x % ((prime61 : Nat) : Int)).toNat

/-- R337: the generator raised to a power, modulo p. -/
def genPow (e : Nat) : Nat := go 64 37 e
where
  /-- Square and multiply over `fuel` bits. -/
  go : Nat → Nat → Nat → Nat
    | 0, _, _ => 1
    | fuel + 1, b, n => (if n % 2 = 1 then b else 1) * go fuel (b * b % prime61) (n / 2) % prime61

/-- Σ w_i × x_i mod p over a list, `w` being the weight of its first element. -/
def weighted (w : Nat) : List Nat → Nat
  | [] => 0
  | x :: xs => (w * x + weighted (w * 37 % prime61) xs) % prime61

/-- R338: the exact check of a block's integers. -/
def exactCheck (xs : List Int) : Nat := weighted 37 (xs.map residue)

/-- R340: the words of a payload. -/
def payloadWords (bs : List Byte) : List Nat := (List.range ((bs.length + 3) / 4)).map (fun j => le bs (4 * j) 4)

/-- R340: the output check of a payload. -/
def outputCheck (bs : List Byte) : Nat := weighted 37 (payloadWords bs)

/-- R339: a check word. -/
def checkWord (special kind : Bool) (r : Nat) : Nat := bit special * 2 ^ 63 + bit kind * 2 ^ 62 + r
/-- RESIDUE of a check word. -/
def checkResidue (w : Nat) : Nat := bitsOf w 60 0
/-- SPECIAL of a check word. -/
def checkSpecial (w : Nat) : Bool := w.testBit 63
/-- KIND of a check word. -/
def checkKind (w : Nat) : Bool := w.testBit 62

/-- R338, R339: the check word of a contribution's payload of `n` elements of format `c` in the units of that format's
layout. -/
def contributionCheck (c n : Nat) (payload : List Byte) : Nat :=
  let es := elements c n payload
  checkWord (es.any (fun e => e.flags != 0)) false (exactCheck (es.map (Num.toX (layoutOf c).unit)))

/-- R343: the exact check of accumulators, with SPECIAL. -/
def accumCheck (l : Layout) (vs : List Accum) : Nat :=
  checkWord (vs.any (fun v => v.flags != 0)) false (exactCheck (vs.map (Accum.sum l)))

/-- R343: a residue and its SPECIAL folded into a check register. -/
def foldCheck (reg w : Nat) : Nat :=
  checkWord (checkSpecial reg || checkSpecial w) false ((checkResidue reg + checkResidue w) % prime61)

/-- R344: a block's check folded into an operation's, `at_` being the block's first position. -/
def foldOperation (acc w at_ : Nat) (kind : Bool) : Nat :=
  checkWord (checkSpecial acc || checkSpecial w) kind ((checkResidue acc + genPow at_ * checkResidue w) % prime61)

/-! ### Projection (R347 to R350) -/

/-- R349: an operand as the array takes it, and whether it was flushed to zero. -/
def arrayOperand (sat : Bool) : Num → Num × Bool
  | .nan => (.nan, false)
  | .inf neg => (if sat then .fin neg 255 56 else .inf neg, false)
  | .fin neg s e =>
    if s = 0 then (.fin neg 0 0, false)
    else if log2Of s e < -64 then (.fin neg 0 0, true)
    else if 64 ≤ log2Of s e then (if sat then .fin neg 255 56 else .inf neg, false)
    else (.fin neg s e, false)

/-- The number is a zero. -/
def Num.isZero : Num → Bool
  | .fin _ s _ => s == 0
  | _ => false

/-- The sign of a number. -/
def Num.negative : Num → Bool
  | .fin neg _ _ => neg
  | .inf neg => neg
  | .nan => false

/-- R350: an exact product. -/
def Num.mul (x y : Num) : Num :=
  match x, y with
  | .nan, _ => .nan
  | _, .nan => .nan
  | .fin a s e, .fin b t f => .fin (a != b) (s * t) (e + f)
  | x, y => if x.isZero || y.isZero then .nan else .inf (x.negative != y.negative)

/-- R350: the accumulator of a dot product. -/
def dot (xs ys : List Num) : Accum :=
  (xs.zip ys).foldl (fun v xy =>
    let q := Num.mul xy.1 xy.2
    v.add .wide (q.toX 149) q.flags) ⟨0, 0, 0⟩

/-- R347: row `a` of a matrix held row by row. -/
def rowOf (cols : Nat) (xs : List Num) (a : Nat) : List Num := (xs.drop (cols * a)).take cols

/-- Column `k` of a matrix held row by row. -/
def colOf (cols rows : Nat) (xs : List Num) (k : Nat) : List Num := (List.range rows).map (fun j => xs.getD (cols * j + k) (.fin false 0 0))

/-- R347, R350: Y = G M, element by element, G with `d` columns and M with `c`. -/
def project (d c : Nat) (g m : List Num) : List Accum :=
  (List.range (g.length / d)).flatMap (fun a => (List.range c).map (fun k => dot (rowOf d g a) (colOf c d m k)))

/-! ### The residue checks (R351) -/

/-- R351: ρ of an operand. -/
def rho : Num → Nat
  | .fin neg s e => residue (signed neg s) * 2 ^ (e % 61).toNat % prime61
  | _ => 0

/-- R351: ρ of an output accumulator. -/
def rhoOut (v : Accum) : Nat := residue v.a * 2 ^ 34 % prime61

/-- A sum modulo p. -/
def sumMod (l : List Nat) : Nat := l.foldl (fun a b => (a + b) % prime61) 0

/-- R351: the checks of an output tile: its rows `g` of G, M, and its accumulators `y`. -/
def projectionHolds (d c : Nat) (g m : List Num) (y : List Accum) : Bool :=
  let rows := g.length / d
  let colSumG := (List.range d).map (fun j => sumMod ((List.range rows).map (fun a => rho (g.getD (d * a + j) (.fin false 0 0)))))
  let rowSumM := (List.range d).map (fun j => sumMod ((rowOf c m j).map rho))
  (List.range c).all (fun k =>
    sumMod ((List.range rows).map (fun a => rhoOut (y.getD (c * a + k) ⟨0, 0, 0⟩))) ==
      sumMod ((List.range d).map (fun j => colSumG.getD j 0 * rho (m.getD (c * j + k) (.fin false 0 0)) % prime61))) &&
  (List.range rows).all (fun a =>
    sumMod ((List.range c).map (fun k => rhoOut (y.getD (c * a + k) ⟨0, 0, 0⟩))) ==
      sumMod ((List.range d).map (fun j => rho (g.getD (d * a + j) (.fin false 0 0)) * rowSumM.getD j 0 % prime61)))

/-- R347: the output tiles of at most 64 rows, in row order. -/
def projectionChecks (d c : Nat) (g m : List Num) (y : List Accum) : Bool :=
  (List.range ((g.length / d + 63) / 64)).all (fun t =>
    projectionHolds d c ((g.drop (64 * d * t)).take (64 * d)) m ((y.drop (64 * c * t)).take (64 * c)))

end Sys2Proof.Machine
end

