-- ==== Sys2Proof/Config.lean ====
section
/-! DEFINITION. What one part of the device fixes for its life (fuses) and what the spec leaves open. Every
constant here is opaque: nothing can evaluate it, so a claim that holds, holds whatever it is. -/

namespace Sys2Proof

/-- DESIGN CHOICE (log 4): SCREEN of R6 is fused; true for the extended screen (0x58), false for the standard one (0x53). -/
opaque Config.extendedScreen : Bool

/-- DESIGN CHOICE (log 4): the fused serial number (R7). -/
opaque Config.serial : Word

/-- DESIGN CHOICE (log 4): the 64 bytes x then y of the fused device public key (R131). -/
opaque Config.publicKey : List Byte

/-- DESIGN CHOICE (log 4): the bytes of the fused certificate before its subject serial number, between that and its public
key, and after the key (R130); they are short enough for R132. -/
opaque Config.certParts : List Byte × List Byte × List Byte

/-- The 16 hexadecimal digits of the serial number, in ASCII, the most significant first (R3, R4). -/
def Config.serialDigits : List Byte :=
  (List.range 16).map (fun k =>
    let d := Config.serial.toNat / 16 ^ (15 - k) % 16
    BitVec.ofNat 8 (if d < 10 then 48 + d else 55 + d))

/-- R4, R130: the certificate: its subject serial number is the fused serial number and its key the fused public key. PRESUMED
(log 142): the serial number stands in it as its hexadecimal digits. -/
def Config.certificate : List Byte :=
  (Config.certParts.1 ++ Config.serialDigits ++ Config.certParts.2.1 ++ Config.publicKey ++ Config.certParts.2.2).take 4088

/-- R132: its length. -/
def Config.certLength : Nat := Config.certificate.length

/-- DESIGN CHOICE (log 4): subsystem vendor ID and subsystem ID from the board's configuration fuses, none where unfused (R48). -/
opaque Config.subsystem : Option (BitVec 16 × BitVec 16)

/-- DESIGN CHOICE (log 4): the fused public half of Gyanord's firmware key, x then y (R114). -/
opaque Config.firmwareKey : List Byte

/-- DESIGN CHOICE (log 5): whether an SM2 signature verifies: by the public key, the SM3 digest and the signature (R114, R140). -/
opaque Config.verify : List Byte → List Byte → List Byte → Bool

/-- DESIGN CHOICE (log 5): the SM2 signature r then s the device key makes over a message (R137, R140). -/
opaque Config.sign : List Byte → Nat → Byte

/-- DESIGN CHOICE (log 20): the 48-bit MAC address of a logical port, which the spec names (R188) without giving it. -/
opaque Config.portMac : Nat → BitVec 48

/-- DESIGN CHOICE (log 6): the free value of a draw, by the state's draw counter: random nonces, the boot
identity, random marking, and every value the spec leaves open after which the device goes on. -/
opaque Config.freeValue : Nat → Nat

/-- DESIGN CHOICE (log 24): how many learns a pipeline queues for its table engine (R236). -/
opaque Config.learnQueue : Nat

/-- DESIGN CHOICE (log 41): the pipeline whose endpoint table the device looks its own packets up in. -/
opaque Config.originPipeline : Fin 8

/-- DESIGN CHOICE (log 41): the UDP source port of the packets the device originates. -/
opaque Config.originUdpPort : BitVec 16

/-- DESIGN CHOICE (log 41): their hop limit before the lookup. -/
opaque Config.originHop : BitVec 8

/-- DESIGN CHOICE (log 41): their traffic class byte. -/
opaque Config.originTraffic : BitVec 8

/-- DESIGN CHOICE (log 41): bits 18 to 0 of their flow label. -/
opaque Config.originLabel : BitVec 19

/-- DESIGN CHOICE (log 42): what a sentinel or GEN leaves in a tile's accumulator store, by the run and the byte. -/
opaque Config.leftover : Nat → Nat → Byte

/-- DESIGN CHOICE (log 62): the free values that share one draw, by the draw and their place. -/
opaque Config.freeAt : Nat → Nat → Nat

/-- DESIGN CHOICE (log 156): the row of a pseudo-channel that holds one of its chunks, as JESD270-4 lays rows out. -/
opaque Config.chunkRow : Nat → Nat

/-- DESIGN CHOICE (log 144): how many configuration sets the firmware of an image applies as it starts (R134), by the image's
SM3 digest. -/
opaque Config.configSets : List Byte → Nat

/-- DESIGN CHOICE (log 62): the 16 bytes of an engine command, by the settings it states. -/
opaque Config.commandBytes : List Nat → Nat → Byte

end Sys2Proof
end

