-- ==== Sys2Proof/Machine/Digest.lean ====
section
/-! DEFINITION. The check codes and digests the spec names: CRC-32C (R221), the CRC-8 of the sequence tag
(R186), the CRC-32 of IEEE 802.3 (R521) and the SM3 digest (R114, R131, R135). PRESUMED (log 7): the spec
names SM3 and CRC-32 without their steps; they are taken from their published standards. -/

namespace Sys2Proof.Machine

/-- One bit of a reflected 32-bit CRC with reflected polynomial `poly`. -/
def crcStep (poly c : Nat) : Nat := if c % 2 = 1 then (c / 2) ^^^ poly else c / 2

/-- One byte of a reflected 32-bit CRC. -/
def crcByte (poly c : Nat) (b : Byte) : Nat := (crcStep poly)^[8] (c ^^^ b.toNat)

/-- A reflected 32-bit CRC over a byte string from an initial value, the result inverted. -/
def crcReflected (poly init : Nat) (bs : List Byte) : Nat := (bs.foldl (crcByte poly) init) ^^^ 0xFFFFFFFF

/-- R221: CRC-32C, polynomial 0x1EDC6F41, with the given initial value. -/
def crc32c (init : Nat) (bs : List Byte) : Nat := crcReflected 0x82F63B78 init bs

/-- R521: the CRC-32 of IEEE 802.3. -/
def crc32 (bs : List Byte) : Nat := crcReflected 0xEDB88320 0xFFFFFFFF bs

/-- R186: CRC-8, polynomial x^8 + x^2 + x + 1, initial value 0, over the low `bits` bits of `n`, most significant first. -/
def crc8 (n : Nat) : Nat → Nat
  | 0 => 0
  | bits + 1 =>
    let c := crc8 (n / 2) bits
    let t := (c / 128) ^^^ (n % 2)
    if t = 1 then ((c * 2) % 256) ^^^ 0x07 else (c * 2) % 256

/-- A 32-bit word turned left by `k` places. -/
def rot32 (x : Nat) (k : Nat) : Nat := ((x <<< (k % 32)) % 4294967296) ||| (x >>> (32 - k % 32))

/-- SM3's permutation P0. -/
def sm3P0 (x : Nat) : Nat := x ^^^ rot32 x 9 ^^^ rot32 x 17

/-- SM3's permutation P1. -/
def sm3P1 (x : Nat) : Nat := x ^^^ rot32 x 15 ^^^ rot32 x 23

/-- One word of SM3's message expansion, from the words so far, newest first. -/
def sm3Expand (ws : List Nat) : List Nat :=
  (sm3P1 (ws.getD 15 0 ^^^ ws.getD 8 0 ^^^ rot32 (ws.getD 2 0) 15) ^^^ rot32 (ws.getD 12 0) 7 ^^^ ws.getD 5 0) :: ws

/-- The 68 expanded words of one 64-byte block. -/
def sm3Words (block : List Byte) : List Nat :=
  let w := (List.range 16).map (fun i => be block (4 * i) 4)
  (sm3Expand^[52] w.reverse).reverse

/-- SM3's eight chaining words. -/
structure Sm3V where
  a : Nat
  b : Nat
  c : Nat
  d : Nat
  e : Nat
  f : Nat
  g : Nat
  h : Nat
  deriving DecidableEq, Repr

/-- Round `j` of SM3's compression with the words W(j) and W'(j). -/
def sm3Round (v : Sm3V) (j w w' : Nat) : Sm3V :=
  let t := if j < 16 then 0x79cc4519 else 0x7a879d8a
  let ss1 := rot32 ((rot32 v.a 12 + v.e + rot32 t j) % 4294967296) 7
  let ss2 := ss1 ^^^ rot32 v.a 12
  let ff := if j < 16 then v.a ^^^ v.b ^^^ v.c else (v.a &&& v.b) ||| (v.a &&& v.c) ||| (v.b &&& v.c)
  let gg := if j < 16 then v.e ^^^ v.f ^^^ v.g else (v.e &&& v.f) ||| ((v.e ^^^ 0xFFFFFFFF) &&& v.g)
  let tt1 := (ff + v.d + ss2 + w') % 4294967296
  let tt2 := (gg + v.h + ss1 + w) % 4294967296
  ⟨tt1, v.a, rot32 v.b 9, v.c, sm3P0 tt2, v.e, rot32 v.f 19, v.g⟩

/-- The 64 rounds of one block, over the expanded words from round `j` on. -/
def sm3Rounds (v : Sm3V) (j : Nat) : List Nat → Sm3V
  | w :: w1 :: w2 :: w3 :: w4 :: ws => sm3Rounds (sm3Round v j w (w ^^^ w4)) (j + 1) (w1 :: w2 :: w3 :: w4 :: ws)
  | _ => v

/-- SM3's compression of one 64-byte block. -/
def sm3Block (v : Sm3V) (block : List Byte) : Sm3V :=
  let r := sm3Rounds v 0 (sm3Words block)
  ⟨v.a ^^^ r.a, v.b ^^^ r.b, v.c ^^^ r.c, v.d ^^^ r.d, v.e ^^^ r.e, v.f ^^^ r.f, v.g ^^^ r.g, v.h ^^^ r.h⟩

/-- SM3's starting value. -/
def sm3Init : Sm3V :=
  ⟨0x7380166f, 0x4914b2b9, 0x172442d7, 0xda8a0600, 0xa96f30bc, 0x163138aa, 0xe38dee4d, 0xb0fb0e4e⟩

/-- The message with SM3's padding: a one bit, zeros, and its length in bits as 8 bytes. -/
def sm3Pad (bs : List Byte) : List Byte :=
  bs ++ [0x80] ++ zeros ((119 - bs.length % 64) % 64) ++ natBe 8 (8 * bs.length)

/-- The 32-byte SM3 digest of a byte string. -/
def sm3 (bs : List Byte) : List Byte :=
  let m := sm3Pad bs
  let v := (chunks 64 (m.length / 64) m).foldl sm3Block sm3Init
  [v.a, v.b, v.c, v.d, v.e, v.f, v.g, v.h].flatMap (natBe 4)

/-- R131: the identity digest, SM3 of the device's public key, x then y. -/
def identityDigest : List Byte := sm3 (fitTo 64 Config.publicKey)

end Sys2Proof.Machine
end

