-- ==== Sys2Proof/Machine/RegMap.lean ====
section
/-! DEFINITION. The BAR0 register map (R41 and the register maps of the chapters): for every register its
offset, spacing, count, access masks (R15) and reset word, and a name for every field. One row each, from
the spec's own tables. -/

namespace Sys2Proof.Machine

/-- One register array of BAR0: element `i` of `count` stands at `base + stride * i`, provided
`i % block < used`; the masks say which bits take a plain write (`rw`), a write one to clear (`w1c`), a write
one to set (`w1s`) and a write that the block lock stops (`rwl`); `reset i` is the word after reset. -/
structure Reg where
  base : Nat
  stride : Nat
  block : Nat
  used : Nat
  count : Nat
  rw : Nat
  w1c : Nat
  w1s : Nat
  rwl : Nat
  reset : Nat → Word

/-- A field of a register: bits `hi` down to `lo`. -/
structure Fld where
  reg : Reg
  hi : Nat
  lo : Nat

/-- R56: register HI_PROT_GEN. -/
def HI_PROT_GEN : Reg :=
  ⟨0x100, 8, 1, 1, 1, 0x0, 0x0, 0x0, 0x0, fun _ => 0x0⟩
/-- RO field of HI_PROT_GEN. -/
def HI_PROT_GEN_ACTIVE : Fld := ⟨HI_PROT_GEN, 63, 32⟩
/-- RO field of HI_PROT_GEN. -/
def HI_PROT_GEN_OLD_DRAINING : Fld := ⟨HI_PROT_GEN, 0, 0⟩

/-- R84: register HI_GW_TARGET. -/
def HI_GW_TARGET : Reg :=
  ⟨0x1000, 32, 1, 1, 16, 0xC0FF00FFFF00FFFF, 0x0, 0x0, 0x0, fun _ => 0xFFFF⟩
/-- RW field of HI_GW_TARGET. -/
def HI_GW_TARGET_ENABLE : Fld := ⟨HI_GW_TARGET, 63, 63⟩
/-- RW field of HI_GW_TARGET. -/
def HI_GW_TARGET_MODE : Fld := ⟨HI_GW_TARGET, 62, 62⟩
/-- RW field of HI_GW_TARGET. -/
def HI_GW_TARGET_TARGET_KIND : Fld := ⟨HI_GW_TARGET, 55, 48⟩
/-- RW field of HI_GW_TARGET. -/
def HI_GW_TARGET_TARGET_UNIT : Fld := ⟨HI_GW_TARGET, 39, 24⟩
/-- RW field of HI_GW_TARGET. -/
def HI_GW_TARGET_PARTITION : Fld := ⟨HI_GW_TARGET, 15, 0⟩

/-- R85: register HI_GW_BASE. -/
def HI_GW_BASE : Reg :=
  ⟨0x1008, 32, 1, 1, 16, 0xFFFFFFFFFFFF, 0x0, 0x0, 0x0, fun _ => 0x0⟩
/-- RW field of HI_GW_BASE. -/
def HI_GW_BASE_BASE : Fld := ⟨HI_GW_BASE, 47, 0⟩

/-- R85: register HI_GW_LIMIT. -/
def HI_GW_LIMIT : Reg :=
  ⟨0x1010, 32, 1, 1, 16, 0xFFFFFFFFFFFF, 0x0, 0x0, 0x0, fun _ => 0x0⟩
/-- RW field of HI_GW_LIMIT. -/
def HI_GW_LIMIT_LIMIT : Fld := ⟨HI_GW_LIMIT, 47, 0⟩

/-- R87: register HI_GW_STATUS. -/
def HI_GW_STATUS : Reg :=
  ⟨0x1018, 32, 1, 1, 16, 0x0, 0xD, 0x0, 0x0, fun _ => 0x0⟩
/-- RO field of HI_GW_STATUS. -/
def HI_GW_STATUS_CURSOR : Fld := ⟨HI_GW_STATUS, 63, 24⟩
/-- W1C field of HI_GW_STATUS. -/
def HI_GW_STATUS_CFG_ERR : Fld := ⟨HI_GW_STATUS, 3, 3⟩
/-- W1C field of HI_GW_STATUS. -/
def HI_GW_STATUS_OVERRUN : Fld := ⟨HI_GW_STATUS, 2, 2⟩
/-- RO field of HI_GW_STATUS. -/
def HI_GW_STATUS_PARTIAL : Fld := ⟨HI_GW_STATUS, 1, 1⟩
/-- W1C field of HI_GW_STATUS. -/
def HI_GW_STATUS_DISCARDED : Fld := ⟨HI_GW_STATUS, 0, 0⟩

/-- R57: register HI_RING_SQ_BASE. -/
def HI_RING_SQ_BASE : Reg :=
  ⟨0x10000, 32, 1, 1, 4096, 0xFFFFFFFFFFFFFFFF, 0x0, 0x0, 0x0, fun _ => 0x0⟩
/-- RW field of HI_RING_SQ_BASE. -/
def HI_RING_SQ_BASE_ADDR : Fld := ⟨HI_RING_SQ_BASE, 63, 0⟩

/-- R57: register HI_RING_CQ_BASE. -/
def HI_RING_CQ_BASE : Reg :=
  ⟨0x10008, 32, 1, 1, 4096, 0xFFFFFFFFFFFFFFFF, 0x0, 0x0, 0x0, fun _ => 0x0⟩
/-- RW field of HI_RING_CQ_BASE. -/
def HI_RING_CQ_BASE_ADDR : Fld := ⟨HI_RING_CQ_BASE, 63, 0⟩

/-- R58: register HI_RING_CFG. -/
def HI_RING_CFG : Reg :=
  ⟨0x10010, 32, 1, 1, 4096, 0x9FF807FFFFFFFF00, 0x0, 0x0, 0x0, fun _ => 0x630000100000100⟩
/-- RW field of HI_RING_CFG. -/
def HI_RING_CFG_ENABLE : Fld := ⟨HI_RING_CFG, 63, 63⟩
/-- RW field of HI_RING_CFG. -/
def HI_RING_CFG_SQ_LOG2 : Fld := ⟨HI_RING_CFG, 60, 56⟩
/-- RW field of HI_RING_CFG. -/
def HI_RING_CFG_CQ_LOG2 : Fld := ⟨HI_RING_CFG, 55, 51⟩
/-- RW field of HI_RING_CFG. -/
def HI_RING_CFG_VECTOR : Fld := ⟨HI_RING_CFG, 42, 32⟩
/-- RW field of HI_RING_CFG. -/
def HI_RING_CFG_MOD_TIME : Fld := ⟨HI_RING_CFG, 31, 16⟩
/-- RW field of HI_RING_CFG. -/
def HI_RING_CFG_MOD_COUNT : Fld := ⟨HI_RING_CFG, 15, 8⟩

/-- R61: register HI_RING_STATUS. -/
def HI_RING_STATUS : Reg :=
  ⟨0x10018, 32, 1, 1, 4096, 0x0, 0x1E, 0x0, 0x0, fun _ => 0x1⟩
/-- RO field of HI_RING_STATUS. -/
def HI_RING_STATUS_SQ_HEAD : Fld := ⟨HI_RING_STATUS, 63, 32⟩
/-- W1C field of HI_RING_STATUS. -/
def HI_RING_STATUS_CQ_HEAD_ERR : Fld := ⟨HI_RING_STATUS, 4, 4⟩
/-- W1C field of HI_RING_STATUS. -/
def HI_RING_STATUS_CFG_ERR : Fld := ⟨HI_RING_STATUS, 3, 3⟩
/-- W1C field of HI_RING_STATUS. -/
def HI_RING_STATUS_DOORBELL_ERR : Fld := ⟨HI_RING_STATUS, 2, 2⟩
/-- W1C field of HI_RING_STATUS. -/
def HI_RING_STATUS_FETCH_ERR : Fld := ⟨HI_RING_STATUS, 1, 1⟩
/-- RO field of HI_RING_STATUS. -/
def HI_RING_STATUS_QUIESCED : Fld := ⟨HI_RING_STATUS, 0, 0⟩

/-- R55: register HI_MSIX_ADDR. -/
def HI_MSIX_ADDR : Reg :=
  ⟨0x60000, 16, 1, 1, 2048, 0xFFFFFFFFFFFFFFFF, 0x0, 0x0, 0x0, fun _ => 0x0⟩
/-- RW field of HI_MSIX_ADDR. -/
def HI_MSIX_ADDR_ADDR : Fld := ⟨HI_MSIX_ADDR, 63, 0⟩

/-- R55: register HI_MSIX_CTL. -/
def HI_MSIX_CTL : Reg :=
  ⟨0x60008, 16, 1, 1, 2048, 0x1FFFFFFFF, 0x0, 0x0, 0x0, fun _ => 0x100000000⟩
/-- RW field of HI_MSIX_CTL. -/
def HI_MSIX_CTL_DATA : Fld := ⟨HI_MSIX_CTL, 31, 0⟩
/-- RW field of HI_MSIX_CTL. -/
def HI_MSIX_CTL_MASK : Fld := ⟨HI_MSIX_CTL, 32, 32⟩

/-- R55: register HI_MSIX_PBA. -/
def HI_MSIX_PBA : Reg :=
  ⟨0x68000, 8, 1, 1, 32, 0x0, 0x0, 0x0, 0x0, fun _ => 0x0⟩
/-- RO field of HI_MSIX_PBA. -/
def HI_MSIX_PBA_PENDING : Fld := ⟨HI_MSIX_PBA, 63, 0⟩

/-- R6: register BT_DEVICE_ID. -/
def BT_DEVICE_ID : Reg :=
  ⟨0x100000, 8, 1, 1, 1, 0x0, 0x0, 0x0, 0x0, fun _ => BitVec.ofNat 64 (0x94004CB100000000 + (if Config.extendedScreen then 0x58 else 0x53) * 2 ^ 24)⟩
/-- RO field of BT_DEVICE_ID. -/
def BT_DEVICE_ID_PART : Fld := ⟨BT_DEVICE_ID, 63, 48⟩
/-- RO field of BT_DEVICE_ID. -/
def BT_DEVICE_ID_FAMILY : Fld := ⟨BT_DEVICE_ID, 47, 40⟩
/-- RO field of BT_DEVICE_ID. -/
def BT_DEVICE_ID_STEP_MAJOR : Fld := ⟨BT_DEVICE_ID, 39, 36⟩
/-- RO field of BT_DEVICE_ID. -/
def BT_DEVICE_ID_STEP_MINOR : Fld := ⟨BT_DEVICE_ID, 35, 32⟩
/-- RO field of BT_DEVICE_ID. -/
def BT_DEVICE_ID_SCREEN : Fld := ⟨BT_DEVICE_ID, 31, 24⟩

/-- R7: register BT_DEVICE_SERIAL. -/
def BT_DEVICE_SERIAL : Reg :=
  ⟨0x100008, 8, 1, 1, 1, 0x0, 0x0, 0x0, 0x0, fun _ => Config.serial⟩
/-- RO field of BT_DEVICE_SERIAL. -/
def BT_DEVICE_SERIAL_SERIAL : Fld := ⟨BT_DEVICE_SERIAL, 63, 0⟩

/-- R109: register BT_RESET. -/
def BT_RESET : Reg :=
  ⟨0x100010, 8, 1, 1, 1, 0x0, 0x0, 0x0, 0x0, fun _ => 0x0⟩
/-- WO field of BT_RESET. -/
def BT_RESET_KEY : Fld := ⟨BT_RESET, 63, 48⟩
/-- WO field of BT_RESET. -/
def BT_RESET_WARM : Fld := ⟨BT_RESET, 0, 0⟩

/-- R111: register BT_LOCK. -/
def BT_LOCK : Reg :=
  ⟨0x100018, 8, 1, 1, 1, 0x0, 0x0, 0x3FFF, 0x0, fun _ => 0x0⟩
/-- W1S field of BT_LOCK. -/
def BT_LOCK_LOCK : Fld := ⟨BT_LOCK, 13, 0⟩

/-- R115: register BT_FW_CTL. -/
def BT_FW_CTL : Reg :=
  ⟨0x100020, 8, 1, 1, 1, 0x0, 0x0, 0x0, 0x0, fun _ => 0x0⟩
/-- WO field of BT_FW_CTL. -/
def BT_FW_CTL_ABANDON : Fld := ⟨BT_FW_CTL, 1, 1⟩
/-- WO field of BT_FW_CTL. -/
def BT_FW_CTL_START : Fld := ⟨BT_FW_CTL, 0, 0⟩

/-- R116: register BT_FW_STATUS. -/
def BT_FW_STATUS : Reg :=
  ⟨0x100028, 8, 1, 1, 1, 0x0, 0x0, 0x0, 0x0, fun _ => 0x0⟩
/-- RO field of BT_FW_STATUS. -/
def BT_FW_STATUS_VERSION : Fld := ⟨BT_FW_STATUS, 63, 32⟩
/-- RO field of BT_FW_STATUS. -/
def BT_FW_STATUS_REASON : Fld := ⟨BT_FW_STATUS, 11, 8⟩
/-- RO field of BT_FW_STATUS. -/
def BT_FW_STATUS_STATE : Fld := ⟨BT_FW_STATUS, 2, 0⟩

/-- R122: register BT_READY_MAP. -/
def BT_READY_MAP : Reg :=
  ⟨0x100100, 8, 1, 1, 20, 0x0, 0x0, 0x0, 0x0, fun _ => 0x0⟩
/-- RO field of BT_READY_MAP. -/
def BT_READY_MAP_BITS : Fld := ⟨BT_READY_MAP, 63, 0⟩

/-- R129: register BT_READY_CHANGE. -/
def BT_READY_CHANGE : Reg :=
  ⟨0x1001A0, 8, 1, 1, 1, 0x0, 0x3, 0x0, 0x0, fun _ => 0x0⟩
/-- W1C field of BT_READY_CHANGE. -/
def BT_READY_CHANGE_FELL : Fld := ⟨BT_READY_CHANGE, 1, 1⟩
/-- W1C field of BT_READY_CHANGE. -/
def BT_READY_CHANGE_ROSE : Fld := ⟨BT_READY_CHANGE, 0, 0⟩

/-- R215: register PC_SCECA_CFG. -/
def PC_SCECA_CFG : Reg :=
  ⟨0x200000, 8, 1, 1, 1, 0x1FFFF, 0x0, 0x0, 0x0, fun _ => 0x1A58⟩
/-- RW field of PC_SCECA_CFG. -/
def PC_SCECA_CFG_ENABLE : Fld := ⟨PC_SCECA_CFG, 16, 16⟩
/-- RW field of PC_SCECA_CFG. -/
def PC_SCECA_CFG_UDP_PORT : Fld := ⟨PC_SCECA_CFG, 15, 0⟩

/-- R215: register PC_SCECA_ADDR. -/
def PC_SCECA_ADDR : Reg :=
  ⟨0x200010, 8, 1, 1, 8, 0xFFFFFFFFFFFFFFFF, 0x0, 0x0, 0x0, fun _ => 0x0⟩
/-- RW field of PC_SCECA_ADDR. -/
def PC_SCECA_ADDR_WORD : Fld := ⟨PC_SCECA_ADDR, 63, 0⟩

/-- R215: register PC_DSCP_CLASS. -/
def PC_DSCP_CLASS : Reg :=
  ⟨0x200100, 8, 1, 1, 4, 0x7777777777777777, 0x0, 0x0, 0x0, fun _ => 0x0⟩

/-- R169: register PC_BUF_CFG. -/
def PC_BUF_CFG : Reg :=
  ⟨0x201000, 8, 1, 1, 2, 0xFFFFFF000000, 0x0, 0x0, 0x0, fun _ => 0xFFFFFF000000⟩
/-- RW field of PC_BUF_CFG. -/
def PC_BUF_CFG_RES_SRAM : Fld := ⟨PC_BUF_CFG, 47, 24⟩

/-- R170: register PC_BUF_STATUS. -/
def PC_BUF_STATUS : Reg :=
  ⟨0x201010, 8, 1, 1, 2, 0x0, 0x0, 0x0, 0x0, fun _ => 0x0⟩
/-- RO field of PC_BUF_STATUS. -/
def PC_BUF_STATUS_SHARED : Fld := ⟨PC_BUF_STATUS, 47, 24⟩
/-- RO field of PC_BUF_STATUS. -/
def PC_BUF_STATUS_SRAM_FREE : Fld := ⟨PC_BUF_STATUS, 23, 0⟩

/-- R170: register PC_BUF_RES. -/
def PC_BUF_RES : Reg :=
  ⟨0x201020, 8, 1, 1, 2, 0x0, 0x0, 0x0, 0x0, fun _ => 0x0⟩
/-- RO field of PC_BUF_RES. -/
def PC_BUF_RES_RESV : Fld := ⟨PC_BUF_RES, 23, 0⟩

/-- R171: register PC_BUF_ERR. -/
def PC_BUF_ERR : Reg :=
  ⟨0x201030, 8, 1, 1, 2, 0x0, 0x7, 0x0, 0x0, fun _ => 0x0⟩
/-- W1C field of PC_BUF_ERR. -/
def PC_BUF_ERR_RESERVE_REFUSED : Fld := ⟨PC_BUF_ERR, 2, 2⟩
/-- W1C field of PC_BUF_ERR. -/
def PC_BUF_ERR_RESERVE_OVERRUN : Fld := ⟨PC_BUF_ERR, 1, 1⟩
/-- W1C field of PC_BUF_ERR. -/
def PC_BUF_ERR_SHARED_EMPTY : Fld := ⟨PC_BUF_ERR, 0, 0⟩

/-- R204: register PC_SLIP_CFG. -/
def PC_SLIP_CFG : Reg :=
  ⟨0x201100, 32, 1, 1, 2, 0x80FFFFFFFFFFFFFF, 0x0, 0x0, 0x0, fun _ => 0xC00800000400⟩
/-- RW field of PC_SLIP_CFG. -/
def PC_SLIP_CFG_ENABLE : Fld := ⟨PC_SLIP_CFG, 63, 63⟩
/-- RW field of PC_SLIP_CFG. -/
def PC_SLIP_CFG_WRITE_GUARANTEE : Fld := ⟨PC_SLIP_CFG, 55, 48⟩
/-- RW field of PC_SLIP_CFG. -/
def PC_SLIP_CFG_SPILL_AT : Fld := ⟨PC_SLIP_CFG, 47, 40⟩
/-- RW field of PC_SLIP_CFG. -/
def PC_SLIP_CFG_HEAD_CELLS : Fld := ⟨PC_SLIP_CFG, 39, 24⟩
/-- RW field of PC_SLIP_CFG. -/
def PC_SLIP_CFG_MARK_CELLS : Fld := ⟨PC_SLIP_CFG, 23, 0⟩

/-- R204: register PC_SLIP_BASE. -/
def PC_SLIP_BASE : Reg :=
  ⟨0x201108, 32, 1, 1, 2, 0xFFFFFFFFFFFF, 0x0, 0x0, 0x0, fun _ => 0x0⟩
/-- RW field of PC_SLIP_BASE. -/
def PC_SLIP_BASE_BASE : Fld := ⟨PC_SLIP_BASE, 47, 0⟩

/-- R204: register PC_SLIP_SIZE. -/
def PC_SLIP_SIZE : Reg :=
  ⟨0x201110, 32, 1, 1, 2, 0xFFFFFFFFFFFF, 0x0, 0x0, 0x0, fun _ => 0x0⟩
/-- RW field of PC_SLIP_SIZE. -/
def PC_SLIP_SIZE_SIZE : Fld := ⟨PC_SLIP_SIZE, 47, 0⟩

/-- R205: register PC_SLIP_STATUS. -/
def PC_SLIP_STATUS : Reg :=
  ⟨0x201118, 32, 1, 1, 2, 0x0, 0x0, 0x0, 0x0, fun _ => 0x0⟩
/-- RO field of PC_SLIP_STATUS. -/
def PC_SLIP_STATUS_FULL : Fld := ⟨PC_SLIP_STATUS, 63, 63⟩
/-- RO field of PC_SLIP_STATUS. -/
def PC_SLIP_STATUS_PAGES_USED : Fld := ⟨PC_SLIP_STATUS, 57, 32⟩
/-- RO field of PC_SLIP_STATUS. -/
def PC_SLIP_STATUS_QUEUES_RESIDENT : Fld := ⟨PC_SLIP_STATUS, 19, 0⟩

/-- R168: register PC_EGR_PROFILE. -/
def PC_EGR_PROFILE : Reg :=
  ⟨0x202000, 8, 1, 1, 16, 0xF000000000FFFFFF, 0x0, 0x0, 0x0, fun _ => 0x6000000000000024⟩
/-- RW field of PC_EGR_PROFILE. -/
def PC_EGR_PROFILE_ALPHA : Fld := ⟨PC_EGR_PROFILE, 63, 60⟩
/-- RW field of PC_EGR_PROFILE. -/
def PC_EGR_PROFILE_FLOOR : Fld := ⟨PC_EGR_PROFILE, 23, 0⟩

/-- R149: register PC_LANE_GROUP. -/
def PC_LANE_GROUP : Reg :=
  ⟨0x204000, 8, 1, 1, 256, 0xF, 0x0, 0x0, 0x0, fun _ => 0xF00⟩
/-- RO field of PC_LANE_GROUP. -/
def PC_LANE_GROUP_SPARE_FOR : Fld := ⟨PC_LANE_GROUP, 11, 8⟩
/-- RW field of PC_LANE_GROUP. -/
def PC_LANE_GROUP_LAYOUT : Fld := ⟨PC_LANE_GROUP, 3, 0⟩

/-- R152: register PC_PORT_CFG. -/
def PC_PORT_CFG : Reg :=
  ⟨0x208000, 64, 1, 1, 1024, 0xC000FFFF00000700, 0x0, 0x0, 0x0, fun _ => 0x240000000000⟩
/-- RW field of PC_PORT_CFG. -/
def PC_PORT_CFG_ENABLE : Fld := ⟨PC_PORT_CFG, 63, 63⟩
/-- RW field of PC_PORT_CFG. -/
def PC_PORT_CFG_KIND : Fld := ⟨PC_PORT_CFG, 62, 62⟩
/-- RW field of PC_PORT_CFG. -/
def PC_PORT_CFG_MAX_FRAME : Fld := ⟨PC_PORT_CFG, 47, 32⟩
/-- RW field of PC_PORT_CFG. -/
def PC_PORT_CFG_DEFAULT_CLASS : Fld := ⟨PC_PORT_CFG, 10, 8⟩

/-- R154: register PC_PORT_STATUS. -/
def PC_PORT_STATUS : Reg :=
  ⟨0x208008, 64, 1, 1, 1024, 0x0, 0x0, 0x0, 0x0, fun _ => 0x0⟩
/-- RO field of PC_PORT_STATUS. -/
def PC_PORT_STATUS_RTT_NS : Fld := ⟨PC_PORT_STATUS, 63, 48⟩
/-- RO field of PC_PORT_STATUS. -/
def PC_PORT_STATUS_ACTIVE_LANES : Fld := ⟨PC_PORT_STATUS, 39, 32⟩
/-- RO field of PC_PORT_STATUS. -/
def PC_PORT_STATUS_REPLAY_LIMITED : Fld := ⟨PC_PORT_STATUS, 3, 3⟩
/-- RO field of PC_PORT_STATUS. -/
def PC_PORT_STATUS_LINK : Fld := ⟨PC_PORT_STATUS, 2, 0⟩

/-- R179: register PC_CLASS_MODE. -/
def PC_CLASS_MODE : Reg :=
  ⟨0x208010, 64, 1, 1, 1024, 0xFFFFFFFF, 0x0, 0x0, 0x0, fun _ => 0x240000⟩
/-- RW field of PC_CLASS_MODE. -/
def PC_CLASS_MODE_XON_DELTA : Fld := ⟨PC_CLASS_MODE, 31, 16⟩
/-- RW field of PC_CLASS_MODE. -/
def PC_CLASS_MODE_SAF : Fld := ⟨PC_CLASS_MODE, 15, 8⟩
/-- RW field of PC_CLASS_MODE. -/
def PC_CLASS_MODE_LOSSLESS : Fld := ⟨PC_CLASS_MODE, 7, 0⟩

/-- R192: register PC_CREDIT_CFG. -/
def PC_CREDIT_CFG : Reg :=
  ⟨0x208018, 64, 1, 1, 1024, 0xFFFF00FFFFFF, 0x0, 0x0, 0x0, fun _ => 0x2800000000⟩
/-- RW field of PC_CREDIT_CFG. -/
def PC_CREDIT_CFG_VN_MIN : Fld := ⟨PC_CREDIT_CFG, 47, 32⟩
/-- RW field of PC_CREDIT_CFG. -/
def PC_CREDIT_CFG_POOL : Fld := ⟨PC_CREDIT_CFG, 23, 0⟩

/-- R202: register PC_LINK_ERR. -/
def PC_LINK_ERR : Reg :=
  ⟨0x208020, 64, 1, 1, 1024, 0x0, 0xF, 0x0, 0x0, fun _ => 0x0⟩
/-- W1C field of PC_LINK_ERR. -/
def PC_LINK_ERR_INIT_TIMEOUT : Fld := ⟨PC_LINK_ERR, 3, 3⟩
/-- W1C field of PC_LINK_ERR. -/
def PC_LINK_ERR_RETRY_ESCALATED : Fld := ⟨PC_LINK_ERR, 2, 2⟩
/-- W1C field of PC_LINK_ERR. -/
def PC_LINK_ERR_REINIT : Fld := ⟨PC_LINK_ERR, 1, 1⟩
/-- W1C field of PC_LINK_ERR. -/
def PC_LINK_ERR_VN_MISMATCH : Fld := ⟨PC_LINK_ERR, 0, 0⟩

/-- R167: register PC_ING_ACCT. -/
def PC_ING_ACCT : Reg :=
  ⟨0x220000, 8, 1, 1, 8192, 0xF0FFFFFF00FFFFFF, 0x0, 0x0, 0x0, fun _ => 0x6000000000000000⟩
/-- RW field of PC_ING_ACCT. -/
def PC_ING_ACCT_ALPHA : Fld := ⟨PC_ING_ACCT, 63, 60⟩
/-- RW field of PC_ING_ACCT. -/
def PC_ING_ACCT_HEADROOM : Fld := ⟨PC_ING_ACCT, 55, 32⟩
/-- RW field of PC_ING_ACCT. -/
def PC_ING_ACCT_MIN : Fld := ⟨PC_ING_ACCT, 23, 0⟩

/-- R260: register FT_ROUTER_MAC. -/
def FT_ROUTER_MAC : Reg :=
  ⟨0x300000, 8, 1, 1, 1, 0xFFFFFFFFFFFF, 0x0, 0x0, 0x0, fun _ => 0x0⟩
/-- RW field of FT_ROUTER_MAC. -/
def FT_ROUTER_MAC_MAC : Fld := ⟨FT_ROUTER_MAC, 47, 0⟩

/-- R263: register FT_AGE_CFG. -/
def FT_AGE_CFG : Reg :=
  ⟨0x300008, 8, 1, 1, 1, 0x80000000FFFFFFFF, 0x0, 0x0, 0x0, fun _ => 0x249F0⟩
/-- RW field of FT_AGE_CFG. -/
def FT_AGE_CFG_ENABLE : Fld := ⟨FT_AGE_CFG, 63, 63⟩
/-- RW field of FT_AGE_CFG. -/
def FT_AGE_CFG_PERIOD_MS : Fld := ⟨FT_AGE_CFG, 31, 0⟩

/-- R260: register FT_SPRAY_SEED. -/
def FT_SPRAY_SEED : Reg :=
  ⟨0x300010, 8, 1, 1, 1, 0xFFFFFFFF, 0x0, 0x0, 0x0, fun _ => 0x6E0A93F1⟩
/-- RW field of FT_SPRAY_SEED. -/
def FT_SPRAY_SEED_SEED : Fld := ⟨FT_SPRAY_SEED, 31, 0⟩

/-- R263: register FT_SPRAY_ENV. -/
def FT_SPRAY_ENV : Reg :=
  ⟨0x300018, 8, 1, 1, 1, 0xC000FFFF00FFFFFF, 0x0, 0x0, 0x0, fun _ => 0x3200000400⟩
/-- RW field of FT_SPRAY_ENV. -/
def FT_SPRAY_ENV_ORIGIN_MODE : Fld := ⟨FT_SPRAY_ENV, 63, 62⟩
/-- RW field of FT_SPRAY_ENV. -/
def FT_SPRAY_ENV_FLOWLET_GAP : Fld := ⟨FT_SPRAY_ENV, 47, 32⟩
/-- RW field of FT_SPRAY_ENV. -/
def FT_SPRAY_ENV_DELTA : Fld := ⟨FT_SPRAY_ENV, 23, 0⟩

/-- R264: register FT_LPM_CFG. -/
def FT_LPM_CFG : Reg :=
  ⟨0x300020, 8, 1, 1, 1, 0x80000000000FFFFF, 0x0, 0x0, 0x0, fun _ => 0x40000⟩
/-- RW field of FT_LPM_CFG. -/
def FT_LPM_CFG_IMAGE_LOAD : Fld := ⟨FT_LPM_CFG, 63, 63⟩
/-- RW field of FT_LPM_CFG. -/
def FT_LPM_CFG_V4_UNITS : Fld := ⟨FT_LPM_CFG, 19, 0⟩

/-- R264: register FT_LPM_STATUS. -/
def FT_LPM_STATUS : Reg :=
  ⟨0x300028, 8, 1, 1, 1, 0x0, 0x8000000000000000, 0x0, 0x0, fun _ => 0x0⟩
/-- W1C field of FT_LPM_STATUS. -/
def FT_LPM_STATUS_IMAGE_BAD : Fld := ⟨FT_LPM_STATUS, 63, 63⟩
/-- RO field of FT_LPM_STATUS. -/
def FT_LPM_STATUS_IMAGE_BUSY : Fld := ⟨FT_LPM_STATUS, 62, 62⟩
/-- RO field of FT_LPM_STATUS. -/
def FT_LPM_STATUS_V6_USED : Fld := ⟨FT_LPM_STATUS, 39, 20⟩
/-- RO field of FT_LPM_STATUS. -/
def FT_LPM_STATUS_V4_USED : Fld := ⟨FT_LPM_STATUS, 19, 0⟩

/-- R261: register FT_PIPE_CTL. -/
def FT_PIPE_CTL : Reg :=
  ⟨0x300100, 64, 1, 1, 8, 0xC000000000000300, 0x0, 0x0, 0x0, fun _ => 0x0⟩
/-- RW field of FT_PIPE_CTL. -/
def FT_PIPE_CTL_IMAGE_LOAD : Fld := ⟨FT_PIPE_CTL, 63, 63⟩
/-- RW field of FT_PIPE_CTL. -/
def FT_PIPE_CTL_LEARN : Fld := ⟨FT_PIPE_CTL, 62, 62⟩
/-- RW field of FT_PIPE_CTL. -/
def FT_PIPE_CTL_SPRAY_MODE : Fld := ⟨FT_PIPE_CTL, 9, 8⟩

/-- R262: register FT_PIPE_STATUS. -/
def FT_PIPE_STATUS : Reg :=
  ⟨0x300108, 64, 1, 1, 8, 0x0, 0xF, 0x0, 0x0, fun _ => 0x0⟩
/-- RO field of FT_PIPE_STATUS. -/
def FT_PIPE_STATUS_IMAGE_BUSY : Fld := ⟨FT_PIPE_STATUS, 4, 4⟩
/-- W1C field of FT_PIPE_STATUS. -/
def FT_PIPE_STATUS_IMAGE_MISPLACED : Fld := ⟨FT_PIPE_STATUS, 3, 3⟩
/-- W1C field of FT_PIPE_STATUS. -/
def FT_PIPE_STATUS_LEARN_DROPPED : Fld := ⟨FT_PIPE_STATUS, 2, 2⟩
/-- W1C field of FT_PIPE_STATUS. -/
def FT_PIPE_STATUS_EVICTED : Fld := ⟨FT_PIPE_STATUS, 1, 1⟩
/-- W1C field of FT_PIPE_STATUS. -/
def FT_PIPE_STATUS_REHASH_REQUEST : Fld := ⟨FT_PIPE_STATUS, 0, 0⟩

/-- R260: register FT_PIPE_COUNT. -/
def FT_PIPE_COUNT : Reg :=
  ⟨0x300110, 64, 1, 1, 8, 0x0, 0x0, 0x0, 0x0, fun _ => 0x0⟩
/-- RO field of FT_PIPE_COUNT. -/
def FT_PIPE_COUNT_LEARNED : Fld := ⟨FT_PIPE_COUNT, 63, 32⟩
/-- RO field of FT_PIPE_COUNT. -/
def FT_PIPE_COUNT_STATIC : Fld := ⟨FT_PIPE_COUNT, 31, 0⟩

/-- R260: register FT_PIPE_DROP. -/
def FT_PIPE_DROP : Reg :=
  ⟨0x300118, 64, 1, 1, 8, 0x0, 0x0, 0x0, 0x0, fun _ => 0x0⟩
/-- RO field of FT_PIPE_DROP. -/
def FT_PIPE_DROP_LOOKUP_DROP : Fld := ⟨FT_PIPE_DROP, 63, 32⟩
/-- RO field of FT_PIPE_DROP. -/
def FT_PIPE_DROP_TTL_EXPIRED : Fld := ⟨FT_PIPE_DROP, 31, 0⟩

/-- R221: register FT_HASH_SEED_LO. -/
def FT_HASH_SEED_LO : Reg :=
  ⟨0x300120, 64, 1, 1, 8, 0xFFFFFFFFFFFFFFFF, 0x0, 0x0, 0x0, fun _ => 0x4B1D2E07FFFFFFFF⟩
/-- RW field of FT_HASH_SEED_LO. -/
def FT_HASH_SEED_LO_WAY1 : Fld := ⟨FT_HASH_SEED_LO, 63, 32⟩
/-- RW field of FT_HASH_SEED_LO. -/
def FT_HASH_SEED_LO_WAY0 : Fld := ⟨FT_HASH_SEED_LO, 31, 0⟩

/-- R221: register FT_HASH_SEED_HI. -/
def FT_HASH_SEED_HI : Reg :=
  ⟨0x300128, 64, 1, 1, 8, 0xFFFFFFFFFFFFFFFF, 0x0, 0x0, 0x0, fun _ => 0x27F8B4D3C3A59061⟩
/-- RW field of FT_HASH_SEED_HI. -/
def FT_HASH_SEED_HI_WAY3 : Fld := ⟨FT_HASH_SEED_HI, 63, 32⟩
/-- RW field of FT_HASH_SEED_HI. -/
def FT_HASH_SEED_HI_WAY2 : Fld := ⟨FT_HASH_SEED_HI, 31, 0⟩

/-- R260: register FT_LEARN_PORTS. -/
def FT_LEARN_PORTS : Reg :=
  ⟨0x300400, 8, 1, 1, 16, 0xFFFFFFFFFFFFFFFF, 0x0, 0x0, 0x0, fun _ => 0x0⟩
/-- RW field of FT_LEARN_PORTS. -/
def FT_LEARN_PORTS_BITS : Fld := ⟨FT_LEARN_PORTS, 63, 0⟩

/-- R260: register FT_LEARN_BASE. -/
def FT_LEARN_BASE : Reg :=
  ⟨0x300500, 8, 1, 1, 1, 0xFFFFFFFFFFFFFFFF, 0x0, 0x0, 0x0, fun _ => 0x0⟩
/-- RW field of FT_LEARN_BASE. -/
def FT_LEARN_BASE_ADDR : Fld := ⟨FT_LEARN_BASE, 63, 0⟩

/-- R263: register FT_LEARN_CFG. -/
def FT_LEARN_CFG : Reg :=
  ⟨0x300508, 8, 1, 1, 1, 0x800000000000001F, 0x0, 0x0, 0x0, fun _ => 0xC⟩
/-- RW field of FT_LEARN_CFG. -/
def FT_LEARN_CFG_ENABLE : Fld := ⟨FT_LEARN_CFG, 63, 63⟩
/-- RW field of FT_LEARN_CFG. -/
def FT_LEARN_CFG_LOG2 : Fld := ⟨FT_LEARN_CFG, 4, 0⟩

/-- R260: register FT_LEARN_PROD. -/
def FT_LEARN_PROD : Reg :=
  ⟨0x300510, 8, 1, 1, 1, 0x0, 0x0, 0x0, 0x0, fun _ => 0x0⟩
/-- RO field of FT_LEARN_PROD. -/
def FT_LEARN_PROD_COUNT : Fld := ⟨FT_LEARN_PROD, 31, 0⟩

/-- R260: register FT_LEARN_CONS. -/
def FT_LEARN_CONS : Reg :=
  ⟨0x300518, 8, 1, 1, 1, 0xFFFFFFFF, 0x0, 0x0, 0x0, fun _ => 0x0⟩
/-- RW field of FT_LEARN_CONS. -/
def FT_LEARN_CONS_COUNT : Fld := ⟨FT_LEARN_CONS, 31, 0⟩

/-- R260: register FT_LEARN_STATUS. -/
def FT_LEARN_STATUS : Reg :=
  ⟨0x300520, 8, 1, 1, 1, 0x0, 0x3, 0x0, 0x0, fun _ => 0x0⟩
/-- W1C field of FT_LEARN_STATUS. -/
def FT_LEARN_STATUS_CFG_ERR : Fld := ⟨FT_LEARN_STATUS, 1, 1⟩
/-- W1C field of FT_LEARN_STATUS. -/
def FT_LEARN_STATUS_LOST : Fld := ⟨FT_LEARN_STATUS, 0, 0⟩

/-- R260: register FT_VLAN_MAP. -/
def FT_VLAN_MAP : Reg :=
  ⟨0x301000, 8, 1, 1, 512, 0x3F3F3F3F3F3F3F3F, 0x0, 0x0, 0x0, fun _ => 0x0⟩

/-- R260: register FT_FLOOD_SET. -/
def FT_FLOOD_SET : Reg :=
  ⟨0x302000, 8, 1, 1, 1024, 0xFFFFFFFFFFFFFFFF, 0x0, 0x0, 0x0, fun _ => 0x0⟩
/-- RW field of FT_FLOOD_SET. -/
def FT_FLOOD_SET_BITS : Fld := ⟨FT_FLOOD_SET, 63, 0⟩

/-- R264: register FT_GROUP_CFG. -/
def FT_GROUP_CFG : Reg :=
  ⟨0x330000, 8, 1, 1, 4096, 0x800000000000003F, 0x0, 0x0, 0x0, fun _ => 0x0⟩
/-- RW field of FT_GROUP_CFG. -/
def FT_GROUP_CFG_VALID : Fld := ⟨FT_GROUP_CFG, 63, 63⟩
/-- RO field of FT_GROUP_CFG. -/
def FT_GROUP_CFG_LIVE : Fld := ⟨FT_GROUP_CFG, 53, 48⟩
/-- RW field of FT_GROUP_CFG. -/
def FT_GROUP_CFG_COUNT : Fld := ⟨FT_GROUP_CFG, 5, 0⟩

/-- R260: register FT_GROUP_MEMBER. -/
def FT_GROUP_MEMBER : Reg :=
  ⟨0x340000, 8, 1, 1, 32768, 0x3FF03FF03FF03FF, 0x0, 0x0, 0x0, fun _ => 0x0⟩

/-- R295: register TQ_RESULT_CFG. -/
def TQ_RESULT_CFG : Reg :=
  ⟨0x400000, 8, 1, 1, 2, 0xFFFFFF, 0x0, 0x0, 0x0, fun _ => 0x10000⟩
/-- RO field of TQ_RESULT_CFG. -/
def TQ_RESULT_CFG_HELD : Fld := ⟨TQ_RESULT_CFG, 47, 24⟩
/-- RW field of TQ_RESULT_CFG. -/
def TQ_RESULT_CFG_LIMIT : Fld := ⟨TQ_RESULT_CFG, 23, 0⟩

/-- R304: register TQ_ECN_PROFILE. -/
def TQ_ECN_PROFILE : Reg :=
  ⟨0x400040, 8, 1, 1, 16, 0xFF, 0x0, 0x0, 0x0, fun _ => 0x20⟩
/-- RW field of TQ_ECN_PROFILE. -/
def TQ_ECN_PROFILE_RISE_PROB : Fld := ⟨TQ_ECN_PROFILE, 7, 0⟩

/-- R312: register TQ_ERR. -/
def TQ_ERR : Reg :=
  ⟨0x400100, 8, 1, 1, 1, 0x0, 0x1F, 0x0, 0x0, fun _ => 0x0⟩
/-- W1C field of TQ_ERR. -/
def TQ_ERR_GATE_DOMAIN_LOST : Fld := ⟨TQ_ERR, 4, 4⟩
/-- W1C field of TQ_ERR. -/
def TQ_ERR_GATE_REFUSED : Fld := ⟨TQ_ERR, 3, 3⟩
/-- W1C field of TQ_ERR. -/
def TQ_ERR_METER_REFUSED : Fld := ⟨TQ_ERR, 2, 2⟩
/-- W1C field of TQ_ERR. -/
def TQ_ERR_SCHED_REFUSED : Fld := ⟨TQ_ERR, 1, 1⟩
/-- W1C field of TQ_ERR. -/
def TQ_ERR_LAYOUT_REFUSED : Fld := ⟨TQ_ERR, 0, 0⟩

/-- R269: register TQ_QLAYOUT. -/
def TQ_QLAYOUT : Reg :=
  ⟨0x401000, 8, 1, 1, 256, 0x83FF070F000FFFFF, 0x0, 0x0, 0x0, fun i => BitVec.ofNat 64 (0x8000000000002414 + (0x80 * (i % 8)) * 2 ^ 48)⟩
/-- RW field of TQ_QLAYOUT. -/
def TQ_QLAYOUT_USED : Fld := ⟨TQ_QLAYOUT, 63, 63⟩
/-- RW field of TQ_QLAYOUT. -/
def TQ_QLAYOUT_BASE : Fld := ⟨TQ_QLAYOUT, 57, 48⟩
/-- RW field of TQ_QLAYOUT. -/
def TQ_QLAYOUT_LOG2 : Fld := ⟨TQ_QLAYOUT, 42, 40⟩
/-- RW field of TQ_QLAYOUT. -/
def TQ_QLAYOUT_PROFILE : Fld := ⟨TQ_QLAYOUT, 35, 32⟩
/-- RW field of TQ_QLAYOUT. -/
def TQ_QLAYOUT_QUANTUM : Fld := ⟨TQ_QLAYOUT, 19, 0⟩

/-- R267: register TQ_PORT_SCHED. -/
def TQ_PORT_SCHED : Reg :=
  ⟨0x402000, 8, 1, 1, 1024, 0xC07F00000000001F, 0x0, 0x0, 0x0, fun _ => 0x0⟩
/-- RW field of TQ_PORT_SCHED. -/
def TQ_PORT_SCHED_ROLE : Fld := ⟨TQ_PORT_SCHED, 63, 63⟩
/-- RW field of TQ_PORT_SCHED. -/
def TQ_PORT_SCHED_GATE_ENABLE : Fld := ⟨TQ_PORT_SCHED, 62, 62⟩
/-- RW field of TQ_PORT_SCHED. -/
def TQ_PORT_SCHED_GATE_SCHED : Fld := ⟨TQ_PORT_SCHED, 54, 48⟩
/-- RW field of TQ_PORT_SCHED. -/
def TQ_PORT_SCHED_LAYOUT : Fld := ⟨TQ_PORT_SCHED, 4, 0⟩

/-- R282: register TQ_METER_PROFILE. -/
def TQ_METER_PROFILE : Reg :=
  ⟨0x408000, 8, 1, 1, 1024, 0xFFFFFFFFFFFFFFFF, 0x0, 0x0, 0x0, fun _ => 0x0⟩
/-- RW field of TQ_METER_PROFILE. -/
def TQ_METER_PROFILE_WORD : Fld := ⟨TQ_METER_PROFILE, 63, 0⟩

/-- R280: register TQ_METER_MAP. -/
def TQ_METER_MAP : Reg :=
  ⟨0x410000, 8, 1, 1, 8192, 0x8000000000033FFF, 0x0, 0x0, 0x0, fun _ => 0x0⟩
/-- RW field of TQ_METER_MAP. -/
def TQ_METER_MAP_VALID : Fld := ⟨TQ_METER_MAP, 63, 63⟩
/-- RW field of TQ_METER_MAP. -/
def TQ_METER_MAP_LOG2 : Fld := ⟨TQ_METER_MAP, 17, 16⟩
/-- RW field of TQ_METER_MAP. -/
def TQ_METER_MAP_BASE : Fld := ⟨TQ_METER_MAP, 13, 0⟩

/-- R275: register TQ_CLASS_SCHED. -/
def TQ_CLASS_SCHED : Reg :=
  ⟨0x420000, 8, 1, 1, 8192, 0x800FFFFF000FFFFF, 0x0, 0x0, 0x0, fun _ => 0x2414⟩
/-- RW field of TQ_CLASS_SCHED. -/
def TQ_CLASS_SCHED_STRICT : Fld := ⟨TQ_CLASS_SCHED, 63, 63⟩
/-- RW field of TQ_CLASS_SCHED. -/
def TQ_CLASS_SCHED_MAX_RATE : Fld := ⟨TQ_CLASS_SCHED, 51, 32⟩
/-- RW field of TQ_CLASS_SCHED. -/
def TQ_CLASS_SCHED_QUANTUM : Fld := ⟨TQ_CLASS_SCHED, 19, 0⟩

/-- R286: register TQ_GATE_BASE_S. -/
def TQ_GATE_BASE_S : Reg :=
  ⟨0x430000, 64, 1, 1, 128, 0xFFFFFFFFFFFF, 0x0, 0x0, 0x0, fun _ => 0x0⟩
/-- RW field of TQ_GATE_BASE_S. -/
def TQ_GATE_BASE_S_SECONDS : Fld := ⟨TQ_GATE_BASE_S, 47, 0⟩

/-- R286: register TQ_GATE_BASE_NS. -/
def TQ_GATE_BASE_NS : Reg :=
  ⟨0x430008, 64, 1, 1, 128, 0xFFFFFFFF, 0x0, 0x0, 0x0, fun _ => 0x0⟩
/-- RW field of TQ_GATE_BASE_NS. -/
def TQ_GATE_BASE_NS_NS : Fld := ⟨TQ_GATE_BASE_NS, 31, 0⟩

/-- R286: register TQ_GATE_CYCLE. -/
def TQ_GATE_CYCLE : Reg :=
  ⟨0x430010, 64, 1, 1, 128, 0xFFFFFFFFFFFFFFFF, 0x0, 0x0, 0x0, fun _ => 0x0⟩
/-- RW field of TQ_GATE_CYCLE. -/
def TQ_GATE_CYCLE_EXT_NS : Fld := ⟨TQ_GATE_CYCLE, 63, 32⟩
/-- RW field of TQ_GATE_CYCLE. -/
def TQ_GATE_CYCLE_CYCLE_NS : Fld := ⟨TQ_GATE_CYCLE, 31, 0⟩

/-- R286: register TQ_GATE_CTL. -/
def TQ_GATE_CTL : Reg :=
  ⟨0x430018, 64, 1, 1, 128, 0x400000000000007F, 0x0, 0x0, 0x0, fun _ => 0x1⟩
/-- WO field of TQ_GATE_CTL. -/
def TQ_GATE_CTL_COMMIT : Fld := ⟨TQ_GATE_CTL, 63, 63⟩
/-- RW field of TQ_GATE_CTL. -/
def TQ_GATE_CTL_DOMAIN : Fld := ⟨TQ_GATE_CTL, 62, 62⟩
/-- RW field of TQ_GATE_CTL. -/
def TQ_GATE_CTL_LIST_LEN : Fld := ⟨TQ_GATE_CTL, 6, 0⟩

/-- R286: register TQ_GATE_STATUS. -/
def TQ_GATE_STATUS : Reg :=
  ⟨0x430020, 64, 1, 1, 128, 0x0, 0x0, 0x0, 0x0, fun _ => 0x0⟩
/-- RO field of TQ_GATE_STATUS. -/
def TQ_GATE_STATUS_PENDING : Fld := ⟨TQ_GATE_STATUS, 63, 63⟩
/-- RO field of TQ_GATE_STATUS. -/
def TQ_GATE_STATUS_OPER_VALID : Fld := ⟨TQ_GATE_STATUS, 62, 62⟩
/-- RO field of TQ_GATE_STATUS. -/
def TQ_GATE_STATUS_CHANGE_NS : Fld := ⟨TQ_GATE_STATUS, 31, 0⟩

/-- R286: register TQ_GATE_CHANGE_S. -/
def TQ_GATE_CHANGE_S : Reg :=
  ⟨0x430028, 64, 1, 1, 128, 0x0, 0x0, 0x0, 0x0, fun _ => 0x0⟩
/-- RO field of TQ_GATE_CHANGE_S. -/
def TQ_GATE_CHANGE_S_SECONDS : Fld := ⟨TQ_GATE_CHANGE_S, 47, 0⟩

/-- R287: register TQ_GATE_ADMIN. -/
def TQ_GATE_ADMIN : Reg :=
  ⟨0x450000, 8, 1, 1, 8192, 0xFFFFFFFFFF, 0x0, 0x0, 0x0, fun _ => 0x0⟩
/-- RW field of TQ_GATE_ADMIN. -/
def TQ_GATE_ADMIN_STATES : Fld := ⟨TQ_GATE_ADMIN, 39, 32⟩
/-- RW field of TQ_GATE_ADMIN. -/
def TQ_GATE_ADMIN_INTERVAL_NS : Fld := ⟨TQ_GATE_ADMIN, 31, 0⟩

/-- R287: register TQ_GATE_OPER. -/
def TQ_GATE_OPER : Reg :=
  ⟨0x460000, 8, 1, 1, 8192, 0x0, 0x0, 0x0, 0x0, fun _ => 0x0⟩
/-- RO field of TQ_GATE_OPER. -/
def TQ_GATE_OPER_STATES : Fld := ⟨TQ_GATE_OPER, 39, 32⟩
/-- RO field of TQ_GATE_OPER. -/
def TQ_GATE_OPER_INTERVAL_NS : Fld := ⟨TQ_GATE_OPER, 31, 0⟩

/-- R281: register TQ_METER_CFG. -/
def TQ_METER_CFG : Reg :=
  ⟨0x4A0000, 4, 1, 1, 65536, 0x1FF, 0x0, 0x0, 0x0, fun _ => 0x0⟩
/-- RW field of TQ_METER_CFG. -/
def TQ_METER_CFG_COLOUR_AWARE : Fld := ⟨TQ_METER_CFG, 8, 8⟩
/-- RW field of TQ_METER_CFG. -/
def TQ_METER_CFG_PROFILE : Fld := ⟨TQ_METER_CFG, 7, 0⟩

/-- R356: register RE_TILE_MAP. -/
def RE_TILE_MAP : Reg :=
  ⟨0x500000, 8, 1, 1, 176, 0x0, 0x0, 0x0, 0x0, fun i => BitVec.ofNat 64 (i / 88 * 128 + i % 88)⟩
/-- RO field of RE_TILE_MAP. -/
def RE_TILE_MAP_VALID : Fld := ⟨RE_TILE_MAP, 63, 63⟩
/-- RO field of RE_TILE_MAP. -/
def RE_TILE_MAP_DIE : Fld := ⟨RE_TILE_MAP, 7, 7⟩
/-- RO field of RE_TILE_MAP. -/
def RE_TILE_MAP_PHYS : Fld := ⟨RE_TILE_MAP, 6, 0⟩

/-- R355: register RE_TILE_MAP_GEN. -/
def RE_TILE_MAP_GEN : Reg :=
  ⟨0x500600, 8, 1, 1, 1, 0x0, 0x0, 0x0, 0x0, fun _ => 0x0⟩
/-- RO field of RE_TILE_MAP_GEN. -/
def RE_TILE_MAP_GEN_GEN : Fld := ⟨RE_TILE_MAP_GEN, 31, 0⟩

/-- R357: register RE_TILE_STATUS. -/
def RE_TILE_STATUS : Reg :=
  ⟨0x500800, 8, 1, 1, 176, 0x0, 0x0, 0x0, 0x0, fun _ => 0x0⟩
/-- RO field of RE_TILE_STATUS. -/
def RE_TILE_STATUS_STATE : Fld := ⟨RE_TILE_STATUS, 63, 60⟩
/-- RO field of RE_TILE_STATUS. -/
def RE_TILE_STATUS_SLOTS_HELD : Fld := ⟨RE_TILE_STATUS, 44, 32⟩
/-- RO field of RE_TILE_STATUS. -/
def RE_TILE_STATUS_FRAMES_HELD : Fld := ⟨RE_TILE_STATUS, 24, 16⟩

/-- R358: register RE_ERR. -/
def RE_ERR : Reg :=
  ⟨0x501000, 8, 1, 1, 2, 0x0, 0x7F, 0x0, 0x0, fun _ => 0x0⟩
/-- W1C field of RE_ERR. -/
def RE_ERR_ACC_UNCORRECTABLE : Fld := ⟨RE_ERR, 6, 6⟩
/-- W1C field of RE_ERR. -/
def RE_ERR_ACC_CORRECTED : Fld := ⟨RE_ERR, 5, 5⟩
/-- W1C field of RE_ERR. -/
def RE_ERR_PROJ_CHECK : Fld := ⟨RE_ERR, 4, 4⟩
/-- W1C field of RE_ERR. -/
def RE_ERR_ROUND_MISMATCH : Fld := ⟨RE_ERR, 3, 3⟩
/-- W1C field of RE_ERR. -/
def RE_ERR_SUM_CHECK : Fld := ⟨RE_ERR, 2, 2⟩
/-- W1C field of RE_ERR. -/
def RE_ERR_LANDING_CHECK : Fld := ⟨RE_ERR, 1, 1⟩
/-- W1C field of RE_ERR. -/
def RE_ERR_FORMAT_MISMATCH : Fld := ⟨RE_ERR, 0, 0⟩

/-- R355: register RE_CHECK_COUNT. -/
def RE_CHECK_COUNT : Reg :=
  ⟨0x501010, 8, 1, 1, 2, 0x0, 0x0, 0x0, 0x0, fun _ => 0x0⟩
/-- RO field of RE_CHECK_COUNT. -/
def RE_CHECK_COUNT_LANDING_FAIL : Fld := ⟨RE_CHECK_COUNT, 63, 32⟩
/-- RO field of RE_CHECK_COUNT. -/
def RE_CHECK_COUNT_SUM_FAIL : Fld := ⟨RE_CHECK_COUNT, 31, 0⟩

/-- R406: register MF_DIE_STATUS. -/
def MF_DIE_STATUS : Reg :=
  ⟨0x600000, 8, 1, 1, 2, 0x0, 0x0, 0x0, 0x0, fun _ => 0xC000800000000000⟩
/-- RO field of MF_DIE_STATUS. -/
def MF_DIE_STATUS_VARIANT : Fld := ⟨MF_DIE_STATUS, 63, 62⟩
/-- RO field of MF_DIE_STATUS. -/
def MF_DIE_STATUS_CHANGING : Fld := ⟨MF_DIE_STATUS, 61, 61⟩
/-- RO field of MF_DIE_STATUS. -/
def MF_DIE_STATUS_STORE_FREE : Fld := ⟨MF_DIE_STATUS, 55, 32⟩
/-- RO field of MF_DIE_STATUS. -/
def MF_DIE_STATUS_ACTIVE : Fld := ⟨MF_DIE_STATUS, 6, 0⟩

/-- R406: register MF_ERR. -/
def MF_ERR : Reg :=
  ⟨0x600010, 8, 1, 1, 2, 0x0, 0xF, 0x0, 0x0, fun _ => 0x0⟩
/-- W1C field of MF_ERR. -/
def MF_ERR_SENTINEL_FAIL : Fld := ⟨MF_ERR, 3, 3⟩
/-- W1C field of MF_ERR. -/
def MF_ERR_EPOCH_VOID : Fld := ⟨MF_ERR, 2, 2⟩
/-- W1C field of MF_ERR. -/
def MF_ERR_TRIGGER_SKIPPED : Fld := ⟨MF_ERR, 1, 1⟩
/-- W1C field of MF_ERR. -/
def MF_ERR_DOMAIN_LOST : Fld := ⟨MF_ERR, 0, 0⟩

/-- R408: register MF_SENTINEL_CFG. -/
def MF_SENTINEL_CFG : Reg :=
  ⟨0x600100, 8, 1, 1, 1, 0xC0000000FFFFFFFF, 0x0, 0x0, 0x0, fun _ => 0x80000000000003E8⟩
/-- RW field of MF_SENTINEL_CFG. -/
def MF_SENTINEL_CFG_ENABLE : Fld := ⟨MF_SENTINEL_CFG, 63, 63⟩
/-- RW field of MF_SENTINEL_CFG. -/
def MF_SENTINEL_CFG_INTRUDE : Fld := ⟨MF_SENTINEL_CFG, 62, 62⟩
/-- RW field of MF_SENTINEL_CFG. -/
def MF_SENTINEL_CFG_PERIOD_MS : Fld := ⟨MF_SENTINEL_CFG, 31, 0⟩

/-- R408: register MF_SENTINEL_STATUS. -/
def MF_SENTINEL_STATUS : Reg :=
  ⟨0x600108, 8, 1, 1, 2, 0x0, 0x0, 0x0, 0x0, fun _ => 0x0⟩
/-- RO field of MF_SENTINEL_STATUS. -/
def MF_SENTINEL_STATUS_PASSES : Fld := ⟨MF_SENTINEL_STATUS, 63, 32⟩
/-- RO field of MF_SENTINEL_STATUS. -/
def MF_SENTINEL_STATUS_FAILS : Fld := ⟨MF_SENTINEL_STATUS, 31, 16⟩
/-- RO field of MF_SENTINEL_STATUS. -/
def MF_SENTINEL_STATUS_LAST_VALID : Fld := ⟨MF_SENTINEL_STATUS, 15, 15⟩
/-- RO field of MF_SENTINEL_STATUS. -/
def MF_SENTINEL_STATUS_LAST_VARIANT : Fld := ⟨MF_SENTINEL_STATUS, 14, 13⟩
/-- RO field of MF_SENTINEL_STATUS. -/
def MF_SENTINEL_STATUS_LAST_PATTERN : Fld := ⟨MF_SENTINEL_STATUS, 12, 7⟩
/-- RO field of MF_SENTINEL_STATUS. -/
def MF_SENTINEL_STATUS_LAST_PHYS : Fld := ⟨MF_SENTINEL_STATUS, 6, 0⟩

/-- R408: register MF_SENTINEL_AGE. -/
def MF_SENTINEL_AGE : Reg :=
  ⟨0x600118, 8, 1, 1, 2, 0x0, 0x0, 0x0, 0x0, fun _ => 0xFFFFFFFFFFFFFFFF⟩
/-- RO field of MF_SENTINEL_AGE. -/
def MF_SENTINEL_AGE_AGE_0 : Fld := ⟨MF_SENTINEL_AGE, 15, 0⟩
/-- RO field of MF_SENTINEL_AGE. -/
def MF_SENTINEL_AGE_AGE_1 : Fld := ⟨MF_SENTINEL_AGE, 31, 16⟩
/-- RO field of MF_SENTINEL_AGE. -/
def MF_SENTINEL_AGE_AGE_2 : Fld := ⟨MF_SENTINEL_AGE, 47, 32⟩
/-- RO field of MF_SENTINEL_AGE. -/
def MF_SENTINEL_AGE_AGE_3 : Fld := ⟨MF_SENTINEL_AGE, 63, 48⟩

/-- R409: register MF_LS_CFG. -/
def MF_LS_CFG : Reg :=
  ⟨0x600200, 8, 1, 1, 1, 0xC00003FFFFFF0000, 0x0, 0x0, 0x0, fun _ => 0x3E80000⟩
/-- RW field of MF_LS_CFG. -/
def MF_LS_CFG_ENABLE : Fld := ⟨MF_LS_CFG, 63, 63⟩
/-- RW field of MF_LS_CFG. -/
def MF_LS_CFG_HALT_ON_MISMATCH : Fld := ⟨MF_LS_CFG, 62, 62⟩
/-- RW field of MF_LS_CFG. -/
def MF_LS_CFG_PORT : Fld := ⟨MF_LS_CFG, 41, 32⟩
/-- RW field of MF_LS_CFG. -/
def MF_LS_CFG_TIMEOUT_US : Fld := ⟨MF_LS_CFG, 31, 16⟩

/-- R409: register MF_LS_STATUS. -/
def MF_LS_STATUS : Reg :=
  ⟨0x600208, 8, 1, 1, 1, 0x0, 0x1E, 0x0, 0x0, fun _ => 0x0⟩
/-- RO field of MF_LS_STATUS. -/
def MF_LS_STATUS_STATE : Fld := ⟨MF_LS_STATUS, 63, 62⟩
/-- RO field of MF_LS_STATUS. -/
def MF_LS_STATUS_MISMATCH_SLOT : Fld := ⟨MF_LS_STATUS, 30, 24⟩
/-- RO field of MF_LS_STATUS. -/
def MF_LS_STATUS_FIELDS : Fld := ⟨MF_LS_STATUS, 15, 11⟩
/-- W1C field of MF_LS_STATUS. -/
def MF_LS_STATUS_CFG_ERR : Fld := ⟨MF_LS_STATUS, 4, 4⟩
/-- W1C field of MF_LS_STATUS. -/
def MF_LS_STATUS_VARIANT_DIFF : Fld := ⟨MF_LS_STATUS, 3, 3⟩
/-- W1C field of MF_LS_STATUS. -/
def MF_LS_STATUS_PEER_LATE : Fld := ⟨MF_LS_STATUS, 2, 2⟩
/-- W1C field of MF_LS_STATUS. -/
def MF_LS_STATUS_MISMATCH : Fld := ⟨MF_LS_STATUS, 1, 1⟩

/-- R405: register MF_LS_EPOCH. -/
def MF_LS_EPOCH : Reg :=
  ⟨0x600210, 8, 1, 1, 1, 0x0, 0x0, 0x0, 0x0, fun _ => 0x0⟩
/-- RO field of MF_LS_EPOCH. -/
def MF_LS_EPOCH_EPOCH : Fld := ⟨MF_LS_EPOCH, 63, 0⟩

/-- R405: register MF_LS_SLOTS. -/
def MF_LS_SLOTS : Reg :=
  ⟨0x600218, 8, 1, 1, 2, 0xFFFFFFFFFFFFFFFF, 0x0, 0x0, 0x0, fun _ => 0x0⟩
/-- RW field of MF_LS_SLOTS. -/
def MF_LS_SLOTS_BITS : Fld := ⟨MF_LS_SLOTS, 63, 0⟩

/-- R405: register MF_LS_TILE. -/
def MF_LS_TILE : Reg :=
  ⟨0x600400, 8, 1, 1, 176, 0x0, 0x0, 0x0, 0x0, fun _ => 0x0⟩
/-- RO field of MF_LS_TILE. -/
def MF_LS_TILE_WORD : Fld := ⟨MF_LS_TILE, 63, 0⟩

/-- R407: register MF_SLOT_STATUS. -/
def MF_SLOT_STATUS : Reg :=
  ⟨0x601000, 64, 1, 1, 128, 0x0, 0x0, 0x0, 0x0, fun _ => 0x0⟩
/-- RO field of MF_SLOT_STATUS. -/
def MF_SLOT_STATUS_STATE : Fld := ⟨MF_SLOT_STATUS, 63, 62⟩
/-- RO field of MF_SLOT_STATUS. -/
def MF_SLOT_STATUS_VARIANTS : Fld := ⟨MF_SLOT_STATUS, 61, 58⟩
/-- RO field of MF_SLOT_STATUS. -/
def MF_SLOT_STATUS_TRIGGER : Fld := ⟨MF_SLOT_STATUS, 57, 56⟩
/-- RO field of MF_SLOT_STATUS. -/
def MF_SLOT_STATUS_TILE_COUNT : Fld := ⟨MF_SLOT_STATUS, 47, 40⟩
/-- RO field of MF_SLOT_STATUS. -/
def MF_SLOT_STATUS_FIRST_TILE : Fld := ⟨MF_SLOT_STATUS, 39, 32⟩
/-- RO field of MF_SLOT_STATUS. -/
def MF_SLOT_STATUS_BOUND : Fld := ⟨MF_SLOT_STATUS, 8, 0⟩

/-- R405: register MF_SLOT_EPOCHS. -/
def MF_SLOT_EPOCHS : Reg :=
  ⟨0x601008, 64, 1, 1, 128, 0x0, 0x0, 0x0, 0x0, fun _ => 0x0⟩
/-- RO field of MF_SLOT_EPOCHS. -/
def MF_SLOT_EPOCHS_EPOCHS : Fld := ⟨MF_SLOT_EPOCHS, 63, 0⟩

/-- R407: register MF_SLOT_LATE. -/
def MF_SLOT_LATE : Reg :=
  ⟨0x601010, 64, 1, 1, 128, 0x0, 0x0, 0x0, 0x0, fun _ => 0x0⟩
/-- RO field of MF_SLOT_LATE. -/
def MF_SLOT_LATE_VOIDS : Fld := ⟨MF_SLOT_LATE, 63, 48⟩
/-- RO field of MF_SLOT_LATE. -/
def MF_SLOT_LATE_SKIPPED : Fld := ⟨MF_SLOT_LATE, 47, 32⟩
/-- RO field of MF_SLOT_LATE. -/
def MF_SLOT_LATE_LATE_MAX_NS : Fld := ⟨MF_SLOT_LATE, 31, 0⟩

/-- R407: register MF_SLOT_LATE_SUM. -/
def MF_SLOT_LATE_SUM : Reg :=
  ⟨0x601018, 64, 1, 1, 128, 0x0, 0x0, 0x0, 0x0, fun _ => 0x0⟩
/-- RO field of MF_SLOT_LATE_SUM. -/
def MF_SLOT_LATE_SUM_LATE_EPOCHS : Fld := ⟨MF_SLOT_LATE_SUM, 63, 32⟩
/-- RO field of MF_SLOT_LATE_SUM. -/
def MF_SLOT_LATE_SUM_LATE_SUM_US : Fld := ⟨MF_SLOT_LATE_SUM, 31, 0⟩

/-- R405: register MF_SLOT_DIGEST. -/
def MF_SLOT_DIGEST : Reg :=
  ⟨0x601020, 8, 8, 4, 1024, 0x0, 0x0, 0x0, 0x0, fun _ => 0x0⟩
/-- RO field of MF_SLOT_DIGEST. -/
def MF_SLOT_DIGEST_WORD : Fld := ⟨MF_SLOT_DIGEST, 63, 0⟩

/-- R460: register CL_CFG. -/
def CL_CFG : Reg :=
  ⟨0x700000, 8, 1, 1, 1, 0xFFFFFFFFFFFFFFFF, 0x0, 0x0, 0x0, fun _ => 0x32806400640400⟩
/-- RW field of CL_CFG. -/
def CL_CFG_REPLAY_AFTER_US : Fld := ⟨CL_CFG, 63, 48⟩
/-- RW field of CL_CFG. -/
def CL_CFG_REPLAY_LIMIT : Fld := ⟨CL_CFG, 47, 44⟩
/-- RW field of CL_CFG. -/
def CL_CFG_ARM_WAIT_US : Fld := ⟨CL_CFG, 43, 32⟩
/-- RW field of CL_CFG. -/
def CL_CFG_RESEND_US : Fld := ⟨CL_CFG, 31, 16⟩
/-- RW field of CL_CFG. -/
def CL_CFG_DRAIN_RATE : Fld := ⟨CL_CFG, 15, 0⟩

/-- R461: register CL_ERR. -/
def CL_ERR : Reg :=
  ⟨0x700010, 8, 1, 1, 1, 0x0, 0x1F, 0x0, 0x0, fun _ => 0x0⟩
/-- W1C field of CL_ERR. -/
def CL_ERR_BROADCAST_STALLED : Fld := ⟨CL_ERR, 4, 4⟩
/-- W1C field of CL_ERR. -/
def CL_ERR_CONTEXT_LOST : Fld := ⟨CL_ERR, 3, 3⟩
/-- W1C field of CL_ERR. -/
def CL_ERR_REPLAY_EXHAUSTED : Fld := ⟨CL_ERR, 2, 2⟩
/-- W1C field of CL_ERR. -/
def CL_ERR_EARLY_DROPPED : Fld := ⟨CL_ERR, 1, 1⟩
/-- W1C field of CL_ERR. -/
def CL_ERR_ARM_WAIT_DROPPED : Fld := ⟨CL_ERR, 0, 0⟩

/-- R459: register CL_DROP. -/
def CL_DROP : Reg :=
  ⟨0x700100, 8, 1, 1, 16, 0x0, 0x0, 0x0, 0x0, fun _ => 0x0⟩
/-- RO field of CL_DROP. -/
def CL_DROP_COUNT : Fld := ⟨CL_DROP, 63, 0⟩

/-- R459: register CL_PART_GEN. -/
def CL_PART_GEN : Reg :=
  ⟨0x701000, 8, 1, 1, 256, 0x0, 0x0, 0x0, 0x0, fun _ => 0x0⟩
/-- RO field of CL_PART_GEN. -/
def CL_PART_GEN_GEN : Fld := ⟨CL_PART_GEN, 31, 0⟩

/-- R463: register CL_GROUP_STATUS. -/
def CL_GROUP_STATUS : Reg :=
  ⟨0x710000, 8, 1, 1, 32768, 0x0, 0x0, 0x0, 0x0, fun _ => 0x0⟩
/-- RO field of CL_GROUP_STATUS. -/
def CL_GROUP_STATUS_TAG : Fld := ⟨CL_GROUP_STATUS, 63, 48⟩
/-- RO field of CL_GROUP_STATUS. -/
def CL_GROUP_STATUS_STATE : Fld := ⟨CL_GROUP_STATUS, 47, 46⟩
/-- RO field of CL_GROUP_STATUS. -/
def CL_GROUP_STATUS_LEGS : Fld := ⟨CL_GROUP_STATUS, 45, 40⟩
/-- RO field of CL_GROUP_STATUS. -/
def CL_GROUP_STATUS_OPERATION : Fld := ⟨CL_GROUP_STATUS, 39, 32⟩
/-- RO field of CL_GROUP_STATUS. -/
def CL_GROUP_STATUS_PARTITION : Fld := ⟨CL_GROUP_STATUS, 31, 24⟩
/-- RO field of CL_GROUP_STATUS. -/
def CL_GROUP_STATUS_MEMBERS : Fld := ⟨CL_GROUP_STATUS, 12, 0⟩

/-- R463: register CL_CONTEXT_STATUS. -/
def CL_CONTEXT_STATUS : Reg :=
  ⟨0x750000, 8, 1, 1, 16384, 0x0, 0x0, 0x0, 0x0, fun _ => 0x0⟩
/-- RO field of CL_CONTEXT_STATUS. -/
def CL_CONTEXT_STATUS_STATE : Fld := ⟨CL_CONTEXT_STATUS, 63, 62⟩
/-- RO field of CL_CONTEXT_STATUS. -/
def CL_CONTEXT_STATUS_LEG : Fld := ⟨CL_CONTEXT_STATUS, 61, 56⟩
/-- RO field of CL_CONTEXT_STATUS. -/
def CL_CONTEXT_STATUS_UNACKED : Fld := ⟨CL_CONTEXT_STATUS, 55, 53⟩
/-- RO field of CL_CONTEXT_STATUS. -/
def CL_CONTEXT_STATUS_GROUP_INDEX : Fld := ⟨CL_CONTEXT_STATUS, 46, 32⟩
/-- RO field of CL_CONTEXT_STATUS. -/
def CL_CONTEXT_STATUS_SEQUENCE : Fld := ⟨CL_CONTEXT_STATUS, 31, 0⟩

/-- R466: register MS_CACHE_CFG. -/
def MS_CACHE_CFG : Reg :=
  ⟨0x800000, 64, 1, 1, 2, 0x1F1F, 0x0, 0x0, 0x0, fun _ => 0x800⟩
/-- RW field of MS_CACHE_CFG. -/
def MS_CACHE_CFG_KEEP_WAYS : Fld := ⟨MS_CACHE_CFG, 12, 8⟩
/-- RW field of MS_CACHE_CFG. -/
def MS_CACHE_CFG_SHARE : Fld := ⟨MS_CACHE_CFG, 4, 0⟩

/-- R468: register MS_CACHE_STATUS. -/
def MS_CACHE_STATUS : Reg :=
  ⟨0x800008, 64, 1, 1, 2, 0x0, 0x0, 0x0, 0x0, fun _ => 0x0⟩
/-- RO field of MS_CACHE_STATUS. -/
def MS_CACHE_STATUS_RESIZING : Fld := ⟨MS_CACHE_STATUS, 63, 63⟩
/-- RO field of MS_CACHE_STATUS. -/
def MS_CACHE_STATUS_WCB_USED : Fld := ⟨MS_CACHE_STATUS, 40, 32⟩

/-- R487: register MS_BW_GRANT. -/
def MS_BW_GRANT : Reg :=
  ⟨0x800010, 64, 1, 1, 2, 0x0, 0x0, 0x0, 0x0, fun _ => 0x10403⟩
/-- RO field of MS_BW_GRANT. -/
def MS_BW_GRANT_SLIPWAY : Fld := ⟨MS_BW_GRANT, 63, 48⟩
/-- RO field of MS_BW_GRANT. -/
def MS_BW_GRANT_MANIFEST : Fld := ⟨MS_BW_GRANT, 47, 32⟩
/-- RO field of MS_BW_GRANT. -/
def MS_BW_GRANT_DEVICE : Fld := ⟨MS_BW_GRANT, 31, 16⟩
/-- RO field of MS_BW_GRANT. -/
def MS_BW_GRANT_FREE : Fld := ⟨MS_BW_GRANT, 15, 0⟩

/-- R511: register MS_ERR. -/
def MS_ERR : Reg :=
  ⟨0x800018, 64, 1, 1, 2, 0x0, 0xFF, 0x0, 0x0, fun _ => 0x0⟩
/-- W1C field of MS_ERR. -/
def MS_ERR_CFG_ERR : Fld := ⟨MS_ERR, 7, 7⟩
/-- W1C field of MS_ERR. -/
def MS_ERR_BAD_STRIPE_FULL : Fld := ⟨MS_ERR, 6, 6⟩
/-- W1C field of MS_ERR. -/
def MS_ERR_DOUBLE_ERASURE : Fld := ⟨MS_ERR, 5, 5⟩
/-- W1C field of MS_ERR. -/
def MS_ERR_UNCORRECTABLE : Fld := ⟨MS_ERR, 4, 4⟩
/-- W1C field of MS_ERR. -/
def MS_ERR_CORRECTED : Fld := ⟨MS_ERR, 3, 3⟩
/-- W1C field of MS_ERR. -/
def MS_ERR_GRANT_REFUSED : Fld := ⟨MS_ERR, 2, 2⟩
/-- W1C field of MS_ERR. -/
def MS_ERR_HINT_REFUSED : Fld := ⟨MS_ERR, 1, 1⟩
/-- W1C field of MS_ERR. -/
def MS_ERR_RESIZE_REFUSED : Fld := ⟨MS_ERR, 0, 0⟩

/-- R511: register MS_ECC_COUNT. -/
def MS_ECC_COUNT : Reg :=
  ⟨0x800020, 64, 1, 1, 2, 0x0, 0x0, 0x0, 0x0, fun _ => 0x0⟩
/-- RO field of MS_ECC_COUNT. -/
def MS_ECC_COUNT_CORRECTED : Fld := ⟨MS_ECC_COUNT, 63, 32⟩
/-- RO field of MS_ECC_COUNT. -/
def MS_ECC_COUNT_UNCORRECTABLE : Fld := ⟨MS_ECC_COUNT, 31, 0⟩

/-- R482: register MS_HINT_RANGE. -/
def MS_HINT_RANGE : Reg :=
  ⟨0x801000, 8, 1, 1, 64, 0xFFFFFFFFFFFFFFFF, 0x0, 0x0, 0x0, fun _ => 0x0⟩
/-- RW field of MS_HINT_RANGE. -/
def MS_HINT_RANGE_WORD : Fld := ⟨MS_HINT_RANGE, 63, 0⟩

/-- R508: register MS_HBM_CTL. -/
def MS_HBM_CTL : Reg :=
  ⟨0x802000, 64, 1, 1, 12, 0x3F00FFFFFF00FF, 0x0, 0x0, 0x4000000000000000, fun _ => 0xA0E100018⟩
/-- WO field of MS_HBM_CTL. -/
def MS_HBM_CTL_RETRAIN : Fld := ⟨MS_HBM_CTL, 63, 63⟩
/-- RWL field of MS_HBM_CTL. -/
def MS_HBM_CTL_TEST : Fld := ⟨MS_HBM_CTL, 62, 62⟩
/-- RW field of MS_HBM_CTL. -/
def MS_HBM_CTL_PC : Fld := ⟨MS_HBM_CTL, 53, 48⟩
/-- RW field of MS_HBM_CTL. -/
def MS_HBM_CTL_TEMP_DELTA : Fld := ⟨MS_HBM_CTL, 39, 32⟩
/-- RW field of MS_HBM_CTL. -/
def MS_HBM_CTL_PERIOD_S : Fld := ⟨MS_HBM_CTL, 31, 16⟩
/-- RW field of MS_HBM_CTL. -/
def MS_HBM_CTL_SCRUB_HOURS : Fld := ⟨MS_HBM_CTL, 7, 0⟩

/-- R509: register MS_HBM_STATUS. -/
def MS_HBM_STATUS : Reg :=
  ⟨0x802008, 64, 1, 1, 12, 0x0, 0x0, 0x0, 0x0, fun _ => 0x0⟩
/-- RO field of MS_HBM_STATUS. -/
def MS_HBM_STATUS_STATE : Fld := ⟨MS_HBM_STATUS, 63, 62⟩
/-- RO field of MS_HBM_STATUS. -/
def MS_HBM_STATUS_RETRAINING : Fld := ⟨MS_HBM_STATUS, 61, 61⟩
/-- RO field of MS_HBM_STATUS. -/
def MS_HBM_STATUS_DEGRADED : Fld := ⟨MS_HBM_STATUS, 60, 60⟩
/-- RO field of MS_HBM_STATUS. -/
def MS_HBM_STATUS_RETRAIN_PC : Fld := ⟨MS_HBM_STATUS, 53, 48⟩
/-- RO field of MS_HBM_STATUS. -/
def MS_HBM_STATUS_ERASED_PC : Fld := ⟨MS_HBM_STATUS, 45, 40⟩
/-- RO field of MS_HBM_STATUS. -/
def MS_HBM_STATUS_ROW_REPAIRS : Fld := ⟨MS_HBM_STATUS, 39, 32⟩
/-- RO field of MS_HBM_STATUS. -/
def MS_HBM_STATUS_RETRAINS : Fld := ⟨MS_HBM_STATUS, 31, 16⟩
/-- RO field of MS_HBM_STATUS. -/
def MS_HBM_STATUS_TEMP : Fld := ⟨MS_HBM_STATUS, 7, 0⟩

/-- R510: register MS_HBM_TEST_CMD. -/
def MS_HBM_TEST_CMD : Reg :=
  ⟨0x802010, 64, 1, 1, 12, 0xFF00FF000003FF, 0x0, 0x0, 0x0, fun _ => 0x0⟩
/-- WO field of MS_HBM_TEST_CMD. -/
def MS_HBM_TEST_CMD_GO : Fld := ⟨MS_HBM_TEST_CMD, 63, 63⟩
/-- RO field of MS_HBM_TEST_CMD. -/
def MS_HBM_TEST_CMD_BUSY : Fld := ⟨MS_HBM_TEST_CMD, 62, 62⟩
/-- RW field of MS_HBM_TEST_CMD. -/
def MS_HBM_TEST_CMD_INSTRUCTION : Fld := ⟨MS_HBM_TEST_CMD, 55, 48⟩
/-- RW field of MS_HBM_TEST_CMD. -/
def MS_HBM_TEST_CMD_CHANNEL : Fld := ⟨MS_HBM_TEST_CMD, 39, 32⟩
/-- RW field of MS_HBM_TEST_CMD. -/
def MS_HBM_TEST_CMD_LENGTH : Fld := ⟨MS_HBM_TEST_CMD, 9, 0⟩

/-- R510: register MS_HBM_TEST_DATA. -/
def MS_HBM_TEST_DATA : Reg :=
  ⟨0x803000, 8, 1, 1, 96, 0xFFFFFFFFFFFFFFFF, 0x0, 0x0, 0x0, fun _ => 0x0⟩
/-- RW field of MS_HBM_TEST_DATA. -/
def MS_HBM_TEST_DATA_WORD : Fld := ⟨MS_HBM_TEST_DATA, 63, 0⟩

/-- R495: register MS_FLOW_CFG. -/
def MS_FLOW_CFG : Reg :=
  ⟨0x804000, 32, 1, 1, 8, 0x8000001F0000FFFF, 0x0, 0x0, 0x0, fun _ => 0x1000000064⟩
/-- RW field of MS_FLOW_CFG. -/
def MS_FLOW_CFG_ENABLE : Fld := ⟨MS_FLOW_CFG, 63, 63⟩
/-- RW field of MS_FLOW_CFG. -/
def MS_FLOW_CFG_LOG2 : Fld := ⟨MS_FLOW_CFG, 36, 32⟩
/-- RW field of MS_FLOW_CFG. -/
def MS_FLOW_CFG_FLUSH_US : Fld := ⟨MS_FLOW_CFG, 15, 0⟩

/-- R495: register MS_FLOW_BASE. -/
def MS_FLOW_BASE : Reg :=
  ⟨0x804008, 32, 1, 1, 8, 0x7FFFFFFFFF, 0x0, 0x0, 0x0, fun _ => 0x0⟩
/-- RW field of MS_FLOW_BASE. -/
def MS_FLOW_BASE_ADDR : Fld := ⟨MS_FLOW_BASE, 38, 0⟩

/-- R495: register MS_FLOW_LOST. -/
def MS_FLOW_LOST : Reg :=
  ⟨0x804010, 32, 1, 1, 8, 0x0, 0x0, 0x0, 0x0, fun _ => 0x0⟩
/-- RO field of MS_FLOW_LOST. -/
def MS_FLOW_LOST_LOST : Fld := ⟨MS_FLOW_LOST, 31, 0⟩

/-- R512: register MS_BAD_STRIPE. -/
def MS_BAD_STRIPE : Reg :=
  ⟨0x806000, 8, 1, 1, 2048, 0x0, 0x0, 0x0, 0x0, fun _ => 0x0⟩
/-- RO field of MS_BAD_STRIPE. -/
def MS_BAD_STRIPE_VALID : Fld := ⟨MS_BAD_STRIPE, 63, 63⟩
/-- RO field of MS_BAD_STRIPE. -/
def MS_BAD_STRIPE_ADDRESS : Fld := ⟨MS_BAD_STRIPE, 38, 0⟩

/-- R551: register OC_ERR. -/
def OC_ERR : Reg :=
  ⟨0x900000, 8, 1, 1, 1, 0x0, 0x1FF, 0x0, 0x0, fun _ => 0x0⟩
/-- W1C field of OC_ERR. -/
def OC_ERR_SAFETY_CUT : Fld := ⟨OC_ERR, 8, 8⟩
/-- W1C field of OC_ERR. -/
def OC_ERR_NO_SPARE : Fld := ⟨OC_ERR, 7, 7⟩
/-- W1C field of OC_ERR. -/
def OC_ERR_FAST_FADE : Fld := ⟨OC_ERR, 6, 6⟩
/-- W1C field of OC_ERR. -/
def OC_ERR_FORD_DECLINED : Fld := ⟨OC_ERR, 5, 5⟩
/-- W1C field of OC_ERR. -/
def OC_ERR_MOVE_UNBRIDGED : Fld := ⟨OC_ERR, 4, 4⟩
/-- W1C field of OC_ERR. -/
def OC_ERR_MOVE_ABANDONED : Fld := ⟨OC_ERR, 3, 3⟩
/-- W1C field of OC_ERR. -/
def OC_ERR_LOCK_LOST : Fld := ⟨OC_ERR, 2, 2⟩
/-- W1C field of OC_ERR. -/
def OC_ERR_LINK_HOLD : Fld := ⟨OC_ERR, 1, 1⟩
/-- W1C field of OC_ERR. -/
def OC_ERR_CFG_REFUSED : Fld := ⟨OC_ERR, 0, 0⟩

/-- R551: register OC_CAL_CFG. -/
def OC_CAL_CFG : Reg :=
  ⟨0x900008, 8, 1, 1, 1, 0x8000FFFF000F0000, 0x0, 0x0, 0x0, fun _ => 0x80000E1000040000⟩
/-- RW field of OC_CAL_CFG. -/
def OC_CAL_CFG_ENABLE : Fld := ⟨OC_CAL_CFG, 63, 63⟩
/-- RW field of OC_CAL_CFG. -/
def OC_CAL_CFG_PERIOD_S : Fld := ⟨OC_CAL_CFG, 47, 32⟩
/-- RW field of OC_CAL_CFG. -/
def OC_CAL_CFG_PER_ENGINE : Fld := ⟨OC_CAL_CFG, 19, 16⟩

/-- R551: register OC_FORD_CFG. -/
def OC_FORD_CFG : Reg :=
  ⟨0x900010, 8, 1, 1, 1, 0x80FFFFFFFFFFFFFF, 0x0, 0x0, 0x0, fun _ => 0xA320A00B40064⟩
/-- RW field of OC_FORD_CFG. -/
def OC_FORD_CFG_ENABLE : Fld := ⟨OC_FORD_CFG, 63, 63⟩
/-- RW field of OC_FORD_CFG. -/
def OC_FORD_CFG_ON_COUNT : Fld := ⟨OC_FORD_CFG, 55, 48⟩
/-- RW field of OC_FORD_CFG. -/
def OC_FORD_CFG_OFF_COUNT : Fld := ⟨OC_FORD_CFG, 47, 40⟩
/-- RW field of OC_FORD_CFG. -/
def OC_FORD_CFG_WINDOW : Fld := ⟨OC_FORD_CFG, 39, 32⟩
/-- RW field of OC_FORD_CFG. -/
def OC_FORD_CFG_ON_RATE : Fld := ⟨OC_FORD_CFG, 31, 16⟩
/-- RW field of OC_FORD_CFG. -/
def OC_FORD_CFG_OFF_RATE : Fld := ⟨OC_FORD_CFG, 15, 0⟩

/-- R552: register OC_FORD_CMD. -/
def OC_FORD_CMD : Reg :=
  ⟨0x900018, 8, 1, 1, 1, 0x0, 0x0, 0x0, 0x0, fun _ => 0x0⟩
/-- WO field of OC_FORD_CMD. -/
def OC_FORD_CMD_REMOVE : Fld := ⟨OC_FORD_CMD, 63, 63⟩
/-- WO field of OC_FORD_CMD. -/
def OC_FORD_CMD_PORT : Fld := ⟨OC_FORD_CMD, 9, 0⟩

/-- R549: register OC_FORD_ELIGIBLE. -/
def OC_FORD_ELIGIBLE : Reg :=
  ⟨0x900100, 8, 1, 1, 16, 0xFFFFFFFFFFFFFFFF, 0x0, 0x0, 0x0, fun _ => 0x0⟩
/-- RW field of OC_FORD_ELIGIBLE. -/
def OC_FORD_ELIGIBLE_BITS : Fld := ⟨OC_FORD_ELIGIBLE, 63, 0⟩

/-- R553: register OC_ENGINE_STATUS. -/
def OC_ENGINE_STATUS : Reg :=
  ⟨0x901000, 32, 1, 1, 16, 0x0, 0x0, 0x0, 0x0, fun _ => 0x0⟩
/-- RO field of OC_ENGINE_STATUS. -/
def OC_ENGINE_STATUS_STATE : Fld := ⟨OC_ENGINE_STATUS, 63, 62⟩
/-- RO field of OC_ENGINE_STATUS. -/
def OC_ENGINE_STATUS_TEMP : Fld := ⟨OC_ENGINE_STATUS, 47, 40⟩
/-- RO field of OC_ENGINE_STATUS. -/
def OC_ENGINE_STATUS_UNLOCKED : Fld := ⟨OC_ENGINE_STATUS, 31, 16⟩
/-- RO field of OC_ENGINE_STATUS. -/
def OC_ENGINE_STATUS_CRC_ERRS : Fld := ⟨OC_ENGINE_STATUS, 15, 0⟩

/-- R553: register OC_ENGINE_ENV. -/
def OC_ENGINE_ENV : Reg :=
  ⟨0x901008, 32, 1, 1, 16, 0xFFFFFFFFFFFF0000, 0x0, 0x0, 0x0, fun _ => 0xF000040020000000⟩
/-- RW field of OC_ENGINE_ENV. -/
def OC_ENGINE_ENV_H_MAX : Fld := ⟨OC_ENGINE_ENV, 63, 48⟩
/-- RW field of OC_ENGINE_ENV. -/
def OC_ENGINE_ENV_H_MIN : Fld := ⟨OC_ENGINE_ENV, 47, 32⟩
/-- RW field of OC_ENGINE_ENV. -/
def OC_ENGINE_ENV_FF_MAX : Fld := ⟨OC_ENGINE_ENV, 31, 16⟩

/-- R553: register OC_FF_CFG. -/
def OC_FF_CFG : Reg :=
  ⟨0x901010, 32, 1, 1, 16, 0xFFFFFFFFFFFF0000, 0x0, 0x0, 0x0, fun _ => 0x7D00000⟩
/-- RW field of OC_FF_CFG. -/
def OC_FF_CFG_GAIN_RD1 : Fld := ⟨OC_FF_CFG, 63, 48⟩
/-- RW field of OC_FF_CFG. -/
def OC_FF_CFG_GAIN_RD0 : Fld := ⟨OC_FF_CFG, 47, 32⟩
/-- RW field of OC_FF_CFG. -/
def OC_FF_CFG_TAU_US : Fld := ⟨OC_FF_CFG, 31, 16⟩

/-- R552: register OC_FORD_CIRCUIT. -/
def OC_FORD_CIRCUIT : Reg :=
  ⟨0x902000, 8, 1, 1, 128, 0x0, 0x0, 0x0, 0x0, fun _ => 0x0⟩
/-- RO field of OC_FORD_CIRCUIT. -/
def OC_FORD_CIRCUIT_STATE : Fld := ⟨OC_FORD_CIRCUIT, 63, 61⟩
/-- RO field of OC_FORD_CIRCUIT. -/
def OC_FORD_CIRCUIT_WAVELENGTH : Fld := ⟨OC_FORD_CIRCUIT, 55, 52⟩
/-- RO field of OC_FORD_CIRCUIT. -/
def OC_FORD_CIRCUIT_PORT_B : Fld := ⟨OC_FORD_CIRCUIT, 51, 42⟩
/-- RO field of OC_FORD_CIRCUIT. -/
def OC_FORD_CIRCUIT_PORT_A : Fld := ⟨OC_FORD_CIRCUIT, 41, 32⟩
/-- RO field of OC_FORD_CIRCUIT. -/
def OC_FORD_CIRCUIT_ID : Fld := ⟨OC_FORD_CIRCUIT, 31, 0⟩

/-- R554: register OC_LASER_CFG. -/
def OC_LASER_CFG : Reg :=
  ⟨0x903000, 256, 1, 1, 4, 0x80FFFF00FFFFFFFF, 0x0, 0x0, 0x0, fun _ => 0x3C0F0005DC0708⟩
/-- RW field of OC_LASER_CFG. -/
def OC_LASER_CFG_ENABLE : Fld := ⟨OC_LASER_CFG, 63, 63⟩
/-- RW field of OC_LASER_CFG. -/
def OC_LASER_CFG_LEAD : Fld := ⟨OC_LASER_CFG, 55, 48⟩
/-- RW field of OC_LASER_CFG. -/
def OC_LASER_CFG_LASER_SPARE_THRESHOLD : Fld := ⟨OC_LASER_CFG, 47, 40⟩
/-- RW field of OC_LASER_CFG. -/
def OC_LASER_CFG_ZERO_MARGIN : Fld := ⟨OC_LASER_CFG, 31, 16⟩
/-- RW field of OC_LASER_CFG. -/
def OC_LASER_CFG_SET_POWER : Fld := ⟨OC_LASER_CFG, 15, 0⟩

/-- R554: register OC_LASER_MODULE_STATUS. -/
def OC_LASER_MODULE_STATUS : Reg :=
  ⟨0x903008, 256, 1, 1, 4, 0x0, 0x0, 0x0, 0x0, fun _ => 0x0⟩
/-- RO field of OC_LASER_MODULE_STATUS. -/
def OC_LASER_MODULE_STATUS_STATE : Fld := ⟨OC_LASER_MODULE_STATUS, 63, 62⟩
/-- RO field of OC_LASER_MODULE_STATUS. -/
def OC_LASER_MODULE_STATUS_INTERLOCK : Fld := ⟨OC_LASER_MODULE_STATUS, 61, 61⟩
/-- RO field of OC_LASER_MODULE_STATUS. -/
def OC_LASER_MODULE_STATUS_TEMP : Fld := ⟨OC_LASER_MODULE_STATUS, 7, 0⟩

/-- R554: register OC_LASER_STATUS. -/
def OC_LASER_STATUS : Reg :=
  ⟨0x903010, 8, 32, 9, 128, 0x0, 0x0, 0x0, 0x0, fun _ => 0xFFFF⟩
/-- RO field of OC_LASER_STATUS. -/
def OC_LASER_STATUS_STATE : Fld := ⟨OC_LASER_STATUS, 63, 62⟩
/-- RO field of OC_LASER_STATUS. -/
def OC_LASER_STATUS_ACTIVE : Fld := ⟨OC_LASER_STATUS, 61, 61⟩
/-- RO field of OC_LASER_STATUS. -/
def OC_LASER_STATUS_POWER : Fld := ⟨OC_LASER_STATUS, 47, 32⟩
/-- RO field of OC_LASER_STATUS. -/
def OC_LASER_STATUS_MARGIN : Fld := ⟨OC_LASER_STATUS, 31, 16⟩
/-- RO field of OC_LASER_STATUS. -/
def OC_LASER_STATUS_PREDICT_S : Fld := ⟨OC_LASER_STATUS, 15, 0⟩

/-- R555: register OC_FIBRE_MAP. -/
def OC_FIBRE_MAP : Reg :=
  ⟨0x904000, 16, 1, 1, 256, 0x8000000000000000, 0x0, 0x0, 0x0, fun _ => 0xFF876543210⟩
/-- RW field of OC_FIBRE_MAP. -/
def OC_FIBRE_MAP_ROTATE : Fld := ⟨OC_FIBRE_MAP, 63, 63⟩
/-- RO field of OC_FIBRE_MAP. -/
def OC_FIBRE_MAP_FORD_W : Fld := ⟨OC_FIBRE_MAP, 43, 40⟩
/-- RO field of OC_FIBRE_MAP. -/
def OC_FIBRE_MAP_CAL_W : Fld := ⟨OC_FIBRE_MAP, 39, 36⟩
/-- RO field of OC_FIBRE_MAP. -/
def OC_FIBRE_MAP_FREE : Fld := ⟨OC_FIBRE_MAP, 35, 32⟩
/-- RO field of OC_FIBRE_MAP. -/
def OC_FIBRE_MAP_WL : Fld := ⟨OC_FIBRE_MAP, 31, 0⟩

/-- R555: register OC_FIBRE_RX_MAP. -/
def OC_FIBRE_RX_MAP : Reg :=
  ⟨0x904008, 16, 1, 1, 256, 0x0, 0x0, 0x0, 0x0, fun _ => 0xFF876543210⟩
/-- RO field of OC_FIBRE_RX_MAP. -/
def OC_FIBRE_RX_MAP_ROTATE : Fld := ⟨OC_FIBRE_RX_MAP, 63, 63⟩
/-- RO field of OC_FIBRE_RX_MAP. -/
def OC_FIBRE_RX_MAP_FORD_W : Fld := ⟨OC_FIBRE_RX_MAP, 43, 40⟩
/-- RO field of OC_FIBRE_RX_MAP. -/
def OC_FIBRE_RX_MAP_CAL_W : Fld := ⟨OC_FIBRE_RX_MAP, 39, 36⟩
/-- RO field of OC_FIBRE_RX_MAP. -/
def OC_FIBRE_RX_MAP_FREE : Fld := ⟨OC_FIBRE_RX_MAP, 35, 32⟩
/-- RO field of OC_FIBRE_RX_MAP. -/
def OC_FIBRE_RX_MAP_WL : Fld := ⟨OC_FIBRE_RX_MAP, 31, 0⟩

/-- R581: register TB_STATUS. -/
def TB_STATUS : Reg :=
  ⟨0xA00000, 8, 1, 1, 1, 0x0, 0x0, 0x0, 0x0, fun _ => 0x0⟩
/-- RO field of TB_STATUS. -/
def TB_STATUS_TCLK_PRESENT : Fld := ⟨TB_STATUS, 63, 63⟩
/-- RO field of TB_STATUS. -/
def TB_STATUS_HOLDOVER : Fld := ⟨TB_STATUS, 62, 62⟩
/-- RO field of TB_STATUS. -/
def TB_STATUS_LOCKED : Fld := ⟨TB_STATUS, 3, 2⟩
/-- RO field of TB_STATUS. -/
def TB_STATUS_READY : Fld := ⟨TB_STATUS, 1, 0⟩

/-- R581: register TB_ERR. -/
def TB_ERR : Reg :=
  ⟨0xA00008, 8, 1, 1, 1, 0x0, 0x1F, 0x0, 0x0, fun _ => 0x0⟩
/-- W1C field of TB_ERR. -/
def TB_ERR_CAP_OVERFLOW : Fld := ⟨TB_ERR, 4, 4⟩
/-- W1C field of TB_ERR. -/
def TB_ERR_REPLICA_REALIGNED : Fld := ⟨TB_ERR, 3, 3⟩
/-- W1C field of TB_ERR. -/
def TB_ERR_HOLDOVER_EXPIRED : Fld := ⟨TB_ERR, 2, 2⟩
/-- W1C field of TB_ERR. -/
def TB_ERR_TCLK_LOST : Fld := ⟨TB_ERR, 1, 1⟩
/-- W1C field of TB_ERR. -/
def TB_ERR_CFG_REFUSED : Fld := ⟨TB_ERR, 0, 0⟩

/-- R580: register TB_CFG. -/
def TB_CFG : Reg :=
  ⟨0xA00010, 8, 1, 1, 1, 0xFFFF, 0x0, 0x0, 0x0, fun _ => 0x3E8⟩
/-- RW field of TB_CFG. -/
def TB_CFG_HOLDOVER_MS : Fld := ⟨TB_CFG, 15, 0⟩

/-- R580: register TB_SNAP_CTL. -/
def TB_SNAP_CTL : Reg :=
  ⟨0xA00018, 8, 1, 1, 1, 0x0, 0x0, 0x0, 0x0, fun _ => 0x0⟩
/-- WO field of TB_SNAP_CTL. -/
def TB_SNAP_CTL_GO : Fld := ⟨TB_SNAP_CTL, 0, 0⟩

/-- R581: register TB_DOM_CTL. -/
def TB_DOM_CTL : Reg :=
  ⟨0xA00100, 64, 1, 1, 2, 0xC0000000FFFFFFFF, 0x0, 0x0, 0x0, fun i => if i = 0 then 0x80000000000186A0 else 0x00000000000186A0⟩
/-- RW field of TB_DOM_CTL. -/
def TB_DOM_CTL_ENABLE : Fld := ⟨TB_DOM_CTL, 63, 63⟩
/-- RW field of TB_DOM_CTL. -/
def TB_DOM_CTL_FOLLOW : Fld := ⟨TB_DOM_CTL, 62, 62⟩
/-- WO field of TB_DOM_CTL. -/
def TB_DOM_CTL_STEP : Fld := ⟨TB_DOM_CTL, 61, 61⟩
/-- RW field of TB_DOM_CTL. -/
def TB_DOM_CTL_SLEW_PPB : Fld := ⟨TB_DOM_CTL, 31, 0⟩

/-- R580: register TB_DOM_INCR. -/
def TB_DOM_INCR : Reg :=
  ⟨0xA00108, 64, 1, 1, 2, 0xFFFFFFFFFF, 0x0, 0x0, 0x0, fun _ => 0x100000000⟩
/-- RW field of TB_DOM_INCR. -/
def TB_DOM_INCR_INCR : Fld := ⟨TB_DOM_INCR, 39, 0⟩

/-- R581: register TB_DOM_ADJ. -/
def TB_DOM_ADJ : Reg :=
  ⟨0xA00110, 64, 1, 1, 2, 0x0, 0x0, 0x0, 0x0, fun _ => 0x0⟩
/-- RO field of TB_DOM_ADJ. -/
def TB_DOM_ADJ_REMAINING : Fld := ⟨TB_DOM_ADJ, 63, 32⟩
/-- WO field of TB_DOM_ADJ. -/
def TB_DOM_ADJ_ADJ_NS : Fld := ⟨TB_DOM_ADJ, 31, 0⟩

/-- R580: register TB_DOM_STEP_S. -/
def TB_DOM_STEP_S : Reg :=
  ⟨0xA00118, 64, 1, 1, 2, 0xFFFFFFFFFFFF, 0x0, 0x0, 0x0, fun _ => 0x0⟩
/-- RW field of TB_DOM_STEP_S. -/
def TB_DOM_STEP_S_SECONDS : Fld := ⟨TB_DOM_STEP_S, 47, 0⟩

/-- R580: register TB_DOM_STEP_NS. -/
def TB_DOM_STEP_NS : Reg :=
  ⟨0xA00120, 64, 1, 1, 2, 0xFFFFFFFF, 0x0, 0x0, 0x0, fun _ => 0x0⟩
/-- RW field of TB_DOM_STEP_NS. -/
def TB_DOM_STEP_NS_NS : Fld := ⟨TB_DOM_STEP_NS, 31, 0⟩

/-- R580: register TB_SNAP_S. -/
def TB_SNAP_S : Reg :=
  ⟨0xA00128, 64, 1, 1, 2, 0x0, 0x0, 0x0, 0x0, fun _ => 0x0⟩
/-- RO field of TB_SNAP_S. -/
def TB_SNAP_S_SEC : Fld := ⟨TB_SNAP_S, 47, 0⟩

/-- R580: register TB_SNAP_NSF. -/
def TB_SNAP_NSF : Reg :=
  ⟨0xA00130, 64, 1, 1, 2, 0x0, 0x0, 0x0, 0x0, fun _ => 0x0⟩
/-- RO field of TB_SNAP_NSF. -/
def TB_SNAP_NSF_NS : Fld := ⟨TB_SNAP_NSF, 47, 16⟩
/-- RO field of TB_SNAP_NSF. -/
def TB_SNAP_NSF_FRAC : Fld := ⟨TB_SNAP_NSF, 15, 0⟩

/-- R580: register TB_TC_CFG. -/
def TB_TC_CFG : Reg :=
  ⟨0xA00200, 8, 1, 1, 1, 0xC000000000000000, 0x0, 0x0, 0x0, fun _ => 0x0⟩
/-- RW field of TB_TC_CFG. -/
def TB_TC_CFG_ENABLE : Fld := ⟨TB_TC_CFG, 63, 63⟩
/-- RW field of TB_TC_CFG. -/
def TB_TC_CFG_DOMAIN : Fld := ⟨TB_TC_CFG, 62, 62⟩

/-- R580: register TB_TC_COUNT. -/
def TB_TC_COUNT : Reg :=
  ⟨0xA00208, 8, 1, 1, 1, 0x0, 0x0, 0x0, 0x0, fun _ => 0x0⟩
/-- RO field of TB_TC_COUNT. -/
def TB_TC_COUNT_CORRECTED : Fld := ⟨TB_TC_COUNT, 63, 32⟩
/-- RO field of TB_TC_COUNT. -/
def TB_TC_COUNT_BYPASSED : Fld := ⟨TB_TC_COUNT, 31, 0⟩

/-- R582: register TB_PPS_CFG. -/
def TB_PPS_CFG : Reg :=
  ⟨0xA00210, 8, 1, 1, 1, 0xFFFFFFFFFFFFFFFF, 0x0, 0x0, 0x0, fun _ => 0x5F5E100⟩
/-- RW field of TB_PPS_CFG. -/
def TB_PPS_CFG_ENABLE : Fld := ⟨TB_PPS_CFG, 63, 63⟩
/-- RW field of TB_PPS_CFG. -/
def TB_PPS_CFG_DOMAIN : Fld := ⟨TB_PPS_CFG, 62, 62⟩
/-- RW field of TB_PPS_CFG. -/
def TB_PPS_CFG_LEAD_NS : Fld := ⟨TB_PPS_CFG, 61, 32⟩
/-- RW field of TB_PPS_CFG. -/
def TB_PPS_CFG_WIDTH_NS : Fld := ⟨TB_PPS_CFG, 31, 0⟩

/-- R582: register TB_TRIG_CFG. -/
def TB_TRIG_CFG : Reg :=
  ⟨0xA00300, 32, 1, 1, 8, 0xFC00FF07FFFFFFFF, 0x0, 0x0, 0x0, fun _ => 0x64⟩
/-- RW field of TB_TRIG_CFG. -/
def TB_TRIG_CFG_MODE : Fld := ⟨TB_TRIG_CFG, 63, 61⟩
/-- RW field of TB_TRIG_CFG. -/
def TB_TRIG_CFG_DOMAIN : Fld := ⟨TB_TRIG_CFG, 60, 60⟩
/-- RW field of TB_TRIG_CFG. -/
def TB_TRIG_CFG_LEVEL : Fld := ⟨TB_TRIG_CFG, 59, 59⟩
/-- RW field of TB_TRIG_CFG. -/
def TB_TRIG_CFG_INVERT : Fld := ⟨TB_TRIG_CFG, 58, 58⟩
/-- RW field of TB_TRIG_CFG. -/
def TB_TRIG_CFG_SELECT : Fld := ⟨TB_TRIG_CFG, 47, 40⟩
/-- RW field of TB_TRIG_CFG. -/
def TB_TRIG_CFG_CLASS : Fld := ⟨TB_TRIG_CFG, 34, 32⟩
/-- RW field of TB_TRIG_CFG. -/
def TB_TRIG_CFG_WIDTH_NS : Fld := ⟨TB_TRIG_CFG, 31, 0⟩

/-- R580: register TB_TRIG_START_S. -/
def TB_TRIG_START_S : Reg :=
  ⟨0xA00308, 32, 1, 1, 8, 0xFFFFFFFFFFFF, 0x0, 0x0, 0x0, fun _ => 0x0⟩
/-- RW field of TB_TRIG_START_S. -/
def TB_TRIG_START_S_SECONDS : Fld := ⟨TB_TRIG_START_S, 47, 0⟩

/-- R580: register TB_TRIG_START_NS. -/
def TB_TRIG_START_NS : Reg :=
  ⟨0xA00310, 32, 1, 1, 8, 0xFFFFFFFF, 0x0, 0x0, 0x0, fun _ => 0x0⟩
/-- RW field of TB_TRIG_START_NS. -/
def TB_TRIG_START_NS_NS : Fld := ⟨TB_TRIG_START_NS, 31, 0⟩

/-- R580: register TB_TRIG_PERIOD. -/
def TB_TRIG_PERIOD : Reg :=
  ⟨0xA00318, 32, 1, 1, 8, 0xFFFFFFFFFFFFFFFF, 0x0, 0x0, 0x0, fun _ => 0x3B9ACA00⟩
/-- RW field of TB_TRIG_PERIOD. -/
def TB_TRIG_PERIOD_LEAD_NS : Fld := ⟨TB_TRIG_PERIOD, 63, 32⟩
/-- RW field of TB_TRIG_PERIOD. -/
def TB_TRIG_PERIOD_PERIOD_NS : Fld := ⟨TB_TRIG_PERIOD, 31, 0⟩

/-- R582: register TB_CAP_W0. -/
def TB_CAP_W0 : Reg :=
  ⟨0xA00400, 32, 1, 1, 5, 0x0, 0x0, 0x0, 0x0, fun _ => 0x0⟩
/-- RO field of TB_CAP_W0. -/
def TB_CAP_W0_VALID : Fld := ⟨TB_CAP_W0, 63, 63⟩
/-- RO field of TB_CAP_W0. -/
def TB_CAP_W0_RISING : Fld := ⟨TB_CAP_W0, 62, 62⟩
/-- RO field of TB_CAP_W0. -/
def TB_CAP_W0_OVERFLOW : Fld := ⟨TB_CAP_W0, 61, 61⟩
/-- RO field of TB_CAP_W0. -/
def TB_CAP_W0_D0_READY : Fld := ⟨TB_CAP_W0, 60, 60⟩
/-- RO field of TB_CAP_W0. -/
def TB_CAP_W0_D1_READY : Fld := ⟨TB_CAP_W0, 59, 59⟩
/-- RO field of TB_CAP_W0. -/
def TB_CAP_W0_SEC0 : Fld := ⟨TB_CAP_W0, 47, 0⟩

/-- R580: register TB_CAP_W1. -/
def TB_CAP_W1 : Reg :=
  ⟨0xA00408, 32, 1, 1, 5, 0x0, 0x0, 0x0, 0x0, fun _ => 0x0⟩
/-- RO field of TB_CAP_W1. -/
def TB_CAP_W1_NS1 : Fld := ⟨TB_CAP_W1, 63, 32⟩
/-- RO field of TB_CAP_W1. -/
def TB_CAP_W1_NS0 : Fld := ⟨TB_CAP_W1, 31, 0⟩

/-- R580: register TB_CAP_W2. -/
def TB_CAP_W2 : Reg :=
  ⟨0xA00410, 32, 1, 1, 5, 0x0, 0x0, 0x0, 0x0, fun _ => 0x0⟩
/-- RO field of TB_CAP_W2. -/
def TB_CAP_W2_SEC1 : Fld := ⟨TB_CAP_W2, 47, 0⟩

/-- R582: register TB_CAP_CTL. -/
def TB_CAP_CTL : Reg :=
  ⟨0xA00418, 32, 1, 1, 5, 0xE000000000000000, 0x0, 0x0, 0x0, fun _ => 0x2000000000000000⟩
/-- RW field of TB_CAP_CTL. -/
def TB_CAP_CTL_ENABLE : Fld := ⟨TB_CAP_CTL, 63, 63⟩
/-- RW field of TB_CAP_CTL. -/
def TB_CAP_CTL_EDGE : Fld := ⟨TB_CAP_CTL, 62, 61⟩
/-- WO field of TB_CAP_CTL. -/
def TB_CAP_CTL_POP : Fld := ⟨TB_CAP_CTL, 0, 0⟩

/-- R582: register TB_REPLICA. -/
def TB_REPLICA : Reg :=
  ⟨0xA00600, 8, 1, 1, 9, 0x0, 0x0, 0x0, 0x0, fun _ => 0x0⟩
/-- RO field of TB_REPLICA. -/
def TB_REPLICA_ALIGNED : Fld := ⟨TB_REPLICA, 63, 63⟩
/-- RO field of TB_REPLICA. -/
def TB_REPLICA_REALIGNS : Fld := ⟨TB_REPLICA, 15, 0⟩

/-- R602: register PM_PKG_CFG. -/
def PM_PKG_CFG : Reg :=
  ⟨0xB00000, 8, 1, 1, 1, 0xFFFFFFF0FFFFFFFF, 0x0, 0x0, 0x0, fun _ => 0xA285F50001F403E8⟩
/-- RW field of PM_PKG_CFG. -/
def PM_PKG_CFG_PKG_CAP_W : Fld := ⟨PM_PKG_CFG, 63, 52⟩
/-- RW field of PM_PKG_CFG. -/
def PM_PKG_CFG_TJ_TARGET : Fld := ⟨PM_PKG_CFG, 51, 44⟩
/-- RW field of PM_PKG_CFG. -/
def PM_PKG_CFG_HYST : Fld := ⟨PM_PKG_CFG, 43, 40⟩
/-- RW field of PM_PKG_CFG. -/
def PM_PKG_CFG_STRETCH_ENV : Fld := ⟨PM_PKG_CFG, 39, 36⟩
/-- RW field of PM_PKG_CFG. -/
def PM_PKG_CFG_HORIZON_US : Fld := ⟨PM_PKG_CFG, 31, 16⟩
/-- RW field of PM_PKG_CFG. -/
def PM_PKG_CFG_UP_DWELL_US : Fld := ⟨PM_PKG_CFG, 15, 0⟩

/-- R604: register PM_ERR. -/
def PM_ERR : Reg :=
  ⟨0xB00008, 8, 1, 1, 1, 0x0, 0xF, 0x0, 0x0, fun _ => 0x0⟩
/-- W1C field of PM_ERR. -/
def PM_ERR_POLICY_OVERRIDDEN : Fld := ⟨PM_ERR, 3, 3⟩
/-- W1C field of PM_ERR. -/
def PM_ERR_ENVELOPE_UNMET : Fld := ⟨PM_ERR, 2, 2⟩
/-- W1C field of PM_ERR. -/
def PM_ERR_TEMP_EMERGENCY : Fld := ⟨PM_ERR, 1, 1⟩
/-- W1C field of PM_ERR. -/
def PM_ERR_CFG_REFUSED : Fld := ⟨PM_ERR, 0, 0⟩

/-- R604: register PM_OVERRIDE. -/
def PM_OVERRIDE : Reg :=
  ⟨0xB00010, 8, 1, 1, 1, 0x0, 0x0, 0x0, 0x0, fun _ => 0x0⟩
/-- RO field of PM_OVERRIDE. -/
def PM_OVERRIDE_LIMIT : Fld := ⟨PM_OVERRIDE, 63, 56⟩
/-- RO field of PM_OVERRIDE. -/
def PM_OVERRIDE_DIE : Fld := ⟨PM_OVERRIDE, 55, 52⟩
/-- RO field of PM_OVERRIDE. -/
def PM_OVERRIDE_TIME_MS : Fld := ⟨PM_OVERRIDE, 51, 0⟩

/-- R601: register PM_PKG_ENERGY. -/
def PM_PKG_ENERGY : Reg :=
  ⟨0xB00018, 8, 1, 1, 1, 0x0, 0x0, 0x0, 0x0, fun _ => 0x0⟩
/-- RO field of PM_PKG_ENERGY. -/
def PM_PKG_ENERGY_MJ : Fld := ⟨PM_PKG_ENERGY, 63, 0⟩

/-- R602: register PM_RED_ENV. -/
def PM_RED_ENV : Reg :=
  ⟨0xB00100, 32, 1, 1, 2, 0xF0000000000003FF, 0x0, 0x0, 0x0, fun _ => 0xF0000000000001C2⟩
/-- RW field of PM_RED_ENV. -/
def PM_RED_ENV_ALLOWED : Fld := ⟨PM_RED_ENV, 63, 60⟩
/-- RW field of PM_RED_ENV. -/
def PM_RED_ENV_DIE_CAP_W : Fld := ⟨PM_RED_ENV, 9, 0⟩

/-- R603: register PM_RED_STATUS. -/
def PM_RED_STATUS : Reg :=
  ⟨0xB00108, 32, 1, 1, 2, 0x0, 0x0, 0x0, 0x0, fun _ => 0xC000000000000000⟩
/-- RO field of PM_RED_STATUS. -/
def PM_RED_STATUS_TARGET : Fld := ⟨PM_RED_STATUS, 63, 62⟩
/-- RO field of PM_RED_STATUS. -/
def PM_RED_STATUS_THROTTLED : Fld := ⟨PM_RED_STATUS, 61, 61⟩
/-- RO field of PM_RED_STATUS. -/
def PM_RED_STATUS_OVERRIDE : Fld := ⟨PM_RED_STATUS, 60, 60⟩
/-- RO field of PM_RED_STATUS. -/
def PM_RED_STATUS_UNMET : Fld := ⟨PM_RED_STATUS, 59, 59⟩
/-- RO field of PM_RED_STATUS. -/
def PM_RED_STATUS_CHANGES : Fld := ⟨PM_RED_STATUS, 31, 0⟩

/-- R603: register PM_DIE_STATUS. -/
def PM_DIE_STATUS : Reg :=
  ⟨0xB00200, 8, 1, 1, 9, 0x0, 0x0, 0x0, 0x0, fun _ => 0x0⟩
/-- RO field of PM_DIE_STATUS. -/
def PM_DIE_STATUS_POWER_W : Fld := ⟨PM_DIE_STATUS, 63, 52⟩
/-- RO field of PM_DIE_STATUS. -/
def PM_DIE_STATUS_STRETCH : Fld := ⟨PM_DIE_STATUS, 35, 32⟩
/-- RO field of PM_DIE_STATUS. -/
def PM_DIE_STATUS_TJ : Fld := ⟨PM_DIE_STATUS, 11, 0⟩

/-- R628: register FH_CFG. -/
def FH_CFG : Reg :=
  ⟨0xC00000, 8, 1, 1, 1, 0xFFFFFFFFF, 0x0, 0x0, 0x0, fun _ => 0x4000003E8⟩
/-- RW field of FH_CFG. -/
def FH_CFG_LANE_SER_EXP : Fld := ⟨FH_CFG, 35, 32⟩
/-- RW field of FH_CFG. -/
def FH_CFG_MERGE_US : Fld := ⟨FH_CFG, 31, 0⟩

/-- R627: register FH_LOG_STATUS. -/
def FH_LOG_STATUS : Reg :=
  ⟨0xC00008, 8, 1, 1, 1, 0x0, 0x0, 0x0, 0x0, fun _ => 0x0⟩
/-- RO field of FH_LOG_STATUS. -/
def FH_LOG_STATUS_NEXT_SEQ : Fld := ⟨FH_LOG_STATUS, 63, 32⟩
/-- RO field of FH_LOG_STATUS. -/
def FH_LOG_STATUS_OLDEST_SEQ : Fld := ⟨FH_LOG_STATUS, 31, 0⟩

/-- R628: register FH_ERR. -/
def FH_ERR : Reg :=
  ⟨0xC00010, 8, 1, 1, 1, 0x0, 0xF, 0x0, 0x0, fun _ => 0x0⟩
/-- W1C field of FH_ERR. -/
def FH_ERR_FATAL : Fld := ⟨FH_ERR, 3, 3⟩
/-- W1C field of FH_ERR. -/
def FH_ERR_BUDGET_SPENT : Fld := ⟨FH_ERR, 2, 2⟩
/-- W1C field of FH_ERR. -/
def FH_ERR_BUDGET_LOW : Fld := ⟨FH_ERR, 1, 1⟩
/-- W1C field of FH_ERR. -/
def FH_ERR_RECOVERY_RESTARTED : Fld := ⟨FH_ERR, 0, 0⟩

/-- R627: register FH_LOG_ACK. -/
def FH_LOG_ACK : Reg :=
  ⟨0xC00018, 8, 1, 1, 1, 0xFFFFFFFF, 0x0, 0x0, 0x0, fun _ => 0x0⟩
/-- RW field of FH_LOG_ACK. -/
def FH_LOG_ACK_ACK_SEQ : Fld := ⟨FH_LOG_ACK, 31, 0⟩

/-- R628: register FH_RETIRE_REQ. -/
def FH_RETIRE_REQ : Reg :=
  ⟨0xC00020, 8, 1, 1, 1, 0x0, 0x0, 0x0, 0x0, fun _ => 0x0⟩
/-- WO field of FH_RETIRE_REQ. -/
def FH_RETIRE_REQ_GO : Fld := ⟨FH_RETIRE_REQ, 63, 63⟩
/-- WO field of FH_RETIRE_REQ. -/
def FH_RETIRE_REQ_KIND : Fld := ⟨FH_RETIRE_REQ, 55, 48⟩
/-- WO field of FH_RETIRE_REQ. -/
def FH_RETIRE_REQ_PHYSICAL : Fld := ⟨FH_RETIRE_REQ, 11, 0⟩

/-- R627: register FH_PROGRESS. -/
def FH_PROGRESS : Reg :=
  ⟨0xC00028, 8, 1, 1, 1, 0x0, 0x0, 0x0, 0x0, fun _ => 0x0⟩
/-- RO field of FH_PROGRESS. -/
def FH_PROGRESS_SHORT_MS : Fld := ⟨FH_PROGRESS, 63, 32⟩
/-- RO field of FH_PROGRESS. -/
def FH_PROGRESS_FULL_MS : Fld := ⟨FH_PROGRESS, 31, 0⟩

/-- R629: register FH_SPARE_STATUS. -/
def FH_SPARE_STATUS : Reg :=
  ⟨0xC00100, 8, 1, 1, 9, 0x0, 0x0, 0x0, 0x0, fun _ => 0x0⟩
/-- RO field of FH_SPARE_STATUS. -/
def FH_SPARE_STATUS_USED : Fld := ⟨FH_SPARE_STATUS, 63, 56⟩
/-- RO field of FH_SPARE_STATUS. -/
def FH_SPARE_STATUS_WITHDRAWN : Fld := ⟨FH_SPARE_STATUS, 55, 48⟩
/-- RO field of FH_SPARE_STATUS. -/
def FH_SPARE_STATUS_RETIRED : Fld := ⟨FH_SPARE_STATUS, 47, 40⟩
/-- RO field of FH_SPARE_STATUS. -/
def FH_SPARE_STATUS_BAD_STRIPES : Fld := ⟨FH_SPARE_STATUS, 10, 0⟩

/-- R629: register FH_REC_STATUS. -/
def FH_REC_STATUS : Reg :=
  ⟨0xC00200, 8, 1, 1, 16, 0x0, 0x0, 0x0, 0x0, fun _ => 0x0⟩
/-- RO field of FH_REC_STATUS. -/
def FH_REC_STATUS_STATE : Fld := ⟨FH_REC_STATUS, 63, 61⟩
/-- RO field of FH_REC_STATUS. -/
def FH_REC_STATUS_KIND : Fld := ⟨FH_REC_STATUS, 55, 48⟩
/-- RO field of FH_REC_STATUS. -/
def FH_REC_STATUS_RESTARTS : Fld := ⟨FH_REC_STATUS, 47, 40⟩
/-- RO field of FH_REC_STATUS. -/
def FH_REC_STATUS_LOGICAL : Fld := ⟨FH_REC_STATUS, 31, 0⟩

/-- R627: register FH_CLASS_COUNT. -/
def FH_CLASS_COUNT : Reg :=
  ⟨0xC00300, 8, 1, 1, 14, 0x0, 0x0, 0x0, 0x0, fun _ => 0x0⟩
/-- RO field of FH_CLASS_COUNT. -/
def FH_CLASS_COUNT_COUNT : Fld := ⟨FH_CLASS_COUNT, 31, 0⟩

/-- R627: register FH_FAULT_COUNT. -/
def FH_FAULT_COUNT : Reg :=
  ⟨0xC00380, 8, 1, 1, 6, 0x0, 0x0, 0x0, 0x0, fun _ => 0x0⟩
/-- RO field of FH_FAULT_COUNT. -/
def FH_FAULT_COUNT_COUNT : Fld := ⟨FH_FAULT_COUNT, 31, 0⟩

/-- R132: register EV_IDENTITY_DIGEST. -/
def EV_IDENTITY_DIGEST : Reg :=
  ⟨0xD00000, 8, 1, 1, 4, 0x0, 0x0, 0x0, 0x0, fun i => BitVec.ofNat 64 (le identityDigest (8 * i) 8)⟩
/-- RO field of EV_IDENTITY_DIGEST. -/
def EV_IDENTITY_DIGEST_WORD : Fld := ⟨EV_IDENTITY_DIGEST, 63, 0⟩

/-- R132: register EV_BOOT_ID. -/
def EV_BOOT_ID : Reg :=
  ⟨0xD00020, 8, 1, 1, 2, 0x0, 0x0, 0x0, 0x0, fun _ => 0x0⟩
/-- RO field of EV_BOOT_ID. -/
def EV_BOOT_ID_WORD : Fld := ⟨EV_BOOT_ID, 63, 0⟩

/-- R132: register EV_LOG_COUNT. -/
def EV_LOG_COUNT : Reg :=
  ⟨0xD00040, 8, 1, 1, 1, 0x0, 0x0, 0x0, 0x0, fun _ => 0x0⟩
/-- RO field of EV_LOG_COUNT. -/
def EV_LOG_COUNT_COUNT : Fld := ⟨EV_LOG_COUNT, 63, 0⟩

/-- R132: register EV_LOG_ACC. -/
def EV_LOG_ACC : Reg :=
  ⟨0xD00048, 8, 1, 1, 4, 0x0, 0x0, 0x0, 0x0, fun _ => 0x0⟩
/-- RO field of EV_LOG_ACC. -/
def EV_LOG_ACC_WORD : Fld := ⟨EV_LOG_ACC, 63, 0⟩

/-- R132: register EV_QUOTE_NONCE. -/
def EV_QUOTE_NONCE : Reg :=
  ⟨0xD00100, 8, 1, 1, 4, 0xFFFFFFFFFFFFFFFF, 0x0, 0x0, 0x0, fun _ => 0x0⟩
/-- RW field of EV_QUOTE_NONCE. -/
def EV_QUOTE_NONCE_WORD : Fld := ⟨EV_QUOTE_NONCE, 63, 0⟩

/-- R132: register EV_QUOTE_CTL. -/
def EV_QUOTE_CTL : Reg :=
  ⟨0xD00120, 8, 1, 1, 1, 0x0, 0x0, 0x0, 0x0, fun _ => 0x0⟩
/-- WO field of EV_QUOTE_CTL. -/
def EV_QUOTE_CTL_START : Fld := ⟨EV_QUOTE_CTL, 0, 0⟩

/-- R132: register EV_QUOTE_STATUS. -/
def EV_QUOTE_STATUS : Reg :=
  ⟨0xD00128, 8, 1, 1, 1, 0x0, 0x0, 0x0, 0x0, fun _ => 0x0⟩
/-- RO field of EV_QUOTE_STATUS. -/
def EV_QUOTE_STATUS_STATE : Fld := ⟨EV_QUOTE_STATUS, 1, 0⟩

/-- R132: register EV_QUOTE_OUT. -/
def EV_QUOTE_OUT : Reg :=
  ⟨0xD01000, 8, 1, 1, 24, 0x0, 0x0, 0x0, 0x0, fun _ => 0x0⟩
/-- RO field of EV_QUOTE_OUT. -/
def EV_QUOTE_OUT_WORD : Fld := ⟨EV_QUOTE_OUT, 63, 0⟩

/-- R132: register EV_CERT_LEN. -/
def EV_CERT_LEN : Reg :=
  ⟨0xD10000, 8, 1, 1, 1, 0x0, 0x0, 0x0, 0x0, fun _ => BitVec.ofNat 64 Config.certLength⟩
/-- RO field of EV_CERT_LEN. -/
def EV_CERT_LEN_LENGTH : Fld := ⟨EV_CERT_LEN, 63, 0⟩

/-- R132: register EV_CERT. -/
def EV_CERT : Reg :=
  ⟨0xD10008, 8, 1, 1, 511, 0x0, 0x0, 0x0, 0x0, fun i => BitVec.ofNat 64 (le Config.certificate (8 * i) 8)⟩
/-- RO field of EV_CERT. -/
def EV_CERT_WORD : Fld := ⟨EV_CERT, 63, 0⟩

/-- R132: register EV_LOG. -/
def EV_LOG : Reg :=
  ⟨0xD20000, 8, 1, 1, 32768, 0x0, 0x0, 0x0, 0x0, fun _ => 0x0⟩
/-- RO field of EV_LOG. -/
def EV_LOG_WORD : Fld := ⟨EV_LOG, 63, 0⟩

/-- R141: register EV_PORT_STATUS. -/
def EV_PORT_STATUS : Reg :=
  ⟨0xD60000, 128, 1, 1, 1024, 0x0, 0x0, 0x0, 0x0, fun _ => 0x0⟩
/-- RO field of EV_PORT_STATUS. -/
def EV_PORT_STATUS_EXCHANGES : Fld := ⟨EV_PORT_STATUS, 47, 32⟩
/-- RO field of EV_PORT_STATUS. -/
def EV_PORT_STATUS_RESULT : Fld := ⟨EV_PORT_STATUS, 2, 0⟩

/-- R132: register EV_PORT_PEER_SERIAL. -/
def EV_PORT_PEER_SERIAL : Reg :=
  ⟨0xD60008, 128, 1, 1, 1024, 0x0, 0x0, 0x0, 0x0, fun _ => 0x0⟩
/-- RO field of EV_PORT_PEER_SERIAL. -/
def EV_PORT_PEER_SERIAL_SERIAL : Fld := ⟨EV_PORT_PEER_SERIAL, 63, 0⟩

/-- R142: register EV_PORT_POLICY. -/
def EV_PORT_POLICY : Reg :=
  ⟨0xD60010, 128, 1, 1, 1024, 0x103, 0x0, 0x0, 0x0, fun _ => 0x1⟩
/-- RW field of EV_PORT_POLICY. -/
def EV_PORT_POLICY_EXPECT_VALID : Fld := ⟨EV_PORT_POLICY, 8, 8⟩
/-- RW field of EV_PORT_POLICY. -/
def EV_PORT_POLICY_MODE : Fld := ⟨EV_PORT_POLICY, 1, 0⟩

/-- R132: register EV_PORT_PEER_DIGEST. -/
def EV_PORT_PEER_DIGEST : Reg :=
  ⟨0xD60020, 8, 16, 4, 16384, 0x0, 0x0, 0x0, 0x0, fun _ => 0x0⟩
/-- RO field of EV_PORT_PEER_DIGEST. -/
def EV_PORT_PEER_DIGEST_WORD : Fld := ⟨EV_PORT_PEER_DIGEST, 63, 0⟩

/-- R132: register EV_PORT_EXPECT. -/
def EV_PORT_EXPECT : Reg :=
  ⟨0xD60040, 8, 16, 4, 16384, 0xFFFFFFFFFFFFFFFF, 0x0, 0x0, 0x0, fun _ => 0x0⟩
/-- RW field of EV_PORT_EXPECT. -/
def EV_PORT_EXPECT_WORD : Fld := ⟨EV_PORT_EXPECT, 63, 0⟩

/-- The registers of block 0, HI_. -/
def hiRegisters : List Reg :=
  [HI_PROT_GEN, HI_GW_TARGET, HI_GW_BASE, HI_GW_LIMIT,
   HI_GW_STATUS, HI_RING_SQ_BASE, HI_RING_CQ_BASE, HI_RING_CFG,
   HI_RING_STATUS, HI_MSIX_ADDR, HI_MSIX_CTL, HI_MSIX_PBA]

/-- The registers of block 1, BT_. -/
def btRegisters : List Reg :=
  [BT_DEVICE_ID, BT_DEVICE_SERIAL, BT_RESET, BT_LOCK,
   BT_FW_CTL, BT_FW_STATUS, BT_READY_MAP, BT_READY_CHANGE]

/-- The registers of block 2, PC_. -/
def pcRegisters : List Reg :=
  [PC_SCECA_CFG, PC_SCECA_ADDR, PC_DSCP_CLASS, PC_BUF_CFG,
   PC_BUF_STATUS, PC_BUF_RES, PC_BUF_ERR, PC_SLIP_CFG,
   PC_SLIP_BASE, PC_SLIP_SIZE, PC_SLIP_STATUS, PC_EGR_PROFILE,
   PC_LANE_GROUP, PC_PORT_CFG, PC_PORT_STATUS, PC_CLASS_MODE,
   PC_CREDIT_CFG, PC_LINK_ERR, PC_ING_ACCT]

/-- The registers of block 3, FT_. -/
def ftRegisters : List Reg :=
  [FT_ROUTER_MAC, FT_AGE_CFG, FT_SPRAY_SEED, FT_SPRAY_ENV,
   FT_LPM_CFG, FT_LPM_STATUS, FT_PIPE_CTL, FT_PIPE_STATUS,
   FT_PIPE_COUNT, FT_PIPE_DROP, FT_HASH_SEED_LO, FT_HASH_SEED_HI,
   FT_LEARN_PORTS, FT_LEARN_BASE, FT_LEARN_CFG, FT_LEARN_PROD,
   FT_LEARN_CONS, FT_LEARN_STATUS, FT_VLAN_MAP, FT_FLOOD_SET,
   FT_GROUP_CFG, FT_GROUP_MEMBER]

/-- The registers of block 4, TQ_. -/
def tqRegisters : List Reg :=
  [TQ_RESULT_CFG, TQ_ECN_PROFILE, TQ_ERR, TQ_QLAYOUT,
   TQ_PORT_SCHED, TQ_METER_PROFILE, TQ_METER_MAP, TQ_CLASS_SCHED,
   TQ_GATE_BASE_S, TQ_GATE_BASE_NS, TQ_GATE_CYCLE, TQ_GATE_CTL,
   TQ_GATE_STATUS, TQ_GATE_CHANGE_S, TQ_GATE_ADMIN, TQ_GATE_OPER,
   TQ_METER_CFG]

/-- The registers of block 5, RE_. -/
def reRegisters : List Reg :=
  [RE_TILE_MAP, RE_TILE_MAP_GEN, RE_TILE_STATUS, RE_ERR,
   RE_CHECK_COUNT]

/-- The registers of block 6, MF_. -/
def mfRegisters : List Reg :=
  [MF_DIE_STATUS, MF_ERR, MF_SENTINEL_CFG, MF_SENTINEL_STATUS,
   MF_SENTINEL_AGE, MF_LS_CFG, MF_LS_STATUS, MF_LS_EPOCH,
   MF_LS_SLOTS, MF_LS_TILE, MF_SLOT_STATUS, MF_SLOT_EPOCHS,
   MF_SLOT_LATE, MF_SLOT_LATE_SUM, MF_SLOT_DIGEST]

/-- The registers of block 7, CL_. -/
def clRegisters : List Reg :=
  [CL_CFG, CL_ERR, CL_DROP, CL_PART_GEN,
   CL_GROUP_STATUS, CL_CONTEXT_STATUS]

/-- The registers of block 8, MS_. -/
def msRegisters : List Reg :=
  [MS_CACHE_CFG, MS_CACHE_STATUS, MS_BW_GRANT, MS_ERR,
   MS_ECC_COUNT, MS_HINT_RANGE, MS_HBM_CTL, MS_HBM_STATUS,
   MS_HBM_TEST_CMD, MS_HBM_TEST_DATA, MS_FLOW_CFG, MS_FLOW_BASE,
   MS_FLOW_LOST, MS_BAD_STRIPE]

/-- The registers of block 9, OC_. -/
def ocRegisters : List Reg :=
  [OC_ERR, OC_CAL_CFG, OC_FORD_CFG, OC_FORD_CMD,
   OC_FORD_ELIGIBLE, OC_ENGINE_STATUS, OC_ENGINE_ENV, OC_FF_CFG,
   OC_FORD_CIRCUIT, OC_LASER_CFG, OC_LASER_MODULE_STATUS, OC_LASER_STATUS,
   OC_FIBRE_MAP, OC_FIBRE_RX_MAP]

/-- The registers of block 10, TB_. -/
def tbRegisters : List Reg :=
  [TB_STATUS, TB_ERR, TB_CFG, TB_SNAP_CTL,
   TB_DOM_CTL, TB_DOM_INCR, TB_DOM_ADJ, TB_DOM_STEP_S,
   TB_DOM_STEP_NS, TB_SNAP_S, TB_SNAP_NSF, TB_TC_CFG,
   TB_TC_COUNT, TB_PPS_CFG, TB_TRIG_CFG, TB_TRIG_START_S,
   TB_TRIG_START_NS, TB_TRIG_PERIOD, TB_CAP_W0, TB_CAP_W1,
   TB_CAP_W2, TB_CAP_CTL, TB_REPLICA]

/-- The registers of block 11, PM_. -/
def pmRegisters : List Reg :=
  [PM_PKG_CFG, PM_ERR, PM_OVERRIDE, PM_PKG_ENERGY,
   PM_RED_ENV, PM_RED_STATUS, PM_DIE_STATUS]

/-- The registers of block 12, FH_. -/
def fhRegisters : List Reg :=
  [FH_CFG, FH_LOG_STATUS, FH_ERR, FH_LOG_ACK,
   FH_RETIRE_REQ, FH_PROGRESS, FH_SPARE_STATUS, FH_REC_STATUS,
   FH_CLASS_COUNT, FH_FAULT_COUNT]

/-- The registers of block 13, EV_. -/
def evRegisters : List Reg :=
  [EV_IDENTITY_DIGEST, EV_BOOT_ID, EV_LOG_COUNT, EV_LOG_ACC,
   EV_QUOTE_NONCE, EV_QUOTE_CTL, EV_QUOTE_STATUS, EV_QUOTE_OUT,
   EV_CERT_LEN, EV_CERT, EV_LOG, EV_PORT_STATUS,
   EV_PORT_PEER_SERIAL, EV_PORT_POLICY, EV_PORT_PEER_DIGEST, EV_PORT_EXPECT]

/-- The registers of a BAR0 block by its number (R41, R94); none beyond EV_ (R17). -/
def blockRegisters : Nat → List Reg
  | 0 => hiRegisters
  | 1 => btRegisters
  | 2 => pcRegisters
  | 3 => ftRegisters
  | 4 => tqRegisters
  | 5 => reRegisters
  | 6 => mfRegisters
  | 7 => clRegisters
  | 8 => msRegisters
  | 9 => ocRegisters
  | 10 => tbRegisters
  | 11 => pmRegisters
  | 12 => fhRegisters
  | 13 => evRegisters
  | _ => []

/-- The index of the register element that stands at offset `off`, if `r` has one there. -/
def Reg.indexAt (r : Reg) (off : Nat) : Option Nat :=
  if off < r.base then none
  else if (off - r.base) % r.stride = 0 ∧ (off - r.base) / r.stride < r.count ∧ (off - r.base) / r.stride % r.block < r.used then
    some ((off - r.base) / r.stride)
  else none

/-- The place of element `i` within a register array: `i` itself for every element the array has. -/
def Reg.slot (r : Reg) (i : Nat) : Nat := i % r.count / r.block * r.block + i % r.count % r.block % r.used

/-- The offset of element `i` of a register. -/
def Reg.offset (r : Reg) (i : Nat) : Nat := r.base + r.stride * r.slot i

/-- The register and element index at a BAR0 offset; none where the offset is unassigned (R17). -/
def registerAt (off : Nat) : Option (Reg × Nat) :=
  (blockRegisters (off / 0x100000)).findSome? (fun r => (r.indexAt off).map (fun i => (r, i)))

/-- The base of the register array that an offset belongs to: as one of its words, or as the companion count of one
(R104). -/
def ownerOf (off : Nat) : Option Nat :=
  match registerAt off with
  | some (r, _) => some r.base
  | none =>
    if 0x80000 ≤ off % 0x100000 then (registerAt (off - 0x80000)).map (fun x => x.1.base) else none

/-- The word an offset holds after reset: the register's own, zero where nothing is assigned. -/
def resetWord (off : Nat) : Word :=
  match registerAt off with
  | some (r, i) => r.reset i
  | none => 0

end Sys2Proof.Machine
end

