-- ==== Sys2Proof/Machine/Sparse.lean ====
section
/-! DEFINITION. Sparse tables: a list of (key, value) pairs with keys strictly rising and no pair equal to
what an unlisted key reads as. Registers, HBM bytes, queues and every other large table of the block are
kept this way, so that equal contents are equal data. -/

namespace Sys2Proof.Machine

/-- What key `k` holds; `d` where nothing is listed. -/
def sget {α : Type} (d : α) (m : List (Nat × α)) (k : Nat) : α :=
  match m with
  | [] => d
  | (j, v) :: r => if j = k then v else sget d r k

/-- Remove key `k`. -/
def sdel {α : Type} (k : Nat) (m : List (Nat × α)) : List (Nat × α) := m.filter (fun kv => !decide (kv.1 = k))

/-- List key `k` with value `v`. -/
def sput {α : Type} (k : Nat) (v : α) (m : List (Nat × α)) : List (Nat × α) :=
  match m with
  | [] => [(k, v)]
  | (j, w) :: r => if j = k then (k, v) :: r else if k < j then (k, v) :: (j, w) :: r else (j, w) :: sput k v r

/-- Write `v` at key `k` of a table whose unlisted keys read `d` there: writing that very value unlists it. -/
def sset {α : Type} [DecidableEq α] (d : α) (k : Nat) (v : α) (m : List (Nat × α)) : List (Nat × α) :=
  if v = d then sdel k m else sput k v m

/-- Drop every key that a predicate names (a region of the table goes back to its reset contents). -/
def sclear {α : Type} (p : Nat → Bool) (m : List (Nat × α)) : List (Nat × α) := m.filter (fun kv => !p kv.1)

/-- Every listed key is above `lo` and the keys rise strictly. -/
def srising {α : Type} (lo : Nat) (m : List (Nat × α)) : Bool :=
  match m with
  | [] => true
  | (k, _) :: r => decide (lo ≤ k) && srising (k + 1) r

/-- The canonical form: keys strictly rising, no listed value equal to the unlisted one. -/
def swf {α : Type} [DecidableEq α] (d : Nat → α) (m : List (Nat × α)) : Bool :=
  srising 0 m && m.all (fun kv => !decide (kv.2 = d kv.1))

/-- Change the value at key `k` by a function. -/
def smod {α : Type} [DecidableEq α] (d : α) (k : Nat) (f : α → α) (m : List (Nat × α)) : List (Nat × α) :=
  sset d k (f (sget d m k)) m

/-- The `n` bytes of a byte table from key `a` on. -/
def sbytes (m : List (Nat × Byte)) (a : Nat) : Nat → List Byte
  | 0 => []
  | n + 1 => sget 0 m a :: sbytes m (a + 1) n

/-- Write a byte string into a byte table from key `a` on. -/
def sstore (m : List (Nat × Byte)) (a : Nat) : List Byte → List (Nat × Byte)
  | [] => m
  | b :: bs => sstore (sset 0 a b m) (a + 1) bs

end Sys2Proof.Machine
end

