-- ==== Sys2Proof/Machine/State.lean ====
section
/-! DEFINITION. The state of the block as plain data: everything the spec gives the device, the reasons a
step can stop, and the state after reset. Words that BAR0 shows live in `regs` alone, at their BAR0 offset;
tables are sparse lists in canonical form; the last fields are the model's own (the draw counter, the
outputs, the queue of waiting commands). -/

namespace Sys2Proof.Machine

/-- Reasons a step stops with a fault. -/
inductive Fault where
  /-- Raised by REGISTER_WRITE, COMPANION_COUNT_READ, GANGWAY_WRITE and GANGWAY_READ for an address outside
  the BAR they act in (R53: BAR0 is 64 MiB, a window 16 MiB): no such address exists. Safe: the machine
  stops where the hardware is never reached. -/
  | outsideBar (address : Nat)
  deriving DecidableEq, Repr

/-- Reasons a step is refused. -/
inductive Refusal where
  /-- Answered by Dispatch alone, for a command that has no meaning yet. Safe: nothing is claimed of it. -/
  | notModelled (mnemonic : String)
  deriving DecidableEq, Repr

/-- A completion entry (R81), its PHASE bit as a truth value. -/
structure Completion where
  tag : Nat
  status : Nat
  phase : Bool
  sqHead : Nat
  index : Nat
  result : Nat
  generation : Nat
  detail : Nat
  deriving DecidableEq, Repr

/-- A pin of the package that the device drives. -/
inductive Pin where
  | faultL
  | thermtripL
  | trigOut (k : Nat)
  | ppsOut
  deriving DecidableEq, Repr

/-- What leaves the device. -/
inductive Out where
  /-- A DMA write to host memory, and whether it carries the Relaxed Ordering attribute (R51). -/
  | hostWrite (address : Nat) (data : List Byte) (relaxed : Bool)
  /-- The write of a completion entry: the slot of the ring's CQ, its host address and the 32 bytes written there, in one
  write without Relaxed Ordering (R51, R70, R81). -/
  | completion (ring slot address : Nat) (data : List Byte)
  /-- An MSI-X message. -/
  | msix (vector address data : Nat)
  /-- The answer to a host read of a BAR. -/
  | readAnswer (data : List Byte)
  /-- A host read of a Gangway window ends with Completer Abort (R506). -/
  | readAbort
  /-- An access to a BAR in D3hot ends with Unsupported Request (R52). -/
  | unsupportedRequest
  /-- A frame on a port: its link tag where the link has one, its bytes, and the FCS that ends it (R176). -/
  | frame (port : Nat) (tag : Option Nat) (data : List Byte) (fcs : Nat)
  /-- A frame cut off in transmission with no stomp (R213). -/
  | frameCut (port : Nat)
  /-- A down frame on an optical engine's link (R521). -/
  | engineDown (engine : Nat) (data : List Byte)
  /-- A down frame on a laser module's link (R523). -/
  | laserDown (laserModule : Nat) (data : List Byte)
  /-- A pin the device drives changes level. -/
  | pin (p : Pin) (level : Bool)
  /-- A transfer unit resent over a bridge (R23). -/
  | bridgeResend (bridge : Nat)
  /-- A shift through a stack's test wrapper begins (R504). -/
  | testShift (stack instruction channel length : Nat) (data : List Byte)
  deriving DecidableEq, Repr

/-! ### Host interface (R57 to R102) -/

/-- A descriptor the device has fetched and not yet completed. -/
structure Desc where
  /-- The model's own name for it: how many descriptors were fetched before it. -/
  id : Nat
  /-- Its ring. -/
  ring : Nat
  /-- Its free-running index (DESC_INDEX of R81). -/
  index : Nat
  /-- Its 64 bytes (R75). -/
  raw : List Byte
  /-- It has passed check 1 and started (R98). -/
  started : Bool
  /-- A host port reset came after it started: its outcome is discarded (R107). -/
  silent : Bool
  /-- The protection generation it runs under (R98). -/
  gen : Nat
  /-- It has passed the checks of R79 and waits at its read of host memory (R52). -/
  atRead : Bool
  /-- What a waiting descriptor holds on to (a handle and a sequence, a stage), per opcode. -/
  note : List Nat
  deriving DecidableEq, Repr

/-- A ring pair (R57 to R74). SQ_HEAD and the error bits stand in HI_RING_STATUS. -/
structure Ring where
  /-- T: the last accepted SQ_TAIL. -/
  tail : Nat
  /-- C: completions written since enable. -/
  written : Nat
  /-- K: the last accepted CQ_HEAD. -/
  consumed : Nat
  /-- The CQ may send its vector once (R73). -/
  armed : Bool
  /-- Fetching stopped by DOORBELL_ERR or FETCH_ERR until the ring is disabled and enabled (R65). -/
  stopped : Bool
  deriving DecidableEq, Repr

/-- A protection table entry as stored (R94, R96). -/
structure ProtEntry where
  level : Nat
  partition : Nat
  base : Nat
  limit : Nat
  deriving DecidableEq, Repr

/-- The three states of a partition (R100). -/
inductive PartState where
  | free
  | active
  | draining
  deriving DecidableEq, Repr

/-- A partition with its quotas (R100, R101). -/
structure Part where
  state : PartState
  landingKiB : Nat
  accumulators : Nat
  moorings : Nat
  contexts : Nat
  deriving DecidableEq, Repr

/-- What the host and the link training have set in the function's configuration space (R48 to R53). -/
structure ConfigSt where
  /-- Memory Space Enable: the BARs answer. -/
  memory : Bool
  /-- Base addresses of BAR0, BAR2 and BAR4. -/
  bar0 : Nat
  bar2 : Nat
  bar4 : Nat
  /-- Max_Payload_Size and Max_Read_Request_Size in bytes. -/
  payload : Nat
  readRequest : Nat
  /-- The generation the link trained at, 7 for 128.0 GT/s. -/
  generation : Nat
  deriving DecidableEq, Repr

/-- The host interface's state beyond its registers. -/
structure HostSt where
  rings : List (Nat × Ring)
  /-- Fetched descriptors that have not completed, in order of fetching. -/
  descs : List Desc
  /-- The model's own: descriptors fetched so far. -/
  nextId : Nat
  /-- Bytes of partly written granules by window (R89): window number, then target address, the byte, and the numbers of the
  writes that brought a byte there and are not yet counted as discarded. -/
  granules : List (Nat × List (Nat × Byte × List Nat))
  /-- The model's own: Gangway writes so far, the name of a write among the held bytes. -/
  gangwayWrites : Nat
  /-- The protection table in force (key 2^20 * kind + index). -/
  prot : List (Nat × ProtEntry)
  /-- The staging copy of the protection table (R96). -/
  staging : List (Nat × ProtEntry)
  parts : List (Nat × Part)
  /-- The function is in D3hot (R52). -/
  d3hot : Bool
  /-- Host writes and messages held in D3hot, in order (R52). -/
  held : List Out
  /-- Configuration space answers; until it does a configuration request is retried (R655). -/
  answering : Bool
  /-- Configuration space beyond what never changes (R48 to R53). -/
  config : ConfigSt
  deriving DecidableEq, Repr

/-! ### Start-up, firmware and identity (R106 to R145) -/

/-- How far a port's identity exchange has come (R140). -/
structure Exchange where
  /-- An exchange runs. -/
  running : Bool
  /-- The port's own ID message, once sent. -/
  ownId : List Byte
  /-- The peer's ID message, once received. -/
  peerId : List Byte
  /-- The policy in force since the exchange began (R142, R143): MODE, EXPECT_VALID and the expected digest. -/
  mode : Nat
  expectValid : Bool
  expect : List Byte
  deriving DecidableEq, Repr

/-- Start-up and identity beyond the registers. -/
structure BootSt where
  /-- POR_L is high. -/
  por : Bool
  /-- PCIE_X4 as sampled at power-on (R49): false for lanes 0 to 7. -/
  x4 : Bool
  /-- The last start was warm (OBJECT of the START entry, R133). -/
  warm : Bool
  /-- Every die is held in reset and every link silent (R636). -/
  held : Bool
  /-- All clock domains but TIME are stopped until a cold reset (R595). -/
  stopped : Bool
  /-- The trip record of R596: die, sensor, sensed value and domain-0 time. -/
  trip : Option (Nat × Nat × Nat × Nat)
  /-- The Pilot firmware image store, sparse, unwritten bytes zero (R117). -/
  image : List (Nat × Byte)
  /-- W of R117: one past the highest byte written. -/
  imageTop : Nat
  /-- ENTRY of the image that runs: where the Pilot cores started (R114, R117). -/
  entry : Option Nat
  /-- The nonce held since a quote's START (R137). -/
  quoteNonce : List Byte
  exchanges : List (Nat × Exchange)
  /-- CORE_REFCLK is absent since before start-up (R639). -/
  coreRefLost : Bool
  /-- Port dies whose SERDES_REFCLK is absent (R639). -/
  serdesLost : List Nat
  /-- FAULT_L is asserted. -/
  faultL : Bool
  /-- THERMTRIP_L is asserted. -/
  thermtripL : Bool
  deriving DecidableEq, Repr

/-! ### Faults (R605 to R629) -/

/-- What an occurrence of an event says of itself; the rest of its record is taken from the state. -/
structure Event where
  code : Nat
  logical : Nat := 0
  kind : Nat := 0
  die : Nat := 8
  fault : Option Nat := none
  state : Nat := 0
  pattern : Nat := 0
  physical : Nat := 0
  detail0 : Nat := 0
  detail1 : Nat := 0
  group : Nat := 0
  sequence : Nat := 0
  deriving DecidableEq, Repr

/-- An error record (R619). -/
structure Record where
  seq : Nat
  event : Nat
  faultClass : Nat
  state : Nat
  time : Nat
  die : Nat
  temp : Nat
  variant : Nat
  kind : Nat
  logical : Nat
  pattern : Nat
  physical : Nat
  generation : Nat
  count : Nat
  detail0 : Nat
  detail1 : Nat
  group : Nat
  sequence : Nat
  deriving DecidableEq, Repr

/-- What a spare must have passed to stand in for a tile (R609). -/
inductive SpareTest where
  /-- The tile failed a sentinel: this pattern, afresh. -/
  | pattern (p : Nat)
  /-- The tile failed a live check, which names no pattern: every pattern, afresh. -/
  | every
  /-- Nothing afresh. -/
  | none
  deriving DecidableEq, Repr

/-- A recovery under way or queued (R611, R618). -/
structure Recovery where
  /-- Resource kind of R619: 1 lane, 4 tile, 9 laser position, 10 bridge, 11 die, 5 stack, 8 fibre direction. -/
  kind : Nat
  logical : Nat
  /-- 0 queued; 1 QUIESCE; 2 REPAIR; 3 RESTORE; 4 REBUILD; 5 RESUME. -/
  state : Nat
  restarts : Nat
  /-- The physical unit retired. -/
  old : Nat
  /-- What a spare tile must have passed since `begun` (R609). -/
  test : SpareTest
  /-- The FH_REC_STATUS place it shows in. -/
  place : Option Nat
  /-- Domain-0 ns of the fault that it answers. -/
  begun : Nat
  deriving DecidableEq, Repr

/-- The virtual networks of a fabric link and of a bridge (R12, R22). -/
inductive Net where
  | mgmt | req | coll | fwd | rsp
  deriving DecidableEq, Repr

/-- What waits to cross a bridge that retrains (R24, R36), in the order in which it came: accesses of the host. -/
inductive Crossing where
  /-- A write of a BAR0 register. -/
  | write (offset : Nat) (value : Word)
  /-- A read of a companion count. -/
  | count (offset : Nat)
  | windowWrite (window offset : Nat) (data : List (Option Byte))
  | windowRead (window offset length : Nat)
  | windowStatus (window : Nat)
  deriving DecidableEq, Repr

/-- A bridge between two dies (R21 to R24, R616). -/
structure Bridge where
  /-- The transfer unit last replayed, and how often in a row. -/
  unit_ : Nat
  replays : Nat
  /-- Attempts to retrain that failed. -/
  failures : Nat
  retraining : Bool
  /-- It failed, its die was reset, and it is retrained once more. -/
  failed : Bool
  /-- What its FIFOs and the sources behind them hold while it retrains, by network, oldest first. -/
  held : List (Net × Crossing)
  deriving DecidableEq, Repr

/-- Fault handling beyond the registers. -/
structure FaultSt where
  /-- The last 16,384 records, oldest first (R621). -/
  log : List Record
  /-- Open merge windows (R620): key 2^32 * code + LOGICAL, merged count and the last merged occurrence. -/
  windows : List (Nat × (Nat × Option Event))
  /-- Vector 0 was sent since the last write of FH_LOG_ACK (R622). -/
  vectorSent : Bool
  /-- Physical tiles retired, as 128 * die + tile (R608). -/
  tilesRetired : List Nat
  /-- Physical lanes retired (R608). -/
  lanesRetired : List Nat
  /-- Laser positions whose spare is used or that have none left, as 16 * module + position (R608). -/
  lasersRetired : List Nat
  /-- Permanently erased pseudo-channels, as 64 * stack + channel (R502, R607). -/
  channelsErased : List Nat
  /-- Logical units withdrawn, as 2^16 * kind + logical number. -/
  withdrawn : List Nat
  recoveries : List Recovery
  /-- Domain-0 ns of each port's retry escalations within the last 60 s, oldest first (R624). -/
  escalations : List (Nat × List Nat)
  /-- Ports held in LINK DOWN until ENABLE is cleared and set again (R624). -/
  portsHeld : List Nat
  /-- The nine main bridges, numbered as `bridgeEnds` gives them. -/
  bridges : List (Nat × Bridge)
  /-- Dies under reset (R617). -/
  diesReset : List Nat
  /-- Lock losses of a lane within its last 10 s (R606). -/
  laneLocks : List (Nat × List Nat)
  /-- FEC symbol errors of a lane in its latest check (R606, R624). -/
  laneErrors : List (Nat × Nat)
  /-- FULL has stood since the last cold or warm start (R625). -/
  fullSeen : Bool
  deriving DecidableEq, Repr

/-! ### Packet core, tables and queues (R146 to R313) -/

/-- What a part of a frame's cells is charged to (R166, R173, R295). -/
inductive Charge where
  | min
  | shared
  | headroom
  /-- The credit pool of a fabric port. -/
  | pool
  /-- The result charge of a die. -/
  | result
  deriving DecidableEq, Repr

/-- One egress copy of a frame. -/
structure Copy where
  port : Nat
  /-- Global queue 1,024 n + i (R266). -/
  queue : Nat
  /-- It has begun egress. -/
  started : Bool
  /-- CE is set on it (R303). -/
  mark : Bool
  /-- It has left its queue for good, was dropped or was discarded. -/
  done : Bool
  /-- It is complete in the sense of R299. -/
  complete : Bool
  /-- R571: its residence in units of 2^-16 ns, once it starts egress under the transparent clock. -/
  residence : Option Nat
  /-- The bytes that the shaper and the rounds were charged for it when it started (R275, R277). -/
  charged : Nat
  deriving DecidableEq, Repr

/-- A sent frame in a replay store (R199). -/
structure Held where
  /-- Its link sequence number. -/
  seq : Nat
  /-- The cells it was charged (R194). -/
  cells : Nat
  /-- Its virtual network. -/
  net : Nat
  bytes : List Byte
  /-- The frame of the buffer that it is a copy of; none for a control message of the port itself. -/
  owner : Option Nat
  /-- The reason it was stomped with, if any. -/
  stomp : Option Nat
  deriving DecidableEq, Repr

/-- A frame inside the device. -/
structure FrameSt where
  /-- Ingress port; none for a frame the device originates. -/
  ingress : Option Nat
  /-- Its bytes so far, without FCS, as they will leave (edits of R218 made). -/
  bytes : List Byte
  /-- Ingress class (R157). -/
  cls : Nat
  /-- Virtual network (R158). -/
  net : Nat
  /-- The network under whose credit it came, that of its link tag (R186, R195). -/
  credit : Nat
  /-- Its tag named another network than its header: it is dropped once it is accepted (R187). -/
  misnet : Bool
  /-- The tail has arrived and passed its checks. -/
  checked : Bool
  /-- It may begin egress before its tail where the rates allow it (R175). -/
  early : Bool
  /-- The stomp reason once it was found bad after egress began (R176). -/
  stomp : Option Nat
  /-- Cells charged: die, charge, cells. -/
  charges : List (Nat × Charge × Nat)
  copies : List Copy
  /-- L of R173 as taken from the headers at admission; L itself once the tail has arrived. -/
  len : Nat
  /-- The bytes received before the tail, as they came. -/
  raw : List Byte
  /-- Its cells have been let go; its tail or an acknowledgement is still awaited. -/
  freed : Bool
  /-- Link sequence number it was received under, where the link has one. -/
  linkSeq : Option Nat
  /-- Fence slot, phase and whether it is a fence packet still held (R300). -/
  fence : Option (Nat × Nat × Bool)
  /-- Arrival times in the domain of TB_TC_CFG, as 2^16 * ns + fraction; none where R573 bypasses it. -/
  arrival : Option Nat
  /-- The flow entry it is counted in: pipeline and index (R493). -/
  flow : Option (Nat × Nat)
  /-- The learnable source of R234: VID and MAC, once the tail passes. -/
  learn : Option (Nat × Nat)
  /-- The bridges on its way to its buffer that were retraining when it was admitted: it waits in their FIFOs until they are
  trained (R24). -/
  via : List Nat
  deriving DecidableEq, Repr

/-- Cells an ingress account holds on one die (R166). -/
structure Acct where
  min : Nat
  shared : Nat
  headroom : Nat
  deriving DecidableEq, Repr

/-- Deficit round robin over members (R277): the active list in order, deficits, and whether the member in
front has its quantum of this visit. -/
structure Drr where
  active : List Nat
  deficit : List (Nat × Nat)
  granted : Bool
  deriving DecidableEq, Repr

/-- One port's packet and link state beyond its registers. -/
structure PortSt where
  /-- The frame arriving, by frame number. -/
  arriving : Option Nat
  /-- The frame in transmission, by frame number. -/
  sending : Option Nat
  /-- Classes this port has sent XOFF for, as a mask (R181). -/
  xoffSent : Nat
  /-- Classes a received PFC frame pauses, as a mask (R183). -/
  paused : Nat
  /-- The strict classes are served as non-strict (R276). -/
  demoted : Bool
  /-- Link initialisation: peer's INIT received, INIT_ACK sent, INIT_ACK received, complete (R190). -/
  initSeen : Bool
  ackSent : Bool
  ackSeen : Bool
  complete : Bool
  /-- Next sequence number to send and next expected (R196, R199). -/
  nextSeq : Nat
  expected : Nat
  /-- NAK state (R197). -/
  nak : Bool
  /-- Frames accepted, modulo 32 (R198). -/
  accepted : Nat
  /-- The replay store, oldest first (R199). -/
  store : List Held
  /-- Sequenced frames of the port itself (MARKER, Evbauth and optical coordination) that wait for the wire, for credit or for
  the store (R194, R200). -/
  own : List (List Byte)
  /-- The link sequence number of the frame in transmission, where initialisation started again under it (R191). -/
  stale : Option Nat
  /-- CREDIT_RET counts, MGMT first (R188, R195). -/
  creditRet : List Nat
  /-- Cells sent since initialisation and CREDIT_RET last received, MGMT first: o_v of R194 is their difference. -/
  sent : List Nat
  returned : List Nat
  /-- The peer's VN_MIN counts and SHARED from its INIT. -/
  peerMin : List Nat
  peerShared : Nat
  /-- The pool this end advertises (R193). -/
  pool : Nat
  /-- The last STAMP received and the domain-0 ns at which it came (R188). -/
  stamp : Nat
  stampAt : Nat
  /-- A round trip has been measured (R199). -/
  rttKnown : Bool
  /-- Sequence number the last retransmission began from, when it began, and how many began from it (R199, R201). -/
  rtxFrom : Option (Nat × Nat × Nat)
  /-- A retransmission that waits for the frame in transmission to end (R199). -/
  rtxDue : Option Nat
  clsDrr : Drr
  queueDrr : List (Nat × Drr)
  /-- Class shapers: bytes below full, in units of 1/80 byte (R275). -/
  shaper : List (Nat × Nat)
  /-- The lane that a marker under way moves, with its marker kind (R203). -/
  lanesMoved : List (Nat × Nat)
  deriving DecidableEq, Repr

/-- Packet core state. -/
structure PacketSt where
  ports : List (Nat × PortSt)
  frames : List (Nat × FrameSt)
  /-- The next frame number (the model's own name for a frame). -/
  nextFrame : Nat
  /-- Queues by global number: the frames they hold, in order of admission. -/
  queues : List (Nat × List Nat)
  /-- Slipway by global queue: cells in SRAM at the head, pages in HBM, pages in flight (R204 to R209). -/
  slip : List (Nat × (Nat × Nat × Nat))
  /-- The pages of its die's region that a queue's cells lie in, oldest first (R32, R204). -/
  slipPages : List (Nat × List Nat)
  /-- Switch dies whose long queues are being spilled (R208). -/
  spilling : List Nat
  /-- Port counters, index 64 n + k (R310), modulo 2^64. -/
  portCount : List (Nat × Nat)
  /-- Queue counters, index 4 i + k (R309). -/
  queueCount : List (Nat × Nat)
  /-- Meter counters, index 4 m + k (R309). -/
  meterCount : List (Nat × Nat)
  deriving DecidableEq, Repr

/-- A flowlet slot: the member port it keeps and the domain-0 ns of its last frame (R257). -/
structure Flowlet where
  port : Nat
  last : Nat
  deriving DecidableEq, Repr

/-- Forwarding table state. -/
structure TableSt where
  /-- Endpoint slots, key 2^22 * pipeline + 2^20 * way + slot: the 64-byte image; unlisted is empty. -/
  endpoints : List (Nat × List Byte)
  /-- LPM units by number: the 64-byte image; unlisted is free. The four copies are always equal (R247). -/
  lpm : List (Nat × List Byte)
  /-- Learns queued in each pipeline: VID, MAC, ingress port (R234, R236). -/
  learns : List (Nat × List (Nat × Nat × Nat))
  /-- CONFLICT records written by each pipeline in a second: the second and the count (R235). -/
  conflicts : List (Nat × (Nat × Nat))
  /-- Spray groups in force: the members, when VALID (R254). -/
  groups : List (Nat × List Nat)
  /-- Flowlet slots of a group, key 2^16 * (9 * group + pipeline) + slot (pipeline 8 for packets the device originates). -/
  flowlets : List (Nat × Flowlet)
  /-- STATIC insertions, deletions and replacements that changed a table so far: pipelines 0 to 7, then the LPM (R253). -/
  changes : List (Nat × Nat)
  deriving DecidableEq, Repr

/-- A gate schedule's copies beyond the BAR0 words (R286 to R291). -/
structure GateSt where
  /-- The pending list with its cycle and extension, while PENDING. -/
  pending : List (Nat × Nat)
  pendingCycle : Nat
  pendingExt : Nat
  pendingDomain : Nat
  /-- The operational list: states and intervals. -/
  oper : List (Nat × Nat)
  operCycle : Nat
  operExt : Nat
  domain : Nat
  /-- Start of the operational cycle in progress, in domain ns, and the entry in force. -/
  cycleStart : Nat
  entry : Nat
  /-- The domain left service: gates are open until it is ready again (R292). -/
  lost : Bool
  deriving DecidableEq, Repr

/-- A meter's buckets, in units of 1/8000 byte below full (R281, R284). -/
structure Meter where
  c : Nat
  e : Nat
  deriving DecidableEq, Repr

/-- A fence slot (R300). -/
structure Fence where
  n0 : Nat
  n1 : Nat
  phase : Nat
  /-- F: the held fence packets, by frame number. -/
  held : List Nat
  deriving DecidableEq, Repr

/-- Queue, meter and ordering state. -/
structure QueueSt where
  gates : List (Nat × GateSt)
  meters : List (Nat × Meter)
  /-- Meter profiles in force: words 0, 1 and 2 (R283). -/
  profiles : List (Nat × (Nat × Nat × Nat))
  fences : List (Nat × Fence)
  deriving DecidableEq, Repr

/-! ### Reduction tiles (R314 to R359, R372) -/

/-- A contribution that a landing frame or an early slot holds (R433). -/
structure Landed where
  seq : Nat
  block : Nat
  source : Nat
  /-- It is counted; otherwise it is still filling. -/
  counted : Bool
  /-- Its CHECK word. -/
  check : Nat
  /-- The elements it carries. -/
  elems : Nat
  deriving DecidableEq, Repr

/-- A staging buffer as the last ROUND into it left it (R372, R373). -/
structure Staging where
  opslot : Nat
  block : Nat
  /-- Rounded from the output accumulators. -/
  fromY : Bool
  /-- The format rounded to. -/
  format : Nat
  first : Nat
  bytes : List Byte
  /-- Its elements. -/
  count : Nat
  /-- Output elements of a whole block in this rounding (E, or E / D × c). -/
  whole : Nat
  overflow : Bool
  special : Bool
  /-- An operand of the block's projection was flushed to zero (R349). -/
  flushed : Bool
  /-- The check register of the block at the time (R402). -/
  exact : Nat
  /-- Payload bytes that the ROUND's COUNT makes, whatever is present (R374). -/
  full : Nat
  deriving DecidableEq, Repr

/-- The output accumulators of a projection (R372). -/
structure Product where
  opslot : Nat
  block : Nat
  y : List Accum
  /-- The operands it was made from: D, c, G and M. -/
  d : Nat
  c : Nat
  g : List Num
  m : List Num
  flushed : Bool
  /-- The row and column checks have passed (R351). -/
  checked : Bool
  /-- The draw that names what stands for outputs beyond the 4,096 output accumulators. -/
  beyond : Nat
  deriving DecidableEq, Repr

/-- A logical tile's storage (R314, R372). -/
structure TileSt where
  /-- Landing SRAM by byte. -/
  landing : List (Nat × Byte)
  /-- What each landing frame holds, by frame number; unlisted is free. -/
  frames : List (Nat × Landed)
  /-- Accumulator slots, as images of 42 bytes (R316). -/
  acc : List (Nat × List Byte)
  /-- Block check registers (R343). -/
  chk : List (Nat × Nat)
  /-- Staging buffers by BUF. -/
  staging : List (Nat × Staging)
  /-- The weight store: key 65,536 × matrix + row, and the row's bytes. -/
  weights : List (Nat × List Byte)
  product : Option Product
  /-- A sentinel or GEN ran since: slots and registers not written since then hold what it left there, named by this
  draw. -/
  leftover : Option Nat
  /-- The instruction memory (R360): the tile's streams of every carried variant, lowest first. -/
  program : List Byte
  deriving DecidableEq, Repr

/-! ### Manifests and epochs (R360 to R404) -/

/-- How far a tile is in its stream of the running epoch. -/
structure TileRun where
  /-- Instructions of the stream passed, as they stand in the image. -/
  pos : Nat
  /-- A REPEAT under way: first instruction of its span, SPAN, COUNT, run, STRIDE, BLOCK_INC. -/
  loop : Option (Nat × Nat × Nat × Nat × Nat × Nat)
  /-- TD of R402 so far, SPECIAL in bit 63. -/
  td : Nat
  sends : Nat
  /-- The largest ready cycle of an unsuppressed instruction. -/
  last : Nat
  deriving DecidableEq, Repr

/-- An operation slot that is not suppressed in an epoch (R385), with what the epoch gathers for its operation. -/
structure LiveSlot where
  opslot : Nat
  /-- INDEX of the group's handle. -/
  group : Nat
  leg : Nat
  seq : Nat
  /-- j: the operation's epoch. -/
  j : Nat
  /-- The operation's element count. -/
  count : Nat
  /-- Check words gathered (R344). -/
  exact : Nat
  output : Nat
  overflow : Bool
  special : Bool
  projected : Bool
  flushed : Bool
  /-- The largest ready cycle of its unsuppressed instructions. -/
  last : Nat
  deriving DecidableEq, Repr

/-- An epoch that has started and not completed. -/
structure EpochRun where
  number : Nat
  /-- The protection generation under which it started (R98). -/
  gen : Nat
  /-- Domain-0 ns of its first edge. -/
  start : Nat
  variant : Nat
  reruns : Nat
  /-- Domain-0 ns at which its first run began, once it was void. -/
  firstVoid : Option Nat
  void : Bool
  /-- A void epoch's L cycles are over; it waits for its rerun. -/
  ended : Bool
  live : List LiveSlot
  /-- Progress by manifest tile; unlisted has not begun. -/
  tiles : List (Nat × TileRun)
  /-- The part of its result charge that no result cell has taken, by die (R295). -/
  charge : List Nat
  deriving DecidableEq, Repr

/-- A manifest slot beyond its registers (R360 to R382). -/
structure SlotSt where
  image : List Byte
  /-- The copy of the accepted image in the device area of HBM (R366). -/
  copy : List Byte
  /-- The next trigger instant awaited, in domain ns. -/
  next : Nat
  /-- The nominal start in force, in domain ns. -/
  nominal : Option Nat
  /-- End of the last epoch, in domain-0 ns; activation before the first. -/
  ended : Nat
  run : Option EpochRun
  /-- Operation slots bound: INDEX of the group and the leg. -/
  bound : List (Nat × (Nat × Nat))
  /-- Total lateness in ns. -/
  late : Nat
  /-- Domain-0 ns at which an epoch last started, for the triggers of R574. -/
  startedAt : Option Nat
  deriving DecidableEq, Repr

/-- A lock-step digest (R400 to R402): own ones keep the tile entries. -/
structure Digest where
  slot : Nat
  epoch : Nat
  variant : Nat
  manifest : List Byte
  last : Nat
  sends : Nat
  result : List Byte
  entries : List (List Byte)
  deriving DecidableEq, Repr

/-- Reduction dies, tiles, manifests and lock-step. -/
structure ReduceSt where
  /-- Logical tiles. -/
  tiles : List (Nat × TileSt)
  /-- Manifest slots 0 to 127. -/
  slots : List (Nat × SlotSt)
  /-- Staging areas: key 2^24 × die + byte (R361). -/
  areas : List (Nat × Byte)
  /-- The last pass of a pattern on a physical tile at a variant: key 256 × (128 die + tile) + 4 pattern + variant, and
  the domain-0 ns. -/
  passes : List (Nat × Nat)
  /-- Own and peer digests awaiting their partners, oldest first (R401). -/
  own : List Digest
  peer : List Digest
  /-- Domain-0 ns at which start-up last ran every pattern on a die's tiles at every variant (step 8 of R121), by die. -/
  swept : List (Nat × Nat)
  deriving DecidableEq, Repr

/-! ### Collectives (R410 to R463) -/

/-- An operation of an armed group. -/
structure OpSt where
  seq : Nat
  /-- Element count; zero until known. -/
  count : Nat
  launched : Bool
  recordAddr : Nat
  delta : Nat
  /-- FIRST_BLOCK, BLOCKS, OFFSET. -/
  segments : List (Nat × Nat × Nat)
  /-- Legs that have taken it to its end since its last start. -/
  legsDone : List Nat
  /-- Its record has been produced. -/
  produced : Bool
  acked : Bool
  /-- Members whose HOP_ACK SUCCESS has come. -/
  acks : List Nat
  /-- BARRIER: members that have arrived. -/
  arrived : List Nat
  /-- Addresses of endpoints of which a packet arrived with CE (R305). -/
  ce : List (List Byte)
  /-- A rerun of R449 is queued or under way. -/
  rerun : Bool
  /-- A contribution of it has been counted. -/
  begun : Bool
  replayed : Bool
  special : Bool
  overflow : Bool
  projected : Bool
  flushed : Bool
  variant : Option Nat
  mixed : Bool
  reruns : Nat
  cycles : Nat
  exact : Nat
  output : Nat
  time : Nat
  epochs : Nat
  mapGen : Nat
  /-- What holds it up now: 2 × leg + half where a replay is awaited, 1,000 + slot where a void epoch is to run again, 2,000 while
  it reruns (R352). -/
  holds : List Nat
  /-- Since when it has been held up, and how long it was before. -/
  heldSince : Nat
  delay : Nat
  deriving DecidableEq, Repr

/-- A half of a leg's frames: when its mooring reached its target, and the rounds of REPLAY_REQUESTs made. -/
structure HalfSt where
  ready : Option Nat
  rounds : Nat
  deriving DecidableEq, Repr

/-- A leg of an armed group (R419 to R434). -/
structure LegSt where
  /-- Its context number. -/
  context : Nat
  /-- The operation being served: sequence, whether it is a rerun, and its next or running epoch j. -/
  cur : Option (Nat × Bool × Nat)
  /-- The sequence served next. -/
  next : Nat
  /-- Reruns queued (R449). -/
  reruns : List Nat
  half0 : HalfSt
  half1 : HalfSt
  /-- Early slots in use: key 256 × tile of the manifest + early slot, the half and the contribution (R434). -/
  early : List (Nat × (Nat × Landed))
  /-- Contributions discarded for a rerun, to be requested again: sequence, block, source. -/
  owed : List (Nat × Nat × Nat)
  deriving DecidableEq, Repr

/-- A context set-up in force (R421 to R426). -/
structure Armed where
  /-- The first sequence and element count of CONTEXT_ARM. -/
  first : Nat
  count : Nat
  /-- The oldest unacknowledged sequence. -/
  oldest : Nat
  /-- The next sequence to be launched. -/
  nextLaunch : Nat
  legs : List LegSt
  ops : List OpSt
  /-- Legs whose context is LOST (R426). -/
  lost : List Nat
  /-- CONTEXT_DISARM under way: S, or none for a drain. -/
  disarm : Option (Option Nat)
  deriving DecidableEq, Repr

/-- The job-start broadcast of a group (R452). -/
structure Bcast where
  /-- The version held and its length, once one is. -/
  held : Option (Nat × Nat)
  /-- Members that have acknowledged it. -/
  acks : List Nat
  /-- Resends to a member. -/
  resends : List (Nat × Nat)
  /-- A newer version coming in: its number, the blocks received, and the number of its last block once known. -/
  coming : Option (Nat × List (Nat × List Byte) × Option Nat)
  /-- Senders of which a block of the version coming in came with CE, with its sequence (R305). -/
  ce : List (Nat × List Byte)
  deriving DecidableEq, Repr

/-- A registered or retained group (R410 to R418, R457). -/
structure GroupSt where
  tag : Nat
  /-- The record that registered it. -/
  record : List Byte
  partition : Nat
  armed : Option Armed
  bcast : Bcast
  /-- RETAINED: CL_PART_GEN when the drain began, and the order of retention. -/
  retained : Option (Nat × Nat)
  deriving DecidableEq, Repr

/-- Where an arriving contribution goes (R431 to R435). -/
inductive Place where
  /-- A landing frame: group INDEX, leg, logical tile, frame. -/
  | frame (group leg tile frame : Nat)
  /-- An early slot: group INDEX, leg, key and half. -/
  | early (group leg key half : Nat)
  /-- A barrier's arrival or a zero-length operation's. -/
  | arrival (group : Nat)
  /-- Held in the switch die's buffer: for arming, or behind a copy that is filling. -/
  | waits
  /-- Dropped. -/
  | dropped
  deriving DecidableEq, Repr

/-- A contribution arriving on a port, between its head and its tail. -/
structure Inflight where
  packet : List Byte
  place : Place
  /-- The frame of the buffer that stands for it. -/
  frame : Nat
  deriving DecidableEq, Repr

/-- Why a contribution waits in the buffer. -/
inductive WaitCause where
  /-- For its group to be armed (R435). -/
  | arming
  /-- Behind a copy of it that is filling (R433). -/
  | copy
  /-- For a bridge on its way to its tile (R24, R29). -/
  | bridge
  deriving DecidableEq, Repr

/-- A contribution that waits in the buffer (R433, R435). -/
structure Waiting where
  packet : List Byte
  /-- Ingress port. -/
  port : Nat
  /-- The frame of the buffer that holds its cells. -/
  frame : Nat
  cause : WaitCause
  /-- Its tail has passed. -/
  counted : Bool
  deriving DecidableEq, Repr

/-- A partition drain under way (R454). -/
structure Drain where
  partition : Nat
  /-- G: the generation at step 1. -/
  gen : Nat
  /-- CL_PART_GEN when it began. -/
  partGen : Nat
  /-- The millisecond that runs: the domain-0 ns at which it began, and the contexts released in it. -/
  since : Nat
  released : Nat
  deriving DecidableEq, Repr

/-- Collective state. -/
structure CollectiveSt where
  /-- Groups by INDEX. -/
  groups : List (Nat × GroupSt)
  /-- The last TAG given at an index. -/
  tags : List (Nat × Nat)
  /-- Contributions arriving, by port. -/
  inflight : List (Nat × Inflight)
  waits : List Waiting
  drains : List Drain
  /-- Groups retained so far, the order of retention. -/
  retentions : Nat
  /-- HOP_ACKs of R435 sent: group, sequence, source and the domain-0 ns. -/
  notices : List (Nat × Nat × Nat × Nat)
  deriving DecidableEq, Repr
/-! ### Memory system (R464 to R513) -/

/-- A line of a data cache, the atomic store or the write-combining buffer: one 1 KiB stripe by sectors of 32 bytes
(R478, R481). -/
structure Line where
  /-- Usable address / 1,024. -/
  stripe : Nat
  /-- A KEEP line (R480). -/
  keep : Bool
  /-- The sectors that differ from HBM, as a mask. -/
  dirty : Nat
  /-- The valid sectors by number, with their 32 bytes. -/
  sectors : List (Nat × List Byte)
  deriving DecidableEq, Repr

/-- A mooring (R427): ACTION 0 NONE, 1 WRAP, 2 STOP. -/
structure Mooring where
  count : Nat
  target : Nat
  action : Nat
  deriving DecidableEq, Repr

/-- A pseudo-channel retrain under way (R499). -/
structure Retrain where
  channel : Nat
  /-- The rebuild sweep of step 4 has begun. -/
  sweeping : Bool
  deriving DecidableEq, Repr

/-- A stack beyond its registers (R497 to R505). -/
structure Stack where
  /-- Pseudo-channels queued for a retrain, in order of arrival. -/
  queue : List Nat
  retrain : Option Retrain
  /-- Failed training attempts of the pseudo-channel in step 3, in a row (R502). -/
  fails : Nat
  /-- The next stripe within the stack that the patrol scrubber reads. -/
  scrub : Nat
  /-- A TEST that waits for the retrain to end, with the word written (R500). -/
  heldTest : Option Word
  /-- The pseudo-channel whose turn comes next (R497). -/
  turn : Nat
  /-- TEMP when the whole stack was last trained, and when pseudo-channels have been trained since (R497). -/
  temp : Nat
  temps : List (Nat × Nat)
  /-- Rows that await repair, and those that no spare row was left for: pseudo-channel and row (R501, R614). -/
  rows : List (Nat × Nat)
  stuck : List (Nat × Nat)
  deriving DecidableEq, Repr

/-- Counts gathered for one flow entry (R493, R494). -/
structure Flow where
  frames : Nat
  bytes : Nat
  ce : Nat
  dropped : Nat
  deriving DecidableEq, Repr

/-- Memory state. -/
structure MemSt where
  /-- What the stacks hold, by usable byte address; unlisted bytes are zero. -/
  hbm : List (Nat × Byte)
  /-- Lines of the cache share, least recently used first (R478). -/
  lines : List Line
  /-- Lines of the atomic store, least recently used first (R464). -/
  atomic : List Line
  /-- Write-combining entries, oldest first (R481). -/
  combining : List Line
  /-- Stripes whose last read was uncorrectable and that no full write has restored since. -/
  unreadable : List Nat
  /-- Stripes read inconsistently once and about to be read again (R475). -/
  reread : List Nat
  /-- Moorings by number (R26, R427). -/
  moorings : List (Nat × Mooring)
  /-- Checkpoints of each die's mooring store, newest first, at most two (R491). -/
  checkpoints : List (Nat × List (List (Nat × Mooring)))
  hbmStacks : List (Nat × Stack)
  /-- Flow counts gathered by each pipeline, oldest first (R493). -/
  flows : List (Nat × List (Nat × Flow))
  deriving DecidableEq, Repr


/-! ### Optical control (R514 to R555) -/

/-- A ring in use (R524, R525). -/
structure RingSt where
  /-- Calibration values: target, ki and lock window; none before the first calibration, where they are free values. -/
  cal : Option (Nat × Nat × Nat)
  /-- acc[r]. -/
  acc : Int
  /-- The last monitor reading and the last heater code. -/
  monitor : Nat
  heater : Nat
  /-- Consecutive updates within the window, outside it, and with the heater at its limit. -/
  inside : Nat
  outside : Nat
  limit : Nat
  locked : Bool
  /-- Power samples as they stood at the last lock. -/
  p0 : Nat
  p1 : Nat
  /-- Recalibrations since it last locked (R606). -/
  retries : Nat
  /-- It became unlocked (R525) and has not locked since. -/
  lost : Bool
  deriving DecidableEq, Repr

/-- An engine beyond its registers (R520 to R527). -/
structure EngineSt where
  /-- SEQ of the next down frame. -/
  seq : Nat
  /-- CMD_SEQ of the command in the frames, and the fibre pair (within the engine) it sets. -/
  cmdSeq : Nat
  cmdFibre : Nat
  /-- The command has been applied. -/
  applied : Bool
  /-- Fibre pairs whose setting is still to be sent, oldest first. -/
  queue : List Nat
  /-- The lag has had an input other than zero since start-up. -/
  lagging : Bool
  /-- The draw of this start-up: the free values of its rings (log 62). -/
  plan : Nat
  deriving DecidableEq, Repr

/-- Why a lane is moved between wavelengths. -/
inductive MoveCause where
  | calibration
  | laser
  | unlocked
  | failed
  deriving DecidableEq, Repr

/-- A move of a lane on an outgoing fibre (R530, R532). -/
structure Move where
  id : Nat
  lane : Nat
  from_ : Nat
  to_ : Nat
  cause : MoveCause
  /-- The port whose link carries its messages and its marker. -/
  port : Nat
  /-- The marker has been sent, under this link sequence number. -/
  marker : Option (List Byte)
  deriving DecidableEq, Repr

/-- A laser position beyond its register (R536 to R541). -/
structure LaserPos where
  /-- Drive currents of laser 0 and laser 1, in 0.1 mA. -/
  drive0 : Nat
  drive1 : Nat
  /-- Sum and count of the active laser's readings in this second. -/
  sum : Int
  count : Nat
  /-- One-second samples, oldest first, at most 3,600, in 0.01 dBm. -/
  samples : List Int
  /-- The spare cannot be used: used up, failed or cut. -/
  noSpare : Bool
  /-- The spare is lit for the swap under way (step 4 of R539). -/
  lit : Bool
  deriving DecidableEq, Repr

/-- A Ford circuit beyond its register (R545 to R547). -/
structure Circuit where
  /-- Lanes on the wavelength: A's leaf, A's spine side, B's leaf, B's spine side. -/
  leafA : Nat
  spineA : Nat
  leafB : Nat
  spineB : Nat
  /-- Answers of the leaves (bit 0 A, bit 1 B): accepted, marker received, released. -/
  accepted : Nat
  markers : Nat
  released : Nat
  /-- Consecutive windows below OFF_RATE. -/
  low : Nat
  /-- The device's own FORD_ADD markers on A and B, once they have gone out. -/
  markA : Option (List Byte)
  markB : Option (List Byte)
  /-- Step 5 of R547, once it is reached: the sides whose FORD_REMOVE marker has come or is not waited for. -/
  restored : Option Nat
  deriving DecidableEq, Repr

/-- Demand of a pair of ports (R543): bytes from the first to the second and back in this window, windows at or above
ON_RATE in a row, windows it is still held off. -/
structure Pair where
  there : Nat
  back : Nat
  high : Nat
  heldOff : Nat
  deriving DecidableEq, Repr

/-- Optical state. -/
structure OpticalSt where
  /-- Rings by 576 × engine + index. -/
  rings : List (Nat × RingSt)
  engines : List (Nat × EngineSt)
  /-- Moves under way on outgoing fibres. -/
  moves : List (Nat × Move)
  /-- Moves granted on incoming fibres: ID, lane, from, to. -/
  granted : List (Nat × (Nat × Nat × Nat × Nat))
  /-- Domain-0 ns of a channel's last calibration: key 16 × fibre + wavelength. -/
  calibrated : List (Nat × Nat)
  /-- Laser positions by 16 × module + position. -/
  lasers : List (Nat × LaserPos)
  /-- SEQ of the next down frame of a module. -/
  laserSeq : List (Nat × Nat)
  /-- Circuits by 8 × engine + circuit. -/
  circuits : List (Nat × Circuit)
  /-- Demand of the pair A, B with A < B: key 1,024 × A + B. -/
  pairs : List (Nat × Pair)
  /-- The engine's temperature at the start of a fibre's calibration, while one is under way (R535). -/
  calTemp : List (Nat × Nat)
  deriving DecidableEq, Repr

/-! ### Time base (R556 to R582) -/

/-- A time domain's counter and steering beyond the registers (R556, R561). -/
structure TimeDom where
  /-- SEC. -/
  sec : Nat
  /-- NS, below 10^9. -/
  ns : Nat
  /-- FRAC and the hidden bits, in units of 2^-32 ns. -/
  frac : Nat
  /-- REMAINING, in units of 2^-32 ns (R561). -/
  remaining : Int
  /-- The increment of the last cycle, in units of 2^-32 ns (R566). -/
  lastIncr : Nat
  /-- Withdrawn by a STEP and settling (R562). -/
  settling : Bool
  /-- It counts: it has started (R564) and has not been disabled since. -/
  running : Bool
  deriving DecidableEq, Repr

/-- A capture entry (R578): rising, overflow, and each domain's readiness, SEC and NS. -/
structure Capture where
  rising : Bool
  overflow : Bool
  ready0 : Bool
  ready1 : Bool
  sec0 : Nat
  ns0 : Nat
  sec1 : Nat
  ns1 : Nat
  deriving DecidableEq, Repr

/-- Time base state. -/
structure TimeSt where
  dom0 : TimeDom
  dom1 : TimeDom
  /-- Captures waiting in each input's FIFO, oldest first (at most 16). -/
  captures : List (Nat × List Capture)
  /-- Inputs whose FIFO lost an edge since its last entry (R578). -/
  lostEdge : List Nat
  /-- Levels of TRIG_OUT0 to TRIG_OUT7, as a mask, INVERT applied (R574). -/
  trig : Nat
  /-- Level of PPS_OUT. -/
  pps : Bool
  /-- HOLDOVER_MS ran out and TCLK has not returned (R567). -/
  expired : Bool
  /-- How far a die's replica of the time base stands from the master, in thousandths of a time-clock cycle; an unlisted die's
  is aligned (R34). -/
  replicas : List (Nat × Int)
  deriving DecidableEq, Repr

/-! ### Tideline (R583 to R604) -/

/-- Power and thermal state. -/
structure PowerSt where
  /-- Reduction dies whose voltage is ramping up. -/
  ramping : List Nat
  /-- Consecutive evaluations at which a faster variant was affordable, by die. -/
  dwell : List (Nat × Nat)
  /-- Safety actions in force: 256 × limit code + die or rail (R597). -/
  actions : List Nat
  /-- End of a die's last epoch and its length, in domain-0 ns (R594). -/
  idle : List (Nat × (Nat × Nat))
  /-- Package energy below 1 mJ, in units of 10 µJ. -/
  energy : Nat
  /-- The stretch code made for the package budget (R589). -/
  budget : Nat
  deriving DecidableEq, Repr

/-! ### The whole state -/

/-- The state of the block. -/
structure State where
  /-- BAR0 words by offset; an unlisted offset holds its reset word (`resetWord`). -/
  regs : List (Nat × Word)
  hi : HostSt
  bt : BootSt
  pc : PacketSt
  ft : TableSt
  tq : QueueSt
  tb : TimeSt
  fh : FaultSt
  ms : MemSt
  re : ReduceSt
  cl : CollectiveSt
  oc : OpticalSt
  pm : PowerSt
  /-- The model's own: draws made so far, the argument of `Config.freeValue`. -/
  free : Nat
  /-- The model's own: what left the device, oldest first. -/
  out : List Out
  /-- The model's own: the commands waiting, first in, first out. -/
  pending : List Instr
  deriving DecidableEq, Repr

/-- What a command's meaning answers. -/
abbrev Res := Host.Outcome State Fault Refusal

/-- A ring that has never been enabled. -/
def Ring.reset : Ring := ⟨0, 0, 0, false, false⟩

/-- R94: at reset ring 0 is assigned P0 with partition 0xFFFF and every other entry is unassigned. The key is
2^20 * kind + index. -/
def ProtEntry.reset (key : Nat) : ProtEntry := if key = 0x100000 then ⟨0, 0xFFFF, 0, 0⟩ else ⟨3, 0, 0, 0⟩

/-- R100: every partition is FREE at reset. -/
def Part.reset : Part := ⟨.free, 0, 0, 0, 0⟩

/-- No identity exchange has run. -/
def Exchange.reset : Exchange := ⟨false, [], [], 1, false, []⟩

/-- A port whose link is down and that holds no traffic. -/
def PortSt.reset : PortSt :=
  { arriving := none, sending := none, xoffSent := 0, paused := 0, demoted := false,
    initSeen := false, ackSent := false, ackSeen := false, complete := false,
    nextSeq := 0, expected := 0, nak := false, accepted := 0, store := [], own := [], stale := none,
    creditRet := [0, 0, 0, 0, 0], sent := [0, 0, 0, 0, 0], returned := [0, 0, 0, 0, 0], peerMin := [0, 0, 0, 0, 0], peerShared := 0, pool := 0,
    stamp := 0, stampAt := 0, rttKnown := false, rtxFrom := none, rtxDue := none,
    clsDrr := ⟨[], [], false⟩, queueDrr := [], shaper := [], lanesMoved := [] }

/-- A gate schedule with no list committed. -/
def GateSt.reset : GateSt := ⟨[], 0, 0, 0, [], 0, 0, 0, 0, 0, false⟩

/-- An empty fence slot. -/
def Fence.reset : Fence := ⟨0, 0, 0, []⟩

/-- R564: a domain that starts from zero. -/
def TimeDom.reset : TimeDom := ⟨0, 0, 0, 0, 0x100000000, false, false⟩

/-- PRESUMED (log 129): configuration space after a reset, as the PCIe Base Specification has it: memory space off, no BAR set,
payloads of 128 bytes, read requests of 512. -/
def ConfigSt.reset : ConfigSt := ⟨false, 0, 0, 0, 128, 512, 0⟩

/-- The host interface after a cold reset. DESIGN CHOICE (log 11): configuration space does not answer yet. -/
def HostSt.reset : HostSt := ⟨[], [], 0, [], 0, [], [], [], false, [], false, ConfigSt.reset⟩

/-- Start-up after a cold reset: POR_L is low. -/
def BootSt.reset : BootSt := ⟨false, false, false, false, false, none, [], 0, none, [], [], false, [], false, false⟩

/-- The packet core after a cold reset. -/
def PacketSt.reset : PacketSt := ⟨[], [], 0, [], [], [], [], [], [], []⟩

/-- The forwarding tables after a cold reset: empty. -/
def TableSt.reset : TableSt := ⟨[], [], [], [], [], [], []⟩

/-- Queues, meters and fences after a cold reset. -/
def QueueSt.reset : QueueSt := ⟨[], [], [], []⟩

/-- The time base after a cold reset. -/
def TimeSt.reset : TimeSt := ⟨TimeDom.reset, TimeDom.reset, [], [], 0, false, false, []⟩

/-- A bridge that is trained. -/
def Bridge.reset : Bridge := ⟨0, 0, 0, false, false, []⟩

/-- Fault handling after a cold reset. -/
def FaultSt.reset : FaultSt := ⟨[], [], false, [], [], [], [], [], [], [], [], [], [], [], [], false⟩

/-- A mooring after a cold or warm start (R427). -/
def Mooring.reset : Mooring := ⟨0, 0, 0⟩

/-- A stack with nothing queued. -/
def Stack.reset : Stack := ⟨[], none, 0, 0, none, 0, 0, [], [], []⟩

/-- The memory system after a cold reset. -/
def MemSt.reset : MemSt := ⟨[], [], [], [], [], [], [], [], [], []⟩

/-- A tile whose storage reads zero. -/
def TileSt.reset : TileSt := ⟨[], [], [], [], [], [], none, none, []⟩

/-- An empty manifest slot. -/
def SlotSt.reset : SlotSt := ⟨[], [], 0, none, 0, none, [], 0, none⟩

/-- Reduction after a cold reset. -/
def ReduceSt.reset : ReduceSt := ⟨[], [], [], [], [], [], []⟩

/-- No broadcast held. -/
def Bcast.reset : Bcast := ⟨none, [], [], none, []⟩

/-- Collectives after a cold reset. -/
def CollectiveSt.reset : CollectiveSt := ⟨[], [], [], [], [], 0, []⟩

/-- A ring that has not been calibrated. -/
def RingSt.reset : RingSt := ⟨none, 0, 0, 0, 0, 0, 0, false, 0, 0, 0, false⟩

/-- An engine that has been sent nothing. -/
def EngineSt.reset : EngineSt := ⟨0, 0, 0, true, [], false, 0⟩

/-- A laser position that is dark. -/
def LaserPos.reset : LaserPos := ⟨0, 0, 0, 0, [], false, false⟩

/-- No circuit. -/
def Circuit.reset : Circuit := ⟨0, 0, 0, 0, 0, 0, 0, 0, none, none, none⟩

/-- A pair with no demand. -/
def Pair.reset : Pair := ⟨0, 0, 0, 0⟩

/-- Optical control after a cold reset. -/
def OpticalSt.reset : OpticalSt := ⟨[], [], [], [], [], [], [], [], [], []⟩

/-- Tideline after a cold reset. -/
def PowerSt.reset : PowerSt := ⟨[], [], [], [], 0, 0⟩

/-- R106: the machine right after a cold reset, POR_L still low: every register at its reset value, all
memory cleared, no command waiting. -/
def State.reset : State :=
  { regs := [], hi := HostSt.reset, bt := BootSt.reset, pc := PacketSt.reset, ft := TableSt.reset,
    tq := QueueSt.reset, tb := TimeSt.reset, fh := FaultSt.reset, ms := MemSt.reset,
    re := ReduceSt.reset, cl := CollectiveSt.reset, oc := OpticalSt.reset, pm := PowerSt.reset, free := 0, out := [], pending := [] }

end Sys2Proof.Machine
end

