-- ==== Sys2Proof/Machine/Ops.lean ====
section
/-! DEFINITION. Named operations over the registers, the outputs, the time and the readiness map: every
later meaning reads and writes the state through these. -/

namespace Sys2Proof.Machine

/-! ### Registers -/

/-- The word at a BAR0 offset. -/
def State.word (s : State) (off : Nat) : Word := sget (resetWord off) s.regs off

/-- The state with the word at a BAR0 offset replaced. -/
def State.setWord (s : State) (off : Nat) (w : Word) : State :=
  { s with regs := sset (resetWord off) off w s.regs }

/-- A field of element `i` of its register, as a number. -/
def State.rd (s : State) (f : Fld) (i : Nat) : Nat := bitsOf (s.word (f.reg.offset i)).toNat f.hi f.lo

/-- A one-bit field of element `i` of its register. -/
def State.flag (s : State) (f : Fld) (i : Nat) : Bool := s.rd f i == 1

/-- The state with a field of element `i` of its register replaced. -/
def State.wr (s : State) (f : Fld) (i : Nat) (v : Nat) : State :=
  s.setWord (f.reg.offset i) (BitVec.ofNat 64 (withBits (s.word (f.reg.offset i)).toNat f.hi f.lo v))

/-- Several fields replaced, in order. -/
def State.wrs (s : State) (fs : List (Fld × Nat × Nat)) : State :=
  fs.foldl (fun t fiv => t.wr fiv.1 fiv.2.1 fiv.2.2) s

/-- A count field raised by `n`, stopping at its largest value. -/
def State.addSat (s : State) (f : Fld) (i n : Nat) : State :=
  s.wr f i (satAdd (f.hi + 1 - f.lo) (s.rd f i) n)

/-- A count field raised by `n`, wrapping at its width. -/
def State.addWrap (s : State) (f : Fld) (i n : Nat) : State :=
  s.wr f i (wrapAdd (f.hi + 1 - f.lo) (s.rd f i) n)

/-- A field of a word that a command carries for a register. -/
def Fld.of (f : Fld) (w : Word) : Nat := bitsOf w.toNat f.hi f.lo

/-- A one-bit field of a word that a command carries. -/
def Fld.isSet (f : Fld) (w : Word) : Bool := f.of w == 1

/-- Every register word of the offsets from `lo` up to `hi` goes back to its reset word. -/
def State.resetRegs (s : State) (lo hi : Nat) : State :=
  { s with regs := sclear (fun off => decide (lo ≤ off ∧ off < hi)) s.regs }

/-- The 64-bit words of a register from element `i` on take the bytes of a string, byte 0 at the lowest address (R132). -/
def State.putBytes (s : State) (r : Reg) (i : Nat) (bs : List Byte) : State :=
  (List.range (bs.length / 8)).foldl (fun t k => t.setWord (r.offset (i + k)) (BitVec.ofNat 64 (le bs (8 * k) 8))) s

/-- The bytes that `n` words of a register hold, from element `i` on. -/
def State.getBytes (s : State) (r : Reg) (i n : Nat) : List Byte :=
  (List.range n).flatMap (fun k => natLe 8 (s.word (r.offset (i + k))).toNat)

/-! ### W1C bits set by hardware (R103 to R105) -/

/-- R104: the companion count register of the W1C register at an offset. -/
def companionOf (off : Nat) : Nat := off + 0x80000

/-- R104: hardware sets W1C field `f` of element `i`: SETS counts it, COLLISIONS counts it where the bit was
already 1, both saturating. -/
def State.setErr (s : State) (f : Fld) (i : Nat) : State :=
  let off := f.reg.offset i
  let c := (s.word (companionOf off)).toNat
  let sets := satAdd 32 (bitsOf c 63 32) 1
  let coll := if s.rd f i = 0 then bitsOf c 31 0 else satAdd 32 (bitsOf c 31 0) 1
  (s.setWord (companionOf off) (BitVec.ofNat 64 (sets * 2 ^ 32 + coll))).wr f i 1

/-! ### Free values and outputs -/

/-- A fresh free value: the draw counter's value of `Config.freeValue`, and the counter advanced. -/
def State.draw (s : State) : Nat × State := (Config.freeValue s.free, { s with free := s.free + 1 })

/-- Append an output. -/
def State.emit (s : State) (o : Out) : State := { s with out := s.out ++ [o] }

/-- R52: a write or message toward the host goes out, or is held in order while the function is in D3hot. -/
def State.toHost (s : State) (o : Out) : State :=
  if s.hi.d3hot then { s with hi := { s.hi with held := s.hi.held ++ [o] } } else s.emit o

/-- PRESUMED (log 2): an MSI-X vector falls due: its message is sent, or its pending bit is set where the
vector is masked. R107: it is lost while the host port is down or resets. -/
def State.sendVector (s : State) (v : Nat) : State :=
  if !s.hi.answering then s
  else if s.flag HI_MSIX_CTL_MASK v then
    s.wr HI_MSIX_PBA_PENDING (v / 64) (s.rd HI_MSIX_PBA_PENDING (v / 64) ||| 2 ^ (v % 64))
  else s.toHost (.msix v (s.rd HI_MSIX_ADDR_ADDR v) (s.rd HI_MSIX_CTL_DATA v))

/-! ### Time (R556, R558) -/

/-- A time domain's counter. -/
def State.dom (s : State) (d : Nat) : TimeDom := if d = 0 then s.tb.dom0 else s.tb.dom1

/-- The state with a time domain's counter replaced. -/
def State.setDom (s : State) (d : Nat) (v : TimeDom) : State :=
  if d = 0 then { s with tb := { s.tb with dom0 := v } } else { s with tb := { s.tb with dom1 := v } }

/-- R558: domain nanoseconds, SEC × 10^9 + NS. -/
def TimeDom.total (t : TimeDom) : Nat := t.sec * 1000000000 + t.ns

/-- R556: the 96 visible bits of a domain. -/
def TimeDom.visible (t : TimeDom) : Nat := t.sec * 2 ^ 48 + t.ns * 2 ^ 16 + t.frac / 2 ^ 16

/-- Domain-0 time in ns. -/
def State.now (s : State) : Nat := s.tb.dom0.total

/-- R558: domain-0 time in ns, low 64 bits. -/
def State.now64 (s : State) : Nat := s.now % 2 ^ 64

/-! ### Readiness (R122, R123) -/

/-- The word of BT_READY_MAP that holds a function's bit, and the bit. -/
def fnPlace : Fn → Nat × Nat
  | .die d => (0, d.val)
  | .pilot => (0, 15)
  | .pipe p => (0, 16 + p.val)
  | .hbm h => (0, 24 + h.val)
  | .time d => (0, 36 + d.val)
  | .engine e => (0, 38 + e.val)
  | .laser m => (0, 54 + m.val)
  | .port n => (1 + n.val / 64, n.val % 64)
  | .tile t => (17 + t.val / 64, t.val % 64)

/-- R122: a bit of the readiness map by its place. -/
def State.readyAt (s : State) (p : Nat × Nat) : Bool := (s.rd BT_READY_MAP_BITS p.1).testBit p.2

/-- R122: a function is ready. -/
def State.ready (s : State) (f : Fn) : Bool := s.readyAt (fnPlace f)

/-- Die `g` of R123 is ready. -/
def State.dieReady (s : State) (g : Nat) : Bool := s.readyAt (0, g)

/-- Pipeline `p` is ready. -/
def State.pipeReady (s : State) (p : Nat) : Bool := s.readyAt (0, 16 + p)

/-- HBM stack `h` is ready. -/
def State.hbmReady (s : State) (h : Nat) : Bool := s.readyAt (0, 24 + h)

/-- R127: every HBM stack of switch die `d` is ready. -/
def State.stacksReady (s : State) (d : Nat) : Bool := (List.range 6).all (fun k => s.hbmReady (6 * d + k))

/-- Time domain `d` is ready. -/
def State.timeReady (s : State) (d : Nat) : Bool := s.readyAt (0, 36 + d)

/-- Logical port `n` is ready. -/
def State.portReady (s : State) (n : Nat) : Bool := s.readyAt (1 + n / 64, n % 64)

/-- Logical tile `t` is ready. -/
def State.tileReady (s : State) (t : Nat) : Bool := s.readyAt (17 + t / 64, t % 64)

/-! ### Events and the fault log (R605, R619 to R623) -/

/-- R623: the fault class of an event code; WRITE_REFUSED and every code not listed is a NOTICE. -/
def faultClassOf (code : Nat) : Nat :=
  if [0x0203, 0x0204, 0x0205, 0x0502, 0x0506, 0x0602, 0x0703, 0x0803, 0x0C07].contains code then 2
  else if [0x0207, 0x0503, 0x0504, 0x0505, 0x0507, 0x0603, 0x0805, 0x0806, 0x0906, 0x0907, 0x090A].contains code then 3
  else if [0x0208, 0x0508, 0x0702, 0x0807, 0x0908].contains code then 4
  else if [0x0804, 0x0902, 0x0903, 0x0904, 0x0A04, 0x0C05].contains code then 1
  else if [0x0C06, 0x0C08, 0x0C0B].contains code then 5
  else 0

/-- The class an occurrence carries: its own where the event names one, else that of its code. -/
def Event.faultClass (e : Event) : Nat := e.fault.getD (faultClassOf e.code)

/-- R620: the key of an occurrence's merge window. -/
def Event.key (e : Event) : Nat := e.code * 2 ^ 32 + e.logical % 2 ^ 32

/-- R619: the record of an occurrence that stands for `count` of them. -/
def recordOf (s : State) (e : Event) (count : Nat) : Record :=
  { seq := s.rd FH_LOG_STATUS_NEXT_SEQ 0, event := e.code, faultClass := e.faultClass, state := e.state,
    time := s.tb.dom0.visible, die := e.die, temp := s.rd PM_DIE_STATUS_TJ e.die / 16,
    variant := if e.die = 6 ∨ e.die = 7 then 0x80 + s.rd MF_DIE_STATUS_VARIANT (e.die - 6) else 0,
    kind := e.kind, logical := e.logical, pattern := e.pattern, physical := e.physical,
    generation := s.rd HI_PROT_GEN_ACTIVE 0, count := count, detail0 := e.detail0, detail1 := e.detail1,
    group := e.group, sequence := e.sequence }

/-- R619: the 64 bytes of an error record. -/
def Record.bytes (r : Record) : List Byte :=
  natLe 4 r.seq ++ natLe 2 r.event ++ natLe 1 r.faultClass ++ natLe 1 r.state ++ natLe 12 r.time ++
  natLe 1 r.die ++ natLe 1 r.temp ++ natLe 1 r.variant ++ natLe 1 r.kind ++ natLe 4 r.logical ++
  natLe 1 r.pattern ++ natLe 1 0 ++ natLe 2 r.physical ++ natLe 4 r.generation ++ natLe 4 r.count ++
  natLe 8 r.detail0 ++ natLe 8 r.detail1 ++ natLe 4 r.group ++ natLe 4 r.sequence

/-- R622: NEXT_SEQ has moved past FH_LOG_ACK. -/
def State.logBeyondAck (s : State) : Bool :=
  let gap := wrapSub 32 (s.rd FH_LOG_STATUS_NEXT_SEQ 0) (s.rd FH_LOG_ACK_ACK_SEQ 0)
  decide (0 < gap ∧ gap < 2 ^ 31)

/-- R622: vector 0 is sent once while NEXT_SEQ lies beyond FH_LOG_ACK. -/
def State.signalLog (s : State) : State :=
  if s.logBeyondAck && !s.fh.vectorSent then
    State.sendVector { s with fh := { s.fh with vectorSent := true } } 0
  else s

/-- R621: write a record into the log of the last 16,384 and move NEXT_SEQ past it. -/
def State.logRecord (s : State) (r : Record) : State :=
  let kept := s.fh.log.drop (s.fh.log.length + 1 - 16384) ++ [r]
  let next := wrapAdd 32 (s.rd FH_LOG_STATUS_NEXT_SEQ 0) 1
  let t : State := { s with fh := { s.fh with log := kept } }
  ((t.wr FH_LOG_STATUS_NEXT_SEQ 0 next).wr FH_LOG_STATUS_OLDEST_SEQ 0 (wrapSub 32 next kept.length)).signalLog

/-- R627, R628: the counts of an occurrence by event class and by fault class, and the FH_ERR bit that its
record sets. -/
def State.countEvent (s : State) (e : Event) : State :=
  let t := (s.addWrap FH_CLASS_COUNT_COUNT (e.code / 256) 1).addWrap FH_FAULT_COUNT_COUNT e.faultClass 1
  let u := if e.faultClass = 5 then t.setErr FH_ERR_FATAL 0 else t
  if e.code = 0x0C09 then u.setErr FH_ERR_BUDGET_LOW 0
  else if e.code = 0x0C0A then u.setErr FH_ERR_BUDGET_SPENT 0
  else if e.code = 0x0C04 then u.setErr FH_ERR_RECOVERY_RESTARTED 0
  else u

/-- R620: the open merge window of a key: its merged count and the last merged occurrence. -/
def State.windowAt (s : State) (key : Nat) : Option (Nat × Option Event) := (s.fh.windows.find? (fun w => w.1 == key)).map (fun w => w.2)

/-- The state with the merge window of a key set. -/
def State.setWindow (s : State) (key : Nat) (w : Nat × Option Event) : State :=
  { s with fh := { s.fh with windows := sput key w s.fh.windows } }

/-- The state with no merge window open for a key. -/
def State.dropWindow (s : State) (key : Nat) : State := { s with fh := { s.fh with windows := sdel key s.fh.windows } }

/-- R619, R620: an event is raised. The first occurrence of its (EVENT, LOGICAL) writes a record and opens a
merge window; one within the window is merged. -/
def State.raise (s : State) (e : Event) : State :=
  let t := s.countEvent e
  match t.windowAt e.key with
  | some w => t.setWindow e.key (w.1 + 1, some e)
  | none => (t.logRecord (recordOf t e 1)).setWindow e.key (0, none)

/-- R620: a merge window ends; what was merged in it becomes one record, which opens no window. -/
def State.closeWindow (s : State) (key : Nat) : State :=
  match s.windowAt key with
  | some (n, some e) => (s.dropWindow key).logRecord (recordOf s e n)
  | some (_, none) => s.dropWindow key
  | none => s

/-- The die that holds the register at an offset (R41, R26); 8 is the control die. DESIGN CHOICE (log 16): a register that
several dies hold in step is reached through the first of them that R41 names for its use. DESIGN CHOICE (log 139): the MF_
registers of a manifest slot, a tile or a die stand on the reduction die of that slot, tile or die, MF_LS_SLOTS and the other
shared ones on RD0, and none on the control die. -/
def dieOf (off : Nat) : Nat :=
  let b := off / 0x100000
  let o := off % 0x100000
  if b = 2 then
    if 0x1000 ≤ o ∧ o < 0x1100 then 4 + o / 8 % 2
    else if 0x1100 ≤ o ∧ o < 0x1140 then 4 + (o - 0x1100) / 0x20
    else if 0x4000 ≤ o ∧ o < 0x4800 then (o - 0x4000) / 8 / 64
    else if 0x8000 ≤ o ∧ o < 0x18000 then (o - 0x8000) / 0x40 / 256
    else if 0x20000 ≤ o ∧ o < 0x30000 then (o - 0x20000) / 8 / 8 / 256
    else 0
  else if b = 3 then
    if 0x100 ≤ o ∧ o < 0x300 then (o - 0x100) / 0x40 / 2 else 0
  else if b = 4 then
    if o < 0x10 then 4 + o / 8
    else if 0x2000 ≤ o ∧ o < 0x4000 then 4 + (o - 0x2000) / 8 / 512
    else if 0x8000 ≤ o ∧ o < 0xA000 then 0
    else if 0x10000 ≤ o ∧ o < 0x20000 then (o - 0x10000) / 0x40 / 256
    else if 0x20000 ≤ o ∧ o < 0x30000 then 4 + (o - 0x20000) / 0x40 / 512
    else if 0xA0000 ≤ o ∧ o < 0xE0000 then (o - 0xA0000) / 4 / 16384
    else 4
  else if b = 5 then
    if o < 0x580 then 6 + o / 8 / 88
    else if 0x800 ≤ o ∧ o < 0xD80 then 6 + (o - 0x800) / 8 / 88
    else if 0x1000 ≤ o ∧ o < 0x1020 then 6 + o / 8 % 2
    else 6
  else if b = 6 then
    if o < 0x20 then 6 + o / 8 % 2
    else if 0x108 ≤ o ∧ o < 0x128 then 6 + (o - 0x108) / 8 % 2
    else if 0x400 ≤ o ∧ o < 0x980 then 6 + (o - 0x400) / 8 / 88
    else if 0x1000 ≤ o ∧ o < 0x3000 then 6 + (o - 0x1000) / 64 / 64
    else 6
  else if b = 8 then
    if o < 0x80 then 4 + o / 0x40
    else if 0x1000 ≤ o ∧ o < 0x1200 then 4 + (o - 0x1000) / 256
    else if 0x2000 ≤ o ∧ o < 0x2300 then 4 + (o - 0x2000) / 0x40 / 6
    else if 0x3000 ≤ o ∧ o < 0x3300 then 4 + (o - 0x3000) / 0x40 / 6
    else if 0x4000 ≤ o ∧ o < 0x4100 then 4 + (o - 0x4000) / 0x20 / 4
    else if 0x6000 ≤ o ∧ o < 0xA000 then 4 + (o - 0x6000) / 0x2000
    else 4
  else if b = 10 then
    if 0x600 ≤ o ∧ o < 0x648 then (o - 0x600) / 8 else 8
  else 8

/-- R623: a write of `v` at BAR0 offset `off` is discarded and raises WRITE_REFUSED of its block. DESIGN CHOICE
(log 17): KIND is register and LOGICAL the offset. -/
def State.refuseWrite (s : State) (off v : Nat) : State :=
  s.raise { code := off / 0x100000 * 256 + 1, logical := off, kind := 15, die := dieOf off, detail0 := off, detail1 := v }

/-! ### Counters of the packet core (R214, R309, R310) -/

/-- Port counter `k` of port `n` rises by `v` modulo 2^64. -/
def State.portAdd (s : State) (n k v : Nat) : State :=
  { s with pc := { s.pc with portCount := smod 0 (64 * n + k) (fun c => wrapAdd 64 c v) s.pc.portCount } }

/-- Queue counter `k` of global queue `q` rises by `v`. -/
def State.queueAdd (s : State) (q k v : Nat) : State :=
  { s with pc := { s.pc with queueCount := smod 0 (4 * q + k) (fun c => wrapAdd 64 c v) s.pc.queueCount } }

/-- Meter counter `k` of meter `m` rises by `v`. -/
def State.meterAdd (s : State) (m k v : Nat) : State :=
  { s with pc := { s.pc with meterCount := smod 0 (4 * m + k) (fun c => wrapAdd 64 c v) s.pc.meterCount } }

/-- A port's state beyond its registers. -/
def State.port (s : State) (n : Nat) : PortSt := sget PortSt.reset s.pc.ports n

/-- The state with a port's state replaced. -/
def State.setPort (s : State) (n : Nat) (p : PortSt) : State :=
  { s with pc := { s.pc with ports := sset PortSt.reset n p s.pc.ports } }

/-- A port's state changed by a function. -/
def State.modPort (s : State) (n : Nat) (f : PortSt → PortSt) : State := s.setPort n (f (s.port n))

end Sys2Proof.Machine
end

