-- ==== Sys2Proof/Machine/Bridge.lean ====
section
/-! DEFINITION. Where things lie in the package: the bridges between dies with their networks and FIFOs, the routes over them, and
the clock-domain crossings (R20 to R37). -/

namespace Sys2Proof.Machine

/-! ### Bridges (R21, R22, R25) -/

/-- The dies at the two ends of a bridge (R21). DESIGN CHOICE (log 75): bridges 0 to 3 are the port bridges, 4 the central, 5 and 6
the reduction, 7 and 8 the control bridges of SD0 and SD1. -/
def bridgeEnds : Nat → Nat × Nat
  | 0 => (0, 4)
  | 1 => (1, 4)
  | 2 => (2, 5)
  | 3 => (3, 5)
  | 4 => (4, 5)
  | 5 => (6, 4)
  | 6 => (7, 5)
  | 7 => (8, 4)
  | _ => (8, 5)

/-- R21, R25: data wires and spare wires of a bridge in each direction, each at 32 Gb/s. -/
def bridgeWires (b : Nat) : Nat × Nat := (if b = 4 then 8192 else if b < 7 then 4096 else 512, 64)

/-- R21: the dies with a telemetry sideband to the control die: all the others. -/
def telemetryDies : List Nat := List.range 8

/-- R22: the virtual networks of a bridge. -/
def networks : List Net := [.mgmt, .req, .coll, .fwd, .rsp]

/-- X3 and X4 of R35: entries of a bridge's transmit and receive FIFO in one direction, and those of each that are reserved for a
network at least. -/
def transmitEntries : Nat := 48
/-- Entries of the receive FIFO (R35). -/
def receiveEntries : Nat := 64
/-- Entries of each FIFO reserved for a network (R35). -/
def reservedEntries : Nat := 8

/-- A bridge. -/
def State.bridge (s : State) (b : Nat) : Bridge := sget Bridge.reset s.fh.bridges b

/-- The state with a bridge replaced. -/
def State.setBridge (s : State) (b : Nat) (x : Bridge) : State :=
  { s with fh := { s.fh with bridges := sset Bridge.reset b x s.fh.bridges } }

/-- R36: the credit a network has left on a bridge: entries reserved for it in the two FIFOs, and those that all networks share,
less what each holds beyond its own. -/
def Bridge.credit (x : Bridge) (n : Net) : Nat :=
  let used := fun (m : Net) => x.held.countP (fun e => e.1 == m)
  let own := 2 * reservedEntries
  let shared := transmitEntries + receiveEntries - own * networks.length
  let beyond := ((networks.filter (fun m => m != n)).map (fun m => used m - own)).sum
  own + (shared - beyond) - used n

/-- R36: a network of a bridge is stopped: its source waits, by credit, and no other network does. -/
def Bridge.stopped (x : Bridge) (n : Net) : Bool := x.credit n == 0

/-! ### Routes (R26 to R31) -/

/-- The switch die that a die's bridge leads to; a switch die itself. The control die reaches either. -/
def switchOf (die toward : Nat) : Nat :=
  match die with
  | 0 | 1 | 6 => 4
  | 2 | 3 | 7 => 5
  | 4 => 4
  | 5 => 5
  | _ => toward

/-- The bridge between a die and its switch die, where it is no switch die itself. -/
def ownBridge (die sw : Nat) : List Nat :=
  match die with
  | 0 => [0]
  | 1 => [1]
  | 2 => [2]
  | 3 => [3]
  | 6 => [5]
  | 7 => [6]
  | 8 => [7 + (sw - 4)]
  | _ => []

/-- R21, R27, R29, R31: the bridges from a die to another, in order: its own, the central bridge where they lie at different switch
dies, and the other's own. -/
def routeOf (a b : Nat) : List Nat :=
  if a = b then []
  else
    let sb := switchOf b (switchOf a 4)
    let sa := switchOf a sb
    ownBridge a sa ++ (if sa = sb then [] else [4]) ++ ownBridge b sb

/-- R24: the bridges of a route that are retraining. -/
def State.closedOn (s : State) (route : List Nat) : List Nat := route.filter (fun b => (s.bridge b).retraining)

/-- R24: no bridge between two dies is retraining. -/
def State.routeOpen (s : State) (a b : Nat) : Bool := (s.closedOn (routeOf a b)).isEmpty

/-- R29: what crosses between two dies passes: no bridge on its way retrains, and no switch die on it is under reset. -/
def State.passes (s : State) (a b : Nat) : Bool :=
  s.routeOpen a b && (routeOf a b).all (fun k => [(bridgeEnds k).1, (bridgeEnds k).2].all (fun d => !(d == 4 || d == 5) || !s.fh.diesReset.contains d))

/-- R24: a frame is out of the FIFOs of the bridges before its buffer. -/
def State.crossed (s : State) (x : FrameSt) : Bool := (s.closedOn x.via).isEmpty

/-- R24: a host access to a die waits in the first bridge on its way that retrains, in the MGMT network. -/
def State.holdAccess (s : State) (b : Nat) (c : Crossing) : State :=
  s.setBridge b { s.bridge b with held := (s.bridge b).held ++ [(Net.mgmt, c)] }

/-- R24: a host access to a die acts as `f`, or waits for a bridge on its way. -/
def State.acrossTo (s : State) (die : Nat) (c : Crossing) (f : State → State) : State :=
  match s.closedOn (routeOf 8 die) with
  | b :: _ => s.holdAccess b c
  | [] => f s

/-! ### Clock domains and crossings (R33, R35, R39) -/

/-- The clock domains of R33. -/
inductive Clock where
  | pkt | lnk | red | hbm | laneRx | laneTx | pcie | ctl | time | opt
  deriving DecidableEq, Repr

/-- The nominal frequency of a domain in kHz; a lane's clocks are about 1.66 GHz, and RED takes its variant's (R387). -/
def Clock.kHz : Clock → Nat
  | .pkt | .lnk => 1600000
  | .red => 1400000
  | .hbm => 2000000
  | .laneRx | .laneTx => 1660000
  | .pcie | .time => 1000000
  | .ctl => 1200000
  | .opt => 250000

/-- How a crossing of R35 passes its values. -/
inductive CrossKind where
  /-- A dual-clock FIFO: entries and bits of an entry. -/
  | fifo (depth bits : Nat)
  /-- The FIFOs of a bridge. -/
  | bridge
  /-- A handshake on a held word. -/
  | handshake
  | pulse
  | serial (frames : Nat)
  | synchroniser
  | register
  deriving DecidableEq, Repr

/-- R35: crossing Xn: how it passes values, and its latency bound in tenths of a nanosecond. DESIGN CHOICE (log 145): a command's
effect takes in the crossings on its way, so that between two commands every FIFO but a retraining bridge's is empty. -/
def crossing : Nat → Option (CrossKind × Nat)
  | 1 => some (.fifo 32 128, 60)
  | 2 => some (.fifo 32 128, 60)
  | 3 => some (.bridge, 140)
  | 4 => some (.bridge, 160)
  | 5 => some (.fifo 128 0, 60)
  | 6 => some (.fifo 128 512, 60)
  | 7 => some (.fifo 8 0, 40)
  | 8 => some (.fifo 64 1024, 80)
  | 9 => some (.fifo 64 1024, 80)
  | 10 => some (.handshake, 40)
  | 11 => some (.pulse, 50)
  | 12 => some (.handshake, 40)
  | 13 => some (.fifo 16 64, 200)
  | 14 => some (.serial 8, 600)
  | 15 => some (.synchroniser, 30)
  | 16 => some (.register, 20)
  | _ => none

end Sys2Proof.Machine
end

