-- ==== Sys2Proof/Machine/Image.lean ====
section
/-! DEFINITION. The manifest image as it lies in memory (R367 to R373), its expanded instruction streams, and the
timing of a tile's instructions (R374). -/

namespace Sys2Proof.Machine

/-! ### Header (R367) -/

/-- VARIANTS of a manifest image. -/
def mfVariants (m : List Byte) : Nat := le m 7 1
/-- LENGTH. -/
def mfLength (m : List Byte) : Nat := le m 8 8
/-- PARTITION. -/
def mfPartition (m : List Byte) : Nat := le m 16 2
/-- FIRST_TILE. -/
def mfFirstTile (m : List Byte) : Nat := le m 18 2
/-- TILE_COUNT. -/
def mfTileCount (m : List Byte) : Nat := le m 20 2
/-- TRIGGER: 0 TIME, 1 MOORING, 2 TIME_GATED. -/
def mfTrigger (m : List Byte) : Nat := le m 22 1
/-- TIME_DOMAIN. -/
def mfDomain (m : List Byte) : Nat := le m 23 1
/-- PERIOD_NS. -/
def mfPeriod (m : List Byte) : Nat := le m 24 8
/-- PHASE_NS. -/
def mfPhase (m : List Byte) : Nat := le m 32 8
/-- OP_SLOTS. -/
def mfOpSlots (m : List Byte) : Nat := le m 40 2
/-- MATRICES. -/
def mfMatrices (m : List Byte) : Nat := le m 42 2
/-- OPSLOT_OFF. -/
def mfOpSlotOff (m : List Byte) : Nat := le m 44 4
/-- MATRIX_OFF. -/
def mfMatrixOff (m : List Byte) : Nat := le m 48 4
/-- VARIANT_OFF. -/
def mfVariantOff (m : List Byte) : Nat := le m 52 4
/-- RESULT_CELLS_SDd. -/
def mfResultCells (m : List Byte) (d : Nat) : Nat := le m (56 + 4 * d) 4
/-- BRIDGE_IN. -/
def mfBridgeIn (m : List Byte) : Nat := le m 64 8
/-- BRIDGE_OUT. -/
def mfBridgeOut (m : List Byte) : Nat := le m 72 8
/-- HBM_SDd. -/
def mfHbm (m : List Byte) (d : Nat) : Nat := le m (80 + 8 * d) 8

/-- The carried variants, rising. -/
def mfCarried (m : List Byte) : List Nat := setBits 4 (mfVariants m)

/-- The image carries a variant. -/
def mfCarries (m : List Byte) (v : Nat) : Bool := (mfVariants m).testBit v

/-- The logical tiles of a manifest. -/
def mfTiles (m : List Byte) : List Nat := (List.range (mfTileCount m)).map (fun t => mfFirstTile m + t)

/-! ### Tables (R368, R369, R371) -/

/-- Offset of a variant-table entry. -/
def variantEntry (m : List Byte) (v : Nat) : Nat := mfVariantOff m + 16 * v

/-- L of a variant. -/
def mfL (m : List Byte) (v : Nat) : Nat := le m (variantEntry m v) 4

/-- STREAMS_OFF of a variant. -/
def mfStreamsOff (m : List Byte) (v : Nat) : Nat := le m (variantEntry m v + 4) 4

/-- Offset of a stream-table entry. -/
def streamEntry (m : List Byte) (v t : Nat) : Nat := mfStreamsOff m v + 8 * t

/-- Offset of a tile's first instruction. -/
def streamStart (m : List Byte) (v t : Nat) : Nat := le m (streamEntry m v t) 4

/-- A tile's instruction count. -/
def streamCount (m : List Byte) (v t : Nat) : Nat := le m (streamEntry m v t + 4) 4

/-- R387: the reduction clock of a variant, in MHz. -/
def variantMhz : Nat → Nat
  | 0 => 1400
  | 1 => 1200
  | 2 => 1000
  | _ => 800

/-- An operation-slot entry (R369). -/
structure OpSlot where
  inF : Nat
  outF : Nat
  rounding : Nat
  projF : Nat
  e : Nat
  sources : Nat
  bpe : Nat
  tileFirst : Nat
  tileN : Nat
  frameBase : Nat
  halfFrames : Nat
  slotBase : Nat
  slots : Nat
  chkBase : Nat
  chkRegs : Nat
  matrix : Nat
  sendMask : Nat
  seed : Nat
  spill : Nat
  deriving DecidableEq, Repr

/-- Offset of an operation-slot entry. -/
def opSlotAt (m : List Byte) (i : Nat) : Nat := mfOpSlotOff m + 64 * i

/-- R369: an operation-slot entry of an image. -/
def opSlot (m : List Byte) (i : Nat) : OpSlot :=
  let o := opSlotAt m i
  { inF := le m o 1, outF := le m (o + 1) 1, rounding := le m (o + 2) 1, projF := le m (o + 3) 1, e := le m (o + 4) 4,
    sources := le m (o + 8) 2, bpe := le m (o + 10) 2, tileFirst := le m (o + 12) 2, tileN := le m (o + 14) 2,
    frameBase := le m (o + 16) 2, halfFrames := le m (o + 18) 2, slotBase := le m (o + 20) 2, slots := le m (o + 22) 2,
    chkBase := le m (o + 24) 2, chkRegs := le m (o + 26) 2, matrix := le m (o + 28) 2, sendMask := le m (o + 30) 1,
    seed := le m (o + 32) 8, spill := le m (o + 40) 4 }

/-- Ceiling of a quotient. -/
def ceilDiv (a b : Nat) : Nat := (a + b - 1) / b

/-- The accumulator layout of an operation slot. -/
def OpSlot.layout (p : OpSlot) : Layout := layoutOf p.inF

/-- R370: K, accumulator slots of one block. -/
def OpSlot.k (p : OpSlot) : Nat := p.layout.slots p.e

/-- R370: BT, blocks one tile takes per epoch. -/
def OpSlot.bt (p : OpSlot) : Nat := ceilDiv p.bpe p.tileN

/-- The operation slot uses manifest tile `t`. -/
def OpSlot.uses (p : OpSlot) (t : Nat) : Bool := decide (p.tileFirst ≤ t ∧ t < p.tileFirst + p.tileN)

/-- A matrix-table entry (R371). -/
structure Matrix where
  address : Nat
  rows : Nat
  cols : Nat
  format : Nat
  deriving DecidableEq, Repr

/-- Offset of a matrix-table entry. -/
def matrixAt (m : List Byte) (i : Nat) : Nat := mfMatrixOff m + 32 * i

/-- R371: a matrix-table entry of an image. -/
def matrixOf (m : List Byte) (i : Nat) : Matrix :=
  let o := matrixAt m i
  { address := le m o 8, rows := le m (o + 8) 2, cols := le m (o + 10) 1, format := le m (o + 11) 1 }

/-- Bytes of a matrix element. -/
def matrixElem (f : Nat) : Nat := if f = 2 then 2 else 1

/-- Bytes of one matrix row. -/
def Matrix.rowBytes (x : Matrix) : Nat := x.cols * matrixElem x.format

/-! ### Instructions (R373) -/

/-- A tile instruction, or a copy of one in an expanded stream: its offset in the image, its run, its OFFSET and BLOCK
with what REPEAT added, and its 16 bytes. -/
structure TileInstr where
  pos : Nat
  run : Nat
  cycle : Nat
  block : Nat
  raw : List Byte
  deriving DecidableEq, Repr

/-- OPCODE. -/
def TileInstr.op (i : TileInstr) : Nat := le i.raw 4 1
/-- OPSLOT. -/
def TileInstr.opslot (i : TileInstr) : Nat := le i.raw 6 2
/-- SOURCE of ADD. -/
def TileInstr.source (i : TileInstr) : Nat := le i.raw 10 2
/-- SRC of ROUND. -/
def TileInstr.src (i : TileInstr) : Nat := le i.raw 10 1
/-- FMT of ROUND. -/
def TileInstr.fmt (i : TileInstr) : Nat := le i.raw 11 1 % 2
/-- BUF of ROUND, SEND and PROJ. -/
def TileInstr.buf (i : TileInstr) : Nat :=
  match i.op with
  | 0x04 => le i.raw 11 1 / 16
  | 0x05 => le i.raw 8 1 % 16
  | _ => le i.raw 9 1 % 16
/-- FIRST of ROUND. -/
def TileInstr.first (i : TileInstr) : Nat := le i.raw 12 2
/-- COUNT of ROUND. -/
def TileInstr.count (i : TileInstr) : Nat := le i.raw 14 2
/-- DEST of SEND. -/
def TileInstr.dest (i : TileInstr) : Nat := le i.raw 9 1
/-- PART of SEND. -/
def TileInstr.part (i : TileInstr) : Nat := le i.raw 10 2
/-- MATRIX of MLOAD, PROJ and PCHECK. -/
def TileInstr.matrix (i : TileInstr) : Nat := le i.raw 8 1
/-- FIRST_ROW of MLOAD. -/
def TileInstr.firstRow (i : TileInstr) : Nat := le i.raw 10 2
/-- ROWS of MLOAD. -/
def TileInstr.rows (i : TileInstr) : Nat := le i.raw 12 2
/-- SPILL_OFF of SPILL and FILL. -/
def TileInstr.spillOff (i : TileInstr) : Nat := le i.raw 12 4
/-- COUNT of REPEAT. -/
def TileInstr.times (i : TileInstr) : Nat := le i.raw 8 2
/-- SPAN of REPEAT. -/
def TileInstr.span (i : TileInstr) : Nat := le i.raw 10 1
/-- BLOCK_INC of REPEAT. -/
def TileInstr.blockInc (i : TileInstr) : Nat := le i.raw 11 1
/-- STRIDE of REPEAT. -/
def TileInstr.stride (i : TileInstr) : Nat := le i.raw 12 4

/-- Where an opcode's BLOCK lies, if it has one. -/
def blockAt : Nat → Option Nat
  | 0x01 | 0x02 | 0x03 | 0x04 | 0x09 | 0x0A => some 8
  | 0x07 | 0x08 => some 10
  | _ => none

/-- BLOCK of a raw instruction; ROUND's block is that of bytes 8 and 9. -/
def rawBlock (raw : List Byte) : Nat := match blockAt (le raw 4 1) with
  | some o => le raw o 2
  | none => 0

/-- The instruction at an offset of the image. -/
def instrAt (m : List Byte) (pos : Nat) : TileInstr :=
  let raw := fitTo 16 (slice m pos 16)
  ⟨pos, 0, le raw 0 4, rawBlock raw, raw⟩

/-- R360: what a tile's instruction memory holds while its manifest is active: its streams of every carried variant, lowest
first. -/
def programOf (m : List Byte) (t : Nat) : List Byte := (mfCarried m).flatMap (fun v => slice m (streamStart m v t) (16 * streamCount m v t))

/-- Where a variant's stream begins in a tile's instruction memory, in instructions. -/
def programBase (m : List Byte) (v t : Nat) : Nat := (((mfCarried m).filter (fun w => decide (w < v))).map (fun w => streamCount m w t)).sum

/-- The instruction `k` of a variant's stream as a tile's instruction memory holds it. -/
def instrIn (program m : List Byte) (v t k : Nat) : TileInstr :=
  let raw := fitTo 16 (slice program (16 * (programBase m v t + k)) 16)
  ⟨streamStart m v t + 16 * k, 0, le raw 0 4, rawBlock raw, raw⟩

/-- The instructions of a stream as they stand in the image. -/
def stream (m : List Byte) (v t : Nat) : List TileInstr :=
  (List.range (streamCount m v t)).map (fun i => instrAt m (streamStart m v t + 16 * i))

/-- R373: the copy of an instruction in run `r` of a REPEAT. -/
def TileInstr.inRun (i rep : TileInstr) (r : Nat) : TileInstr :=
  { i with run := r, cycle := i.cycle + r * rep.stride, block := if (blockAt i.op).isSome then i.block + r * rep.blockInc else i.block }

/-- R373: an expanded stream. A REPEAT stays as an element before its runs; one within a span is copied as it stands. -/
def expandFrom : Nat → List TileInstr → List TileInstr
  | 0, _ => []
  | _ + 1, [] => []
  | fuel + 1, i :: rest =>
    if i.op = 0x0B then
      let span := rest.take i.span
      i :: (List.range i.times).flatMap (fun r => span.map (fun j => j.inRun i r)) ++ expandFrom fuel (rest.drop i.span)
    else i :: expandFrom fuel rest

/-- R377: the expanded stream of a tile under a variant. -/
def expanded (m : List Byte) (v t : Nat) : List TileInstr := expandFrom (streamCount m v t + 1) (stream m v t)

/-- The expanded stream without its REPEATs. -/
def issued (m : List Byte) (v t : Nat) : List TileInstr := (expanded m v t).filter (fun i => i.op != 0x0B)

/-! ### Timing (R374) -/

/-- The units of a tile. -/
inductive TileUnit where
  | accUpd
  | lanes
  | accRead
  | outRead
  | rnd
  | rport
  | memRd
  | memWr
  | array
  | pchk
  deriving DecidableEq, Repr

/-- R314: λ, elements per cycle of the lanes. -/
def laneRate (c : Nat) : Nat :=
  if c = 0x30 then 16 else if c = 0x31 then 64
  else if c = 0x01 ∨ c = 0x02 ∨ c = 0x03 ∨ c = 0x21 then 128 else 256

/-- R374: MEM_v. -/
def memCycles : Nat → Nat
  | 0 => 2100
  | 1 => 1800
  | 2 => 1500
  | _ => 1200

/-- The format a ROUND rounds to. -/
def roundFormat (p : OpSlot) (i : TileInstr) : Nat := if i.fmt = 1 then p.projF else p.outF

/-- R373: the output elements of a block that a ROUND rounds. -/
def wholeElements (m : List Byte) (p : OpSlot) (i : TileInstr) : Nat :=
  if i.src = 1 then p.e / (matrixOf m p.matrix).rows * (matrixOf m p.matrix).cols else p.e

/-- The payload that a ROUND writes into its BUF. -/
def roundBytes (m : List Byte) (i : TileInstr) : Nat := payloadBytes (roundFormat (opSlot m i.opslot) i) i.count

/-- The last ROUND into a BUF among instructions already passed, latest first. -/
def lastRound (passed : List TileInstr) (buf : Nat) : Option TileInstr := passed.find? (fun i => i.op == 0x04 && i.buf == buf)

/-- Bytes that a SEND sends of its BUF. -/
def sendBytes (m : List Byte) (passed : List TileInstr) (i : TileInstr) : Nat := match lastRound passed i.buf with
  | some r => roundBytes m r
  | none => 0

/-- R374: units held, occupancy and latency of an instruction under a variant; `passed` are the instructions before
it, latest first. -/
def timing (m : List Byte) (v : Nat) (passed : List TileInstr) (i : TileInstr) : List TileUnit × Nat × Nat :=
  let p := opSlot m i.opslot
  let x := matrixOf m i.matrix
  match i.op with
  | 0x01 => ([.accUpd], ceilDiv p.k 128, 2)
  | 0x02 => ([.lanes, .accUpd], ceilDiv p.e (laneRate p.inF), 6)
  | 0x03 => ([.accRead], ceilDiv p.e 128, 8)
  | 0x04 => ([if i.src = 1 then .outRead else .accRead, .rnd], ceilDiv i.count 64, 12)
  | 0x05 => ([.rport], ceilDiv (sendBytes m passed i) 128 + 1, 0)
  | 0x06 => ([.memRd], ceilDiv (i.rows * x.rowBytes) 64, memCycles v)
  | 0x07 => ([.array], ceilDiv (p.e / x.rows * x.rows * x.cols) (if p.projF = 2 then 4096 else 8192), 24)
  | 0x08 => ([.pchk, .outRead], ceilDiv x.rows 64 + ceilDiv (p.e / x.rows * x.cols) 64, 8)
  | 0x09 => ([.accRead, .memWr], p.k, memCycles v)
  | 0x0A => ([.memRd, .accUpd], p.k, memCycles v)
  | _ => ([], 0, 0)

/-- An instruction with its timing: units, end of occupancy and ready cycle. -/
structure Timed where
  i : TileInstr
  units : List TileUnit
  free : Nat
  ready : Nat
  deriving DecidableEq, Repr

/-- The timed instructions of a stream; the second list holds those passed, latest first. -/
def timedFrom (m : List Byte) (v : Nat) : List TileInstr → List TileInstr → List Timed
  | [], _ => []
  | i :: rest, passed =>
    let t := timing m v passed i
    ⟨i, t.1, i.cycle + t.2.1, i.cycle + t.2.1 + t.2.2⟩ :: timedFrom m v rest (i :: passed)

/-- The timed instructions of a tile under a variant. -/
def timedStream (m : List Byte) (v t : Nat) : List Timed := timedFrom m v (issued m v t) []

end Sys2Proof.Machine
end

