-- ==== Sys2Proof/Machine/GroupRec.lean ====
section
/-! DEFINITION. The group record (R410 to R415): its fields, its leg and member entries, and check 1 of R415. -/

namespace Sys2Proof.Machine

/-! ### Header (R411) -/

/-- OPERATION. -/
def grOp (r : List Byte) : Nat := le r 0 1
/-- IN_FORMAT. -/
def grIn (r : List Byte) : Nat := le r 1 1
/-- OUT_FORMAT. -/
def grOut (r : List Byte) : Nat := le r 2 1
/-- ROUNDING. -/
def grRounding (r : List Byte) : Nat := le r 3 1
/-- LAUNCH: HOST. -/
def grHost (r : List Byte) : Bool := le r 4 1 == 1
/-- ORDER: FENCED. -/
def grFenced (r : List Byte) : Bool := le r 5 1 == 1
/-- FLAGS.REPLACE. -/
def grReplace (r : List Byte) : Bool := (le r 6 1).testBit 0
/-- FLAGS.HAS_PARENT. -/
def grHasParent (r : List Byte) : Bool := (le r 6 1).testBit 1
/-- LEGS. -/
def grLegs (r : List Byte) : Nat := le r 7 1
/-- E. -/
def grE (r : List Byte) : Nat := le r 8 4
/-- MEMBERS. -/
def grMembers (r : List Byte) : Nat := le r 12 4
/-- ROOT. -/
def grRoot (r : List Byte) : Nat := le r 16 4
/-- GROUP. -/
def grGroup (r : List Byte) : Nat := le r 20 4
/-- MOORING_BASE. -/
def grMooring (r : List Byte) : Nat := le r 24 4
/-- MANIFEST. -/
def grManifest (r : List Byte) : Nat := le r 28 2
/-- AREA_ADDR. -/
def grArea (r : List Byte) : Nat := le r 32 8
/-- REGION_BYTES. -/
def grRegion (r : List Byte) : Nat := le r 40 5
/-- SLOT_BYTES. -/
def grSlotBytes (r : List Byte) : Nat := le r 48 5
/-- DATA_SLOTS. -/
def grDataSlots (r : List Byte) : Nat := le r 56 4
/-- RECORD_SLOTS. -/
def grRecordSlots (r : List Byte) : Nat := le r 60 4
/-- RECORD_OFFSET. -/
def grRecordOffset (r : List Byte) : Nat := le r 64 5
/-- PARENT_ADDRESS. -/
def grParentAddress (r : List Byte) : List Byte := slice r 72 16
/-- PARENT_GROUP. -/
def grParentGroup (r : List Byte) : Nat := le r 88 4
/-- PARENT_SOURCE. -/
def grParentSource (r : List Byte) : Nat := le r 92 4
/-- PROJ_OFFSET. -/
def grProjOffset (r : List Byte) : Nat := le r 96 5
/-- PARENT_PARTS. -/
def grParentParts (r : List Byte) : Nat := le r 104 2

/-- R412: BARRIER and JOB_BROADCAST have no legs. -/
def grNoLegs (r : List Byte) : Bool := grOp r == 6 || grOp r == 7
/-- R412: a reducing operation. -/
def grReducing (r : List Byte) : Bool := decide (1 ≤ grOp r ∧ grOp r ≤ 3)
/-- R412: ALL_GATHER or BROADCAST, one contributor for each block. -/
def grSingle (r : List Byte) : Bool := grOp r == 4 || grOp r == 5

/-- Landing moorings of a group (R411). -/
def grMoorings (r : List Byte) : Nat := if grOp r = 6 then 1 else if grOp r = 7 then 0 else 2 * grLegs r

/-! ### Legs and members (R413, R414) -/

/-- OPSLOT of leg `l`. -/
def grLegSlot (r : List Byte) (l : Nat) : Nat := le r (128 + 8 * l) 2
/-- FIRST_MEMBER of leg `l`. -/
def grLegFirst (r : List Byte) (l : Nat) : Nat := le r (128 + 8 * l + 4) 4
/-- Leg `l` is the top. -/
def grIsTop (r : List Byte) (l : Nat) : Bool := l + 1 == grLegs r
/-- One past the last member that leaf `l` serves. -/
def grLegEnd (r : List Byte) (l : Nat) : Nat := if l + 2 < grLegs r then grLegFirst r (l + 1) else grMembers r
/-- The leaf that serves member `m`. -/
def grLeafOf (r : List Byte) (m : Nat) : Nat :=
  ((List.range (grLegs r - 1)).filter (fun l => decide (grLegFirst r l ≤ m))).length - 1

/-- Offset of member entry `m`. -/
def grMemberAt (r : List Byte) (m : Nat) : Nat := 128 + 8 * grLegs r + 32 * m
/-- ADDRESS of a member. -/
def grAddress (r : List Byte) (m : Nat) : List Byte := slice r (grMemberAt r m) 16
/-- MEMORY_KEY of a member. -/
def grKey (r : List Byte) (m : Nat) : Nat := le r (grMemberAt r m + 16) 4
/-- RELAY_GROUP of a member. -/
def grRelayGroup (r : List Byte) (m : Nat) : Nat := le r (grMemberAt r m + 20) 4
/-- BASE of a member. -/
def grBase (r : List Byte) (m : Nat) : Nat := le r (grMemberAt r m + 24) 5
/-- A member is a relay device. -/
def grIsRelay (r : List Byte) (m : Nat) : Bool := le r (grMemberAt r m + 29) 1 == 1
/-- The members with an IPv6 address. -/
def grMembersAt (r : List Byte) (a : List Byte) : List Nat := (List.range (grMembers r)).filter (fun m => grAddress r m == a)
/-- Some member is a relay device. -/
def grHasRelay (r : List Byte) : Bool := (List.range (grMembers r)).any (grIsRelay r)

/-- R419: contributions to one block of leg `l`. -/
def grSources (r : List Byte) (l : Nat) : Nat :=
  if !grIsTop r l then grLegEnd r l - grLegFirst r l
  else if grSingle r then 1
  else if grLegs r = 1 then grMembers r
  else grLegs r - 1

/-- R421: the exact form that leaves put out. -/
def exactForm (inF : Nat) : Nat := if layoutOf inF = .integer then 0x31 else 0x30

/-! ### Check 1 of R415 -/

/-- An offset at fault where a condition fails. -/
def fieldFault (ok : Bool) (off : Nat) : List Nat := if ok then [] else [off]

/-- Bytes of a range that are not zero. -/
def nonZeroBytes (r : List Byte) (lo hi : Nat) : List Nat :=
  ((List.range (hi - lo)).map (fun k => lo + k)).filter (fun o => le r o 1 != 0)

/-- R412: LEGS fits the operation. -/
def legsOk (r : List Byte) : Bool :=
  if grNoLegs r then grLegs r == 0 else if grSingle r then grLegs r == 1 else decide (1 ≤ grLegs r ∧ grLegs r ≤ 33)

/-- R411: formats and block size. -/
def formatFaults (r : List Byte) : List Nat :=
  if grNoLegs r then fieldFault (grIn r == 0) 1 ++ fieldFault (grOut r == 0) 2 ++ fieldFault (grE r == 0) 8
  else fieldFault (formatDefined (grIn r)) 1 ++
    fieldFault (outAllowed (layoutOf (grIn r)) (grOut r) && (!grSingle r || grOut r == grIn r)) 2 ++
    fieldFault (blockSizeOk (grIn r) (grE r)) 8

/-- R410, R413, R415: faults reported at MEMBERS. -/
def memberFaults (r : List Byte) : List Nat :=
  let inRange := decide (1 ≤ grMembers r ∧ grMembers r ≤ 4096)
  let lengthOk := !(legsOk r && inRange) || r.length == 128 + 8 * grLegs r + 32 * grMembers r
  let oneLeg := !(grLegs r == 1 && grReducing r) || decide (grMembers r ≤ 128)
  fieldFault (inRange && lengthOk && oneLeg) 12

/-- A power of two up to 65,536. -/
def powerOfTwo (n : Nat) : Bool := (List.range 17).any (fun k => n == 2 ^ k)

/-- R411: the header's faults. -/
def headerFaults (r : List Byte) : List Nat :=
  fieldFault (decide (1 ≤ grOp r ∧ grOp r ≤ 7)) 0 ++ formatFaults r ++
  fieldFault (decide (grRounding r < 8) && grRounding r % 4 != 3) 3 ++ fieldFault (decide (le r 4 1 ≤ 1)) 4 ++
  fieldFault (decide (le r 5 1 ≤ 1)) 5 ++ fieldFault (decide (le r 6 1 ≤ 3)) 6 ++ fieldFault (legsOk r) 7 ++ memberFaults r ++
  fieldFault (if grOp r = 3 ∨ grOp r = 5 then decide (grRoot r < grMembers r) else grRoot r == 0) 16 ++
  fieldFault (grReplace r || grGroup r == 0) 20 ++
  fieldFault (if grNoLegs r then grManifest r == 0xFFFF else decide (grManifest r ≤ 127)) 28 ++ nonZeroBytes r 30 32 ++
  fieldFault (grArea r % 4096 == 0 && (grOp r != 6 || grArea r == 0)) 32 ++ nonZeroBytes r 45 48 ++ nonZeroBytes r 53 56 ++
  fieldFault (decide (1 ≤ grDataSlots r ∧ grDataSlots r ≤ 65536)) 56 ++ fieldFault (powerOfTwo (grRecordSlots r)) 60 ++ nonZeroBytes r 69 72 ++
  fieldFault (grHasParent r || allZero (grParentAddress r)) 72 ++ nonZeroBytes r 101 104 ++
  fieldFault (if grHasParent r then decide (1 ≤ grParentParts r) else grParentParts r == 0) 104 ++ nonZeroBytes r 106 128

/-- R413: the faults of leg entry `l`. -/
def legFaults (r : List Byte) (l : Nat) : List Nat :=
  let o := 128 + 8 * l
  let top := grIsTop r l
  let first := grLegFirst r l
  let run := grLegEnd r l - first
  let place := if top then first == 0 else (l != 0 || first == 0) && decide (first < grLegEnd r l ∧ run ≤ 128)
  fieldFault (le r (o + 2) 1 == bit top) (o + 2) ++ nonZeroBytes r (o + 3) (o + 4) ++ fieldFault place (o + 4)

/-- R414: the faults of member entry `m`. -/
def entryFaults (r : List Byte) (m : Nat) : List Nat :=
  let o := grMemberAt r m
  let relay := grIsRelay r m
  fieldFault (!relay || grKey r m == 0) (o + 16) ++ fieldFault (relay || grRelayGroup r m == 0) (o + 20) ++
    fieldFault (!relay || grBase r m == 0) (o + 24) ++ fieldFault (decide (le r (o + 29) 1 ≤ 1)) (o + 29) ++ nonZeroBytes r (o + 30) (o + 32)

/-- Check 1 of R415: the offset of the first field at fault: the header in byte order, then legs and members. -/
def recordFault (r : List Byte) : Option Nat :=
  ((headerFaults r).min?).or
    ((((List.range (grLegs r)).flatMap (legFaults r)).min?).or (((List.range (grMembers r)).flatMap (entryFaults r)).min?))

/-- Check 2 of R415. -/
def implicitOk (r : List Byte) : Bool := grHost r || (!grHasParent r && !grHasRelay r)

/-- Check 5 of R415. -/
def slotsFit (r : List Byte) : Bool :=
  decide (grDataSlots r * grSlotBytes r ≤ grRecordOffset r ∧ grRecordOffset r + 64 * grRecordSlots r ≤ grRegion r)

/-- The header fields by their offsets, in byte order. -/
def headerFields : List Nat :=
  [0, 1, 2, 3, 4, 5, 6, 7, 8, 12, 16, 20, 24, 28, 30, 32, 40, 48, 56, 60, 64, 72, 88, 92, 96, 104, 106, 128]

/-- R417: the first field that a REPLACE of an armed JOB_BROADCAST group may not change. -/
def broadcastChange (old new : List Byte) : Option Nat :=
  ((headerFields.zip (headerFields.drop 1)).find? (fun ab =>
    ab.1 != 12 && ab.1 != 20 && (if ab.1 = 6 then le old 6 1 / 2 != le new 6 1 / 2 else slice old ab.1 (ab.2 - ab.1) != slice new ab.1 (ab.2 - ab.1)))).map (fun ab => ab.1)

/-! ### Operations of a group (R412, R432) -/

/-- R432: blocks of an operation of `n` elements. -/
def blocksOf (n e : Nat) : Nat := ceilDiv n e

/-- R432: elements of block `b`. -/
def blockElems (n e b : Nat) : Nat := min e (n - b * e)

/-- R412: the contributor of block `b` of `nb` in ALL_GATHER or BROADCAST. -/
def contributor (r : List Byte) (nb b : Nat) : Nat := if grOp r = 5 then grRoot r else b * grMembers r / nb

/-- R412: the members that receive block `b` of `nb`. -/
def receivers (r : List Byte) (nb b : Nat) : List Nat :=
  match grOp r with
  | 2 => [b / (nb / grMembers r)]
  | 3 => [grRoot r]
  | _ => List.range (grMembers r)

/-- R458: an element count that a group's operations may have. -/
def countOk (r : List Byte) (projects : Bool) (n : Nat) : Bool :=
  if grNoLegs r then n == 0
  else (!isMx (grIn r) || n % 32 == 0) && (!(grOp r == 2 || grOp r == 4) || n % (grMembers r * grE r) == 0) && (!projects || n % grE r == 0)

/-! ### Groups and manifest slots -/

/-- A manifest slot beyond its registers. -/
def State.mslot (s : State) (k : Nat) : SlotSt := sget SlotSt.reset s.re.slots k

/-- A group by INDEX, retained ones too. -/
def State.group (s : State) (i : Nat) : Option GroupSt := (s.cl.groups.find? (fun kv => kv.1 == i)).map (fun kv => kv.2)

/-- R416: the handle of a group. -/
def handleOf (i : Nat) (g : GroupSt) : Nat := g.tag * 65536 + i

/-- R416, R457: the registered group that a handle names, with its INDEX. -/
def State.groupBy (s : State) (handle : Nat) : Option (Nat × GroupSt) :=
  match s.group (handle % 65536) with
  | some g => if handleOf (handle % 65536) g = handle ∧ g.retained.isNone = true then some (handle % 65536, g) else none
  | none => none

/-- The record of a group. -/
def State.record (s : State) (i : Nat) : List Byte := match s.group i with
  | some g => g.record
  | none => []

/-- The operation slot of a leg. -/
def State.legSlot (s : State) (r : List Byte) (l : Nat) : OpSlot := opSlot (s.mslot (grManifest r)).image (grLegSlot r l)

end Sys2Proof.Machine
end

