-- ==== Sys2Proof/Machine/Flags.lean ====
section
/-! DEFINITION. Status bits: what a plain register write and read do to each access code (R15, R103 to R105),
the port layouts (R148), and the readiness bits with BT_READY_CHANGE (R122 to R129). -/

namespace Sys2Proof.Machine

/-! ### Access codes -/

/-- R111: the RWL fields of the block of an offset are locked. -/
def State.locked (s : State) (off : Nat) : Bool := (s.rd BT_LOCK_LOCK 0).testBit (off / 0x100000)

/-- R15: the word a register holds after a write of `v`, field by field of its access codes: RW takes the
value, W1C clears where `v` has ones, W1S sets, RWL takes the value unless the block is locked; RO and WO keep. -/
def accessWrite (r : Reg) (lock : Bool) (old v : Nat) : Nat :=
  let m := if lock then r.rw else r.rw ||| r.rwl
  (old ^^^ (old &&& (m ||| (v &&& r.w1c)))) ||| (v &&& m) ||| (v &&& r.w1s)

/-- R15: a plain write to element `i` of a register. -/
def State.plainWrite (s : State) (r : Reg) (i : Nat) (v : Word) : State :=
  let off := r.offset i
  s.setWord off (BitVec.ofNat 64 (accessWrite r (s.locked off) (s.word off).toNat v.toNat))

/-- R105: a read of a companion count register returns it and clears it. -/
def State.readCompanion (s : State) (off : Nat) : Word × State :=
  (s.word (companionOf off), s.setWord (companionOf off) 0)

/-! ### Lane groups and ports (R146 to R148) -/

/-- R148: the rate of logical port `n` in units of 100 Gb/s under a LAYOUT, zero where the port is absent. -/
def layoutRate (layout k : Nat) : Nat :=
  match layout, k with
  | 0, _ => 4
  | 1, 0 => 8
  | 1, 1 => 0
  | 1, _ => 4
  | 2, 0 => 4
  | 2, 1 => 4
  | 2, 2 => 8
  | 3, 0 => 8
  | 3, 2 => 8
  | 4, 0 => 16
  | _, _ => 0

/-- The rate of port `n` in units of 100 Gb/s; zero where it is absent. -/
def State.portRate (s : State) (n : Nat) : Nat := layoutRate (s.rd PC_LANE_GROUP_LAYOUT (n / 4)) (n % 4)

/-- R148: the lanes a port has. -/
def State.portLanes (s : State) (n : Nat) : Nat := s.portRate n / 2

/-- R148: the first logical lane of a port within its group. -/
def portFirstLane (n : Nat) : Nat := 2 * (n % 4)

/-- R152: the port is enabled. -/
def State.portEnabled (s : State) (n : Nat) : Bool := s.flag PC_PORT_CFG_ENABLE n

/-- R152: the port is a fabric port. -/
def State.isFabric (s : State) (n : Nat) : Bool := s.flag PC_PORT_CFG_KIND n

/-- R154: LINK of a port: 0 DOWN, 1 TRAINING, 2 LINK_INIT, 3 UP. -/
def State.link (s : State) (n : Nat) : Nat := s.rd PC_PORT_STATUS_LINK n

/-- R213: the port can take traffic: its link is UP and it is ready. -/
def State.portUsable (s : State) (n : Nat) : Bool := s.link n == 3 && s.portReady n

/-! ### Readiness (R122 to R129) -/

/-- R123: what FULL asks for. -/
def State.fullService (s : State) : Bool :=
  (List.range 9).all s.dieReady && s.readyAt (0, 15) && (List.range 8).all s.pipeReady &&
  (List.range 12).all s.hbmReady && s.timeReady 0 && (List.range 16).all (fun e => s.readyAt (0, 38 + e)) &&
  (List.range 4).all (fun m => s.readyAt (0, 54 + m)) && (List.range 176).all s.tileReady &&
  (List.range 1024).all (fun n => s.portRate n == 0 || !s.portEnabled n || s.portReady n)

/-- R129: one readiness bit changes: the map, BT_READY_CHANGE and the event. -/
def State.readyBit (s : State) (place : Nat × Nat) (up : Bool) (kind logical : Nat) : State :=
  let w := s.rd BT_READY_MAP_BITS place.1
  if w.testBit place.2 = up then s
  else
    let t := s.wr BT_READY_MAP_BITS place.1 (w ^^^ 2 ^ place.2)
    if up then (t.setErr BT_READY_CHANGE_ROSE 0).raise { code := 0x0102, kind := kind, logical := logical }
    else (t.setErr BT_READY_CHANGE_FELL 0).raise { code := 0x0103, kind := kind, logical := logical }

/-- R123: FULL follows its condition, and that it stood is remembered (R625). DESIGN CHOICE (log 18): FULL is a readiness bit of BT_READY_CHANGE too. -/
def State.settleFull (s : State) : State :=
  let full := s.fullService
  State.readyBit { s with fh := { s.fh with fullSeen := s.fh.fullSeen || full } } (0, 63) full 0 63

/-- The resource kind (R619) and logical number an event about a function carries; functions without a kind
carry kind 0. -/
def fnResource : Fn → Nat × Nat
  | .die d => (11, d.val)
  | .pilot => (0, 0)
  | .pipe p => (3, p.val)
  | .hbm h => (5, h.val)
  | .time d => (0, d.val)
  | .engine e => (7, e.val)
  | .laser m => (0, m.val)
  | .port n => (2, n.val)
  | .tile t => (4, t.val)

/-- One function's bit rises, with no look at FULL. -/
def State.riseBit (s : State) (f : Fn) : State := s.readyBit (fnPlace f) true (fnResource f).1 (fnResource f).2

/-- One function's bit falls, with no look at FULL. -/
def State.fallBit (s : State) (f : Fn) : State := s.readyBit (fnPlace f) false (fnResource f).1 (fnResource f).2

/-- R124: the functions whose row names a function in its last column. -/
def dependents : Fn → List Fn
  | .die d =>
    if d.val < 4 then [.pipe (Fin.ofNat 8 (2 * d.val)), .pipe (Fin.ofNat 8 (2 * d.val + 1))]
    else if d.val < 6 then
      (List.range 6).map (fun k => Fn.hbm (Fin.ofNat 12 (6 * (d.val - 4) + k))) ++
      (List.range 512).map (fun k => Fn.port (Fin.ofNat 1024 (512 * (d.val - 4) + k)))
    else if d.val < 8 then (List.range 88).map (fun k => Fn.tile (Fin.ofNat 176 (88 * (d.val - 6) + k)))
    else (List.range 8).map (fun k => Fn.die (Fin.ofNat 9 k)) ++ [.time 0, .time 1]
  | .pilot =>
    (List.range 8).map (fun k => Fn.pipe (Fin.ofNat 8 k)) ++ (List.range 12).map (fun k => Fn.hbm (Fin.ofNat 12 k)) ++
    (List.range 4).map (fun k => Fn.laser (Fin.ofNat 4 k)) ++ (List.range 176).map (fun k => Fn.tile (Fin.ofNat 176 k))
  | .pipe p => (List.range 128).map (fun k => Fn.port (Fin.ofNat 1024 (128 * p.val + k)))
  | .laser m => (List.range 4).map (fun k => Fn.engine (Fin.ofNat 16 (4 * m.val + k)))
  | .engine e => (List.range 64).map (fun k => Fn.port (Fin.ofNat 1024 (64 * e.val + k)))
  | .hbm _ => []
  | .time _ => []
  | .port _ => []
  | .tile _ => []

/-- R128: a function that is ready falls, and after it every ready function that needs it. -/
def State.fallWith (s : State) (f : Fn) : Nat → State
  | 0 => s.fallBit f
  | fuel + 1 => if s.ready f then (dependents f).foldl (fun t g => State.fallWith t g fuel) (s.fallBit f) else s

/-- R128: a function leaves service. -/
def State.fall (s : State) (f : Fn) : State := (s.fallWith f 4).settleFull

/-- A function's bit rises. -/
def State.rise (s : State) (f : Fn) : State := (s.riseBit f).settleFull

end Sys2Proof.Machine
end

