-- ==== Sys2Proof/Machine/Operands.lean ====
section
/-! DEFINITION. The operand forms of descriptors (R75, R76, R80): where each opcode's fields lie, what check 2
of R79 accepts in them, the LENGTH each opcode carries, and its lowest privilege level. -/

namespace Sys2Proof.Machine

/-- OPCODE of a descriptor (R75). -/
def Desc.opcode (d : Desc) : Nat := le d.raw 0 1
/-- FLAGS of a descriptor. -/
def Desc.flags (d : Desc) : Nat := le d.raw 1 1
/-- FLAGS.FENCE. -/
def Desc.fence (d : Desc) : Bool := d.flags.testBit 7
/-- FLAGS.INTERRUPT. -/
def Desc.interrupt (d : Desc) : Bool := d.flags.testBit 6
/-- PARTITION of a descriptor. -/
def Desc.partition (d : Desc) : Nat := le d.raw 2 2
/-- TAG of a descriptor. -/
def Desc.tag (d : Desc) : Nat := le d.raw 4 4
/-- HOST_ADDR of a descriptor. -/
def Desc.hostAddr (d : Desc) : Nat := le d.raw 8 8
/-- The byte count in LENGTH [39:0]. -/
def Desc.length (d : Desc) : Nat := le d.raw 16 5
/-- A one-byte operand. -/
def Desc.u8 (d : Desc) (o : Nat) : Nat := le d.raw o 1
/-- A two-byte operand. -/
def Desc.u16 (d : Desc) (o : Nat) : Nat := le d.raw o 2
/-- A four-byte operand. -/
def Desc.u32 (d : Desc) (o : Nat) : Nat := le d.raw o 4
/-- An eight-byte operand. -/
def Desc.u64 (d : Desc) (o : Nat) : Nat := le d.raw o 8

/-- What check 2 asks of LENGTH (R80). -/
inductive LenRule where
  /-- HOST_ADDR and LENGTH are both zero. -/
  | none
  /-- LENGTH is exactly this. -/
  | exact (n : Nat)
  /-- LENGTH is at least this. -/
  | atLeast (n : Nat)
  /-- LENGTH is a multiple of 32, at most 65,536 (PROT_UPDATE). -/
  | entries
  /-- Any LENGTH (the DMA opcodes). -/
  | any
  deriving DecidableEq, Repr

/-- The form of an opcode's descriptor: lowest level, LENGTH rule, operand fields as (offset, bytes, in range),
and the offsets at fault where fields break a rule together. -/
structure OpForm where
  level : Nat
  len : LenRule
  fields : List (Nat × Nat × Bool)
  extra : List Nat

/-- The counter class sizes of R309. -/
def counterClassSize : Nat → Nat
  | 1 => 65536
  | 2 => 4194304
  | 3 => 262144
  | 4 => 1048576
  | _ => 0

/-- R250: the blocks of a shadow-compare selector. -/
def shadowBlocks (sel : Nat) : Nat := if sel < 8 then 1024 else if 0x10 ≤ sel ∧ sel ≤ 0x13 then 128 else 0

/-- R84, R77: the unit numbers a target kind has (any number where the unit is ignored). -/
def targetUnitOk (kind u : Nat) : Bool :=
  match kind with
  | 0x01 => u < 2
  | 0x02 => u < 8
  | 0x05 => u < 176
  | 0x06 => u < 176
  | _ => true

/-- R76, R80: the form of a descriptor by its opcode; none where the opcode is not in the table. DESIGN CHOICE (log 130): a DMA
of kind 0x05 or 0x06 with a PARTITION other than 0xFFFF is bad at that field, as R657 states for kind 0x07. DESIGN CHOICE
(log 133): so is the offset of registers that run past the end of BAR0. -/
def opForm (d : Desc) : Option OpForm :=
  match d.opcode with
  | 0x00 => some ⟨2, .none, [], []⟩
  | 0x01 | 0x02 =>
    some ⟨2, .exact (8 * d.u16 28), [(24, 4, d.u32 24 + 8 * d.u16 28 ≤ 0x4000000), (28, 2, 1 ≤ d.u16 28 ∧ d.u16 28 ≤ 512)], []⟩
  | 0x03 | 0x04 =>
    some ⟨1, .any, [(24, 1, 1 ≤ d.u8 24 ∧ d.u8 24 ≤ 7), (26, 2, targetUnitOk (d.u8 24) (d.u16 26)), (32, 8, true)],
      if (d.u8 24 = 5 ∨ d.u8 24 = 6 ∨ d.u8 24 = 7) ∧ d.partition ≠ 0xFFFF then [2] else []⟩
  | 0x10 => some ⟨0, .entries, [], []⟩
  | 0x11 => some ⟨0, .none, [], []⟩
  | 0x12 =>
    some ⟨0, .none, [(24, 2, d.u16 24 < 256), (28, 4, true), (32, 4, true), (36, 4, true), (40, 4, true)], []⟩
  | 0x13 => some ⟨0, .none, [(24, 2, d.u16 24 < 256)], []⟩
  | 0x20 | 0x21 => some ⟨1, .exact 64, [(24, 1, d.u8 24 ≠ 0), (25, 1, d.u8 25 ≤ 1)], []⟩
  | 0x22 | 0x23 =>
    some ⟨1, .exact 64, [(24, 1, d.u8 24 = 4 ∨ d.u8 24 = 6),
      (25, 1, if d.u8 24 = 4 then d.u8 25 ≤ 32 else d.u8 25 ≤ 128)], []⟩
  | 0x24 =>
    some ⟨1, .exact (32 * d.u32 32), [(24, 1, shadowBlocks (d.u8 24) ≠ 0), (28, 4, d.u32 28 < shadowBlocks (d.u8 24)),
      (32, 4, 1 ≤ d.u32 32 ∧ d.u32 28 + d.u32 32 ≤ shadowBlocks (d.u8 24))], []⟩
  | 0x30 => some ⟨2, .atLeast 128, [], []⟩
  | 0x31 => some ⟨2, .none, [(24, 4, true)], []⟩
  | 0x32 => some ⟨2, .none, [(24, 4, true), (28, 4, true), (32, 4, true)], []⟩
  | 0x33 => some ⟨2, .none, [(24, 4, true), (28, 4, true)], []⟩
  | 0x34 => some ⟨2, .atLeast 64, [(24, 4, true), (28, 4, true), (32, 4, true)], []⟩
  | 0x35 => some ⟨2, .none, [(24, 4, true), (28, 4, true)], []⟩
  | 0x40 =>
    some ⟨2, .none, [(24, 4, d.u32 24 < 65536), (32, 8, true), (40, 8, true),
      (48, 1, bitsOf (d.u8 48) 5 2 = 0 ∧ bitsOf (d.u8 48) 1 0 ≠ 3)],
      if bitsOf (d.u8 48) 1 0 = 1 ∧ bitsOf (d.u8 48) 6 6 = 0 ∧ d.u64 40 = 0 then [40] else []⟩
  | 0x41 => some ⟨2, .none, [(24, 4, d.u32 24 < 65536), (32, 8, true)], []⟩
  | 0x42 => some ⟨2, .none, [(24, 8, true), (32, 8, true), (40, 8, true)], []⟩
  | 0x43 => some ⟨2, .none, [(24, 8, true), (32, 8, true)], []⟩
  | 0x50 =>
    some ⟨1, .atLeast 256, [(24, 1, d.u8 24 < 128), (25, 1, d.u8 25 = 0), (26, 1, d.u8 26 = 0), (27, 1, d.u8 27 ≤ 1)],
      if d.u8 27 = 1 ∧ d.hostAddr ≠ 0 then [8] else []⟩
  | 0x51 =>
    some ⟨1, .none, [(24, 1, d.u8 24 < 128), (25, 1, d.u8 25 = 0), (26, 1, d.u8 26 = 0), (27, 1, d.u8 27 ≤ 2)], []⟩
  | 0x60 =>
    some ⟨1, .exact (8 * d.u32 32), [(24, 1, counterClassSize (d.u8 24) ≠ 0), (28, 4, d.u32 28 < counterClassSize (d.u8 24)),
      (32, 4, 1 ≤ d.u32 32 ∧ d.u32 28 + d.u32 32 ≤ counterClassSize (d.u8 24))], []⟩
  | 0x70 => some ⟨0, .exact (64 * d.u32 32), [(28, 4, true), (32, 4, 1 ≤ d.u32 32 ∧ d.u32 32 ≤ 4096)], []⟩
  | _ => none

/-- An offset within one of a form's operand fields. -/
def OpForm.covers (f : OpForm) (o : Nat) : Bool := f.fields.any (fun x => decide (x.1 ≤ o ∧ o < x.1 + x.2.1))

/-- The all-ones LENGTH, which check 2 leaves to check 7 (R80). -/
def allOnesLength : Nat := 0xFFFFFFFFFF

/-- R80: the offset at fault where LENGTH or HOST_ADDR breaks the opcode's rule. -/
def lengthFaults (d : Desc) (r : LenRule) : List Nat :=
  if d.length = allOnesLength then []
  else match r with
    | .none => (if d.hostAddr ≠ 0 then [8] else []) ++ (if d.length ≠ 0 then [16] else [])
    | .exact n => if d.length = n then [] else [16]
    | .atLeast n => if n ≤ d.length then [] else [16]
    | .entries => if d.length % 32 = 0 ∧ d.length ≤ 65536 then [] else [16]
    | .any => []

/-- R79 check 2: the offset of the first bad byte, if any. -/
def check2 (d : Desc) (f : OpForm) : Option Nat :=
  let faults :=
    (if bitsOf d.flags 5 0 ≠ 0 then [1] else []) ++
    (if 256 ≤ d.partition ∧ d.partition ≠ 0xFFFF then [2] else []) ++
    ((List.range 3).map (fun i => 21 + i)).filter (fun o => d.u8 o ≠ 0) ++
    lengthFaults d f.len ++
    (f.fields.filter (fun x => !x.2.2)).map (fun x => x.1) ++
    ((List.range 40).map (fun i => 24 + i)).filter (fun o => !f.covers o && d.u8 o ≠ 0) ++ f.extra
  faults.min?

/-- R76, R80: the opcode reads or writes host memory at HOST_ADDR. -/
def Desc.namesHost (d : Desc) (f : OpForm) : Bool :=
  f.len ≠ .none && d.length ≠ 0 && !(d.opcode == 0x50 && d.u8 27 == 1)

/-- R76: the element counts check 7 tests for the all-ones value. -/
def Desc.elementCountBad (d : Desc) : Bool :=
  (d.opcode == 0x32 || d.opcode == 0x34) && d.u32 32 == 0xFFFFFFFF

end Sys2Proof.Machine
end

