-- ==== Sys2Proof/Machine/Host.lean ====
section
/-! DEFINITION. The host interface: rings, doorbells, completions and interrupts (R57 to R74, R654), the checks
every descriptor passes (R79, R80, R659), and the run of a descriptor. -/

namespace Sys2Proof.Machine

/-! ### When a command can act -/

/-- The device is out of reset and not stopped by R595, R636 or R639: every clock domain runs. -/
def State.live (s : State) : Bool := s.bt.por && !s.bt.stopped && !s.bt.held

/-- The next state of a command that acts only while the device is live. -/
def whenLive (f : State → State) (s : State) : Res := .next (if s.live then f s else s)

/-- R655: the device is live, configuration space answers and the host has set the BARs. -/
def State.barsSet (s : State) : Bool := s.live && s.hi.answering && s.hi.config.memory

/-- R46, R52, R121, R655: BAR accesses are performed: the BARs are set and the function is not in D3hot. -/
def State.barOpen (s : State) : Bool := s.barsSet && !s.hi.d3hot

/-- The next state of a command that is an access to a BAR. R52: in D3hot it ends with Unsupported Request. -/
def whenBar (f : State → State) (s : State) : Res :=
  .next (if s.barOpen then f s else if s.barsSet then s.emit .unsupportedRequest else s)

/-- R46: a write to a register of a die that is not ready is discarded and reported. -/
def State.discardWrite (s : State) (off die : Nat) (v : Word) : State :=
  s.raise { code := 0x0007, logical := off, kind := 15, die := die, detail0 := off, detail1 := v.toNat }

/-- R46: the registers of a die are reached: those of the control die always, those of another while it is ready. -/
def State.atReach (s : State) (off : Nat) : Bool := dieOf off == 8 || s.dieReady (dieOf off)

/-- R24, R46: a write of `v` to the register at `off` acts as `f` where the register's die is reached; it waits where a bridge on
its way retrains. -/
def State.onReadyDie (s : State) (off : Nat) (v : Word) (f : State → State) : State :=
  if s.atReach off then s.acrossTo (dieOf off) (.write off v) f else s.discardWrite off (dieOf off) v

/-- The next state of a command that writes one register. -/
def whenReg (off : Nat) (v : Word) (f : State → State) (s : State) : Res := whenBar (fun t => t.onReadyDie off v f) s

/-! ### Status codes (R83) -/

/-- The completion status codes of R83. -/
inductive Status where
  | success | successAfterReplay | casMiscompare
  | badOpcode | badField | badLength | lengthExceedsRegion | badAlignment | badPartition
  | notPermitted | protectionFault
  | noReductionMemory | quotaExceeded | tableFull | notFound | exists_ | busy | partitionDraining | notReady
  | hostAccessError | dataUncorrectable | aborted
  | manifestRejected | checkMismatch
  deriving DecidableEq, Repr

/-- R83: the code of a status. -/
def statusCode : Status → Nat
  | .success => 0x0000 | .successAfterReplay => 0x0001 | .casMiscompare => 0x0002
  | .badOpcode => 0x0100 | .badField => 0x0101 | .badLength => 0x0102 | .lengthExceedsRegion => 0x0103
  | .badAlignment => 0x0104 | .badPartition => 0x0105
  | .notPermitted => 0x0200 | .protectionFault => 0x0201
  | .noReductionMemory => 0x0300 | .quotaExceeded => 0x0301 | .tableFull => 0x0302 | .notFound => 0x0303
  | .exists_ => 0x0304 | .busy => 0x0305 | .partitionDraining => 0x0306 | .notReady => 0x0307
  | .hostAccessError => 0x0400 | .dataUncorrectable => 0x0401 | .aborted => 0x0402
  | .manifestRejected => 0x0500 | .checkMismatch => 0x0501

/-! ### Rings -/

/-- A ring's state beyond its registers. -/
def State.ring (s : State) (n : Nat) : Ring := sget Ring.reset s.hi.rings n

/-- The state with a ring's state replaced. -/
def State.setRing (s : State) (n : Nat) (r : Ring) : State :=
  { s with hi := { s.hi with rings := sset Ring.reset n r s.hi.rings } }

/-- R58: a ring is enabled. -/
def State.ringEnabled (s : State) (n : Nat) : Bool := s.flag HI_RING_CFG_ENABLE n

/-- R58: the SQ size S. -/
def State.sqSize (s : State) (n : Nat) : Nat := 2 ^ s.rd HI_RING_CFG_SQ_LOG2 n

/-- R58: the CQ size. -/
def State.cqSize (s : State) (n : Nat) : Nat := 2 ^ s.rd HI_RING_CFG_CQ_LOG2 n

/-- R66: the descriptors of a ring that are fetched and will take a CQ slot. -/
def State.outstanding (s : State) (n : Nat) : List Desc := s.hi.descs.filter (fun d => d.ring == n && !d.silent)

/-- R654: completions written and not yet consumed. -/
def Ring.unconsumed (r : Ring) : Nat := wrapSub 32 r.written r.consumed

/-- R61: QUIESCED follows its meaning: the ring is disabled and holds no work. -/
def State.settleQuiesced (s : State) (n : Nat) : State :=
  s.wr HI_RING_STATUS_QUIESCED n (bit (!s.ringEnabled n && (s.outstanding n).isEmpty))

/-- R73: an armed CQ sends its vector and disarms. -/
def State.ringInterrupt (s : State) (n : Nat) : State :=
  (s.setRing n { s.ring n with armed := false }).sendVector (s.rd HI_RING_CFG_VECTOR n)

/-- The fetched descriptors with one removed. -/
def removeDesc (d : Desc) (l : List Desc) : List Desc :=
  l.filter (fun e => e.id != d.id)

/-- The state with a fetched descriptor taken off the list. -/
def State.dropDesc (s : State) (d : Desc) : State := { s with hi := { s.hi with descs := removeDesc d s.hi.descs } }

/-- The state with a fetched descriptor replaced by its next form. -/
def State.updateDesc (s : State) (d d' : Desc) : State :=
  let l := s.hi.descs.map (fun e => if e.id == d.id then d' else e)
  { s with hi := { s.hi with descs := l } }

/-- R11, R81: the 32 bytes of a completion entry. -/
def Completion.bytes (c : Completion) : List Byte :=
  natLe 4 c.tag ++ natLe 2 c.status ++ natLe 1 0 ++ natLe 1 (128 * bit c.phase) ++ natLe 4 c.sqHead ++ natLe 4 c.index ++
  natLe 8 c.result ++ natLe 4 c.generation ++ natLe 4 c.detail

/-- R57, R70: the host address of a slot of a ring's CQ. -/
def State.cqSlotAddress (s : State) (n slot : Nat) : Nat := (s.rd HI_RING_CQ_BASE_ADDR n + 32 * slot) % 2 ^ 64

/-- R73: MOD_COUNT unconsumed completions are present. -/
def State.countDue (s : State) (n : Nat) : Bool :=
  let m := s.rd HI_RING_CFG_MOD_COUNT n
  decide (m ≠ 0 ∧ m ≤ (s.ring n).unconsumed)

/-- R70, R81: the entry that completes a descriptor, with its place. -/
def completionOf (s : State) (d : Desc) (st : Status) (result detail : Nat) : Completion :=
  let c := (s.ring d.ring).written
  { tag := d.tag, status := statusCode st, phase := c / s.cqSize d.ring % 2 == 0,
    sqHead := s.rd HI_RING_STATUS_SQ_HEAD d.ring, index := d.index, result := result % 2 ^ 64,
    generation := d.gen, detail := detail % 2 ^ 32 }

/-- R69, R70, R73: a descriptor completes: its entry is written to the next CQ slot, the vector is sent where an
armed CQ reaches MOD_COUNT or the descriptor asked for it, and the descriptor is done. R107: the outcome of a
descriptor that a host port reset overtook is discarded. -/
def State.complete (s : State) (d : Desc) (st : Status) (result detail : Nat) : State :=
  if d.silent then s.dropDesc d
  else
    let n := d.ring
    let r := s.ring n
    let slot := r.written % s.cqSize n
    let t := (s.dropDesc d).toHost (.completion n slot (s.cqSlotAddress n slot) (completionOf s d st result detail).bytes)
    let u := t.setRing n { r with written := wrapAdd 32 r.written 1 }
    State.settleQuiesced (if r.armed && (u.countDue n || d.interrupt) then u.ringInterrupt n else u) n

/-- A data write of a descriptor to host memory, with Relaxed Ordering (R51), discarded for one a host port reset overtook
(R107). -/
def State.descWrite (s : State) (d : Desc) (addr : Nat) (data : List Byte) : State :=
  if d.silent || data.isEmpty then s else s.toHost (.hostWrite addr data true)

/-- The bytes a descriptor reads at HOST_ADDR, where the read of LENGTH bytes did not fail. -/
def hostBytes (d : Desc) (data : HostData) : Option (List Byte) :=
  match data with
  | some bs => if d.length ≤ bs.length then some (bs.take d.length) else none
  | none => none

/-! ### The protection table (R94) -/

/-- The key of an entry: its kind and index. -/
def protKey (kind index : Nat) : Nat := kind * 0x100000 + index

/-- An entry of the table in force. -/
def State.protEntry (s : State) (kind index : Nat) : ProtEntry :=
  sget (ProtEntry.reset (protKey kind index)) s.hi.prot (protKey kind index)

/-- The assigned entries of a kind in the table in force, by rising INDEX. -/
def State.assigned (s : State) (kind : Nat) : List ProtEntry :=
  ((s.hi.prot.filter (fun kv => kv.1 / 0x100000 == kind)).map (fun kv => kv.2)).filter (fun e => e.level != 3)

/-- The level of a ring: 0 P0, 1 P1, 2 P2, 3 unassigned. -/
def State.ringLevel (s : State) (n : Nat) : Nat := (s.protEntry 1 n).level

/-- An entry serves a partition: it is its own, or the entry is for every partition. -/
def ProtEntry.serves (e : ProtEntry) (p : Nat) : Bool := e.partition == p || e.partition == 0xFFFF

/-- How a byte range lies against the regions of a kind that serve a partition. -/
inductive Within where
  | inside
  | runsPast
  | outside
  deriving DecidableEq, Repr

/-- R79 check 9: a range of `len` bytes from `a` against the regions that serve partition `p`. -/
def State.regionTest (s : State) (kind p a len : Nat) : Within :=
  let rs := (s.assigned kind).filter (fun e => e.serves p)
  if rs.any (fun e => decide (e.base ≤ a ∧ a + len ≤ e.limit + 1)) then .inside
  else if rs.any (fun e => decide (e.base ≤ a ∧ a ≤ e.limit)) then .runsPast
  else .outside

/-- R79 check 9: the status a range test gives. -/
def withinStatus : Within → Option Status
  | .inside => none
  | .runsPast => some .lengthExceedsRegion
  | .outside => some .protectionFault

/-- R94, check 6: mooring `m` may be used by partition `p` from a ring of a level. DEDUCED (log 15): without a
partition any assigned mooring may be; an unassigned one only by P0. -/
def State.mooringOwned (s : State) (level p m : Nat) : Bool :=
  let es := (s.assigned 3).filter (fun e => decide (e.base ≤ m ∧ m ≤ e.limit))
  if es.isEmpty then level == 0 else p == 0xFFFF || es.any (fun e => e.serves p)

/-- R94, check 6: logical port `n` may be used by partition `p` from a ring of a level, as a mooring may (log 15). -/
def State.portOwned (s : State) (level p n : Nat) : Bool :=
  let e := s.protEntry 2 n
  if e.level = 3 then level == 0 else p == 0xFFFF || e.serves p

/-- R84: the bytes of a Gangway or DMA target by kind. -/
def targetBytes : Nat → Nat
  | 0x01 => 16 * 0x100000
  | 0x02 => 4 * 1048576 * 64
  | 0x03 => 524288 * 64
  | 0x04 => 2 ^ 39
  | 0x05 => 256 * 8192
  | 0x06 => 397312
  | 0x07 => 64 * 0x100000
  | _ => 0

/-! ### Checks before work begins (R79) -/

/-- The BAR0 blocks a register descriptor touches. -/
def regBlocks (d : Desc) : List Nat :=
  let a := d.u32 24 / 0x100000
  let b := (d.u32 24 + 8 * d.u16 28 - 1) / 0x100000
  (List.range (b + 1 - a)).map (fun i => a + i)

/-- R78: the REG_BLOCK bit for a level and direction. -/
def regBlockBit (level : Nat) (write : Bool) : Nat := (if level = 1 then 0 else 2) + bit write

/-- R78: a ring below P0 may make this register access: every block permits it, and no write touches an RWL field. -/
def State.regPermitted (s : State) (d : Desc) (level : Nat) : Bool :=
  let write := d.opcode == 0x02
  (regBlocks d).all (fun b => (s.protEntry 6 b).level != 3 && (s.protEntry 6 b).base.testBit (regBlockBit level write)) &&
  (!write || (List.range (d.u16 28)).all (fun i =>
    match registerAt (d.u32 24 + 8 * i) with
    | some (r, _) => r.rwl == 0
    | none => true))

/-- R79 check 3 with R78: the ring's level allows the opcode and the registers. -/
def State.levelAllows (s : State) (d : Desc) (f : OpForm) : Bool :=
  let level := s.ringLevel d.ring
  decide (level ≤ f.level) && (level == 0 || (d.opcode != 0x01 && d.opcode != 0x02) || s.regPermitted d level)

/-- R79 check 4. -/
def State.partitionAllows (s : State) (d : Desc) : Bool :=
  let rp := (s.protEntry 1 d.ring).partition
  (d.partition == rp || rp == 0xFFFF) && (!(decide (0x30 ≤ d.opcode ∧ d.opcode ≤ 0x35)) || decide (d.partition < 256))

/-- A partition of the table. -/
def State.part (s : State) (p : Nat) : Part := sget Part.reset s.hi.parts p

/-- R79 check 5. -/
def State.partitionStatus (s : State) (d : Desc) : Option Status :=
  if d.partition = 0xFFFF then none
  else match (s.part d.partition).state with
    | .active => none
    | .draining => some .partitionDraining
    | .free => some .badPartition

/-- R79 check 6: register block `b` may be used by partition `p` from a ring of a level: an unassigned one only by P0. The
blocks past EV_ hold no register and have no entry. -/
def State.blockOwned (s : State) (level p b : Nat) : Bool :=
  let e := s.protEntry 6 b
  if 14 ≤ b then true else if e.level = 3 then level == 0 else p == 0xFFFF || e.serves p

/-- R309: the ports whose counters or queues a COUNTER_SNAPSHOT names. -/
def snapshotPorts (d : Desc) : List Nat :=
  let per := match d.u8 24 with
    | 1 => 64
    | 2 => 4096
    | 4 => 1024
    | _ => 0
  if d.opcode = 0x60 ∧ per ≠ 0 then
    let a := d.u32 28 / per
    (List.range ((d.u32 28 + d.u32 32 - 1) / per + 1 - a)).map (fun i => a + i)
  else []

/-- R79 check 6, within R659: the mooring, the ports and the register blocks a descriptor names. -/
def State.ownsNamed (s : State) (d : Desc) : Bool :=
  let level := s.ringLevel d.ring
  if d.opcode = 0x40 ∨ d.opcode = 0x41 then s.mooringOwned level d.partition (d.u32 24)
  else if d.opcode = 0x01 ∨ d.opcode = 0x02 then (regBlocks d).all (s.blockOwned level d.partition)
  else (snapshotPorts d).all (s.portOwned level d.partition)

/-- R79 check 8, within R659. -/
def aligned (d : Desc) : Bool :=
  if d.opcode = 0x01 ∨ d.opcode = 0x02 then d.u32 24 % 8 == 0
  else if d.opcode = 0x42 ∨ d.opcode = 0x43 then d.u64 24 % 8 == 0
  else true

/-- R79 check 9: the device range of a DMA or an atomic. DEDUCED (log 132): for a DMA of HBM a PARTITION of 0xFFFF is none, as for
a Gangway window (R77, R84). DESIGN CHOICE (log 140): the device address of an atomic is tested here though its row reads "Both 0". -/
def State.deviceRange (s : State) (d : Desc) : Option Status :=
  if (d.opcode = 0x03 ∨ d.opcode = 0x04) ∧ d.length ≠ 0 then
    let size := targetBytes (d.u8 24)
    let a := d.u64 32
    if size ≤ a then some .protectionFault
    else if size < a + d.length then some .lengthExceedsRegion
    else if d.u8 24 = 4 then
      if d.partition = 0xFFFF then some .protectionFault else withinStatus (s.regionTest 5 d.partition a d.length)
    else none
  else if d.opcode = 0x42 ∨ d.opcode = 0x43 then withinStatus (s.regionTest 5 d.partition (d.u64 24) 8)
  else if d.opcode = 0x50 ∧ d.u8 27 = 1 ∧ 16 * 0x100000 < d.length then some .lengthExceedsRegion
  else none

/-- R79 check 9: the host range, from which a ring at P0 is exempt (R659). -/
def State.hostRange (s : State) (d : Desc) (f : OpForm) : Option Status :=
  if d.namesHost f && s.ringLevel d.ring != 0 then withinStatus (s.regionTest 4 d.partition d.hostAddr d.length) else none

/-- The functions behind the operation slots of a manifest: its reduction die and the tiles that the slots use. -/
def State.slotsReady (s : State) (die : Nat) (m : List Byte) (slots : List Nat) : Bool :=
  s.dieReady (6 + die) && slots.all (fun k => (List.range (opSlot m k).tileN).all (fun t => s.tileReady (mfFirstTile m + (opSlot m k).tileFirst + t)))

/-- R126, R127: the functions behind a registered group: its moorings, its manifest's die and the tiles of its legs. -/
def State.groupReady (s : State) (r : List Byte) : Bool :=
  (List.range (grMoorings r)).all (fun k => s.stacksReady ((grMooring r + k) / 32768)) &&
  (grNoLegs r || s.slotsReady (grManifest r / 64) (s.mslot (grManifest r)).image ((List.range (grLegs r)).map (grLegSlot r)))

/-- The die that counter `i` of a class of R309 is kept on: port and meter counters on the port dies, those of queues on the
switch dies. -/
def counterDie (cls i : Nat) : Nat :=
  match cls with
  | 1 => i / 64 / 256
  | 2 => 4 + i / 4 / 524288
  | 3 => i / 4 / 16384
  | _ => 4 + i / 524288

/-- R126, R79 check 10: every function the descriptor uses is ready. -/
def State.functionsReady (s : State) (d : Desc) : Bool :=
  let o := d.opcode
  if o = 0x20 ∨ o = 0x21 then (setBits 8 (d.u8 24)).all s.pipeReady
  else if o = 0x22 ∨ o = 0x23 then (List.range 8).all s.pipeReady
  else if o = 0x24 then
    if d.u8 24 < 8 then s.pipeReady (d.u8 24)
    else s.pipeReady (2 * (d.u8 24 - 0x10)) && s.pipeReady (2 * (d.u8 24 - 0x10) + 1)
  else if o = 0x40 ∨ o = 0x41 then s.stacksReady (d.u32 24 / 32768)
  else if o = 0x42 ∨ o = 0x43 then s.stacksReady (d.u64 24 / 2 ^ 38)
  else if o = 0x32 ∨ o = 0x34 then
    match s.groupBy (d.u32 24) with
    | some (_, g) => s.groupReady g.record
    | none => true
  else if o = 0x51 ∧ d.u8 27 = 0 then
    let m := (s.mslot (d.u8 24)).image
    s.slotsReady (d.u8 24 / 64) m (List.range (mfOpSlots m))
  else if o = 0x50 ∨ o = 0x51 then s.dieReady (6 + d.u8 24 / 64)
  else if o = 0x60 then
    let a := counterDie (d.u8 24) (d.u32 28)
    (List.range (counterDie (d.u8 24) (d.u32 28 + d.u32 32 - 1) + 1 - a)).all (fun k => s.dieReady (a + k))
  else if o = 0x03 ∨ o = 0x04 then
    match d.u8 24 with
    | 0x01 => s.dieReady (6 + d.u16 26)
    | 0x02 => s.pipeReady (d.u16 26)
    | 0x03 => (List.range 8).all s.pipeReady
    | 0x04 => s.stacksReady (d.u64 32 / 2 ^ 38)
    | 0x05 => s.tileReady (d.u16 26)
    | 0x06 => s.tileReady (d.u16 26)
    | _ => true
  else true

/-- What the image at HOST_ADDR adds to the checks of its descriptor: its first byte that breaks a field rule, which fails
check 2 (R223, R244), and the ports that it names. -/
structure ImageTest where
  fault : Option Nat
  ports : List Nat
  deriving DecidableEq, Repr

/-- A descriptor without an image to test. -/
def ImageTest.clean : ImageTest := ⟨none, []⟩

/-- R79: the outcome of the checks of a started descriptor with its image, in their order: a status with its DETAIL, or none
where all pass. -/
def State.checks (s : State) (d : Desc) (x : ImageTest) : Option (Status × Nat) :=
  match opForm d with
  | none => some (.badOpcode, 0)
  | some f =>
    match (check2 d f).or x.fault with
    | some o => some (.badField, o)
    | none =>
      if !s.levelAllows d f then some (.notPermitted, 0)
      else if !s.partitionAllows d then some (.badPartition, 0)
      else match s.partitionStatus d with
        | some st => some (st, 0)
        | none =>
          if !s.ownsNamed d || !x.ports.all (s.portOwned (s.ringLevel d.ring) d.partition) then some (.protectionFault, 0)
          else if d.length = allOnesLength ∨ d.elementCountBad = true then some (.badLength, 0)
          else if !aligned d then some (.badAlignment, 0)
          else match s.hostRange d f with
            | some st => some (st, 0)
            | none =>
              match s.deviceRange d with
              | some st => some (st, 0)
              | none => if s.functionsReady d then none else some (.notReady, 0)

/-- R79: the checks of a descriptor that has no image, or one that names no port and breaks no rule. -/
def State.preChecks (s : State) (d : Desc) : Option (Status × Nat) := s.checks d ImageTest.clean

/-- What the image of a waiting descriptor adds once its bytes have come. -/
def State.imageStatus (s : State) (d : Desc) (x : ImageTest) : Option (Status × Nat) :=
  match x.fault with
  | some o => some (.badField, o)
  | none => if x.ports.all (s.portOwned (s.ringLevel d.ring) d.partition) then none else some (.protectionFault, 0)

/-- R98: a waiting descriptor's checks that depend on the protection table are made again. -/
def State.stillPermitted (s : State) (d : Desc) : Bool :=
  match opForm d with
  | none => false
  | some f => s.levelAllows d f && s.partitionAllows d && s.ownsNamed d && (s.hostRange d f).isNone && (s.deviceRange d).isNone

/-! ### Running a descriptor -/

/-- R68: the oldest descriptor of a ring that has not started. -/
def State.nextDesc (s : State) (n : Nat) : Option Desc := (s.outstanding n).find? (fun d => !d.started)

/-- R68: an earlier descriptor of the ring has not completed. -/
def State.earlierPending (s : State) (d : Desc) : Bool := (s.outstanding d.ring).any (fun e => e.started)

/-- R80: a descriptor that moves no data and completes with SUCCESS after the checks. -/
def Desc.movesNothing (d : Desc) : Bool := (d.opcode == 0x03 || d.opcode == 0x04 || d.opcode == 0x10) && d.length == 0

/-- R52: the oldest descriptor of a ring that waits at its read of host memory, if `pick` names it. -/
def State.readingDesc (s : State) (n : Nat) (pick : Desc → Bool) : Option Desc := (s.outstanding n).find? (fun d => d.atRead && pick d)

/-- R52: a descriptor that waited at its read goes on once the function is back in D0. -/
def resumeDesc (d : Desc) (image : Desc → ImageTest) (body : Desc → State → State) (s : State) : State :=
  if s.hi.d3hot then s
  else
    let d' := { d with atRead := false }
    let t := s.updateDesc d d'
    match t.imageStatus d' (image d') with
    | some (st, detail) => t.complete d' st 0 detail
    | none => body d' t

/-- R68, R79, R98: a descriptor starts: it passes the checks and runs `body`, or completes with the status of the first check
that fails. R52: in D3hot one that reads host memory waits at its read. -/
def startDesc (d : Desc) (reads : Bool) (image : Desc → ImageTest) (body : Desc → State → State) (s : State) : State :=
  let wait := reads && s.hi.d3hot
  let d' := { d with started := true, gen := s.rd HI_PROT_GEN_ACTIVE 0 }
  let t := s.updateDesc d d'
  match t.checks d' (if wait then ImageTest.clean else image d') with
  | some (st, detail) => t.complete d' st 0 detail
  | none =>
    if d'.movesNothing then t.complete d' .success 0 0
    else if wait then t.updateDesc d' { d' with atRead := true }
    else body d' t

/-- R26: the dies that a descriptor's work reaches. -/
def descDies (d : Desc) : List Nat :=
  match d.opcode with
  | 0x01 | 0x02 => ((List.range (d.u16 28)).map (fun i => dieOf (d.u32 24 + 8 * i))).eraseDups
  | 0x03 | 0x04 =>
    match d.u8 24 with
    | 1 => [6 + d.u16 26]
    | 2 => [d.u16 26 / 2]
    | 3 => [0, 1, 2, 3]
    | 4 => [4 + d.u64 32 / 2 ^ 38]
    | 5 | 6 => [6 + d.u16 26 / 88]
    | _ => []
  | 0x20 | 0x21 => (setBits 8 (d.u8 24)).map (fun p => p / 2)
  | 0x22 | 0x23 => [0, 1, 2, 3]
  | 0x24 => [if d.u8 24 < 8 then d.u8 24 / 2 else d.u8 24 - 0x10]
  | 0x40 | 0x41 => [4 + d.u32 24 / 32768]
  | 0x42 | 0x43 => [4 + d.u64 24 / 2 ^ 38]
  | 0x50 | 0x51 => [6 + d.u8 24 / 64]
  | _ => []

/-- R24: a bridge to a die that the descriptor's work reaches retrains. -/
def State.descHeld (s : State) (d : Desc) : Bool := (descDies d).any (fun x => !s.routeOpen 8 (min x 8))

/-- R68: a descriptor row runs the ring's descriptor that waits at its read, or its oldest unstarted one, where it is one that
`pick` names and its fence lets it start. R24: one whose work a retraining bridge holds up waits. -/
def runImage (n : Nat) (pick : Desc → Bool) (reads : Bool) (image : Desc → ImageTest) (body : Desc → State → State) (s : State) : State :=
  match s.readingDesc n pick with
  | some d => resumeDesc d image body s
  | none =>
    match s.nextDesc n with
    | none => s
    | some d => if !pick d || (d.fence && s.earlierPending d) || s.descHeld d then s else startDesc d reads image body s

/-- A descriptor row without an image to test. -/
def runDesc (n : Nat) (pick : Desc → Bool) (reads : Bool) (body : Desc → State → State) (s : State) : State :=
  runImage n pick reads (fun _ => ImageTest.clean) body s

/-- A descriptor row's meaning: run the ring's next descriptor if its opcode is the row's. -/
def runOpcode (n opcode : Nat) (reads : Bool) (body : Desc → State → State) (s : State) : Res :=
  whenLive (runDesc n (fun d => d.opcode == opcode) reads body) s

/-- R223, R244: the same for a row whose image at HOST_ADDR is tested before work begins. -/
def runImageOpcode (n opcode : Nat) (image : Desc → ImageTest) (body : Desc → State → State) (s : State) : Res :=
  whenLive (runImage n (fun d => d.opcode == opcode) true image body) s

/-- NOP (R76): nothing beyond its checks and completion. -/
def execNop (ring : Fin 4096) (s : State) : Res :=
  runOpcode ring.val 0x00 false (fun d t => t.complete d .success 0 0) s

/-! ### Doorbells and fetching -/

/-- R64: a value written to SQ_TAIL is valid. -/
def State.tailValid (s : State) (n v : Nat) : Bool :=
  decide (wrapSub 32 v (s.rd HI_RING_STATUS_SQ_HEAD n) ≤ s.sqSize n ∧ wrapSub 32 v (s.ring n).tail ≤ s.sqSize n)

/-- R64, R65: a write of SQ_TAIL. -/
def sqTail (n v : Nat) (s : State) : State :=
  if !s.ringEnabled n || (s.ring n).stopped then s
  else if s.tailValid n v then s.setRing n { s.ring n with tail := v }
  else
    (State.setErr (s.setRing n { s.ring n with stopped := true }) HI_RING_STATUS_DOORBELL_ERR n).raise
      { code := 0x0002, kind := 12, logical := n, detail0 := v }

/-- R654, R73, R74: a write of CQ_HEAD. -/
def cqHead (n v : Nat) (s : State) : State :=
  let r := s.ring n
  let d := v % 2 ^ 32
  if !s.ringEnabled n then s
  else if wrapSub 32 d r.consumed ≤ r.unconsumed then
    let t := s.setRing n { r with consumed := d, armed := r.armed || bitOf v 32 }
    if bitOf v 32 && decide (0 < (t.ring n).unconsumed) then t.ringInterrupt n else t
  else (s.setErr HI_RING_STATUS_CQ_HEAD_ERR n).raise { code := 0x0002, kind := 12, logical := n, detail0 := v }

/-- R62: a write of `bytes` bytes at an offset of a ring's doorbell page: SQ_TAIL, CQ_HEAD, or discarded. -/
def doorbellWrite (n offset bytes v : Nat) (s : State) : State :=
  if offset = 0 ∧ bytes = 4 then sqTail n v s else if offset = 8 ∧ bytes = 8 then cqHead n v s else s

/-- R62: what a read in a doorbell page returns. -/
def doorbellRead (bytes : Nat) : List Byte := zeros bytes

/-- SQ_TAIL (R62, R64). -/
def execSqTail (ring : Fin 4096) (value : BitVec 32) (s : State) : Res := whenBar (doorbellWrite ring.val 0 4 value.toNat) s

/-- CQ_HEAD (R62, R654). -/
def execCqHead (ring : Fin 4096) (value : Word) (s : State) : Res := whenBar (doorbellWrite ring.val 8 8 value.toNat) s

/-- R66: free CQ slots, counting those reserved for fetched descriptors. -/
def State.cqFree (s : State) (n : Nat) : Nat := s.cqSize n - (s.ring n).unconsumed - (s.outstanding n).length

/-- R66, R67: how many descriptors one read request may fetch: at most 64, none past the SQ's end, none beyond
the tail, none without a free CQ slot. -/
def State.fetchable (s : State) (n : Nat) : Nat :=
  if !s.ringEnabled n || (s.ring n).stopped || s.hi.d3hot then 0
  else
    let h := s.rd HI_RING_STATUS_SQ_HEAD n
    min (min 64 (wrapSub 32 (s.ring n).tail h)) (min (s.sqSize n - h % s.sqSize n) (s.cqFree n))

/-- The table that FT_SHADOW_COMPARE selects: pipelines 0 to 7, or the LPM, whose copies are alike. -/
def changeKey (sel : Nat) : Nat := min sel 8

/-- R253: the STATIC changes that a table has seen. -/
def State.tableChanges (s : State) (sel : Nat) : Nat := sget 0 s.ft.changes (changeKey sel)

/-- R253: a table sees one more STATIC change. -/
def State.noteChange (s : State) (sel : Nat) : State := { s with ft := { s.ft with changes := smod 0 (changeKey sel) (fun n => n + 1) s.ft.changes } }

/-- A fetched 64-byte slot joins the ring's descriptors; check 1 of R79 is made at once (log 12). DESIGN CHOICE (log 134): a
descriptor that never starts completes with the generation in force at its fetch. -/
def State.fetchOne (s : State) (n : Nat) (raw : List Byte) : State :=
  let h := s.rd HI_RING_STATUS_SQ_HEAD n
  let d : Desc := { id := s.hi.nextId, ring := n, index := h, raw := raw, started := false, silent := false,
                    gen := s.rd HI_PROT_GEN_ACTIVE 0, atRead := false,
                    note := if le raw 0 1 = 0x24 then [s.tableChanges (le raw 24 1)] else [] }
  let t := State.wr { s with hi := { s.hi with descs := s.hi.descs ++ [d], nextId := s.hi.nextId + 1 } } HI_RING_STATUS_SQ_HEAD n (wrapAdd 32 h 1)
  match opForm d with
  | some _ => t
  | none => t.complete d .badOpcode 0 0

/-- R66, R67, R61: the device fetches descriptors of a ring; a failed read sets FETCH_ERR and stops fetching. -/
def descriptorFetch (n : Nat) (data : HostData) (s : State) : State :=
  let k := s.fetchable n
  if k = 0 then s
  else match data with
    | some bs =>
      if bs.length < 64 then fetchFailed n s
      else (chunks 64 (min k (bs.length / 64)) bs).foldl (fun t raw => t.fetchOne n raw) s
    | none => fetchFailed n s
where
  /-- R61: a descriptor read from host memory failed. -/
  fetchFailed (n : Nat) (s : State) : State :=
    (State.setErr (s.setRing n { s.ring n with stopped := true }) HI_RING_STATUS_FETCH_ERR n).raise
      { code := 0x0003, kind := 12, logical := n }

/-- DESCRIPTOR_FETCH (R66). -/
def execDescriptorFetch (ring : Fin 4096) (data : HostData) (s : State) : Res := whenLive (descriptorFetch ring.val data) s

/-- CQ_MODERATION_TIMEOUT (R73): the oldest unconsumed completion of an armed CQ is MOD_TIME × 100 ns old. -/
def execCqModerationTimeout (ring : Fin 4096) (s : State) : Res :=
  whenLive (fun t =>
    if (t.ring ring.val).armed && decide (0 < (t.ring ring.val).unconsumed ∧ 0 < t.rd HI_RING_CFG_MOD_TIME ring.val) then
      t.ringInterrupt ring.val
    else t) s

/-! ### Enabling and disabling rings (R59, R71) -/

/-- R59: a write of HI_RING_CFG that sets ENABLE may take effect. -/
def State.ringEnableOk (s : State) (n : Nat) (v : Word) : Bool :=
  let sq := HI_RING_CFG_SQ_LOG2.of v
  let cq := HI_RING_CFG_CQ_LOG2.of v
  decide (6 ≤ sq ∧ sq ≤ 16 ∧ 6 ≤ cq ∧ cq ≤ 16 ∧ sq ≤ cq) &&
  decide (s.rd HI_RING_SQ_BASE_ADDR n % 4096 = 0 ∧ s.rd HI_RING_CQ_BASE_ADDR n % 4096 = 0) &&
  decide (1 ≤ HI_RING_CFG_VECTOR.of v) && s.ringLevel n != 3

/-- R71: every fetched and unstarted descriptor of a ring completes with ABORTED. -/
def State.abortUnstarted (s : State) (n : Nat) : State :=
  ((s.outstanding n).filter (fun d => !d.started)).foldl (fun t d => t.complete d .aborted 0 0) s

/-- R73: an armed CQ sends its vector where its count of unconsumed completions is due. -/
def State.settleCount (s : State) (n : Nat) : State := if (s.ring n).armed && s.countDue n then s.ringInterrupt n else s

/-- R59, R71: a write of HI_RING_CFG. DEDUCED (log 19): one that leaves ENABLE at 1 stores its fields, and a MOD_COUNT that
the unconsumed completions have reached is due at once (R73). -/
def ringCfgWrite (n : Nat) (v : Word) (s : State) : State :=
  let was := s.ringEnabled n
  let t := s.plainWrite HI_RING_CFG n v
  if HI_RING_CFG_ENABLE.isSet v then
    if was then t.settleCount n
    else if s.ringEnableOk n v then
      State.settleQuiesced ((t.setRing n { Ring.reset with armed := true }).wr HI_RING_STATUS_SQ_HEAD n 0) n
    else
      ((t.wr HI_RING_CFG_ENABLE n 0).setErr HI_RING_STATUS_CFG_ERR n).raise { code := 0x0004, kind := 12, logical := n, detail0 := v.toNat }
  else State.settleQuiesced (t.abortUnstarted n) n

/-- RING_ENABLE (R59). -/
def execRingEnable (ring : Fin 4096) (value : Word) (s : State) : Res := whenBar (ringCfgWrite ring.val value) s

/-- RING_DISABLE (R71). -/
def execRingDisable (ring : Fin 4096) (value : Word) (s : State) : Res := whenBar (ringCfgWrite ring.val value) s

end Sys2Proof.Machine
end

