-- ==== Sys2Proof/Machine/ConfigSpace.lean ====
section
/-! DEFINITION. The PCIe function: what its configuration space holds, the link, the power state, and the test access port
(R47 to R53, R644, R655). -/

namespace Sys2Proof.Machine

/-! ### What never changes (R47, R48, R50, R53) -/

/-- The capabilities that the function may have (R47, R48). -/
inductive Capability where
  | pciExpress | msix | powerManagement | advancedErrorReporting | deviceSerialNumber | dataLinkFeature
  | physicalLayer64 | physicalLayer128
  | msi | srIov | ats | pasid | pri | resizableBar | vendorSpecific
  deriving DecidableEq, Repr

/-- R48: the capabilities present; no other is. -/
def capabilities : List Capability :=
  [.pciExpress, .msix, .powerManagement, .advancedErrorReporting, .deviceSerialNumber, .dataLinkFeature, .physicalLayer64, .physicalLayer128]

/-- The identity that configuration space reports (R48). -/
structure ConfigIdentity where
  vendor : BitVec 16
  device : BitVec 16
  revision : BitVec 8
  classCode : BitVec 24
  /-- Header type 0 of a single function (R47). -/
  headerType : BitVec 8
  subsystemVendor : BitVec 16
  subsystem : BitVec 16
  /-- The Device Serial Number capability. -/
  serial : Word
  deriving DecidableEq, Repr

/-- R48: the identity of this device; unfused subsystem numbers are zero. -/
def State.configIdentity (s : State) : ConfigIdentity :=
  { vendor := 0x1F3C, device := 0x9400, revision := 0xB1, classCode := 0x028000, headerType := 0,
    subsystemVendor := (Config.subsystem.map (fun x => x.1)).getD 0, subsystem := (Config.subsystem.map (fun x => x.2)).getD 0,
    serial := s.word (BT_DEVICE_SERIAL.offset 0) }

/-- A base address register (R53). -/
structure BarShape where
  size : Nat
  /-- Decoded as 64-bit memory; none is I/O. -/
  memory64 : Bool
  prefetchable : Bool
  deriving DecidableEq, Repr

/-- R53: BAR0, BAR2 and BAR4; no other BAR exists. -/
def barShape : Nat → Option BarShape
  | 0 => some ⟨2 ^ 26, true, false⟩
  | 2 => some ⟨2 ^ 28, true, true⟩
  | 4 => some ⟨2 ^ 24, true, false⟩
  | _ => none

/-- R50: the largest payload and read request, the outstanding non-posted requests, and the bits of a tag. -/
def maxPayload : Nat := 4096
/-- Max_Read_Request_Size at most (R50). -/
def maxReadRequest : Nat := 4096
/-- Outstanding non-posted requests at most (R50). -/
def maxOutstanding : Nat := 768
/-- Bits of a request tag (R50). -/
def tagBits : Nat := 10

/-- R52: the Power Management capability reports No_Soft_Reset and no PME support. -/
def noSoftReset : Bool := true
/-- PME is not supported (R52). -/
def pmeSupport : Bool := false

/-- R50: the requests that a transfer of `n` bytes at a host address is sent in: none crosses a multiple of `size`, which is a
power of two. -/
def requestsOf (size a n : Nat) : List (Nat × Nat) :=
  (List.range ((a % size + n + size - 1) / size)).map (fun k =>
    let from_ := max a ((a / size + k) * size)
    (from_, min (a + n) ((a / size + k + 1) * size) - from_))

/-! ### The link (R49) -/

/-- R49: the lanes in use, by the strap sampled at power-on; lanes 4 to 7 idle where it was high. -/
def State.pcieLanes (s : State) : List Nat := List.range (if s.bt.x4 then 4 else 8)

/-- R49: the highest rate is that of generation 7, 128.0 GT/s. -/
def maxGeneration : Nat := 7

/-! ### Configuration requests (R655) -/

/-- What a configuration request meets. -/
inductive ConfigAnswer where
  /-- Configuration Request Retry Status. -/
  | retry
  | identity (i : ConfigIdentity)
  deriving DecidableEq, Repr

/-- R52, R655: a configuration read of the identity is answered, in D0 and D3hot alike, once configuration space answers. -/
def State.configRead (s : State) : ConfigAnswer := if s.hi.answering then .identity s.configIdentity else .retry

/-- What the host and the link partner choose (log 11): the three base addresses, the payload and request sizes within R50, and
the generation of the link within R49, each a free value. -/
def chosenConfig (draw : Nat) : ConfigSt :=
  { memory := true, bar0 := 2 ^ 26 * (Config.freeAt draw 0 % 2 ^ 38), bar2 := 2 ^ 28 * (Config.freeAt draw 1 % 2 ^ 36),
    bar4 := 2 ^ 24 * (Config.freeAt draw 2 % 2 ^ 40), payload := 128 * 2 ^ (Config.freeAt draw 3 % 6),
    readRequest := 128 * 2 ^ (Config.freeAt draw 4 % 6), generation := 1 + Config.freeAt draw 5 % maxGeneration }

/-- R655, step 5 of R121: with the control die up, configuration space answers. DESIGN CHOICE (log 11): no row writes configuration
space, so the host sets the BARs at once. -/
def configSpaceReady (s : State) : State :=
  if s.dieReady 8 && !s.hi.answering then
    let (d, t) := s.draw
    { t with hi := { t.hi with answering := true, config := chosenConfig d } }
  else s

/-- CONFIG_SPACE_READY (R655, step 5 of R121). -/
def execConfigSpaceReady (s : State) : Res := whenLive configSpaceReady s

/-! ### Power state (R52) -/

/-- POWER_STATE_D3HOT (R52): the function enters D3hot; everything toward the host is held from here on. -/
def execPowerStateD3hot (s : State) : Res :=
  whenLive (fun t => if t.hi.answering then { t with hi := { t.hi with d3hot := true } } else t) s

/-- POWER_STATE_D0 (R52): the held writes and messages go out in their order. -/
def execPowerStateD0 (s : State) : Res :=
  whenLive (fun t => { t with hi := { t.hi with d3hot := false, held := [] }, out := t.out ++ t.hi.held }) s

/-! ### The test access port (R644) -/

/-- What the test access port reaches, and nothing else. -/
inductive TestData where
  | boundaryScan
  | identification
  deriving DecidableEq, Repr

/-- R644: the IEEE 1149.1 identification code. -/
def identificationCode : BitVec 32 := 0x9400FA87

/-- R644: what a capture through the port shows: the levels of the CMOS balls that the device drives (FAULT_L and THERMTRIP_L are
low while asserted), or the identification code. It changes nothing. -/
def State.testCapture (s : State) : TestData → List Bool
  | .boundaryScan => [!s.bt.faultL, !s.bt.thermtripL, s.tb.pps] ++ (List.range 8).map s.tb.trig.testBit
  | .identification => (List.range 32).map identificationCode.getLsbD

end Sys2Proof.Machine
end

