-- ==== Sys2Proof/Machine/Boot.lean ====
section
/-! DEFINITION. Resets, locks, the firmware load, the attestation log and quotes (R106 to R121, R130 to R137). -/

namespace Sys2Proof.Machine

/-! ### The attestation log (R133 to R136) -/

/-- R133, R135: an entry is appended: it stands in the log window, counts, and enters the accumulator. -/
def State.attest (s : State) (kind outcome object : Nat) (digest : List Byte) : State :=
  let n := s.rd EV_LOG_COUNT_COUNT 0
  let e := natLe 8 n ++ natLe 1 kind ++ natLe 1 outcome ++ natLe 2 0 ++ natLe 4 (s.rd HI_PROT_GEN_ACTIVE 0) ++
    natLe 12 s.tb.dom0.visible ++ natLe 4 object ++ fitTo 32 digest
  let acc := sm3 (s.getBytes EV_LOG_ACC 0 4 ++ e)
  ((s.putBytes EV_LOG (8 * (n % 4096)) e).putBytes EV_LOG_ACC 0 acc).wr EV_LOG_COUNT_COUNT 0 (wrapAdd 64 n 1)

/-! ### Resets (R106 to R110) -/

/-- R106: the state after a cold reset: everything at its reset value but the fuses, the trip record, what the
board supplies (the reference clocks), and the model's own fields. -/
def coldReset (s : State) : State :=
  { State.reset with
    bt := { BootSt.reset with trip := s.bt.trip, coreRefLost := s.bt.coreRefLost, serdesLost := s.bt.serdesLost },
    free := s.free, pending := s.pending,
    out := s.out ++ (if s.bt.faultL then [.pin .faultL true] else []) ++ (if s.bt.thermtripL then [.pin .thermtripL true] else []) }

/-- COLD_RESET (R106, R635): POR_L goes low. -/
def execColdReset (s : State) : Res := .next (coldReset s)

/-- POR_RELEASE (R121, R49): POR_L rises with PCIE_X4 sampled; start-up begins. -/
def execPorRelease (x4 : Bool) (s : State) : Res :=
  .next (if s.bt.por then s else { s with bt := { s.bt with por := true, x4 := x4 } })

/-- An offset of PC_LANE_GROUP. -/
def isLaneGroup (off : Nat) : Bool := decide (PC_LANE_GROUP.base ≤ off ∧ off < PC_LANE_GROUP.base + 8 * 256)

/-- An offset of OC_LASER_STATUS. -/
def isLaserStatus (off : Nat) : Bool := decide (OC_LASER_STATUS.base ≤ off ∧ off < OC_LASER_STATUS.base + 0x400 ∧ 0x10 ≤ off % 0x100 ∧ off % 0x100 < 0x58)

/-- An offset of MS_HBM_STATUS. -/
def isHbmStatus (off : Nat) : Bool := (List.range 12).any (fun h => MS_HBM_STATUS.offset h == off)

/-- An offset of FH_SPARE_STATUS. -/
def isSpareStatus (off : Nat) : Bool := decide (FH_SPARE_STATUS.base ≤ off ∧ off < FH_SPARE_STATUS.base + 72)

/-- The registers that a warm reset leaves alone: the progress count (R626), and the spare and repair maps and
retirements held on the control die (R608): the tile map, the spare status and the lane spares in use. -/
def keptWarm (off : Nat) : Bool :=
  off == FH_PROGRESS.offset 0 || isSpareStatus off || isLaneGroup off || isLaserStatus off || isHbmStatus off || decide (RE_TILE_MAP.base ≤ off ∧ off < RE_TILE_MAP.base + 8 * 176)

/-- R608: of PC_LANE_GROUP a warm reset keeps the lane spares in use, of OC_LASER_STATUS the laser in use and a position that
has used its spare or failed, of MS_HBM_STATUS a pseudo-channel erased for good, of FH_SPARE_STATUS all but the list that HBM loses,
and of RE_TILE_MAP the physical tile of each logical one; VALID falls until the tiles are tested again (R356). -/
def spareKept (kv : Nat × Word) : Nat × Word :=
  if isLaneGroup kv.1 then
    (kv.1, BitVec.ofNat 64 (withBits (resetWord kv.1).toNat 11 8 (bitsOf kv.2.toNat 11 8)))
  else if isLaserStatus kv.1 then
    (kv.1, BitVec.ofNat 64 (withBits (resetWord kv.1).toNat 63 61 (if 4 ≤ bitsOf kv.2.toNat 63 61 then bitsOf kv.2.toNat 63 61 else 0)))
  else if isHbmStatus kv.1 then
    (kv.1, BitVec.ofNat 64 (withBits (withBits (resetWord kv.1).toNat 60 60 (bitsOf kv.2.toNat 60 60)) 45 40 (bitsOf kv.2.toNat 45 40)))
  else if isSpareStatus kv.1 then (kv.1, BitVec.ofNat 64 (withBits kv.2.toNat 10 0 0))
  else if kv.1 = FH_PROGRESS.offset 0 then kv
  else (kv.1, BitVec.ofNat 64 (withBits kv.2.toNat 63 63 0))

/-- R608: the register table after a warm reset. -/
def sparesKept (regs : List (Nat × Word)) : List (Nat × Word) :=
  (regs.map spareKept).filter (fun kv => kv.2 != resetWord kv.1)

/-- R106, R608, R626: the state after a warm reset. -/
def warmReset (s : State) : State :=
  { State.reset with
    regs := sparesKept (s.regs.filter (fun kv => keptWarm kv.1)),
    hi := { HostSt.reset with answering := s.hi.answering, config := s.hi.config, d3hot := s.hi.d3hot, nextId := s.hi.nextId },
    bt := { BootSt.reset with por := s.bt.por, x4 := s.bt.x4, warm := true, trip := s.bt.trip,
                              coreRefLost := s.bt.coreRefLost, serdesLost := s.bt.serdesLost },
    fh := { FaultSt.reset with tilesRetired := s.fh.tilesRetired, lanesRetired := s.fh.lanesRetired,
                               lasersRetired := s.fh.lasersRetired, channelsErased := s.fh.channelsErased, withdrawn := s.fh.withdrawn },
    free := s.free, pending := s.pending, out := s.out }

/-- R109: a write of BT_RESET. -/
def btReset (v : Word) (s : State) : State :=
  if BT_RESET_KEY.of v = 0x57A4 ∧ BT_RESET_WARM.isSet v = true then warmReset s else s

/-- WARM_RESET (R110). -/
def execWarmReset (value : Word) (s : State) : Res := whenBar (btReset value) s

/-- LOCK_SET (R111, R112). -/
def execLockSet (value : Word) (s : State) : Res := whenBar (fun t => t.plainWrite BT_LOCK 0 value) s

/-- R107: a host port reset's effect on the fetched descriptors: one that has started runs on in silence, the others are
dropped. DEDUCED (log 143): one that waits at its read of host memory finds that read failed and ends with nothing done. -/
def silenced (l : List Desc) : List Desc := (l.filter (fun d => d.started && !d.atRead)).map (fun d => { d with silent := true })

/-- R106, R107, R120, R655: a host port reset: configuration space and the HI_ block but the protection generation go back to
reset, and the BARs are unset. -/
def hostPortReset (s : State) : State :=
  let gen := s.word (HI_PROT_GEN.offset 0)
  let t := (s.resetRegs 0 0x100000).setWord (HI_PROT_GEN.offset 0) gen
  { t with hi := { t.hi with rings := [], descs := silenced t.hi.descs, granules := [], d3hot := false, held := [],
                             answering := false, config := ConfigSt.reset } }

/-- HOST_PORT_RESET (R106, R107). -/
def execHostPortReset (_cause : PortResetCause) (s : State) : Res := whenLive hostPortReset s

/-! ### The start after a reset (R121, R133, R596) -/

/-- R596: the thermal trip as an event. -/
def tripEvent (die sensor value : Nat) : Event :=
  { code := 0x0C0B, kind := 11, logical := die, die := die, physical := sensor, detail0 := value }

/-- R596: the trip record is written into the fault log, with the time of the trip, and cleared. -/
def State.logTrip (t : State) (e : Event) (time : Nat) : State :=
  let u := ((t.countEvent e).logRecord { recordOf t e 1 with time := time }).setWindow e.key (0, none)
  { u with bt := { u.bt with trip := none } }

/-- Step 1 of R121 completes: EV_BOOT_ID is drawn, the START entry is made, and a trip record is written into
the fault log and cleared. -/
def startRecords (s : State) : State :=
  let (a, s1) := s.draw
  let (b, s2) := s1.draw
  let t := ((s2.wr EV_BOOT_ID_WORD 0 a).wr EV_BOOT_ID_WORD 1 b).attest 1 0 (bit s.bt.warm) identityDigest
  match s.bt.trip with
  | none => t
  | some (die, sensor, value, time) => t.logTrip (tripEvent die sensor value) time

/-! ### Lasers are lit (R121, R554) -/

/-- A laser position beyond its register: 16 × module + position. -/
def State.laserPos (s : State) (m k : Nat) : LaserPos := sget LaserPos.reset s.oc.lasers (16 * m + k)

/-- The state with a laser position replaced. -/
def State.setLaserPos (s : State) (m k : Nat) (p : LaserPos) : State :=
  { s with oc := { s.oc with lasers := sset LaserPos.reset (16 * m + k) p s.oc.lasers } }

/-- A laser that is lit: its drive current is a free value other than zero (log 66). -/
def litDrive (draw i : Nat) : Nat := 1 + Config.freeAt draw i % 65535

/-- A position with the drive current of one laser set. -/
def LaserPos.drive (p : LaserPos) (laser v : Nat) : LaserPos := if laser = 0 then { p with drive0 := v } else { p with drive1 := v }

/-- The drive current of one laser. -/
def LaserPos.driven (p : LaserPos) (laser : Nat) : Nat := if laser = 0 then p.drive0 else p.drive1

/-- R554: ENABLE lights a module's active lasers; a position that has failed stays dark. -/
def State.lightModule (s : State) (m : Nat) : State :=
  let (d, t) := s.draw
  let u := (List.range 9).foldl (fun v k =>
    if v.rd OC_LASER_STATUS_STATE (32 * m + k) = 3 then v
    else v.setLaserPos m k ((v.laserPos m k).drive (v.rd OC_LASER_STATUS_ACTIVE (32 * m + k)) (litDrive d k))) t
  (u.wr OC_LASER_CFG_ENABLE m 1).wr OC_LASER_MODULE_STATUS_STATE m 1

/-- R121 step 9: DEDUCED (log 66): Pilot firmware lights the laser modules as it starts. -/
def State.lightAll (s : State) : State :=
  (List.range 4).foldl (fun t m => if t.flag OC_LASER_CFG_ENABLE m then t else t.lightModule m) s

/-! ### Firmware (R114 to R120) -/

/-- The states of the firmware load (R116). -/
def fwEmpty : Nat := 0
/-- LOADING. -/
def fwLoading : Nat := 1
/-- CHECKING. -/
def fwChecking : Nat := 2
/-- RUNNING. -/
def fwRunning : Nat := 3
/-- REFUSED. -/
def fwRefused : Nat := 4

/-- STATE of the firmware load. -/
def State.fwState (s : State) : Nat := s.rd BT_FW_STATUS_STATE 0

/-- R117: the image store is emptied. -/
def State.emptyImage (s : State) : State := { s with bt := { s.bt with image := [], imageTop := 0 } }

/-- R117: bytes are written into the image store. -/
def State.writeImage (s : State) (a : Nat) (bs : List Byte) : State :=
  if bs.isEmpty then s
  else { s with bt := { s.bt with image := sstore s.bt.image a bs, imageTop := max s.bt.imageTop (a + bs.length) } }

/-- R117, R657: an enable or a DMA of kind 0x07 in EMPTY or REFUSED opens a new load. -/
def State.openImage (s : State) : State :=
  if s.fwState = fwEmpty ∨ s.fwState = fwRefused then s.emptyImage.wr BT_FW_STATUS_STATE 0 fwLoading else s

/-- The window of kind 0x07 that is enabled, if any (at most one, R86). -/
def State.imageWindow (s : State) : Option Nat :=
  (List.range 16).find? (fun k => s.flag HI_GW_TARGET_ENABLE k && s.rd HI_GW_TARGET_TARGET_KIND k == 7)

/-- The held bytes of a window's partly written granules. -/
def State.heldBytes (s : State) (k : Nat) : List (Nat × Byte × List Nat) := sget [] s.hi.granules k

/-- Step 3 of R117: the image window's partial granule is committed and the window closed. -/
def State.closeImageWindow (s : State) : State :=
  match s.imageWindow with
  | none => s
  | some k =>
    let t := (s.heldBytes k).foldl (fun u ab => u.writeImage ab.1 [ab.2.1]) s
    let u : State := { t with hi := { t.hi with granules := sdel k t.hi.granules } }
    (u.wr HI_GW_TARGET_ENABLE k 0).wr HI_GW_STATUS_PARTIAL k 0

/-- R115, R119: a write of BT_FW_CTL. -/
def fwCtl (v : Word) (s : State) : State :=
  let start := BT_FW_CTL_START.isSet v
  let abandon := BT_FW_CTL_ABANDON.isSet v
  if start && abandon then s.refuseWrite (BT_FW_CTL.offset 0) v.toNat
  else if start then
    if s.fwState = fwLoading then s.closeImageWindow.wr BT_FW_STATUS_STATE 0 fwChecking
    else s.refuseWrite (BT_FW_CTL.offset 0) v.toNat
  else if abandon then
    if s.fwState = fwLoading ∨ s.fwState = fwRefused then s.emptyImage.wr BT_FW_STATUS_STATE 0 fwEmpty
    else s.refuseWrite (BT_FW_CTL.offset 0) v.toNat
  else s

/-- FIRMWARE_START (R117). -/
def execFirmwareStart (value : Word) (s : State) : Res := whenBar (fwCtl value) s

/-- FIRMWARE_ABANDON (R115, R119). -/
def execFirmwareAbandon (value : Word) (s : State) : Res := whenBar (fwCtl value) s

/-- R114, R116, R117 step 4: the REASON of the header checks 0x1 to 0x4, zero where all pass. -/
def headerReason (h : List Byte) (w : Nat) : Nat :=
  let len := le h 16 8
  if le h 0 4 ≠ 0x46565047 ∨ le h 7 1 ≠ 1 then 1
  else if le h 4 2 ≠ 0x9400 then 2
  else if le h 6 1 ≠ 0xB1 then 3
  else if len < 4096 ∨ 0x4000000 < len ∨ len % 64 ≠ 0 ∨ w < len then 4
  else 0

/-- R114: the signature of the image of a length verifies under the fused firmware key. -/
def State.imageVerifies (s : State) (len : Nat) : Bool :=
  Config.verify Config.firmwareKey (sm3 (sbytes s.bt.image 0 (len - 64))) (sbytes s.bt.image (len - 64) 64)

/-- R134: Pilot firmware makes a CONFIG entry with its digest, a free value. -/
def State.configEntry (s : State) : State :=
  let (d, t) := s.draw
  t.attest 5 0 0 (natLe 32 d)

/-- R134: a CONFIG entry for each configuration set Pilot firmware applies. DESIGN CHOICE (log 144): it applies them as it starts;
how many, the spec leaves open. -/
def State.configEntries (s : State) (sets : Nat) : State := (List.range sets).foldl (fun t _ => t.configEntry) s

/-- Step 6 of R117: the Pilot cores start at ENTRY, and BT_ and EV_ lock (R112); Pilot applies its configuration sets (R134). -/
def State.startPilot (s : State) (entry sets : Nat) : State :=
  let t : State := { s with bt := { s.bt with entry := some entry } }
  ((((t.wr BT_FW_STATUS_STATE 0 fwRunning).wr BT_LOCK_LOCK 0 (t.rd BT_LOCK_LOCK 0 ||| 0x2002)).rise .pilot).configEntries sets).lightAll

/-- Steps 4 to 6 of R117: the check ends, the image is logged, and Pilot starts or the load is refused. -/
def firmwareChecked (s : State) : State :=
  let h := sbytes s.bt.image 0 64
  let r0 := headerReason h s.bt.imageTop
  let reason := if r0 ≠ 0 then r0 else if s.imageVerifies (le h 16 8) then 0 else 5
  let digest := sm3 (sbytes s.bt.image 0 (if r0 = 0 then le h 16 8 else s.bt.imageTop))
  let t := ((s.attest 2 (bit (reason ≠ 0)) 0 digest).wr BT_FW_STATUS_VERSION 0 (le h 8 4)).wr BT_FW_STATUS_REASON 0 reason
  if reason = 0 then t.startPilot (le h 24 4) (Config.configSets digest)
  else (t.wr BT_FW_STATUS_STATE 0 fwRefused).raise { code := 0x0104, detail0 := reason }

/-- FIRMWARE_CHECK_DONE (R117). -/
def execFirmwareCheckDone (s : State) : Res :=
  whenLive (fun t => if t.fwState = fwChecking then firmwareChecked t else t) s

/-! ### Quotes (R137) -/

/-- R137: a write of EV_QUOTE_CTL: a START in IDLE or DONE holds the nonce and begins signing. -/
def quoteCtl (v : Word) (s : State) : State :=
  if EV_QUOTE_CTL_START.isSet v && s.rd EV_QUOTE_STATUS_STATE 0 != 1 then
    State.wr { s with bt := { s.bt with quoteNonce := s.getBytes EV_QUOTE_NONCE 0 4 } } EV_QUOTE_STATUS_STATE 0 1
  else s

/-- QUOTE_START (R137). -/
def execQuoteStart (value : Word) (s : State) : Res := whenBar (quoteCtl value) s

/-- R137: the first 128 bytes of a quote. -/
def State.quoteBody (s : State) : List Byte :=
  natLe 8 (s.rd BT_DEVICE_SERIAL_SERIAL 0) ++ s.getBytes EV_BOOT_ID 0 2 ++ fitTo 32 s.bt.quoteNonce ++
  natLe 8 (s.rd EV_LOG_COUNT_COUNT 0) ++ s.getBytes EV_LOG_ACC 0 4 ++ natLe 12 s.tb.dom0.visible ++
  natLe 4 (s.rd HI_PROT_GEN_ACTIVE 0) ++ zeros 16

/-- The 64 bytes of the device key's signature over the SM3 digest of a message (log 5). -/
def signature (msg : List Byte) : List Byte := (List.range 64).map (Config.sign (sm3 msg))

/-- QUOTE_DONE (R137). -/
def execQuoteDone (s : State) : Res :=
  whenLive (fun t =>
    if t.rd EV_QUOTE_STATUS_STATE 0 = 1 then
      (t.putBytes EV_QUOTE_OUT 0 (t.quoteBody ++ signature t.quoteBody)).wr EV_QUOTE_STATUS_STATE 0 2
    else t) s

end Sys2Proof.Machine
end

