-- ==== Sys2Proof/Machine/Gate.lean ====
section
/-! DEFINITION. Time gates (R286 to R292) and the port and class scheduling registers that lean on them
(R267 to R270, R275, R276). -/

namespace Sys2Proof.Machine

/-! ### Schedules -/

/-- A gate schedule's copies. -/
def State.gate (s : State) (k : Nat) : GateSt := sget GateSt.reset s.tq.gates k

/-- The state with a schedule's copies replaced. -/
def State.setGate (s : State) (k : Nat) (g : GateSt) : State :=
  { s with tq := { s.tq with gates := sset GateSt.reset k g s.tq.gates } }

/-- R291: a list of entries fitted to its cycle: cut off at the end, the last entry held to the end. -/
def fitCycle (left : Nat) : List (Nat × Nat) → List (Nat × Nat)
  | [] => []
  | [e] => [(e.1, left)]
  | e :: r => if left ≤ e.2 then [(e.1, left)] else e :: fitCycle (left - e.2) r

/-- The longest run of a class's open entries, given the run so far. -/
def longestOpen (c run : Nat) : List (Nat × Nat) → Nat
  | [] => run
  | e :: r => if e.1.testBit c then longestOpen c (run + e.2) r else max run (longestOpen c 0 r)

/-- R288: on a fabric port every class 0 to 4 has one open stretch of 1,000 ns in each cycle of at most 1 ms. -/
def fabricGateOk (list : List (Nat × Nat)) (cycle : Nat) : Bool :=
  decide (cycle ≤ 1000000) && (List.range 5).all (fun c => decide (1000 ≤ longestOpen c 0 (fitCycle cycle list)))

/-- The ports that follow a schedule. -/
def State.gatedPorts (s : State) (k : Nat) : List Nat :=
  (List.range 1024).filter (fun n => s.flag TQ_PORT_SCHED_GATE_ENABLE n && s.rd TQ_PORT_SCHED_GATE_SCHED n == k)

/-- The administrative list of a schedule. -/
def State.adminList (s : State) (k : Nat) : List (Nat × Nat) :=
  (List.range (s.rd TQ_GATE_CTL_LIST_LEN k)).map (fun e => (s.rd TQ_GATE_ADMIN_STATES (64 * k + e), s.rd TQ_GATE_ADMIN_INTERVAL_NS (64 * k + e)))

/-- R288: the limits of a list's length and entries and of its cycle. -/
def gateListOk (list : List (Nat × Nat)) (cycle : Nat) : Bool :=
  decide (1 ≤ list.length ∧ list.length ≤ 64 ∧ 1000 ≤ cycle ∧ cycle ≤ 1000000000) && list.all (fun e => decide (100 ≤ e.2))

/-- R288: a COMMIT is accepted. -/
def State.commitOk (s : State) (k : Nat) : Bool :=
  let cycle := s.rd TQ_GATE_CYCLE_CYCLE_NS k
  gateListOk (s.adminList k) cycle && decide (s.rd TQ_GATE_BASE_NS_NS k < 1000000000) && s.timeReady (s.rd TQ_GATE_CTL_DOMAIN k) &&
  (!(s.gatedPorts k).any s.isFabric || fabricGateOk (s.adminList k) cycle)

/-- R289: the first of B, B + N × cycle that is not earlier than `earliest`. -/
def changeTime (base cycle earliest : Nat) : Nat :=
  if earliest ≤ base then base else base + (earliest - base + cycle - 1) / cycle * cycle

/-- R286 to R289: a write of TQ_GATE_CTL. -/
def gateCtl (k : Nat) (v : Word) (s : State) : State :=
  let t := s.plainWrite TQ_GATE_CTL k v
  if !TQ_GATE_CTL_COMMIT.isSet v then t
  else if !t.commitOk k then (t.setErr TQ_ERR_GATE_REFUSED 0).refuseWrite (TQ_GATE_CTL.offset k) v.toNat
  else
    let d := t.rd TQ_GATE_CTL_DOMAIN k
    let cycle := t.rd TQ_GATE_CYCLE_CYCLE_NS k
    let base := t.rd TQ_GATE_BASE_S_SECONDS k * 1000000000 + t.rd TQ_GATE_BASE_NS_NS k
    let at_ := changeTime base cycle ((t.dom d).total + 10000)
    let g := { t.gate k with pending := t.adminList k, pendingCycle := cycle, pendingExt := t.rd TQ_GATE_CYCLE_EXT_NS k, pendingDomain := d }
    ((t.setGate k g).wr TQ_GATE_STATUS_PENDING k 1).wrs
      [(TQ_GATE_STATUS_CHANGE_NS, k, at_ % 1000000000), (TQ_GATE_CHANGE_S_SECONDS, k, at_ / 1000000000)]

/-- GATE_COMMIT (R288). -/
def execGateCommit (schedule : Fin 128) (value : Word) (s : State) : Res := whenReg (TQ_GATE_CTL.offset schedule.val) value (gateCtl schedule.val value) s

/-- The change time of the pending copy, in ns. -/
def State.gateChange (s : State) (k : Nat) : Nat :=
  s.rd TQ_GATE_CHANGE_S_SECONDS k * 1000000000 + s.rd TQ_GATE_STATUS_CHANGE_NS k

/-- R287, R289: the operational list is shown in TQ_GATE_OPER. -/
def State.showOper (s : State) (k : Nat) (list : List (Nat × Nat)) : State :=
  (List.range 64).foldl (fun t e =>
    (t.wr TQ_GATE_OPER_STATES (64 * k + e) (list.getD e (0, 0)).1).wr TQ_GATE_OPER_INTERVAL_NS (64 * k + e) (list.getD e (0, 0)).2) s

/-- R289: at the change time the pending copy becomes operational. -/
def gateChange (k : Nat) (s : State) : State :=
  if !s.flag TQ_GATE_STATUS_PENDING k then s
  else
    let g := s.gate k
    let g' := { g with pending := [], oper := g.pending, operCycle := g.pendingCycle, operExt := g.pendingExt, domain := g.pendingDomain,
                       cycleStart := s.gateChange k, entry := 0, lost := !s.timeReady g.pendingDomain }
    ((s.setGate k g').showOper k g.pending).wrs [(TQ_GATE_STATUS_PENDING, k, 0), (TQ_GATE_STATUS_OPER_VALID, k, 1)]

/-- GATE_CHANGE (R289). -/
def execGateChange (schedule : Fin 128) (s : State) : Res := whenLive (gateChange schedule.val) s

/-- R290: the next nominal cycle would begin less than EXT_NS before the change time. -/
def State.gateExtends (s : State) (k : Nat) : Bool :=
  let g := s.gate k
  let next := g.cycleStart + g.operCycle
  s.flag TQ_GATE_STATUS_PENDING k && decide (next ≤ s.gateChange k ∧ s.gateChange k < next + g.operExt)

/-- R289, R290: an operational cycle begins, unless the one before it is extended to the change time. -/
def gateCycleStart (k : Nat) (s : State) : State :=
  let g := s.gate k
  if !s.flag TQ_GATE_STATUS_OPER_VALID k || s.gateExtends k then s
  else s.setGate k { g with cycleStart := g.cycleStart + g.operCycle, entry := 0 }

/-- GATE_CYCLE_START (R290). -/
def execGateCycleStart (schedule : Fin 128) (s : State) : Res := whenLive (gateCycleStart schedule.val) s

/-- R291: an entry's interval ends and the next entry applies; the last one holds. -/
def gateEntryEnd (k : Nat) (s : State) : State :=
  let g := s.gate k
  if s.flag TQ_GATE_STATUS_OPER_VALID k && decide (g.entry + 1 < g.oper.length) then s.setGate k { g with entry := g.entry + 1 } else s

/-- GATE_ENTRY_END (R291). -/
def execGateEntryEnd (schedule : Fin 128) (s : State) : Res := whenLive (gateEntryEnd schedule.val) s

/-! ### What the gates let through (R291, R292) -/

/-- The stretches of one cycle of a list that begins at `start`: the states of each, and its end. -/
def cycleStretches (list : List (Nat × Nat)) (start cycle : Nat) : List (Nat × Nat) :=
  ((fitCycle cycle list).foldl (fun (acc : Nat × List (Nat × Nat)) e => (acc.1 + e.2, acc.2 ++ [(e.1, acc.1 + e.2)])) (start, [])).2

/-- The stretches of the cycles of a list from `start` on. -/
def gateTimeline (list : List (Nat × Nat)) (start cycle : Nat) : Nat → List (Nat × Nat)
  | 0 => []
  | fuel + 1 => cycleStretches list start cycle ++ gateTimeline list (start + cycle) cycle fuel

/-- R290: the same up to a change time `c`: the cycle that `c` falls in ends there, and one after which the next would begin less
than `ext` before `c` is extended to it in its last states. -/
def timelineUntil (list : List (Nat × Nat)) (start cycle ext c : Nat) : Nat → List (Nat × Nat)
  | 0 => []
  | fuel + 1 =>
    let es := cycleStretches list start cycle
    let next := start + cycle
    if c ≤ next then es.filter (fun e => decide (e.2 < c)) ++ ((es.find? (fun e => decide (c ≤ e.2))).map (fun e => (e.1, c))).toList
    else if c < next + ext then es ++ (es.getLast?.map (fun e => (e.1, c))).toList
    else es ++ timelineUntil list next cycle ext c fuel

/-- R289 to R291: the stretches of a schedule from the cycle in progress on, over that cycle and the next two; a pending list takes
over at its change time. -/
def State.gateFuture (s : State) (k : Nat) : List (Nat × Nat) :=
  let g := s.gate k
  if s.flag TQ_GATE_STATUS_PENDING k then
    let c := s.gateChange k
    let es := timelineUntil g.oper g.cycleStart g.operCycle g.operExt c 3
    if (es.getLast?.map (fun e => e.2)) = some c then es ++ gateTimeline g.pending c g.pendingCycle 2 else es
  else gateTimeline g.oper g.cycleStart g.operCycle 3

/-- The end of the run of stretches that keep class `c` open from time `t` on. -/
def openUntil (c t : Nat) : List (Nat × Nat) → Nat
  | [] => t
  | e :: r => if e.2 ≤ t then openUntil c t r else if e.1.testBit c then openUntil c e.2 r else t

/-- R292: the gates of a port hold frames back: it is gated, its schedule has an operational list, and its
domain is in service. -/
def State.gatesHold (s : State) (n : Nat) : Bool :=
  let k := s.rd TQ_PORT_SCHED_GATE_SCHED n
  s.flag TQ_PORT_SCHED_GATE_ENABLE n && s.flag TQ_GATE_STATUS_OPER_VALID k && !(s.gate k).lost

/-- R291: `len` bytes and 20 more fit a span of `ns` nanoseconds at a port's rate. -/
def State.wireFits (s : State) (n len ns : Nat) : Bool := decide ((len + 20) * 2 ≤ ns * 25 * s.portRate n)

/-- R291: class `c` of port `n` may start a frame of `len` bytes now. -/
def State.gateOpen (s : State) (n c len : Nat) : Bool :=
  if !s.gatesHold n then true
  else
    let k := s.rd TQ_PORT_SCHED_GATE_SCHED n
    let g := s.gate k
    let t := (s.dom g.domain).total
    ((g.oper.getD g.entry (0, 0)).1).testBit c && s.wireFits n len (openUntil c t (s.gateFuture k) - t)

/-- R291: a frame of `len` bytes is longer than the longest open span of its class. -/
def State.neverFits (s : State) (n c len : Nat) : Bool :=
  if !s.gatesHold n then false
  else
    let g := s.gate (s.rd TQ_PORT_SCHED_GATE_SCHED n)
    let es := fitCycle g.operCycle g.oper
    if es.all (fun e => e.1.testBit c) then false else !s.wireFits n len (longestOpen c 0 (es ++ es))

/-- R292: a time domain stops being ready: every schedule that follows it opens its gates. -/
def State.gatesDomainLost (s : State) (d : Nat) : State :=
  (List.range 128).foldl (fun t k =>
    let g := t.gate k
    if t.flag TQ_GATE_STATUS_OPER_VALID k && g.domain == d && !g.lost then
      ((t.setGate k { g with lost := true }).setErr TQ_ERR_GATE_DOMAIN_LOST 0).raise { code := 0x0403, logical := k }
    else t) s

/-! ### Layout and scheduling registers (R267 to R270, R275, R276) -/

/-- R270: a queue layout is valid. -/
def State.layoutOk (s : State) (k : Nat) : Bool :=
  let used := (List.range 8).filter (fun c => s.flag TQ_QLAYOUT_USED (8 * k + c))
  let base := fun c => s.rd TQ_QLAYOUT_BASE (8 * k + c)
  let size := fun c => 2 ^ s.rd TQ_QLAYOUT_LOG2 (8 * k + c)
  used.all (fun c => decide (base c % size c = 0 ∧ base c + size c ≤ 1024 ∧ 256 ≤ s.rd TQ_QLAYOUT_QUANTUM (8 * k + c))) &&
  used.all (fun a => used.all (fun b => a == b || decide (base a + size a ≤ base b ∨ base b + size b ≤ base a)))

/-- R270: a write of TQ_QLAYOUT while a port selects the layout is discarded. -/
def qlayoutWrite (i : Nat) (v : Word) (s : State) : State :=
  if (List.range 1024).any (fun n => s.rd TQ_PORT_SCHED_LAYOUT n == i / 8) then
    (s.setErr TQ_ERR_LAYOUT_REFUSED 0).refuseWrite (TQ_QLAYOUT.offset i) v.toNat
  else s.plainWrite TQ_QLAYOUT i v

/-- Every queue of a port is empty. -/
def State.queuesEmpty (s : State) (n : Nat) : Bool := !s.pc.queues.any (fun kv => kv.1 / 1024 == n)

/-- R268, R288: a committed list may be applied to a port. -/
def State.listApplies (s : State) (n domain : Nat) (list : List (Nat × Nat)) (cycle : Nat) : Bool :=
  gateListOk list cycle && s.timeReady domain && (!s.isFabric n || fabricGateOk list cycle)

/-- R268: a gate schedule may be applied to a port: the lists that it has in force or pending meet the tests of a COMMIT. -/
def State.gateApplies (s : State) (n k : Nat) : Bool :=
  let g := s.gate k
  (!s.flag TQ_GATE_STATUS_OPER_VALID k || s.listApplies n g.domain g.oper g.operCycle) &&
  (!s.flag TQ_GATE_STATUS_PENDING k || s.listApplies n g.pendingDomain g.pending g.pendingCycle)

/-- R268, R270: a write of TQ_PORT_SCHED. Each of the two tests that fails sets its bit. -/
def portSchedWrite (n : Nat) (v : Word) (s : State) : State :=
  let lay := TQ_PORT_SCHED_LAYOUT.of v
  let moved := lay ≠ s.rd TQ_PORT_SCHED_LAYOUT n ∨ TQ_PORT_SCHED_ROLE.of v ≠ s.rd TQ_PORT_SCHED_ROLE n
  let gated := TQ_PORT_SCHED_GATE_ENABLE.isSet v
  let k := TQ_PORT_SCHED_GATE_SCHED.of v
  let regate := gated = true ∧ (s.flag TQ_PORT_SCHED_GATE_ENABLE n = false ∨ k ≠ s.rd TQ_PORT_SCHED_GATE_SCHED n)
  let sched := decide ((moved ∧ (s.portEnabled n = true ∨ s.queuesEmpty n = false)) ∨ (regate ∧ s.gateApplies n k = false))
  let layout := !s.layoutOk lay
  if sched || layout then
    let t := if sched then s.setErr TQ_ERR_SCHED_REFUSED 0 else s
    (if layout then t.setErr TQ_ERR_LAYOUT_REFUSED 0 else t).refuseWrite (TQ_PORT_SCHED.offset n) v.toNat
  else s.plainWrite TQ_PORT_SCHED n v

/-- R276: the sum of MAX_RATE over the strict classes of a port, in units of 100 Mb/s. -/
def State.strictSum (s : State) (n : Nat) : Nat :=
  ((List.range 8).map (fun c => if s.flag TQ_CLASS_SCHED_STRICT (8 * n + c) then s.rd TQ_CLASS_SCHED_MAX_RATE (8 * n + c) else 0)).sum

/-- R276: a write of TQ_CLASS_SCHED. DESIGN CHOICE (log 26): a QUANTUM below 256 is refused likewise. -/
def classSchedWrite (i : Nat) (v : Word) (s : State) : State :=
  let n := i / 8
  let t := s.plainWrite TQ_CLASS_SCHED i v
  let strict := TQ_CLASS_SCHED_STRICT.isSet v
  if (strict && (TQ_CLASS_SCHED_MAX_RATE.of v == 0 || decide (1000 * s.portRate n ≤ t.strictSum n))) ||
      decide (TQ_CLASS_SCHED_QUANTUM.of v < 256) then
    (s.setErr TQ_ERR_SCHED_REFUSED 0).refuseWrite (TQ_CLASS_SCHED.offset i) v.toNat
  else t

end Sys2Proof.Machine
end

