-- ==== Sys2Proof/Machine/Parse.lean ====
section
/-! DEFINITION. Ingress parsing (R156 to R162, R570): the headers of a frame, the Sceca header, the hash key of
R255 and the channel hash of R271, and the edits of a frame (R218, R303). -/

namespace Sys2Proof.Machine

/-- An IP header that the parser recognised. -/
structure IpHdr where
  /-- 4 or 6. -/
  version : Nat
  /-- Where it begins in the frame. -/
  off : Nat
  /-- 16 bytes; an IPv4 address in the first four. -/
  src : List Byte
  dst : List Byte
  /-- The protocol the header chain ends in. -/
  proto : Nat
  ttl : Nat
  dscp : Nat
  ecn : Nat
  flow : Nat
  fragment : Bool
  /-- Bytes of the frame up to the end that the IP length gives. -/
  frameLen : Nat
  /-- Offset of what follows the chain; none where the parser stops in it or before it. -/
  next : Option Nat
  deriving DecidableEq, Repr

/-- The headers of a frame as the parser reads them (R156). -/
structure Hdr where
  dstMac : Nat
  srcMac : Nat
  /-- TCI of each VLAN tag, outer first (at most two). -/
  tags : List Nat
  /-- The EtherType after the tags. -/
  etherType : Nat
  /-- Offset of what follows the EtherType. -/
  l3 : Nat
  ip : Option IpHdr
  /-- UDP or TCP: source port, destination port, offset of its header. -/
  ports : Option (Nat × Nat × Nat)
  deriving DecidableEq, Repr

/-- The tags from offset 12 on: their TCIs, the EtherType and the offset after it. -/
def parseTags (h : List Byte) : Nat → Nat → List Nat × Nat × Nat
  | 0, o => ([], be h o 2, o + 2)
  | k + 1, o =>
    if (be h o 2 = 0x8100 ∨ be h o 2 = 0x88A8) ∧ o + 6 ≤ h.length then
      let r := parseTags h k (o + 4)
      (be h (o + 2) 2 :: r.1, r.2)
    else ([], be h o 2, o + 2)

/-- R156: the IPv6 extension chain of at most 128 bytes: the protocol it ends in, whether it holds a Fragment header, and the
offset after it where the whole chain could be read. What follows a Fragment header is payload that not every fragment carries:
the chain ends there in the protocol that the header names, alike in every fragment (R255). -/
def parseChain (h : List Byte) (start : Nat) : Nat → Nat → Nat → Nat × Bool × Option Nat
  | 0, p, _ => (p, false, none)
  | fuel + 1, p, o =>
    if p = 44 then (if o + 8 ≤ h.length ∧ o + 8 ≤ start + 128 then (be h o 1, true, none) else (p, true, none))
    else if p = 0 ∨ p = 43 ∨ p = 60 then
      let len := 8 * (be h (o + 1) 1 + 1)
      if o + len ≤ h.length ∧ o + len ≤ start + 128 then parseChain h start fuel (be h o 1) (o + len) else (p, false, none)
    else (p, false, some o)

/-- The IPv4 header at offset `o`. -/
def parseIpv4 (h : List Byte) (o : Nat) : Option IpHdr :=
  let ihl := 4 * (be h o 1 % 16)
  if ihl < 20 ∨ h.length < o + ihl then none
  else
    let frag := be h (o + 6) 2
    let isFrag := frag.testBit 13 || frag % 8192 != 0
    some { version := 4, off := o, src := fitTo 16 (slice h (o + 12) 4), dst := fitTo 16 (slice h (o + 16) 4),
           proto := be h (o + 9) 1, ttl := be h (o + 8) 1, dscp := be h (o + 1) 1 / 4, ecn := be h (o + 1) 1 % 4, flow := 0,
           fragment := isFrag, frameLen := o + be h (o + 2) 2, next := if isFrag then none else some (o + ihl) }

/-- The IPv6 header at offset `o`. -/
def parseIpv6 (h : List Byte) (o : Nat) : Option IpHdr :=
  if h.length < o + 40 then none
  else
    let w := be h o 4
    let (p, frag, nx) := parseChain h (o + 40) 17 (be h (o + 6) 1) (o + 40)
    some { version := 6, off := o, src := slice h (o + 8) 16, dst := slice h (o + 24) 16, proto := p, ttl := be h (o + 7) 1,
           dscp := bitsOf w 27 22, ecn := bitsOf w 21 20, flow := bitsOf w 19 0, fragment := frag,
           frameLen := o + 40 + be h (o + 4) 2, next := if frag then none else nx }

/-- R156: the parser, over at most the first 256 bytes of a frame. -/
def parse (frame : List Byte) : Hdr :=
  let h := frame.take 256
  let (tags, et, l3) := parseTags h 2 12
  let ip := if et = 0x0800 then parseIpv4 h l3 else if et = 0x86DD then parseIpv6 h l3 else none
  let ports := match ip with
    | some i =>
      match i.next with
      | some o => if (i.proto = 17 ∧ o + 8 ≤ h.length) ∨ (i.proto = 6 ∧ o + 20 ≤ h.length)
                  then some (be h o 2, be h (o + 2) 2, o) else none
      | none => none
    | none => none
  { dstMac := be h 0 6, srcMac := be h 6 6, tags := tags, etherType := et, l3 := l3, ip := ip, ports := ports }

/-- A UDP header was parsed. -/
def Hdr.udp (h : Hdr) : Option (Nat × Nat) :=
  match h.ip, h.ports with
  | some i, some (_, d, o) => if i.proto = 17 then some (d, o) else none
  | _, _ => none

/-- A MAC address is multicast or broadcast. -/
def macMulticast (m : Nat) : Bool := m.testBit 40

/-- R217: the VID of a bridged frame. -/
def Hdr.vid (h : Hdr) : Nat := match h.tags with
  | t :: _ => t % 4096
  | [] => 0

/-- R494: the frame carries the mark CE. -/
def Hdr.ceMarked (h : Hdr) : Bool := match h.ip with
  | some i => i.ecn == 3
  | none => false

/-- R217: the IP destination is unicast. PRESUMED (log 21): 224.0.0.0/4, 255.255.255.255 and ff00::/8 are not. -/
def IpHdr.unicast (i : IpHdr) : Bool :=
  if i.version = 4 then decide (be i.dst 0 1 < 224) || (decide (240 ≤ be i.dst 0 1) && be i.dst 0 4 != 0xFFFFFFFF)
  else be i.dst 0 1 != 0xFF

/-! ### Sceca (R159 to R162) -/

/-- A Sceca header (R161). -/
structure Sceca where
  version : Nat
  type : Nat
  flags : Nat
  partition : Nat
  group : Nat
  sequence : Nat
  block : Nat
  source : Nat
  format : Nat
  reserved : Nat
  payloadLen : Nat
  memoryKey : Nat
  versionNo : Nat
  offset : Nat
  check : Nat
  /-- Offset of the header in the frame. -/
  at_ : Nat
  deriving DecidableEq, Repr

/-- VNET of FLAGS. -/
def Sceca.vnet (h : Sceca) : Nat := bitsOf h.flags 2 0
/-- FLAGS.FENCE. -/
def Sceca.fence (h : Sceca) : Bool := h.flags.testBit 7
/-- FLAGS.ECN_ECHO. -/
def Sceca.ecnEcho (h : Sceca) : Bool := h.flags.testBit 6
/-- FLAGS.LAST. -/
def Sceca.last (h : Sceca) : Bool := h.flags.testBit 5
/-- FLAGS.REPLAY. -/
def Sceca.replay (h : Sceca) : Bool := h.flags.testBit 4

/-- The Sceca header at an offset of a frame. -/
def scecaAt (f : List Byte) (o : Nat) : Sceca :=
  { version := be f o 1 / 16, type := be f o 1 % 16, flags := be f (o + 1) 1, partition := be f (o + 2) 2,
    group := be f (o + 4) 4, sequence := be f (o + 8) 4, block := be f (o + 12) 4, source := be f (o + 16) 4,
    format := be f (o + 20) 1, reserved := be f (o + 21) 1, payloadLen := be f (o + 22) 2, memoryKey := be f (o + 24) 4,
    versionNo := be f (o + 28) 4, offset := be f (o + 32) 8, check := be f (o + 40) 8, at_ := o }

/-- R159: the Sceca header of a frame, where the frame is a Sceca packet. -/
def State.sceca (s : State) (frame : List Byte) (h : Hdr) : Option Sceca :=
  match h.ip, h.udp with
  | some i, some (d, o) =>
    if s.flag PC_SCECA_CFG_ENABLE 0 && i.version == 6 && d == s.rd PC_SCECA_CFG_UDP_PORT 0 then
      some (scecaAt (frame.take 256) (o + 8))
    else none
  | _, _ => none

/-- One of the device's collective addresses (R215). DEDUCED (log 22): byte 0 of the address stands at the
lowest register address, as R132 holds digests. -/
def State.scecaAddr (s : State) (a : Nat) : List Byte := s.getBytes PC_SCECA_ADDR (2 * a) 2

/-- R159: an IPv6 destination is one of the device's own. -/
def State.ownAddress (s : State) (dst : List Byte) : Bool :=
  (List.range 4).any (fun a => !allZero (s.scecaAddr a) && s.scecaAddr a == dst)

/-- R159: a Sceca packet addressed to the device. -/
def State.scecaToDevice (s : State) (frame : List Byte) (h : Hdr) : Option Sceca :=
  match s.sceca frame h, h.ip with
  | some c, some i => if s.ownAddress i.dst then some c else none
  | _, _ => none

/-- R160, R162: VERSION is 0x1 and TYPE is defined. -/
def Sceca.defined (c : Sceca) : Bool := c.version == 1 && decide (1 ≤ c.type ∧ c.type ≤ 5)

/-! ### Classes and networks (R157, R158) -/

/-- R157: the class of a frame that enters an Ethernet port. -/
def State.ethernetClass (s : State) (port : Nat) (h : Hdr) : Nat :=
  match h.tags with
  | t :: _ => t / 8192
  | [] =>
    match h.ip with
    | some i => bitsOf (s.word (PC_DSCP_CLASS.offset (i.dscp / 16))).toNat (4 * (i.dscp % 16) + 2) (4 * (i.dscp % 16))
    | none => s.rd PC_PORT_CFG_DEFAULT_CLASS port

/-- R158: the virtual network of a data frame: 0 MGMT, 1 REQ, 2 COLL, 3 FWD, 4 RSP. -/
def networkOf (c : Option Sceca) : Nat := match c with
  | some h => if 4 < h.vnet then 3 else h.vnet
  | none => 3

/-! ### Hashes (R255, R271, R297) -/

/-- R255: the 40-byte hash key of a frame; `zeroBlock` takes bytes 36 to 39 of a Sceca packet as zero. -/
def hashKey (h : Hdr) (c : Option Sceca) (zeroBlock : Bool) : List Byte :=
  let ports := match h.ports with
    | some (a, b, _) => natBe 2 a ++ natBe 2 b
    | none => zeros 4
  match h.ip, c with
  | some i, some x => i.src ++ i.dst ++ natBe 4 x.group ++ natBe 4 (if zeroBlock then 0 else x.block)
  | some i, none =>
    if i.version = 6 then i.src ++ i.dst ++ natBe 1 i.proto ++ natBe 3 i.flow ++ ports
    else fitTo 16 (i.src.take 4) ++ fitTo 16 (i.dst.take 4) ++ natBe 1 i.proto ++ zeros 3 ++ ports
  | none, _ => fitTo 40 (natBe 6 h.srcMac ++ natBe 6 h.dstMac ++ natBe 2 h.vid ++ natBe 2 h.etherType)

/-- R271: the channel hash C. -/
def State.channelHash (s : State) (h : Hdr) (c : Option Sceca) : Nat :=
  crc32c (s.rd FT_SPRAY_SEED_SEED 0) (hashKey h c true)

/-- R297, R298: the packet's channel is STRICT. -/
def strictChannel (h : Hdr) (c : Option Sceca) : Bool :=
  match h.ip, c with
  | some i, some _ => i.flow.testBit 19
  | _, _ => false

/-! ### Edits -/

/-- RFC 1624: a ones' complement checksum after a 16-bit word under it changes. -/
def checksumUpdate (sum old new : Nat) : Nat :=
  let t := (0xFFFF - sum) + (0xFFFF - old) + new
  let u := t % 65536 + t / 65536
  0xFFFF - (u % 65536 + u / 65536)

/-- A 16-bit word of a string replaced, and a ones' complement checksum elsewhere in it updated. -/
def editWord (f : List Byte) (o new sumAt : Nat) : List Byte :=
  let sum := checksumUpdate (be f sumAt 2) (be f o 2) new
  overlay (overlay f o (natBe 2 new)) sumAt (natBe 2 sum)

/-- R218: the head of a routed frame after its edits. -/
def routedEdit (f : List Byte) (h : Hdr) (dmac router : Nat) : List Byte :=
  match h.ip with
  | none => f
  | some i =>
    let g := if i.version = 4 then editWord f (i.off + 8) (be f (i.off + 8) 2 - 256) (i.off + 10)
      else overlay f (i.off + 7) (natBe 1 (i.ttl - 1))
    natBe 6 dmac ++ natBe 6 router ++ natBe 2 h.etherType ++ g.drop h.l3

/-- R282, R303: CE is set on an ECN-capable frame; the frame unchanged where it is not ECN-capable. -/
def markCe (f : List Byte) : List Byte :=
  let h := parse f
  match h.ip with
  | none => f
  | some i =>
    if i.ecn = 1 ∨ i.ecn = 2 then
      if i.version = 4 then editWord f i.off (be f i.off 2 ||| 3) (i.off + 10)
      else overlay f i.off (natBe 2 (be f i.off 2 ||| 0x30))
    else f

/-- An ECN-capable frame (ECT(0) or ECT(1)). -/
def ecnCapable (f : List Byte) : Bool := match (parse f).ip with
  | some i => i.ecn == 1 || i.ecn == 2
  | none => false

/-- R282: DEI of the outer tag is set, where the frame has one. -/
def setDei (f : List Byte) : List Byte :=
  if (parse f).tags.isEmpty then f else overlay f 14 (natBe 2 (be f 14 2 ||| 0x1000))

/-! ### PTP (R570) -/

/-- Offset of the PTP message in a frame, where the frame carries one in a recognised mapping. -/
def ptpAt (h : Hdr) : Option Nat :=
  if h.etherType = 0x88F7 then some h.l3
  else match h.udp with
    | some (319, o) => some (o + 8)
    | _ => none

/-- R570: a PTP version 2 event message of type Sync or Delay_Req that the device corrects. -/
def ptpEvent (f : List Byte) (h : Hdr) : Option Nat :=
  match ptpAt h with
  | some o =>
    if be f o 1 % 16 ≤ 1 ∧ be f (o + 1) 1 % 16 = 2 ∧ o + 34 ≤ (f.take 256).length ∧
        ¬(h.etherType = 0x88F7 ∧ h.dstMac = 0x0180C200000E) then some o else none
  | none => none

/-- R570: a peer-delay frame. -/
def ptpPeerDelay (h : Hdr) : Bool := h.etherType == 0x88F7 && h.dstMac == 0x0180C200000E

/-- R571, R572: a residence in ns, with 16 fraction bits, added to the correctionField of the PTP message at
`o`; a UDP checksum that is not zero follows. -/
def ptpCorrect (f : List Byte) (h : Hdr) (o residence : Nat) : List Byte :=
  let new := natBe 8 (wrapAdd 64 (be f (o + 8) 8) residence)
  let g := overlay f (o + 8) new
  match h.udp with
  | none => g
  | some (_, u) =>
    if be f (u + 6) 2 = 0 then g
    else
      let sum := (List.range 4).foldl (fun c k => checksumUpdate c (be f (o + 8 + 2 * k) 2) (be new (2 * k) 2)) (be f (u + 6) 2)
      overlay g (u + 6) (natBe 2 sum)

end Sys2Proof.Machine
end

