-- ==== Sys2Proof/Machine/Buffer.lean ====
section
/-! DEFINITION. The shared buffer (R165 to R174, R181, R195, R206, R211, R295, R299, R300): cells, accounts,
admission, what a frame holds and how it lets go, fences, and PFC toward the peer. -/

namespace Sys2Proof.Machine

/-! ### Frames -/

/-- A frame the device holds. -/
def State.frame (s : State) (f : Nat) : Option FrameSt := (s.pc.frames.find? (fun kv => kv.1 == f)).map (fun kv => kv.2)

/-- The state with a frame stored. -/
def State.setFrame (s : State) (f : Nat) (x : FrameSt) : State :=
  { s with pc := { s.pc with frames := sput f x s.pc.frames } }

/-- The state with a frame changed by a function, where it is held. -/
def State.modFrame (s : State) (f : Nat) (g : FrameSt → FrameSt) : State :=
  match s.frame f with
  | some x => s.setFrame f (g x)
  | none => s

/-- The state without a frame. -/
def State.delFrame (s : State) (f : Nat) : State := { s with pc := { s.pc with frames := sdel f s.pc.frames } }

/-- R165: cells of a frame of `len` bytes. -/
def cellsOf (len : Nat) : Nat := (len + 255) / 256

/-! ### The frame check (R176, R177) -/

/-- R176: the FCS that ends a frame: the right one over the bytes sent, or stomped with a reason: its complement, exclusive-ORed
with the reason. -/
def wireFcs (bytes : List Byte) (stomp : Option Nat) : Nat := match stomp with
  | none => crc32 bytes
  | some r => crc32 bytes ^^^ 0xFFFFFFFF ^^^ (r % 256)

/-- A frame on the wire, with its FCS. -/
def frameOut (n : Nat) (tag : Option Nat) (bytes : List Byte) (stomp : Option Nat) : Out := .frame n tag bytes (wireFcs bytes stomp)

/-- R177, R178: what is wrong with a frame by its end, if anything: the counter of R214 that it raises, and the reason of R176. -/
def tailFault (bytes : List Byte) : Fcs → Option (Nat × Nat)
  | .fec => some (4, 4)
  | .received v =>
    let d := v.toNat ^^^ wireFcs bytes (some 0)
    if v.toNat = wireFcs bytes none then none
    else if d < 256 then some (if d ≤ 6 then 5 + d else 12, d)
    else some (4, 1)

/-- R214: a frame that the port itself sends is counted among those it sent. -/
def State.countTx (s : State) (n : Nat) (bytes : List Byte) : State := (s.portAdd n 2 1).portAdd n 3 (bytes.length + 4)

/-- R214: a good frame that the port itself takes is counted among those it received. -/
def State.countRx (s : State) (n len : Nat) : State := (s.portAdd n 0 1).portAdd n 1 len

/-- A frame of the port itself goes out as it is, and is counted. -/
def State.sendPlain (s : State) (n : Nat) (tag : Option Nat) (bytes : List Byte) : State := (s.emit (frameOut n tag bytes none)).countTx n bytes

/-- R26: the home switch die of a port. -/
def homeDie (port : Nat) : Nat := port / 512

/-- Cells a frame is charged on a die. -/
def FrameSt.cellsOn (x : FrameSt) (die : Nat) : Nat := ((x.charges.filter (fun c => c.1 == die)).map (fun c => c.2.2)).sum

/-- Cells of a frame under one charge on a die. -/
def FrameSt.chargedOn (x : FrameSt) (die : Nat) (k : Charge) : Nat :=
  ((x.charges.filter (fun c => c.1 == die && c.2.1 == k)).map (fun c => c.2.2)).sum

/-! ### Queues (R211, R309) -/

/-- The frames of a global queue, in order of admission. -/
def State.queue (s : State) (q : Nat) : List Nat := sget [] s.pc.queues q

/-- The state with a queue replaced. -/
def State.setQueue (s : State) (q : Nat) (l : List Nat) : State :=
  { s with pc := { s.pc with queues := sset [] q l s.pc.queues } }

/-- Cells of a frame that wait in a queue of a port. -/
def State.frameCells (s : State) (port f : Nat) : Nat := match s.frame f with
  | some x => x.cellsOn (homeDie port)
  | none => 0

/-- Cells a queue holds, in SRAM and in the Slipway. -/
def State.queueCells (s : State) (q : Nat) : Nat := ((s.queue q).map (s.frameCells (q / 1024))).sum

/-- The queues of a port that hold frames. -/
def State.portQueues (s : State) (port : Nat) : List Nat :=
  (s.pc.queues.filter (fun kv => kv.1 / 1024 == port)).map (fun kv => kv.1)

/-- R257: the load of a port: the cells queued to it. -/
def State.portLoad (s : State) (port : Nat) : Nat := ((s.portQueues port).map s.queueCells).sum

/-- The Slipway part of a queue: cells in SRAM at its head, pages in the region, pages in flight. -/
def State.slipOf (s : State) (q : Nat) : Nat × Nat × Nat := sget (0, 0, 0) s.pc.slip q

/-- The pages of its die's region that a queue's cells lie in, oldest first. -/
def State.slipPages (s : State) (q : Nat) : List Nat := sget [] s.pc.slipPages q

/-- R204: the lowest page of a die's region that holds no cells, below `n`. -/
def State.freePage (s : State) (die n : Nat) : Nat :=
  let used := (s.pc.slipPages.filter (fun kv => homeDie (kv.1 / 1024) == die)).flatMap (fun kv => kv.2)
  ((List.range n).find? (fun k => !used.contains k)).getD n

/-- R32: the pages of a queue once it holds `n`: the oldest are let go, and new ones are the lowest free. -/
def State.fitPages (s : State) (q n : Nat) : List Nat :=
  let old := s.slipPages q
  if n ≤ old.length then old.drop (old.length - n)
  else old ++ [s.freePage (homeDie (q / 1024)) (s.rd PC_SLIP_SIZE_SIZE (homeDie (q / 1024)) / 4096)]

/-- The state with a queue's Slipway part replaced. -/
def State.setSlip (s : State) (q : Nat) (v : Nat × Nat × Nat) : State :=
  { s with pc := { s.pc with slip := sset (0, 0, 0) q v s.pc.slip, slipPages := sset [] q (s.fitPages q (v.2.1 + v.2.2)) s.pc.slipPages } }

/-- Pages of a queue that hold cells in the region. -/
def State.pagesOf (s : State) (q : Nat) : Nat := (s.slipOf q).2.1 + (s.slipOf q).2.2

/-- The frames of a queue with the cells that stand before each. -/
def State.placed (s : State) (q : Nat) : List (Nat × Nat) :=
  ((s.queue q).foldl (fun (acc : Nat × List (Nat × Nat)) f =>
    (acc.1 + s.frameCells (q / 1024) f, acc.2 ++ [(f, acc.1)])) (0, [])).2

/-- Cells of a frame, standing behind `a` others of its queue, that lie in the queue's pages. -/
def State.pagedCells (s : State) (q a cells : Nat) : Nat :=
  let h := (s.slipOf q).1
  min (a + cells) (h + 16 * s.pagesOf q) - max a h

/-- R173, R208: cells of a die that were charged against `kinds` and lie in its region. -/
def State.pagedUnder (s : State) (die : Nat) (kinds : Charge → Bool) : Nat :=
  ((s.pc.slip.filter (fun kv => homeDie (kv.1 / 1024) == die && kv.2.2.1 + kv.2.2.2 != 0)).map (fun kv =>
    ((s.placed kv.1).map (fun fa => match s.frame fa.1 with
      | some x => if x.charges.any (fun c => c.1 == die && kinds c.2.1 && c.2.2 != 0) then s.pagedCells kv.1 fa.2 (x.cellsOn die) else 0
      | none => 0)).sum)).sum

/-- SRAM cells of a queue. -/
def State.sramCells (s : State) (q : Nat) : Nat := s.queueCells q - 16 * s.pagesOf q

/-- R205: pages used in a die's region. -/
def State.pagesUsed (s : State) (die : Nat) : Nat :=
  ((s.pc.slip.filter (fun kv => homeDie (kv.1 / 1024) == die)).map (fun kv => kv.2.2.1 + kv.2.2.2)).sum

/-- R205: queues with a page in a die's region. -/
def State.queuesResident (s : State) (die : Nat) : Nat :=
  (s.pc.slip.filter (fun kv => homeDie (kv.1 / 1024) == die && kv.2.2.1 + kv.2.2.2 != 0)).length

/-- R127, R205: the Slipway of a die is full. -/
def State.slipFull (s : State) (die : Nat) : Bool :=
  !s.stacksReady die || decide (s.rd PC_SLIP_SIZE_SIZE die / 4096 ≤ s.pagesUsed die)

/-- The three congestion states of a queue (R211). -/
inductive Congestion where
  | clear
  | rising
  | slipway
  deriving DecidableEq, Repr

/-- R211: the congestion state of a queue. -/
def State.congestion (s : State) (q : Nat) : Congestion :=
  if s.pagesOf q ≠ 0 then .slipway
  else if s.rd PC_SLIP_CFG_MARK_CELLS (homeDie (q / 1024)) ≤ s.sramCells q then .rising
  else .clear

/-! ### Pools (R166, R172, R295) -/

/-- R166: the buffer cells of a die. -/
def State.dieCells (s : State) (die : Nat) : Nat := (0x10000000 - 0x400000 * s.rd MS_CACHE_CFG_SHARE die) / 256

/-- R192, R193: the credit pool of a port in force: POOL, or the pool sized at initialisation. -/
def State.creditPool (s : State) (n : Nat) : Nat :=
  let p := s.rd PC_CREDIT_CFG_POOL n
  if p = 0 then (s.port n).pool else p

/-- R166: what a port adds to RESV. -/
def State.portResv (s : State) (n : Nat) : Nat :=
  if !s.portEnabled n then 0
  else if s.isFabric n then s.creditPool n
  else ((List.range 8).map (fun c =>
    s.rd PC_ING_ACCT_MIN (8 * n + c) +
    (if (s.rd PC_CLASS_MODE_LOSSLESS n).testBit c then s.rd PC_ING_ACCT_HEADROOM (8 * n + c) else 0))).sum

/-- R166: RESV, alike on both dies, since each keeps its own copy of every account and pool. -/
def State.resv (s : State) : Nat := ((List.range 1024).map s.portResv).sum

/-- R166: the cells held back for reservations on a die. -/
def State.resvSram (s : State) (die : Nat) : Nat := min (s.rd PC_BUF_CFG_RES_SRAM die) s.resv

/-- R166: the shared pool of a die. -/
def State.sharedPool (s : State) (die : Nat) : Nat := s.dieCells die - s.resvSram die

/-- Cells under one charge on a die. -/
def State.chargedCells (s : State) (die : Nat) (k : Charge) : Nat :=
  (s.pc.frames.map (fun kv => kv.2.chargedOn die k)).sum

/-- Cells of a die's SRAM that the shared pool lends: those charged to it that no page holds. -/
def State.sharedUsed (s : State) (die : Nat) : Nat := s.chargedCells die .shared - s.pagedUnder die (fun k => k == .shared)

/-- R173: free cells of the shared pool, less what result charges hold. -/
def State.sharedFree (s : State) (die : Nat) : Nat := s.sharedPool die - s.sharedUsed die - s.rd TQ_RESULT_CFG_HELD die

/-- R170: cells of a die in use in SRAM. -/
def State.sramUsed (s : State) (die : Nat) : Nat :=
  (s.pc.frames.map (fun kv => kv.2.cellsOn die)).sum - 16 * s.pagesUsed die

/-- R170: free cells of a die. -/
def State.sramFree (s : State) (die : Nat) : Nat := s.dieCells die - s.sramUsed die

/-- R172: SHARED holds at least 8,192 cells on each die. -/
def State.poolsFit (s : State) : Bool := decide (8192 ≤ s.sharedPool 0 ∧ 8192 ≤ s.sharedPool 1)

/-- R172: a change that would leave too little is discarded and sets RESERVE_REFUSED on each die it fails on. -/
def State.refuseReserve (s t : State) (off : Nat) (v : Word) : State :=
  let mark := fun (u : State) d => if t.sharedPool d < 8192 then u.setErr PC_BUF_ERR_RESERVE_REFUSED d else u
  (mark (mark s 0) 1).raise { code := 0x0202, kind := 15, logical := off, die := dieOf off, detail0 := off, detail1 := v.toNat }

/-- R172: a write of a register that bears on the reservations. -/
def reserveWrite (r : Reg) (i : Nat) (v : Word) (s : State) : State :=
  let t := s.plainWrite r i v
  if t.poolsFit then t else s.refuseReserve t (r.offset i) v

/-! ### Accounts and PFC (R173, R181) -/

/-- Cells of a port's class account on a die under one charge. -/
def State.acctCells (s : State) (n cls die : Nat) (k : Charge) : Nat :=
  ((s.pc.frames.filter (fun kv => kv.2.ingress == some n && kv.2.cls == cls)).map (fun kv => kv.2.chargedOn die k)).sum

/-- R168, R173: `used` cells lie within ALPHA code `k` of `free` cells. -/
def withinAlpha (k used free : Nat) : Bool := decide (used * 64 ≤ 2 ^ k * free)

/-- R167: class `c` of port `n` is lossless. -/
def State.lossless (s : State) (n c : Nat) : Bool := !s.isFabric n && (s.rd PC_CLASS_MODE_LOSSLESS n).testBit c

/-- The 48-bit MAC address of a port. -/
def portMac (n : Nat) : List Byte := natBe 6 (Config.portMac n).toNat

/-- R181: a PFC frame with a quanta value for one class, padded to 60 bytes. -/
def pfcFrame (n cls quanta : Nat) : List Byte :=
  fitTo 60 (natBe 6 0x0180C2000001 ++ portMac n ++ natBe 2 0x8808 ++ natBe 2 0x0101 ++ natBe 2 (2 ^ cls) ++
    (List.range 8).flatMap (fun c => natBe 2 (if c = cls then quanta else 0)))

/-- R181: an XOFF for a class is sent. -/
def State.sendXoff (s : State) (n cls : Nat) : State :=
  ((s.modPort n (fun p => { p with xoffSent := p.xoffSent ||| 2 ^ cls })).sendPlain n none (pfcFrame n cls 0xFFFF)).portAdd n (27 + cls) 1

/-- R181: the account of a class lies low enough on a die for XON. -/
def State.xonDie (s : State) (n cls die : Nat) : Bool :=
  let delta := s.rd PC_CLASS_MODE_XON_DELTA n
  s.acctCells n cls die .headroom == 0 &&
  withinAlpha (s.rd PC_ING_ACCT_ALPHA (8 * n + cls)) (s.acctCells n cls die .shared + delta) (s.sharedFree die)

/-- R181: an XON follows once both dies' accounts lie low enough. -/
def State.settlePfc (s : State) (n cls : Nat) : State :=
  if (s.port n).xoffSent.testBit cls && s.xonDie n cls 0 && s.xonDie n cls 1 then
    (s.modPort n (fun p => { p with xoffSent := p.xoffSent - 2 ^ cls })).sendPlain n none (pfcFrame n cls 0)
  else s

/-! ### Fences (R300) -/

/-- A fence slot. -/
def State.fence (s : State) (k : Nat) : Fence := sget Fence.reset s.tq.fences k

/-- The state with a fence slot replaced. -/
def State.setFence (s : State) (k : Nat) (v : Fence) : State :=
  { s with tq := { s.tq with fences := sset Fence.reset k v s.tq.fences } }

/-- n of a phase. -/
def Fence.count (v : Fence) (ph : Nat) : Nat := if ph = 0 then v.n0 else v.n1

/-- n of a phase changed. -/
def Fence.add (v : Fence) (ph : Nat) (d : Int) : Fence :=
  if ph = 0 then { v with n0 := ((v.n0 : Int) + d).toNat } else { v with n1 := ((v.n1 : Int) + d).toNat }

/-- R300: start(x) for frame `f` at the head of F. -/
def State.startFence (s : State) (k f : Nat) : State :=
  let v := s.fence k
  let ph := 1 - v.phase
  (s.setFence k ({ v with phase := ph }.add ph 1)).modFrame f (fun x => { x with fence := some (k, ph, true) })

/-- R300: admit(x): the phase a packet counts under; a fence packet joins F and is held. -/
def State.admitFence (s : State) (k f : Nat) (flagged : Bool) : State :=
  let v := s.fence k
  if flagged then
    let t := (s.setFence k { v with held := v.held ++ [f] }).modFrame f (fun x => { x with fence := some (k, v.phase, true) })
    if v.held.isEmpty then t.startFence k f else t
  else (s.setFence k (v.add v.phase 1)).modFrame f (fun x => { x with fence := some (k, v.phase, false) })

/-- R300: the head of F leaves it, and the next is started. -/
def State.popFence (s : State) (k : Nat) : State :=
  let v := s.fence k
  let rest := v.held.drop 1
  let t := s.setFence k { v with held := rest }
  match rest with
  | g :: _ => t.startFence k g
  | [] => t

/-- R300: complete(x). A held packet that is dropped before it has started was not counted and leaves F; the head of F stays there
until it is released, so that the next fence waits as if it were still held. -/
def State.completeFence (s : State) (f : Nat) : State :=
  match (s.frame f).bind (fun x => x.fence) with
  | none => s
  | some (k, ph, held) =>
    let v := s.fence k
    let t := s.modFrame f (fun x => { x with fence := none })
    if !held || v.held.head? == some f then t.setFence k (v.add ph (-1))
    else t.setFence k { v with held := v.held.filter (fun g => g != f) }

/-- R300: release: the head of F becomes eligible once every packet of the phase before it is complete. -/
def fenceRelease (k : Nat) (s : State) : State :=
  let v := s.fence k
  match v.held with
  | f :: _ =>
    if v.count (1 - v.phase) = 0 then
      (s.modFrame f (fun x => { x with fence := x.fence.map (fun e => (e.1, e.2.1, false)) })).popFence k
    else s
  | [] => s

/-- R300: a packet of a fence slot that is complete as soon as it is admitted: it leaves no count, but a fence packet that
starts turns the phase. -/
def State.passFence (s : State) (k : Nat) (flagged : Bool) : State :=
  let v := s.fence k
  if flagged && v.held.isEmpty then
    State.setFence { s with pc := { s.pc with nextFrame := s.pc.nextFrame + 1 } } k { v with held := [s.pc.nextFrame], phase := 1 - v.phase }
  else s

/-! ### Letting go (R195, R295, R299) -/

/-- R188, R195: cells of a network join a port's CREDIT_RET. -/
def State.returnCredit (s : State) (n net cells : Nat) : State :=
  s.modPort n (fun p => { p with creditRet := p.creditRet.set net (wrapAdd 24 (p.creditRet.getD net 0) cells) })

/-- R295: the result charge that a frame's cells hold is released. -/
def State.releaseResult (s : State) (x : FrameSt) : State :=
  (List.range 2).foldl (fun t d => t.wr TQ_RESULT_CFG_HELD d (t.rd TQ_RESULT_CFG_HELD d - x.chargedOn d .result)) s

/-- R181: every class that XOFF was sent for is looked at again. -/
def State.settleAllPfc (s : State) : State :=
  ((s.pc.ports.filter (fun kv => kv.2.xoffSent != 0)).map (fun kv => kv.1)).foldl (fun t n =>
    (List.range 8).foldl (fun u c => u.settlePfc n c) t) s

/-- R178, R195: a frame lets go of its cells: result charges are released, credit is returned for a frame that
was accepted in sequence, and PFC follows. -/
def State.freeCells (s : State) (f : Nat) : State :=
  match s.frame f with
  | none => s
  | some x =>
    let t := (s.releaseResult x).setFrame f { x with charges := [], freed := true }
    let u := match x.ingress with
      | some n => if t.isFabric n && x.checked then t.returnCredit n x.credit (cellsOf x.len) else t
      | none => t
    u.settleAllPfc

/-- The copies of a frame that are still to leave. -/
def FrameSt.waiting (x : FrameSt) : List Copy := x.copies.filter (fun c => !c.done)

/-- A frame of which nothing is known: it holds no cells and goes nowhere. -/
def FrameSt.blank : FrameSt :=
  { ingress := none, bytes := [], cls := 0, net := 0, credit := 0, misnet := false, checked := false, early := false, stomp := none, charges := [],
    copies := [], len := 0, raw := [], freed := false, linkSeq := none, fence := none, arrival := none, flow := none, learn := none, via := [] }

/-- The frame's tail has come, good or bad, or it never had one to wait for. -/
def FrameSt.ended (x : FrameSt) : Bool := x.checked || x.stomp.isSome || x.ingress.isNone

/-- R28, R299: a frame that no copy waits for lets its cells go; one whose copies are all complete is complete,
and it is forgotten once its tail has come. -/
def State.settleFrame (s : State) (f : Nat) : State :=
  match s.frame f with
  | none => s
  | some x =>
    if !x.waiting.isEmpty then s
    else
      let t := if x.freed then s else s.freeCells f
      if x.copies.all (fun c => c.complete) then
        let u := t.completeFence f
        if x.ended then u.delFrame f else u
      else t

/-- R209: the Slipway part of a queue after `c` cells leave its head: what SRAM does not hold comes from its pages. -/
def State.slipTake (s : State) (q c : Nat) : State :=
  let (h, p, g) := s.slipOf q
  if p + g = 0 then s.setSlip q (0, 0, 0)
  else
    let left := h + 16 * (p + g) - c
    let pages := min (p + g) (left / 16)
    s.setSlip q (left - 16 * pages, pages - min g pages, min g pages)

/-! ### Rounds of the scheduler (R277) -/

/-- A class of a port's scheduler: its queue-level round robin. -/
def PortSt.queueRound (p : PortSt) (c : Nat) : Drr := sget ⟨[], [], false⟩ p.queueDrr c

/-- A member joins a round robin when it becomes non-empty. -/
def Drr.join (d : Drr) (m : Nat) : Drr := if d.active.contains m then d else { d with active := d.active ++ [m] }

/-- A member that holds no frames leaves a round robin with its deficit. -/
def Drr.leave (d : Drr) (m : Nat) : Drr :=
  { active := d.active.filter (fun k => k != m), deficit := sdel m d.deficit, granted := d.granted && d.active.head? != some m }

/-- The class of a port whose round robin holds a queue. -/
def PortSt.classOf (p : PortSt) (q : Nat) : Option Nat := (p.queueDrr.find? (fun kv => kv.2.active.contains q)).map (fun kv => kv.1)

/-- A queue that has run empty leaves its class's round, and a class without queues the port's. -/
def PortSt.leaveQueue (p : PortSt) (q : Nat) : PortSt :=
  match p.classOf q with
  | none => p
  | some c =>
    let d := (p.queueRound c).leave q
    if d.active.isEmpty then { p with queueDrr := sdel c p.queueDrr, clsDrr := p.clsDrr.leave c }
    else { p with queueDrr := sput c d p.queueDrr }

/-- R299: the copy of a frame that left through a fabric port is complete. -/
def State.ackCopy (s : State) (f port : Nat) : State :=
  let mark := fun (c : Copy) => if c.port == port && c.done then { c with complete := true } else c
  (s.modFrame f (fun x => { x with copies := x.copies.map mark })).settleFrame f

/-- A copy of a frame has ended: it left its queue, was dropped or discarded; `complete` in the sense of R299. -/
def State.endCopy (s : State) (f q : Nat) (complete : Bool) : State :=
  let c := s.frameCells (q / 1024) f
  let first := (s.queue q).head? == some f
  let t := s.setQueue q ((s.queue q).filter (fun g => g != f))
  let u := if first then t.slipTake q c else t
  let v := if (u.queue q).isEmpty then (u.setSlip q (0, 0, 0)).modPort (q / 1024) (fun p => p.leaveQueue q) else u
  let mark := fun (c : Copy) => if c.queue == q then { c with done := true, complete := complete } else c
  (v.modFrame f (fun x => { x with copies := x.copies.map mark })).settleFrame f

end Sys2Proof.Machine
end

