-- ==== Sys2Proof/Machine/Spares.lean ====
section
/-! DEFINITION. Spares and budgets (R607, R608, R610): what is in use on each die, and the events a shrinking
budget raises. -/

namespace Sys2Proof.Machine

/-- R607: the spares of a die in the kind that FH_SPARE_STATUS.USED counts: lanes on a port die, tiles on a
reduction die, one pseudo-channel for each of six stacks on a switch die. -/
def spareBudget (die : Nat) : Nat := if die < 4 then 64 else if die < 6 then 6 else 8

/-- R610: BUDGET_LOW at two unused spares, BUDGET_SPENT at none. -/
def State.budgetEvents (s : State) (die kind unused : Nat) : State :=
  if unused = 2 then s.raise { code := 0x0C09, kind := kind, logical := die, die := die }
  else if unused = 0 then s.raise { code := 0x0C0A, kind := kind, logical := die, die := die }
  else s

/-- R146: the physical lane that stands `i`-th in lane group `g`. -/
def physicalLane (g i : Nat) : Nat := 576 * (g / 64) + 9 * (g % 64) + i

/-- R147, R608: the spare of a lane group is neither in use nor retired. -/
def State.laneSpareFree (s : State) (g : Nat) : Bool :=
  s.rd PC_LANE_GROUP_SPARE_FOR g == 15 && !s.fh.lanesRetired.contains (physicalLane g 8)

/-- R356, R607: the logical tile of a reduction die that stands on a physical tile, or is to stand on it once it is ready: none of
those withdrawn. -/
def State.logicalOf (s : State) (d phys : Nat) : Option Nat :=
  ((List.range 88).map (fun k => 88 * d + k)).find? (fun t => !s.fh.withdrawn.contains (4 * 65536 + t) && s.rd RE_TILE_MAP_PHYS t == phys)

/-- R607, R609: the physical tiles of a reduction die that are neither in use nor retired, in order. -/
def State.freeTiles (s : State) (d : Nat) : List Nat :=
  (List.range 96).filter (fun p => (s.logicalOf d p).isNone && !s.fh.tilesRetired.contains (128 * d + p))

/-- R607: the spares of a die that are left. -/
def State.unusedSpares (s : State) (die : Nat) : Nat :=
  if die < 4 then ((List.range 64).filter (fun k => s.laneSpareFree (64 * die + k))).length
  else if die < 6 then spareBudget die - s.rd FH_SPARE_STATUS_USED die
  else (s.freeTiles (die - 6)).length

/-- R607, R610: one more spare of a die is in use and one more unit is retired. -/
def State.useSpare (s : State) (die kind : Nat) : State :=
  let t := (s.addSat FH_SPARE_STATUS_USED die 1).addSat FH_SPARE_STATUS_RETIRED die 1
  t.budgetEvents die kind (t.unusedSpares die)

/-- R155, R607: the spare of a lane group stands in for its logical lane `j`. -/
def State.spareLane (s : State) (g j : Nat) : State :=
  let t : State := { s with fh := { s.fh with lanesRetired := s.fh.lanesRetired ++ [physicalLane g j] } }
  ((t.wr PC_LANE_GROUP_SPARE_FOR g j).useSpare (g / 64) 1).raise
    { code := 0x0207, kind := 1, logical := 8 * g + j, die := g / 64, physical := physicalLane g j }

/-- R608, R609: a tile that stands for no logical tile is retired. -/
def State.retireSpareTile (s : State) (d phys : Nat) : State :=
  let t : State := { s with fh := { s.fh with tilesRetired := s.fh.tilesRetired ++ [128 * d + phys] } }
  let u := t.addSat FH_SPARE_STATUS_RETIRED (6 + d) 1
  u.budgetEvents (6 + d) 4 (u.unusedSpares (6 + d))

/-! ### Recoveries (R611, R612, R629) -/

/-- R629: FH_REC_STATUS shows a recovery in its place. -/
def State.showRecovery (s : State) (r : Recovery) : State := match r.place with
  | some k => s.wrs [(FH_REC_STATUS_STATE, k, r.state), (FH_REC_STATUS_KIND, k, r.kind), (FH_REC_STATUS_RESTARTS, k, r.restarts),
      (FH_REC_STATUS_LOGICAL, k, r.logical)]
  | none => s

/-- A recovery acts on a unit. -/
def Recovery.isOf (r : Recovery) (kind logical : Nat) : Bool := r.kind == kind && r.logical == logical

/-- The recovery of a unit, queued or under way. -/
def State.recoveryOf (s : State) (kind logical : Nat) : Option Recovery := s.fh.recoveries.find? (fun r => r.isOf kind logical)

/-- A unit's recovery replaced, and shown. -/
def State.putRecovery (s : State) (r : Recovery) : State :=
  State.showRecovery { s with fh := { s.fh with recoveries := s.fh.recoveries.map (fun x => if x.isOf r.kind r.logical then r else x) } } r

/-- The die that an event about a recovery unit names. -/
def recoveryDie (kind logical : Nat) : Nat :=
  if kind = 1 then logical / 8 / 64 else if kind = 4 then 6 + logical / 88 else if kind = 5 then 4 + logical / 6 else if kind = 11 then logical else 8

/-- R619: the physical number of the unit that a recovery replaces. -/
def Recovery.physical (r : Recovery) : Nat := if r.kind = 4 then 128 * (r.logical / 88) + r.old else r.old

/-- R612: a recovery starts again from QUIESCE. -/
def State.restartRecovery (s : State) (r : Recovery) : State :=
  let q := { r with state := 1, restarts := satAdd 8 r.restarts 1 }
  (s.putRecovery q).raise { code := 0x0C04, kind := r.kind, logical := r.logical, die := recoveryDie r.kind r.logical, state := 1, physical := r.physical }

/-- R611, R612: a unit's recovery is queued; one under way restarts with the new fault added to it. -/
def State.queueRecovery (s : State) (kind logical old : Nat) (test : SpareTest) : State :=
  match s.recoveryOf kind logical with
  | some r => if r.state = 0 then s else s.restartRecovery { r with old := old, test := test, begun := s.now }
  | none =>
    let r : Recovery := { kind := kind, logical := logical, state := 0, restarts := 0, old := old, test := test, place := none, begun := s.now }
    { s with fh := { s.fh with recoveries := s.fh.recoveries ++ [r] } }

/-! ### Lanes that fail (R606, R624) -/

/-- The lane group of a physical lane and its place there (R146). -/
def laneOfPhysical (p : Nat) : Nat × Nat := (64 * (p / 576) + p % 576 / 9, p % 576 % 9)

/-- R608: the idle spare of a lane group is retired. -/
def State.retireIdleSpare (s : State) (g : Nat) : State :=
  let t : State := { s with fh := { s.fh with lanesRetired := s.fh.lanesRetired ++ [physicalLane g 8] } }
  let u := t.addSat FH_SPARE_STATUS_RETIRED (g / 64) 1
  u.budgetEvents (g / 64) 1 (u.unusedSpares (g / 64))

/-- R606, R628: a physical lane has failed for good: its logical lane's recovery is queued. -/
def State.laneFails (s : State) (p : Nat) : State :=
  let (g, i) := laneOfPhysical p
  let sp := s.rd PC_LANE_GROUP_SPARE_FOR g
  if s.fh.lanesRetired.contains p then s
  else if i = 8 then (if sp = 15 then s.retireIdleSpare g else s.queueRecovery 1 (8 * g + sp) p .none)
  else s.queueRecovery 1 (8 * g + i) p .none

/-- R155: the physical lane that carries logical lane `j` of lane group `g`. -/
def State.laneCarrier (s : State) (g j : Nat) : Nat := physicalLane g (if s.rd PC_LANE_GROUP_SPARE_FOR g = j then 8 else j)

/-- R624: the lane among logical lanes `js` of a group whose FEC symbol errors exceed ten times those of every other. DESIGN CHOICE
(log 29): the errors are those of each lane's latest check. -/
def State.worstLane (s : State) (g : Nat) (js : List Nat) : Option Nat :=
  let e := fun (j : Nat) => sget 0 s.fh.laneErrors (s.laneCarrier g j)
  js.find? (fun j => decide (0 < e j) && js.all (fun i => i == j || decide (10 * e i < e j)))

end Sys2Proof.Machine
end

