-- ==== Sys2Proof/Machine/Mem.lean ====
section
/-! DEFINITION. Device memory (R464 to R494, R506, R507): sectors and where they live, reads and writes with their
hints, write-back, bad stripes, flow counts, and moorings (R427 to R430). -/

namespace Sys2Proof.Machine

/-! ### Addresses (R469, R471) -/

/-- The stripe of a usable address. -/
def stripeOf (a : Nat) : Nat := a / 1024

/-- The sector of an address within its stripe. -/
def sectorOf (a : Nat) : Nat := a % 1024 / 32

/-- R469: the die of a stripe. -/
def stripeDie (t : Nat) : Nat := t / 2 ^ 28

/-- R471: the stack of a stripe. -/
def stripeStack (t : Nat) : Nat := 6 * stripeDie t + t % 2 ^ 28 % 6

/-- R471: the stripe's place within its stack. -/
def stripeInStack (t : Nat) : Nat := t % 2 ^ 28 / 6

/-- R471: the pseudo-channel of member `i` of a stripe. -/
def memberChannel (t i : Nat) : Nat := (18 * stripeInStack t + i) % 64

/-- R469: stripes that have storage behind them. -/
def stripeBacked (t : Nat) : Bool := decide (t < 2 ^ 29 ∧ t % 2 ^ 28 < 2 ^ 28 - 4)

/-! ### Where a sector is (R478) -/

/-- A line of a list by its stripe. -/
def lineAt (l : List Line) (t : Nat) : Option Line := l.find? (fun x => x.stripe == t)

/-- A sector that a line holds. -/
def Line.sector (x : Line) (k : Nat) : Option (List Byte) := (x.sectors.find? (fun ks => ks.1 == k)).map (fun ks => ks.2)

/-- A sector of a stripe in one of a list of lines. -/
def heldSector (l : List Line) (t k : Nat) : Option (List Byte) := (lineAt l t).bind (fun x => x.sector k)

/-- R478: the copy of a sector that is nearest: a cache line, the atomic store, the write-combining buffer. -/
def State.nearSector (s : State) (t k : Nat) : Option (List Byte) :=
  ((heldSector s.ms.lines t k).or (heldSector s.ms.atomic t k)).or (heldSector s.ms.combining t k)

/-- A sector as HBM holds it. -/
def State.farSector (s : State) (t k : Nat) : List Byte := sbytes s.ms.hbm (1024 * t + 32 * k) 32

/-- R478: a sector as every read sees it. -/
def State.sector (s : State) (t k : Nat) : List Byte := (s.nearSector t k).getD (s.farSector t k)

/-- One byte of device memory as every read sees it. -/
def State.memByte (s : State) (a : Nat) : Byte := (s.sector (stripeOf a) (sectorOf a)).getD (a % 32) 0

/-- A run of bytes of device memory. -/
def State.memBytes (s : State) (a n : Nat) : List Byte := (List.range n).map (fun i => s.memByte (a + i))

/-! ### Uncorrectable stripes (R506, R507) -/

/-- The entry of a die's bad-stripe list that names a stripe. -/
def State.badEntry (s : State) (t : Nat) : Option Nat :=
  (List.range 1024).find? (fun i =>
    let j := 1024 * stripeDie t + i
    s.flag MS_BAD_STRIPE_VALID j && s.rd MS_BAD_STRIPE_ADDRESS j == 1024 * t)

/-- R506, R507: a read of the stripe from HBM is uncorrectable. -/
def State.stripeLost (s : State) (t : Nat) : Bool := s.ms.unreadable.contains t || (s.badEntry t).isSome

/-- R507: the entries of a die's bad-stripe list, counted. -/
def State.countBad (s : State) (d : Nat) : State :=
  s.wr FH_SPARE_STATUS_BAD_STRIPES (4 + d) ((List.range 1024).countP (fun i => s.flag MS_BAD_STRIPE_VALID (1024 * d + i)))

/-- R614: a stack leaves service for good. -/
def State.stackFails (s : State) (h : Nat) : State :=
  if s.rd MS_HBM_STATUS_STATE h = 3 then s
  else
    ((s.wr MS_HBM_STATUS_STATE h 3).raise { code := 0x0807, kind := 5, logical := h, die := 4 + h / 6 }).fall (.hbm (Fin.ofNat 12 h))

/-- R507, R607, R610: a stripe joins the bad-stripe list, or takes its stack out of service where the list is full; its reads are
uncorrectable either way. -/
def State.joinBad (s : State) (t : Nat) : State :=
  let d := stripeDie t
  if (s.badEntry t).isSome then s
  else match (List.range 1024).find? (fun i => !s.flag MS_BAD_STRIPE_VALID (1024 * d + i)) with
    | some i =>
      let u := ((s.wr MS_BAD_STRIPE_VALID (1024 * d + i) 1).wr MS_BAD_STRIPE_ADDRESS (1024 * d + i) (1024 * t)).countBad d
      u.budgetEvents (4 + d) 5 (1024 - u.rd FH_SPARE_STATUS_BAD_STRIPES (4 + d))
    | none =>
      let lost : State := { s with ms := { s.ms with unreadable := s.ms.unreadable ++ [t] } }
      (lost.setErr MS_ERR_BAD_STRIPE_FULL d).stackFails (stripeStack t)

/-- R507: a stripe leaves the bad-stripe list. -/
def State.leaveBad (s : State) (t : Nat) : State :=
  let u : State := { s with ms := { s.ms with unreadable := s.ms.unreadable.filter (fun x => x != t), reread := s.ms.reread.filter (fun x => x != t) } }
  match u.badEntry t with
  | some i => (u.setWord (MS_BAD_STRIPE.offset (1024 * stripeDie t + i)) 0).countBad (stripeDie t)
  | none => u

/-- R506, R511: an uncorrectable read is recorded. -/
def State.uncorrectable (s : State) (t : Nat) : State :=
  ((s.setErr MS_ERR_UNCORRECTABLE (stripeDie t)).addWrap MS_ECC_COUNT_UNCORRECTABLE (stripeDie t) 1).raise
    { code := 0x0803, kind := 5, logical := stripeStack t, die := 4 + stripeDie t, detail0 := 1024 * t }

/-- R465, R475, R511: a corrected read of a die's memory. -/
def State.correctedRead (s : State) (d : Nat) : State := (s.setErr MS_ERR_CORRECTED d).addWrap MS_ECC_COUNT_CORRECTED d 1

/-- R465, R511: a read of a die's SRAM for resource `logical`: a corrected one is counted, an uncorrectable one reported. -/
def State.sramRead (s : State) (d logical : Nat) : Sram → State
  | .clean => s
  | .corrected => s.correctedRead d
  | .uncorrectable =>
    ((s.setErr MS_ERR_UNCORRECTABLE d).addWrap MS_ECC_COUNT_UNCORRECTABLE d 1).raise { code := 0x0803, logical := logical, die := 4 + d }

/-- R81: the index of the error record of an uncorrectable read of a stack that is about to be raised: the next record, or the
newest one of its kind while a merge window is open. -/
def State.errorIndex (s : State) (code logical : Nat) : Nat :=
  if s.fh.windows.any (fun w => w.1 == code * 2 ^ 32 + logical) then
    match (s.fh.log.filter (fun r => r.event == code && r.logical == logical)).getLast? with
    | some r => r.seq
    | none => s.rd FH_LOG_STATUS_NEXT_SEQ 0
  else s.rd FH_LOG_STATUS_NEXT_SEQ 0

/-! ### Writes to the stacks (R476) -/

/-- R476, R506, R507: sectors are written to a stripe. A full write restores a lost stripe; a partial one whose read
for new checks is uncorrectable puts the stripe on the bad-stripe list. -/
def State.stackWrite (s : State) (t : Nat) (sectors : List (Nat × List Byte)) : State :=
  let u : State := { s with ms := { s.ms with hbm := sectors.foldl (fun m kb => sstore m (1024 * t + 32 * kb.1) kb.2) s.ms.hbm } }
  if sectors.length = 32 then u.leaveBad t
  else if u.ms.unreadable.contains t && (u.badEntry t).isNone then (u.uncorrectable t).joinBad t
  else u

/-- The dirty sectors of a line. -/
def Line.dirtySectors (x : Line) : List (Nat × List Byte) := x.sectors.filter (fun ks => x.dirty.testBit ks.1)

/-- A line's dirty sectors are written back. -/
def State.writeBack (s : State) (x : Line) : State := if x.dirtySectors.isEmpty then s else s.stackWrite x.stripe x.dirtySectors

/-- WCB_USED of a die follows its entries. -/
def State.countCombining (s : State) (d : Nat) : State :=
  s.wr MS_CACHE_STATUS_WCB_USED d (s.ms.combining.countP (fun x => stripeDie x.stripe == d))

/-- R481: the write-combining entry of a stripe is written to HBM. -/
def State.flushCombining (s : State) (t : Nat) : State :=
  match lineAt s.ms.combining t with
  | none => s
  | some x =>
    let u : State := { s with ms := { s.ms with combining := s.ms.combining.filter (fun y => y.stripe != t) } }
    (u.writeBack x).countCombining (stripeDie t)

/-- R465, R506: what holds stripe `t` near was read from SRAM. A clean line that could not be read is dropped, to be read again from HBM;
of a dirty line or a write-combining entry the stripe joins the bad-stripe list. -/
def State.nearRead (s : State) (t : Nat) (sram : Sram) : State :=
  match ((lineAt s.ms.lines t).or (lineAt s.ms.atomic t)).or (lineAt s.ms.combining t), sram with
  | none, _ => s
  | some _, .clean => s
  | some _, .corrected => s.correctedRead (stripeDie t)
  | some x, .uncorrectable =>
    let rest := fun (l : List Line) => l.filter (fun y => y.stripe != t)
    let u : State := { s with ms := { s.ms with lines := rest s.ms.lines, atomic := rest s.ms.atomic, combining := rest s.ms.combining } }
    let v := u.countCombining (stripeDie t)
    if x.dirtySectors.isEmpty then v.uncorrectable t else v.joinBad t

/-! ### Lines -/

/-- Sectors stored over a line's own. -/
def putSectors (old new : List (Nat × List Byte)) : List (Nat × List Byte) := new.foldl (fun l kb => sput kb.1 kb.2 l) old

/-- The mask of a list of sectors. -/
def sectorMask (l : List (Nat × List Byte)) : Nat := l.foldl (fun m kb => m ||| 2 ^ kb.1) 0

/-- A line with sectors stored, dirty where they were written. -/
def Line.store (x : Line) (new : List (Nat × List Byte)) (dirty : Bool) : Line :=
  { x with sectors := putSectors x.sectors new, dirty := if dirty then x.dirty ||| sectorMask new else x.dirty }

/-- A list of lines with one line placed at its most recently used end. -/
def touchLine (l : List Line) (x : Line) : List Line := l.filter (fun y => y.stripe != x.stripe) ++ [x]

/-- R478: sets of a die's cache share. -/
def State.cacheSets (s : State) (d : Nat) : Nat := s.rd MS_CACHE_CFG_SHARE d * 256

/-- R467, R478: the cache share of a die can hold lines. -/
def State.cacheOn (s : State) (d : Nat) : Bool := decide (0 < s.cacheSets d) && !s.flag MS_CACHE_STATUS_RESIZING d

/-- Lines of the set that a stripe maps to, least recently used first. -/
def State.setLines (s : State) (t : Nat) : List Line :=
  let n := s.cacheSets (stripeDie t)
  s.ms.lines.filter (fun x => stripeDie x.stripe == stripeDie t && x.stripe % 2 ^ 28 % n == t % 2 ^ 28 % n)

/-- R480: the line that makes room for another of its set. DEDUCED (log 38): where no rule of KEEP names one, the
least recently used line that is not KEEP, else the least recently used. -/
def State.victim (s : State) (t : Nat) (keep : Bool) : Option Line :=
  let set := s.setLines t
  let keeps := set.filter (fun x => x.keep)
  if keep && decide (s.rd MS_CACHE_CFG_KEEP_WAYS (stripeDie t) ≤ keeps.length) && !keeps.isEmpty then keeps.head?
  else if 16 ≤ set.length then (set.find? (fun x => !x.keep)).or set.head?
  else none

/-- A line leaves the cache share, written back where dirty. -/
def State.evict (s : State) (x : Line) : State :=
  State.writeBack { s with ms := { s.ms with lines := s.ms.lines.filter (fun y => y.stripe != x.stripe) } } x

/-- R480: another line of a stripe's set may be a KEEP line without one going. -/
def State.keepRoom (s : State) (t : Nat) : Bool :=
  decide ((s.setLines t).countP (fun x => x.keep) < s.rd MS_CACHE_CFG_KEEP_WAYS (stripeDie t))

/-- R480: a line for a stripe, with room made for it; a write-combining entry of the stripe is written out first. DEDUCED (log 38): a
line that is there becomes a KEEP line while its set has room for one more. -/
def State.allocate (s : State) (t : Nat) (keep : Bool) : State :=
  match lineAt s.ms.lines t with
  | some x => { s with ms := { s.ms with lines := touchLine s.ms.lines { x with keep := x.keep || (keep && s.keepRoom t) } } }
  | none =>
    let a := s.flushCombining t
    let b := match a.victim t keep with
      | some v => a.evict v
      | none => a
    { b with ms := { b.ms with lines := b.ms.lines ++ [⟨t, keep && b.keepRoom t, 0, []⟩] } }

/-! ### Hints (R479, R480, R482) -/

/-- The hint of an access. -/
inductive Hint where
  | stream
  | keep
  | discard
  deriving DecidableEq, Repr

/-- R482: the valid hint range of a die that holds an address. -/
def State.hintRange (s : State) (a : Nat) : Option Hint :=
  let d := stripeDie (stripeOf a)
  ((List.range 16).find? (fun k =>
    let w0 := (s.word (MS_HINT_RANGE.offset (32 * d + 2 * k))).toNat
    let w1 := (s.word (MS_HINT_RANGE.offset (32 * d + 2 * k + 1))).toNat
    w1.testBit 63 && decide (bitsOf w0 38 0 ≤ a ∧ a ≤ bitsOf w1 38 0))).map (fun k =>
      match bitsOf (s.word (MS_HINT_RANGE.offset (32 * d + 2 * k + 1))).toNat 61 60 with
      | 1 => .keep
      | 2 => .discard
      | _ => .stream)

/-- R479: the hint of host DMA and of a Gangway window. -/
def State.hostHint (s : State) (a : Nat) : Hint := (s.hintRange a).getD .stream

/-- R479: the hint of the narrow path. -/
def State.narrowHint (s : State) (a : Nat) : Hint := (s.hintRange a).getD .keep

/-- R467, R480: the access allocates a line. -/
def State.allocates (s : State) (t : Nat) (h : Hint) (write : Bool) : Bool :=
  s.cacheOn (stripeDie t) && (match h with
    | .stream => false
    | .keep => decide (0 < s.rd MS_CACHE_CFG_KEEP_WAYS (stripeDie t))
    | .discard => write)

/-! ### Stripe accesses -/

/-- R480, R481: sectors go to the write-combining buffer, which makes room by writing out its oldest entry and writes
out an entry that is whole. -/
def State.combine (s : State) (t : Nat) (new : List (Nat × List Byte)) : State :=
  let d := stripeDie t
  let a := if (lineAt s.ms.combining t).isNone && decide (256 ≤ s.ms.combining.countP (fun x => stripeDie x.stripe == d)) then
      match s.ms.combining.find? (fun x => stripeDie x.stripe == d) with
      | some x => s.flushCombining x.stripe
      | none => s
    else s
  let old := (lineAt a.ms.combining t).getD ⟨t, false, 0, []⟩
  let x := old.store new true
  let kept := if (lineAt a.ms.combining t).isSome then a.ms.combining.map (fun y => if y.stripe == t then x else y) else a.ms.combining ++ [x]
  let b : State := State.countCombining { a with ms := { a.ms with combining := kept } } d
  if x.sectors.length = 32 then b.flushCombining t else b

/-- R478, R480: sectors are written to a stripe under a hint. -/
def State.writeStripe (s : State) (h : Hint) (t : Nat) (new : List (Nat × List Byte)) : State :=
  let store := fun (u : State) => match lineAt u.ms.lines t with
    | some x => { u with ms := { u.ms with lines := touchLine u.ms.lines (x.store new true) } }
    | none => u
  if (lineAt s.ms.lines t).isSome then store s
  else match lineAt s.ms.atomic t with
    | some x => { s with ms := { s.ms with atomic := touchLine s.ms.atomic (x.store new true) } }
    | none => if s.allocates t h true then store (s.allocate t (h == .keep)) else s.combine t new

/-- R474, R478: what a read of some sectors of a stripe does to the caches. -/
def State.readStripe (s : State) (h : Hint) (t : Nat) (ks : List Nat) : State :=
  match lineAt s.ms.lines t with
  | some x => { s with ms := { s.ms with lines := touchLine s.ms.lines (x.store ((ks.filter (fun k => (x.sector k).isNone)).map (fun k => (k, s.sector t k))) false) } }
  | none =>
    if (lineAt s.ms.atomic t).isNone && s.allocates t h false then
      let u := s.allocate t (h == .keep)
      match lineAt u.ms.lines t with
      | some x => { u with ms := { u.ms with lines := touchLine u.ms.lines (x.store (ks.map (fun k => (k, s.sector t k))) false) } }
      | none => u
    else s

/-- The sectors of stripe `t` that a range of `n` bytes from `a` touches. -/
def rangeSectors (a n t : Nat) : List Nat :=
  (List.range 32).filter (fun k => decide (1024 * t + 32 * k < a + n ∧ a < 1024 * t + 32 * k + 32))

/-- The stripes that a range touches. -/
def rangeStripes (a n : Nat) : List Nat :=
  if n = 0 then [] else (List.range ((a + n - 1) / 1024 + 1 - a / 1024)).map (fun i => a / 1024 + i)

/-- A range's stripe can be read: each sector it needs is held near, or the stripe is good. -/
def State.stripeReadable (s : State) (a n t : Nat) : Bool :=
  !s.stripeLost t || (rangeSectors a n t).all (fun k => (s.nearSector t k).isSome)

/-- R506: the first stripe of a range whose read is uncorrectable. -/
def State.firstLost (s : State) (a n : Nat) : Option Nat := (rangeStripes a n).find? (fun t => !s.stripeReadable a n t)

/-- What reading a range does to the caches. -/
def State.readRange (s : State) (h : Hint) (a n : Nat) : State :=
  (rangeStripes a n).foldl (fun u t => u.readStripe h t (rangeSectors a n t)) s

/-- A sector with the bytes of a write that fall in it laid over. -/
def State.newSector (s : State) (a : Nat) (bs : List Byte) (t k : Nat) : List Byte :=
  let lo := 1024 * t + 32 * k
  let from_ := max a lo
  let upto := min (a + bs.length) (lo + 32)
  overlay (s.sector t k) (from_ - lo) ((bs.drop (from_ - a)).take (upto - from_))

/-- Bytes are written to device memory from a usable address on. -/
def State.memWrite (s : State) (h : Hint) (a : Nat) (bs : List Byte) : State :=
  (rangeStripes a bs.length).foldl (fun u t =>
    u.writeStripe h t ((rangeSectors a bs.length t).map (fun k => (k, s.newSector a bs t k)))) s

/-! ### Atomics on device memory (R488, R489) -/

/-- R488: a line of the atomic store for a stripe, the least recently used one of 1,024 making room. -/
def State.atomicLine (s : State) (t : Nat) (ks : List Nat) : State :=
  match lineAt s.ms.atomic t with
  | some x => { s with ms := { s.ms with atomic := touchLine s.ms.atomic (x.store ((ks.filter (fun k => (x.sector k).isNone)).map (fun k => (k, s.sector t k))) false) } }
  | none =>
    let a := s.flushCombining t
    let die := a.ms.atomic.filter (fun x => stripeDie x.stripe == stripeDie t)
    let b := if 1024 ≤ die.length then
        match die.head? with
        | some v => State.writeBack { a with ms := { a.ms with atomic := a.ms.atomic.filter (fun y => y.stripe != v.stripe) } } v
        | none => a
      else a
    { b with ms := { b.ms with atomic := b.ms.atomic ++ [⟨t, false, 0, ks.map (fun k => (k, s.sector t k))⟩] } }

/-- R479, R488: the line an atomic on the bytes from `a` is performed on: of the cache share, or of the atomic store
while the share is empty or being resized. -/
def State.atomicPlace (s : State) (a n : Nat) : State :=
  let t := stripeOf a
  let ks := rangeSectors a n t
  if s.cacheOn (stripeDie t) && (lineAt s.ms.atomic t).isNone then
    let hint := s.narrowHint a == .keep
    let u := s.allocate t hint
    match lineAt u.ms.lines t with
    | some x => { u with ms := { u.ms with lines := touchLine u.ms.lines ({ x with keep := x.keep && hint }.store ((ks.filter (fun k => (x.sector k).isNone)).map (fun k => (k, s.sector t k))) false) } }
    | none => u
  else s.atomicLine t ks

/-- R489: an atomic on `n` bytes at `a` replaces them; none where their read is uncorrectable. -/
def State.atomicWrite (s : State) (a : Nat) (new : List Byte) : State := (s.atomicPlace a new.length).memWrite .keep a new

/-- R489: the little-endian word at a usable address. -/
def State.memWord (s : State) (a : Nat) : Nat := leNat (s.memBytes a 8)

/-- R493: the narrow engine can take an eviction of a pipeline's flow counts: the stacks that hold its table are ready. -/
def State.narrowTakes (s : State) (p : Nat) : Bool := s.stacksReady (s.rd MS_FLOW_BASE_ADDR p / 2 ^ 38)

/-- R489, R492, R493, R506: ADD32: four 64-bit adds; where the old entry is uncorrectable it is replaced by the counts alone. -/
def State.add32 (s : State) (p a : Nat) (xs : List Nat) : State :=
  if (s.firstLost a 32).isSome then
    ((s.uncorrectable (stripeOf a)).addWrap MS_FLOW_LOST_LOST p 1).memWrite (s.narrowHint a) a (xs.flatMap (natLe 8))
  else s.atomicWrite a ((List.range 4).flatMap (fun k => natLe 8 (wrapAdd 64 (s.memWord (a + 8 * k)) (xs.getD k 0))))

/-! ### Flow counters (R493) -/

/-- The counts that a pipeline has gathered. -/
def State.flows (s : State) (p : Nat) : List (Nat × Flow) := sget [] s.ms.flows p

/-- The state with a pipeline's gathered counts replaced. -/
def State.setFlows (s : State) (p : Nat) (l : List (Nat × Flow)) : State :=
  { s with ms := { s.ms with flows := sset [] p l s.ms.flows } }

/-- R493: a gathered entry is added to HBM, once the narrow engine can take it. -/
def State.flushFlow (s : State) (p index : Nat) : State :=
  match (s.flows p).find? (fun kf => kf.1 == index) with
  | none => s
  | some (_, f) =>
    if !s.narrowTakes p then s else (s.setFlows p ((s.flows p).filter (fun kf => kf.1 != index))).add32 p (s.rd MS_FLOW_BASE_ADDR p + 32 * index) [f.frames, f.bytes, f.ce, f.dropped]

/-- R493: the flow entry of a frame with channel hash `hash`, while its pipeline counts. -/
def State.flowIndex (s : State) (p hash : Nat) : Option (Nat × Nat) :=
  if s.flag MS_FLOW_CFG_ENABLE p then some (p, hash % 2 ^ s.rd MS_FLOW_CFG_LOG2 p) else none

/-- Two counts of a flow together. -/
def Flow.plus (a b : Flow) : Flow := ⟨a.frames + b.frames, a.bytes + b.bytes, a.ce + b.ce, a.dropped + b.dropped⟩

/-- R493: counts are gathered; the oldest of 4,096 entries makes room, and where the narrow engine cannot take it the update is
lost. -/
def State.flowAdd (s : State) (at_ : Option (Nat × Nat)) (f : Flow) : State :=
  match at_ with
  | none => s
  | some (p, i) =>
    if (s.flows p).any (fun kf => kf.1 == i) then s.setFlows p ((s.flows p).map (fun kf => if kf.1 == i then (i, kf.2.plus f) else kf))
    else if decide (4096 ≤ (s.flows p).length) && !s.narrowTakes p then s.addWrap MS_FLOW_LOST_LOST p 1
    else
      let t := if 4096 ≤ (s.flows p).length then
          match (s.flows p).head? with
          | some old => s.flushFlow p old.1
          | none => s
        else s
      t.setFlows p (t.flows p ++ [(i, f)])

/-! ### Moorings (R427 to R430) -/

/-- A mooring. -/
def State.mooring (s : State) (m : Nat) : Mooring := sget Mooring.reset s.ms.moorings m

/-- The state with a mooring replaced. -/
def State.setMooring (s : State) (m : Nat) (v : Mooring) : State :=
  { s with ms := { s.ms with moorings := sset Mooring.reset m v s.ms.moorings } }

/-- R429: the waits on a mooring, in order. -/
def State.mooringWaits (s : State) (m : Nat) : List Desc :=
  s.hi.descs.filter (fun d => d.started && d.opcode == 0x41 && d.u32 24 == m)

/-- R429: every wait that a COUNT reaches completes. -/
def State.serveWaits (s : State) (m count : Nat) : State :=
  ((s.mooringWaits m).filter (fun d => decide (d.u64 32 ≤ count))).foldl (fun t d => t.complete d .success count 0) s

/-- R427: ACTION applied to an updated COUNT. -/
def Mooring.act (v : Mooring) : Mooring :=
  if v.action = 1 ∧ v.target ≠ 0 ∧ v.target ≤ v.count then { v with count := v.count % v.target } else v

/-- R427: STOP holds an update at TARGET. -/
def Mooring.stop (v : Mooring) : Mooring := if v.action = 2 ∧ v.target < v.count then { v with count := v.target } else v

/-- R428: an update of a mooring: the waits see the new COUNT, then ACTION applies. DEDUCED (log 39): STOP holds the
update before the waits see it. -/
def State.updateMooring (s : State) (m : Nat) (v : Mooring) : State := (s.serveWaits m v.stop.count).setMooring m v.stop.act

end Sys2Proof.Machine
end

