-- ==== Sys2Proof/Machine/Landing.lean ====
section
/-! DEFINITION. Groups, tiles and landing (R315, R370, R419, R422 to R424, R430 to R434, R462): what a leg's uses are,
where a contribution's frame and early slot lie, and how a contribution is counted or let go. -/

namespace Sys2Proof.Machine

/-! ### Tiles and manifest slots -/

/-- A logical tile's storage. -/
def State.tile (s : State) (t : Nat) : TileSt := sget TileSt.reset s.re.tiles t

/-- The state with a logical tile's storage replaced. -/
def State.setTile (s : State) (t : Nat) (x : TileSt) : State :=
  { s with re := { s.re with tiles := sset TileSt.reset t x s.re.tiles } }

/-- A logical tile's storage changed by a function. -/
def State.modTile (s : State) (t : Nat) (f : TileSt → TileSt) : State := s.setTile t (f (s.tile t))

/-- The state with a manifest slot replaced. -/
def State.setMslot (s : State) (k : Nat) (x : SlotSt) : State :=
  { s with re := { s.re with slots := sset SlotSt.reset k x s.re.slots } }

/-- A manifest slot changed by a function. -/
def State.modMslot (s : State) (k : Nat) (f : SlotSt → SlotSt) : State := s.setMslot k (f (s.mslot k))

/-- STATE of a manifest slot: 0 EMPTY, 1 LOADED, 2 ACTIVE, 3 DEACTIVATING (R363). -/
def State.slotState (s : State) (k : Nat) : Nat := s.rd MF_SLOT_STATUS_STATE k

/-! ### Groups -/

/-- The state with a group stored. -/
def State.setGroup (s : State) (i : Nat) (g : GroupSt) : State := { s with cl := { s.cl with groups := sput i g s.cl.groups } }

/-- A group changed by a function, where there is one. -/
def State.modGroup (s : State) (i : Nat) (f : GroupSt → GroupSt) : State :=
  match s.group i with
  | some g => s.setGroup i (f g)
  | none => s

/-- The armed set-up of a group. -/
def State.armed (s : State) (i : Nat) : Option Armed := (s.group i).bind (fun g => g.armed)

/-- An armed set-up changed by a function. -/
def State.modArmed (s : State) (i : Nat) (f : Armed → Armed) : State := s.modGroup i (fun g => { g with armed := g.armed.map f })

/-- A leg of a group. -/
def State.leg (s : State) (i l : Nat) : Option LegSt := (s.armed i).bind (fun a => a.legs[l]?)

/-- A leg changed by a function. -/
def Armed.modLeg (a : Armed) (l : Nat) (f : LegSt → LegSt) : Armed :=
  match a.legs[l]? with
  | some g => { a with legs := a.legs.set l (f g) }
  | none => a

/-- A leg of a group changed by a function. -/
def State.modLeg (s : State) (i l : Nat) (f : LegSt → LegSt) : State := s.modArmed i (fun a => a.modLeg l f)

/-- The half of a leg. -/
def LegSt.half (g : LegSt) (h : Nat) : HalfSt := if h = 0 then g.half0 else g.half1

/-- A leg with a half replaced. -/
def LegSt.setHalf (g : LegSt) (h : Nat) (x : HalfSt) : LegSt := if h = 0 then { g with half0 := x } else { g with half1 := x }

/-! ### Operations (R423) -/

/-- R423: sequence `a` comes before `b`, modulo 2^32. -/
def seqBefore (a b : Nat) : Bool := decide (0 < wrapSub 32 b a ∧ wrapSub 32 b a < 2 ^ 31)

/-- An operation that nothing is known of yet. -/
def freshOp (seq count : Nat) : OpSt :=
  { seq := seq, count := count, launched := false, recordAddr := 0, delta := 0, segments := [], legsDone := [], produced := false, acked := false,
    acks := [], arrived := [], ce := [], rerun := false, begun := false, replayed := false, special := false, overflow := false,
    projected := false, flushed := false, variant := none, mixed := false, reruns := 0, cycles := 0, exact := 0, output := 0, time := 0,
    epochs := 0, mapGen := 0, holds := [], heldSince := 0, delay := 0 }

/-- R352: something begins to hold an operation up, from a time on. -/
def OpSt.hold (o : OpSt) (cause at_ : Nat) : OpSt :=
  if o.holds.contains cause then o
  else { o with holds := o.holds ++ [cause], heldSince := if o.holds.isEmpty then at_ else min o.heldSince at_ }

/-- R352: how long an operation has been held up by a time. -/
def OpSt.heldUp (o : OpSt) (now : Nat) : Nat := if o.holds.isEmpty then o.delay else o.delay + (now - o.heldSince)

/-- R352: what held an operation up is over. -/
def OpSt.release (o : OpSt) (cause now : Nat) : OpSt :=
  if o.holds.contains cause then
    let left := o.holds.filter (fun c => c != cause)
    { o with holds := left, delay := if left.isEmpty then o.heldUp now else o.delay }
  else o

/-- An operation of an armed group. -/
def Armed.op (a : Armed) (q : Nat) : Option OpSt := a.ops.find? (fun o => o.seq == q)

/-- An operation changed by a function, and known from then on; one that was acknowledged is not. -/
def Armed.modOp (a : Armed) (q : Nat) (f : OpSt → OpSt) : Armed :=
  if seqBefore q a.oldest then a
  else if a.ops.any (fun o => o.seq == q) then { a with ops := a.ops.map (fun o => if o.seq == q then f o else o) }
  else { a with ops := a.ops ++ [f (freshOp q a.count)] }

/-- An operation of a group changed by a function. -/
def State.modOp (s : State) (i q : Nat) (f : OpSt → OpSt) : State := s.modArmed i (fun a => a.modOp q f)

/-- R424: an operation has started: a contribution was counted, an epoch began, or it was launched without elements. -/
def Armed.started (a : Armed) (q : Nat) : Bool := match a.op q with
  | some o => o.begun || (o.launched && o.count == 0)
  | none => false

/-- R424: the contexts still serve an operation: while they are being released, only one that has started. -/
def Armed.serves (a : Armed) (q : Nat) : Bool := match a.disarm with
  | none => true
  | some none => a.started q
  | some (some last) => !seqBefore last q && a.started q

/-- R423, R438: the element count of an operation, once it is known. -/
def Armed.countOf (a : Armed) (r : List Byte) (q : Nat) : Option Nat :=
  if grHost r then (match a.op q with
    | some o => if o.launched then some o.count else none
    | none => none)
  else some a.count

/-! ### Uses of a half (R370, R430) -/

/-- A use: an operation, its epoch, and whether it is of a rerun. -/
structure Use where
  seq : Nat
  j : Nat
  rerun : Bool
  deriving DecidableEq, Repr

/-- R386: epochs of an operation of `n` elements on an operation slot. -/
def epochsOf (p : OpSlot) (n : Nat) : Nat := ceilDiv (blocksOf n p.e) p.bpe

/-- The first four uses of an operation from epoch `j` on; all are open while its count is unknown. -/
def opUses (p : OpSlot) (q : Nat) (rerun : Bool) (j : Nat) (count : Option Nat) : List Use :=
  let n := match count with
    | some c => min 4 (epochsOf p c - j)
    | none => 4
  (List.range n).map (fun k => ⟨q, j + k, rerun⟩)

/-- The uses of the operations from `q` on, up to one whose count is unknown. -/
def nextUses (p : OpSlot) (serves : Nat → Bool) (count : Nat → Option Nat) : Nat → Nat → List Use
  | 0, _ => []
  | fuel + 1, q =>
    if !serves q then []
    else match count q with
      | some n => opUses p q false 0 (some n) ++ nextUses p serves count fuel (wrapAdd 32 q 1)
      | none => opUses p q false 0 none

/-- R430, R449: the uses of a leg that have not ended, in order: the operation being served, reruns, later operations. -/
def Armed.uses (a : Armed) (r : List Byte) (p : OpSlot) (g : LegSt) : List Use :=
  (match g.cur with
    | some (q, rerun, j) => opUses p q rerun j (a.countOf r q)
    | none => []) ++ g.reruns.flatMap (fun q => opUses p q true 0 (a.countOf r q)) ++ nextUses p a.serves (a.countOf r) 4 g.next

/-- The uses of one half of a leg, in order. -/
def State.halfUses (s : State) (i l h : Nat) : List Use :=
  match s.armed i, s.leg i l with
  | some a, some g => (a.uses (s.record i) (s.legSlot (s.record i) l) g).filter (fun u => u.j % 2 == h)
  | _, _ => []

/-- R430: the contributions that a use consumes; none while the operation's count is unknown. -/
def useTarget (p : OpSlot) (count : Option Nat) (u : Use) : Option Nat :=
  count.map (fun n => (min (blocksOf n p.e) ((u.j + 1) * p.bpe) - u.j * p.bpe) * p.sources)

/-! ### Landing moorings (R430) -/

/-- The landing mooring of a half. -/
def halfMooring (r : List Byte) (l h : Nat) : Nat := grMooring r + 2 * l + h

/-- TARGET while a use's size is unknown. -/
def openTarget : Nat := 2 ^ 64 - 1

/-- R430: TARGET of a half's next use. -/
def State.halfTarget (s : State) (i l h : Nat) : Nat :=
  match s.armed i, s.halfUses i l h with
  | some a, u :: _ => (useTarget (s.legSlot (s.record i) l) (a.countOf (s.record i) u.seq) u).getD openTarget
  | _, _ => openTarget

/-- R352, R430: a half has reached its TARGET, at the time it first did; the operation it holds waits for no replay of it. -/
def State.halfFull (s : State) (i l h : Nat) : State :=
  let t := s.modLeg i l (fun g => g.setHalf h { g.half h with ready := (g.half h).ready.or (some s.now) })
  match s.halfUses i l h with
  | u :: _ => t.modArmed i (fun a => { a with ops := a.ops.map (fun o => if o.seq == u.seq then o.release (2 * l + h) s.now else o) })
  | [] => t

/-- R430: a half takes the TARGET of its next use; it is ready once COUNT has reached it. -/
def State.settleHalf (s : State) (i l h : Nat) : State :=
  let m := halfMooring (s.record i) l h
  let t := s.halfTarget i l h
  let u := s.setMooring m { s.mooring m with target := t }
  if t ≤ (u.mooring m).count then u.halfFull i l h else u

/-- R430: one counted contribution is added to a half's mooring. -/
def State.bumpHalf (s : State) (i l h : Nat) : State :=
  let m := halfMooring (s.record i) l h
  let v := s.mooring m
  let t := s.updateMooring m { v with count := wrapAdd 64 v.count 1 }
  if v.target ≤ v.count + 1 then t.halfFull i l h else t

/-- R430: a half's mooring starts from COUNT 0. -/
def State.clearHalf (s : State) (i l h : Nat) : State :=
  let m := halfMooring (s.record i) l h
  (s.setMooring m { s.mooring m with count := 0 }).modLeg i l (fun g => g.setHalf h ⟨none, 0⟩)

/-! ### Where a contribution lies (R370, R422, R434) -/

/-- R370: the tile among those of a leg, and the place within a half's frames, of source `src` of block `b`. -/
def OpSlot.place (p : OpSlot) (b src : Nat) : Nat × Nat := (b % p.bpe % p.tileN, b % p.bpe / p.tileN * p.sources + src)

/-- The logical tile that stands `k`-th among those of a leg. -/
def State.legTile (s : State) (r : List Byte) (l k : Nat) : Nat :=
  mfFirstTile (s.mslot (grManifest r)).image + (s.legSlot r l).tileFirst + k

/-- The landing frame of a place in half `h`. -/
def OpSlot.frame (p : OpSlot) (h f : Nat) : Nat := p.frameBase + h * p.halfFrames + f

/-- R422: bytes of one tile's part of a leg's device area. -/
def OpSlot.part (p : OpSlot) : Nat := p.spill + 8192 * p.halfFrames

/-- R422: the address of the part of a leg's `k`-th tile. -/
def State.partAddress (s : State) (r : List Byte) (l k : Nat) : Nat :=
  grArea r + ((List.range l).map (fun m => (s.legSlot r m).part * (s.legSlot r m).tileN)).sum + (s.legSlot r l).part * k

/-- R422: the address of an early slot. -/
def State.earlyAddress (s : State) (r : List Byte) (l k f : Nat) : Nat := s.partAddress r l k + (s.legSlot r l).spill + 8192 * f

/-- The device's own accesses to a device area carry no hint of a range: they stream. -/
def areaHint : Hint := .stream

/-! ### Frames and early slots -/

/-- What a landing frame holds. -/
def State.landed (s : State) (t f : Nat) : Option Landed := ((s.tile t).frames.find? (fun kv => kv.1 == f)).map (fun kv => kv.2)

/-- A contribution is written into a landing frame. -/
def State.fillFrame (s : State) (t f : Nat) (x : Landed) (payload : List Byte) : State :=
  s.modTile t (fun v => { v with landing := sstore v.landing (8192 * f) payload, frames := sput f x v.frames })

/-- A landing frame becomes free. -/
def State.freeFrame (s : State) (t f : Nat) : State := s.modTile t (fun v => { v with frames := sdel f v.frames })

/-- What an early slot of a leg holds. -/
def LegSt.earlyAt (g : LegSt) (key : Nat) : Option (Nat × Landed) := (g.early.find? (fun kv => kv.1 == key)).map (fun kv => kv.2)

/-- A contribution is written into an early slot. -/
def State.fillEarly (s : State) (i l key h : Nat) (x : Landed) (payload : List Byte) : State :=
  (s.memWrite areaHint (s.earlyAddress (s.record i) l (key / 256) (key % 256)) payload).modLeg i l (fun g => { g with early := sput key (h, x) g.early })

/-- An early slot becomes free. -/
def State.freeEarly (s : State) (i l key : Nat) : State := s.modLeg i l (fun g => { g with early := sdel key g.early })

/-- Two contributions are copies of one. -/
def Landed.same (x : Landed) (q b src : Nat) : Bool := x.seq == q && x.block == b && x.source == src

/-- R424: a counted contribution starts its operation. -/
def State.beginOp (s : State) (i q : Nat) : State := s.modOp i q (fun o => { o with begun := true })

/-- R164, R430: the contribution that a frame holds is counted. -/
def State.countFrame (s : State) (i l h t f : Nat) : State :=
  match s.landed t f with
  | some x => ((s.modTile t (fun v => { v with frames := sput f { x with counted := true } v.frames })).beginOp i x.seq).bumpHalf i l h
  | none => s

/-! ### Contributions as packets -/

/-- A contribution addressed to the device, as its headers give it. -/
def State.contribution (s : State) (packet : List Byte) : Option (Hdr × Sceca) :=
  let h := parse packet
  match s.scecaToDevice packet h with
  | some c => if c.version = 1 ∧ c.type = 1 then some (h, c) else none
  | none => none

/-- The payload of a Sceca packet. -/
def Sceca.payload (c : Sceca) (packet : List Byte) : List Byte := slice packet (c.at_ + 48) c.payloadLen

/-- R431, R462: a drop is counted under its reason, and at the ingress port. -/
def State.clDrop (s : State) (reason : Nat) (port : Option Nat) : State :=
  let a := s.addWrap CL_DROP_COUNT reason 1
  let b := if reason = 7 then a.setErr CL_ERR_EARLY_DROPPED 0 else if reason = 2 then a.setErr CL_ERR_ARM_WAIT_DROPPED 0 else a
  match port with
  | some n => b.portAdd n 26 1
  | none => b

/-- A contribution arriving on a port. -/
def State.inflight (s : State) (n : Nat) : Option Inflight := (s.cl.inflight.find? (fun kv => kv.1 == n)).map (fun kv => kv.2)

/-- The state with what arrives on a port replaced. -/
def State.setInflight (s : State) (n : Nat) (x : Inflight) : State := { s with cl := { s.cl with inflight := sput n x s.cl.inflight } }

/-- The state with nothing arriving for the collectives on a port. -/
def State.clearInflight (s : State) (n : Nat) : State := { s with cl := { s.cl with inflight := sdel n s.cl.inflight } }

/-- A waiting contribution leaves the list of those that wait. -/
def State.unwait (s : State) (f : Nat) : State :=
  let l := s.cl.waits.filter (fun w => w.frame != f)
  { s with cl := { s.cl with waits := l } }

/-- The frame that stands for a contribution is done with: its cells are freed and it is complete (R299). -/
def State.dropFrame (s : State) (f : Nat) : State :=
  match s.frame f with
  | some x => (((if x.freed then s else s.freeCells f).completeFence f).delFrame f)
  | none => s

/-- A contribution whose tail has passed is done with; one still arriving ends as dropped. -/
def State.dropWaiting (s : State) (w : Waiting) : State :=
  let t := (s.unwait w.frame).clDrop 6 (some w.port)
  if w.counted then t.dropFrame w.frame
  else match t.inflight w.port with
    | some x => t.setInflight w.port { x with place := .dropped }
    | none => t

/-- The waiting copies of a contribution of group `handle`. -/
def State.copiesWaiting (s : State) (handle q b src : Nat) : List Waiting :=
  s.cl.waits.filter (fun w => w.cause == .copy && (match s.contribution w.packet with
    | some (_, c) => c.group == handle && c.sequence == q && c.block == b && c.source == src
    | none => false))

/-- R433: the frame of a leg was counted: copies that waited for it are dropped as DUPLICATE. -/
def State.dropCopies (s : State) (handle q b src : Nat) : State := (s.copiesWaiting handle q b src).foldl (fun t w => t.dropWaiting w) s

/-- R433: the copy in a frame failed: the first copy that waited lands in its place. -/
def State.wakeCopy (s : State) (i l h t f : Nat) (x : Landed) (source : Nat) : State :=
  match s.group i with
  | none => s
  | some g =>
    match s.copiesWaiting (handleOf i g) x.seq x.block source with
    | [] => s
    | w :: _ =>
      match s.contribution w.packet with
      | none => s
      | some (_, c) =>
        let y : Landed := { x with counted := false, check := c.check }
        let u := (s.unwait w.frame).fillFrame t f y (c.payload w.packet)
        if w.counted then (State.dropCopies (u.countFrame i l h t f) (handleOf i g) x.seq x.block source).dropFrame w.frame
        else match u.inflight w.port with
          | some z => u.setInflight w.port { z with place := .frame i l t f }
          | none => u

/-- The half that a landing frame of a leg belongs to. -/
def OpSlot.halfOf (p : OpSlot) (f : Nat) : Nat := (f - p.frameBase) / p.halfFrames

/-- R164, R178: a contribution that does not arrive whole leaves no trace. -/
def State.undoInflight (s : State) (n : Nat) : State :=
  match s.inflight n with
  | none => s
  | some x =>
    let a := s.clearInflight n
    let src := match a.contribution x.packet with
      | some (_, c) => c.source
      | none => 0
    match x.place with
    | .frame i l t f =>
      match a.landed t f with
      | some y =>
        if y.counted then a.dropFrame x.frame
        else ((a.freeFrame t f).wakeCopy i l ((a.legSlot (a.record i) l).halfOf f) t f y src).dropFrame x.frame
      | none => a.dropFrame x.frame
    | .early i l key half =>
      match (a.leg i l).bind (fun g => g.earlyAt key) with
      | some (_, y) => if y.counted then a.dropFrame x.frame else (a.freeEarly i l key).dropFrame x.frame
      | none =>
        -- the early slot has been moved into its frame meanwhile (R434)
        let r := a.record i
        let t := a.legTile r l (key / 256)
        let f := (a.legSlot r l).frame half (key % 256)
        match a.landed t f, a.contribution x.packet with
        | some y, some (_, c) =>
          if y.counted || y.seq != c.sequence || y.block != c.block then a.dropFrame x.frame
          else ((a.freeFrame t f).wakeCopy i l half t f y src).dropFrame x.frame
        | _, _ => a.dropFrame x.frame
    | .waits => (a.unwait x.frame).dropFrame x.frame
    | _ => a.dropFrame x.frame

end Sys2Proof.Machine
end

