-- ==== Sys2Proof/Machine/Meter.lean ====
section
/-! DEFINITION. Meters (R279 to R285): profiles, restart, refill, and the colour and action a frame gets. -/

namespace Sys2Proof.Machine

/-! ### Set-up -/

/-- R283: the words of a meter profile in force. -/
def State.profile (s : State) (r : Nat) : Nat × Nat × Nat := sget (0, 0, 0) s.tq.profiles r

/-- The two buckets of a meter, as what is missing from full. -/
def State.meter (s : State) (m : Nat) : Meter := sget ⟨0, 0⟩ s.tq.meters m

/-- The state with a meter's buckets replaced. -/
def State.setMeter (s : State) (m : Nat) (v : Meter) : State :=
  { s with tq := { s.tq with meters := sset ⟨0, 0⟩ m v s.tq.meters } }

/-- The profile number of a meter. -/
def State.meterProfile (s : State) (m : Nat) : Nat := s.rd TQ_METER_CFG_PROFILE m

/-- MODE of a profile: two rates. -/
def profTwoRate (w : Nat × Nat × Nat) : Bool := w.1.testBit 63
/-- CIR of a profile. -/
def profCir (w : Nat × Nat × Nat) : Nat := bitsOf w.2.1 31 0
/-- PIR of a profile. -/
def profPir (w : Nat × Nat × Nat) : Nat := bitsOf w.2.1 63 32
/-- CBS of a profile. -/
def profCbs (w : Nat × Nat × Nat) : Nat := bitsOf w.2.2 31 0
/-- EBS_PBS of a profile. -/
def profEbs (w : Nat × Nat × Nat) : Nat := bitsOf w.2.2 63 32

/-- R283: buckets under a new burst size keep their tokens, up to the new size. -/
def rebase (old new missing : Nat) : Nat := new * 8000 - min (old * 8000 - missing) (new * 8000)

/-- R283: every meter of a profile takes its new words. -/
def State.rebaseMeters (s : State) (r : Nat) (old new : Nat × Nat × Nat) : State :=
  (List.range 65536).foldl (fun t m =>
    if t.meterProfile m = r then
      let v := t.meter m
      t.setMeter m ⟨rebase (profCbs old) (profCbs new) v.c, rebase (profEbs old) (profEbs new) v.e⟩
    else t) s

/-- The state with the words of a meter profile in force replaced. -/
def State.setProfile (s : State) (r : Nat) (p : Nat × Nat × Nat) : State :=
  { s with tq := { s.tq with profiles := sset (0, 0, 0) r p s.tq.profiles } }

/-- R283: a write of word `w` of profile `r` (register element 4 r + w). -/
def profileWrite (i : Nat) (v : Word) (s : State) : State :=
  let r := i / 4
  if i % 4 = 3 then s
  else if i % 4 ≠ 0 then s.plainWrite TQ_METER_PROFILE i v
  else
    let new := (v.toNat &&& 0x8000000000000303, s.rd TQ_METER_PROFILE_WORD (4 * r + 1), s.rd TQ_METER_PROFILE_WORD (4 * r + 2))
    if profCbs new < 9216 ∨ (profTwoRate new = true ∧ (profPir new < profCir new ∨ profEbs new < 9216)) then
      (s.setErr TQ_ERR_METER_REFUSED 0).refuseWrite (TQ_METER_PROFILE.offset i) v.toNat
    else
      ((s.plainWrite TQ_METER_PROFILE i (BitVec.ofNat 64 new.1)).rebaseMeters r (s.profile r) new).setProfile r new

/-- METER_PROFILE_APPLY (R283): a write of word 0. -/
def execMeterProfileApply (profile : Fin 256) (value : Word) (s : State) : Res :=
  whenReg (TQ_METER_PROFILE.offset (4 * profile.val)) value (profileWrite (4 * profile.val) value) s

/-- R281: a write of TQ_METER_CFG restarts the meter with both buckets full. -/
def meterCfg (m v : Nat) (s : State) : State :=
  (s.plainWrite TQ_METER_CFG m (BitVec.ofNat 64 v)).setMeter m ⟨0, 0⟩

/-- METER_RESTART (R281). -/
def execMeterRestart (meter : Fin 65536) (value : BitVec 32) (s : State) : Res := whenReg (TQ_METER_CFG.offset meter.val) (value.zeroExtend 64) (meterCfg meter.val value.toNat) s

/-- R280: a write of TQ_METER_MAP that breaks the bound on BASE is discarded. -/
def meterMap (i : Nat) (v : Word) (s : State) : State :=
  if TQ_METER_MAP_BASE.of v + 2 ^ TQ_METER_MAP_LOG2.of v - 1 ≤ 16383 then s.plainWrite TQ_METER_MAP i v
  else s.setErr TQ_ERR_METER_REFUSED 0

/-! ### Refill (R284) -/

/-- R284 with RFC 2697 and RFC 2698: `ns` nanoseconds of tokens. -/
def refill (w : Nat × Nat × Nat) (ns : Nat) (v : Meter) : Meter :=
  let x := profCir w * ns
  if profTwoRate w then ⟨v.c - x, v.e - profPir w * ns⟩ else ⟨v.c - x, v.e - (x - v.c)⟩

/-- METER_REFILL (R284). -/
def execMeterRefill (meter : Fin 65536) (ns : Nat) (s : State) : Res :=
  whenLive (fun t => t.setMeter meter.val (refill (t.profile (t.meterProfile meter.val)) ns (t.meter meter.val))) s

/-! ### Colours (R279, R284, R285) -/

/-- A frame's colour. -/
inductive Colour where
  | green
  | yellow
  | red
  deriving DecidableEq, Repr

/-- R284: the colour of a frame of `len` bytes and the buckets after it; `pre` is a yellow pre-colour in
colour-aware mode. -/
def colourOf (w : Nat × Nat × Nat) (pre : Bool) (len : Nat) (v : Meter) : Colour × Meter :=
  let need := len * 8000
  let inC := decide (need + v.c ≤ profCbs w * 8000)
  let inE := decide (need + v.e ≤ profEbs w * 8000)
  if profTwoRate w then
    if !inE then (.red, v)
    else if pre || !inC then (.yellow, ⟨v.c, v.e + need⟩)
    else (.green, ⟨v.c + need, v.e + need⟩)
  else if !pre && inC then (.green, ⟨v.c + need, v.e⟩)
  else if inE then (.yellow, ⟨v.c, v.e + need⟩)
  else (.red, v)

/-- R280: the meter of a frame that enters on port `n` in class `c` with channel hash `hash`. -/
def State.meterOf (s : State) (n c hash : Nat) : Option Nat :=
  if s.flag TQ_METER_MAP_VALID (8 * n + c) then
    some (16384 * (n / 256) + s.rd TQ_METER_MAP_BASE (8 * n + c) + hash % 2 ^ s.rd TQ_METER_MAP_LOG2 (8 * n + c))
  else none

/-- What a meter does to a frame: it passes with these bytes, or is dropped. -/
inductive Metered where
  | pass (frame : List Byte)
  | drop
  deriving DecidableEq, Repr

/-- R282, R285: a frame passes its meter: the bytes are counted by colour and the action is taken. -/
def State.meterFrame (s : State) (n c hash len : Nat) (frame : List Byte) : Metered × State :=
  match (if s.isFabric n then none else s.meterOf n c hash) with
  | none => (.pass frame, s)
  | some m =>
    let w := s.profile (s.meterProfile m)
    let pre := s.flag TQ_METER_CFG_COLOUR_AWARE m && (match (parse frame).tags with
      | t :: _ => t.testBit 12
      | [] => false)
    let (col, v) := colourOf w pre len (s.meter m)
    let t := s.setMeter m v
    match col with
    | .green => (.pass frame, t.meterAdd m 0 len)
    | .yellow =>
      let u := t.meterAdd m 1 len
      match bitsOf w.1 9 8 with
      | 0 => (.pass frame, u)
      | 1 => (.pass (setDei frame), u)
      | 2 => (.pass (markCe frame), u)
      | _ => (.drop, u.portAdd n 21 1)
    | .red =>
      let u := t.meterAdd m 2 len
      match bitsOf w.1 1 0 with
      | 1 => if ecnCapable frame then (.pass (markCe frame), u) else (.drop, u.meterAdd m 3 1)
      | 2 => (.pass frame, u)
      | _ => (.drop, u.meterAdd m 3 1)

end Sys2Proof.Machine
end

