-- ==== Sys2Proof/Machine/Wire.lean ====
section
/-! DEFINITION. What goes over a fabric link: tags, control frames, the receiver, the sender and its replay store
(R186 to R189, R194, R196 to R200, R203). -/

namespace Sys2Proof.Machine

/-! ### Link tags (R186, R187) -/

/-- R186: a link tag. -/
def makeTag (seq : Nat) (sequenced : Bool) (vn : Nat) : Nat :=
  let hi := seq * 2 ^ 24 + bit sequenced * 2 ^ 23 + vn * 2 ^ 20
  hi * 256 + crc8 hi 40

/-- R186: TAG_CRC of a tag is right. -/
def tagGood (t : Nat) : Bool := crc8 (t / 256) 40 == t % 256
/-- SEQ of a tag. -/
def tagSeq (t : Nat) : Nat := bitsOf t 47 32
/-- SEQUENCED of a tag. -/
def tagSequenced (t : Nat) : Bool := t.testBit 31
/-- VN of a tag. -/
def tagVn (t : Nat) : Nat := bitsOf t 30 28

/-- What a sequenced frame's tag makes of it (R187, R196). -/
inductive Arrival where
  | accept
  | duplicate
  | reject
  deriving DecidableEq, Repr

/-- R186, R187, R196: the verdict on a tag at a port whose initialisation is complete. -/
def State.tagVerdict (s : State) (n : Nat) (tag : Option (BitVec 48)) : Arrival :=
  match tag with
  | none => .reject
  | some b =>
    let t := b.toNat
    let exp := (s.port n).expected
    if !tagGood t || !tagSequenced t then .reject
    else if tagSeq t = exp then .accept
    else if wrapSub 16 exp (tagSeq t) ≤ 32768 then .duplicate
    else .reject

/-! ### Control frames (R188) -/

/-- R188: a link control frame of 60 bytes without its FCS. -/
def controlFrame (n : Nat) (payload : List Byte) : List Byte :=
  natBe 6 0x0180C200000E ++ portMac n ++ natBe 2 0x88B6 ++ fitTo 46 payload

/-- R188: STAMP, ECHO and ECHO_DELAY. -/
def State.stampFields (s : State) (n : Nat) : List Byte :=
  let p := s.port n
  natBe 8 s.now64 ++ natBe 8 p.stamp ++ natBe 4 (s.now64 - p.stampAt)

/-- R198: a STATUS goes out. -/
def State.sendStatus (s : State) (n : Nat) : State :=
  let p := s.port n
  let body := natBe 1 1 ++ natBe 1 1 ++ natBe 2 p.expected ++ natBe 1 (bit p.nak) ++ natBe 1 0 ++
    ((List.range 5).flatMap (fun v => natBe 3 (p.creditRet.getD v 0))) ++ zeros 3 ++ s.stampFields n
  let t := s.sendPlain n (some (makeTag 0 false 0)) (controlFrame n body)
  if p.nak then t.portAdd n 44 1 else t

/-- R192, R193: SHARED that a port advertises. -/
def State.advertised (s : State) (n : Nat) : Nat := s.creditPool n - 5 * s.rd PC_CREDIT_CFG_VN_MIN n

/-- R190: an INIT goes out. -/
def State.sendInit (s : State) (n : Nat) : State :=
  let p := s.port n
  let body := natBe 1 1 ++ natBe 1 3 ++ zeros 2 ++ natBe 1 (bit p.initSeen) ++ natBe 1 0 ++
    ((List.range 5).flatMap (fun _ => natBe 2 (s.rd PC_CREDIT_CFG_VN_MIN n))) ++ zeros 5 ++ natBe 3 (s.advertised n) ++ s.stampFields n
  (s.setPort n { p with ackSent := p.ackSent || p.initSeen }).sendPlain n (some (makeTag 0 false 0)) (controlFrame n body)

/-! ### The receiver (R196 to R198) -/

/-- R197: a sequenced frame is rejected: the receiver enters NAK state and says so. -/
def State.linkReject (s : State) (n : Nat) : State :=
  if (s.port n).nak then s else (s.modPort n (fun p => { p with nak := true })).sendStatus n

/-- R187, R197: a sequenced frame is rejected at its tag; one whose TAG_CRC fails counts as a bad frame. -/
def State.tagReject (s : State) (n : Nat) (tag : Option (BitVec 48)) : State :=
  State.linkReject (if tag.any (fun t => !tagGood t.toNat) then s.portAdd n 4 1 else s) n

/-- R196, R198: a sequenced frame is accepted; with every 32nd a STATUS goes out. -/
def State.linkTake (s : State) (n : Nat) : State :=
  let p := s.port n
  let t := s.setPort n { p with expected := wrapAdd 16 p.expected 1, nak := false, accepted := (p.accepted + 1) % 32 }
  if p.accepted = 31 then t.sendStatus n else t

/-- A duplicate is counted. -/
def State.linkDuplicate (s : State) (n : Nat) : State := s.portAdd n 48 1

/-- R196, R214: a frame of `len` bytes that the port consumes itself: whether it is accepted, and the state. Its cells are
returned at once. -/
def State.linkConsume (s : State) (n : Nat) (tag : Option (BitVec 48)) (len : Nat) : Bool × State :=
  if !s.isFabric n || !(s.port n).complete then (true, s.countRx n len)
  else match s.tagVerdict n tag with
    | .accept => (true, ((s.linkTake n).returnCredit n (tagVn ((tag.getD 0).toNat)) (cellsOf len)).countRx n len)
    | .duplicate => (false, s.linkDuplicate n)
    | .reject => (false, s.tagReject n tag)

/-! ### The sender (R194, R199, R200) -/

/-- R194: o of a network. -/
def PortSt.owed (p : PortSt) (v : Nat) : Nat := wrapSub 24 (p.sent.getD v 0) (p.returned.getD v 0)

/-- R194: the port may send a frame of network `v` that needs `k` cells. -/
def State.creditLets (s : State) (n v k : Nat) : Bool :=
  let p := s.port n
  decide (p.owed v + k ≤ p.peerMin.getD v 0) ||
  decide (((List.range 5).map (fun u => (p.owed u + (if u = v then k else 0)) - p.peerMin.getD u 0)).sum ≤ p.peerShared)

/-- R200: the replay store can take a frame of `len` bytes. -/
def State.storeTakes (s : State) (n len : Nat) : Bool :=
  let st := (s.port n).store
  decide ((st.map (fun e => e.bytes.length)).sum + len ≤ 196608 * s.portLanes n ∧ st.length < 32767)

/-- R186, R194, R199: a frame takes the port's next sequence number and is charged; the number is answered. -/
def State.takeSeq (s : State) (n v k : Nat) : Nat × State :=
  let p := s.port n
  (p.nextSeq, s.setPort n { p with nextSeq := wrapAdd 16 p.nextSeq 1, sent := p.sent.set v (wrapAdd 24 (p.sent.getD v 0) k) })

/-- R199: a frame goes out under a sequence number and is held in the replay store. -/
def State.sendHeld (s : State) (n : Nat) (h : Held) : State :=
  (s.modPort n (fun p => { p with store := p.store ++ [h] })).emit (frameOut n (some (makeTag h.seq true h.net)) h.bytes h.stomp)

/-- R194, R200: the oldest frame of the port itself that waits may go: the wire, its credit and the store let it. -/
def State.ownLets (s : State) (n : Nat) (bytes : List Byte) : Bool :=
  (s.port n).complete && (s.port n).sending.isNone && s.creditLets n 0 (cellsOf (bytes.length + 4)) && s.storeTakes n bytes.length

/-- R186, R199: sequenced frames of the port itself go out in order, in MGMT, as long as they may. -/
def State.flushOwn (s : State) (n : Nat) : Nat → State
  | 0 => s
  | fuel + 1 => match (s.port n).own with
    | [] => s
    | bytes :: rest =>
      if s.ownLets n bytes then
        let cells := cellsOf (bytes.length + 4)
        let (seq, t) := (s.modPort n (fun p => { p with own := rest })).takeSeq n 0 cells
        State.flushOwn ((t.sendHeld n ⟨seq, cells, 0, bytes, none, none⟩).countTx n bytes) n fuel
      else s

/-- The sequenced frames of the port itself that may go out go. -/
def State.releaseOwn (s : State) (n : Nat) : State := s.flushOwn n (s.port n).own.length

/-- A control message of the port itself: sequenced in MGMT once a fabric link is initialised, plain before. -/
def State.sendOwn (s : State) (n : Nat) (bytes : List Byte) : State :=
  if s.isFabric n && (s.port n).complete then (s.modPort n (fun p => { p with own := p.own ++ [bytes] })).releaseOwn n
  else s.sendPlain n none bytes

/-- R191, R213: every frame of the replay store is discarded and counted. -/
def State.dropStore (s : State) (n : Nat) : State :=
  let held := (s.port n).store
  let t := (s.modPort n (fun p => { p with store := [], rtxFrom := none, rtxDue := none })).portAdd n 49 held.length
  held.foldl (fun u e => match e.owner with
    | some f => u.ackCopy f n
    | none => u) t

/-- R128, R213: a function leaves service; a port that stops being ready with it loses what its replay store holds. -/
def State.leave (s : State) (f : Fn) : State :=
  let t := s.fall f
  (s.pc.ports.map (fun kv => kv.1)).foldl (fun u n => if s.portReady n && !t.portReady n then u.dropStore n else u) t

/-- R199: every held frame from sequence number `a` on is sent again, in order. -/
def State.resend (s : State) (n a : Nat) : State :=
  let held := (s.port n).store.dropWhile (fun e => e.seq != a)
  (held.foldl (fun t e => t.emit (frameOut n (some (makeTag e.seq true e.net)) e.bytes e.stomp)) s).portAdd n 46 held.length

/-- R199: an ACK_SEQ passes the held frames before it. -/
def State.ackTo (s : State) (n a : Nat) : State :=
  match (s.port n).store with
  | [] => s
  | e :: _ =>
    let k := wrapSub 16 a e.seq
    let held := (s.port n).store
    if k = 0 ∨ held.length < k then s
    else
      let t := (s.modPort n (fun p => { p with store := held.drop k, rtxFrom := none })).wr PC_PORT_STATUS_REPLAY_LIMITED n 0
      ((held.take k).foldl (fun u e => match e.owner with
        | some f => u.ackCopy f n
        | none => u) t).releaseOwn n

/-- R188, R203: a MARKER frame: CODE, ARG and MARKER_ID. -/
def markerFrame (n code arg id : Nat) : List Byte :=
  controlFrame n (natBe 1 1 ++ natBe 1 2 ++ zeros 2 ++ natBe 1 code ++ natBe 1 arg ++ natBe 4 id)

/-- R203: a MARKER frame is sent. -/
def State.sendMarker (s : State) (n code arg id : Nat) : State := s.sendOwn n (markerFrame n code arg id)

end Sys2Proof.Machine
end

