-- ==== Sys2Proof/Machine/Fibre.lean ====
section
/-! DEFINITION. Fibres: wavelength maps, moves and Ford circuits as data, the messages about them, and what a port
that goes down does to them (R514 to R519, R528 to R532, R546 to R548). -/

namespace Sys2Proof.Machine

/-- Logical lane `j` of a group belongs to port `n`. -/
def State.laneOf (s : State) (n j : Nat) : Bool := decide (portFirstLane n ≤ j ∧ j < portFirstLane n + s.portLanes n)

/-- R613: logical lane `j` of lane group `g` is withdrawn. -/
def State.laneWithdrawn (s : State) (g j : Nat) : Bool := s.fh.withdrawn.contains (65536 + 8 * g + j)

/-- R613: a port holds a lane that is withdrawn. -/
def State.shortOfLane (s : State) (n : Nat) : Bool :=
  (List.range 8).any (fun j => s.laneOf n j && s.laneWithdrawn (n / 4) j)

/-- The lanes a port runs over when no circuit stands: a withdrawn lane is missing (R613). -/
def State.activeLanes (s : State) (n : Nat) : Nat :=
  s.portLanes n - ((List.range 8).filter (fun j => s.laneOf n j && s.laneWithdrawn (n / 4) j)).length

/-! ### Maps (R518, R555) -/

/-- The wavelength of lane `j` in a map's WL field. -/
def wlOf (wl j : Nat) : Nat := bitsOf wl (4 * j + 3) (4 * j)

/-- The lane that a map carries on wavelength `w`. -/
def laneAt (wl w : Nat) : Option Nat := (List.range 8).find? (fun j => wlOf wl j == w)

/-- WL of an outgoing fibre. -/
def State.txWl (s : State) (f : Nat) : Nat := s.rd OC_FIBRE_MAP_WL f
/-- FREE of an outgoing fibre. -/
def State.txFree (s : State) (f : Nat) : Nat := s.rd OC_FIBRE_MAP_FREE f
/-- CAL_W of an outgoing fibre. -/
def State.calW (s : State) (f : Nat) : Nat := s.rd OC_FIBRE_MAP_CAL_W f
/-- WL of an incoming fibre. -/
def State.rxWl (s : State) (f : Nat) : Nat := s.rd OC_FIBRE_RX_MAP_WL f
/-- FREE of an incoming fibre. -/
def State.rxFree (s : State) (f : Nat) : Nat := s.rd OC_FIBRE_RX_MAP_FREE f
/-- R519: the plan of an outgoing fibre is ROTATING. -/
def State.rotating (s : State) (f : Nat) : Bool := s.flag OC_FIBRE_MAP_ROTATE f

/-- The ports of a fibre pair whose link is up. -/
def State.upPorts (s : State) (f : Nat) : List Nat := ((List.range 4).map (fun k => 4 * f + k)).filter (fun n => s.link n == 3)

/-- The port that carries lane `j` of a fibre with its link up. -/
def State.lanePort (s : State) (f j : Nat) : Option Nat := (s.upPorts f).find? (fun n => s.laneOf n j)

/-! ### Engines' commands (R521) -/

/-- An engine's state beyond its registers. -/
def State.engine (s : State) (e : Nat) : EngineSt := sget EngineSt.reset s.oc.engines e

/-- The state with an engine's state replaced. -/
def State.setEngine (s : State) (e : Nat) (x : EngineSt) : State :=
  { s with oc := { s.oc with engines := sset EngineSt.reset e x s.oc.engines } }

/-- R521: the setting of a fibre pair changed: its command waits its turn. -/
def State.sendSetting (s : State) (f : Nat) : State :=
  let x := s.engine (f / 16)
  if x.queue.contains (f % 16) then s else s.setEngine (f / 16) { x with queue := x.queue ++ [f % 16] }

/-- A ring's state by its key 576 × engine + index. -/
def State.ringSt (s : State) (k : Nat) : RingSt := sget RingSt.reset s.oc.rings k

/-- The state with a ring's state replaced. -/
def State.setRingSt (s : State) (k : Nat) (r : RingSt) : State :=
  { s with oc := { s.oc with rings := sset RingSt.reset k r s.oc.rings } }

/-- R515: the key of a fibre pair's ring: purpose 0 TX, 1 RX, 2 Ford drop, 3 Ford add. -/
def ringKey (f purpose w : Nat) : Nat := 576 * (f / 16) + 36 * (f % 16) + 9 * purpose + w

/-- A ring starts to be tuned afresh: it is not locked, and its counts start again. -/
def State.restartRing (s : State) (k : Nat) : State :=
  s.setRingSt k { s.ringSt k with inside := 0, outside := 0, limit := 0, locked := false }

/-! ### Messages (R528, R529) -/

/-- R528: an optical coordination message without its FCS. -/
def State.ocFrame (s : State) (n type id a b wf wt serial far : Nat) : List Byte :=
  natBe 6 0x0180C200000E ++ portMac n ++ natBe 2 0x88B8 ++ natBe 1 1 ++ natBe 1 type ++ natBe 2 48 ++ natBe 4 id ++
  natBe 1 a ++ natBe 1 b ++ natBe 1 wf ++ natBe 1 wt ++ natBe 8 serial ++ natBe 2 far ++ zeros 2 ++
  natBe 8 (s.rd BT_DEVICE_SERIAL_SERIAL 0) ++ zeros 16

/-- A message about a move. -/
def State.moveMsg (s : State) (n type id lane reason wf wt : Nat) : State := s.sendOwn n (s.ocFrame n type id lane reason wf wt 0 0)

/-- R528: a received message is well formed and of a type. -/
def ocGood (type : Nat) (p : List Byte) : Bool := p.length == 48 && be p 0 1 == 1 && be p 1 1 == type && be p 2 2 == 48

/-! ### Moves (R530 to R532) -/

/-- The move under way on an outgoing fibre. -/
def State.moveOf (s : State) (f : Nat) : Option Move := (s.oc.moves.find? (fun x => x.1 == f)).map (fun x => x.2)

/-- A move put on an outgoing fibre. -/
def State.setMove (s : State) (f : Nat) (m : Move) : State := { s with oc := { s.oc with moves := sput f m s.oc.moves } }

/-- No move is under way on an outgoing fibre. -/
def State.dropMove (s : State) (f : Nat) : State := { s with oc := { s.oc with moves := sdel f s.oc.moves } }

/-- R548: a move is abandoned. DESIGN CHOICE (log 61): LOGICAL of a fibre direction is 2 f outgoing, 2 f + 1 incoming. -/
def State.abandonMove (s : State) (f : Nat) : State :=
  (((s.dropMove f).setErr OC_ERR_MOVE_ABANDONED 0).raise { code := 0x0905, kind := 8, logical := 2 * f }).sendSetting f

/-- R522, R548: the engine of a fibre pair is in HOLD: moves wait. -/
def State.engineHolds (s : State) (f : Nat) : Bool := s.rd OC_ENGINE_STATUS_STATE (f / 16) == 3

/-- R535: a calibration on a fibre is abandoned: its channel stays FREE, its ring keeps its values. -/
def State.abandonCal (s : State) (f : Nat) : State :=
  let t : State := { s with oc := { s.oc with calTemp := sdel f s.oc.calTemp } }
  let u := if t.calW f = 15 then t else (t.wr OC_FIBRE_MAP_CAL_W f 15).sendSetting f
  match u.moveOf f with
  | some m =>
    if m.cause = .calibration then
      -- a move whose marker is out completes; one that waits is given up
      if m.marker.isSome then u.setMove f { m with cause := .laser } else u.abandonMove f
    else u
  | none => u

/-! ### Ford circuits (R545 to R547, R552) -/

/-- A circuit's state beyond its register. -/
def State.circuit (s : State) (k : Nat) : Circuit := sget Circuit.reset s.oc.circuits k

/-- The state with a circuit's state replaced. -/
def State.setCircuit (s : State) (k : Nat) (c : Circuit) : State :=
  { s with oc := { s.oc with circuits := sset Circuit.reset k c s.oc.circuits } }

/-- STATE of a circuit: 0 FREE, 1 OFFERED, 2 SWITCHING, 3 STANDING, 4 REMOVING. -/
def State.circuitState (s : State) (k : Nat) : Nat := s.rd OC_FORD_CIRCUIT_STATE k

/-- The port of side 0 or 1 of a circuit. -/
def State.circuitPort (s : State) (k side : Nat) : Nat :=
  if side = 0 then s.rd OC_FORD_CIRCUIT_PORT_A k else s.rd OC_FORD_CIRCUIT_PORT_B k

/-- The circuit that a port holds, and its side. -/
def State.circuitOf (s : State) (n : Nat) : Option (Nat × Nat) :=
  (((List.range 8).map (fun c => 8 * (n / 64) + c)).flatMap (fun k => [(k, 0), (k, 1)])).find? (fun x =>
    s.circuitState x.1 != 0 && s.circuitPort x.1 x.2 == n)

/-- The lane the leaf stops sending on a side, and the lane the device stops sending there. -/
def Circuit.lanes (c : Circuit) (side : Nat) : Nat × Nat := if side = 0 then (c.leafA, c.spineA) else (c.leafB, c.spineB)

/-- R529: a Ford message to a circuit's leaf. -/
def State.fordMsg (s : State) (k side type serial far : Nat) : State :=
  let (a, b) := (s.circuit k).lanes side
  let n := s.circuitPort k side
  s.sendOwn n (s.ocFrame n type (s.rd OC_FORD_CIRCUIT_ID k) a b (s.rd OC_FORD_CIRCUIT_WAVELENGTH k) 0 serial far)

/-- FORD_W of a fibre pair's two maps. -/
def State.fordW (s : State) (f w : Nat) : State := ((s.wr OC_FIBRE_MAP_FORD_W f w).wr OC_FIBRE_RX_MAP_FORD_W f w).sendSetting f

/-- The four rings of a fibre pair at a circuit's wavelength start afresh; the Ford rings are parked when unused. -/
def State.restartFour (s : State) (f w : Nat) : State :=
  (List.range 4).foldl (fun t p => t.restartRing (ringKey f p w)) s

/-- A circuit becomes FREE and its wavelength leaves both fibre pairs. -/
def State.freeCircuit (s : State) (k : Nat) : State :=
  let w := s.rd OC_FORD_CIRCUIT_WAVELENGTH k
  let fa := s.circuitPort k 0 / 4
  let fb := s.circuitPort k 1 / 4
  let t := (((s.fordW fa 15).fordW fb 15).restartFour fa w).restartFour fb w
  (t.setCircuit k Circuit.reset).wrs [(OC_FORD_CIRCUIT_STATE, k, 0), (OC_FORD_CIRCUIT_WAVELENGTH, k, 0), (OC_FORD_CIRCUIT_PORT_A, k, 0),
    (OC_FORD_CIRCUIT_PORT_B, k, 0), (OC_FORD_CIRCUIT_ID, k, 0)]

/-- R203, R547: a side of a circuit is past step 5: the leaf's FORD_REMOVE marker has come, or its link is down. With both sides past
it the circuit is FREE, and its ports run over all their lanes. -/
def State.laneRestored (s : State) (k side : Nat) : State :=
  let c := s.circuit k
  match c.restored with
  | none => s
  | some m =>
    if m ||| (side + 1) = 3 then
      let whole := fun (u : State) n => if u.link n = 3 then u.wr PC_PORT_STATUS_ACTIVE_LANES n (u.activeLanes n) else u
      whole (whole (s.freeCircuit k) (s.circuitPort k 0)) (s.circuitPort k 1)
    else s.setCircuit k { c with restored := some (m ||| (side + 1)) }

/-- Step 5 of R547 on one side: where the port's link is up the device sends its FORD_REMOVE marker, and waits for the leaf's. -/
def State.restoreLane (s : State) (k side : Nat) : State :=
  let n := s.circuitPort k side
  if s.link n = 3 then s.sendMarker n 4 ((s.circuit k).lanes side).2 (s.rd OC_FORD_CIRCUIT_ID k) else s.laneRestored k side

/-- Steps 3 to 5 of R547: a circuit whose leaves have released it ends. -/
def State.endCircuit (s : State) (k : Nat) : State :=
  ((s.setCircuit k { s.circuit k with restored := some 0 }).restoreLane k 0).restoreLane k 1

/-- R547: a leaf has released the circuit, or needs no asking; a side that goes down at step 5 is past it. -/
def State.releaseSide (s : State) (k side : Nat) : State :=
  let c := s.circuit k
  if c.restored.isSome then s.laneRestored k side
  else
    let t := s.setCircuit k { c with released := c.released ||| (side + 1) }
    if (c.released ||| (side + 1)) = 3 then t.endCircuit k else t

/-- Step 1 of R547: the leaf of a side is told, where its port's link is up; otherwise that side counts as released. -/
def State.withdrawSide (s : State) (k side : Nat) : State :=
  if s.circuitState k = 4 then
    if s.link (s.circuitPort k side) = 3 then s.fordMsg k side 0x15 0 0 else s.releaseSide k side
  else s

/-- An offer is taken back from the leaves whose links are up. -/
def State.withdrawOffer (s : State) (k : Nat) (sides : List Nat) : State :=
  (sides.foldl (fun t d => if t.link (t.circuitPort k d) = 3 then t.fordMsg k d 0x15 0 0 else t) s).freeCircuit k

/-- R547: a circuit is removed; one only offered is taken back. -/
def State.removeCircuit (s : State) (k : Nat) : State :=
  match s.circuitState k with
  | 1 => s.withdrawOffer k [0, 1]
  | 2 | 3 => ((s.wr OC_FORD_CIRCUIT_STATE k 4).withdrawSide k 0).withdrawSide k 1
  | _ => s

/-- R548: what is under way on an outgoing fibre: a move or a Ford set-up or removal (R531). -/
def State.fibreChanging (s : State) (f : Nat) : Bool :=
  (s.moveOf f).isSome ||
  (match s.circuitOf (4 * f) with
   | some (k, _) => s.circuitState k != 3
   | none => false)

/-! ### A port leaves or changes (R519, R548) -/

/-- R548: a port's link is no longer up: its moves are abandoned with the maps as last committed, a grant of its lanes is
gone, and its circuit is removed at once. -/
def State.opticalPortDown (s : State) (n : Nat) : State :=
  let f := n / 4
  let a := match s.moveOf f with
    | some m => if m.port = n ∨ s.laneOf n m.lane = true then s.abandonMove f else s
    | none => s
  let b : State := match a.oc.granted.find? (fun x => x.1 == f) with
    | some (_, _, lane, _, _) => if a.laneOf n lane then { a with oc := { a.oc with granted := sdel f a.oc.granted } } else a
    | none => a
  match b.circuitOf n with
  | some (k, side) => if b.circuitState k = 4 then b.releaseSide k side else b.removeCircuit k
  | none => b

/-- R519: a KIND 0 port trains: its fibre pair is FIXED and both maps stand at their reset values. -/
def State.plainFibre (s : State) (n : Nat) : State :=
  let f := n / 4
  if s.isFabric n || (s.txWl f == 0x76543210 && s.txFree f == 8 && s.rxWl f == 0x76543210 && s.rxFree f == 8 && !s.rotating f && (s.moveOf f).isNone)
  then s
  else
    let t := (s.abandonCal f).dropMove f
    let u : State := { t with oc := { t.oc with granted := sdel f t.oc.granted } }
    (u.wrs [(OC_FIBRE_MAP_ROTATE, f, 0), (OC_FIBRE_MAP_WL, f, 0x76543210), (OC_FIBRE_MAP_FREE, f, 8), (OC_FIBRE_RX_MAP_WL, f, 0x76543210),
      (OC_FIBRE_RX_MAP_FREE, f, 8)]).sendSetting f

end Sys2Proof.Machine
end

