-- ==== Sys2Proof/Machine/Link.lean ====
section
/-! DEFINITION. A port going down (R213), link initialisation (R190, R191, R193), STATUS and retransmission (R198 to
R201), and PFC from the peer (R183, R184). -/

namespace Sys2Proof.Machine

/-! ### A port goes down (R213) -/

/-- A frame whose end is bad: copies that have not begun are dropped, the others end in a stomp (R176, R178). -/
def State.badFrame (s : State) (f reason : Nat) : State :=
  match s.frame f with
  | none => s
  | some x =>
    let t := s.setFrame f { x with stomp := some reason }
    ((x.waiting.filter (fun c => !c.started)).foldl (fun u c => u.endCopy f c.queue true) t).settleFrame f

/-- R213: the frames queued to a port are discarded and counted there; one in transmission is cut off. -/
def State.flushPort (s : State) (n : Nat) : State :=
  let t := match (s.port n).sending with
    | some _ => (s.modPort n (fun p => { p with sending := none })).emit (.frameCut n)
    | none => s
  (t.portQueues n).foldl (fun u q =>
    (u.queue q).foldl (fun v f => ((v.endCopy f q true).portAdd n 20 1).queueAdd q 2 1) u) t

/-- R213: a port's link is no longer up: its traffic is discarded and its link layer starts afresh. -/
def State.portFalls (s : State) (n link : Nat) : State :=
  let a := match (s.port n).arriving with
    | some f => (s.modPort n (fun p => { p with arriving := none })).badFrame f 2
    | none => s
  let b := ((a.undoInflight n).flushPort n).dropStore n
  let c := b.modPort n (fun p => { PortSt.reset with shaper := p.shaper, demoted := p.demoted, lanesMoved := p.lanesMoved })
  let d := c.wrs [(PC_PORT_STATUS_LINK, n, link), (PC_PORT_STATUS_ACTIVE_LANES, n, 0), (PC_PORT_STATUS_REPLAY_LIMITED, n, 0),
    (EV_PORT_STATUS_RESULT, n, 0)]
  (State.fall { d with bt := { d.bt with exchanges := sdel n d.bt.exchanges } } (.port (Fin.ofNat 1024 n))).opticalPortDown n

/-- PORT_LINK_DOWN (R213): the link fails; an enabled port trains again. -/
def execPortLinkDown (port : Fin 1024) (s : State) : Res :=
  whenLive (fun t => if t.link port.val = 0 then t else t.portFalls port.val (bit (t.portEnabled port.val))) s

/-! ### Initialisation (R190, R191, R193) -/

/-- R191: initialisation starts again on a link that was initialised. -/
def State.reinit (s : State) (n : Nat) : State :=
  let t := ((s.dropStore n).setErr PC_LINK_ERR_REINIT n).raise { code := 0x0204, kind := 2, logical := n, die := n / 256 }
  let stale := if (s.port n).sending.isSome then (s.port n).stale.or (some (s.port n).nextSeq) else none
  let u := t.modPort n (fun p => { p with stale := stale, initSeen := false, ackSent := false, ackSeen := false, complete := false, nak := false, rttKnown := false })
  if u.link n = 3 then (State.fall (u.wr PC_PORT_STATUS_LINK n 2) (.port (Fin.ofNat 1024 n))).opticalPortDown n else u

/-- R154: LINK becomes UP once the identity exchange has ended and a fabric link is initialised. -/
def State.settleLink (s : State) (n : Nat) : State :=
  let ex := sget Exchange.reset s.bt.exchanges n
  if s.link n = 2 ∧ ex.running = false ∧ (s.isFabric n = false ∨ (s.port n).complete = true) then s.wr PC_PORT_STATUS_LINK n 3 else s

/-- R190: at completion sequence numbers and credit counts start from zero. -/
def PortSt.initialised (p : PortSt) : PortSt :=
  let zero := [0, 0, 0, 0, 0]
  let q := { p with complete := true, nextSeq := 0, expected := 0, nak := false, accepted := 0, store := [] }
  { q with creditRet := zero, sent := zero, returned := zero, rtxFrom := none, rtxDue := none }

/-- R190: what an INIT tells of the peer. -/
def PortSt.tookInit (p : PortSt) (body : List Byte) : PortSt :=
  let mins := (List.range 5).map (fun k => be body (6 + 2 * k) 2)
  { p with initSeen := true, ackSeen := p.ackSeen || (be body 4 1).testBit 0, peerMin := mins, peerShared := be body 21 3 }

/-- R190: initialisation is complete once INIT_ACK has gone both ways; sequence numbers and credits start from zero. -/
def State.settleInit (s : State) (n : Nat) : State :=
  let p := s.port n
  if p.ackSent && p.ackSeen && !p.complete then
    (s.setPort n p.initialised).settleLink n
  else s

/-- R193: the automatic pool of a port, from the round trip it knows (log 28). -/
def State.autoPool (s : State) (n : Nat) : Nat :=
  (25 * s.portRate n * (s.rd PC_PORT_STATUS_RTT_NS n + 1000) + 511) / 512 + 5 * s.rd PC_CREDIT_CFG_VN_MIN n

/-- R172: RESV may rise to this before SHARED falls below 8,192 cells on a die: SRAM holds no more than RES_SRAM of it. -/
def State.resvLimit (s : State) : Nat :=
  (((List.range 2).filter (fun d => decide (s.dieCells d < s.rd PC_BUF_CFG_RES_SRAM d + 8192))).map (fun d => s.dieCells d - 8192)).foldl min 0x1000000

/-- R172, R193: the automatic pool is set, cut to what fits. -/
def State.sizePool (s : State) (n : Nat) : State :=
  if s.rd PC_CREDIT_CFG_POOL n ≠ 0 then s
  else
    let want := s.autoPool n
    let t := s.modPort n (fun p => { p with pool := want })
    if t.poolsFit then t
    else
      let others := t.resv - want
      let cut := s.modPort n (fun p => { p with pool := min want (s.resvLimit - others) })
      cut.refuseReserve t (PC_CREDIT_CFG.offset n) (t.word (PC_CREDIT_CFG.offset n))

/-- R189: a round trip is measured from the times a control frame carries. -/
def State.measure (s : State) (n : Nat) (body : List Byte) : State :=
  let echo := be body 32 8
  let t := s.modPort n (fun p => { p with stamp := be body 24 8, stampAt := s.now64 })
  if echo = 0 then t
  else (t.wr PC_PORT_STATUS_RTT_NS n (min 0xFFFF (wrapSub 64 (wrapSub 64 s.now64 echo) (be body 40 4)))).modPort n (fun p => { p with rttKnown := true })

/-- R190, R191: an INIT arrives. -/
def linkInit (n : Nat) (body : List Byte) (s : State) : State :=
  if !s.isFabric n || decide (s.link n < 2) then s
  else
    let t := if (s.port n).complete then s.reinit n else s
    let first := !(t.port n).rttKnown
    let u := (t.countRx n 64).measure n body
    let v := if first && (u.port n).rttKnown then u.sizePool n else u
    (v.modPort n (fun p => p.tookInit body)).settleInit n

/-- LINK_INIT_RECEIVED (R190, R191). -/
def execLinkInitReceived (port : Fin 1024) (payload : List Byte) (s : State) : Res := whenLive (linkInit port.val payload) s

/-- LINK_INIT_TIMER (R190). -/
def execLinkInitTimer (port : Fin 1024) (s : State) : Res :=
  whenLive (fun t =>
    let p := t.port port.val
    if t.isFabric port.val && decide (2 ≤ t.link port.val) && !p.complete && !(p.initSeen && p.ackSent) then
      (t.sendInit port.val).settleInit port.val
    else t) s

/-- INIT_TIMEOUT (R190). -/
def execInitTimeout (port : Fin 1024) (s : State) : Res :=
  whenLive (fun t =>
    if t.isFabric port.val && t.link port.val == 2 && !(t.port port.val).complete then
      (t.setErr PC_LINK_ERR_INIT_TIMEOUT port.val).raise { code := 0x0206, kind := 2, logical := port.val, die := port.val / 256 }
    else t) s

/-! ### STATUS and retransmission (R189, R194, R198 to R201, R624) -/

/-- R624: at a first escalation the lane that stands out by its errors is spared (R155); otherwise the link stays up. -/
def State.spareWorst (s : State) (n : Nat) : State :=
  let g := n / 4
  match s.worstLane g ((List.range 8).filter (s.laneOf n)) with
  | some j => s.laneFails (s.laneCarrier g j)
  | none => s

/-- R201, R624: retry escalates on a port. -/
def State.escalate (s : State) (n : Nat) : State :=
  let past := (sget [] s.fh.escalations n).filter (fun t => decide (s.now - t ≤ 60000000000))
  let a := (s.setErr PC_LINK_ERR_RETRY_ESCALATED n).raise
    { code := 0x0205, kind := 2, logical := n, die := n / 256, fault := if 2 ≤ past.length then some 4 else none }
  if 2 ≤ past.length then
    State.portFalls { a with fh := { a.fh with escalations := sdel n a.fh.escalations, portsHeld := a.fh.portsHeld ++ [n] } } n 0
  else
    let b : State := { a with fh := { a.fh with escalations := sset [] n (past ++ [s.now]) a.fh.escalations } }
    if past.any (fun t => decide (s.now - t ≤ 10000000000)) then b.reinit n else if past.isEmpty then b.spareWorst n else b

/-- R199, R201: a retransmission begins from sequence number `a`; the sixteenth from one number escalates. -/
def State.retransmit (s : State) (n a : Nat) : State :=
  let p := s.port n
  let k := match p.rtxFrom with
    | some (b, _, k) => if b = a then k + 1 else 1
    | none => 1
  let t := (s.setPort n { p with rtxFrom := some (a, s.now, k), rtxDue := none }).resend n a
  if k = 16 then t.escalate n else t

/-- R199: a NAK or a timeout asks for a retransmission, which waits for the frame in transmission. -/
def State.askResend (s : State) (n a : Nat) : State :=
  if (s.port n).sending.isSome then s.modPort n (fun p => { p with rtxDue := some a }) else s.retransmit n a

/-- R199: a NAK for `a` is ignored while a retransmission from `a` is younger than RTT_NS + 1,000 ns. -/
def State.nakStale (s : State) (n a : Nat) : Bool :=
  match (s.port n).rtxFrom with
  | some (b, t, _) => b == a && decide (s.now - t < s.rd PC_PORT_STATUS_RTT_NS n + 1000)
  | none => false

/-- R189, R194, R199: a STATUS arrives. -/
def linkStatus (n : Nat) (body : List Byte) (s : State) : State :=
  if !s.isFabric n || decide (s.link n < 2) then s
  else if !(s.port n).complete then (s.countRx n 64).measure n body
  else
    let a := be body 2 2
    let t := ((((s.countRx n 64).measure n body).modPort n (fun p =>
      { p with returned := (List.range 5).map (fun v => be body (6 + 3 * v) 3) })).ackTo n a).releaseOwn n
    if (be body 4 1).testBit 0 then
      let u := t.portAdd n 45 1
      if u.nakStale n a || !((u.port n).store.any (fun e => e.seq == a)) then u else u.askResend n a
    else t

/-- LINK_STATUS_TIMER (R198). -/
def execLinkStatusTimer (port : Fin 1024) (s : State) : Res :=
  whenLive (fun t => if t.isFabric port.val && (t.port port.val).complete then t.sendStatus port.val else t) s

/-- LINK_RETRY_TIMEOUT (R199). -/
def execLinkRetryTimeout (port : Fin 1024) (s : State) : Res :=
  whenLive (fun t =>
    match (t.port port.val).store with
    | e :: _ => (t.portAdd port.val 47 1).askResend port.val e.seq
    | [] => t) s

/-! ### PFC and PAUSE from the peer (R183, R184) -/

/-- R183: a PFC frame's classes and quanta. -/
def pfcIn (n : Nat) (classes : Nat) (quanta : List (BitVec 16)) (s : State) : State :=
  if s.isFabric n then (s.countRx n 64).portAdd n 43 1
  else (setBits 8 classes).foldl (fun t c =>
    if (quanta.getD c 0).toNat = 0 then t.modPort n (fun p => { p with paused := p.paused &&& (0xFF ^^^ 2 ^ c) })
    else (t.modPort n (fun p => { p with paused := p.paused ||| 2 ^ c })).portAdd n (35 + c) 1) (s.countRx n 64)

/-- PFC_FRAME_RECEIVED (R183, R184). -/
def execPfcFrameReceived (port : Fin 1024) (classes : BitVec 8) (quanta : List (BitVec 16)) (s : State) : Res :=
  whenLive (pfcIn port.val classes.toNat quanta) s

/-- PFC_QUANTA_EXPIRY (R183). -/
def execPfcQuantaExpiry (port : Fin 1024) (cls : Fin 8) (s : State) : Res :=
  whenLive (fun t => t.modPort port.val (fun p => { p with paused := p.paused &&& (0xFF ^^^ 2 ^ cls.val) })) s

/-- PFC_XOFF_REFRESH (R181). -/
def execPfcXoffRefresh (port : Fin 1024) (cls : Fin 8) (s : State) : Res :=
  whenLive (fun t => if (t.port port.val).xoffSent.testBit cls.val then t.sendXoff port.val cls.val else t) s

/-- PAUSE_RECEIVED (R184). -/
def execPauseReceived (port : Fin 1024) (s : State) : Res := whenLive (fun t => (t.countRx port.val 64).portAdd port.val 43 1) s

end Sys2Proof.Machine
end

