-- ==== Sys2Proof/Machine/Evbauth.lean ====
section
/-! DEFINITION. The Evbauth identity exchange at link-up (R138 to R145). -/

namespace Sys2Proof.Machine

/-- A port's exchange. -/
def State.exchange (s : State) (n : Nat) : Exchange := sget Exchange.reset s.bt.exchanges n

/-- The state with a port's exchange replaced. -/
def State.setExchange (s : State) (n : Nat) (x : Exchange) : State :=
  { s with bt := { s.bt with exchanges := sset Exchange.reset n x s.bt.exchanges } }

/-- R140, R141, R143: an exchange starts, under the policy as it stands now. -/
def State.startExchange (s : State) (n : Nat) : State :=
  let x : Exchange := { running := true, ownId := [], peerId := [], mode := s.rd EV_PORT_POLICY_MODE n,
                        expectValid := s.flag EV_PORT_POLICY_EXPECT_VALID n, expect := s.getBytes EV_PORT_EXPECT (16 * n) 4 }
  ((s.setExchange n x).addSat EV_PORT_STATUS_EXCHANGES n 1).wr EV_PORT_STATUS_RESULT n 1

/-- R139: the 112-byte payload of an Evbauth message. -/
def evbPayload (s : State) (type n : Nat) (nonce body : List Byte) : List Byte :=
  natBe 1 1 ++ natBe 1 type ++ natBe 2 112 ++ natBe 8 (s.rd BT_DEVICE_SERIAL_SERIAL 0) ++ natBe 2 n ++ zeros 2 ++ fitTo 32 nonce ++ fitTo 64 body

/-- R139: an Evbauth frame. -/
def evbFrame (n : Nat) (payload : List Byte) : List Byte :=
  natBe 6 0x0180C200000E ++ portMac n ++ natBe 2 0x88B5 ++ payload

/-- R139: the port's own ID message of this exchange, its nonce drawn once. -/
def State.ownId (s : State) (n : Nat) : List Byte × State :=
  let x := s.exchange n
  if x.ownId.isEmpty then
    let (r, t) := s.draw
    let id := evbPayload t 1 n (natBe 32 r) Config.publicKey
    (id, t.setExchange n { x with ownId := id })
  else (x.ownId, s)

/-- Step 1 of R140: the port sends its ID message. -/
def idTimer (n : Nat) (s : State) : State :=
  if (s.exchange n).running then
    let (id, t) := s.ownId n
    t.sendOwn n (evbFrame n id)
  else s

/-- EVBAUTH_ID_TIMER (R140). -/
def execEvbauthIdTimer (port : Fin 1024) (s : State) : Res := whenLive (idTimer port.val) s

/-- R139: an Evbauth payload of a type is well formed. -/
def evbGood (type : Nat) (p : List Byte) : Bool := p.length == 112 && be p 0 1 == 1 && be p 1 1 == type && be p 2 2 == 112

/-- Step 7 of R140: an ID message after the exchange has ended is a new link-up. -/
def State.reopenExchange (s : State) (n : Nat) : State :=
  if (s.exchange n).running then s
  else State.leave ((s.wr PC_PORT_STATUS_LINK n 2).startExchange n) (.port (Fin.ofNat 1024 n))

/-- Steps 2 and 3 of R140: the peer is recorded, and the PROOF goes out. -/
def idReceived (n : Nat) (p : List Byte) (s : State) : State :=
  let t := s.reopenExchange n
  let key := slice p 48 64
  let u := ((t.wr EV_PORT_PEER_SERIAL_SERIAL n (be p 4 8)).putBytes EV_PORT_PEER_DIGEST (16 * n) (sm3 key))
  let (id, v) := u.ownId n
  let w := v.setExchange n { v.exchange n with peerId := p }
  w.sendOwn n (evbFrame n (evbPayload w 2 n (slice p 16 32) (signature (id ++ p))))

/-- A message the port consumes acts only on a link that has FEC lock, and once its tag is accepted. -/
def onLink (n : Nat) (tag : Option (BitVec 48)) (len : Nat) (f : State → State) (s : State) : State :=
  if s.link n < 2 then s
  else match s.linkConsume n tag len with
    | (true, t) => f t
    | (false, t) => t

/-- EVBAUTH_ID_RECEIVED (R139, R140). -/
def execEvbauthIdReceived (port : Fin 1024) (tag : Option (BitVec 48)) (payload : List Byte) (s : State) : Res :=
  whenLive (onLink port.val tag (payload.length + 18) (fun t => if evbGood 1 payload then idReceived port.val payload t else t)) s

/-- R140, R141: the exchange ends with a RESULT. -/
def State.endExchange (s : State) (n result : Nat) : State :=
  ((s.setExchange n { s.exchange n with running := false }).wr EV_PORT_STATUS_RESULT n result).settleLink n

/-- Step 4 of R140: a PROOF verifies: it echoes the nonce of the port's own ID message (R139), and its signature over the peer's
ID message and the port's own is that of the peer's key. DEDUCED (log 30): before any ID message there is no key to verify with. -/
def Exchange.proves (x : Exchange) (p : List Byte) : Bool :=
  !x.peerId.isEmpty && slice p 16 32 == slice x.ownId 16 32 &&
  Config.verify (slice x.peerId 48 64) (sm3 (x.peerId ++ x.ownId)) (slice p 48 64)

/-- Steps 4 to 6 of R140 with R143: a PROOF ends the exchange. -/
def proofReceived (n : Nat) (p : List Byte) (s : State) : State :=
  let x := s.exchange n
  if !x.running then s
  else if !x.proves p then
    (s.endExchange n 4).raise { code := 0x0D03, kind := 2, logical := n, die := n / 256 }
  else if x.expectValid && x.expect != s.getBytes EV_PORT_PEER_DIGEST (16 * n) 4 then
    (s.endExchange n 5).raise { code := 0x0D02, kind := 2, logical := n, die := n / 256 }
  else s.endExchange n 2

/-- EVBAUTH_PROOF_RECEIVED (R140, R143). -/
def execEvbauthProofReceived (port : Fin 1024) (tag : Option (BitVec 48)) (payload : List Byte) (s : State) : Res :=
  whenLive (onLink port.val tag (payload.length + 18) (fun t => if evbGood 2 payload then proofReceived port.val payload t else t)) s

/-- EVBAUTH_TIMEOUT (R140, R141, R144). -/
def execEvbauthTimeout (port : Fin 1024) (s : State) : Res :=
  whenLive (fun t => if (t.exchange port.val).running then t.endExchange port.val 3 else t) s

/-- R142: the exchange of a port has ended as its policy requires. -/
def State.identityOk (s : State) (n : Nat) : Bool :=
  let x := s.exchange n
  let r := s.rd EV_PORT_STATUS_RESULT n
  !x.running && decide (2 ≤ r) &&
  (match x.mode with
   | 0 => true
   | 1 => r == 2 || r == 5
   | _ => r == 2 && x.expectValid)

/-- R142: a write of EV_PORT_POLICY that carries MODE 3 is discarded. -/
def policyWrite (n : Nat) (v : Word) (s : State) : State :=
  if EV_PORT_POLICY_MODE.of v = 3 then s.refuseWrite (EV_PORT_POLICY.offset n) v.toNat else s.plainWrite EV_PORT_POLICY n v

end Sys2Proof.Machine
end

