-- ==== Sys2Proof/Machine/Port.lean ====
section
/-! DEFINITION. Ports and lane groups (R148 to R155, R172, R276): enabling, disabling, layouts, link training and
lane spares. -/

namespace Sys2Proof.Machine

/-- R276: at an enable, strict classes that would take the line are demoted. -/
def State.settleStrict (s : State) (n : Nat) : State :=
  if 1000 * s.portRate n ≤ s.strictSum n ∧ 0 < s.strictSum n then
    ((s.modPort n (fun p => { p with demoted := true })).setErr TQ_ERR_SCHED_REFUSED 0).raise
      { code := 0x0402, kind := 2, logical := n, die := 4 + homeDie n }
  else s.modPort n (fun p => { p with demoted := false })

/-- R152 to R154, R172: a write of PC_PORT_CFG. DESIGN CHOICE (log 26): a MAX_FRAME outside its range is refused
as R153 refuses. -/
def portCfg (n : Nat) (v : Word) (s : State) : State :=
  let was := s.portEnabled n
  let on := PC_PORT_CFG_ENABLE.isSet v
  let changed := PC_PORT_CFG_KIND.of v ≠ s.rd PC_PORT_CFG_KIND n ∨ PC_PORT_CFG_MAX_FRAME.of v ≠ s.rd PC_PORT_CFG_MAX_FRAME n
  let max := PC_PORT_CFG_MAX_FRAME.of v
  if (on = true ∧ s.portRate n = 0) ∨ (was = true ∧ changed) ∨ max < 1518 ∨ 9216 < max then
    s.refuseWrite (PC_PORT_CFG.offset n) v.toNat
  else
    let t := s.plainWrite PC_PORT_CFG n v
    if on && !was then
      if t.poolsFit then State.settleFull (((t.settleStrict n).wr PC_PORT_STATUS_LINK n 1).plainFibre n)
      else s.refuseReserve t (PC_PORT_CFG.offset n) v
    else if was && !on then
      let u : State := { t with fh := { t.fh with portsHeld := t.fh.portsHeld.filter (fun p => p != n), escalations := sdel n t.fh.escalations } }
      (u.portFalls n 0).settleFull
    else t

/-- PORT_ENABLE (R152, R153). -/
def execPortEnable (port : Fin 1024) (value : Word) (s : State) : Res := whenReg (PC_PORT_CFG.offset port.val) value (portCfg port.val value) s

/-- PORT_DISABLE (R152). -/
def execPortDisable (port : Fin 1024) (value : Word) (s : State) : Res := whenReg (PC_PORT_CFG.offset port.val) value (portCfg port.val value) s

/-- R150: a write of PC_LANE_GROUP. -/
def laneGroup (g : Nat) (v : Word) (s : State) : State :=
  let layout := PC_LANE_GROUP_LAYOUT.of v
  let ports := (List.range 4).map (fun k => 4 * g + k)
  let idle := ports.all (fun n => !s.portEnabled n && s.link n == 0)
  if 4 < layout ∨ (layout ≠ s.rd PC_LANE_GROUP_LAYOUT g ∧ idle = false) then s.refuseWrite (PC_LANE_GROUP.offset g) v.toNat
  else (s.plainWrite PC_LANE_GROUP g v).settleFull

/-- LANE_LAYOUT_WRITE (R150). -/
def execLaneLayoutWrite (group : Fin 256) (value : Word) (s : State) : Res := whenReg (PC_LANE_GROUP.offset group.val) value (laneGroup group.val value) s

/-- R613: a 1.6T fabric port can go on over seven lanes. -/
def State.sevenLanes (s : State) (n : Nat) : Bool := s.isFabric n && s.portRate n == 16 && decide (7 ≤ s.activeLanes n)

/-- R154, R613, R639: a port can lock: it trains, is not held down, has its reference clock, and lacks no lane it
cannot do without. -/
def State.canLock (s : State) (n : Nat) : Bool :=
  s.portEnabled n && s.link n == 1 && (!s.shortOfLane n || s.sevenLanes n) && !s.fh.portsHeld.contains n && !s.bt.serdesLost.contains (n / 256)

/-- R140, R154, R190: FEC locks: the port enters LINK_INIT, and its identity exchange starts. -/
def fecLock (n : Nat) (s : State) : State :=
  if s.canLock n then
    let t := (s.wr PC_PORT_STATUS_LINK n 2).wr PC_PORT_STATUS_ACTIVE_LANES n (s.activeLanes n)
    let u := if t.isFabric n then t.sizePool n else t
    u.startExchange n
  else s

/-- LINK_FEC_LOCK (R154). -/
def execLinkFecLock (port : Fin 1024) (s : State) : Res := whenLive (fecLock port.val) s

/-- R155: a spare lane is switched in: on an Ethernet port while it trains, on a fabric port at a marker with its
link up (R531: not while another change of that direction is under way). -/
def laneSwap (n j : Nat) (s : State) : State :=
  let g := n / 4
  if s.laneSpareFree g = false ∨ s.laneOf n j = false ∨ s.portEnabled n = false then s
  else if s.isFabric n then
    if s.link n = 3 ∧ (s.port n).complete = true ∧ s.fibreChanging g = false then (s.sendMarker n 1 j 0).spareLane g j
    else if s.link n = 1 then s.spareLane g j
    else s
  else if s.link n = 1 then s.spareLane g j
  else s

/-- LANE_SWAP (R155). -/
def execLaneSwap (port : Fin 1024) (lane : Fin 8) (s : State) : Res := whenLive (laneSwap port.val lane.val) s

end Sys2Proof.Machine
end

