-- ==== Sys2Proof/Machine/Optical.lean ====
section
/-! DEFINITION. Moving lanes between wavelengths (R530 to R532), markers received (R203), wavelengths and lanes that
fail (R613, R615), and rotating calibration (R533 to R535). -/

namespace Sys2Proof.Machine

/-! ### A lane or a wavelength fails (R613, R615) -/

/-- R613: a lane is withdrawn: a 1.6T fabric port goes on over seven lanes, any other port that holds it goes down. -/
def State.loseLane (s : State) (g j : Nat) : State :=
  if s.laneWithdrawn g j then s
  else
    let phys := physicalLane g (if s.rd PC_LANE_GROUP_SPARE_FOR g = j then 8 else j)
    let w : State := { s with fh := { s.fh with withdrawn := s.fh.withdrawn ++ [65536 + 8 * g + j],
                                                lanesRetired := s.fh.lanesRetired ++ [phys] } }
    let a := (w.addSat FH_SPARE_STATUS_WITHDRAWN (g / 64) 1).addSat FH_SPARE_STATUS_RETIRED (g / 64) 1
    let b := a.raise { code := 0x0208, kind := 1, logical := 8 * g + j, die := g / 64, physical := phys }
    match ((List.range 4).map (fun k => 4 * g + k)).find? (fun n => b.laneOf n j) with
    | none => b
    | some n =>
      if b.link n = 0 then b
      else if b.sevenLanes n then
        let c := match b.circuitOf n with
          | some (k, _) => b.removeCircuit k
          | none => b
        if c.link n < 2 then c else c.wr PC_PORT_STATUS_ACTIVE_LANES n (min 7 (c.rd PC_PORT_STATUS_ACTIVE_LANES n))
      else b.portFalls n (bit (b.portEnabled n))

/-- R615: WAVELENGTH_MOVED of an outgoing fibre direction. -/
def State.wavelengthMoved (s : State) (f : Nat) : State := s.raise { code := 0x090A, kind := 8, logical := 2 * f }

/-- Lane `j` of an outgoing fibre now stands on wavelength `w`. -/
def State.putLane (s : State) (f j w : Nat) : State :=
  s.wr OC_FIBRE_MAP_WL f (withBits (s.txWl f) (4 * j + 3) (4 * j) w)

/-! ### The transmitter (R530, R532) -/

/-- Step 7 of R530: a move is done: the lane stands on the new wavelength and the old one is FREE, under calibration
where the move was for one (R525, R533), or is used no more where it failed (R615). -/
def State.commitMove (s : State) (f : Nat) (m : Move) : State :=
  let a := ((s.dropMove f).putLane f m.lane m.to_).sendSetting f
  match m.cause with
  | .laser => a.wr OC_FIBRE_MAP_FREE f m.from_
  | .failed => (a.wr OC_FIBRE_MAP_FREE f 15).wavelengthMoved f
  | _ =>
    let b := (a.wr OC_FIBRE_MAP_FREE f m.from_).wr OC_FIBRE_MAP_CAL_W f m.from_
    { b with oc := { b.oc with calTemp := sput f (b.rd OC_ENGINE_STATUS_TEMP (f / 16)) b.oc.calTemp } }

/-- R530: the LASER_SWAP marker of a move. -/
def Move.swapFrame (m : Move) : List Byte := markerFrame m.port 2 (16 * m.lane + m.to_) m.id

/-- R530: the LASER_SWAP marker of a move goes out. -/
def State.sendSwap (s : State) (m : Move) : State := s.sendOwn m.port m.swapFrame

/-- R532: a move that cannot wait is made unbridged: the lane switches with its marker. -/
def State.unbridged (s : State) (f : Nat) (m : Move) : State :=
  (((s.sendSwap m).setErr OC_ERR_MOVE_UNBRIDGED 0).raise { code := 0x0904, kind := 8, logical := 2 * f }).commitMove f m

/-- R532: a move is refused: one for calibration waits for its next turn, any other is made unbridged. -/
def State.refusedMove (s : State) (f : Nat) (m : Move) : State :=
  if m.cause = .calibration then (s.dropMove f).sendSetting f else s.unbridged f m

/-- Step 1 of R530: a move of lane `j` to FREE begins, where nothing else changes that direction (R531), it has a FREE
wavelength and a link is up to speak over. -/
def State.startMove (s : State) (f j : Nat) (cause : MoveCause) : State :=
  match (s.lanePort f j).or (s.upPorts f).head? with
  | none => s
  | some n =>
    if s.fibreChanging f || s.txFree f == 15 || s.engineHolds f then s
    else
      let (r, t) := s.draw
      let m : Move := { id := r % 2 ^ 32, lane := j, from_ := wlOf (s.txWl f) j, to_ := s.txFree f, cause := cause, port := n, marker := none }
      (t.setMove f m).moveMsg n 0x01 m.id j 0 m.from_ m.to_

/-- Steps 3 and 4 of R530: a grant: the lane is bridged and its marker goes out. -/
def moveGrant (n : Nat) (p : List Byte) (s : State) : State :=
  let f := n / 4
  match s.moveOf f with
  | some m =>
    if m.marker = none ∧ be p 4 4 = m.id ∧ s.engineHolds f = false then
      ((s.setMove f { m with marker := some m.swapFrame }).sendSetting f).sendSwap m
    else s
  | none => s

/-- MOVE_GRANT (R530). -/
def execMoveGrant (port : Fin 1024) (tag : Option (BitVec 48)) (payload : List Byte) (s : State) : Res :=
  whenLive (onLink port.val tag (payload.length + 18) (fun t => if ocGood 0x02 payload then moveGrant port.val payload t else t)) s

/-- R532: a refusal of the move under way. -/
def moveRefuse (n : Nat) (p : List Byte) (s : State) : State :=
  match s.moveOf (n / 4) with
  | some m => if m.marker = none ∧ be p 4 4 = m.id ∧ s.engineHolds (n / 4) = false then s.refusedMove (n / 4) m else s
  | none => s

/-- MOVE_REFUSE (R532). -/
def execMoveRefuse (port : Fin 1024) (tag : Option (BitVec 48)) (payload : List Byte) (s : State) : Res :=
  whenLive (onLink port.val tag (payload.length + 18) (fun t => if ocGood 0x03 payload then moveRefuse port.val payload t else t)) s

/-- MOVE_ANSWER_TIMEOUT (R530): no answer within 1 ms counts as a refusal. -/
def execMoveAnswerTimeout (fibre : Fin 256) (s : State) : Res :=
  whenLive (fun t => match t.moveOf fibre.val with
    | some m => if m.marker = none ∧ t.engineHolds fibre.val = false then t.refusedMove fibre.val m else t
    | none => t) s

/-- A port's replay store still holds a sequence number. -/
def State.unacked (s : State) (n : Nat) (bytes : List Byte) : Bool :=
  (s.port n).own.contains bytes || (s.port n).store.any (fun e => e.bytes == bytes)

/-- Steps 6 and 7 of R530: a move whose marker is acknowledged is done. -/
def State.settleMove (s : State) (f : Nat) : State :=
  match s.moveOf f with
  | some m =>
    match m.marker with
    | some q => if s.unacked m.port q || s.engineHolds f then s else s.commitMove f m
    | none => s
  | none => s

/-! ### The receiver (R530, R531) -/

/-- R530, R531: why a request is refused: 3 busy, 1 its target is not locked, 2 the spare is in use; zero where it is
granted. DEDUCED (log 63): in that order. -/
def State.moveReason (s : State) (f wt : Nat) : Nat :=
  if s.oc.granted.any (fun x => x.1 == f) || (match s.circuitOf (4 * f) with
    | some (k, _) => s.circuitState k != 3
    | none => false) then 3
  else if !(s.ringSt (ringKey f 1 wt)).locked then 1
  else if s.rd PC_LANE_GROUP_SPARE_FOR f ≠ 15 then 2
  else 0

/-- Step 2 of R530: a MOVE_REQUEST is answered. -/
def moveRequest (n : Nat) (p : List Byte) (s : State) : State :=
  let f := n / 4
  let id := be p 4 4
  let lane := be p 8 1
  let wf := be p 10 1
  let wt := be p 11 1
  let r := s.moveReason f wt
  if r = 0 then
    let t : State := { s with oc := { s.oc with granted := sput f (id, lane, wf, wt) s.oc.granted } }
    (t.sendSetting f).moveMsg n 0x02 id lane 0 wf wt
  else s.moveMsg n 0x03 id lane r wf wt

/-- MOVE_REQUEST (R530). -/
def execMoveRequest (port : Fin 1024) (tag : Option (BitVec 48)) (payload : List Byte) (s : State) : Res :=
  whenLive (onLink port.val tag (payload.length + 18) (fun t => if ocGood 0x01 payload then moveRequest port.val payload t else t)) s

/-! ### Ford markers (R545) -/

/-- Steps 4 and 5 of R545: with both directions of both ports past their markers the circuit stands. -/
def State.settleFord (s : State) (k : Nat) : State :=
  let c := s.circuit k
  let a := s.circuitPort k 0
  let b := s.circuitPort k 1
  let passed := fun (n : Nat) (q : Option (List Byte)) => match q with
    | some v => !s.unacked n v
    | none => false
  if s.circuitState k = 2 ∧ c.markers = 3 ∧ passed a c.markA = true ∧ passed b c.markB = true then
    let w := s.rd OC_FORD_CIRCUIT_WAVELENGTH k
    let t := (((s.restartFour (a / 4) w).restartFour (b / 4) w).sendSetting (a / 4)).sendSetting (b / 4)
    let u := t.wrs [(OC_FORD_CIRCUIT_STATE, k, 3), (PC_PORT_STATUS_ACTIVE_LANES, a, 7), (PC_PORT_STATUS_ACTIVE_LANES, b, 7)]
    (u.fordMsg k 0 0x14 0 0).fordMsg k 1 0x14 0 0
  else s

/-- What an acknowledgement on a port may complete: the move of its fibre, a circuit's markers. -/
def State.opticalSettle (s : State) (n : Nat) : State :=
  let t := s.settleMove (n / 4)
  match t.circuitOf n with
  | some (k, _) => t.settleFord k
  | none => t

/-- LINK_STATUS_RECEIVED (R199). -/
def execLinkStatusReceived (port : Fin 1024) (payload : List Byte) (s : State) : Res :=
  whenLive (fun t => (linkStatus port.val payload t).opticalSettle port.val) s

/-! ### Markers received (R203) -/

/-- R533: an RX filter is recalibrated against the idle light of its channel: its calibration values are free values (log 62). -/
def State.recalibrateRx (s : State) (f w : Nat) : State :=
  let (d, t) := s.draw
  let k := ringKey f 1 w
  let v := fun i => Config.freeAt d i % 65536
  (t.setRingSt k { t.ringSt k with cal := some (v 0, v 1, v 2) }).restartRing k

/-- R203: the change that an accepted MARKER makes. DEDUCED (log 64): a peer's LANE_SWAP puts the group's spare in
use here too. -/
def marker (n : Nat) (p : List Byte) (s : State) : State :=
  let f := n / 4
  let arg := be p 5 1
  let id := be p 6 4
  match be p 4 1 with
  | 1 => if s.laneSpareFree f = true ∧ s.laneOf n arg = true then s.spareLane f arg else s
  | 2 =>
    let lane := arg / 16
    let old := wlOf (s.rxWl f) lane
    let t : State := { s with oc := { s.oc with granted := sdel f s.oc.granted } }
    if 8 ≤ lane ∨ 8 < arg % 16 ∨ old = arg % 16 then t
    else
      ((t.wrs [(OC_FIBRE_RX_MAP_WL, f, withBits (t.rxWl f) (4 * lane + 3) (4 * lane) (arg % 16)), (OC_FIBRE_RX_MAP_FREE, f, old)]).sendSetting f).recalibrateRx f old
  | 3 =>
    match s.circuitOf n with
    | some (k, side) =>
      if s.rd OC_FORD_CIRCUIT_ID k = id ∧ s.circuitState k = 2 then
        (s.setCircuit k { s.circuit k with markers := (s.circuit k).markers ||| (side + 1) }).settleFord k
      else s
    | none => s
  | 4 =>
    match s.circuitOf n with
    | some (k, side) => if s.rd OC_FORD_CIRCUIT_ID k = id then s.laneRestored k side else s
    | none => s
  | _ => s

/-- MARKER_RECEIVED (R188, R203): on a fabric port whose link is initialised. -/
def execMarkerReceived (port : Fin 1024) (tag : BitVec 48) (payload : List Byte) (s : State) : Res :=
  whenLive (fun t =>
    if t.isFabric port.val && (t.port port.val).complete then
      onLink port.val (some tag) (payload.length + 18) (fun u => if be payload 1 1 = 2 then marker port.val payload u else u) t
    else t) s

/-! ### A wavelength fails (R540, R615) -/

/-- R615: a wavelength of an outgoing fibre fails: its lane moves to FREE, which is then used up; with no FREE left the
lane is lost (R613). A Ford circuit on it is the leaves' light and stays. -/
def State.wavelengthFails (s : State) (f w : Nat) : State :=
  if s.rd OC_FIBRE_MAP_FORD_W f = w then s
  else if s.txFree f = w then ((s.abandonCal f).wr OC_FIBRE_MAP_FREE f 15).wavelengthMoved f
  else match laneAt (s.txWl f) w with
    | none => s
    | some j =>
      if s.txFree f = 15 then s.loseLane f j
      else if s.rotating f && (s.lanePort f j).isSome then (s.startMove f j .failed).queueRecovery 8 (2 * f) w .none
      else
        let t := match s.lanePort f j with
          | some n => s.portFalls n 1
          | none => s
        (((t.putLane f j (t.txFree f)).wr OC_FIBRE_MAP_FREE f 15).sendSetting f).wavelengthMoved f

/-! ### Rotating calibration (R533 to R535) -/

/-- A channel's sweep begins. -/
def State.startSweep (s : State) (f w : Nat) : State :=
  let t := (s.wr OC_FIBRE_MAP_CAL_W f w).sendSetting f
  { t with oc := { t.oc with calTemp := sput f (t.rd OC_ENGINE_STATUS_TEMP (f / 16)) t.oc.calTemp } }

/-- A calibration of a fibre is under way, its move included. -/
def State.calibrating (s : State) (f : Nat) : Bool :=
  s.calW f != 15 || (match s.moveOf f with
    | some m => m.cause == .calibration
    | none => false)

/-- STATE of a laser position: 0 NORMAL, 1 SWAPPING, 2 SPARE_USED, 3 FAILED. -/
def State.laserState (s : State) (m k : Nat) : Nat := s.rd OC_LASER_STATUS_STATE (32 * m + k)

/-- A laser position of the module that feeds a fibre is SWAPPING. -/
def State.swapping (s : State) (f : Nat) : Bool := (List.range 9).any (fun k => s.laserState (f / 64) k == 1)

/-- R534: a calibration of a fibre may begin. -/
def State.mayCalibrate (s : State) (f : Nat) : Bool :=
  let e := f / 16
  let st := s.rd OC_ENGINE_STATUS_STATE e
  s.flag OC_CAL_CFG_ENABLE 0 && (st == 1 || st == 2) && !s.calibrating f && !s.fibreChanging f && !s.swapping f &&
  decide ((((List.range 16).map (fun i => 16 * e + i)).filter s.calibrating).length < s.rd OC_CAL_CFG_PER_ENGINE 0)

/-- The wavelength of a list whose last calibration is oldest; the first of several. -/
def State.oldestChannel (s : State) (f : Nat) : List Nat → Option Nat
  | [] => none
  | w :: r =>
    match s.oldestChannel f r with
    | none => some w
    | some v => if sget 0 s.oc.calibrated (16 * f + w) ≤ sget 0 s.oc.calibrated (16 * f + v) then some w else some v

/-- R533, R534: a calibration begins: on a ROTATING fibre with a link up the oldest channel's lane first moves to FREE;
with no link up the channel is swept in place. -/
def calibrationStart (f : Nat) (s : State) : State :=
  if s.mayCalibrate f then
    let carried := ((List.range 8).filter (fun j => !s.laneWithdrawn f j)).map (wlOf (s.txWl f))
    let usable := carried.filter (fun w => w != s.rd OC_FIBRE_MAP_FORD_W f)
    if (s.upPorts f).isEmpty then
      match s.oldestChannel f (usable ++ (if s.txFree f = 15 then [] else [s.txFree f])) with
      | some w => s.startSweep f w
      | none => s
    else if s.rotating f then
      match (s.oldestChannel f usable).bind (laneAt (s.txWl f)) with
      | some j => s.startMove f j .calibration
      | none => s
    else s
  else s

/-- CALIBRATION_START (R533). -/
def execCalibrationStart (fibre : Fin 256) (s : State) : Res := whenLive (calibrationStart fibre.val) s

/-- Steps 4 and 5 of R533: the sweep ends with the ring's new values. -/
def calibrationDone (f target ki window : Nat) (s : State) : State :=
  let w := s.calW f
  if w = 15 then s
  else
    let k := ringKey f 0 w
    let r := s.ringSt k
    let r' := { r with cal := some (target, ki, window), inside := 0, outside := 0, limit := 0, locked := false,
                       retries := r.retries + bit r.lost }
    let t := ((s.setRingSt k r').wr OC_FIBRE_MAP_CAL_W f 15).sendSetting f
    { t with oc := { t.oc with calibrated := sset 0 (16 * f + w) t.now t.oc.calibrated, calTemp := sdel f t.oc.calTemp } }

/-- CALIBRATION_DONE (R533). -/
def execCalibrationDone (fibre : Fin 256) (target ki window : BitVec 16) (s : State) : Res :=
  whenLive (calibrationDone fibre.val target.toNat ki.toNat window.toNat) s

/-! ### Settings (R519, R550) -/

/-- R550: a write of an optical register whose value is out of range is discarded. -/
def State.ocRefuse (s : State) : State := s.setErr OC_ERR_CFG_REFUSED 0

/-- R519: a write of OC_FIBRE_MAP: ROTATE only while every enabled port of the group has KIND 1. -/
def fibreMapWrite (f : Nat) (v : Word) (s : State) : State :=
  let plain := ((List.range 4).map (fun k => 4 * f + k)).any (fun n => s.portEnabled n && !s.isFabric n)
  if OC_FIBRE_MAP_ROTATE.isSet v && plain then s.ocRefuse else s.plainWrite OC_FIBRE_MAP f v

/-- R550, R551: a write of OC_CAL_CFG. -/
def calCfgWrite (v : Word) (s : State) : State :=
  let p := OC_CAL_CFG_PERIOD_S.of v
  let n := OC_CAL_CFG_PER_ENGINE.of v
  if p < 60 ∨ n < 1 ∨ 8 < n then s.ocRefuse else s.plainWrite OC_CAL_CFG 0 v

/-- R550, R553: a write of OC_ENGINE_ENV. -/
def engineEnvWrite (e : Nat) (v : Word) (s : State) : State :=
  if OC_ENGINE_ENV_H_MAX.of v ≤ OC_ENGINE_ENV_H_MIN.of v then s.ocRefuse else s.plainWrite OC_ENGINE_ENV e v

/-- R550, R553: a write of OC_FF_CFG. -/
def ffCfgWrite (e : Nat) (v : Word) (s : State) : State :=
  if OC_FF_CFG_TAU_US.of v = 0 then s.ocRefuse else s.plainWrite OC_FF_CFG e v

end Sys2Proof.Machine
end

