-- ==== Sys2Proof/Machine/Ford.lean ====
section
/-! DEFINITION. Ford circuits (R542 to R547, R551, R552). -/

namespace Sys2Proof.Machine

/-! ### Conditions (R542, R544) -/

/-- R542: what one port of a circuit must be. -/
def State.fordPortOk (s : State) (n : Nat) : Bool :=
  s.rd PC_LANE_GROUP_LAYOUT (n / 4) == 4 && n % 4 == 0 && s.isFabric n && s.portReady n && s.link n == 3 &&
  (s.rd OC_FORD_ELIGIBLE_BITS (n / 64)).testBit (n % 64) && s.rd EV_PORT_STATUS_RESULT n == 2 &&
  decide (s.strictSum n < 14000) && !s.shortOfLane n

/-- R542: a pair of ports may have a circuit. -/
def State.fordPairOk (s : State) (a b : Nat) : Bool :=
  s.flag OC_FORD_CFG_ENABLE 0 && a / 64 == b / 64 && a != b && s.fordPortOk a && s.fordPortOk b

/-- R544: a wavelength is usable on one fibre pair: it carries a lane both ways and nothing else concerns it. -/
def State.fordWaveOk (s : State) (f w : Nat) : Bool :=
  let moving := (match s.moveOf f with
    | some m => m.from_ == w || m.to_ == w
    | none => false) || s.oc.granted.any (fun x => x.1 == f && (x.2.2.2.1 == w || x.2.2.2.2 == w))
  (laneAt (s.txWl f) w).isSome && (laneAt (s.rxWl f) w).isSome && s.calW f != w && !moving &&
  s.laserState (f / 64) w != 1

/-- R544: the wavelength a circuit between two fibre pairs takes. -/
def State.fordWave (s : State) (fa fb : Nat) : Option Nat :=
  (List.range 9).find? (fun w => s.fordWaveOk fa w && s.fordWaveOk fb w)

/-! ### Demand (R543) -/

/-- Demand of a pair by its key 1,024 × A + B. -/
def State.pair (s : State) (k : Nat) : Pair := sget Pair.reset s.oc.pairs k

/-- The state with a pair's demand replaced. -/
def State.setPair (s : State) (k : Nat) (p : Pair) : State := { s with oc := { s.oc with pairs := sset Pair.reset k p s.oc.pairs } }

/-- The key of a pair of ports in either order. -/
def pairKey (a b : Nat) : Nat := if a < b then 1024 * a + b else 1024 * b + a

/-- The larger byte rate of a pair in this window. -/
def Pair.demand (p : Pair) : Nat := max p.there p.back

/-- R543: a frame admitted at port `a` for port `b` counts toward the demand of an eligible pair. -/
def State.noteDemand (s : State) (a b len : Nat) : State :=
  let marked := fun (n : Nat) => (s.rd OC_FORD_ELIGIBLE_BITS (n / 64)).testBit (n % 64)
  if s.flag OC_FORD_CFG_ENABLE 0 && a / 64 == b / 64 && a != b && marked a && marked b then
    let k := pairKey a b
    let p := s.pair k
    s.setPair k (if a < b then { p with there := p.there + len } else { p with back := p.back + len })
  else s

/-- R543: bytes of a window reach a rate in Gb/s: WINDOW counts 100 µs. -/
def State.reaches (s : State) (bytes rate : Nat) : Bool := decide (rate * s.rd OC_FORD_CFG_WINDOW 0 * 100000 ≤ 8 * bytes)

/-- R543: a window ends for one pair. -/
def State.pairWindow (s : State) (k : Nat) : State :=
  let p := s.pair k
  let high := if s.reaches p.demand (s.rd OC_FORD_CFG_ON_RATE 0) then min 255 (p.high + 1) else 0
  s.setPair k ⟨0, 0, high, p.heldOff - 1⟩

/-- R542, R543: a window ends for a circuit: it is removed once demand has been low for OFF_COUNT windows, or where its ports no
longer meet the conditions. DESIGN CHOICE (log 65): the conditions are looked at in each window. -/
def State.circuitWindow (s : State) (k : Nat) : State :=
  let a := s.circuitPort k 0
  let b := s.circuitPort k 1
  let st := s.circuitState k
  if st = 0 ∨ st = 4 then s
  else if s.fordPairOk a b = false then s.removeCircuit k
  else if st = 3 then
    let c := s.circuit k
    let low := if s.reaches (s.pair (pairKey a b)).demand (s.rd OC_FORD_CFG_OFF_RATE 0) then 0 else c.low + 1
    let t := s.setCircuit k { c with low := low }
    if s.rd OC_FORD_CFG_OFF_COUNT 0 ≤ low then t.removeCircuit k else t
  else s

/-! ### Offers (R545) -/

/-- R545: FAR_SERIAL and FAR_PORT of the leaf behind a port. -/
def State.leafOf (s : State) (n : Nat) : Nat × Nat := (s.rd EV_PORT_PEER_SERIAL_SERIAL n, be (s.exchange n).peerId 12 2)

/-- Step 1 of R545: a circuit is offered to both leaves. -/
def State.offer (s : State) (k a b w : Nat) : State :=
  let fa := a / 4
  let fb := b / 4
  let (r, s1) := s.draw
  let lane := fun (wl : Nat) => (laneAt wl w).getD 0
  let c : Circuit := { Circuit.reset with leafA := lane (s.rxWl fa), spineA := lane (s.txWl fa), leafB := lane (s.rxWl fb), spineB := lane (s.txWl fb) }
  let t := (s1.setCircuit k c).wrs [(OC_FORD_CIRCUIT_STATE, k, 1), (OC_FORD_CIRCUIT_WAVELENGTH, k, w), (OC_FORD_CIRCUIT_PORT_A, k, a),
    (OC_FORD_CIRCUIT_PORT_B, k, b), (OC_FORD_CIRCUIT_ID, k, r % 2 ^ 32)]
  let u := (((t.abandonCal fa).abandonCal fb).fordW fa w).fordW fb w
  (u.fordMsg k 0 0x11 (s.leafOf b).1 (s.leafOf b).2).fordMsg k 1 0x11 (s.leafOf a).1 (s.leafOf a).2

/-- R542, R544, R545: a candidate is served, where a circuit, its ports and a wavelength are to be had. -/
def State.serveFord (s : State) (key : Nat) : State :=
  let a := key / 1024
  let b := key % 1024
  let e := a / 64
  let slot := ((List.range 8).map (fun c => 8 * e + c)).find? (fun k => s.circuitState k == 0)
  if s.fordPairOk a b && (s.circuitOf a).isNone && (s.circuitOf b).isNone && (s.moveOf (a / 4)).isNone && (s.moveOf (b / 4)).isNone &&
      !s.engineHolds (a / 4) then
    match slot, s.fordWave (a / 4) (b / 4) with
    | some k, some w => s.offer k a b w
    | _, _ => s
  else s

/-- Pairs put in order of falling demand; of equal ones the lower key first. -/
def byDemand : List (Nat × Nat) → List (Nat × Nat)
  | [] => []
  | x :: r => let l := byDemand r
    l.takeWhile (fun y => decide (x.2 < y.2)) ++ x :: l.dropWhile (fun y => decide (x.2 < y.2))

/-- R543: a WINDOW of an engine ends. -/
def fordWindow (e : Nat) (s : State) : State :=
  let keys := (s.oc.pairs.map (fun x => x.1)).filter (fun k => k / 1024 / 64 == e)
  let demands := keys.map (fun k => (k, (s.pair k).demand))
  let a := (List.range 8).foldl (fun t c => t.circuitWindow (8 * e + c)) s
  let b := keys.foldl (fun t k => t.pairWindow k) a
  let due := (byDemand demands).filter (fun x => decide (b.rd OC_FORD_CFG_ON_COUNT 0 ≤ (b.pair x.1).high ∧ (b.pair x.1).heldOff = 0))
  due.foldl (fun t x => t.serveFord x.1) b

/-- FORD_WINDOW (R543). -/
def execFordWindow (engine : Fin 16) (s : State) : Res := whenLive (fordWindow engine.val) s

/-! ### Answers (R545, R547) -/

/-- The circuit that a Ford message on a port speaks of, and its side. -/
def State.circuitNamed (s : State) (n : Nat) (p : List Byte) : Option (Nat × Nat) :=
  (s.circuitOf n).filter (fun x => s.rd OC_FORD_CIRCUIT_ID x.1 == be p 4 4)

/-- Step 3 of R545 on one side: the device's FORD_ADD marker. -/
def State.fordAdd (s : State) (k side : Nat) : State :=
  let n := s.circuitPort k side
  let c := s.circuit k
  let m := markerFrame n 3 (c.lanes side).2 (s.rd OC_FORD_CIRCUIT_ID k)
  (s.setCircuit k (if side = 0 then { c with markA := some m } else { c with markB := some m })).sendOwn n m

/-- Steps 2 and 3 of R545: a leaf accepts; with both the markers go out. -/
def fordAccept (n : Nat) (p : List Byte) (s : State) : State :=
  match s.circuitNamed n p with
  | some (k, side) =>
    if s.circuitState k = 1 then
      let acc := (s.circuit k).accepted ||| (side + 1)
      let t := s.setCircuit k { s.circuit k with accepted := acc }
      if acc = 3 then ((t.wr OC_FORD_CIRCUIT_STATE k 2).fordAdd k 0).fordAdd k 1 else t
    else s
  | none => s

/-- FORD_ACCEPT (R545). -/
def execFordAccept (port : Fin 1024) (tag : Option (BitVec 48)) (payload : List Byte) (s : State) : Res :=
  whenLive (onLink port.val tag (payload.length + 18) (fun t => if ocGood 0x12 payload then fordAccept port.val payload t else t)) s

/-- Step 2 of R545: an offer fails: the leaves on the given sides are told, and the pair is held off. -/
def State.offerFails (s : State) (k : Nat) (sides : List Nat) : State :=
  let a := s.circuitPort k 0
  let b := s.circuitPort k 1
  let key := pairKey a b
  let t := ((s.withdrawOffer k sides).setErr OC_ERR_FORD_DECLINED 0).raise { code := 0x0909, kind := 2, logical := min a b, detail0 := max a b }
  t.setPair key { t.pair key with high := 0, heldOff := t.rd OC_FORD_CFG_OFF_COUNT 0 }

/-- Step 2 of R545: a leaf declines. -/
def fordDecline (n : Nat) (p : List Byte) (s : State) : State :=
  match s.circuitNamed n p with
  | some (k, side) => if s.circuitState k = 1 then s.offerFails k [1 - side] else s
  | none => s

/-- FORD_DECLINE (R545). -/
def execFordDecline (port : Fin 1024) (tag : Option (BitVec 48)) (payload : List Byte) (s : State) : Res :=
  whenLive (onLink port.val tag (payload.length + 18) (fun t => if ocGood 0x13 payload then fordDecline port.val payload t else t)) s

/-- FORD_ANSWER_TIMEOUT (R545): a leaf that has not answered counts as declining; the other leaf is told. -/
def execFordAnswerTimeout (engine : Fin 16) (circuit : Fin 8) (s : State) : Res :=
  whenLive (fun t =>
    let k := 8 * engine.val + circuit.val
    if t.circuitState k = 1 then
      t.offerFails k ([0, 1].filter (fun side => !(t.circuit k).accepted.testBit (1 - side)))
    else t) s

/-- Step 2 of R547: a leaf has released the circuit. -/
def fordReleased (n : Nat) (p : List Byte) (s : State) : State :=
  match s.circuitNamed n p with
  | some (k, side) => if s.circuitState k = 4 && (s.circuit k).restored.isNone then s.releaseSide k side else s
  | none => s

/-- FORD_RELEASED (R547). -/
def execFordReleased (port : Fin 1024) (tag : Option (BitVec 48)) (payload : List Byte) (s : State) : Res :=
  whenLive (onLink port.val tag (payload.length + 18) (fun t => if ocGood 0x16 payload then fordReleased port.val payload t else t)) s

/-- FORD_RELEASE_TIMEOUT (R547): removal goes on after 1 ms. -/
def execFordReleaseTimeout (engine : Fin 16) (circuit : Fin 8) (s : State) : Res :=
  whenLive (fun t =>
    let k := 8 * engine.val + circuit.val
    if t.circuitState k = 4 && (t.circuit k).restored.isNone then t.endCircuit k else t) s

/-- R552: a write of OC_FORD_CMD. -/
def fordCmd (v : Word) (s : State) : State :=
  if OC_FORD_CMD_REMOVE.isSet v then
    match s.circuitOf (OC_FORD_CMD_PORT.of v) with
    | some (k, _) => s.removeCircuit k
    | none => s
  else s

/-- FORD_REMOVE_CMD (R547, R552). -/
def execFordRemoveCmd (value : Word) (s : State) : Res := whenBar (fordCmd value) s

/-- R550, R551: a write of OC_FORD_CFG. -/
def fordCfgWrite (v : Word) (s : State) : State :=
  let on := OC_FORD_CFG_ON_RATE.of v
  if OC_FORD_CFG_ON_COUNT.of v = 0 ∨ OC_FORD_CFG_OFF_COUNT.of v = 0 ∨ OC_FORD_CFG_WINDOW.of v = 0 ∨ on = 0 ∨ 1600 < on ∨ on ≤ OC_FORD_CFG_OFF_RATE.of v then
    s.ocRefuse
  else s.plainWrite OC_FORD_CFG 0 v

end Sys2Proof.Machine
end

