-- ==== Sys2Proof/Machine/Tables.lean ====
section
/-! DEFINITION. The endpoint tables (R221 to R242, R250, R251): insertion, deletion, learning, aging, image
loads and the shadow compare of an endpoint table. -/

namespace Sys2Proof.Machine

/-! ### Slots -/

/-- The key of slot `i` of way `w` of pipeline `p`. -/
def slotKey (p w i : Nat) : Nat := 0x400000 * p + 0x100000 * w + i

/-- The image in a slot; the empty list where the slot is empty. -/
def State.slot (s : State) (p w i : Nat) : List Byte := sget [] s.ft.endpoints (slotKey p w i)

/-- The state with a slot's image replaced; an all-zero image is an empty slot. -/
def State.setSlot (s : State) (p w i : Nat) (img : List Byte) : State :=
  { s with ft := { s.ft with endpoints := sset [] (slotKey p w i) (if allZero img then [] else img) s.ft.endpoints } }

/-- R221: the seed of way `w` of pipeline `p`. -/
def State.hashSeed (s : State) (p w : Nat) : Nat :=
  match w with
  | 0 => s.rd FT_HASH_SEED_LO_WAY0 p
  | 1 => s.rd FT_HASH_SEED_LO_WAY1 p
  | 2 => s.rd FT_HASH_SEED_HI_WAY2 p
  | _ => s.rd FT_HASH_SEED_HI_WAY3 p

/-- R221: H_w of a key. -/
def State.hashSlot (s : State) (p w : Nat) (key : List Byte) : Nat := crc32c (s.hashSeed p w) key % 0x100000

/-- KIND of an image. -/
def imgKind (img : List Byte) : Nat := le img 0 1
/-- The key of an image. -/
def imgKey (img : List Byte) : List Byte := img.take 32
/-- FLAGS of an image. -/
def imgFlags (img : List Byte) : Nat := le img 32 1
/-- ORIGIN: the entry was learned. -/
def imgLearned (img : List Byte) : Bool := (imgFlags img).testBit 7
/-- ACTION of an image. -/
def imgAction (img : List Byte) : Nat := le img 33 1
/-- TARGET of an image. -/
def imgTarget (img : List Byte) : Nat := le img 34 2
/-- VID of an L2 image. -/
def imgVid (img : List Byte) : Nat := le img 2 2
/-- MAC of an L2 image. -/
def imgMac (img : List Byte) : Nat := be img 16 6
/-- DMAC of an image. -/
def imgDmac (img : List Byte) : Nat := be img 36 6
/-- CLASS of an image where OVERRIDE is set. -/
def imgClass (img : List Byte) : Option Nat := if (le img 42 1).testBit 7 then some (le img 42 1 % 8) else none
/-- An image with its FLAGS replaced. -/
def imgWithFlags (img : List Byte) (f : Nat) : List Byte := overlay img 32 (natLe 1 f)

/-- R222: the key of an L2 entry. -/
def l2Key (vid mac : Nat) : List Byte := fitTo 32 (natLe 1 1 ++ zeros 1 ++ natLe 2 vid ++ zeros 12 ++ natBe 6 mac)

/-- R222: the key of a host entry for an IP destination. -/
def hostKey (i : IpHdr) : List Byte :=
  if i.version = 4 then fitTo 32 (natLe 1 2 ++ zeros 15 ++ i.dst.take 4) else fitTo 32 (natLe 1 3 ++ zeros 15 ++ i.dst)

/-- R226: the candidate slots of a key, in way order. -/
def State.candidates (s : State) (p : Nat) (key : List Byte) : List (Nat × Nat) :=
  (List.range 4).map (fun w => (w, s.hashSlot p w key))

/-- R224: the slot that holds a key. -/
def State.findKey (s : State) (p : Nat) (key : List Byte) : Option (Nat × Nat) :=
  (s.candidates p key).find? (fun c => imgKey (s.slot p c.1 c.2) == key)

/-- R231, R233: endpoint lookups of a pipeline run: no image is being loaded, cleared or checked. -/
def State.tableOpen (s : State) (p : Nat) : Bool := !s.flag FT_PIPE_CTL_IMAGE_LOAD p && !s.flag FT_PIPE_STATUS_IMAGE_BUSY p

/-- The entries of a pipeline's table, with their ways and slots. -/
def State.entries (s : State) (p : Nat) : List (Nat × Nat × List Byte) :=
  (s.ft.endpoints.filter (fun kv => kv.1 / 0x400000 == p)).map (fun kv => (kv.1 / 0x100000 % 4, kv.1 % 0x100000, kv.2))

/-- FT_PIPE_COUNT follows the entries held. -/
def State.recount (s : State) (p : Nat) : State :=
  let es := s.entries p
  (s.wr FT_PIPE_COUNT_LEARNED p (es.countP (fun e => imgLearned e.2.2))).wr FT_PIPE_COUNT_STATIC p (es.countP (fun e => !imgLearned e.2.2))

/-! ### Image checks (R222, R223) -/

/-- The first byte of an offset range that is not zero. -/
def firstNonZero (img : List Byte) (lo hi : Nat) : Option Nat :=
  ((List.range (hi - lo)).map (fun k => lo + k)).find? (fun o => le img o 1 != 0)

/-- R222: the first bad byte of an entry's key. -/
def keyFault (img : List Byte) : Option Nat :=
  let k := imgKind img
  if k = 0 ∨ 3 < k then some 0
  else
    let used := if k = 1 then 22 else if k = 2 then 20 else 32
    (((firstNonZero img 1 2).or (if k = 1 then (if 4096 ≤ imgVid img then some 3 else none) else firstNonZero img 2 4)).or
      (firstNonZero img 4 16)).or (firstNonZero img used 32)

/-- R222, R244: the first bad byte of a result, bytes 33 to 63; `host` entries carry a DMAC. DEDUCED (log 23):
a field out of its range is bad at its first byte. -/
def resultFault (img : List Byte) (host : Bool) : Option Nat :=
  let a := imgAction img
  let t := imgTarget img
  if 2 < a then some 33
  else if (a = 0 ∧ t ≠ 0) ∨ (a = 1 ∧ 1024 ≤ t) ∨ (a = 2 ∧ 4096 ≤ t) then some 34
  else if host = true ∧ a ≠ 0 ∧ imgDmac img = 0 then some 36
  else
    ((if host = true ∧ a ≠ 0 then none else firstNonZero img 36 42).or
      (if bitsOf (le img 42 1) 6 3 ≠ 0 then some 42 else none)).or (firstNonZero img 43 64)

/-- R223: the first bad byte of an image that software gives. -/
def imageFault (img : List Byte) : Option Nat :=
  let l2 := imgKind img = 1
  let f := imgFlags img
  ((keyFault img).or (if bitsOf f 5 0 ≠ 0 ∨ f.testBit 7 ∨ (f.testBit 6 = true ∧ ¬l2) then some 32 else none)).or
    (resultFault img (!decide l2))

/-- R223: the first bad byte of a key image. -/
def keyImageFault (img : List Byte) : Option Nat := (keyFault img).or (firstNonZero img 32 64)

/-! ### Learn records (R237, R238) -/

/-- A learn record is written to the host buffer, or discarded and LOST set (R52, R238); while the buffer is
disabled none is made. DESIGN CHOICE (log 24): one that falls due while the host port does not answer is lost. -/
def State.learnRecord (s : State) (kind p port vid mac : Nat) : State :=
  if !s.flag FT_LEARN_CFG_ENABLE 0 then s
  else
    let size := 2 ^ s.rd FT_LEARN_CFG_LOG2 0
    let prod := s.rd FT_LEARN_PROD_COUNT 0
    if s.hi.d3hot || !s.hi.answering || decide (size ≤ wrapSub 32 prod (s.rd FT_LEARN_CONS_COUNT 0)) then s.setErr FT_LEARN_STATUS_LOST 0
    else
      let rec_ := natLe 1 kind ++ natLe 1 p ++ natLe 2 port ++ natLe 2 vid ++ natBe 6 mac ++ natLe 4 (s.now / 1000000)
      (s.toHost (.hostWrite (s.rd FT_LEARN_BASE_ADDR 0 + 16 * (prod % size)) rec_ true)).addWrap FT_LEARN_PROD_COUNT 0 1

/-- A learn record about an entry; host entries have no VID and MAC of their own. -/
def State.entryRecord (s : State) (kind p port : Nat) (img : List Byte) : State :=
  s.learnRecord kind p port (imgVid img) (imgMac img)

/-! ### Insertion and deletion (R225 to R229) -/

/-- What an insertion into one pipeline came to. -/
inductive Inserted where
  | held
  | noRoom
  | exists_
  deriving DecidableEq, Repr

/-- R226: the paths that lead one displacement further. -/
def State.growPaths (s : State) (p : Nat) (paths : List (List (Nat × Nat))) : List (List (Nat × Nat)) :=
  paths.flatMap (fun path =>
    match path.getLast? with
    | none => []
    | some c =>
      let key := imgKey (s.slot p c.1 c.2)
      ((List.range 4).filter (fun w => w != c.1)).map (fun w => path ++ [(w, s.hashSlot p w key)]))

/-- A path that ends in an empty slot. -/
def State.endsEmpty (s : State) (p : Nat) (path : List (Nat × Nat)) : Bool :=
  match path.getLast? with
  | some c => (s.slot p c.1 c.2).isEmpty
  | none => false

/-- R226: the breadth-first search, at most three displacements deep. -/
def State.cuckooPath (s : State) (p : Nat) (key : List Byte) : Option (List (Nat × Nat)) :=
  let p0 := (s.candidates p key).map (fun c => [c])
  let p1 := s.growPaths p p0
  let p2 := s.growPaths p p1
  let p3 := s.growPaths p p2
  ((p1.find? (s.endsEmpty p)).or (p2.find? (s.endsEmpty p))).or (p3.find? (s.endsEmpty p))

/-- R226: the occupants of a path move one place on, from its end back, each copied before its old slot clears. -/
def State.shiftPath (s : State) (p : Nat) : List (Nat × Nat) → State
  | a :: b :: r =>
    let t := s.shiftPath p (b :: r)
    (t.setSlot p b.1 b.2 (t.slot p a.1 a.2)).setSlot p a.1 a.2 []
  | _ => s

/-- R226: one pipeline inserts an entry; `software` insertions may replace and evict. -/
def State.insertEntry (s : State) (p : Nat) (img : List Byte) (replace software : Bool) : Inserted × State :=
  let key := imgKey img
  match s.findKey p key with
  | some c =>
    if replace || imgLearned (s.slot p c.1 c.2) then (.held, s.setSlot p c.1 c.2 img) else (.exists_, s)
  | none =>
    match (s.candidates p key).find? (fun c => (s.slot p c.1 c.2).isEmpty) with
    | some c => (.held, s.setSlot p c.1 c.2 img)
    | none =>
      match s.cuckooPath p key with
      | some path =>
        let c := path.headD (0, 0)
        (.held, (s.shiftPath p path).setSlot p c.1 c.2 img)
      | none =>
        match (if software then (s.candidates p key).find? (fun c => imgLearned (s.slot p c.1 c.2)) else none) with
        | some c =>
          let old := s.slot p c.1 c.2
          (.held, (((s.setSlot p c.1 c.2 img).setErr FT_PIPE_STATUS_EVICTED p).entryRecord 5 p (imgTarget old) old))
        | none => (.noRoom, (s.setErr FT_PIPE_STATUS_REHASH_REQUEST p).raise { code := 0x0302, kind := 3, logical := p, die := p / 2 })

/-- R253: a software insertion or deletion made `t` of the state: it is counted where it changed the endpoint table of pipeline `p`. -/
def State.countChange (s t : State) (p : Nat) : State := if t.ft.endpoints = s.ft.endpoints then t else t.noteChange p

/-- R225: FT_INSERT on the pipelines of a mask, with its RESULT. -/
def State.insertAll (s : State) (img : List Byte) (replace : Bool) (mask : Nat) : Nat × State :=
  (setBits 8 mask).foldl (fun (acc : Nat × State) p =>
    if acc.2.flag FT_PIPE_CTL_IMAGE_LOAD p then (acc.1 + 2 ^ (24 + p), acc.2)
    else
      match acc.2.insertEntry p img replace true with
      | (.held, t) => (acc.1 + 2 ^ p, (acc.2.countChange t p).recount p)
      | (.noRoom, t) => (acc.1 + 2 ^ (8 + p), t)
      | (.exists_, t) => (acc.1 + 2 ^ (16 + p), t)) (0, s)

/-- R225: FT_DELETE on the pipelines of a mask, with its RESULT. -/
def State.deleteAll (s : State) (key : List Byte) (mask : Nat) : Nat × State :=
  (setBits 8 mask).foldl (fun (acc : Nat × State) p =>
    if acc.2.flag FT_PIPE_CTL_IMAGE_LOAD p then (acc.1 + 2 ^ (24 + p), acc.2)
    else
      match acc.2.findKey p key with
      | some c =>
        let t := acc.2.setSlot p c.1 c.2 []
        (acc.1 + 2 ^ p, (if imgLearned (acc.2.slot p c.1 c.2) then t else t.noteChange p).recount p)
      | none => (acc.1 + 2 ^ (8 + p), acc.2)) (0, s)

/-- R223, R94: what an image that FT_INSERT brings adds to the checks: its first bad byte, and the port it names. -/
def insertTest (data : HostData) (d : Desc) : ImageTest :=
  match hostBytes d data with
  | none => ImageTest.clean
  | some img => ⟨imageFault img, if imgAction img = 1 then [imgTarget img] else []⟩

/-- FT_INSERT (R223, R225, R226). -/
def execFtInsert (ring : Fin 4096) (data : HostData) (s : State) : Res :=
  runImageOpcode ring.val 0x20 (insertTest data) (fun d t =>
    match hostBytes d data with
    | none => t.complete d .hostAccessError 0 0
    | some img =>
      let (r, u) := t.insertAll img (d.u8 25 == 1) (d.u8 24)
      let st := if bitsOf r 15 8 ≠ 0 then Status.tableFull else if bitsOf r 31 24 ≠ 0 then .busy
        else if bitsOf r 23 16 ≠ 0 then .exists_ else .success
      u.complete d st r 0) s

/-- R223: what a key image that FT_DELETE brings adds to the checks. -/
def deleteTest (data : HostData) (d : Desc) : ImageTest :=
  match hostBytes d data with
  | none => ImageTest.clean
  | some img => ⟨keyImageFault img, []⟩

/-- FT_DELETE (R223, R225, R228). -/
def execFtDelete (ring : Fin 4096) (data : HostData) (s : State) : Res :=
  runImageOpcode ring.val 0x21 (deleteTest data) (fun d t =>
    match hostBytes d data with
    | none => t.complete d .hostAccessError 0 0
    | some img =>
      let (r, u) := t.deleteAll (imgKey img) (d.u8 24)
      let st := if bitsOf r 31 24 ≠ 0 then Status.busy else if bitsOf r 7 0 = 0 then .notFound else .success
      u.complete d st r 0) s

/-! ### Learning (R234 to R239) -/

/-- R234: the LEARNED image of an address on a port: AGE and HIT set. -/
def learnedImage (vid mac port : Nat) : List Byte :=
  fitTo 64 (l2Key vid mac ++ natLe 1 0xE0 ++ natLe 1 1 ++ natLe 2 port)

/-- R235: a CONFLICT record, at most 1,000 in a second of domain 0 for a pipeline. -/
def State.conflict (s : State) (p port vid mac : Nat) : State :=
  let sec := s.tb.dom0.sec
  let (at_, n) := sget (0, 0) s.ft.conflicts p
  let used := if at_ = sec then n else 0
  if 1000 ≤ used then s
  else State.learnRecord { s with ft := { s.ft with conflicts := sset (0, 0) p (sec, used + 1) s.ft.conflicts } } 4 p port vid mac

/-- R234 to R236: the table engine takes one queued learn; while an image is checked it waits. -/
def learnOne (p : Nat) (s : State) : State :=
  match sget [] s.ft.learns p with
  | [] => s
  | (vid, mac, port) :: rest =>
    let t : State := { s with ft := { s.ft with learns := sset [] p rest s.ft.learns } }
    if t.flag FT_PIPE_CTL_IMAGE_LOAD p || !t.flag FT_PIPE_CTL_LEARN p then t
    else if t.flag FT_PIPE_STATUS_IMAGE_BUSY p then s
    else
      match t.findKey p (l2Key vid mac) with
      | some c =>
        let img := t.slot p c.1 c.2
        if imgAction img = 1 ∧ imgTarget img = port then t
        else if imgLearned img then
          (t.setSlot p c.1 c.2 (overlay img 34 (natLe 2 port))).learnRecord 2 p port vid mac
        else if imgAction img = 1 then t.conflict p port vid mac
        else t
      | none =>
        match t.insertEntry p (learnedImage vid mac port) false false with
        | (.held, u) => (u.recount p).learnRecord 1 p port vid mac
        | (_, u) => u.setErr FT_PIPE_STATUS_LEARN_DROPPED p

/-- LEARN (R234, R235, R236). -/
def execLearn (pipeline : Fin 8) (s : State) : Res := whenLive (learnOne pipeline.val) s

/-- R239: the record buffer lies inside one HOST_REGION of LEVEL 0 or 1 for every partition. -/
def State.learnBufferOk (s : State) : Bool :=
  let a := s.rd FT_LEARN_BASE_ADDR 0
  let len := 16 * 2 ^ s.rd FT_LEARN_CFG_LOG2 0
  (s.assigned 4).any (fun e => decide (e.level ≤ 1) && e.partition == 0xFFFF && decide (e.base ≤ a ∧ a + len ≤ e.limit + 1))

/-- R239: a write of FT_LEARN_CFG. -/
def learnCfg (v : Word) (s : State) : State :=
  let was := s.flag FT_LEARN_CFG_ENABLE 0
  let t := s.plainWrite FT_LEARN_CFG 0 v
  if FT_LEARN_CFG_ENABLE.isSet v && !was then
    if t.rd FT_LEARN_BASE_ADDR 0 % 4096 = 0 ∧ 8 ≤ FT_LEARN_CFG_LOG2.of v ∧ FT_LEARN_CFG_LOG2.of v ≤ 20 ∧ t.learnBufferOk = true then
      (t.wr FT_LEARN_PROD_COUNT 0 0).wr FT_LEARN_CONS_COUNT 0 0
    else (t.wr FT_LEARN_CFG_ENABLE 0 0).setErr FT_LEARN_STATUS_CFG_ERR 0
  else t

/-- LEARN_ENABLE (R239). -/
def execLearnEnable (value : Word) (s : State) : Res := whenReg (FT_LEARN_CFG.offset 0) value (learnCfg value) s

/-- R239: the buffer is checked again at a generation boundary. -/
def State.recheckLearn (s : State) : State :=
  if s.flag FT_LEARN_CFG_ENABLE 0 && !s.learnBufferOk then (s.wr FT_LEARN_CFG_ENABLE 0 0).setErr FT_LEARN_STATUS_CFG_ERR 0 else s

/-- R238: a write of FT_LEARN_CONS. -/
def learnCons (v : Word) (s : State) : State :=
  let c := FT_LEARN_CONS_COUNT.of v
  if wrapSub 32 (s.rd FT_LEARN_PROD_COUNT 0) c ≤ 2 ^ s.rd FT_LEARN_CFG_LOG2 0 then s.plainWrite FT_LEARN_CONS 0 v
  else s.refuseWrite (FT_LEARN_CONS.offset 0) v.toNat

/-! ### Hits and aging (R240 to R242) -/

/-- R240: HIT is set on the entry with a key, where the pipeline holds one. -/
def State.touch (s : State) (p : Nat) (key : List Byte) : State :=
  if !s.tableOpen p then s
  else match s.findKey p key with
    | some c =>
      let img := s.slot p c.1 c.2
      s.setSlot p c.1 c.2 (imgWithFlags img (imgFlags img ||| 0x20))
    | none => s

/-- R241: the sweeper's visit to a slot. -/
def ageVisit (p w i : Nat) (s : State) : State :=
  let img := s.slot p w i
  let f := imgFlags img
  if !s.flag FT_AGE_CFG_ENABLE 0 || !s.tableOpen p || img.isEmpty || !f.testBit 6 then s
  else if f.testBit 5 then s.setSlot p w i (imgWithFlags img (f &&& 0xCF))
  else if !f.testBit 4 then s.setSlot p w i (imgWithFlags img (f ||| 0x10))
  else ((s.setSlot p w i []).recount p).entryRecord 3 p (imgTarget img) img

/-- AGE_SWEEP_VISIT (R241). -/
def execAgeSweepVisit (pipeline : Fin 8) (way : Fin 4) (slot : Fin 1048576) (s : State) : Res :=
  whenLive (ageVisit pipeline.val way.val slot.val) s

/-- R242: a write of FT_AGE_CFG outside the range of PERIOD_MS is discarded. -/
def ageCfg (v : Word) (s : State) : State :=
  let ms := FT_AGE_CFG_PERIOD_MS.of v
  if 100 ≤ ms ∧ ms ≤ 3600000 then s.plainWrite FT_AGE_CFG 0 v else s

/-! ### Image loads (R231 to R233) -/

/-- Every slot of a pipeline is cleared. -/
def State.clearTable (s : State) (p : Nat) : State :=
  State.recount { s with ft := { s.ft with endpoints := sclear (fun k => k / 0x400000 == p) s.ft.endpoints } } p

/-- R231, R233, R257: a write of FT_PIPE_CTL. -/
def pipeCtl (p : Nat) (v : Word) (s : State) : State :=
  if FT_PIPE_CTL_SPRAY_MODE.of v = 3 then s
  else
    let was := s.flag FT_PIPE_CTL_IMAGE_LOAD p
    let t := s.plainWrite FT_PIPE_CTL p v
    let now := FT_PIPE_CTL_IMAGE_LOAD.isSet v
    if now && !was then (t.clearTable p).wr FT_PIPE_STATUS_IMAGE_BUSY p 1
    else if was && !now then t.wr FT_PIPE_STATUS_IMAGE_BUSY p 1
    else t

/-- TABLE_IMAGE_LOAD_START (R231). -/
def execTableImageLoadStart (pipeline : Fin 8) (value : Word) (s : State) : Res := whenReg (FT_PIPE_CTL.offset pipeline.val) value (pipeCtl pipeline.val value) s

/-- TABLE_IMAGE_CHECK (R233). -/
def execTableImageCheck (pipeline : Fin 8) (value : Word) (s : State) : Res := whenReg (FT_PIPE_CTL.offset pipeline.val) value (pipeCtl pipeline.val value) s

/-- R233: the slots of one way that pass the check, given the keys that lower ways hold. -/
def State.keptSlots (s : State) (p w : Nat) (held : List (List Byte)) : List (Nat × List Byte) :=
  ((s.entries p).filter (fun e => e.1 == w && (imageFault e.2.2).isNone && s.hashSlot p w (imgKey e.2.2) == e.2.1 &&
    !held.contains (imgKey e.2.2))).map (fun e => (slotKey p w e.2.1, e.2.2))

/-- R233: the slots that the check leaves, way by way. -/
def State.checkedSlots (s : State) (p : Nat) : List (Nat × List Byte) :=
  (List.range 4).foldl (fun acc w => acc ++ s.keptSlots p w (acc.map (fun kv => imgKey kv.2))) []

/-- R231, R233: the clearing or the check of a pipeline's table ends. -/
def imageDone (p : Nat) (s : State) : State :=
  if !s.flag FT_PIPE_STATUS_IMAGE_BUSY p then s
  else if s.flag FT_PIPE_CTL_IMAGE_LOAD p then s.wr FT_PIPE_STATUS_IMAGE_BUSY p 0
  else
    let kept := s.checkedSlots p
    let drop := fun k => k / 0x400000 == p && !(kept.map (fun kv => kv.1)).contains k
    let t : State := { s with ft := { s.ft with endpoints := sclear drop s.ft.endpoints } }
    let u := (t.recount p).wr FT_PIPE_STATUS_IMAGE_BUSY p 0
    if kept.length < (s.entries p).length then
      (u.setErr FT_PIPE_STATUS_IMAGE_MISPLACED p).raise { code := 0x0303, kind := 3, logical := p, die := p / 2 }
    else u

/-- TABLE_IMAGE_DONE (R231, R233). -/
def execTableImageDone (pipeline : Fin 8) (s : State) : Res := whenLive (imageDone pipeline.val) s

/-- R232: writes to the image of a pipeline are taken. -/
def State.imageOpen (s : State) (p : Nat) : Bool := s.flag FT_PIPE_CTL_IMAGE_LOAD p && !s.flag FT_PIPE_STATUS_IMAGE_BUSY p

/-- R232: the 64 bytes of granule `g` of a pipeline's image. -/
def State.imageGranule (s : State) (p g : Nat) : List Byte := fitTo 64 (s.slot p (g / 0x100000) (g % 0x100000))

/-- R231: a write of a seed register is discarded, with an event, unless IMAGE_LOAD is 1. -/
def seedWrite (r : Reg) (p : Nat) (v : Word) (s : State) : State :=
  if s.flag FT_PIPE_CTL_IMAGE_LOAD p then s.plainWrite r p v else s.refuseWrite (r.offset p) v.toNat

/-! ### Shadow compare (R250, R251) -/

/-- R251: the digest of block `b` of an endpoint table. -/
def State.tableDigest (s : State) (p b : Nat) : List Byte :=
  let es := (s.entries p).filter (fun e => !imgLearned e.2.2 && s.hashSlot p 0 (imgKey e.2.2) / 1024 == b)
  natBe 32 ((es.map (fun e => beNat (sm3 (imgWithFlags e.2.2 (imgFlags e.2.2 &&& 0xCF))))).sum)

end Sys2Proof.Machine
end

