-- ==== Sys2Proof/Machine/Lpm.lean ====
section
/-! DEFINITION. The LPM TCAM (R243 to R249, R252): its areas, insertion, deletion, image loads, lookups, and the
shadow compare of either table (R250 to R253). The four copies are always equal between commands, so one store
stands for them. -/

namespace Sys2Proof.Machine

/-- R244: FAMILY of an entry image. -/
def lpmFamily (img : List Byte) : Nat := le img 0 1
/-- R244: LENGTH of an entry image. -/
def lpmLength (img : List Byte) : Nat := le img 1 1
/-- R244: the first 32 bytes, which name a prefix. -/
def lpmKey (img : List Byte) : List Byte := img.take 32

/-- R243: units of an entry of a family. -/
def lpmWidth (family : Nat) : Nat := if family = 4 then 1 else 4

/-- R243: the first unit of a family's area. -/
def State.lpmStart (s : State) (family : Nat) : Nat := if family = 4 then 0 else s.rd FT_LPM_CFG_V4_UNITS 0

/-- R243: the units of a family's area. -/
def State.lpmUnits (s : State) (family : Nat) : Nat :=
  if family = 4 then s.rd FT_LPM_CFG_V4_UNITS 0 else 524288 - s.rd FT_LPM_CFG_V4_UNITS 0

/-- A unit lies in a family's area. -/
def State.inArea (s : State) (family u : Nat) : Bool := decide (u < s.rd FT_LPM_CFG_V4_UNITS 0) == (family == 4)

/-- R245: the entries of a family in their order. -/
def State.lpmEntries (s : State) (family : Nat) : List (List Byte) :=
  (s.ft.lpm.filter (fun kv => s.inArea family kv.1)).map (fun kv => kv.2)

/-- The units of a list of entries of a family, from the start of its area. -/
def State.layUnits (s : State) (family : Nat) (es : List (List Byte)) : List (Nat × List Byte) :=
  es.mapIdx (fun i e => (s.lpmStart family + lpmWidth family * i, e))

/-- V4_USED and V6_USED follow the entries. -/
def State.countUnits (s : State) : State :=
  (s.wr FT_LPM_STATUS_V4_USED 0 (s.lpmEntries 4).length).wr FT_LPM_STATUS_V6_USED 0 (4 * (s.lpmEntries 6).length)

/-- The state with a family's entries replaced. -/
def State.setEntries (s : State) (family : Nat) (es : List (List Byte)) : State :=
  let others := s.ft.lpm.filter (fun kv => !s.inArea family kv.1)
  let own := s.layUnits family es
  let units := if family = 4 then own ++ others else others ++ own
  State.countUnits { s with ft := { s.ft with lpm := units } }

/-- The leading `n` bits of an address agree. -/
def prefixMatch (n : Nat) (a b : List Byte) : Bool := beNat a / 2 ^ (128 - n) == beNat b / 2 ^ (128 - n)

/-- R244: the first bad byte of an LPM image's key. -/
def lpmKeyFault (img : List Byte) : Option Nat :=
  let f := lpmFamily img
  if f ≠ 4 ∧ f ≠ 6 then some 0
  else if (if f = 4 then 32 else 128) < lpmLength img then some 1
  else
    (firstNonZero img 2 16).or
      (((List.range 16).find? (fun k =>
        let keep := min 8 (lpmLength img - 8 * k)
        le img (16 + k) 1 % 2 ^ (8 - keep) != 0)).map (fun k => 16 + k))

/-- R244: the first bad byte of an LPM image. -/
def lpmFault (img : List Byte) : Option Nat := ((lpmKeyFault img).or (firstNonZero img 32 33)).or (resultFault img true)

/-! ### Insertion and deletion (R246) -/

/-- R246: the hole moves up through the regions shorter than the new entry, from the shortest. -/
def openHole (len : Nat) (es : List (List Byte)) : Nat × List (List Byte) :=
  ((List.range len).foldl (fun (acc : Nat × List (List Byte)) l =>
    match findPlace (fun e => lpmLength e == l) acc.2 with
    | some i => (i, acc.2.set acc.1 (acc.2.getD i []))
    | none => acc) (es.length, es ++ [[]]))

/-- R246: the last place of the entries of one length. -/
def lastOf (l : Nat) (es : List (List Byte)) : Option Nat :=
  ((List.range es.length).filter (fun i => lpmLength (es.getD i []) == l)).getLast?

/-- R246: the hole moves down through the entry's region and the shorter ones, from the longest. -/
def closeHole (len hole : Nat) (es : List (List Byte)) : Nat × List (List Byte) :=
  ((List.range (len + 1)).reverse.foldl (fun (acc : Nat × List (List Byte)) l =>
    match lastOf l acc.2 with
    | some i => if acc.1 < i then (i, (acc.2.set acc.1 (acc.2.getD i [])).set i []) else acc
    | none => acc) (hole, es.set hole []))

/-- R246: insertion: the new RESULT and state, or none where there is no room. -/
def State.lpmInsert (s : State) (img : List Byte) : Option (Nat × State) :=
  let f := lpmFamily img
  let es := s.lpmEntries f
  match findPlace (fun e => lpmKey e == lpmKey img) es with
  | some i => some (1, s.setEntries f (es.set i img))
  | none =>
    if s.lpmUnits f < lpmWidth f * (es.length + 1) then none
    else
      let (hole, es') := openHole (lpmLength img) es
      some (0, s.setEntries f (es'.set hole img))

/-- R246: deletion, or none where the entry is absent. -/
def State.lpmDelete (s : State) (img : List Byte) : Option State :=
  let f := lpmFamily img
  let es := s.lpmEntries f
  match findPlace (fun e => lpmKey e == lpmKey img) es with
  | some i => some (s.setEntries f ((closeHole (lpmLength img) i es).2.filter (fun e => !e.isEmpty)))
  | none => none

/-- R248: LPM lookups and updates run: no image is being loaded, cleared or checked. -/
def State.lpmOpen (s : State) : Bool := !s.flag FT_LPM_CFG_IMAGE_LOAD 0 && !s.flag FT_LPM_STATUS_IMAGE_BUSY 0

/-- R244: the descriptor's bytes 24 and 25 against the image. -/
def lpmNamed (d : Desc) (img : List Byte) : Option Nat :=
  if d.u8 24 ≠ lpmFamily img then some 24 else if d.u8 25 ≠ lpmLength img then some 25 else none

/-- R244, R94: what an image that LPM_INSERT brings adds to the checks: its first bad byte, and the port it names. -/
def lpmInsertTest (data : HostData) (d : Desc) : ImageTest :=
  match hostBytes d data with
  | none => ImageTest.clean
  | some img => ⟨(lpmFault img).or (lpmNamed d img), if imgAction img = 1 then [imgTarget img] else []⟩

/-- LPM_INSERT (R244, R246, R247). DEDUCED (log 25): BUSY while an image is loaded or checked. -/
def execLpmInsert (ring : Fin 4096) (data : HostData) (s : State) : Res :=
  runImageOpcode ring.val 0x22 (lpmInsertTest data) (fun d t =>
    match hostBytes d data with
    | none => t.complete d .hostAccessError 0 0
    | some img =>
      if !t.lpmOpen then t.complete d .busy 0 0
      else match t.lpmInsert img with
        | some (r, u) => (if u.ft.lpm = t.ft.lpm then u else u.noteChange 8).complete d .success r 0
        | none => t.complete d .tableFull 0 0) s

/-- R244: what a key image that LPM_DELETE brings adds to the checks. -/
def lpmDeleteTest (data : HostData) (d : Desc) : ImageTest :=
  match hostBytes d data with
  | none => ImageTest.clean
  | some img => ⟨((lpmKeyFault img).or (firstNonZero img 32 64)).or (lpmNamed d img), []⟩

/-- LPM_DELETE (R244, R246, R247). -/
def execLpmDelete (ring : Fin 4096) (data : HostData) (s : State) : Res :=
  runImageOpcode ring.val 0x23 (lpmDeleteTest data) (fun d t =>
    match hostBytes d data with
    | none => t.complete d .hostAccessError 0 0
    | some img =>
      if !t.lpmOpen then t.complete d .busy 0 0
      else match t.lpmDelete img with
        | some u => (u.noteChange 8).complete d .success 0 0
        | none => t.complete d .notFound 0 0) s

/-- R245: the longest match of a destination, while LPM lookups run. -/
def State.lpmLookup (s : State) (i : IpHdr) : Option (List Byte) :=
  if s.lpmOpen then
    (s.lpmEntries i.version).find? (fun e => prefixMatch (lpmLength e) (slice e 16 16) i.dst)
  else none

/-! ### Image loads (R248, R249) -/

/-- Every unit is cleared. -/
def State.clearLpm (s : State) : State := State.countUnits { s with ft := { s.ft with lpm := [] } }

/-- R243, R248, R249: a write of FT_LPM_CFG. -/
def lpmCfg (v : Word) (s : State) : State :=
  let was := s.flag FT_LPM_CFG_IMAGE_LOAD 0
  let now := FT_LPM_CFG_IMAGE_LOAD.isSet v
  let units := FT_LPM_CFG_V4_UNITS.of v
  if units ≠ s.rd FT_LPM_CFG_V4_UNITS 0 ∧ ¬(s.ft.lpm = [] ∧ units % 4 = 0 ∧ units ≤ 0x80000) then
    s.refuseWrite (FT_LPM_CFG.offset 0) v.toNat
  else
    let t := s.plainWrite FT_LPM_CFG 0 v
    if now && !was then t.clearLpm.wr FT_LPM_STATUS_IMAGE_BUSY 0 1
    else if was && !now then t.wr FT_LPM_STATUS_IMAGE_BUSY 0 1
    else t

/-- LPM_IMAGE_LOAD_START (R248). -/
def execLpmImageLoadStart (value : Word) (s : State) : Res := whenReg (FT_LPM_CFG.offset 0) value (lpmCfg value) s

/-- LPM_IMAGE_CHECK (R249). -/
def execLpmImageCheck (value : Word) (s : State) : Res := whenReg (FT_LPM_CFG.offset 0) value (lpmCfg value) s

/-- A list of lengths never rises. -/
def nonIncreasing : List Nat → Bool
  | a :: b :: r => decide (b ≤ a) && nonIncreasing (b :: r)
  | _ => true

/-- R249: a family's area meets R244 and R245 and holds no prefix twice. -/
def State.areaGood (s : State) (family : Nat) : Bool :=
  let own := s.ft.lpm.filter (fun kv => s.inArea family kv.1)
  let es := own.map (fun kv => kv.2)
  own.map (fun kv => kv.1) == (s.layUnits family es).map (fun kv => kv.1) &&
  es.all (fun e => lpmFamily e == family && (lpmFault e).isNone) &&
  nonIncreasing (es.map lpmLength) && decide ((es.map lpmKey).Nodup)

/-- R248, R249: the clearing of the LPM, or the check of a loaded image, ends. -/
def lpmImageDone (s : State) : State :=
  if !s.flag FT_LPM_STATUS_IMAGE_BUSY 0 then s
  else
    let t := s.wr FT_LPM_STATUS_IMAGE_BUSY 0 0
    if s.flag FT_LPM_CFG_IMAGE_LOAD 0 then t
    else if s.areaGood 4 && s.areaGood 6 then t.countUnits
    else (t.clearLpm.setErr FT_LPM_STATUS_IMAGE_BAD 0).raise { code := 0x0304 }

/-- LPM_IMAGE_DONE (R248, R249). -/
def execLpmImageDone (s : State) : Res := whenLive lpmImageDone s

/-- R248: writes to the LPM image are taken. -/
def State.lpmImageOpen (s : State) : Bool := s.flag FT_LPM_CFG_IMAGE_LOAD 0 && !s.flag FT_LPM_STATUS_IMAGE_BUSY 0

/-- R248: the 64-byte image of unit `u`. -/
def State.lpmUnit (s : State) (u : Nat) : List Byte := fitTo 64 (sget [] s.ft.lpm u)

/-- The state with a unit's image replaced; all zeros is a free or continuation unit. -/
def State.setLpmUnit (s : State) (u : Nat) (img : List Byte) : State :=
  { s with ft := { s.ft with lpm := sset [] u (if allZero img then [] else img) s.ft.lpm } }

/-! ### Shadow compare (R250 to R253) -/

/-- R252: the digest of block `b` of an LPM copy. -/
def State.lpmDigest (s : State) (b : Nat) : List Byte :=
  sm3 ((List.range 4096).flatMap (fun k => s.lpmUnit (4096 * b + k)))

/-- R253: the changes of the selected table that meet a scan which begins when all but the last `met` of those made since the
descriptor's fetch stand. -/
def State.changesMet (s : State) (d : Desc) (met : Nat) : Nat := min met (s.tableChanges (d.u8 24) - d.note.headD 0)

/-- FT_SHADOW_COMPARE (R250 to R253). -/
def execFtShadowCompare (ring : Fin 4096) (written : Bool) (met : Nat) (s : State) : Res :=
  runOpcode ring.val 0x24 false (fun d t =>
    let sel := d.u8 24
    if sel < 8 ∧ t.flag FT_PIPE_CTL_IMAGE_LOAD sel = true then t.complete d .busy 0 0
    else if !written then t.complete d .hostAccessError 0 0
    else
      let blocks := (List.range (d.u32 32)).map (fun k => d.u32 28 + k)
      let out := blocks.flatMap (fun b => if sel < 8 then t.tableDigest sel b else t.lpmDigest b)
      (t.descWrite d d.hostAddr out).complete d .success (t.changesMet d met % 2 ^ 32) 0) s

end Sys2Proof.Machine
end

