-- ==== Sys2Proof/Machine/Lookup.lean ====
section
/-! DEFINITION. Lookup and spraying (R216 to R220, R240, R254 to R259, R296, R298): where a frame goes, and how
it is edited. -/

namespace Sys2Proof.Machine

/-! ### Spray groups (R254 to R257) -/

/-- R254: the member words of a group as written. -/
def State.memberWord (s : State) (g i : Nat) : Nat :=
  bitsOf (s.word (FT_GROUP_MEMBER.offset (8 * g + i / 4))).toNat (16 * (i % 4) + 9) (16 * (i % 4))

/-- R254, R265: a write of FT_GROUP_CFG: COUNT and the members take effect together. -/
def groupCfg (g : Nat) (v : Word) (s : State) : State :=
  let count := FT_GROUP_CFG_COUNT.of v
  let valid := FT_GROUP_CFG_VALID.isSet v
  if valid && decide (count < 1 ∨ 32 < count) then s.refuseWrite (FT_GROUP_CFG.offset g) v.toNat
  else
    let t := s.plainWrite FT_GROUP_CFG g v
    let members := if valid then (List.range count).map (t.memberWord g) else []
    { t with ft := { t.ft with groups := sset [] g members t.ft.groups } }

/-- SPRAY_GROUP_COMMIT (R254, R265). -/
def execSprayGroupCommit (group : Fin 4096) (value : Word) (s : State) : Res := whenReg (FT_GROUP_CFG.offset group.val) value (groupCfg group.val value) s

/-- The members of a group in force; none while it is not valid. -/
def State.members (s : State) (g : Nat) : List Nat := sget [] s.ft.groups g

/-- R256: the live members of a group, in member order. -/
def State.liveMembers (s : State) (g : Nat) : List Nat := (s.members g).filter s.portUsable

/-- R256: the member a bucket maps to. -/
def State.bucketMember (s : State) (g b : Nat) : Option Nat :=
  let ms := s.members g
  let home := fun k => ms.getD (k % ms.length) 0
  let live := s.liveMembers g
  if live.isEmpty then none
  else if s.portUsable (home b) then some (home b)
  else
    let k := (List.range b).countP (fun c => !s.portUsable (home c))
    live[k % live.length]?

/-- R257: a fresh choice. -/
def State.freshMember (s : State) (g b : Nat) : Option Nat :=
  match s.bucketMember g b with
  | none => none
  | some m =>
    let live := s.liveMembers g
    let least := (live.map s.portLoad).foldl min (s.portLoad m)
    if least + s.rd FT_SPRAY_ENV_DELTA 0 < s.portLoad m then live.find? (fun p => s.portLoad p == least) else some m

/-- R255: the spray hash of a frame. -/
def State.sprayHash (s : State) (h : Hdr) (c : Option Sceca) : Nat :=
  crc32c (s.rd FT_SPRAY_SEED_SEED 0) (hashKey h c (strictChannel h c))

/-- R257, R298: the member a frame takes, by the mode of its pipeline (8 for packets the device originates). DEDUCED (log 150):
a flowlet slot keeps a member for each group, so that no other group's frame ends a flowlet early (R259). -/
def State.spray (s : State) (pipe g : Nat) (h : Hdr) (c : Option Sceca) : Option Nat × State :=
  let mode := if strictChannel h c then 0 else if pipe = 8 then s.rd FT_SPRAY_ENV_ORIGIN_MODE 0 else s.rd FT_PIPE_CTL_SPRAY_MODE pipe
  let hash := s.sprayHash h c
  let bucket := hash % 256
  if mode = 0 then (s.bucketMember g bucket, s)
  else if mode = 2 ∧ c.isSome = true then (s.freshMember g bucket, s)
  else
    let key := 65536 * (9 * g + pipe) + hash / 256 % 65536
    let fl := s.ft.flowlets.find? (fun kv => kv.1 == key)
    let keep := match fl with
      | some (_, f) => if (s.liveMembers g).contains f.port && decide (s.now - f.last ≤ 10 * s.rd FT_SPRAY_ENV_FLOWLET_GAP 0) then some f.port else none
      | none => none
    match keep.or (s.freshMember g bucket) with
    | none => (none, s)
    | some p => (some p, { s with ft := { s.ft with flowlets := sput key ⟨p, s.now⟩ s.ft.flowlets } })

/-! ### The lookup (R217 to R220) -/

/-- Where a lookup sends a frame. -/
inductive Verdict where
  /-- Dropped by the lookup, counted in LOOKUP_DROP. -/
  | drop
  /-- Dropped for its TTL or hop limit. -/
  | ttl
  /-- A spray group with no live member. -/
  | noMember
  /-- To these ports, as this head, in this class where an entry overrides it. -/
  | out (ports : List Nat) (head : List Byte) (cls : Option Nat)
  deriving DecidableEq, Repr

/-- R217, R222, R257: what a result image makes of a frame. -/
def State.actOn (s : State) (pipe : Nat) (img head : List Byte) (h : Hdr) (c : Option Sceca) (ingress : Option Nat) : Verdict × State :=
  let edited := if imgKind img = 1 then head else routedEdit head h (imgDmac img) (s.rd FT_ROUTER_MAC_MAC 0)
  let bridged := imgKind img == 1
  match imgAction img with
  | 1 => if bridged && ingress == some (imgTarget img) then (.drop, s) else (.out [imgTarget img] edited (imgClass img), s)
  | 2 =>
    if (s.members (imgTarget img)).isEmpty then (.drop, s)
    else match s.spray pipe (imgTarget img) h c with
      | (none, t) => (.noMember, t)
      | (some p, t) => if bridged && ingress == some p then (.drop, t) else (.out [p] edited (imgClass img), t)
  | _ => (.drop, s)

/-- R220: the ports that a flooded frame is copied to. -/
def State.floodPorts (s : State) (vid : Nat) (ingress : Option Nat) : List Nat :=
  let set := bitsOf (s.word (FT_VLAN_MAP.offset (vid / 8))).toNat (8 * (vid % 8) + 5) (8 * (vid % 8))
  (List.range 1024).filter (fun n => (s.rd FT_FLOOD_SET_BITS (16 * set + n / 64)).testBit (n % 64) && ingress != some n && s.portReady n)

/-- A result image that the LPM gives, read as that of a host entry. -/
def asHost (img : List Byte) (i : IpHdr) : List Byte := overlay img 0 (natLe 1 (if i.version = 4 then 2 else 3))

/-- R240: the entry of a frame's source is hit. -/
def State.touchSource (s : State) (pipe : Nat) (h : Hdr) : State :=
  if macMulticast h.srcMac then s else s.touch pipe (l2Key h.vid h.srcMac)

/-- R217 steps 3 to 6: where pipeline `pipe` sends a frame. DEDUCED (log 27): the TTL is tested before the tables, and a hit back
to the ingress port counts as LOOKUP_DROP. -/
def State.route (s : State) (pipe : Nat) (head : List Byte) (h : Hdr) (c : Option Sceca) (ingress : Option Nat) : Verdict × State :=
  let router := s.rd FT_ROUTER_MAC_MAC 0
  if router ≠ 0 ∧ h.dstMac = router then
    match h.ip with
    | none => (.drop, s)
    | some i =>
      if !i.unicast then (.drop, s)
      else if i.ttl ≤ 1 then (.ttl, s)
      else
        let key := hostKey i
        match (if s.tableOpen pipe then s.findKey pipe key else none) with
        | some w =>
          let t := s.touch pipe key
          t.actOn pipe (s.slot pipe w.1 w.2) head h c ingress
        | none =>
          match s.lpmLookup i with
          | some img => s.actOn pipe (asHost img i) head h c ingress
          | none => (.drop, s)
  else
    if macMulticast h.dstMac then (.out (s.floodPorts h.vid ingress) head none, s)
    else match (if s.tableOpen pipe then s.findKey pipe (l2Key h.vid h.dstMac) else none) with
      | some w => s.actOn pipe (s.slot pipe w.1 w.2) head h c ingress
      | none => (.out (s.floodPorts h.vid ingress) head none, s)

/-- The lookup of a frame: its source is hit, and it is routed. -/
def State.lookup (s : State) (pipe : Nat) (head : List Byte) (h : Hdr) (c : Option Sceca) (ingress : Option Nat) : Verdict × State :=
  (s.touchSource pipe h).route pipe head h c ingress

/-- R234: the address a bridged frame may teach: VID and source MAC. -/
def State.learnable (s : State) (n : Nat) (h : Hdr) : Option (Nat × Nat) :=
  let router := s.rd FT_ROUTER_MAC_MAC 0
  if (router == 0 || h.dstMac != router) && (s.rd FT_LEARN_PORTS_BITS (n / 64)).testBit (n % 64) && !macMulticast h.srcMac &&
      s.flag FT_PIPE_CTL_LEARN (n / 128) && !s.flag FT_PIPE_CTL_IMAGE_LOAD (n / 128) then some (h.vid, h.srcMac)
  else none

/-- R234, R236: a learnable address joins the queue of its pipeline's table engine, or is dropped where that is full. -/
def State.queueLearn (s : State) (n : Nat) (x : Nat × Nat) : State :=
  if Config.learnQueue ≤ (sget [] s.ft.learns (n / 128)).length then s.setErr FT_PIPE_STATUS_LEARN_DROPPED (n / 128)
  else { s with ft := { s.ft with learns := smod [] (n / 128) (fun l => l ++ [(x.1, x.2, n)]) s.ft.learns } }

/-! ### Egress queues (R26, R272) -/

/-- R272: the queue class of a frame on an egress port. -/
def State.queueClass (s : State) (port cls net : Nat) (override : Option Nat) : Nat :=
  if s.isFabric port then net else override.getD cls

/-- R272: the global queue of a frame on an egress port, where its class has queues. -/
def State.queueOf (s : State) (port qc hash : Nat) : Option Nat :=
  let i := 8 * s.rd TQ_PORT_SCHED_LAYOUT port + qc
  if s.flag TQ_QLAYOUT_USED i then
    some (1024 * port + s.rd TQ_QLAYOUT_BASE i + hash / 2 ^ 24 % 2 ^ s.rd TQ_QLAYOUT_LOG2 i)
  else none

end Sys2Proof.Machine
end

