-- ==== Sys2Proof/Machine/Ingress.lean ====
section
/-! DEFINITION. A frame enters (R156 to R180, R213, R217, R279, R296, R300): its head is parsed, looked up,
metered and admitted, and its tail is judged. -/

namespace Sys2Proof.Machine

/-! ### Admission (R173, R174) -/

/-- What admission on a die answers: the charge, or the ingress counter that a drop raises. -/
inductive Admit where
  | charge (k : Charge)
  | drop (counter : Nat)
  deriving DecidableEq, Repr

/-- R173: the account of (port, class) on a die takes `need` cells, or the frame is dropped. -/
def State.admitAcct (s : State) (n c die need : Nat) : Admit :=
  let i := 8 * n + c
  if s.acctCells n c die .min + need ≤ s.rd PC_ING_ACCT_MIN i then .charge .min
  else if withinAlpha (s.rd PC_ING_ACCT_ALPHA i) (s.acctCells n c die .shared + need) (s.sharedFree die) then .charge .shared
  else if s.lossless n c then
    if s.acctCells n c die .headroom + need ≤ s.rd PC_ING_ACCT_HEADROOM i then .charge .headroom else .drop 23
  else .drop 21

/-- R173: a lossy frame charged to the shared pool passes the egress test of a queue. -/
def State.egressTest (s : State) (q need qc : Nat) : Bool :=
  let port := q / 1024
  let profile := s.rd TQ_QLAYOUT_PROFILE (8 * s.rd TQ_PORT_SCHED_LAYOUT port + qc)
  decide (s.queueCells q + need ≤ s.rd PC_EGR_PROFILE_FLOOR profile) ||
  withinAlpha (s.rd PC_EGR_PROFILE_ALPHA profile) (s.queueCells q + need) (s.sharedFree (homeDie port))

/-- R174: what an admitted frame that finds no free SRAM cell sets and counts. -/
def State.noCell (s : State) (die : Nat) (k : Charge) (ingress : Nat) : State :=
  if k = .shared then (s.setErr PC_BUF_ERR_SHARED_EMPTY die).portAdd ingress 21 1
  else ((s.setErr PC_BUF_ERR_RESERVE_OVERRUN die).raise { code := 0x0203, kind := 2, logical := ingress, die := 4 + die }).portAdd ingress 23 1

/-- A copy toward a queue, with its queue class. -/
structure Target where
  port : Nat
  queue : Nat
  cls : Nat
  deriving DecidableEq, Repr

/-- A dropped copy counts at its egress port and queue. -/
def State.dropEgress (s : State) (x : Target) : State := (s.portAdd x.port 22 1).queueAdd x.queue 2 1

/-- R173, R174, R181, R206: admission on one die of the copies that live there: the charge with the copies kept. No cell that is
held back for reservations goes to the shared pool. DESIGN CHOICE (log 141): the egress test is made copy by copy, with shared_free
as it was before the frame's own charge; a copy that fails it is dropped and the others stay. -/
def State.admitDie (s : State) (n cls die need : Nat) (targets : List Target) : (Option Charge × List Target) × State :=
  if targets.isEmpty then ((none, []), s)
  else
    match (if s.isFabric n then Admit.charge .pool else s.admitAcct n cls die need) with
    | .drop k => ((none, []), targets.foldl (fun t x => t.queueAdd x.queue 2 1) (s.portAdd n k 1))
    | .charge k =>
      let tested := k == .shared && !s.lossless n cls
      let keep := targets.filter (fun x => !tested || s.egressTest x.queue need x.cls)
      let t := (targets.filter (fun x => tested && !s.egressTest x.queue need x.cls)).foldl State.dropEgress s
      if keep.isEmpty then ((none, []), t)
      else if t.sramFree die < need || (k == .shared && decide (t.sharedFree die < need)) then ((none, []), t.noCell die k n)
      else
        let first := k == .headroom && !(t.port n).xoffSent.testBit cls
        ((some k, keep), if first then t.sendXoff n cls else t)

/-! ### Queues fill -/

/-- A frame joins a queue, and the queue and its class the rounds of the scheduler (R277). -/
def State.enqueue (s : State) (f : Nat) (x : Target) : State :=
  (s.setQueue x.queue (s.queue x.queue ++ [f])).modPort x.port (fun p =>
    { p with clsDrr := p.clsDrr.join x.cls, queueDrr := sset ⟨[], [], false⟩ x.cls ((p.queueRound x.cls).join x.queue) p.queueDrr })

/-- A target as the copy of a frame. -/
def Target.copy (x : Target) : Copy := ⟨x.port, x.queue, false, false, false, false, none, 0⟩

/-- A frame is stored with its copies, and they join their queues. -/
def State.storeFrame (s : State) (x : FrameSt) (targets : List Target) : Nat × State :=
  let f := s.pc.nextFrame
  let t : State := State.setFrame { s with pc := { s.pc with nextFrame := f + 1 } } f { x with copies := targets.map Target.copy }
  (f, targets.foldl (fun u y => u.enqueue f y) t)

/-- R571, R573: the arrival time of a frame for the transparent clock. -/
def State.tcArrival (s : State) : Option Nat :=
  let d := s.rd TB_TC_CFG_DOMAIN 0
  if s.flag TB_TC_CFG_ENABLE 0 && s.timeReady d then some ((s.dom d).total * 65536 + (s.dom d).frac / 65536) else none

/-! ### The head (R156, R173, R217) -/

/-- A frame that was dropped, awaiting its tail. -/
def State.dropArriving (s : State) (n credit : Nat) (misnet : Bool) (raw : List Byte) (flow learn : Option (Nat × Nat)) : State :=
  let (f, t) := (s.flowAdd flow ⟨0, 0, 0, 1⟩).storeFrame { FrameSt.blank with ingress := some n, credit := credit, misnet := misnet, raw := raw, freed := true, flow := flow, learn := learn } []
  t.modPort n (fun p => { p with arriving := some f })

/-- R399: the port is reserved for the lock-step pair. -/
def State.pairPort (s : State) (n : Nat) : Bool := s.flag MF_LS_CFG_ENABLE 0 && s.rd MF_LS_CFG_PORT 0 == n

/-- R172, R296, R213, R272, R399: the copies of a frame toward the ports that its lookup chose, and what the others count. -/
def State.chooseTargets (s : State) (n cls net hash : Nat) (override : Option Nat) (ports : List Nat) : List Target × State :=
  ports.foldl (fun (acc : List Target × State) p =>
    let t := acc.2
    if t.flag TQ_PORT_SCHED_ROLE n && t.flag TQ_PORT_SCHED_ROLE p then (acc.1, t.portAdd n 53 1)
    else if !t.portUsable p || t.pairPort p then (acc.1, t.portAdd n 20 1)
    else
      let qc := t.queueClass p cls net override
      match t.queueOf p qc hash with
      | some q => (acc.1 ++ [⟨p, q, qc⟩], t)
      | none => (acc.1, t.portAdd p 22 1)) ([], s)

/-- R173, R175, R300: a frame whose lookup chose ports is metered and admitted, and its copies are queued. -/
def State.forward (s : State) (n cls net credit : Nat) (head : List Byte) (h : Hdr) (c : Option Sceca) (ports : List Nat) (out : List Byte)
    (override : Option Nat) (flow learn : Option (Nat × Nat)) : State :=
  let len := match h.ip with
    | some i => i.frameLen
    | none => s.rd PC_PORT_CFG_MAX_FRAME n
  let hash := s.channelHash h c
  match s.meterFrame n cls hash len out with
  | (.drop, t) => t.dropArriving n credit false head flow learn
  | (.pass bytes, t) =>
    let (targets, u) := t.chooseTargets n cls net hash override ports
    let need := cellsOf len
    let (a0, v) := u.admitDie n cls 0 need (targets.filter (fun x => homeDie x.port == 0))
    let (a1, w) := v.admitDie n cls 1 need (targets.filter (fun x => homeDie x.port == 1))
    let charges := (match a0.1 with
      | some k => [(0, k, need)]
      | none => []) ++ (match a1.1 with
      | some k => [(1, k, need)]
      | none => [])
    let kept := a0.2 ++ a1.2
    if kept.isEmpty then w.dropArriving n credit false head flow learn
    else
      let early := !(w.rd PC_CLASS_MODE_SAF n).testBit cls && decide (64 ≤ head.length)
      let x : FrameSt :=
        { FrameSt.blank with ingress := some n, bytes := bytes, cls := cls, net := net, credit := credit, early := early, charges := charges,
                             len := len, raw := head, arrival := w.tcArrival, flow := flow, learn := learn,
                             via := w.closedOn (kept.flatMap (fun y => routeOf (n / 256) (4 + homeDie y.port))) }
      let (f, y) := w.storeFrame x kept
      let z := y.modPort n (fun p => { p with arriving := some f })
      match c with
      | none => z
      | some e =>
        if strictChannel h c then z
        else
          let flagged := e.fence
          let z' := z.admitFence (hash % 65536) f flagged
          if flagged then z'.portAdd n 54 1 else z'

/-- R400: a lock-step frame, which is never forwarded. -/
def lockstepFrame (h : Hdr) : Bool := h.etherType == 0x88B7 && h.dstMac == 0x0180C200000E

/-- R160, R400, R570: the frame is dropped at its headers and counted in DROP_SCECA. -/
def State.headerDrop (s : State) (n : Nat) (h : Hdr) (c : Option Sceca) (toDevice : Bool) : Option State :=
  let dropped := match c with
    | some e => toDevice && !e.defined
    | none => ptpPeerDelay h || lockstepFrame h
  if dropped then some (s.portAdd n 26 1) else none

/-- R187: a Sceca packet came under the tag of another network than its header names. -/
def State.wrongNet (s : State) (n vn : Nat) (c : Option Sceca) : Bool := s.isFabric n && c.any (fun e => e.vnet != vn)

/-- R217, R218: a data frame's head, accepted at its tag, is looked up. DEDUCED (log 33): on a port that is not
ready it is dropped and counted in DROP_PORT_DOWN. -/
def State.headData (s0 : State) (n vn : Nat) (head : List Byte) : State :=
  let h := parse head
  let c := s0.sceca head h
  let flow := s0.flowIndex (n / 128) (s0.channelHash h c)
  let s := s0.flowAdd flow ⟨1, 0, bit h.ceMarked, 0⟩
  let cls := if s.isFabric n then vn else s.ethernetClass n h
  let pipe := n / 128
  if !s.portReady n then (s.portAdd n 20 1).dropArriving n vn false head flow none
  else if s.pairPort n then (s.portAdd n 26 1).dropArriving n vn false head flow none
  else if s.wrongNet n vn c then s.dropArriving n vn true head flow none
  else match s.headerDrop n h c false with
    | some t => t.dropArriving n vn false head flow none
    | none =>
      let learn := s.learnable n h
      match s.lookup pipe head h c (some n) with
      | (.drop, t) => (t.addWrap FT_PIPE_DROP_LOOKUP_DROP pipe 1).dropArriving n vn false head flow learn
      | (.ttl, t) => (t.addWrap FT_PIPE_DROP_TTL_EXPIRED pipe 1).dropArriving n vn false head flow learn
      | (.noMember, t) => (t.portAdd n 20 1).dropArriving n vn false head flow learn
      | (.out ports out override, t) => t.forward n cls (networkOf c) vn head h c ports out override flow learn

/-- R217: a frame that the packet core consumes comes as a command of its own: MAC control, Evbauth, link control,
optical coordination (R528), and every defined Sceca packet addressed to the device. -/
def State.ownRow (s : State) (n vn : Nat) (head : List Byte) : Bool :=
  let h := parse head
  h.etherType == 0x8808 || h.etherType == 0x88B5 || h.etherType == 0x88B8 || ((h.etherType == 0x88B6 || (h.etherType == 0x88B7 && s.pairPort n)) && s.isFabric n) ||
  (match s.scecaToDevice head h with
   | some c => c.defined && (!s.isFabric n || c.vnet == vn)
   | none => false)

/-- FRAME_HEADER_ARRIVAL: the head of a data frame arrives on a port whose link is up. -/
def headerArrival (n : Nat) (tag : Option (BitVec 48)) (head : List Byte) (s : State) : State :=
  let vn := tagVn (tag.getD 0).toNat
  if s.link n ≠ 3 ∨ (s.port n).arriving.isSome = true ∨ (s.inflight n).isSome = true ∨ s.ownRow n vn head = true then s
  else
    let go := fun (t : State) =>
      match t.scecaToDevice head (parse head) with
      | some c =>
        let flow := t.flowIndex (n / 128) (t.channelHash (parse head) (some c))
        let counted := fun (u : State) => u.flowAdd flow ⟨1, 0, bit (parse head).ceMarked, 0⟩
        if t.wrongNet n vn (some c) then (counted t).dropArriving n vn true head flow none
        else match t.headerDrop n (parse head) (some c) true with
          | some u => (counted u).dropArriving n vn false head flow none
          | none => t
      | none => t.headData n vn head
    if s.isFabric n then
      match s.tagVerdict n tag with
      | .accept => go s
      | .duplicate => s.linkDuplicate n
      | .reject => s.tagReject n tag
    else go s

/-- FRAME_HEADER_ARRIVAL (R173, R217). -/
def execFrameHeaderArrival (port : Fin 1024) (tag : Option (BitVec 48)) (head : List Byte) (s : State) : Res :=
  whenLive (headerArrival port.val tag head) s

/-! ### The tail (R164, R173, R175 to R180, R196) -/

/-- R165, R173: the charges of a frame once its length is known. -/
def fitCharges (cells : Nat) (l : List (Nat × Charge × Nat)) : List (Nat × Charge × Nat) := l.map (fun c => (c.1, c.2.1, cells))

/-- R196: what the tail does to the link layer of a fabric port. -/
def State.linkTail (s : State) (n : Nat) (good : Bool) : State :=
  if !s.isFabric n then s else if good then s.linkTake n else s.linkReject n

/-- R178: a frame is dropped at its tail: what it has not begun to send goes, what it has begun ends in a stomp. -/
def State.tailDrop (s : State) (n f counter reason : Nat) : State := (s.portAdd n counter 1).badFrame f reason

/-- R195: a frame that was accepted in sequence is dropped at its tail; its credit returns once its cells are freed. -/
def State.dropAccepted (s : State) (n f len counter reason : Nat) (x : FrameSt) : State :=
  let a := if x.freed && s.isFabric n then s.returnCredit n x.credit (cellsOf len) else s
  (a.setFrame f { x with checked := true, len := len }).tailDrop n f counter reason

/-- R187: a packet that came under the tag of another network is accepted, and reported and counted as it is dropped. -/
def State.reportNet (s : State) (n : Nat) (misnet : Bool) : State :=
  if misnet then (s.setErr PC_LINK_ERR_VN_MISMATCH n).portAdd n 26 1 else s

/-- R173, R180, R181, R234: a frame passes its tail: it is counted, cells beyond its length are returned, it teaches its
source and toward Ford demand (R543), and copies too long for their port are dropped. -/
def State.tailGood (s : State) (n f len : Nat) (x : FrameSt) : State :=
  let a := (s.countRx n len).reportNet n x.misnet
  let seq := if a.isFabric n then some (wrapSub 16 (a.port n).expected 1) else none
  let y := { x with checked := true, len := len, charges := fitCharges (cellsOf len) x.charges, linkSeq := seq }
  let b := (a.setFrame f y).settleAllPfc
  let c := if x.freed && b.isFabric n then b.returnCredit n x.credit (cellsOf len) else b
  let d := match x.learn with
    | some v => c.queueLearn n v
    | none => c
  let long := x.waiting.filter (fun k => !k.started && decide (d.rd PC_PORT_CFG_MAX_FRAME k.port < len))
  let e := x.copies.foldl (fun t k => t.noteDemand n k.port len) d
  (long.foldl (fun t k => ((t.portAdd k.port 25 1).queueAdd k.queue 2 1).endCopy f k.queue true) e).settleFrame f

/-- FRAME_TAIL_ARRIVAL: the tail and FCS of the frame arriving on a port. -/
def tailArrival (n : Nat) (rest : List Byte) (fcs : Fcs) (s : State) : State :=
  match (s.port n).arriving with
  | none => s
  | some f =>
    match s.frame f with
    | none => s.modPort n (fun p => { p with arriving := none })
    | some x0 =>
      let whole := x0.raw ++ rest
      let len := whole.length + 4
      let max := s.rd PC_PORT_CFG_MAX_FRAME n
      let bytes := (x0.bytes ++ rest).take (max - 4)
      let x := { x0 with bytes := bytes }
      let counted := (s.modPort n (fun p => { p with arriving := none })).flowAdd x.flow ⟨0, len, 0, 0⟩
      let fault := tailFault whole fcs
      let t := (counted.setFrame f x).linkTail n fault.isNone
      match fault with
      | some (k, reason) => (t.tailDrop n f k reason).settleFrame f
      | none =>
        if max < len then t.dropAccepted n f len 25 3 x
        else if len < 64 then t.dropAccepted n f len 24 0 x
        else t.tailGood n f len x

/-- FRAME_TAIL_ARRIVAL (R175). -/
def execFrameTailArrival (port : Fin 1024) (rest : List Byte) (fcs : Fcs) (s : State) : Res :=
  whenLive (tailArrival port.val rest fcs) s

/-- FENCE_RELEASE (R300). -/
def execFenceRelease (slot : Fin 65536) (s : State) : Res := whenLive (fenceRelease slot.val) s

end Sys2Proof.Machine
end

