-- ==== Sys2Proof/Machine/Originate.lean ====
section
/-! DEFINITION. Packets the device originates (R163, R217, R254, R295, R297, R305, R341, R441 to R443, R448, R450): their
headers, their lookup and their charges; results, records, replay requests and acknowledgements. -/

namespace Sys2Proof.Machine

/-! ### Headers -/

/-- R161: the 48 bytes of a Sceca header. -/
def Sceca.bytes (c : Sceca) : List Byte :=
  natBe 1 (c.version * 16 + c.type) ++ natBe 1 c.flags ++ natBe 2 c.partition ++ natBe 4 c.group ++ natBe 4 c.sequence ++
  natBe 4 c.block ++ natBe 4 c.source ++ natBe 1 c.format ++ natBe 1 0 ++ natBe 2 c.payloadLen ++ natBe 4 c.memoryKey ++
  natBe 4 c.versionNo ++ natBe 8 c.offset ++ natBe 8 c.check

/-- A header of a packet type, group and sequence with every other field zero. -/
def blankSceca (type flags partition group sequence : Nat) (payload : List Byte) : Sceca :=
  { version := 1, type := type, flags := flags, partition := partition, group := group, sequence := sequence, block := 0, source := 0,
    format := 0, reserved := 0, payloadLen := payload.length, memoryKey := 0, versionNo := 0, offset := 0, check := 0, at_ := 0 }

/-- R163, R217: a packet as it meets the lookup, addressed to the router. DESIGN CHOICE (log 41): what the spec does
not give of its headers is fixed by the implementation. -/
def State.originFrame (s : State) (strict : Bool) (dst : List Byte) (c : Sceca) (payload : List Byte) : List Byte :=
  let router := natBe 6 (s.rd FT_ROUTER_MAC_MAC 0)
  let len := 56 + payload.length
  router ++ router ++ natBe 2 0x86DD ++
  natBe 4 (6 * 2 ^ 28 + Config.originTraffic.toNat * 2 ^ 20 + bit strict * 2 ^ 19 + Config.originLabel.toNat) ++
  natBe 2 len ++ natBe 1 17 ++ natBe 1 Config.originHop.toNat ++ s.scecaAddr 0 ++ fitTo 16 dst ++
  natBe 2 Config.originUdpPort.toNat ++ natBe 2 (s.rd PC_SCECA_CFG_UDP_PORT 0) ++ natBe 2 len ++ natBe 2 0 ++ c.bytes ++ payload

/-- R217, R254: where a packet of the device's own goes. DESIGN CHOICE (log 41): the endpoint table of one pipeline that
the implementation fixes, then the LPM. -/
def State.originRoute (s : State) (frame : List Byte) (h : Hdr) (c : Option Sceca) : Verdict × State :=
  match h.ip with
  | none => (.drop, s)
  | some i =>
    let pipe := Config.originPipeline.val
    match (if s.tableOpen pipe then s.findKey pipe (hostKey i) else none) with
    | some w => s.actOn 8 (s.slot pipe w.1 w.2) frame h c none
    | none =>
      match s.lpmLookup i with
      | some img => s.actOn 8 (asHost img i) frame h c none
      | none => (.drop, s)

/-! ### Charges (R295) -/

/-- R295: the cells of a result frame come out of the epoch's charge; what the charge lacks, out of the shared pool. -/
def State.takeCharge (s : State) (slot : Option Nat) (die need : Nat) : List (Nat × Charge × Nat) × State :=
  match slot.bind (fun k => ((s.mslot k).run).map (fun r => (k, r))) with
  | some (k, r) =>
    let c := min (r.charge.getD die 0) need
    let r' : EpochRun := { r with charge := r.charge.set die (r.charge.getD die 0 - c) }
    ([(die, Charge.result, c), (die, Charge.shared, need - c)], s.modMslot k (fun x => { x with run := some r' }))
  | none => ([(die, Charge.shared, need)], s)

/-- R29: the die that a packet of the device's own comes from: a result the reduction die of its manifest slot, any other the control
die. -/
def originDie (slot : Option Nat) : Nat := match slot with
  | some k => 6 + k / 64
  | none => 8

/-- R206: a packet of the device's own joins the egress queue its lookup chose, where cells that are not held back for reservations
are free. DESIGN CHOICE (log 41): one that finds none is dropped and counted in DROP_SHARED of its egress port. -/
def State.originTo (s : State) (slot : Option Nat) (net hash port : Nat) (override : Option Nat) (strict : Bool) (c : Sceca) (bytes : List Byte) : State :=
  let qc := s.queueClass port net net override
  let len := bytes.length + 4
  if !s.portUsable port || s.pairPort port then s.portAdd port 20 1
  else if s.rd PC_PORT_CFG_MAX_FRAME port < len then s.portAdd port 25 1
  else match s.queueOf port qc hash with
    | none => s.portAdd port 22 1
    | some q =>
      let die := homeDie port
      let (charges, t) := s.takeCharge slot die (cellsOf len)
      let lent := ((charges.filter (fun k => k.2.1 == .shared)).map (fun k => k.2.2)).sum
      if s.sharedFree die < lent || s.sramFree die < cellsOf len then (s.setErr PC_BUF_ERR_SHARED_EMPTY die).portAdd port 21 1
      else
        let x : FrameSt := { FrameSt.blank with bytes := bytes, cls := qc, net := net, checked := true, charges := charges, len := len,
                                                via := t.closedOn (routeOf (originDie slot) (4 + die)) }
        let (f, u) := t.storeFrame x [⟨port, q, qc⟩]
        let v := if c.ecnEcho then u.portAdd port 52 1 else u
        if strict then v else v.admitFence (hash % 65536) f c.fence

/-- A Sceca packet is sent to an IPv6 address; one that the lookup drops counts in its pipeline as a frame does (R254, log 41). -/
def State.originate (s : State) (slot : Option Nat) (strict : Bool) (dst : List Byte) (c : Sceca) (payload : List Byte) : State :=
  let frame := s.originFrame strict dst c payload
  let h := parse frame
  match s.originRoute frame h (some c) with
  | (.out (port :: _) bytes override, t) => t.originTo slot c.vnet (t.channelHash h (some c)) port override strict c bytes
  | (.drop, t) => t.addWrap FT_PIPE_DROP_LOOKUP_DROP Config.originPipeline.val 1
  | (.ttl, t) => t.addWrap FT_PIPE_DROP_TTL_EXPIRED Config.originPipeline.val 1
  | (_, t) => t

/-! ### Packet kinds -/

/-- R305: bit 6 of FLAGS toward an address for an operation. -/
def State.echo (s : State) (i q : Nat) (dst : List Byte) : Nat :=
  match (s.armed i).bind (fun a => a.op q) with
  | some o => if o.ce.contains dst then 64 else 0
  | none => 0

/-- R297, R411: the group's packets take STRICT channels. -/
def grStrict (r : List Byte) : Bool := !grFenced r

/-- R450: the payload of a HOP_ACK. -/
def hopAckBytes (st : Status) : List Byte := natBe 2 (statusCode st) ++ zeros 6

/-- R450: a HOP_ACK to an address. -/
def State.hopAck (s : State) (strict : Bool) (partition handle q version : Nat) (echo : Nat) (dst : List Byte) (st : Status) : State :=
  let body := hopAckBytes st
  let c := blankSceca 4 (4 + echo) partition handle q body
  s.originate none strict dst { c with versionNo := version, check := checkWord false true (outputCheck body) } body

/-- R450: a HOP_ACK of a group to an address. -/
def State.groupAck (s : State) (i q version : Nat) (dst : List Byte) (st : Status) : State :=
  match s.group i with
  | some g => s.hopAck (grStrict g.record) g.partition (handleOf i g) q version (s.echo i q dst) dst st
  | none => s

/-- R448: a REPLAY_REQUEST to member `m` for a block, 0xFFFF_FFFF for every block. DEDUCED (log 43): a RELAY member's
carries RELAY_GROUP. The operation is marked replayed (R352). -/
def State.askReplay (s : State) (i q m b : Nat) : State :=
  match s.group i with
  | none => s
  | some g =>
    let r := g.record
    let handle := if grIsRelay r m then grRelayGroup r m else handleOf i g
    let c := blankSceca 3 1 g.partition handle q []
    (s.originate none (grStrict r) (grAddress r m) { c with block := b, source := m, check := checkWord false true 0 } []).modOp i q
      (fun o => { o with replayed := true })

/-- Every block of an operation, in a REPLAY_REQUEST or a record. -/
def allBlocks : Nat := 0xFFFFFFFF

/-- R441: where a result payload lies, relative to the member's key. -/
structure ResultAt where
  /-- Block, part, and the blocks of the operation. -/
  block : Nat
  part : Nat
  blocks : Nat
  /-- The payload was rounded from the output accumulators. -/
  fromY : Bool
  /-- Payload bytes of a full output block. -/
  full : Nat
  deriving DecidableEq, Repr

/-- R441: Z - BASE of an operation. -/
def slotOffset (r : List Byte) (o : OpSt) : Nat := o.seq % grDataSlots r * grSlotBytes r + o.delta

/-- R441: the segment that holds a block. -/
def segmentOf (o : OpSt) (b : Nat) : Option (Nat × Nat × Nat) := o.segments.find? (fun g => decide (g.1 ≤ b ∧ b < g.1 + g.2.1))

/-- R441: the offset of a payload in a member's region. -/
def resultOffset (r : List Byte) (o : OpSt) (m : Nat) (x : ResultAt) : Nat :=
  let z := grBase r m + slotOffset r o
  if x.fromY then z + grProjOffset r + x.block * x.full + 8192 * x.part
  else match segmentOf o x.block with
    | some (first, _, off) => z + off + (x.block - first) * x.full + 8192 * x.part
    | none => if grOp r = 2 then z + (x.block - m * (x.blocks / grMembers r)) * x.full + 8192 * x.part else z + x.block * x.full + 8192 * x.part

/-- R442: a result payload goes to a member. -/
def State.sendResult (s : State) (slot : Option Nat) (i : Nat) (o : OpSt) (m : Nat) (x : ResultAt) (format check : Nat) (payload : List Byte) : State :=
  match s.group i with
  | none => s
  | some g =>
    let r := g.record
    let relay := grIsRelay r m
    let dst := grAddress r m
    let handle := if relay then grRelayGroup r m else handleOf i g
    let c := blankSceca 2 (3 + s.echo i o.seq dst) g.partition handle o.seq payload
    let c' := { c with block := x.block, format := format, check := check, memoryKey := if relay then 0 else grKey r m,
                       offset := if relay then x.block * x.full + 8192 * x.part else resultOffset r o m x }
    s.originate slot (grStrict r) dst c' payload

/-- R443: a record goes to a member, LAST and under FENCED a fence. DESIGN CHOICE (log 44): toward a RELAY member its OFFSET is zero. -/
def State.sendRecord (s : State) (i : Nat) (q m : Nat) (record : List Byte) : State :=
  match s.group i with
  | none => s
  | some g =>
    let r := g.record
    let relay := grIsRelay r m
    let dst := grAddress r m
    let handle := if relay then grRelayGroup r m else handleOf i g
    let c := blankSceca 2 (3 + 32 + (if grFenced r then 128 else 0) + s.echo i q dst) g.partition handle q record
    let off := if relay then 0 else grBase r m + grRecordOffset r + 64 * (q % grRecordSlots r)
    s.originate none (grStrict r) dst { c with block := allBlocks, memoryKey := if relay then 0 else grKey r m, offset := off,
                                               check := checkWord false true (outputCheck record) } record

end Sys2Proof.Machine
end

