-- ==== Sys2Proof/Machine/Contexts.lean ====
section
/-! DEFINITION. Contexts and operations (R421 to R426, R430, R437 to R449, R463): what is shown of them, how a leg moves
from use to use, reruns, records and acknowledgements. -/

namespace Sys2Proof.Machine

/-! ### What the registers show (R463) -/

/-- Launched operations that are not acknowledged. -/
def Armed.unacked (a : Armed) : Nat := min 4 (a.ops.countP (fun o => o.launched && !o.acked))

/-- R463: CL_CONTEXT_STATUS of a leg. -/
def contextWord (i l : Nat) (a : Armed) : Nat :=
  let st := if a.lost.contains l then 3 else if a.disarm.isSome then 2 else 1
  st * 2 ^ 62 + l * 2 ^ 56 + a.unacked * 2 ^ 53 + i * 2 ^ 32 + a.oldest

/-- R463: CL_GROUP_STATUS of a group. -/
def groupWord (g : GroupSt) : Nat :=
  let st := if g.retained.isSome then 3 else if g.armed.isSome then 2 else 1
  g.tag * 2 ^ 48 + st * 2 ^ 46 + grLegs g.record * 2 ^ 40 + grOp g.record * 2 ^ 32 + g.partition * 2 ^ 24 + grMembers g.record

/-- The context number of a leg that has been released while others of its group have not. -/
def noContext : Nat := 16384

/-- The status registers of a group and of the contexts it still has follow it. -/
def State.showGroup (s : State) (i : Nat) : State :=
  match s.group i with
  | none => s.setWord (CL_GROUP_STATUS.offset i) 0
  | some g =>
    let t := s.setWord (CL_GROUP_STATUS.offset i) (BitVec.ofNat 64 (groupWord g))
    match g.armed with
    | none => t
    | some a => (a.legs.zipIdx.filter (fun x => decide (x.1.context < noContext))).foldl (fun u x =>
        u.setWord (CL_CONTEXT_STATUS.offset x.1.context) (BitVec.ofNat 64 (contextWord i x.2 a))) t

/-! ### What tiles show (R357), and the release of contexts (R424) -/

/-- The armed legs that hold something on a tile, as operation slots. -/
def State.holders (s : State) (t : Nat) : List OpSlot :=
  s.re.slots.flatMap (fun kv =>
    if mfFirstTile kv.2.image ≤ t ∧ t < mfFirstTile kv.2.image + mfTileCount kv.2.image then
      (kv.2.bound.map (fun b => opSlot kv.2.image b.1)).filter (fun p => p.uses (t - mfFirstTile kv.2.image))
    else [])

/-- R357: RE_TILE_STATUS of a tile that is neither recovering nor withdrawn follows what it holds. -/
def State.showTile (s : State) (t : Nat) : State :=
  let ps := s.holders t
  let st := s.rd RE_TILE_STATUS_STATE t
  s.wrs [(RE_TILE_STATUS_STATE, t, if st = 3 ∨ st = 4 then st else if s.tileReady t = false then 0 else if ps.isEmpty then 1 else 2),
    (RE_TILE_STATUS_SLOTS_HELD, t, (ps.map (fun p => p.slots)).sum), (RE_TILE_STATUS_FRAMES_HELD, t, (ps.map (fun p => 2 * p.halfFrames)).sum)]

/-- The tiles of a manifest slot show what they hold, and the slot how many operation slots are bound. -/
def State.showSlot (s : State) (k : Nat) : State :=
  let t := (mfTiles (s.mslot k).image).foldl State.showTile s
  t.wr MF_SLOT_STATUS_BOUND k (s.mslot k).bound.length

/-- R424: a leg's context is released: its binding, its frames and early slots. -/
def State.releaseLeg (s : State) (i l : Nat) : State :=
  match s.leg i l with
  | none => s
  | some g =>
    let r := s.record i
    let k := grManifest r
    let p := s.legSlot r l
    let tiles := if grNoLegs r then [] else (List.range p.tileN).map (s.legTile r l)
    let a := tiles.foldl (fun u t => u.modTile t (fun v =>
      { v with frames := v.frames.filter (fun kv => !decide (p.frameBase ≤ kv.1 ∧ kv.1 < p.frameBase + 2 * p.halfFrames)) })) s
    let b := if grNoLegs r then a else (a.modMslot k (fun x => { x with bound := x.bound.filter (fun y => y.2 != (i, l)) })).showSlot k
    let c := if g.context < noContext then b.setWord (CL_CONTEXT_STATUS.offset g.context) 0 else b
    c.modLeg i l (fun v => { v with context := noContext, cur := none, reruns := [], early := [], owed := [] })

/-- R424: a group's contexts are released. -/
def State.releaseContexts (s : State) (i : Nat) : State :=
  match s.armed i with
  | none => s
  | some a =>
    let t := (List.range a.legs.length).foldl (fun u l => u.releaseLeg i l) s
    (t.modGroup i (fun g => { g with armed := none, bcast := Bcast.reset })).showGroup i

/-- An epoch runs on an operation slot of the group. -/
def State.groupRuns (s : State) (i : Nat) : Bool := match (s.mslot (grManifest (s.record i))).run with
  | some e => !grNoLegs (s.record i) && e.live.any (fun v => v.group == i)
  | none => false

/-- R424: the CONTEXT_DISARMs of a group that wait. -/
def State.disarms (s : State) (handle : Nat) : List Desc :=
  s.hi.descs.filter (fun d => d.started && d.opcode == 0x33 && d.u32 24 == handle)

/-- R424, R452: a launch of a job-start broadcast that has entered still waits for its members. -/
def State.broadcastPends (s : State) (i : Nat) (g : GroupSt) : Bool :=
  grOp g.record == 7 && s.hi.descs.any (fun d => d.started && d.opcode == 0x34 && d.u32 24 == handleOf i g)

/-- R424: a disarm is done once every operation it serves has run to its end; R426: a LOST context runs none. -/
def State.settleRelease (s : State) (i : Nat) : State :=
  match s.group i, s.armed i with
  | some g, some a =>
    match a.disarm with
    | some (some _) =>
      if s.groupRuns i || (a.lost.isEmpty && (s.broadcastPends i g || a.ops.any (fun o => a.serves o.seq && (!o.produced || o.rerun)))) then s
      else (s.disarms (handleOf i g)).foldl (fun t d => t.complete d .success 0 0) (s.releaseContexts i)
    | _ => s
  | _, _ => s

/-! ### Frames of a half -/

/-- The tiles of a leg by their place, with the frames of one half that hold something. -/
def State.halfFrames (s : State) (i l h : Nat) : List (Nat × Nat × Landed) :=
  let r := s.record i
  let p := s.legSlot r l
  (List.range p.tileN).flatMap (fun k =>
    (((s.tile (s.legTile r l k)).frames).filter (fun kv => decide (p.frame h 0 ≤ kv.1 ∧ kv.1 < p.frame h 0 + p.halfFrames))).map (fun kv => (k, kv.1, kv.2)))

/-- Every frame of a half becomes free. -/
def State.freeHalf (s : State) (i l h : Nat) : State :=
  (s.halfFrames i l h).foldl (fun t x => t.freeFrame (t.legTile (t.record i) l x.1) x.2.1) s

/-- R449: what a half holds is discarded, to be asked for again. -/
def State.discardFrames (s : State) (i l h : Nat) : State :=
  let held := (s.halfFrames i l h).map (fun x => (x.2.2.seq, x.2.2.block, x.2.2.source))
  ((s.freeHalf i l h).clearHalf i l h).modLeg i l (fun g => { g with owed := g.owed ++ held })

/-- R449: what the early slots hold for a half is discarded, to be asked for again. -/
def State.discardEarly (s : State) (i l h : Nat) : State :=
  s.modLeg i l (fun g =>
    let gone := g.early.filter (fun kv => kv.2.1 == h)
    { g with early := g.early.filter (fun kv => kv.2.1 != h), owed := g.owed ++ gone.map (fun kv => (kv.2.2.seq, kv.2.2.block, kv.2.2.source)) })

/-- R506: an early slot that cannot be read is free, and its contribution is requested again. -/
def State.loseEarly (s : State) (i l key stripe : Nat) (x : Landed) : State :=
  ((s.uncorrectable stripe).freeEarly i l key).modLeg i l (fun g => { g with owed := g.owed ++ [(x.seq, x.block, x.source)] })

/-- R434, R506: an early slot's contribution is moved into its frame, and counted there if it was. -/
def State.moveEarly (s : State) (i l h key : Nat) (x : Landed) : State :=
  let r := s.record i
  let p := s.legSlot r l
  let t := s.legTile r l (key / 256)
  let at_ := s.earlyAddress r l (key / 256) (key % 256)
  let n := payloadBytes p.inF x.elems
  match s.firstLost at_ n with
  | some stripe => s.loseEarly i l key stripe x
  | none =>
    let f := p.frame h (key % 256)
    let u := (s.freeEarly i l key).fillFrame t f { x with counted := false } (s.memBytes at_ n)
    if x.counted then u.countFrame i l h t f else u

/-- R434: the early slots of a half are moved into their frames, tile by tile in frame order. -/
def State.moveAllEarly (s : State) (i l h : Nat) : State :=
  match s.leg i l with
  | none => s
  | some g => (g.early.filter (fun kv => kv.2.1 == h)).foldl (fun t kv => t.moveEarly i l h kv.1 kv.2.2) s

/-- The member that source `src` of a leg stands for; none for a leaf's partial. -/
def sourceMember (r : List Byte) (l src nb b : Nat) : Option Nat :=
  if !grIsTop r l then some (grLegFirst r l + src)
  else if grSingle r then some (contributor r nb b)
  else if grLegs r = 1 then some src
  else none

/-- R352: a replay of a contribution of leg `l` holds its operation up until the half it belongs to is full. -/
def State.awaitReplay (s : State) (i l q b : Nat) : State :=
  s.modOp i q (fun o => o.hold (2 * l + b / (s.legSlot (s.record i) l).bpe % 2) s.now)

/-- R449: an operation's rerun is queued on a leg; a half that its uses take gives up what it holds for later ones. -/
def State.queueRerun (s : State) (i q l : Nat) : State :=
  let t := s.modLeg i l (fun g => { g with reruns := g.reruns ++ [q] })
  (List.range 2).foldl (fun u h =>
    let old := s.halfUses i l h
    let new := u.halfUses i l h
    let v := if old.head? != new.head? then (u.discardFrames i l h).discardEarly i l h
      else if old[1]? != new[1]? then u.discardEarly i l h
      else u
    v.settleHalf i l h) t

/-- R318, R420: DEDUCED (log 153): a leaf's partial that is lost comes again by a rerun of the operation on that leaf, whose
members are asked for all of their blocks. -/
def State.rerunLeaf (s : State) (i q l : Nat) : State :=
  match s.leg i l with
  | none => s
  | some g =>
    if g.reruns.contains q then s
    else
      let r := s.record i
      let a := ((s.queueRerun i q l).modOp i q (fun o => { o with reruns := satAdd 8 o.reruns 1 }))
      ((List.range (grMembers r)).filter (fun m => grLeafOf r m == l)).foldl (fun t m => t.askReplay i q m allBlocks) a

/-- R419: a contribution is asked for again from its source; a leaf's partial, from its leaf. -/
def State.askSource (s : State) (i l q b src : Nat) : State :=
  match s.armed i with
  | none => s
  | some a =>
    let r := s.record i
    let nb := blocksOf ((a.countOf r q).getD 0) (s.legSlot r l).e
    match sourceMember r l src nb b with
    | some m => (s.awaitReplay i l q b).askReplay i q m b
    | none => (s.awaitReplay i l q b).rerunLeaf i q src

/-- The place of a contribution in a leg's use: its tile's place and its frame. -/
def State.spot (s : State) (i l h b src : Nat) : Nat × Nat :=
  let p := s.legSlot (s.record i) l
  ((p.place b src).1, p.frame h (p.place b src).2)

/-- R449: contributions owed to a half's next use are asked for again, where their frames are empty. -/
def State.askOwed (s : State) (i l h : Nat) : State :=
  match s.leg i l, s.halfUses i l h with
  | some g, u :: _ =>
    let p := s.legSlot (s.record i) l
    let mine := fun (x : Nat × Nat × Nat) => x.1 == u.seq && x.2.1 / p.bpe == u.j
    let t := s.modLeg i l (fun v => { v with owed := v.owed.filter (fun x => !mine x) })
    (g.owed.filter mine).foldl (fun w x =>
      let (k, f) := w.spot i l h x.2.1 x.2.2
      if (w.landed (w.legTile (w.record i) l k) f).isSome then w else w.askSource i l x.1 x.2.1 x.2.2) t
  | _, _ => s

/-- R386, R430, R434: a half is released to its next use. -/
def State.releaseHalf (s : State) (i l h : Nat) : State :=
  ((((s.freeHalf i l h).clearHalf i l h).settleHalf i l h).moveAllEarly i l h).askOwed i l h

/-! ### Reruns (R449) -/

/-- R449: the sources of an operation are asked for all of their blocks. -/
def State.askAll (s : State) (i q : Nat) : State :=
  let r := s.record i
  let ms := if grOp r = 5 then [grRoot r] else List.range (grMembers r)
  ms.foldl (fun t m => t.askReplay i q m allBlocks) s

/-- R449: the rerun of an operation begins to wait for its turn on every leg. -/
def State.startRerun (s : State) (i q : Nat) : State :=
  let a := s.modOp i q (fun o => { o with rerun := true, legsDone := [], reruns := satAdd 8 o.reruns 1, exact := 0, output := 0, cycles := 0,
                                          epochs := 0, variant := none, mixed := false, special := false, overflow := false, flushed := false }.hold 2000 s.now)
  State.askAll ((List.range (grLegs (s.record i))).foldl (fun t l => t.queueRerun i q l) a) i q

/-! ### Records (R352, R354, R438, R443, R444) -/

/-- R352: an operation without elements. -/
def zeroLength (r : List Byte) (o : OpSt) : Bool := grNoLegs r || o.count == 0

/-- FLAGS of a record. -/
def recordFlags (r : List Byte) (o : OpSt) : Nat :=
  bit o.replayed + 2 * bit o.special + 4 * bit o.overflow + 8 * bit o.projected + 16 * bit o.flushed + 32 * bit (zeroLength r o)

/-- The top leg of a group. -/
def topLeg (r : List Byte) : Nat := grLegs r - 1

/-- VARIANT of a record. DESIGN CHOICE (log 45): a BARRIER, which has no die, shows zero. -/
def State.recordVariant (s : State) (r : List Byte) (o : OpSt) : Nat :=
  match o.variant with
  | some v => v + 128 * bit o.mixed
  | none => if grNoLegs r then 0 else s.rd MF_DIE_STATUS_VARIANT (grManifest r / 64)

/-- R352, R354: the 64 bytes of an operation's record. -/
def State.recordBytes (s : State) (i : Nat) (o : OpSt) : List Byte :=
  let r := s.record i
  let handle := match s.group i with
    | some g => handleOf i g
    | none => 0
  let delay := if zeroLength r o then 0 else min 0xFFFFFFFF (o.heldUp s.now)
  let first := if grNoLegs r then 0 else s.legTile r (topLeg r) 0
  let tiles := if grNoLegs r then 0 else (s.legSlot r (topLeg r)).tileN
  natLe 4 handle ++ natLe 4 o.seq ++ natLe 1 1 ++ natLe 1 (recordFlags r o) ++ natLe 1 (s.recordVariant r o) ++ natLe 1 (grOp r) ++
    natLe 1 (grIn r) ++ natLe 1 (grOut r) ++ natLe 1 (grRounding r) ++ natLe 1 (if zeroLength r o then 0 else o.reruns) ++ natLe 8 o.cycles ++
    natLe 8 (checkWord (checkSpecial o.exact) false (checkResidue o.exact)) ++ natLe 8 (checkWord (checkSpecial o.output) true (checkResidue o.output)) ++
    natLe 8 (o.time % 2 ^ 64) ++ natLe 4 delay ++ natLe 2 first ++ natLe 2 tiles ++ natLe 4 o.mapGen ++ natLe 4 o.epochs

/-- The launches of an operation that wait. -/
def State.launches (s : State) (handle q : Nat) : List Desc :=
  s.hi.descs.filter (fun d => d.started && d.opcode == 0x34 && d.u32 24 == handle && d.u32 28 == q)

/-- R438: the launches of an operation complete with a status. -/
def State.endLaunches (s : State) (handle q : Nat) (st : Status) (result : Nat) : State :=
  (s.launches handle q).foldl (fun t d => t.complete d st result 0) s

/-- R438, R443: the record goes to RECORD_ADDR, and the launches complete. -/
def State.tellHost (s : State) (i : Nat) (o : OpSt) (record : List Byte) : State :=
  match s.group i with
  | none => s
  | some g =>
    let handle := handleOf i g
    let t := match s.launches handle o.seq with
      | d :: _ => if o.recordAddr = 0 then s else s.descWrite d o.recordAddr record
      | [] => s
    t.endLaunches handle o.seq (if o.replayed || o.reruns != 0 then .successAfterReplay else .success) (o.time % 2 ^ 64)

/-- R443 to R445, R449: an operation's record is produced. R444: a group with a parent sends its members none. A rerun
asked for before this follows it. -/
def State.produce (s : State) (i q : Nat) : State :=
  match (s.armed i).bind (fun a => a.op q) with
  | none => s
  | some o0 =>
    let r := s.record i
    let o := if zeroLength r o0 then { o0 with mapGen := s.rd RE_TILE_MAP_GEN_GEN 0, time := s.now } else o0
    let record := s.recordBytes i o
    let again := o.rerun && !o.produced
    let u := s.modOp i q (fun x => { x with produced := true, rerun := false, time := o.time, mapGen := o.mapGen, holds := [], delay := o.heldUp s.now })
    let v := u.tellHost i o record
    let w := if grHasParent r then v else (List.range (grMembers r)).foldl (fun x m => x.sendRecord i q m record) v
    (if again then w.startRerun i q else w).settleRelease i

/-! ### Legs move on (R423, R437, R445) -/

/-- R449: an operation has run to its end on a leg; on the last of them its record is produced, once for each run. -/
def State.legDone (s : State) (i l q : Nat) : State :=
  let t := s.modOp i q (fun o => { o with legsDone := if o.legsDone.contains l then o.legsDone else o.legsDone ++ [l] })
  match (t.armed i).bind (fun a => a.op q) with
  | some o => if (o.rerun || !o.produced) && (List.range (grLegs (t.record i))).all (fun k => o.legsDone.contains k) then t.produce i q else t
  | none => t

/-- R423, R437: the operation a leg takes up next, and whether it is a rerun. -/
def Armed.nextFor (a : Armed) (r : List Byte) (g : LegSt) : Option (Nat × Bool) :=
  match g.reruns with
  | q :: _ => some (q, true)
  | [] =>
    let empty := a.countOf r g.next == some 0
    let launched := match a.op g.next with
      | some o => o.launched
      | none => false
    if a.serves g.next && (a.countOf r g.next).isSome && (!empty || launched) then some (g.next, false) else none

/-- A leg takes an operation up. -/
def LegSt.takeUp (g : LegSt) (q : Nat) (rerun : Bool) : LegSt :=
  if rerun then { g with cur := some (q, true, 0), reruns := g.reruns.drop 1 } else { g with cur := some (q, false, 0), next := wrapAdd 32 q 1 }

/-- R423, R437, R445: a leg that serves nothing takes up its next operation; one without blocks ends at once. -/
def State.advanceLeg (s : State) (i l : Nat) : Nat → State
  | 0 => s
  | fuel + 1 =>
    match s.armed i, s.leg i l with
    | some a, some g =>
      if g.cur.isSome then s
      else match a.nextFor (s.record i) g with
        | none => s
        | some (q, rerun) =>
          let t := (s.modLeg i l (fun v => v.takeUp q rerun)).modOp i q (fun o => { o with launched := true })
          if epochsOf (s.legSlot (s.record i) l) ((a.countOf (s.record i) q).getD 0) = 0 then
            State.advanceLeg ((t.modLeg i l (fun v => { v with cur := none })).legDone i l q) i l fuel
          else t
    | _, _ => s

/-- Every leg of a group moves on, and its halves take their targets. -/
def State.advance (s : State) (i : Nat) : State :=
  match s.armed i with
  | none => s
  | some a =>
    let fuel := a.ops.length + 2
    let t := (List.range (grLegs (s.record i))).foldl (fun u l => ((u.advanceLeg i l fuel).settleHalf i l 0).settleHalf i l 1) s
    t.showGroup i

/-! ### Acknowledgement (R446) -/

/-- R446: acknowledged operations at the front are forgotten. -/
def Armed.forget (a : Armed) : Nat → Armed
  | 0 => a
  | fuel + 1 =>
    match a.op a.oldest with
    | some o => if o.acked then Armed.forget { a with oldest := wrapAdd 32 a.oldest 1, ops := a.ops.filter (fun x => x.seq != o.seq) } fuel else a
    | none => a

/-- R446: an operation is acknowledged; its queued reruns fall away. DEDUCED (log 46): a relay device then acknowledges
to PARENT_ADDRESS. -/
def State.acknowledge (s : State) (i q : Nat) : State :=
  let t := s.modOp i q (fun o => { o with acked := true })
  let u := t.modArmed i (fun a =>
    let b := a.forget (a.ops.length + 1)
    { b with legs := b.legs.map (fun g => { g with reruns := g.reruns.filter (fun x => x != q) }) })
  let r := s.record i
  let v := if grHasParent r then u.groupAck i q 0 (grParentAddress r) .success else u
  v.advance i

/-- The registered group that a descriptor names, where it is in the descriptor's partition. -/
def State.groupFor (s : State) (d : Desc) (handle : Nat) : Option (Nat × GroupSt) :=
  (s.groupBy handle).filter (fun ig => ig.2.partition == d.partition)

/-- R446: what RESULT_ACK answers for an operation of an armed group. -/
def Armed.ackStatus (a : Armed) (q : Nat) : Status :=
  if seqBefore q a.oldest then .success
  else match a.op q with
    | none => .notFound
    | some o => if !o.launched then .notFound else if o.produced then .success else .busy

/-- R446, R452: what RESULT_ACK answers for a version of a job-start broadcast. -/
def Bcast.ackStatus (b : Bcast) (members q : Nat) : Status :=
  match b.held with
  | some (v, _) => if v = q then (if members ≤ b.acks.length then .success else .busy) else if seqBefore q v then .success else .notFound
  | none => .notFound

/-- RESULT_ACK (R446). -/
def execResultAck (ring : Fin 4096) (s : State) : Res :=
  runOpcode ring.val 0x35 false (fun d t =>
    match t.groupFor d (d.u32 24) with
    | none => t.complete d .notFound 0 0
    | some (i, g) =>
      match g.armed with
      | none => t.complete d .success 0 0
      | some a =>
        if grOp g.record = 7 then t.complete d (g.bcast.ackStatus (grMembers g.record) (d.u32 28)) 0 0
        else
          let st := a.ackStatus (d.u32 28)
          (if st = .success then t.acknowledge i (d.u32 28) else t).complete d st 0 0) s

end Sys2Proof.Machine
end

