-- ==== Sys2Proof/Machine/Steer.lean ====
section
/-! DEFINITION. Steering contributions (R164, R331 to R343 at landing, R431 to R436, R451): the checks a contribution
passes, where it lands, and what its tail makes of it. -/

namespace Sys2Proof.Machine

/-! ### Checks 5 to 8 of R431 -/

/-- R419: the leg that member `m` contributes to, and its source index there. -/
def legOfMember (r : List Byte) (m : Nat) : Nat × Nat :=
  if grLegs r = 1 then (0, if grSingle r then 0 else m) else (grLeafOf r m, m - grLegFirst r (grLeafOf r m))

/-- Check 7 of R431, with R432: the reason of R462 that block `b` of an operation of `n` elements breaks. -/
def check7 (r : List Byte) (p : OpSlot) (member : Option Nat) (n b len : Nat) : Option Nat :=
  let nb := blocksOf n p.e
  if nb ≤ b then some 4
  else if grSingle r && member != some (contributor r nb b) && member.isSome then some 4
  else if len ≠ payloadBytes p.inF (blockElems n p.e b) then some 5
  else none

/-- The elements of a payload whose operation's count is unknown, by its length. -/
def elemsOf (p : OpSlot) (len : Nat) : Option Nat := (List.range (p.e + 1)).reverse.find? (fun n => payloadBytes p.inF n == len)

/-- The elements a contribution carries, or the reason it is dropped under check 7. -/
def contributionElems (r : List Byte) (p : OpSlot) (count member : Option Nat) (b len : Nat) : Sum Nat Nat :=
  match count with
  | some n => match check7 r p member n b len with
    | some reason => .inr reason
    | none => .inl (blockElems n p.e b)
  | none => match elemsOf p len with
    | some e => .inl e
    | none => .inr 5

/-- Which of a half's uses an epoch of an operation is: the current one, the next, or a later one (R434). -/
def useRank (uses : List Use) (q j : Nat) : Option Nat := findPlace (fun u => u.seq == q && u.j == j) uses

/-- R433, R434: what becomes of a contribution that passed the other checks. -/
inductive Slot where
  | frame
  | early
  | copy
  | drop (reason : Nat)
  deriving DecidableEq, Repr

/-- Check 8 of R431. -/
def State.slotFor (s : State) (i l q b src : Nat) : Slot :=
  let p := s.legSlot (s.record i) l
  let j := b / p.bpe
  let h := j % 2
  match useRank (s.halfUses i l h) q j, s.leg i l with
  | some 0, _ =>
    let (k, f) := s.spot i l h b src
    match s.landed (s.legTile (s.record i) l k) f with
    | none => .frame
    | some x => if x.same q b src then (if x.counted then .drop 6 else .copy) else .drop 7
  | some 1, some g =>
    let (k, f) := p.place b src
    match g.earlyAt (256 * k + f) with
    | none => .early
    | some (h', x) => if h' = h ∧ x.same q b src = true then .drop 6 else .drop 7
  | some _, _ => .drop 7
  | none, some g => if seqBefore q g.next then .drop 6 else .drop 7
  | none, none => .drop 7

/-- R434: a contribution is written where it belongs: its frame or its early slot. -/
def State.landIn (s : State) (i l q b src : Nat) (early : Bool) (elems check : Nat) (payload : List Byte) : Place × State :=
  let r := s.record i
  let p := s.legSlot r l
  let h := b / p.bpe % 2
  let x : Landed := ⟨q, b, src, false, check, elems⟩
  if early then
    let key := 256 * (p.place b src).1 + (p.place b src).2
    (.early i l key h, s.fillEarly i l key h x payload)
  else
    let (k, f) := s.spot i l h b src
    (.frame i l (s.legTile r l k) f, s.fillFrame (s.legTile r l k) f x payload)

/-! ### Waiting in the buffer (R433, R435) -/

/-- The cells that a contribution takes while it waits: its ingress account's, or COLL credits. -/
def State.waitCharge (s : State) (n : Nat) (h : Hdr) (len : Nat) : Admit :=
  if s.isFabric n then .charge .pool else s.admitAcct n (s.ethernetClass n h) (homeDie n) (cellsOf len)

/-- R435: a contribution waits in its home switch die's buffer, or is dropped for want of room. -/
def State.holdBack (s : State) (n f : Nat) (h : Hdr) (packet : List Byte) (cause : WaitCause) : Place × State :=
  match s.waitCharge n h (packet.length + 4) with
  | .drop k => (.dropped, s.portAdd n k 1)
  | .charge k =>
    let t := s.modFrame f (fun x => { x with charges := [(homeDie n, k, cellsOf (packet.length + 4))] })
    let l := t.cl.waits ++ [⟨packet, n, f, cause, false⟩]
    (.waits, { t with cl := { t.cl with waits := l } })

/-! ### The checks of R431 -/

/-- R451, R437: a contribution without elements, or the reason it is dropped. -/
def emptyFault (c : Sceca) : Option Nat := if c.block ≠ 0 then some 4 else if c.payloadLen ≠ 0 then some 5 else none

/-- R437, R451: contributions of the operation arrive without a frame: a barrier's, and those of an IMPLICIT operation
of no elements. -/
def arrivesEmpty (r : List Byte) (a : Armed) : Bool := grOp r == 6 || (!grHost r && a.count == 0)

/-- R305: the source of a packet that came with CE is noted for its operation. -/
def State.noteCe (s : State) (i q : Nat) (h : Hdr) : State :=
  match h.ip with
  | some v => if h.ceMarked then s.modOp i q (fun o => if o.ce.contains v.src then o else { o with ce := o.ce ++ [v.src] }) else s
  | none => s

/-- The reduction die of a group's tiles. -/
def recordDie (r : List Byte) : Nat := grManifest r / 64

/-- R29: a contribution that came in on port `n` gets through to the tiles of reduction die `d`: it leaves its home switch die, where
every wait of a contribution is (R435), by the bridges on its way. -/
def State.reachesTiles (s : State) (n d : Nat) : Bool := s.passes (n / 256) (6 + d)

/-- Checks 5 to 8 of R431 on a contribution to an armed group, and R29: one that a bridge holds up waits. -/
def State.steerArmed (s : State) (n f i : Nat) (a : Armed) (packet : List Byte) (h : Hdr) (c : Sceca) : Place × State :=
  let r := s.record i
  let q := c.sequence
  if seqBefore q a.oldest then (.dropped, s.clDrop 3 (some n))
  else if 4 ≤ wrapSub 32 q a.oldest then (.dropped, s.clDrop 7 (some n))
  else
    if arrivesEmpty r a then
      match emptyFault c with
      | some k => (.dropped, s.clDrop k (some n))
      | none => (.arrival i, s)
    else
      let (l, src) := legOfMember r c.source
      match contributionElems r (s.legSlot r l) (a.countOf r q) (some c.source) c.block c.payloadLen with
      | .inr k => (.dropped, s.clDrop k (some n))
      | .inl e =>
        if !s.reachesTiles n (recordDie r) then s.holdBack n f h packet .bridge
        else match s.slotFor i l q c.block src with
        | .frame => s.landIn i l q c.block src false e c.check (c.payload packet)
        | .early => s.landIn i l q c.block src true e c.check (c.payload packet)
        | .copy => s.holdBack n f h packet .copy
        | .drop k => (.dropped, s.clDrop k (some n))

/-- R305: bit 6 of FLAGS toward the source of a packet, from packets of its operation that came with CE: this one, those noted and
those that wait. -/
def State.echoFor (s : State) (h : Hdr) (c : Sceca) (src : List Byte) : Nat :=
  let same := fun (w : Waiting) => match s.contribution w.packet with
    | some (g, e) => g.ceMarked && e.group == c.group && e.sequence == c.sequence && g.ip.any (fun v => v.src == src)
    | none => false
  let noted := match s.groupBy c.group with
    | some (i, _) => s.echo i c.sequence src
    | none => 0
  if h.ceMarked || s.cl.waits.any same then 64 else noted

/-- R431: a contribution addressed to the device is steered. -/
def State.steer (s : State) (n f : Nat) (packet : List Byte) (h : Hdr) (c : Sceca) : Place × State :=
  let src := match h.ip with
    | some v => v.src
    | none => []
  let st := if c.partition < 256 then (s.part c.partition).state else PartState.free
  if st ≠ .active then
    let t := s.clDrop 1 (some n)
    (.dropped, if st = .draining then t.hopAck true c.partition c.group c.sequence c.versionNo (s.echoFor h c src) src .partitionDraining else t)
  else match (s.groupBy c.group).filter (fun ig => ig.2.partition == c.partition) with
    | none => (.dropped, s.clDrop 0 (some n))
    | some (i, g) =>
      let r := g.record
      if grMembers r ≤ c.source ∨ (grOp r = 5 ∧ c.source ≠ grRoot r) ∨ grOp r = 7 then (.dropped, s.clDrop 4 (some n))
      else match g.armed with
        | none => s.holdBack n f h packet .arming
        | some a => if a.disarm.isSome && !a.serves c.sequence then s.holdBack n f h packet .arming else s.steerArmed n f i a packet h c

/-! ### Counting (R342, R343) -/

/-- R342: the landing checker's verdict on a contribution. -/
inductive Checked where
  | ok
  | format
  | check
  deriving DecidableEq, Repr

/-- R342: a contribution's check word is of KIND 1 or differs from the exact check in RESIDUE or SPECIAL. -/
def checkDisagrees (w exact : Nat) : Bool := checkKind w || checkResidue w != checkResidue exact || checkSpecial w != checkSpecial exact

/-- R342: the verdict for a payload of `n` elements on an operation slot. -/
def landingVerdict (p : OpSlot) (n : Nat) (c : Sceca) (payload : List Byte) : Checked :=
  if c.format ≠ p.inF then .format
  else if checkDisagrees c.check (contributionCheck p.inF n payload) then .check
  else .ok

/-- R342, R448: what a contribution that fails at landing sets, counts and asks for. -/
def State.landingFails (s : State) (v : Checked) (i n : Nat) (c : Sceca) : State :=
  let d := recordDie (s.record i)
  match v with
  | .ok => s
  | .format => (s.portAdd n 26 1).setErr RE_ERR_FORMAT_MISMATCH d
  | .check =>
    let t := ((s.setErr RE_ERR_LANDING_CHECK d).addWrap RE_CHECK_COUNT_LANDING_FAIL d 1).raise
      { code := 0x0502, kind := 13, logical := i, die := 6 + d, detail1 := c.block, group := c.group, sequence := c.sequence }
    let r := s.record i
    (if grNoLegs r then t else t.awaitReplay i (legOfMember r c.source).1 c.sequence c.block).askReplay i c.sequence c.source c.block

/-- R451: the barrier of a group whose members have all arrived is complete; the mooring counts the next one. -/
def State.settleBarrier (s : State) (i : Nat) : Nat → State
  | 0 => s
  | fuel + 1 =>
    match s.armed i, s.leg i 0 with
    | some a, some g =>
      match a.op g.next with
      | some o =>
        if o.arrived.length = grMembers (s.record i) ∧ (grHost (s.record i) = false ∨ o.launched = true) then
          let t := (s.modOp i g.next (fun x => { x with launched := true })).modLeg i 0 (fun v => { v with next := wrapAdd 32 v.next 1 })
          State.settleBarrier (State.setMooring (t.produce i g.next) (grMooring (s.record i)) ⟨0, (s.mooring (grMooring (s.record i))).target, (s.mooring (grMooring (s.record i))).action⟩) i fuel
        else
          let m := grMooring (s.record i)
          let v := s.mooring m
          if v.count = o.arrived.length then s else s.updateMooring m { v with count := o.arrived.length }
      | none => s
    | _, _ => s

/-- R342, R437, R451: a contribution without elements is counted; its FORMAT is to be 0x00, and its check that of no elements. -/
def State.arrive (s : State) (i n : Nat) (c : Sceca) : State :=
  let q := c.sequence
  match s.armed i with
  | none => s
  | some a =>
    let r := s.record i
    if seqBefore q a.oldest then s.clDrop 3 (some n)
    else if c.format ≠ 0 then s.landingFails .format i n c
    else if checkDisagrees c.check 0 then s.landingFails .check i n c
    else
      let o := (a.op q).getD (freshOp q 0)
      if grOp r = 6 then
        if o.arrived.contains c.source then s.clDrop 6 (some n)
        else (State.settleBarrier (s.modOp i q (fun x => { x with begun := true, arrived := x.arrived ++ [c.source] })) i 5).showGroup i
      else if o.launched then s.clDrop 6 (some n)
      else State.advance (s.modOp i q (fun x => { x with launched := true, begun := true })) i

/-- The tail of a waiting contribution has passed. -/
def State.keepWaiting (s : State) (f : Nat) : State :=
  let l := s.cl.waits.map (fun w => if w.frame == f then { w with counted := true } else w)
  State.modFrame { s with cl := { s.cl with waits := l } } f (fun x => { x with checked := true })

/-- R164, R342, R433: a contribution whose tail has passed is counted where it landed, or leaves no trace. -/
def State.finish (s : State) (n : Nat) (packet : List Byte) (place : Place) (f : Nat) : State :=
  match s.contribution packet with
  | none => s.dropFrame f
  | some (_, c) =>
    let payload := c.payload packet
    match place with
    | .frame i l t k =>
      let p := s.legSlot (s.record i) l
      let half := p.halfOf k
      match s.landed t k with
      | some x =>
        if x.counted || x.seq != c.sequence || x.block != c.block then s.dropFrame f
        else match landingVerdict p x.elems c payload with
          | .ok => (State.dropCopies (s.countFrame i l half t k) c.group c.sequence c.block c.source).dropFrame f
          | v => (State.wakeCopy ((s.freeFrame t k).landingFails v i n c) i l half t k x c.source).dropFrame f
      | none => s.dropFrame f
    | .early i l key half =>
      let p := s.legSlot (s.record i) l
      match (s.leg i l).bind (fun g => g.earlyAt key) with
      | some (h', x) =>
        if x.counted || h' != half || x.seq != c.sequence || x.block != c.block then s.dropFrame f
        else match landingVerdict p x.elems c payload with
          | .ok => State.dropFrame (s.modLeg i l (fun g => { g with early := sput key (half, { x with counted := true }) g.early })) f
          | v => ((s.freeEarly i l key).landingFails v i n c).dropFrame f
      | none =>
        -- the early slot has been moved into its frame meanwhile (R434)
        let r := s.record i
        let t := s.legTile r l (key / 256)
        let k := p.frame half (key % 256)
        match s.landed t k with
        | some x =>
          if x.counted || x.seq != c.sequence || x.block != c.block then s.dropFrame f
          else match landingVerdict p x.elems c payload with
            | .ok => (State.dropCopies (s.countFrame i l half t k) c.group c.sequence c.block c.source).dropFrame f
            | v => (State.wakeCopy ((s.freeFrame t k).landingFails v i n c) i l half t k x c.source).dropFrame f
        | none => s.dropFrame f
    | .arrival i => (s.arrive i n c).dropFrame f
    | .waits =>
      let copy := s.cl.waits.any (fun w => w.frame == f && w.cause == .copy)
      match s.groupBy c.group with
      | some (i, g) =>
        let (l, _) := legOfMember g.record c.source
        let p := s.legSlot g.record l
        let count := (g.armed.bind (fun a => a.countOf g.record c.sequence))
        match contributionElems g.record p count (some c.source) c.block c.payloadLen with
        | .inl e =>
          let v := landingVerdict p e c payload
          if copy && v != .ok then (((s.keepWaiting f).unwait f).landingFails v i n c).dropFrame f else s.keepWaiting f
        | .inr _ => s.keepWaiting f
      | none => s.keepWaiting f
    | .dropped => s.dropFrame f

/-- R305: the source of a contribution that came whole with CE is noted for its operation, once its group is armed. -/
def State.noteCeWhole (s : State) (packet : List Byte) : State :=
  match s.contribution packet with
  | none => s
  | some (h, c) => match (s.groupBy c.group).filter (fun ig => ig.2.partition == c.partition) with
    | some (i, g) => if g.armed.any (fun a => !seqBefore c.sequence a.oldest && decide (wrapSub 32 c.sequence a.oldest < 4)) then s.noteCe i c.sequence h else s
    | none => s

/-- R24, R435: a contribution that waited for arming or for a bridge is steered. -/
def State.resteer (s : State) (w : Waiting) : State :=
  match s.contribution w.packet with
  | none => s
  | some (h, c) =>
    let t := s.unwait w.frame
    match t.steer w.port w.frame w.packet h c with
    | (.waits, u) =>
      let l := u.cl.waits.map (fun x => if x.frame == w.frame then { x with counted := w.counted } else x)
      { u with cl := { u.cl with waits := l } }
    | (place, u) =>
      if w.counted then (u.noteCeWhole w.packet).finish w.port w.packet place w.frame
      else match u.inflight w.port with
        | some x => (u.freeCells w.frame).setInflight w.port { x with place := place }
        | none => u

/-- R435: the contributions that wait for a group are steered once it is armed. -/
def State.resteerGroup (s : State) (handle : Nat) : State :=
  (s.cl.waits.filter (fun w => w.cause == .arming && (match s.contribution w.packet with
    | some (_, c) => c.group == handle
    | none => false))).foldl (fun t w => t.resteer w) s

/-- R24, R29: the contributions that wait for a bridge are steered again. -/
def State.resteerBridge (s : State) : State := (s.cl.waits.filter (fun w => w.cause == .bridge)).foldl (fun t w => t.resteer w) s

/-! ### Arrival from a port -/

/-- A contribution's FrameSt: it stands for the packet while its tail is awaited. -/
def contributionFrame (n cls net : Nat) (misnet : Bool) (packet : List Byte) (flow : Option (Nat × Nat)) : FrameSt :=
  { FrameSt.blank with ingress := some n, bytes := packet, cls := cls, net := net, credit := net, misnet := misnet, len := packet.length + 4, raw := packet,
                       flow := flow }

/-- R187, R399: what drops a packet for the device at its head, counted in DROP_SCECA or, on a port that is not ready, in
DROP_PORT_DOWN. -/
def State.refusedAtHead (s : State) (n vn : Nat) (c : Sceca) : Option State :=
  if !s.portReady n then some (s.portAdd n 20 1)
  else if s.pairPort n then some (s.portAdd n 26 1)
  else if s.isFabric n && c.vnet != vn then some ((s.setErr PC_LINK_ERR_VN_MISMATCH n).portAdd n 26 1)
  else none

/-- R299, R300: a contribution's packet is stored and counted in its fence slot. -/
def State.takeContribution (s : State) (n vn : Nat) (packet : List Byte) (h : Hdr) (c : Sceca) : State :=
  let hash := s.channelHash h (some c)
  let flow := s.flowIndex (n / 128) hash
  let a := s.flowAdd flow ⟨1, 0, bit h.ceMarked, 0⟩
  let misnet := s.wrongNet n vn (some c)
  let (f, b) := a.storeFrame (contributionFrame n (if s.isFabric n then vn else s.ethernetClass n h) (if s.isFabric n then vn else c.vnet) misnet packet flow) []
  let d := if strictChannel h (some c) then b else b.admitFence (hash % 65536) f c.fence
  if misnet then d.setInflight n ⟨packet, .dropped, f⟩
  else match d.refusedAtHead n vn c with
  | some e => e.setInflight n ⟨packet, .dropped, f⟩
  | none =>
    let (place, e) := d.steer n f packet h c
    e.setInflight n ⟨packet, place, f⟩

/-- R431: a contribution's head arrives. -/
def contributionReceived (n : Nat) (tag : Option (BitVec 48)) (packet : List Byte) (s : State) : State :=
  if s.link n ≠ 3 ∨ (s.port n).arriving.isSome = true ∨ (s.inflight n).isSome = true then s
  else match s.contribution packet with
    | none => s
    | some (h, c) =>
      if s.isFabric n then
        match s.tagVerdict n tag with
        | .accept => s.takeContribution n (tagVn (tag.getD 0).toNat) packet h c
        | .duplicate => s.linkDuplicate n
        | .reject => s.tagReject n tag
      else s.takeContribution n 0 packet h c

/-- CONTRIBUTION_RECEIVED (R431). -/
def execContributionReceived (port : Fin 1024) (tag : Option (BitVec 48)) (packet : List Byte) (s : State) : Res :=
  whenLive (contributionReceived port.val tag packet) s

/-- R164, R195: a contribution's tail arrives and is judged. -/
def contributionCounted (n : Nat) (fcs : Fcs) (s : State) : State :=
  match s.inflight n with
  | none => s
  | some x =>
    let len := x.packet.length + 4
    let flow := (s.frame x.frame).bind (fun y => y.flow)
    let fault := tailFault x.packet fcs
    let t := (s.flowAdd flow ⟨0, len, 0, if x.place == .dropped then 1 else 0⟩).linkTail n fault.isNone
    match fault with
    | some (k, _) => (t.portAdd n k 1).undoInflight n
    | none =>
      if t.rd PC_PORT_CFG_MAX_FRAME n < len then
        (if t.isFabric n then t.returnCredit n (((s.frame x.frame).map (fun y => y.credit)).getD 0) (cellsOf len) else t).portAdd n 25 1 |>.undoInflight n
      else
      let y := s.frame x.frame
      let u := ((t.clearInflight n).countRx n len).reportNet n (y.any (fun z => z.misnet))
      let v := if u.isFabric n && x.place != .waits then u.returnCredit n ((y.map (fun z => z.credit)).getD 0) (cellsOf len) else u
      (v.noteCeWhole x.packet).finish n x.packet x.place x.frame

/-- CONTRIBUTION_COUNTED (R164, R342). -/
def execContributionCounted (port : Fin 1024) (fcs : Fcs) (s : State) : Res := whenLive (contributionCounted port.val fcs) s

/-- R435: the contribution that has waited longest for arming is dropped, and its source told. -/
def armWaitExpiry (s : State) : State :=
  match s.cl.waits.find? (fun w => w.cause == .arming) with
  | none => s
  | some w =>
    match s.contribution w.packet with
    | none => (s.unwait w.frame).dropFrame w.frame
    | some (h, c) =>
      let t := (s.unwait w.frame).clDrop 2 (some w.port)
      let u := if w.counted then t.dropFrame w.frame
        else match t.inflight w.port with
          | some x => (t.freeCells w.frame).setInflight w.port { x with place := .dropped }
          | none => t
      let told := s.cl.notices.any (fun e =>
        e.1 == c.group && e.2.1 == c.sequence && e.2.2.1 == c.source && decide (s.now < e.2.2.2 + 1000 * s.rd CL_CFG_ARM_WAIT_US 0))
      let src := match h.ip with
        | some v => v.src
        | none => []
      let strict := match s.groupBy c.group with
        | some (_, g) => grStrict g.record
        | none => true
      if told then u
      else
        let kept := u.cl.notices.filter (fun e => !(e.1 == c.group && e.2.1 == c.sequence && e.2.2.1 == c.source))
        State.hopAck { u with cl := { u.cl with notices := kept ++ [(c.group, c.sequence, c.source, s.now)] } } strict c.partition c.group
          c.sequence c.versionNo (s.echoFor h c src) src .notReady

/-- ARM_WAIT_EXPIRY (R435). -/
def execArmWaitExpiry (s : State) : Res := whenLive armWaitExpiry s

end Sys2Proof.Machine
end

