-- ==== Sys2Proof/Machine/Arm.lean ====
section
/-! DEFINITION. Registering groups (R410 to R418, R457) and arming and disarming their contexts (R421 to R425). -/

namespace Sys2Proof.Machine

/-! ### The pool of groups (R416, R457) -/

/-- A group is forgotten: its index is free. -/
def State.dropGroup (s : State) (i : Nat) : State := State.showGroup { s with cl := { s.cl with groups := sdel i s.cl.groups } } i

/-- The least number that a rising list, read from `k` on, leaves out. -/
def lowestFree : Nat → List Nat → Nat
  | k, [] => k
  | k, j :: r => if j = k then lowestFree (k + 1) r else k

/-- The group that was retained first. -/
def State.oldestRetained (s : State) : Option Nat :=
  (s.cl.groups.foldl (fun (best : Option (Nat × Nat)) kv =>
    match kv.2.retained, best with
    | none, _ => best
    | some (_, o), none => some (kv.1, o)
    | some (_, o), some (j, p) => if o < p then some (kv.1, o) else some (j, p)) none).map (fun x => x.1)

/-- R416: the member entries held, retained groups counted. -/
def State.memberEntries (s : State) : Nat := (s.cl.groups.map (fun kv => grMembers kv.2.record)).sum

/-- R416: the member entries of the group that a REPLACE gives up. -/
def State.replaced (s : State) (old : Option Nat) : Nat := match old with
  | some i => grMembers (s.record i)
  | none => 0

/-- R416: there is room for `m` member entries, and a handle where none is replaced. -/
def State.groupRoom (s : State) (old : Option Nat) (m : Nat) : Bool :=
  (old.isSome || decide (s.cl.groups.length < 32768)) && decide (s.memberEntries - s.replaced old + m ≤ 1048576)

/-- R457: retained groups make room, the oldest first; none where even that is not enough. -/
def State.makeRoom (s : State) (old : Option Nat) (m : Nat) : Nat → Option State
  | 0 => if s.groupRoom old m then some s else none
  | fuel + 1 =>
    if s.groupRoom old m then some s
    else match s.oldestRetained with
      | some i => State.makeRoom (s.dropGroup i) old m fuel
      | none => none

/-- R416: the TAG that the next registration at an index takes. -/
def State.nextTag (s : State) (i : Nat) : Nat := if sget 0 s.cl.tags i = 0xFFFF then 1 else sget 0 s.cl.tags i + 1

/-- R416: a group is registered at the lowest free index (log 47); its handle and the state. -/
def State.newGroup (s : State) (p : Nat) (r : List Byte) : Nat × State :=
  let i := lowestFree 0 (s.cl.groups.map (fun kv => kv.1))
  let g : GroupSt := ⟨s.nextTag i, r, p, none, Bcast.reset, none⟩
  let t : State := { s with cl := { s.cl with tags := sset 0 i (s.nextTag i) s.cl.tags } }
  (handleOf i g, (t.setGroup i g).showGroup i)

/-- R457: the retained group that a record restores. -/
def State.restorable (s : State) (p : Nat) (r : List Byte) : Option (Nat × GroupSt) :=
  s.cl.groups.find? (fun kv => kv.2.partition == p && kv.2.record == r && (match kv.2.retained with
    | some (gen, _) => gen == s.rd CL_PART_GEN_GEN p
    | none => false))

/-- R417: members keep their acknowledgement of the held version where their entry stays as it is (log 48). -/
def Bcast.replaced (b : Bcast) (old new : List Byte) : Bcast :=
  let same := fun m => decide (m < grMembers new) && slice old (grMemberAt old m) 32 == slice new (grMemberAt new m) 32
  { b with acks := b.acks.filter same, resends := b.resends.filter (fun kv => same kv.1) }

/-! ### The checks of R415 -/

/-- R415 check 6: the landing moorings and the start of the device area are the partition's. -/
def State.ownsRecord (s : State) (p : Nat) (r : List Byte) : Bool :=
  (List.range (grMoorings r)).all (fun k =>
    (s.assigned 3).any (fun e => decide (e.base ≤ grMooring r + k ∧ grMooring r + k ≤ e.limit) && e.serves p)) &&
  (grOp r == 6 || s.regionTest 5 p (grArea r) 1 == .inside)

/-- R415 checks 1 to 6: a status and its DETAIL; `old` is the group that a REPLACE names. -/
def State.recordRefused (s : State) (p : Nat) (r : List Byte) (old : Option (Nat × GroupSt)) : Option (Status × Nat) :=
  match recordFault r with
  | some o => some (.badField, o)
  | none =>
    if !implicitOk r then some (.badField, 4)
    else if grReplace r && old.isNone then some (.notFound, 0)
    else if old.any (fun ig => ig.2.armed.isSome && grOp ig.2.record != 7) then some (.busy, 0)
    else match (old.filter (fun ig => ig.2.armed.isSome)).bind (fun ig => broadcastChange ig.2.record r) with
      | some o => some (.badField, o)
      | none =>
        if !slotsFit r then some (.lengthExceedsRegion, 0)
        else if !s.ownsRecord p r then some (.protectionFault, 0)
        else none

/-! ### The job-start broadcast toward members (R452) -/

/-- Blocks of a version of `len` bytes. -/
def versionBlocks (len : Nat) : Nat := ceilDiv len 8192

/-- R452: one block of the held version goes to a member. -/
def State.sendBlock (s : State) (i m v len b : Nat) : State :=
  match s.group i with
  | none => s
  | some g =>
    let r := g.record
    let relay := grIsRelay r m
    let body := s.memBytes (grArea r + 8192 * b) (min 8192 (len - 8192 * b))
    let last := if b + 1 = versionBlocks len then 32 else 0
    let c := blankSceca 5 (3 + last) g.partition (if relay then grRelayGroup r m else handleOf i g) 0 body
    s.originate none (grStrict r) (grAddress r m) { c with block := b, memoryKey := if relay then 0 else grKey r m, versionNo := v,
                                                           offset := if relay then 0 else grBase r m + 8192 * b,
                                                           check := checkWord false true (outputCheck body) } body

/-- R452: the held version goes to a member. -/
def State.sendVersion (s : State) (i m : Nat) : State :=
  match (s.group i).bind (fun g => g.bcast.held) with
  | some (v, len) => (List.range (versionBlocks len)).foldl (fun t b => t.sendBlock i m v len b) s
  | none => s

/-- The members of a group that have not acknowledged the held version. -/
def GroupSt.unackedMembers (g : GroupSt) : List Nat := (List.range (grMembers g.record)).filter (fun m => !g.bcast.acks.contains m)

/-- R438: the launches of a broadcast complete once every member has acknowledged the version held. -/
def State.settleBroadcast (s : State) (i : Nat) : State :=
  match s.group i with
  | none => s
  | some g =>
    if g.bcast.held.isSome && g.unackedMembers.isEmpty then
      State.settleRelease
        ((s.hi.descs.filter (fun d => d.started && d.opcode == 0x34 && d.u32 24 == handleOf i g)).foldl (fun t d => t.complete d .success t.now64 0) s) i
    else s

/-- R452: the held version goes to every member that has not acknowledged it. -/
def State.spreadVersion (s : State) (i : Nat) : State :=
  match s.group i with
  | none => s
  | some g => (g.unackedMembers.foldl (fun t m => t.sendVersion i m) s).settleBroadcast i

/-- R417: a group's record is replaced; it keeps its handle and TAG. -/
def State.replaceGroup (s : State) (i : Nat) (r : List Byte) : State :=
  let t := (s.modGroup i (fun g => { g with record := r, bcast := g.bcast.replaced g.record r })).showGroup i
  if (t.armed i).isSome then t.spreadVersion i else t

/-! ### GROUP_REGISTER and GROUP_RELEASE -/

/-- R415, R457: a group record that was read is checked and registered, or restored. -/
def State.registerGroup (s : State) (d : Desc) (r : List Byte) : State :=
  match s.restorable d.partition r with
  | some (i, g) =>
    ((s.setGroup i { g with retained := none }).showGroup i).complete d .success (2 ^ 32 + handleOf i g) 0
  | none =>
    let old := if grReplace r then s.groupFor d (grGroup r) else none
    match s.recordRefused d.partition r old with
    | some (st, detail) => s.complete d st 0 detail
    | none =>
      match s.makeRoom (old.map (fun ig => ig.1)) (grMembers r) (s.cl.groups.length + 1) with
      | none => s.complete d .quotaExceeded 0 0
      | some t =>
        match old with
        | some (i, _) => (t.replaceGroup i r).complete d .success (grGroup r) 0
        | none =>
          let (handle, u) := t.newGroup d.partition r
          u.complete d .success handle 0

/-- GROUP_REGISTER (R415). -/
def execGroupRegister (ring : Fin 4096) (data : HostData) (s : State) : Res :=
  runOpcode ring.val 0x30 true (fun d t =>
    match hostBytes d data with
    | none => t.complete d .hostAccessError 0 0
    | some r => t.registerGroup d r) s

/-- GROUP_RELEASE (R418). -/
def execGroupRelease (ring : Fin 4096) (s : State) : Res :=
  runOpcode ring.val 0x31 false (fun d t =>
    match t.groupFor d (d.u32 24) with
    | none => t.complete d .notFound 0 0
    | some (i, g) => if g.armed.isSome then t.complete d .busy 0 0 else (t.dropGroup i).complete d .success 0 0) s

/-! ### Reservations (R422) -/

/-- What contexts reserve of a partition's quotas. -/
structure Holdings where
  contexts : Nat
  moorings : Nat
  landingKiB : Nat
  accumulators : Nat
  deriving DecidableEq, Repr

/-- Two holdings together. -/
def Holdings.plus (a b : Holdings) : Holdings :=
  ⟨a.contexts + b.contexts, a.moorings + b.moorings, a.landingKiB + b.landingKiB, a.accumulators + b.accumulators⟩

/-- R422: what one leg reserves. -/
def State.legHolds (s : State) (r : List Byte) (l : Nat) : Holdings :=
  if grNoLegs r then ⟨1, if grOp r = 6 then 1 else 0, 0, 0⟩
  else
    let p := s.legSlot r l
    ⟨1, 2, 16 * p.halfFrames * p.tileN, p.slots * p.tileN⟩

/-- R422: contexts of a group. -/
def grContexts (r : List Byte) : Nat := if grNoLegs r then 1 else grLegs r

/-- R422: what arming a group reserves. -/
def State.groupHolds (s : State) (r : List Byte) : Holdings :=
  (List.range (grContexts r)).foldl (fun h l => h.plus (s.legHolds r l)) ⟨0, 0, 0, 0⟩

/-- R422: what a group's unreleased contexts hold. -/
def State.armedHolds (s : State) (g : GroupSt) : Holdings := match g.armed with
  | none => ⟨0, 0, 0, 0⟩
  | some a => (a.legs.zipIdx.filter (fun x => decide (x.1.context < noContext))).foldl (fun h x => h.plus (s.legHolds g.record x.2)) ⟨0, 0, 0, 0⟩

/-- R101: what a partition holds. -/
def State.holdings (s : State) (p : Nat) : Holdings :=
  (s.cl.groups.filter (fun kv => kv.2.partition == p)).foldl (fun h kv => h.plus (s.armedHolds kv.2)) ⟨0, 0, 0, 0⟩

/-- The context numbers in use. -/
def State.contextsUsed (s : State) : List Nat :=
  s.cl.groups.flatMap (fun kv => match kv.2.armed with
    | some a => (a.legs.map (fun g => g.context)).filter (fun c => decide (c < noContext))
    | none => [])

/-- The `n` lowest numbers, from `k` on, that a list leaves out; `fuel` numbers are looked at. -/
def freeNumbers (used : List Nat) : Nat → Nat → Nat → List Nat
  | 0, _, _ => []
  | _ + 1, _, 0 => []
  | fuel + 1, k, n + 1 => if used.contains k then freeNumbers used fuel (k + 1) (n + 1) else k :: freeNumbers used fuel (k + 1) n

/-! ### The checks of R421 -/

/-- R420, R421 check 7: a leg's operation slot matches the group. -/
def State.legMatches (s : State) (r : List Byte) (l : Nat) : Bool :=
  let p := s.legSlot r l
  let x := exactForm (grIn r)
  decide (grLegSlot r l < mfOpSlots (s.mslot (grManifest r)).image) && p.rounding == grRounding r && p.sources == grSources r l &&
  (p.projF == 0 || !grHasRelay r) &&
  (if !grIsTop r l then p.inF == grIn r && p.outF == x && p.e == grE r
   else if grLegs r = 1 then p.inF == grIn r && p.outF == grOut r && p.e == grE r
   else p.inF == x && p.outF == grOut r && decide (0 < p.e) && grE r % p.e == 0)

/-- R422: bytes of a group's device area. -/
def State.areaBytes (s : State) (r : List Byte) : Nat :=
  if grOp r = 7 then 65536
  else ((List.range (grLegs r)).map (fun l => (s.legSlot r l).part * (s.legSlot r l).tileN)).sum

/-- R441: the result payload bytes of an operation of `n` elements toward one member, its part of them under REDUCE_SCATTER. -/
def resultBytes (r : List Byte) (p : OpSlot) (n : Nat) : Nat :=
  let nb := blocksOf n p.e
  let full := payloadBytes p.outF p.e
  if n = 0 ∨ (p.projF ≠ 0 ∧ p.sendMask.testBit 0 = false) ∨ grHasParent r = true then 0
  else if grOp r = 2 then nb / grMembers r * full
  else (nb - 1) * full + payloadBytes p.outF (n - (nb - 1) * p.e)

/-- R441: where the projections of an operation end, relative to Z of an operation. -/
def projectionEnd (m r : List Byte) (p : OpSlot) (n : Nat) : Nat :=
  if p.projF = 0 ∨ p.sendMask.testBit 1 = false ∨ n = 0 ∨ grHasParent r = true then 0
  else grProjOffset r + blocksOf n p.e * payloadBytes p.outF (p.e / (matrixOf m p.matrix).rows * (matrixOf m p.matrix).cols)

/-- R421 check 8, R439: with `z` the largest Z - BASE and `span` where the results end beyond Z, all lies below REGION_BYTES
and the results fit SLOT_BYTES. -/
def placementFits (m r : List Byte) (p : OpSlot) (n z span : Nat) : Bool :=
  decide (resultBytes r p n ≤ grSlotBytes r ∧ z + span ≤ grRegion r ∧ z + projectionEnd m r p n ≤ grRegion r)

/-- R421 check 8 of an armed element count. -/
def State.armFits (s : State) (r : List Byte) (n : Nat) : Bool :=
  grNoLegs r || (let p := s.legSlot r (topLeg r)
    placementFits (s.mslot (grManifest r)).image r p n ((grDataSlots r - 1) * grSlotBytes r) (resultBytes r p n))

/-- The group projects on some leg. -/
def State.projects (s : State) (r : List Byte) : Bool :=
  !grNoLegs r && s.slotState (grManifest r) == 2 && (List.range (grLegs r)).any (fun l => (s.legSlot r l).projF != 0)

/-- R421 checks 5 to 8 for a group with legs. -/
def State.legsRefused (s : State) (r : List Byte) (p n : Nat) : Option (Status × Nat) :=
  let k := grManifest r
  let m := (s.mslot k).image
  let area := s.regionTest 5 p (grArea r)
  if s.slotState k ≠ 2 then some (.notFound, 0)
  else if !(mfPartition m == p || mfPartition m == 0xFFFF) || grArea r / 2 ^ 38 != k / 64 || area 1 != .inside then some (.protectionFault, 0)
  else match (List.range (grLegs r)).find? (fun l => !s.legMatches r l) with
    | some l => some (.badField, 128 + 8 * l)
    | none => if s.armFits r n && area (max 1 (s.areaBytes r)) == .inside then none else some (.lengthExceedsRegion, 0)

/-- R421 checks 5 to 8. -/
def State.placeRefused (s : State) (r : List Byte) (p n : Nat) : Option (Status × Nat) :=
  if grOp r = 6 then none
  else if grOp r = 7 then
    match s.regionTest 5 p (grArea r) 65536 with
    | .inside => none
    | .runsPast => some (.lengthExceedsRegion, 0)
    | .outside => some (.protectionFault, 0)
  else s.legsRefused r p n

/-- R421 checks 9 and 10. -/
def State.quotaRefused (s : State) (r : List Byte) (p : Nat) : Option (Status × Nat) :=
  let q := s.part p
  let h := (s.holdings p).plus (s.groupHolds r)
  let slots := (List.range (grLegs r)).map (grLegSlot r)
  let bound := (s.mslot (grManifest r)).bound.map (fun b => b.1)
  if !decide (h.contexts ≤ q.contexts ∧ h.moorings ≤ q.moorings ∧ s.contextsUsed.length + grContexts r ≤ noContext) then some (.quotaExceeded, 0)
  else if !grNoLegs r && (slots.any (fun o => bound.contains o) || !decide slots.Nodup) then some (.noReductionMemory, 0)
  else if !decide (h.landingKiB ≤ q.landingKiB ∧ h.accumulators ≤ q.accumulators) then some (.noReductionMemory, 0)
  else none

/-- R421: the checks of CONTEXT_ARM from 3 on, for a registered group that is not armed. -/
def State.armRefused (s : State) (r : List Byte) (p n : Nat) : Option (Status × Nat) :=
  if !countOk r (s.projects r) n then some (.badField, 32)
  else if allZero (s.scecaAddr 0) then some (.notReady, 0)
  else (s.placeRefused r p n).or (s.quotaRefused r p)

/-! ### Arming (R421, R422, R430) -/

/-- A leg that has just been armed. -/
def freshLeg (context first : Nat) : LegSt :=
  { context := context, cur := none, next := first, reruns := [], half0 := ⟨none, 0⟩, half1 := ⟨none, 0⟩, early := [], owed := [] }

/-- A set-up that has just been armed. -/
def freshArmed (contexts : List Nat) (first n : Nat) : Armed :=
  { first := first, count := n, oldest := first, nextLaunch := first, legs := contexts.map (fun c => freshLeg c first), ops := [], lost := [], disarm := none }

/-- R422: a group's operation slots are bound. -/
def State.bindSlots (s : State) (i : Nat) (r : List Byte) : State :=
  if grNoLegs r then s
  else
    (s.modMslot (grManifest r) (fun x =>
      { x with bound := (List.range (grLegs r)).foldl (fun b l => sput (grLegSlot r l) (i, l) b) x.bound })).showSlot (grManifest r)

/-- R430, R451: the landing moorings of a group start from COUNT 0 with the TARGET of their first use. -/
def State.openMoorings (s : State) (i : Nat) (r : List Byte) : State :=
  if grOp r = 6 then s.setMooring (grMooring r) { s.mooring (grMooring r) with count := 0, target := grMembers r }
  else (List.range (grLegs r)).foldl (fun t l => (((t.clearHalf i l 0).settleHalf i l 0).clearHalf i l 1).settleHalf i l 1) s

/-- R421: a group is armed. -/
def State.armGroup (s : State) (i : Nat) (g : GroupSt) (first n : Nat) : State :=
  let r := g.record
  let cs := freeNumbers s.contextsUsed noContext 0 (grContexts r)
  let a := s.setGroup i { g with armed := some (freshArmed cs first n), bcast := Bcast.reset }
  (((a.bindSlots i r).openMoorings i r).advance i).showGroup i |>.resteerGroup (handleOf i g)

/-- CONTEXT_ARM (R421). DESIGN CHOICE (log 49): a repeat's RESULT is the number of contexts too. -/
def execContextArm (ring : Fin 4096) (s : State) : Res :=
  runOpcode ring.val 0x32 false (fun d t =>
    match t.groupFor d (d.u32 24) with
    | none => t.complete d .notFound 0 0
    | some (i, g) =>
      match g.armed with
      | some a =>
        if a.first = d.u32 28 ∧ a.count = d.u32 32 ∧ a.disarm.isNone = true then t.complete d .success a.legs.length 0 else t.complete d .busy 0 0
      | none =>
        match t.armRefused g.record d.partition (d.u32 32) with
        | some (st, detail) => t.complete d st 0 detail
        | none => (t.armGroup i g (d.u32 28) (d.u32 32)).complete d .success (grContexts g.record) 0) s

/-! ### Disarming (R424) -/

/-- A half of a leg is in use by an epoch that runs. -/
def State.halfRuns (s : State) (i l h : Nat) : Bool := match (s.mslot (grManifest (s.record i))).run with
  | some e => !e.void && e.live.any (fun v => v.group == i && v.leg == l && v.j % 2 == h)
  | none => false

/-- R424: a leg gives up what it holds for operations that are no longer served; the epoch that runs keeps its half to its
end. -/
def State.discardUnserved (s : State) (i l : Nat) : State :=
  match s.armed i with
  | none => s
  | some a =>
    let r := s.record i
    let freed := (List.range 2).foldl (fun t h =>
      let gone := if s.halfRuns i l h then [] else (t.halfFrames i l h).filter (fun x => !a.serves x.2.2.seq)
      let u := gone.foldl (fun v x => v.freeFrame (v.legTile r l x.1) x.2.1) t
      let m := halfMooring r l h
      u.setMooring m { u.mooring m with count := (u.halfFrames i l h).countP (fun x => x.2.2.counted) }) s
    freed.modLeg i l (fun g =>
      { g with early := g.early.filter (fun kv => a.serves kv.2.2.seq), owed := g.owed.filter (fun x => a.serves x.1),
               cur := g.cur.filter (fun c => a.serves c.1), reruns := g.reruns.filter a.serves })

/-- R424: the contexts of a group that is being released still complete operation `q`; a job-start broadcast has started once it
is launched. -/
def GroupSt.completes (g : GroupSt) (a : Armed) (last : Option Nat) (q : Nat) : Bool := match last with
  | none => false
  | some n => if grOp g.record = 7 then !seqBefore n q else a.serves q

/-- R424, R454: a group's contexts serve no more than what they must; launches of the others complete with a status. -/
def State.beginRelease (s : State) (i : Nat) (last : Option Nat) (st : Status) : State :=
  match s.group i with
  | none => s
  | some g =>
    let t := s.modArmed i (fun a => { a with disarm := some last })
    let waiting := t.hi.descs.filter (fun d => d.started && d.opcode == 0x34 && d.u32 24 == handleOf i g &&
      !((t.armed i).any (fun a => g.completes a last (d.u32 28))))
    let u := waiting.foldl (fun v d => v.complete d st 0 0) t
    let v := if grNoLegs g.record then u else (List.range (grLegs g.record)).foldl (fun w l => w.discardUnserved i l) u
    (v.advance i).showGroup i

/-- CONTEXT_DISARM (R424). -/
def execContextDisarm (ring : Fin 4096) (s : State) : Res :=
  runOpcode ring.val 0x33 false (fun d t =>
    match t.groupFor d (d.u32 24) with
    | none => t.complete d .notFound 0 0
    | some (i, g) =>
      if g.armed.isNone then t.complete d .success 0 0
      else (t.beginRelease i (some (d.u32 28)) .notFound).settleRelease i) s

end Sys2Proof.Machine
end

