-- ==== Sys2Proof/Machine/Launch.lean ====
section
/-! DEFINITION. COLLECTIVE_LAUNCH (R438 to R440) and the check of R432 that a launch brings. -/

namespace Sys2Proof.Machine

/-! ### The launch record (R439) -/

/-- Entry `k` of a launch record's segments. -/
def launchSegment (raw : List Byte) (k : Nat) : Nat × Nat × Nat := (le raw (64 + 16 * k) 4, le raw (68 + 16 * k) 4, le raw (72 + 16 * k) 5)

/-- The segments of a launch record. -/
def launchSegments (raw : List Byte) : List (Nat × Nat × Nat) := (List.range (le raw 16 2)).map (launchSegment raw)

/-- R439: faults of the segment entries, each to start at the block where the one before ended, from entry `k` on. -/
def segmentFaults (raw : List Byte) : List (Nat × Nat × Nat) → Nat → Nat → List Nat
  | [], _, _ => []
  | (first, blocks, _) :: rest, k, next =>
    let o := 64 + 16 * k
    (if first = next then [] else [o]) ++ (if 1 ≤ blocks then [] else [o + 4]) ++ nonZeroBytes raw (o + 13) (o + 16) ++
      segmentFaults raw rest (k + 1) (first + blocks)

/-- R439, R440: faults of a launch record for an operation of `nb` blocks whose results take `total` bytes at each member. -/
def launchFaults (r raw : List Byte) (nb total : Nat) : List Nat :=
  let n := le raw 16 2
  let gs := launchSegments raw
  let covered := (gs.map (fun g => g.2.1)).sum
  nonZeroBytes raw 13 16 ++ fieldFault (le raw 0 8 % 64 == 0) 0 ++
  fieldFault (decide (n ≤ 64) && (n == 0 || (grOp r != 2 && !grNoLegs r && decide (total ≤ 65536)))) 16 ++ nonZeroBytes raw 18 64 ++
  (if grOp r = 7 then fieldFault (decide (65 ≤ raw.length ∧ raw.length ≤ 64 + 65536)) 64
   else if raw.length = 64 + 16 * n then
     segmentFaults raw gs 0 0 ++ fieldFault (n == 0 || covered == nb) (64 + 16 * (n - 1) + 4)
   else [16])

/-- R441: where the results of an operation end beyond Z. -/
def launchSpan (r : List Byte) (p : OpSlot) (n : Nat) (gs : List (Nat × Nat × Nat)) : Nat :=
  let full := payloadBytes p.outF p.e
  let nb := blocksOf n p.e
  let cut := full - payloadBytes p.outF (n - (nb - 1) * p.e)
  if gs.isEmpty || resultBytes r p n == 0 then resultBytes r p n
  else gs.foldl (fun m g => max m (g.2.2 + g.2.1 * full - (if g.1 + g.2.1 = nb then cut else 0))) 0

/-- R439: a launch record's checks: a status and its DETAIL. -/
def State.launchRefused (s : State) (d : Desc) (r raw : List Byte) : Option (Status × Nat) :=
  let n := d.u32 32
  let q := d.u32 28
  let p := s.legSlot r (topLeg r)
  let nb := if grNoLegs r then 0 else blocksOf n p.e
  let total := if grNoLegs r then 0 else resultBytes r p n
  let z := q % grDataSlots r * grSlotBytes r + le raw 8 5
  let addr := le raw 0 8
  match (launchFaults r raw nb total).min? with
  | some o => some (.badField, o)
  | none =>
    if !grNoLegs r && !placementFits (s.mslot (grManifest r)).image r p n z (launchSpan r p n (launchSegments raw)) then some (.lengthExceedsRegion, 0)
    else if addr ≠ 0 ∧ s.regionTest 4 d.partition addr 64 ≠ .inside then some (.protectionFault, 0)
    else none

/-! ### Contributions that came before the launch (R432) -/

/-- R432: a contribution that a leg holds breaks check 7 of R431 now that the count is known. -/
def State.unfitReason (s : State) (i l n : Nat) (x : Landed) : Option Nat :=
  let r := s.record i
  let p := s.legSlot r l
  let m := sourceMember r l x.source (blocksOf n p.e) x.block
  check7 r p m n x.block (payloadBytes p.inF x.elems)

/-- R432: an unfit contribution leaves its frame. -/
def State.dropUnfitFrame (s : State) (i l h k : Nat) (x : Landed) (t reason : Nat) : State :=
  let m := halfMooring (s.record i) l h
  let a := (s.freeFrame t k).clDrop reason none
  if x.counted then a.setMooring m { a.mooring m with count := (a.mooring m).count - 1 } else a

/-- R432: check 7 over what leg `l` holds of operation `q`. -/
def State.recheckLeg (s : State) (i q n l : Nat) : State :=
  let a := (List.range 2).foldl (fun t h =>
    ((t.halfFrames i l h).filter (fun x => x.2.2.seq == q)).foldl (fun u x =>
      match u.unfitReason i l n x.2.2 with
      | some k => u.dropUnfitFrame i l h x.2.1 x.2.2 (u.legTile (u.record i) l x.1) k
      | none => u) t) s
  match a.leg i l with
  | none => a
  | some g => (g.early.filter (fun kv => kv.2.2.seq == q)).foldl (fun u kv =>
      match u.unfitReason i l n kv.2.2 with
      | some k => (u.freeEarly i l kv.1).clDrop k none
      | none => u) a

/-- R432: check 7 over what waits of operation `q` behind filling copies. -/
def State.recheckWaits (s : State) (i handle q n : Nat) : State :=
  (s.cl.waits.filter (fun w => w.cause == .copy)).foldl (fun t w =>
    match t.contribution w.packet with
    | some (_, c) =>
      if c.group = handle ∧ c.sequence = q then
        let r := t.record i
        match check7 r (t.legSlot r (legOfMember r c.source).1) (some c.source) n c.block c.payloadLen with
        | some k =>
          let u := (t.unwait w.frame).clDrop k (some w.port)
          if w.counted then u.dropFrame w.frame
          else match u.inflight w.port with
            | some x => u.setInflight w.port { x with place := .dropped }
            | none => u
        | none => t
      else t
    | none => t) s

/-! ### Launches (R438) -/

/-- R438: an operation is launched with its count and its record. -/
def State.launchOp (s : State) (i : Nat) (g : GroupSt) (d : Desc) (raw : List Byte) : State :=
  let q := d.u32 28
  let n := d.u32 32
  let a := s.modOp i q (fun o => { o with launched := true, count := n, recordAddr := le raw 0 8, delta := le raw 8 5, segments := launchSegments raw })
  let b := a.modArmed i (fun x => { x with nextLaunch := wrapAdd 32 q 1 })
  if grOp g.record = 6 then (b.settleBarrier i 5).showGroup i
  else
    let c := (List.range (grLegs g.record)).foldl (fun t l => t.recheckLeg i q n l) b
    (c.recheckWaits i (handleOf i g) q n).advance i

/-- R452: a version of the payload enters at the root. -/
def State.launchVersion (s : State) (i : Nat) (g : GroupSt) (d : Desc) (raw : List Byte) : State :=
  let body := raw.drop 64
  let t := (s.memWrite areaHint (grArea g.record) body).modGroup i (fun x => { x with bcast := ⟨some (d.u32 28, body.length), [], [], none, []⟩ })
  (t.modArmed i (fun x => { x with nextLaunch := wrapAdd 32 (d.u32 28) 1 })).spreadVersion i

/-- R438: the outcome of a launch that names no operation still to be launched: a status and RESULT, or the wait for its
record; none where it names the next sequence. -/
def Armed.launchAnswer (a : Armed) (q n : Nat) : Option (Option (Status × Nat × Nat)) :=
  match a.op q with
  | some o =>
    if !o.launched then none
    else if o.count ≠ n then some (some (.badField, 0, 32))
    else if o.produced && !o.rerun then some (some (if o.replayed || o.reruns != 0 then .successAfterReplay else .success, o.time, 0))
    else some none
  | none => none

/-- R438: the next sequence is launched after the checks of its record. -/
def State.launchNext (s : State) (i : Nat) (g : GroupSt) (a : Armed) (d : Desc) (data : HostData) : State :=
  let q := d.u32 28
  if q ≠ a.nextLaunch then (if seqBefore q a.nextLaunch then s.complete d .notFound 0 0 else s.complete d .busy 0 0)
  else if a.disarm.isSome && !a.serves q then s.complete d .notFound 0 0
  else if !a.lost.isEmpty then s.complete d .noReductionMemory 0 0
  else if !countOk g.record (s.projects g.record) (d.u32 32) then s.complete d .badField 0 32
  else match hostBytes d data with
    | none => s.complete d .hostAccessError 0 0
    | some raw =>
      match s.launchRefused d g.record raw with
      | some (st, detail) => s.complete d st 0 detail
      | none => if grOp g.record = 7 then s.launchVersion i g d raw else s.launchOp i g d raw

/-- R438, R452: a launch of the version held waits for its members, or completes where all have acknowledged it. -/
def State.launchHeld (s : State) (g : GroupSt) (d : Desc) : State :=
  if d.u32 32 ≠ 0 then s.complete d .badField 0 32
  else if g.unackedMembers.isEmpty then s.complete d .success s.now64 0
  else s

/-- R438: COLLECTIVE_LAUNCH after the checks of R79. -/
def State.launch (s : State) (d : Desc) (data : HostData) : State :=
  match s.groupFor d (d.u32 24) with
  | none => s.complete d .notFound 0 0
  | some (i, g) =>
    if !grHost g.record then s.complete d .badField 0 24
    else match g.armed with
      | none => s.complete d .notFound 0 0
      | some a =>
        if grOp g.record = 7 then
          (if g.bcast.held.any (fun h => h.1 == d.u32 28) then s.launchHeld g d else s.launchNext i g a d data)
        else if seqBefore (d.u32 28) a.oldest then s.complete d .notFound 0 0
        else match a.launchAnswer (d.u32 28) (d.u32 32) with
          | some (some (st, result, detail)) => s.complete d st result detail
          | some none => s
          | none => s.launchNext i g a d data

/-- COLLECTIVE_LAUNCH (R438). -/
def execCollectiveLaunch (ring : Fin 4096) (data : HostData) (s : State) : Res :=
  runOpcode ring.val 0x34 true (fun d t => t.launch d data) s

end Sys2Proof.Machine
end

