-- ==== Sys2Proof/Machine/Replies.lean ====
section
/-! DEFINITION. Packets that answer and relay (R443, R446, R448 to R453): HOP_ACKs, REPLAY_REQUESTs, results and broadcasts
from the fabric, and their timers. -/

namespace Sys2Proof.Machine

/-! ### Intake -/

/-- A Sceca packet of one type addressed to the device. -/
def State.controlPacket (s : State) (type : Nat) (packet : List Byte) : Option (Hdr × Sceca) :=
  let h := parse packet
  match s.scecaToDevice packet h with
  | some c => if c.version = 1 ∧ c.type = type then some (h, c) else none
  | none => none

/-- R346, R176: the check word of a packet that carries an output check is right. -/
def outputHolds (c : Sceca) (payload : List Byte) : Bool := c.check == checkWord false true (outputCheck payload)

/-- R195, R300: a packet that the device takes whole: its credit, its flow, its fence slot and its receive counts. -/
def State.countIn (s : State) (n vn : Nat) (packet : List Byte) (h : Hdr) (c : Sceca) (dropped : Bool) : State :=
  let len := packet.length + 4
  let flow := s.flowIndex (n / 128) (s.channelHash h (some c))
  let a := s.flowAdd flow ⟨1, len, bit h.ceMarked, bit dropped⟩
  let b := if a.isFabric n then (a.linkTake n).returnCredit n vn (cellsOf len) else a
  let d := if strictChannel h (some c) then b else b.passFence (s.channelHash h (some c) % 65536) c.fence
  if len ≤ d.rd PC_PORT_CFG_MAX_FRAME n then d.countRx n len else d

/-- What drops a packet before anything is made of it, if something does. DESIGN CHOICE (log 50): a packet whose check word
is wrong is counted in DROP_SCECA. -/
def State.refusedIn (s : State) (n vn : Nat) (packet : List Byte) (c : Sceca) : Option State :=
  (s.refusedAtHead n vn c).or
    (if s.rd PC_PORT_CFG_MAX_FRAME n < packet.length + 4 then some (s.portAdd n 25 1)
     else if outputHolds c (c.payload packet) then none else some (s.portAdd n 26 1))

/-- A packet is taken: counted, and given to `act` unless it is dropped. -/
def State.takeControl (s : State) (n vn : Nat) (packet : List Byte) (h : Hdr) (c : Sceca) (act : List Byte → Sceca → State → State) : State :=
  let src := match h.ip with
    | some v => v.src
    | none => []
  match s.refusedIn n vn packet c with
  | some t => t.countIn n vn packet h c true
  | none => act src c (s.countIn n vn packet h c false)

/-- A packet of a type for the device arrives whole on a port whose link is UP. -/
def controlIn (type n : Nat) (tag : Option (BitVec 48)) (packet : List Byte) (act : List Byte → Sceca → State → State) (s : State) : State :=
  if s.link n ≠ 3 ∨ (s.port n).arriving.isSome = true ∨ (s.inflight n).isSome = true then s
  else match s.controlPacket type packet with
    | none => s
    | some (h, c) =>
      if s.isFabric n then
        match s.tagVerdict n tag with
        | .accept => s.takeControl n (tagVn (tag.getD 0).toNat) packet h c act
        | .duplicate => s.linkDuplicate n
        | .reject => s.tagReject n tag
      else s.takeControl n 0 packet h c act

/-- The group of PARTITION that a packet's handle names. -/
def State.packetGroup (s : State) (c : Sceca) : Option (Nat × GroupSt) := (s.groupBy c.group).filter (fun ig => ig.2.partition == c.partition)

/-- R305: a packet that came with CE is noted at its group's operation. -/
def State.noteCeOf (s : State) (i : Nat) (packet : List Byte) (c : Sceca) : State := s.noteCe i c.sequence (parse packet)

/-! ### HOP_ACK (R446, R450) -/

/-- R446: the group and the members that a HOP_ACK from an address speaks for: ENDPOINT members of the group it names, else
RELAY members under their RELAY_GROUP. -/
def State.ackedBy (s : State) (src : List Byte) (c : Sceca) : Option (Nat × List Nat) :=
  let own := match s.packetGroup c with
    | some (i, g) => some (i, (grMembersAt g.record src).filter (fun m => !grIsRelay g.record m))
    | none => none
  match own with
  | some (i, m :: ms) => some (i, m :: ms)
  | _ => s.cl.groups.findSome? (fun kv =>
      let ms := (grMembersAt kv.2.record src).filter (fun m => grIsRelay kv.2.record m && grRelayGroup kv.2.record m == c.group)
      if kv.2.retained.isNone && kv.2.partition == c.partition && !ms.isEmpty then some (kv.1, ms) else none)

/-- R444: a HOP_ACK answers what a relay sent upward; it changes nothing here. -/
def State.ackFromParent (s : State) (src : List Byte) (c : Sceca) : Bool :=
  s.cl.groups.any (fun kv => kv.2.retained.isNone && grHasParent kv.2.record && grParentAddress kv.2.record == src && grParentGroup kv.2.record == c.group)

/-- R446, R452: a HOP_ACK SUCCESS from members of a group. -/
def State.ackMembers (s : State) (i : Nat) (ms : List Nat) (c : Sceca) : State :=
  match s.group i, s.armed i with
  | some g, some a =>
    if grOp g.record = 7 then
      if g.bcast.held.any (fun h => h.1 == c.versionNo) then
        (s.modGroup i (fun x => { x with bcast := { x.bcast with acks := x.bcast.acks ++ ms.filter (fun m => !x.bcast.acks.contains m) } })).settleBroadcast i
      else s
    else match a.op c.sequence with
      | none => s
      | some o =>
        if o.produced then
          let t := s.modOp i c.sequence (fun x => { x with acks := x.acks ++ ms.filter (fun m => !x.acks.contains m) })
          if grMembers g.record ≤ (o.acks ++ ms.filter (fun m => !o.acks.contains m)).length then t.acknowledge i c.sequence else t
        else s
  | _, _ => s

/-- R446, R462: a HOP_ACK is taken; one for a group that takes none is MISDIRECTED. -/
def hopAckIn (n : Nat) (packet src : List Byte) (c : Sceca) (s : State) : State :=
  match s.ackedBy src c with
  | some (i, ms) =>
    let t := s.noteCeOf i packet c
    if be (c.payload packet) 0 2 = statusCode .success then t.ackMembers i ms c else t
  | none => if s.ackFromParent src c then s else s.clDrop 9 (some n)

/-- HOP_ACK_RECEIVED (R446). -/
def execHopAckReceived (port : Fin 1024) (tag : Option (BitVec 48)) (packet : List Byte) (s : State) : Res :=
  whenLive (controlIn 4 port.val tag packet (hopAckIn port.val packet)) s

/-! ### REPLAY_REQUEST (R449) -/

/-- R449: an unacknowledged operation is to be run again. -/
def State.rerunOp (s : State) (i : Nat) (r : List Byte) (o : OpSt) : State :=
  if o.rerun then s
  else if !o.produced then s.modOp i o.seq (fun x => { x with rerun := true })
  else if grNoLegs r then (s.modOp i o.seq (fun x => { x with reruns := satAdd 8 x.reruns 1 })).produce i o.seq
  else (s.startRerun i o.seq).advance i

/-- R449: a REPLAY_REQUEST from a member or the parent of the group it names. -/
def replayIn (n : Nat) (packet src : List Byte) (c : Sceca) (s : State) : State :=
  match s.packetGroup c with
  | none => s.clDrop 0 (some n)
  | some (i, g) =>
    let r := g.record
    if (grMembersAt r src).isEmpty && !(grHasParent r && grParentAddress r == src) then s.portAdd n 26 1
    else match g.armed with
      | none => s.portAdd n 26 1
      | some a =>
        if seqBefore c.sequence a.oldest then s.clDrop 8 (some n)
        else match a.op c.sequence with
          | none => s
          | some o => if o.acked then s.clDrop 8 (some n) else (s.noteCeOf i packet c).rerunOp i r o

/-- REPLAY_REQUEST_RECEIVED (R449). -/
def execReplayRequestReceived (port : Fin 1024) (tag : Option (BitVec 48)) (packet : List Byte) (s : State) : Res :=
  whenLive (controlIn 3 port.val tag packet (replayIn port.val packet)) s

/-! ### RESULT_WRITE at a relay (R441, R443) -/

/-- R441: where a relay's ENDPOINT member takes a payload that came under the relay offset. -/
def relayOffset (r : List Byte) (p : OpSlot) (o : OpSt) (m : Nat) (c : Sceca) : Nat :=
  let parts := max 1 (grParentParts r)
  let full := payloadBytes c.format (p.e / parts)
  let nb := blocksOf o.count p.e * parts
  let z := grBase r m + slotOffset r o
  match segmentOf o (c.block / parts) with
  | some (first, _, off) => z + off + c.offset - first * parts * full
  | none => if grOp r = 2 then z + c.offset - m * (nb / grMembers r) * full else z + c.offset

/-- R441: a result payload is passed to a member. -/
def State.relayResult (s : State) (i : Nat) (o : OpSt) (m : Nat) (c : Sceca) (payload : List Byte) : State :=
  match s.group i with
  | none => s
  | some g =>
    let r := g.record
    let relay := grIsRelay r m
    let dst := grAddress r m
    let d := blankSceca 2 (3 + s.echo i o.seq dst) g.partition (if relay then grRelayGroup r m else handleOf i g) o.seq payload
    s.originate none (grStrict r) dst { d with block := c.block, format := c.format, check := c.check, memoryKey := if relay then 0 else grKey r m,
                                               offset := if relay then c.offset else relayOffset r (s.legSlot r (topLeg r)) o m c } payload

/-- R443: a result or record from the parent goes to the members that are entitled to it. -/
def State.relayTo (s : State) (i : Nat) (r : List Byte) (o : OpSt) (c : Sceca) (payload : List Byte) : State :=
  if c.block = allBlocks then (List.range (grMembers r)).foldl (fun t m => t.sendRecord i o.seq m payload) s
  else
    let nb := blocksOf o.count (s.legSlot r (topLeg r)).e * max 1 (grParentParts r)
    (receivers r nb c.block).foldl (fun t m => t.relayResult i o m c payload) s

/-- R443, R462: a RESULT_WRITE is taken by an armed relay group; any other is MISDIRECTED. -/
def resultIn (n : Nat) (packet _src : List Byte) (c : Sceca) (s : State) : State :=
  match s.packetGroup c with
  | none => s.clDrop 9 (some n)
  | some (i, g) =>
    match g.armed with
    | some a =>
      if !grHasParent g.record || grNoLegs g.record then s.clDrop 9 (some n)
      else if seqBefore c.sequence a.oldest then s.clDrop 3 (some n)
      else
        let o := (a.op c.sequence).getD (freshOp c.sequence a.count)
        (s.noteCeOf i packet c).relayTo i g.record o c (c.payload packet)
    | none => s.clDrop 9 (some n)

/-- RESULT_WRITE_RECEIVED (R443). -/
def execResultWriteReceived (port : Fin 1024) (tag : Option (BitVec 48)) (packet : List Byte) (s : State) : Res :=
  whenLive (controlIn 2 port.val tag packet (resultIn port.val packet)) s

/-! ### BROADCAST (R452) -/

/-- R452: a block is kept beside those of its version that have come; blocks of an older version still coming in are let go. -/
def Bcast.gather (b : Bcast) (c : Sceca) (payload : List Byte) : Bcast :=
  let (blocks, last) := match b.coming with
    | some (v, l, e) => if v = c.versionNo then (l, e) else ([], none)
    | none => ([], none)
  { b with coming := some (c.versionNo, sput c.block payload blocks, if c.last then some c.block else last) }

/-- R305: a sender of which a packet came with CE is noted. -/
def Bcast.noteCe (b : Bcast) (h : Hdr) (c : Sceca) (src : List Byte) : Bcast :=
  if h.ceMarked && !b.ce.contains (c.sequence, src) then { b with ce := b.ce ++ [(c.sequence, src)] } else b

/-- R452: every block of the version coming in has come: its number and payload. -/
def Bcast.whole (b : Bcast) : Option (Nat × List Byte) := match b.coming with
  | some (v, blocks, some last) =>
    if (List.range (last + 1)).all (fun k => blocks.any (fun kv => kv.1 == k)) then some (v, ((blocks.filter (fun kv => decide (kv.1 ≤ last))).flatMap (fun kv => kv.2)).take 65536)
    else none
  | _ => none

/-- R452: a newer version replaces the payload held. -/
def State.takeVersion (s : State) (i v : Nat) (payload : List Byte) : State :=
  let t := (s.memWrite areaHint (grArea (s.record i)) payload).modGroup i (fun g => { g with bcast := ⟨some (v, payload.length), [], [], none, []⟩ })
  (t.modArmed i (fun a => { a with nextLaunch := wrapAdd 32 v 1 })).spreadVersion i

/-- R452: a block of a broadcast. DESIGN CHOICE (log 51): an older version than the one coming in is dropped in its favour; block numbers
lie below 8. -/
def broadcastIn (n : Nat) (packet src : List Byte) (payload : List Byte) (c : Sceca) (s : State) : State :=
  match (s.packetGroup c).filter (fun ig => grOp ig.2.record == 7 && ig.2.armed.isSome) with
  | none => s.clDrop 9 (some n)
  | some (i, g) =>
    let noted := g.bcast.noteCe (parse packet) c src
    let echo := if noted.ce.contains (c.sequence, src) then 64 else 0
    let answer := fun (t : State) => t.hopAck (grStrict g.record) g.partition c.group c.sequence c.versionNo echo src .success
    if g.bcast.held.any (fun h => !seqBefore h.1 c.versionNo) then answer s
    else if 8 ≤ c.block ∨ g.bcast.coming.any (fun x => seqBefore c.versionNo x.1) = true then s.clDrop 4 (some n)
    else
      let b := noted.gather c payload
      let t := s.modGroup i (fun x => { x with bcast := b })
      match b.whole with
      | some (v, whole) => answer (t.takeVersion i v whole)
      | none => t

/-- BROADCAST_RECEIVED (R452). -/
def execBroadcastReceived (port : Fin 1024) (tag : Option (BitVec 48)) (packet : List Byte) (s : State) : Res :=
  whenLive (controlIn 5 port.val tag packet (fun src c t => broadcastIn port.val packet src (c.payload packet) c t)) s

/-- R452: one more resend to a member; the sixteenth is reported. -/
def State.resendVersion (s : State) (i : Nat) (g : GroupSt) (m : Nat) : State :=
  let k := sget 0 g.bcast.resends m + 1
  let t := (s.modGroup i (fun x => { x with bcast := { x.bcast with resends := sset 0 m k x.bcast.resends } })).sendVersion i m
  if k = 16 then
    (t.setErr CL_ERR_BROADCAST_STALLED 0).raise { code := 0x0704, kind := 13, logical := i, detail0 := m, group := handleOf i g, sequence := (g.bcast.held.map (fun h => h.1)).getD 0 }
  else t

/-- R452: RESEND_US is over for a group. -/
def broadcastResend (i : Nat) (s : State) : State :=
  match s.group i with
  | none => s
  | some g => if g.armed.isSome && g.bcast.held.isSome then g.unackedMembers.foldl (fun t m => t.resendVersion i g m) s else s

/-- BROADCAST_RESEND (R452). -/
def execBroadcastResend (group : Fin 32768) (s : State) : Res := whenLive (broadcastResend group.val) s

/-! ### REPLAY_TIMER (R448) -/

/-- The blocks and sources of a use whose frames are empty. -/
def State.missing (s : State) (i l n : Nat) (u : Use) : List (Nat × Nat) :=
  let p := s.legSlot (s.record i) l
  let lo := u.j * p.bpe
  let hi := min (blocksOf n p.e) (lo + p.bpe)
  ((List.range (hi - lo)).flatMap (fun k => (List.range p.sources).map (fun src => (lo + k, src)))).filter (fun bs =>
    let (k, f) := s.spot i l (u.j % 2) bs.1 bs.2
    (s.landed (s.legTile (s.record i) l k) f).isNone)

/-- R448: a round of requests for what a use misses; the last round is reported. -/
def State.requestRound (s : State) (i l h : Nat) (u : Use) (miss : List (Nat × Nat)) : State :=
  let k := (match s.leg i l with
    | some g => (g.half h).rounds
    | none => 0) + 1
  let handle := match s.group i with
    | some g => handleOf i g
    | none => 0
  let a := miss.foldl (fun t bs => t.askSource i l u.seq bs.1 bs.2) s
  let b := a.modLeg i l (fun g => g.setHalf h { g.half h with rounds := k })
  if k = s.rd CL_CFG_REPLAY_LIMIT 0 then
    (b.setErr CL_ERR_REPLAY_EXHAUSTED 0).raise { code := 0x0703, kind := 13, logical := i, detail1 := (miss.map (fun x => x.1)).headD 0, group := handle, sequence := u.seq }
  else b

/-- R448: REPLAY_AFTER_US is over for a half that misses contributions of the use it is filled for. -/
def replayTimer (i l h : Nat) (s : State) : State :=
  match s.armed i, s.leg i l, s.halfUses i l h with
  | some a, some g, u :: _ =>
    if grNoLegs (s.record i) || s.rd CL_CFG_REPLAY_LIMIT 0 ≤ (g.half h).rounds || !(s.halfFrames i l h).any (fun x => x.2.2.counted) then s
    else match a.countOf (s.record i) u.seq with
      | none => s
      | some n =>
        let miss := s.missing i l n u
        if miss.isEmpty then s else s.requestRound i l h u miss
  | _, _, _ => s

/-- REPLAY_TIMER (R448). -/
def execReplayTimer (group : Fin 32768) (leg : Fin 33) (half : Fin 2) (s : State) : Res :=
  whenLive (replayTimer group.val leg.val half.val) s

end Sys2Proof.Machine
end

