-- ==== Sys2Proof/Machine/Drain.lean ====
section
/-! DEFINITION. Partition drains (R454 to R457) and contexts that are LOST (R426). -/

namespace Sys2Proof.Machine

/-- The state with a partition replaced. -/
def State.setPart (s : State) (p : Nat) (v : Part) : State := { s with hi := { s.hi with parts := sset Part.reset p v s.hi.parts } }

/-- The drain of a partition that is under way. -/
def State.drainOf (s : State) (p : Nat) : Option Drain := s.cl.drains.find? (fun d => d.partition == p)

/-- The descriptors of partition `p` that wait under an opcode. -/
def State.waitingOf (s : State) (p opcode : Nat) : List Desc :=
  s.hi.descs.filter (fun d => d.started && d.opcode == opcode && d.partition == p)

/-- The groups of a partition. -/
def State.groupsOf (s : State) (p : Nat) : List (Nat × GroupSt) := s.cl.groups.filter (fun kv => kv.2.partition == p)

/-- R457: a group is kept as RETAINED. -/
def State.retainGroup (s : State) (i partGen : Nat) : State :=
  let t : State := { s with cl := { s.cl with retentions := s.cl.retentions + 1 } }
  (t.modGroup i (fun g => { g with retained := some (partGen, s.cl.retentions), armed := none })).showGroup i

/-- R454 step 5: once no context of a draining partition is left, its groups are RETAINED. -/
def State.settleRetain (s : State) (p : Nat) : State :=
  match s.drainOf p with
  | some d =>
    if (s.groupsOf p).any (fun kv => kv.2.armed.isSome) then s
    else ((s.groupsOf p).filter (fun kv => kv.2.retained.isNone)).foldl (fun t kv => t.retainGroup kv.1 d.partGen) s
  | none => s

/-- R454 steps 1 and 2: the partition becomes DRAINING; its waits and launches end; its contexts serve only what runs. -/
def State.beginDrain (s : State) (p : Nat) : State :=
  let a := s.setPart p { s.part p with state := .draining }
  let b : State := { a with cl := { a.cl with drains := a.cl.drains ++ [⟨p, a.rd HI_PROT_GEN_ACTIVE 0, a.rd CL_PART_GEN_GEN p, a.now, 0⟩] } }
  let c := (b.waitingOf p 0x41 ++ b.waitingOf p 0x34).foldl (fun t d => t.complete d .partitionDraining 0 0) b
  let e := ((c.groupsOf p).filter (fun kv => kv.2.armed.isSome)).foldl (fun t kv => t.beginRelease kv.1 none .partitionDraining) c
  let f := (e.cl.waits.filter (fun w => w.cause == .arming && (match e.contribution w.packet with
    | some (_, x) => x.partition == p
    | none => false))).foldl (fun t w => t.resteer w) e
  f.settleRetain p

/-- PARTITION_DRAIN (R454). -/
def execPartitionDrain (ring : Fin 4096) (s : State) : Res :=
  runOpcode ring.val 0x13 false (fun d t =>
    match (t.part (d.u16 24)).state with
    | .free => t.complete d .success 0 0
    | .draining => t
    | .active => t.beginDrain (d.u16 24)) s

/-- R454 steps 3 and 4: the next context of a group that may be released: its epoch, if one ran, has ended. -/
def State.nextRelease (s : State) (p : Nat) : Option (Nat × Nat) :=
  (s.groupsOf p).findSome? (fun kv => match kv.2.armed with
    | some a => if s.groupRuns kv.1 then none else (findPlace (fun g => decide (g.context < noContext)) a.legs).map (fun l => (kv.1, l))
    | none => none)

/-- R454, R460: a drain has released DRAIN_RATE contexts in the millisecond that runs. -/
def State.drainFull (s : State) (d : Drain) : Bool := decide (s.now < d.since + 1000000 ∧ s.rd CL_CFG_DRAIN_RATE 0 ≤ d.released)

/-- R454: a drain has released one context more; a new millisecond begins where the last is over. -/
def State.countRelease (s : State) (p : Nat) : State :=
  let one := fun (d : Drain) => if s.now < d.since + 1000000 then { d with released := d.released + 1 } else { d with since := s.now, released := 1 }
  { s with cl := { s.cl with drains := s.cl.drains.map (fun d => if d.partition == p then one d else d) } }

/-- R454 step 4: one context is released, at most DRAIN_RATE in a millisecond; with a group's last one the group is no longer
armed. -/
def contextRelease (p : Nat) (s : State) : State :=
  if !(s.drainOf p).any (fun d => !s.drainFull d) then s
  else match s.nextRelease p with
    | none => s
    | some (i, l) =>
      let t := ((s.countRelease p).releaseLeg i l).showGroup i
      let left := (t.armed i).any (fun a => a.legs.any (fun g => decide (g.context < noContext)))
      let handle := match s.group i with
        | some g => handleOf i g
        | none => 0
      if left then t
      else State.settleRetain ((t.disarms handle).foldl (fun u d => u.complete d .success 0 0) (t.releaseContexts i)) p

/-- DRAIN_CONTEXT_RELEASE (R454). -/
def execDrainContextRelease (partition : Fin 256) (s : State) : Res := whenLive (contextRelease partition.val) s

/-- R454 step 6: a Sceca packet of the partition is inside the device. -/
def State.packetsOf (s : State) (p : Nat) : Bool :=
  s.pc.frames.any (fun kv => match s.sceca kv.2.bytes (parse kv.2.bytes) with
    | some c => c.partition == p
    | none => false)

/-- R454 step 6: work of the partition that started under a generation up to G is in flight. -/
def State.inFlight (s : State) (d : Drain) : Bool :=
  s.hi.descs.any (fun x => x.started && x.partition == d.partition && x.opcode != 0x13 && decide (x.gen ≤ d.gen)) || s.packetsOf d.partition

/-- R454 step 7: the partition becomes FREE and its drains complete. -/
def drainComplete (p : Nat) (s : State) : State :=
  match s.drainOf p with
  | none => s
  | some d =>
    if (s.groupsOf p).any (fun kv => kv.2.armed.isSome) || s.inFlight d then s
    else
      let t : State := { s with cl := { s.cl with drains := s.cl.drains.filter (fun x => x.partition != p) } }
      (t.hi.descs.filter (fun x => x.started && x.opcode == 0x13 && x.u16 24 == p)).foldl (fun u x => u.complete x .success 0 0) (t.setPart p Part.reset)

/-- DRAIN_COMPLETE (R454). -/
def execDrainComplete (partition : Fin 256) (s : State) : Res := whenLive (drainComplete partition.val) s

/-- R457: the retained groups of a partition are discarded. -/
def State.discardRetained (s : State) (p : Nat) : State :=
  ((s.groupsOf p).filter (fun kv => kv.2.retained.isSome)).foldl (fun t kv => t.dropGroup kv.1) s

/-- RETAINED_GROUP_EXPIRY (R457): 1 s after the partition became ACTIVE again. -/
def execRetainedGroupExpiry (partition : Fin 256) (s : State) : Res :=
  whenLive (fun t => if (t.part partition.val).state = .active then t.discardRetained partition.val else t) s

/-! ### LOST contexts (R426) -/

/-- R426: the members hear that an unacknowledged operation, or the version of a job-start broadcast that is held, will not be
finished; its launches end. -/
def State.tellLost (s : State) (i : Nat) (g : GroupSt) (q : Nat) : State :=
  let (seq, version) := if grOp g.record = 7 then (0, q) else (q, 0)
  let t := (List.range (grMembers g.record)).foldl (fun u m =>
    let r := g.record
    u.hopAck (grStrict r) g.partition (if grIsRelay r m then grRelayGroup r m else handleOf i g) seq version (u.echo i q (grAddress r m)) (grAddress r m) .noReductionMemory) s
  t.endLaunches (handleOf i g) q .noReductionMemory 0

/-- R426: a LOST context starts no epoch: a void epoch leaves out its slots, and ends where it has no other. -/
def State.dropVoidParts (s : State) (i : Nat) (legs : List Nat) : State :=
  let k := grManifest (s.record i)
  match (s.mslot k).run with
  | none => s
  | some e =>
    let kept := e.live.filter (fun a => !(a.group == i && legs.contains a.leg))
    if grNoLegs (s.record i) || !e.void || kept.length == e.live.length then s
    else if kept.isEmpty then s.modMslot k (fun x => { x with run := none, ended := s.now })
    else s.modMslot k (fun x => { x with run := some { e with live := kept } })

/-- R426: legs of a group become LOST. -/
def State.loseContexts (s : State) (i : Nat) (legs : List Nat) : State :=
  match s.group i, s.armed i with
  | some g, some a =>
    let new := legs.filter (fun l => !a.lost.contains l)
    if new.isEmpty then s
    else
      let t := (s.modArmed i (fun x => { x with lost := x.lost ++ new })).setErr CL_ERR_CONTEXT_LOST 0
      let u := t.raise { code := 0x0702, kind := 13, logical := i, group := handleOf i g, sequence := a.oldest }
      let held := match g.bcast.held with
        | some (n, _) => if g.unackedMembers.isEmpty then [] else [n]
        | none => []
      let v := ((a.ops.filter (fun o => o.launched && !o.acked)).map (fun o => o.seq) ++ held).foldl (fun w q => w.tellLost i g q) u
      ((v.dropVoidParts i new).showGroup i).settleRelease i
  | _, _ => s

/-- R426: the contexts that use a logical tile become LOST. -/
def State.loseTile (s : State) (t : Nat) : State :=
  s.re.slots.foldl (fun u kv =>
    if mfFirstTile kv.2.image ≤ t ∧ t < mfFirstTile kv.2.image + mfTileCount kv.2.image then
      (kv.2.bound.filter (fun b => (opSlot kv.2.image b.1).uses (t - mfFirstTile kv.2.image))).foldl (fun v b => v.loseContexts b.2.1 [b.2.2]) u
    else u) s

/-- R426, R422: a group's moorings and device area still lie inside its partition's entries. -/
def State.stillOwns (s : State) (g : GroupSt) : Bool :=
  let r := g.record
  let n := s.areaBytes r
  (List.range (grMoorings r)).all (fun k =>
    (s.assigned 3).any (fun e => decide (e.base ≤ grMooring r + k ∧ grMooring r + k ≤ e.limit) && e.serves g.partition)) &&
  (grOp r == 6 || s.regionTest 5 g.partition (grArea r) (max 1 n) == .inside)

/-- An epoch that is not void runs on an operation slot of the group. -/
def State.groupAtWork (s : State) (i : Nat) : Bool := match (s.mslot (grManifest (s.record i))).run with
  | some e => !grNoLegs (s.record i) && !e.void && e.live.any (fun v => v.group == i)
  | none => false

/-- R426: armed groups that no longer own their moorings or device area after a generation boundary lose their contexts; where
an epoch of theirs runs, it ends first. -/
def State.recheckContexts (s : State) : State :=
  (s.cl.groups.filter (fun kv => kv.2.armed.isSome && !s.groupAtWork kv.1 && !s.stillOwns kv.2)).foldl (fun t kv =>
    t.loseContexts kv.1 (List.range (grContexts kv.2.record))) s

end Sys2Proof.Machine
end

