-- ==== Sys2Proof/Machine/ImageCheck.lean ====
section
/-! DEFINITION. What the device checks of a manifest image at load (R377, R378, R658, R660). -/

namespace Sys2Proof.Machine

/-- A fault: its offset in the image and the run of the copy at fault. -/
abbrev ImageFault := Nat × Nat

/-- A fault at an offset, where a condition fails. -/
def faultIf (ok : Bool) (off : Nat) : List ImageFault := if ok then [] else [(off, 0)]

/-- R660: the first of some header and table faults in image order. -/
def earliest (l : List ImageFault) : Option ImageFault := (l.map (fun f => f.1)).min?.map (fun o => (o, 0))

/-- An instruction's fault. -/
def TileInstr.fault (i : TileInstr) : ImageFault := (i.pos, min i.run 0xFFFF)

/-- R377: the first reserved byte of a range that is not zero. -/
def reservedFault (m : List Byte) (off len : Nat) : List ImageFault :=
  ((List.range len).filter (fun k => le m (off + k) 1 != 0)).map (fun k => (off + k, 0))

/-- HEADER. -/
def checkHeader (m : List Byte) : Option ImageFault :=
  earliest (faultIf (le m 0 4 == 0x4D4E4656) 0 ++ faultIf (le m 4 2 == 0x9400) 4 ++ faultIf (le m 6 1 == 1) 6 ++
    faultIf ((mfVariants m).testBit 3 && decide (mfVariants m < 16)) 7 ++ reservedFault m 128 128)

/-- A table of `size` bytes at `off` lies inside the image, aligned. -/
def tableOk (m : List Byte) (off size align : Nat) : Bool := off % align == 0 && decide (off + size ≤ m.length)

/-- LENGTH. -/
def checkLength (m : List Byte) (length : Nat) : Option ImageFault :=
  let variantsIn := tableOk m (mfVariantOff m) 64 64
  let streams := if variantsIn then (mfCarried m).flatMap (fun v =>
      if tableOk m (mfStreamsOff m v) (8 * mfTileCount m) 64 then
        (List.range (mfTileCount m)).flatMap (fun t => faultIf (tableOk m (streamStart m v t) (16 * streamCount m v t) 16) (streamEntry m v t))
      else [(variantEntry m v, 0)]) else []
  earliest (faultIf (mfLength m == length && mfLength m % 64 == 0 && decide (mfLength m ≤ 0x1000000)) 8 ++
    faultIf (tableOk m (mfOpSlotOff m) (64 * mfOpSlots m) 64) 44 ++
    faultIf (mfMatrices m == 0 || tableOk m (mfMatrixOff m) (32 * mfMatrices m) 64) 48 ++ faultIf variantsIn 52 ++ streams)

/-- PARTITION. -/
def checkPartition (m : List Byte) (partition : Nat) : Option ImageFault :=
  earliest (faultIf ((decide (mfPartition m < 256) || mfPartition m == 0xFFFF) && (partition == 0xFFFF || mfPartition m == partition)) 16)

/-- TILES. -/
def checkTiles (m : List Byte) (slot : Nat) : Option ImageFault :=
  let die := slot / 64
  let a := mfFirstTile m
  let n := mfTileCount m
  earliest (faultIf (decide (88 * die ≤ a ∧ a < 88 * die + 88)) 18 ++ faultIf (decide (1 ≤ n ∧ n ≤ 88 ∧ a + n ≤ 88 * die + 88)) 20)

/-- R377: PERIOD_NS is at least L / f_v plus 1,000 ns, for every carried variant. -/
def periodOk (m : List Byte) : Bool :=
  (mfCarried m).all (fun v => decide (mfL m v * 1000 + 1000 * variantMhz v ≤ mfPeriod m * variantMhz v))

/-- TRIGGER. DEDUCED (log 40): R367 gives PERIOD_NS and PHASE_NS as zero under MOORING, and this check says so. -/
def checkTrigger (m : List Byte) : Option ImageFault :=
  earliest (faultIf (decide (mfTrigger m ≤ 2)) 22 ++ faultIf (decide (mfDomain m ≤ 1)) 23 ++
    (if mfTrigger m = 1 then faultIf (mfPeriod m == 0) 24 ++ faultIf (mfPhase m == 0) 32
     else faultIf (periodOk m) 24 ++ faultIf (decide (mfPhase m < mfPeriod m)) 32))

/-- VARIANT: 1 µs to 100 µs for a carried variant, zeros for another; bytes 8 to 15 are zero in both. -/
def checkVariant (m : List Byte) : Option ImageFault :=
  earliest ((List.range 4).flatMap (fun v =>
    let o := variantEntry m v
    if mfCarries m v then
      faultIf (decide (variantMhz v ≤ mfL m v ∧ mfL m v ≤ 100 * variantMhz v) && allZero (slice m (o + 8) 8)) o
    else faultIf (allZero (slice m o 16)) o))

/-- Two ranges share a number. -/
def meet (a n b k : Nat) : Bool := decide (a < b + k ∧ b < a + n)

/-- R377: two operation slots' regions of frames, slots or check registers overlap on a tile. -/
def OpSlot.overlaps (p q : OpSlot) : Bool :=
  meet p.tileFirst p.tileN q.tileFirst q.tileN &&
  (meet p.frameBase (2 * p.halfFrames) q.frameBase (2 * q.halfFrames) || meet p.slotBase p.slots q.slotBase q.slots ||
   meet p.chkBase p.chkRegs q.chkBase q.chkRegs)

/-- R352: a ROUNDING byte is defined. -/
def roundingOk (r : Nat) : Bool := decide (r < 8 ∧ r % 4 ≠ 3)

/-- R369, R377: an operation-slot entry by itself. -/
def opSlotOk (m : List Byte) (i : Nat) : Bool :=
  let p := opSlot m i
  let o := opSlotAt m i
  formatDefined p.inF && outAllowed p.layout p.outF && roundingOk p.rounding && [0, 2, 4, 5].contains p.projF &&
  blockSizeOk p.inF p.e && decide (1 ≤ p.sources ∧ p.sources ≤ 128 ∧ 1 ≤ p.bpe ∧ 1 ≤ p.tileN ∧ p.tileFirst + p.tileN ≤ mfTileCount m) &&
  decide (p.bt * p.sources ≤ p.halfFrames ∧ p.frameBase + 2 * p.halfFrames ≤ 256) &&
  decide (p.bt * p.k ≤ p.slots ∧ p.slotBase + p.slots ≤ 6144 ∧ p.bt ≤ p.chkRegs ∧ p.chkBase + p.chkRegs ≤ 512) &&
  (if p.projF = 0 then p.matrix == 0xFFFF && p.sendMask == 0 else decide (p.matrix < mfMatrices m ∧ p.sendMask < 4)) &&
  le m (o + 31) 1 == 0 && allZero (slice m (o + 44) 20)

/-- OPSLOT. -/
def checkOpSlots (m : List Byte) : Option ImageFault :=
  earliest (faultIf (decide (1 ≤ mfOpSlots m ∧ mfOpSlots m ≤ 256)) 40 ++ (List.range (mfOpSlots m)).flatMap (fun i =>
    faultIf (opSlotOk m i && (List.range i).all (fun j => !(opSlot m i).overlaps (opSlot m j))) (opSlotAt m i)))

/-- R371: a matrix entry by itself. -/
def matrixOk (m : List Byte) (i : Nat) : Bool :=
  let x := matrixOf m i
  x.address % 4096 == 0 && x.rows % 64 == 0 && decide (64 ≤ x.rows ∧ x.rows ≤ 4096 ∧ 1 ≤ x.cols ∧ x.cols ≤ 64) &&
  [2, 4, 5].contains x.format && decide (x.rows * x.rowBytes ≤ 524288) && allZero (slice m (matrixAt m i + 12) 20)

/-- MATRIX. -/
def checkMatrices (m : List Byte) : Option ImageFault :=
  earliest (faultIf (decide (mfMatrices m ≤ 64)) 42 ++ faultIf (mfMatrices m != 0 || mfMatrixOff m == 0) 48 ++
    (List.range (mfMatrices m)).flatMap (fun i => faultIf (matrixOk m i) (matrixAt m i)) ++
    (List.range (mfOpSlots m)).flatMap (fun i =>
      let p := opSlot m i
      let x := matrixOf m p.matrix
      faultIf (p.projF == 0 || (decide (p.projF = 2 ↔ x.format = 2) && p.e % x.rows == 0)) (opSlotAt m i)))

/-! ### Instruction checks -/

/-- R660: every stream in the order faults are taken: tiles in manifest order, and within a tile the carried variants. -/
def streamOrder (m : List Byte) : List (Nat × Nat) := (List.range (mfTileCount m)).flatMap (fun t => (mfCarried m).map (fun v => (v, t)))

/-- R373: the operand bytes an opcode names, of bytes 8 to 15. -/
def namedBytes : Nat → List Nat
  | 0x01 => [8, 9]
  | 0x02 => [8, 9, 10, 11]
  | 0x03 => [8, 9]
  | 0x04 => [8, 9, 10, 11, 12, 13, 14, 15]
  | 0x05 => [8, 9, 10, 11]
  | 0x06 => [8, 10, 11, 12, 13]
  | 0x07 => [8, 9, 10, 11]
  | 0x08 => [8, 10, 11]
  | 0x09 => [8, 9, 12, 13, 14, 15]
  | 0x0A => [8, 9, 12, 13, 14, 15]
  | 0x0B => [8, 9, 10, 11, 12, 13, 14, 15]
  | _ => []

/-- R373: reserved bytes and bits of an instruction are zero. -/
def reservedZero (i : TileInstr) : Bool :=
  le i.raw 5 1 == 0 && ((List.range 8).all (fun k => (namedBytes i.op).contains (8 + k) || le i.raw (8 + k) 1 == 0)) &&
  (i.op != 0x04 || bitsOf (le i.raw 11 1) 3 1 == 0) && (i.op != 0x05 || decide (le i.raw 8 1 < 16)) && (i.op != 0x07 || decide (le i.raw 9 1 < 16))

/-- R373: the operands of a ROUND lie in their ranges. -/
def roundOk (m : List Byte) (p : OpSlot) (i : TileInstr) : Bool :=
  let f := roundFormat p i
  decide (i.src ≤ 1 ∧ i.buf < 8 ∧ 1 ≤ i.count) && (p.projF != 0 || (i.src == 0 && i.fmt == 0)) &&
  decide (i.first + i.count ≤ wholeElements m p i ∧ payloadBytes f i.count ≤ 8192) &&
  (!isMx f || (i.first % 32 == 0 && i.count % 32 == 0))

/-- R373: P_full of a SEND with DEST 0: the payload of a full block in the format of the last ROUND into its BUF. -/
def fullBytes (m : List Byte) (passed : List TileInstr) (i : TileInstr) : Nat := match lastRound passed i.buf with
  | some r => payloadBytes (roundFormat (opSlot m r.opslot) r) (wholeElements m (opSlot m r.opslot) r)
  | none => payloadBytes (opSlot m i.opslot).outF (opSlot m i.opslot).e

/-- OPCODE, for one instruction of the expanded stream of manifest tile `t`. -/
def opcodeOk (m : List Byte) (t : Nat) (passed : List TileInstr) (i : TileInstr) : Bool :=
  let p := opSlot m i.opslot
  let x := matrixOf m i.matrix
  decide (1 ≤ i.op ∧ i.op ≤ 0x0B) && reservedZero i &&
  (if i.op = 0x0B then decide (2 ≤ i.times ∧ 1 ≤ i.span ∧ i.span ≤ 64)
   else decide (i.opslot < mfOpSlots m) && p.uses t && ((blockAt i.op).isNone || decide (i.block < p.bt)) &&
    (match i.op with
     | 0x02 => decide (i.source < p.sources)
     | 0x04 => roundOk m p i
     | 0x05 => decide (i.buf < 8 ∧ i.dest ≤ 1) && (i.dest == 1 || decide (i.part < max 1 (ceilDiv (fullBytes m passed i) 8192)))
     | 0x06 => decide (i.matrix < mfMatrices m ∧ i.firstRow + i.rows ≤ x.rows)
     | 0x07 => decide (i.matrix < mfMatrices m ∧ i.buf < 8) && p.projF != 0
     | 0x08 => decide (i.matrix < mfMatrices m) && p.projF != 0
     | _ => true))

/-- OPCODE over one expanded stream. -/
def opcodeFault (m : List Byte) (t : Nat) : List TileInstr → List TileInstr → Option ImageFault
  | [], _ => none
  | i :: rest, passed => if opcodeOk m t passed i then opcodeFault m t rest (i :: passed) else some i.fault

/-- OPCODE. -/
def checkOpcode (m : List Byte) : Option ImageFault := (streamOrder m).findSome? (fun vt => opcodeFault m vt.2 (expanded m vt.1 vt.2) [])

/-- R373: a REPEAT is well formed, apart from a REPEAT within its span: the span lies inside the stream, whose instructions end
at `ends`, and the next instruction begins at the REPEAT's own OFFSET. -/
def repeatOk (ends : Nat) (i : TileInstr) (rest : List Timed) : Bool :=
  decide (i.pos + 16 * i.span < ends) && (rest.head?.map (fun y => y.i.cycle)) == some i.cycle

/-- ORDER over an expanded stream with its REPEATs: OFFSET never decreases, every instruction is ready by L, and a REPEAT is well
formed. `inner` counts the copies that remain of the REPEAT passed last, among which a REPEAT may not stand. -/
def orderFault (l ends : Nat) : List Timed → Nat → Nat → Option ImageFault
  | [], _, _ => none
  | x :: rest, prev, inner =>
    if x.i.op = 0x0B then
      if inner = 0 && repeatOk ends x.i rest then orderFault l ends rest prev (x.i.times * x.i.span) else some x.i.fault
    else if x.i.cycle < prev ∨ l < x.ready then some x.i.fault
    else orderFault l ends rest x.i.cycle (inner - 1)

/-- ORDER. -/
def checkOrder (m : List Byte) : Option ImageFault :=
  (streamOrder m).findSome? (fun vt =>
    orderFault (mfL m vt.1) (streamStart m vt.1 vt.2 + 16 * streamCount m vt.1 vt.2) (timedFrom m vt.1 (expanded m vt.1 vt.2) []) 0 0)

/-- R374: an instruction meets no unit still held by an earlier one and is at most the fourth of its cycle. -/
def unitsOk (passed : List Timed) (x : Timed) : Bool :=
  passed.all (fun y => y.units.all (fun u => !x.units.contains u) || decide (y.free ≤ x.i.cycle)) &&
  decide (passed.countP (fun y => y.i.cycle == x.i.cycle) < 4)

/-- UNIT_CONFLICT over one stream. -/
def unitsFault : List Timed → List Timed → Option ImageFault
  | [], _ => none
  | x :: rest, passed => if unitsOk passed x then unitsFault rest (x :: passed) else some x.i.fault

/-- UNIT_CONFLICT. -/
def checkUnits (m : List Byte) : Option ImageFault := (streamOrder m).findSome? (fun vt => unitsFault (timedStream m vt.1 vt.2) [])

/-! ### Dependences (R378) -/

/-- An instruction is one of some opcodes on the block of another. -/
def sameBlock (ops : List Nat) (x y : TileInstr) : Bool := ops.contains y.op && y.opslot == x.opslot && y.block == x.block

/-- Every instruction that a predicate picks is ready by the OFFSET of another. -/
def afterReady (l : List Timed) (p : TileInstr → Bool) (x : TileInstr) : Bool := l.all (fun y => !p y.i || decide (y.ready ≤ x.cycle))

/-- R378: the PROJ before a PROJ made the output tile that a later ROUND with SRC 1 of its block still reads: one that stands
after the later PROJ, with no further PROJ of its block between. -/
def tileReadLater (x : TileInstr) (before : Option Timed) (later : List Timed) : Bool := match before with
  | some y => !sameBlock [0x07] y.i x &&
      (later.takeWhile (fun z => !sameBlock [0x07] y.i z.i)).any (fun z => sameBlock [0x04] y.i z.i && z.i.src == 1)
  | none => false

/-- R378: every row that an instruction of a stream has; `passed` is what stands before it, latest first, and `later` what stands
after it. An earlier instruction that the stream holds only after the later one breaks its row. -/
def dependsOk (m : List Byte) (passed later : List Timed) (x : TileInstr) : Bool :=
  let all_ := passed ++ later
  let lastOf := fun (p : TileInstr → Bool) => passed.find? (fun y => p y.i)
  let exists_ := fun (p : TileInstr → Bool) => later.any (fun y => p y.i)
  let feeds := fun (y : TileInstr) => y.op == 0x04 && y.fmt == 1 && y.buf == x.buf
  let ready := fun (o : Option Timed) => match o with
    | some y => decide (y.ready ≤ x.cycle)
    | none => true
  let done := fun (o : Option Timed) => match o with
    | some y => decide (y.free ≤ x.cycle)
    | none => true
  let d := (matrixOf m x.matrix).rows
  match x.op with
  | 0x02 => afterReady all_ (sameBlock [0x01, 0x0A] x) x
  | 0x03 => afterReady all_ (sameBlock [0x02] x) x
  | 0x04 =>
    done (lastOf (fun y => y.op == 0x05 && y.buf == x.buf)) &&
    (if x.src = 0 then afterReady all_ (sameBlock [0x03] x) x
     else match lastOf (sameBlock [0x08] x) with
      | some y => decide (y.ready ≤ x.cycle)
      | none => false)
  | 0x05 => ready (lastOf (fun y => y.op == 0x04 && y.buf == x.buf))
  | 0x06 => done (lastOf (fun y => y.op == 0x07))
  | 0x07 =>
    (match lastOf feeds with
      | some y => decide (y.ready ≤ x.cycle)
      | none => !exists_ (fun y => feeds y && sameBlock [0x04] x y)) &&
    (List.range d).all (fun r => passed.any (fun y => y.i.op == 0x06 && y.i.matrix == x.matrix &&
      decide (y.i.firstRow ≤ r ∧ r < y.i.firstRow + y.i.rows ∧ y.ready ≤ x.cycle))) &&
    passed.all (fun y => !(y.i.op == 0x04 && y.i.src == 1) || decide (y.free ≤ x.cycle)) &&
    !tileReadLater x (lastOf (fun y => y.op == 0x07)) later
  | 0x08 => match lastOf (sameBlock [0x07] x) with
    | some y => decide (y.ready ≤ x.cycle)
    | none => !exists_ (sameBlock [0x07] x)
  | 0x09 => afterReady all_ (sameBlock [0x02] x) x
  | _ => true

/-- DEPENDENCE over one stream. -/
def dependsFault (m : List Byte) : List Timed → List Timed → Option ImageFault
  | [], _ => none
  | x :: rest, passed => if dependsOk m passed rest x.i then dependsFault m rest (x :: passed) else some x.i.fault

/-- DEPENDENCE. -/
def checkDepends (m : List Byte) : Option ImageFault := (streamOrder m).findSome? (fun vt => dependsFault m (timedStream m vt.1 vt.2) [])

/-! ### Coverage -/

/-- R377: an instruction is a CLEAR or a FILL. -/
def TileInstr.begins (i : TileInstr) : Bool := i.op == 0x01 || i.op == 0x0A

/-- R377: what COVERAGE asks of an instruction in its place: `before` and `after_` are the other instructions of its block. An
instruction that its block lacks altogether is asked for at the operation slot's entry (R660) and not here. -/
def coverageOk (before after_ : List TileInstr) (i : TileInstr) : Bool :=
  let begun := before.any TileInstr.begins || !after_.any TileInstr.begins
  match i.op with
  | 0x01 | 0x0A => !before.any TileInstr.begins
  | 0x02 => begun && !before.any (fun j => j.op == 0x02 && j.source == i.source)
  | 0x03 => begun && !(before.any (fun j => j.op == 0x03) || after_.any (fun j => j.op == 0x02))
  | 0x04 => begun && (before.any (fun j => j.op == 0x03) || !after_.any (fun j => j.op == 0x03))
  | _ => true

/-- R377: the instructions of one local block that COVERAGE counts. -/
def TileInstr.covers (x i : TileInstr) : Bool := sameBlock [0x01, 0x02, 0x03, 0x04, 0x0A] x i

/-- R377, R660: COVERAGE over the instructions of a stream in expanded order; `passed` are those before, latest first. -/
def coverageOrder : List TileInstr → List TileInstr → Option ImageFault
  | [], _ => none
  | i :: rest, passed =>
    if coverageOk (passed.filter i.covers) (rest.filter i.covers) i then coverageOrder rest (i :: passed) else some i.fault

/-- R377: a local block has a CLEAR or FILL, an ADD of every source and a CHECK. -/
def blockWhole (p : OpSlot) (l : List TileInstr) : Bool :=
  l.any TileInstr.begins && (List.range p.sources).all (fun k => l.any (fun i => i.op == 0x02 && i.source == k)) && l.any (fun i => i.op == 0x03)

/-- R660: the entry of the first operation slot on a tile that has a block without one of its instructions. -/
def missingFault (m : List Byte) (t : Nat) (s : List TileInstr) : Option ImageFault :=
  ((List.range (mfOpSlots m)).find? (fun k =>
    (opSlot m k).uses t && !(List.range (opSlot m k).bt).all (fun b => blockWhole (opSlot m k) (s.filter (fun i =>
      i.opslot == k && i.block == b))))).map (fun k => (opSlotAt m k, 0))

/-- COVERAGE over one stream: its instructions in expanded order, then what it lacks. DEDUCED (log 40): R660 does not say which
of the two comes first within a tile. -/
def coverageFault (m : List Byte) (t : Nat) (s : List TileInstr) : Option ImageFault := (coverageOrder s []).or (missingFault m t s)

/-- COVERAGE. -/
def checkCoverage (m : List Byte) : Option ImageFault := (streamOrder m).findSome? (fun vt => coverageFault m vt.2 (issued m vt.1 vt.2))

/-! ### The rest -/

/-- R377: two expanded instructions are the same but for OFFSET: their BLOCKs with what REPEAT added, and every other byte. -/
def sameInstr (a b : TileInstr) : Bool :=
  let rest := fun (i : TileInstr) => match blockAt i.op with
    | some o => (i.raw.drop 4).take (o - 4) ++ i.raw.drop (o + 2)
    | none => i.raw.drop 4
  a.op == b.op && a.block == b.block && rest a == rest b

/-- VARIANT_DIFFER: the first difference of a stream from that of the lowest variant. DEDUCED (log 40): where one is
shorter, the fault is the first instruction that has no partner. -/
def differs : List TileInstr → List TileInstr → Option ImageFault
  | [], [] => none
  | [], b :: _ => some b.fault
  | a :: _, [] => some a.fault
  | a :: as_, b :: bs => if sameInstr a b then differs as_ bs else some b.fault

/-- VARIANT_DIFFER. -/
def checkVariants (m : List Byte) : Option ImageFault :=
  match mfCarried m with
  | [] => none
  | v :: rest => (List.range (mfTileCount m)).findSome? (fun t => rest.findSome? (fun w => differs (issued m v t) (issued m w t)))

/-- The least bytes per epoch of one stream (R658): into the die, out of it, and in the stacks of SD0 and SD1. -/
def streamBytes (m : List Byte) : List TileInstr → List TileInstr → Nat × Nat × Nat × Nat
  | [], _ => (0, 0, 0, 0)
  | i :: rest, passed =>
    let r := streamBytes m rest (i :: passed)
    let p := opSlot m i.opslot
    let x := matrixOf m i.matrix
    let home := if mfFirstTile m < 88 then 0 else 1
    let on := fun (d n : Nat) => if d = 0 then (n, 0) else (0, n)
    let (a, b, h) : Nat × Nat × (Nat × Nat) := match i.op with
      | 0x05 => (0, sendBytes m passed i, (0, 0))
      | 0x06 => (i.rows * x.rowBytes, 0, on (x.address / 2 ^ 38) (i.rows * x.rowBytes))
      | 0x09 => (0, 64 * p.k, on home (64 * p.k))
      | 0x0A => (64 * p.k, 0, on home (64 * p.k))
      | _ => (0, 0, (0, 0))
    (r.1 + a, r.2.1 + b, r.2.2.1 + h.1, r.2.2.2 + h.2)

/-- R658: the four least figures of an image. -/
def leastBytes (m : List Byte) : Nat × Nat × Nat × Nat :=
  let v := (mfCarried m).headD 3
  let land := ((List.range (mfOpSlots m)).map (fun k => (opSlot m k).bpe * (opSlot m k).sources * payloadBytes (opSlot m k).inF (opSlot m k).e)).sum
  (List.range (mfTileCount m)).foldl (fun acc t =>
    let b := streamBytes m (issued m v t) []
    (acc.1 + b.1, acc.2.1 + b.2.1, acc.2.2.1 + b.2.2.1, acc.2.2.2 + b.2.2.2)) (land, 0, 0, 0)

/-- R30, R377: `n` bytes over L / f_v are at most 16.4 TB/s. -/
def withinBridge (m : List Byte) (n v : Nat) : Bool := decide (n * variantMhz v ≤ 16400000 * mfL m v)

/-- BANDWIDTH. -/
def checkBandwidth (m : List Byte) : Option ImageFault :=
  let b := leastBytes m
  earliest (faultIf (decide (b.1 ≤ mfBridgeIn m) && (mfCarried m).all (withinBridge m (mfBridgeIn m))) 64 ++
    faultIf (decide (b.2.1 ≤ mfBridgeOut m) && (mfCarried m).all (withinBridge m (mfBridgeOut m))) 72 ++
    faultIf (decide (b.2.2.1 ≤ mfHbm m 0)) 80 ++ faultIf (decide (b.2.2.2 ≤ mfHbm m 1)) 88)

/-- CAPACITY: each tile's instructions as they stand, over all carried variants. -/
def checkInstructions (m : List Byte) : Option ImageFault :=
  ((List.range (mfTileCount m)).find? (fun t => decide (16384 < ((mfCarried m).map (fun v => streamCount m v t)).sum))).map (fun t =>
    (streamEntry m ((mfCarried m).headD 3) t, 0))

/-- R360, R363: KiB of the store that an image takes. -/
def storeKiB (m : List Byte) : Nat := roundUp 64 (ceilDiv m.length 1024)

/-- R377: the checks of an image in their order: the reason with its fault, or none. `room` is the store's room in KiB. -/
def manifestFault (m : List Byte) (length partition slot room : Nat) : Option (Nat × ImageFault) :=
  let tag := fun (r : Nat) (f : Option ImageFault) => f.map (fun x => (r, x))
  (((((((((((((((tag 1 (checkHeader m)).or (tag 2 (checkLength m length))).or (tag 3 (checkPartition m partition))).or
    (tag 4 (checkTiles m slot))).or (tag 5 (checkTrigger m))).or (tag 6 (checkVariant m))).or (tag 7 (checkOpSlots m))).or
    (tag 8 (checkMatrices m))).or (tag 9 (checkOpcode m))).or (tag 10 (checkOrder m))).or (tag 11 (checkUnits m))).or
    (tag 12 (checkDepends m))).or (tag 13 (checkCoverage m))).or (tag 14 (checkVariants m))).or (tag 15 (checkBandwidth m))).or
    (tag 16 ((checkInstructions m).or (if room < storeKiB m then some (8, 0) else none)))

/-- R377, R660: RESULT of a refusal. -/
def refusalResult (r : Nat × ImageFault) : Nat := r.1 + min r.2.2 0xFFFF * 2 ^ 16 + r.2.1 * 2 ^ 32

end Sys2Proof.Machine
end

