-- ==== Sys2Proof/Machine/Tile.lean ====
section
/-! DEFINITION. The tile instructions (R343 to R351, R372 to R374, R385, R391, R402, R420): each command runs the
instruction that stands next in a tile's stream of the running epoch. -/

namespace Sys2Proof.Machine

/-! ### Storage (R316, R372) -/

/-- A byte that a sentinel left in the accumulator store (log 42), or zero. -/
def leftByte (d : Option Nat) (k : Nat) : Byte := match d with
  | some n => Config.leftover n k
  | none => 0

/-- What accumulator slot `k` reads as while nothing has been written to it. -/
def TileSt.blankSlot (x : TileSt) (k : Nat) : List Byte := (List.range 42).map (fun i => leftByte x.leftover (42 * k + i))

/-- What block check register `k` reads as while nothing has been written to it. -/
def TileSt.blankCheck (x : TileSt) (k : Nat) : Nat := withBits (leNat ((List.range 8).map (fun i => leftByte x.leftover (258048 + 8 * k + i)))) 61 61 0

/-- The image of an accumulator slot. -/
def TileSt.slot (x : TileSt) (k : Nat) : List Byte := sget (x.blankSlot k) x.acc k

/-- The tile with a slot's image stored. -/
def TileSt.putSlot (x : TileSt) (k : Nat) (img : List Byte) : TileSt := { x with acc := sset (x.blankSlot k) k img x.acc }

/-- A block check register. -/
def TileSt.check (x : TileSt) (k : Nat) : Nat := sget (x.blankCheck k) x.chk k

/-- The tile with a block check register stored. -/
def TileSt.putCheck (x : TileSt) (k w : Nat) : TileSt := { x with chk := sset (x.blankCheck k) k w x.chk }

/-- A staging buffer, where the last ROUND into it wrote it. -/
def TileSt.buf (x : TileSt) (b : Nat) : Option Staging := (x.staging.find? (fun kv => kv.1 == b)).map (fun kv => kv.2)

/-- R370: the accumulator of element `e` of a block whose first slot is `base`. -/
def TileSt.accumOf (x : TileSt) (l : Layout) (base e : Nat) : Accum := accumAt l (x.slot (base + e / l.perSlot)) (e % l.perSlot)

/-- The accumulators of elements `first` to `first + n - 1` of a block. -/
def TileSt.accums (x : TileSt) (l : Layout) (base first n : Nat) : List Accum := (List.range n).map (fun i => x.accumOf l base (first + i))

/-- R328: element values are added into a block's accumulators. -/
def TileSt.addAll (x : TileSt) (l : Layout) (base : Nat) (es : List Num) : TileSt :=
  es.zipIdx.foldl (fun y ei =>
    let k := base + ei.2 / l.perSlot
    let j := ei.2 % l.perSlot
    y.putSlot k (putAccum l (y.slot k) j ((accumAt l (y.slot k) j).add l (ei.1.toX l.unit) ei.1.flags))) x

/-! ### The instruction that stands next (R373) -/

/-- A tile that has not begun its stream. -/
def TileRun.start : TileRun := ⟨0, none, 0, 0, 0⟩

/-- A tile's progress in an epoch. -/
def EpochRun.tile (e : EpochRun) (t : Nat) : TileRun := sget TileRun.start e.tiles t

/-- An epoch with a tile's progress replaced. -/
def EpochRun.setTile (e : EpochRun) (t : Nat) (x : TileRun) : EpochRun := { e with tiles := sset TileRun.start t x e.tiles }

/-- The next instruction of a tile, read from its instruction memory, with what REPEAT adds to it; none past the end of its stream. -/
def nextInstr (program m : List Byte) (v t : Nat) (x : TileRun) : Option TileInstr :=
  if streamCount m v t ≤ x.pos then none
  else
    let i := instrIn program m v t x.pos
    match x.loop with
    | some (_, _, _, r, stride, inc) =>
      some { i with run := r, cycle := i.cycle + r * stride, block := if (blockAt i.op).isSome then i.block + r * inc else i.block }
    | none => some i

/-- R373: a tile passes an instruction; the last of a span begins the next run or ends the REPEAT. -/
def TileRun.pass (x : TileRun) : TileRun :=
  match x.loop with
  | some (first, span, count, r, stride, inc) =>
    if x.pos + 1 < first + span then { x with pos := x.pos + 1 }
    else if r + 1 < count then { x with pos := first, loop := some (first, span, count, r + 1, stride, inc) }
    else { x with pos := x.pos + 1, loop := none }
  | none => { x with pos := x.pos + 1 }

/-- A tile passes a REPEAT. -/
def TileRun.enter (x : TileRun) (i : TileInstr) : TileRun :=
  { x with pos := x.pos + 1, loop := some (x.pos + 1, i.span, i.times, 0, i.stride, i.blockInc) }

/-- A tile has passed its whole stream. -/
def TileRun.finished (x : TileRun) (m : List Byte) (v t : Nat) : Bool := decide (streamCount m v t ≤ x.pos) && x.loop.isNone

/-- The state with the running epoch of a slot changed by a function. -/
def State.modRun (s : State) (k : Nat) (f : EpochRun → EpochRun) : State := s.modMslot k (fun x => { x with run := x.run.map f })

/-! ### What an instruction acts on -/

/-- An instruction about to issue: the manifest slot, the manifest tile, the logical tile, the image, the instruction,
its operation slot, and that slot's part in the epoch while it is not suppressed. -/
structure Issue where
  slot : Nat
  t : Nat
  tile : Nat
  m : List Byte
  v : Nat
  i : TileInstr
  p : OpSlot
  live : Option LiveSlot
  deriving DecidableEq, Repr

/-- R370: the first accumulator slot of the instruction's block. -/
def Issue.base (x : Issue) : Nat := x.p.slotBase + x.i.block * x.p.k
/-- R370: the check register of its block. -/
def Issue.chk (x : Issue) : Nat := x.p.chkBase + x.i.block
/-- R370: the index of its block within the epoch. -/
def Issue.index (x : Issue) : Nat := x.i.block * x.p.tileN + (x.t - x.p.tileFirst)
/-- R386: its block of the operation. -/
def Issue.blockOf (x : Issue) (a : LiveSlot) : Nat := a.j * x.p.bpe + x.index

/-- R385: the part of the epoch that the instruction works for; none where its slot or block is suppressed. -/
def Issue.work (x : Issue) : Option LiveSlot :=
  match x.live with
  | some a =>
    if (blockAt x.i.op).isSome && !(decide (x.index < x.p.bpe) && decide (x.blockOf a < blocksOf a.count x.p.e)) then none else some a
  | none => none

/-- R432: elements present in the instruction's block. -/
def Issue.present (x : Issue) (a : LiveSlot) : Nat := blockElems a.count x.p.e (x.blockOf a)

/-- The instruction that a tile issues next in a slot's epoch, if the epoch runs and is not void. -/
def State.issue (s : State) (k tile : Nat) : Option Issue :=
  let x := s.mslot k
  match x.run with
  | none => none
  | some e =>
    let m := x.image
    if e.void || tile < mfFirstTile m || mfFirstTile m + mfTileCount m ≤ tile then none
    else
      let t := tile - mfFirstTile m
      (nextInstr (s.tile tile).program m e.variant t (e.tile t)).map (fun i =>
        ⟨k, t, tile, m, e.variant, i, opSlot m i.opslot, e.live.find? (fun a => a.opslot == i.opslot)⟩)

/-- R374, R386: an instruction is passed; where it was not suppressed its ready cycle counts. -/
def State.passIssue (s : State) (x : Issue) (worked : Bool) (ready : Nat) : State :=
  s.modRun x.slot (fun e =>
    let y := (e.tile x.t).pass
    let z := e.setTile x.t (if worked then { y with last := max y.last ready } else y)
    if worked then { z with live := z.live.map (fun a => if a.opslot == x.i.opslot then { a with last := max a.last ready } else a) } else z)

/-- R374: the ready cycle of an instruction other than SEND. -/
def Issue.ready (x : Issue) : Nat :=
  let t := timing x.m x.v [] x.i
  x.i.cycle + t.2.1 + t.2.2

/-- The epoch's part of an operation slot changed by a function. -/
def State.modLive (s : State) (k opslot : Nat) (f : LiveSlot → LiveSlot) : State :=
  s.modRun k (fun e => { e with live := e.live.map (fun a => if a.opslot == opslot then f a else a) })

/-! ### Void epochs and tile faults (R318, R343, R345, R351, R391, R606) -/

/-- R295: the part of an epoch's result charge that no result cell has taken is released. -/
def State.releaseCharge (s : State) (k : Nat) : State :=
  match (s.mslot k).run with
  | none => s
  | some e =>
    ((List.range 2).foldl (fun t d => t.wr TQ_RESULT_CFG_HELD d (t.rd TQ_RESULT_CFG_HELD d - e.charge.getD d 0)) s).settleAllPfc.modRun k
      (fun x => { x with charge := [] })

/-- R391, R392: the epoch that runs in a slot becomes void; its unused charge is released (R295), and its operations are held up
until it runs again. -/
def State.voidEpoch (s : State) (k : Nat) : State :=
  match (s.mslot k).run with
  | none => s
  | some e =>
    if e.void then s
    else
      let b := (s.releaseCharge k).modRun k (fun x => { x with void := true, firstVoid := x.firstVoid.or (some x.start) })
      let t := e.live.foldl (fun u a => u.modOp a.group a.seq (fun o => o.hold (1000 + k) e.start)) b
      ((t.setErr MF_ERR_EPOCH_VOID (k / 64)).addSat MF_SLOT_LATE_VOIDS k 1).raise
        { code := 0x0602, kind := 14, logical := k, die := 6 + k / 64, detail1 := e.number }

/-- The physical tile behind a logical one, as a record shows it. -/
def State.physicalTile (s : State) (t : Nat) : Nat := bitsOf (s.word (RE_TILE_MAP.offset t)).toNat 7 0

/-- The group and sequence that a record names for an instruction's work. -/
def State.workNames (s : State) (a : LiveSlot) : Nat × Nat := match s.group a.group with
  | some g => (handleOf a.group g, a.seq)
  | none => (0, a.seq)

/-- R343, R345, R351, R606: a live check fails: it is recorded, the epoch is void, and the tile is to be retired. -/
def State.checkFails (s : State) (x : Issue) (a : LiveSlot) (err : Fld) (code : Nat) : State :=
  let d := x.slot / 64
  let t := (s.setErr err d).addWrap RE_CHECK_COUNT_SUM_FAIL d 1
  let u := t.raise { code := code, kind := 4, logical := x.tile, die := 6 + d, physical := s.physicalTile x.tile, detail1 := x.blockOf a,
                     group := (s.workNames a).1, sequence := a.seq }
  (u.voidEpoch x.slot).queueRecovery 4 x.tile (s.rd RE_TILE_MAP_PHYS x.tile) .every

/-- R318: an uncorrectable read in a tile's SRAM ends its work on the block: the epoch is void. -/
def State.sramLost (s : State) (x : Issue) (a : LiveSlot) : State :=
  let d := x.slot / 64
  let t := (s.setErr RE_ERR_ACC_UNCORRECTABLE d).raise
    { code := 0x0506, kind := 4, logical := x.tile, die := 6 + d, physical := s.physicalTile x.tile, detail1 := x.blockOf a,
      group := (s.workNames a).1, sequence := a.seq }
  t.voidEpoch x.slot

/-- R318: a corrected error is written back and counted. -/
def State.sramCorrected (s : State) (x : Issue) (sram : Sram) : State :=
  if sram = .corrected then s.setErr RE_ERR_ACC_CORRECTED (x.slot / 64) else s

/-- An instruction of an opcode runs if it stands next: where it is suppressed it only passes; else `act` gives the state
before it passes and whether it passes. -/
def runInstr (op k tile : Nat) (act : Issue → LiveSlot → State → State) (s : State) : State :=
  match s.issue k tile with
  | none => s
  | some x =>
    if x.i.op ≠ op then s
    else match x.work with
      | none => s.passIssue x false 0
      | some a => (act x a s).passIssue x true x.ready

/-- A tile instruction's meaning. -/
def tileRes (op : Nat) (slot : Fin 128) (tile : Fin 176) (act : Issue → LiveSlot → State → State) (s : State) : Res :=
  whenLive (runInstr op slot.val tile.val act) s

/-! ### CLEAR, ADD and CHECK -/

/-- CLEAR: the block's slots and its check register become zero. -/
def clearAct (x : Issue) (_ : LiveSlot) (s : State) : State :=
  s.modTile x.tile (fun y => ((List.range x.p.k).foldl (fun z n => z.putSlot (x.base + n) (zeros 42)) y).putCheck x.chk 0)

/-- CLEAR (R373). -/
def execClear (slot : Fin 128) (tile : Fin 176) (s : State) : Res := tileRes 0x01 slot tile clearAct s

/-- R370: the landing frame of an ADD. -/
def Issue.frame (x : Issue) (a : LiveSlot) : Nat := x.p.frame (a.j % 2) (x.i.block * x.p.sources + x.i.source)

/-- R318, R448: a contribution whose frame cannot be read is asked for again. -/
def State.frameLost (s : State) (x : Issue) (a : LiveSlot) (y : Landed) : State :=
  let h := a.j % 2
  let m := halfMooring (s.record a.group) a.leg h
  let t := (s.sramLost x a).freeFrame x.tile (x.frame a)
  let u := t.setMooring m { t.mooring m with count := (t.mooring m).count - 1 }
  (u.modLeg a.group a.leg (fun g => g.setHalf h { g.half h with ready := none })).askSource a.group a.leg a.seq y.block y.source

/-- ADD: the frame's payload is added into the block's accumulators and its check into the register. A frame that holds no
counted contribution makes the epoch void (R391). -/
def addAct (sram : Sram) (x : Issue) (a : LiveSlot) (s : State) : State :=
  match s.landed x.tile (x.frame a) with
  | none => s.voidEpoch x.slot
  | some y =>
    if !y.counted then s.voidEpoch x.slot
    else if sram = .uncorrectable then s.frameLost x a y
    else
      let n := x.present a
      let payload := sbytes (s.tile x.tile).landing (8192 * x.frame a) (payloadBytes x.p.inF n)
      let es := elements x.p.inF n payload
      (s.modTile x.tile (fun z => (z.addAll x.p.layout x.base es).putCheck x.chk (foldCheck (z.check x.chk) y.check))).sramCorrected x sram

/-- ADD (R373). -/
def execAdd (slot : Fin 128) (tile : Fin 176) (sram : Sram) (s : State) : Res := tileRes 0x02 slot tile (addAct sram) s

/-- CHECK: the accumulators' exact check against the register (R343); where it holds the block counts in EXACT_CHECK (R344).
`holds` is false where a fault of the tile's own arithmetic makes the two disagree (DESIGN CHOICE, log 83). -/
def checkAct (sram : Sram) (holds : Bool) (x : Issue) (a : LiveSlot) (s : State) : State :=
  if sram = .uncorrectable then s.sramLost x a
  else
    let y := s.tile x.tile
    let w := accumCheck x.p.layout (y.accums x.p.layout x.base 0 x.p.e)
    let reg := y.check x.chk
    let t := s.sramCorrected x sram
    if holds = true ∧ checkResidue w = checkResidue reg ∧ checkSpecial w = checkSpecial reg then
      t.modLive x.slot x.i.opslot (fun b => { b with exact := foldOperation b.exact reg (x.blockOf a * x.p.e) false })
    else t.checkFails x a RE_ERR_SUM_CHECK 0x0503

/-- CHECK (R343). -/
def execCheck (slot : Fin 128) (tile : Fin 176) (sram : Sram) (holds : Bool) (s : State) : Res :=
  tileRes 0x03 slot tile (checkAct sram holds) s

/-! ### ROUND (R331 to R336, R345, R432) -/

/-- What stands for output `i` of a block beyond the 4,096 output accumulators (R372; DESIGN CHOICE, log 155): a free value. -/
def Product.lost (q : Product) (i : Nat) : Accum := accumAt .wide ((List.range 42).map (fun k => Config.leftover q.beyond (42 * i + k))) 0

/-- R372: an output of a block as the output accumulators hold it. -/
def Product.output (q : Product) (i : Nat) : Accum := if i < 4096 then q.y.getD i (q.lost i) else q.lost i

/-- The output elements of the block that a ROUND finds, and their accumulators. -/
def State.roundValues (s : State) (x : Issue) (a : LiveSlot) : List Accum :=
  let y := s.tile x.tile
  if x.i.src = 1 then
    match y.product with
    | some q => (List.range (min x.i.count (q.y.length - x.i.first))).map (fun i => q.output (x.i.first + i))
    | none => []
  else y.accums x.p.layout x.base x.i.first (min x.i.count (x.present a - x.i.first))

/-- R345: what a ROUND writes into its BUF. -/
def State.rounded (s : State) (x : Issue) (a : LiveSlot) : Staging :=
  let l := if x.i.src = 1 then Layout.wide else x.p.layout
  let vs := (s.roundValues x a).map (Accum.exact l)
  let us := (List.range vs.length).map (fun i => srValue x.p.seed (s.workNames a).1 a.seq (x.blockOf a) (x.i.first + i))
  let c := roundFormat x.p x.i
  let o := roundPayload c x.p.rounding l.unit us vs
  let flushed := x.i.src == 1 && (match (s.tile x.tile).product with
    | some q => q.flushed
    | none => false)
  { opslot := x.i.opslot, block := x.blockOf a, fromY := x.i.src == 1, format := c, first := x.i.first, bytes := o.bytes, count := vs.length,
    whole := wholeElements x.m x.p x.i, overflow := o.overflow, special := o.special, flushed := flushed, exact := (s.tile x.tile).check x.chk,
    full := payloadBytes c x.i.count }

/-- ROUND: the elements present are rounded into BUF; `mismatch` says that units A and B differ. A ROUND of elements that
are all absent leaves nothing to send (R432). -/
def roundAct (sram : Sram) (mismatch : Bool) (x : Issue) (a : LiveSlot) (s : State) : State :=
  let o := s.rounded x a
  if sram = .uncorrectable then s.sramLost x a
  else
    let t := (s.sramCorrected x sram).modTile x.tile (fun y => { y with staging := if o.bytes.isEmpty then sdel x.i.buf y.staging else sput x.i.buf o y.staging })
    if mismatch then t.checkFails x a RE_ERR_ROUND_MISMATCH 0x0504
    else t.modLive x.slot x.i.opslot (fun b => { b with overflow := b.overflow || o.overflow, special := b.special || o.special })

/-- R385: a suppressed ROUND leaves its BUF with nothing to send. -/
def clearBuf (x : Issue) (s : State) : State := s.modTile x.tile (fun y => { y with staging := sdel x.i.buf y.staging })

/-- The meaning of ROUND, suppressed or not. -/
def roundInstr (k tile : Nat) (sram : Sram) (mismatch : Bool) (s : State) : State :=
  match s.issue k tile with
  | none => s
  | some x =>
    if x.i.op ≠ 0x04 then s
    else match x.work with
      | none => (clearBuf x s).passIssue x false 0
      | some a => if (s.roundValues x a).isEmpty then (clearBuf x s).passIssue x false 0 else (roundAct sram mismatch x a s).passIssue x true x.ready

/-- ROUND (R345). -/
def execRound (slot : Fin 128) (tile : Fin 176) (sram : Sram) (mismatch : Bool) (s : State) : Res :=
  whenLive (roundInstr slot.val tile.val sram mismatch) s

/-! ### SEND (R402, R420, R441) -/

/-- R441: where a payload belongs in its operation's results. -/
def placeOf (y : Staging) (a : LiveSlot) (p : OpSlot) (part : Nat) : ResultAt :=
  { block := y.block, part := part, blocks := blocksOf a.count p.e, fromY := y.fromY, full := payloadBytes y.format y.whole }

/-- R441, R442: a result payload goes to every member entitled to it; R444: a group with a parent sends none. -/
def State.sendDown (s : State) (x : Issue) (a : LiveSlot) (y : Staging) : State :=
  let r := s.record a.group
  let at_ := placeOf y a x.p x.i.part
  let o := outputCheck y.bytes
  match (s.armed a.group).bind (fun g => g.op a.seq) with
  | some q =>
    let t := if grHasParent r then s
      else (receivers r at_.blocks y.block).foldl (fun u m => u.sendResult (some x.slot) a.group q m at_ y.format (checkWord y.special true o) y.bytes) s
    t.modLive x.slot x.i.opslot (fun b =>
      { b with output := foldOperation b.output (checkWord y.special true o) (y.block * ceilDiv at_.full 4 + 2048 * x.i.part) true })
  | none => s

/-- R420: the check word of a payload sent upward, in the units of the exact form it carries. -/
def upwardCheck (y : Staging) : Nat := contributionCheck y.format y.count y.bytes

/-- R420: a leaf's partial becomes a contribution to the top leg. DESIGN CHOICE (log 52): it lands at once. -/
def State.sendToTop (s : State) (x : Issue) (a : LiveSlot) (y : Staging) : State :=
  let i := a.group
  let r := s.record i
  let l := topLeg r
  let p := s.legSlot r l
  let b := y.block * (x.p.e / max 1 p.e) + x.i.part
  let q := a.seq
  match s.armed i with
  | none => s
  | some g =>
    if seqBefore q g.oldest then s.clDrop 3 none
    else if 4 ≤ wrapSub 32 q g.oldest then s.clDrop 7 none
    else match check7 r p none a.count b y.bytes.length with
      | some k => s.clDrop k none
      | none =>
        let land := fun (early : Bool) => s.landIn i l q b a.leg early (blockElems a.count p.e b) (upwardCheck y) y.bytes
        match s.slotFor i l q b a.leg with
        | .frame => match land false with
          | (.frame _ _ t f, u) => u.countFrame i l (b / p.bpe % 2) t f
          | (_, u) => u
        | .early => match land true with
          | (.early _ _ key h, u) => u.modLeg i l (fun v => { v with early := match v.earlyAt key with
              | some (_, z) => sput key (h, { z with counted := true }) v.early
              | none => v.early })
          | (_, u) => u
        | .copy => s.clDrop 6 none
        | .drop k => s.clDrop k none

/-- R420: the top leg's output goes to the parent as a contribution. -/
def State.sendToParent (s : State) (x : Issue) (a : LiveSlot) (y : Staging) : State :=
  match s.group a.group with
  | none => s
  | some g =>
    let r := g.record
    let dst := grParentAddress r
    let c := blankSceca 1 (2 + s.echo a.group a.seq dst) g.partition (grParentGroup r) a.seq y.bytes
    s.originate (some x.slot) (grStrict r) dst { c with block := y.block * grParentParts r + x.i.part, source := grParentSource r, format := y.format,
                                                        check := upwardCheck y } y.bytes

/-- R420, R344: a SEND with DEST 1; what goes to a parent counts in OUTPUT_CHECK, part after part (DEDUCED, log 152). DESIGN
CHOICE (log 53): from a top leg without a parent there is nowhere to send. -/
def State.sendUp (s : State) (x : Issue) (a : LiveSlot) (y : Staging) : State :=
  let r := s.record a.group
  if !grIsTop r a.leg then s.sendToTop x a y
  else if grHasParent r then
    (s.sendToParent x a y).modLive x.slot x.i.opslot (fun b =>
      { b with output := foldOperation b.output (checkWord y.special true (outputCheck y.bytes)) ((y.block * grParentParts r + x.i.part) * ceilDiv y.full 4) true })
  else s

/-- R402: a SEND counted in its tile's entry. -/
def TileRun.sent (x : TileRun) (exact o : Nat) (special : Bool) : TileRun :=
  let td := (bitsOf x.td 60 0 + genPow (2 * x.sends + 1) * checkResidue exact + genPow (2 * x.sends + 2) * o) % prime61
  { x with td := bit (special || x.td.testBit 63) * 2 ^ 63 + td, sends := x.sends + 1 }

/-- R374: the ready cycle of a SEND. -/
def sendReady (x : Issue) (y : Staging) : Nat := x.i.cycle + ceilDiv y.full 128 + 1

/-- SEND: BUF goes out as one packet, down to the members or upward. -/
def sendAct (x : Issue) (a : LiveSlot) (y : Staging) (s : State) : State :=
  let t := if x.i.dest = 0 then s.sendDown x a y else s.sendUp x a y
  let u := t.modRun x.slot (fun e => e.setTile x.t ((e.tile x.t).sent y.exact (outputCheck y.bytes) y.special))
  let v := u.modLive x.slot x.i.opslot (fun b => { b with flushed := b.flushed || y.flushed })
  if grIsTop (s.record a.group) a.leg then v.modOp a.group a.seq (fun o => { o with time := v.now }) else v

/-- The meaning of SEND: suppressed where its BUF holds nothing of a live slot. -/
def sendInstr (k tile : Nat) (s : State) : State :=
  match s.issue k tile with
  | none => s
  | some x =>
    if x.i.op ≠ 0x05 then s
    else match x.live, (s.tile tile).buf x.i.buf with
      | some a, some y => (sendAct x a y s).passIssue x true (sendReady x y)
      | _, _ => s.passIssue x false 0

/-- SEND (R420). -/
def execSend (slot : Fin 128) (tile : Fin 176) (s : State) : Res := whenLive (sendInstr slot.val tile.val) s

/-! ### MLOAD, PROJ and PCHECK (R347 to R351) -/

/-- A read of device memory for an epoch: the state after it, or none where it comes late or is uncorrectable (R390, R506). R24,
R31: a request that waits for a bridge on its way to a stripe's die comes late. -/
def State.epochRead (s : State) (onTime : Bool) (die a n : Nat) : Option State :=
  if !onTime || !(rangeStripes a n).all (fun t => s.passes die (4 + stripeDie t)) || (s.firstLost a n).isSome then none else some (s.readRange areaHint a n)

/-- An epoch's read failed: an uncorrectable one is recorded (R506), and the epoch is void. -/
def State.readFails (s : State) (k a n : Nat) : State :=
  (match s.firstLost a n with
    | some t => s.uncorrectable t
    | none => s).voidEpoch k

/-- R372: 512 KiB of weights. -/
def weightStore : Nat := 524288

/-- R372: rows of a matrix into the weight store. DESIGN CHOICE (log 154): where they do not fit beside what it holds, the rows of
the other matrices give way; one matrix always fits (R377). -/
def TileSt.putRows (y : TileSt) (n first : Nat) (rows : List (List Byte)) : TileSt :=
  let put := fun (l : List (Nat × List Byte)) => rows.zipIdx.foldl (fun w rk => sset [] (65536 * n + first + rk.2) rk.1 w) l
  let size := fun (l : List (Nat × List Byte)) => (l.map (fun kv => kv.2.length)).sum
  let w := put y.weights
  { y with weights := if size w ≤ weightStore then w else put (y.weights.filter (fun kv => kv.1 / 65536 == n)) }

/-- R390: the weight store holds every row of a matrix. -/
def TileSt.holdsMatrix (y : TileSt) (n : Nat) (w : Matrix) : Bool :=
  (List.range w.rows).all (fun j => (sget [] y.weights (65536 * n + j)).length == w.rowBytes)

/-- MLOAD: matrix rows from HBM into the weight store. -/
def mloadAct (onTime : Bool) (x : Issue) (_ : LiveSlot) (s : State) : State :=
  let w := matrixOf x.m x.i.matrix
  let at_ := w.address + x.i.firstRow * w.rowBytes
  match s.epochRead onTime (6 + x.slot / 64) at_ (x.i.rows * w.rowBytes) with
  | none => s.readFails x.slot at_ (x.i.rows * w.rowBytes)
  | some t => t.modTile x.tile (fun y => y.putRows x.i.matrix x.i.firstRow
      ((List.range x.i.rows).map (fun n => s.memBytes (at_ + n * w.rowBytes) w.rowBytes)))

/-- MLOAD (R373). -/
def execMload (slot : Fin 128) (tile : Fin 176) (onTime : Bool) (s : State) : Res := tileRes 0x06 slot tile (mloadAct onTime) s

/-- The matrix as the weight store holds it, element by element. -/
def TileSt.matrix (y : TileSt) (n : Nat) (w : Matrix) : List Num :=
  (List.range w.rows).flatMap (fun j => elements w.format w.cols (fitTo w.rowBytes (sget [] y.weights (65536 * n + j))))

/-- R347, R349: the output accumulators of a block. -/
def productOf (sat : Bool) (w : Matrix) (opslot block beyond : Nat) (g m : List Num) : Product :=
  let gs := g.map (arrayOperand sat)
  let ms := m.map (arrayOperand sat)
  { opslot := opslot, block := block, y := project w.rows w.cols (gs.map (fun v => v.1)) (ms.map (fun v => v.1)), d := w.rows, c := w.cols,
    g := gs.map (fun v => v.1), m := ms.map (fun v => v.1), flushed := gs.any (fun v => v.2) || ms.any (fun v => v.2), checked := false,
    beyond := beyond }

/-- PROJ: the block's Y into the output accumulators. R391: without its BUF or a row of its matrix the epoch is void. -/
def projAct (x : Issue) (a : LiveSlot) (s : State) : State :=
  let y := s.tile x.tile
  match y.buf x.i.buf with
  | none => s.voidEpoch x.slot
  | some b =>
    let w := matrixOf x.m x.i.matrix
    if !y.holdsMatrix x.i.matrix w then s.voidEpoch x.slot
    else
      let q := productOf (saturates x.p.rounding) w x.i.opslot (x.blockOf a) s.free (elements b.format b.whole b.bytes) (y.matrix x.i.matrix w)
      (s.draw.2.modTile x.tile (fun z => { z with product := some q })).modLive x.slot x.i.opslot (fun v =>
        { v with projected := true, flushed := v.flushed || q.flushed })

/-- PROJ (R347). -/
def execProj (slot : Fin 128) (tile : Fin 176) (s : State) : Res := tileRes 0x07 slot tile projAct s

/-- PCHECK: the row and column checks of R351; `holds` says whether the array's hardware met them. -/
def pcheckAct (holds : Bool) (x : Issue) (a : LiveSlot) (s : State) : State :=
  match (s.tile x.tile).product with
  | some q =>
    if holds && projectionChecks q.d q.c q.g q.m q.y then s.modTile x.tile (fun y => { y with product := some { q with checked := true } })
    else s.checkFails x a RE_ERR_PROJ_CHECK 0x0505
  | none => s.voidEpoch x.slot

/-- PCHECK (R351). -/
def execPcheck (slot : Fin 128) (tile : Fin 176) (holds : Bool) (s : State) : Res := tileRes 0x08 slot tile (pcheckAct holds) s

/-! ### SPILL and FILL (R373, R422) -/

/-- R422: the address of an instruction's spill. -/
def State.spillAddress (s : State) (x : Issue) (a : LiveSlot) : Nat :=
  s.partAddress (s.record a.group) a.leg (x.t - x.p.tileFirst) + x.i.spillOff

/-- SPILL: the block's slots as images of 64 bytes. -/
def spillAct (sram : Sram) (x : Issue) (a : LiveSlot) (s : State) : State :=
  if sram = .uncorrectable then s.sramLost x a
  else
    let y := s.tile x.tile
    (s.sramCorrected x sram).memWrite areaHint (s.spillAddress x a) ((List.range x.p.k).flatMap (fun n => fitTo 64 (y.slot (x.base + n))))

/-- SPILL (R373). -/
def execSpill (slot : Fin 128) (tile : Fin 176) (sram : Sram) (s : State) : Res := tileRes 0x09 slot tile (spillAct sram) s

/-- FILL: the images back into the block's slots. -/
def fillAct (onTime : Bool) (x : Issue) (a : LiveSlot) (s : State) : State :=
  let at_ := s.spillAddress x a
  match s.epochRead onTime (6 + x.slot / 64) at_ (64 * x.p.k) with
  | none => s.readFails x.slot at_ (64 * x.p.k)
  | some t => t.modTile x.tile (fun y => (List.range x.p.k).foldl (fun z n => z.putSlot (x.base + n) (s.memBytes (at_ + 64 * n) 42)) y)

/-- FILL (R373). -/
def execFill (slot : Fin 128) (tile : Fin 176) (onTime : Bool) (s : State) : Res := tileRes 0x0A slot tile (fillAct onTime) s

/-! ### REPEAT and GEN -/

/-- REPEAT: the next SPAN instructions are to run COUNT times. -/
def repeatInstr (k tile : Nat) (s : State) : State :=
  match s.issue k tile with
  | none => s
  | some x => if x.i.op ≠ 0x0B then s else s.modRun k (fun e => e.setTile x.t ((e.tile x.t).enter x.i))

/-- REPEAT (R373). -/
def execRepeat (slot : Fin 128) (tile : Fin 176) (s : State) : Res := whenLive (repeatInstr slot.val tile.val) s

/-- Log 42: what a sentinel leaves in a tile's accumulators, check registers, weights and output is not stated. -/
def State.scramble (s : State) (t : Nat) : State :=
  let (_, u) := s.draw
  u.modTile t (fun y => { y with acc := [], chk := [], staging := [], weights := [], product := none, leftover := some s.free })

end Sys2Proof.Machine
end

