-- ==== Sys2Proof/Machine/Manifest.lean ====
section
/-! DEFINITION. The manifest loader: MANIFEST_LOAD, ACTIVATE, DEACTIVATE and UNLOAD with their reservations (R360 to
R366, R380, R381, R483, R484). -/

namespace Sys2Proof.Machine

/-! ### The loader of a die (R364) -/

/-- The manifest slot that a manifest descriptor names. -/
def Desc.slot (d : Desc) : Nat := d.u8 24

/-- R364: a manifest descriptor of the die still runs. -/
def State.loaderBusy (s : State) (die : Nat) : Bool :=
  s.hi.descs.any (fun e => e.started && (e.opcode == 0x50 || e.opcode == 0x51) && e.slot / 64 == die)

/-- The descriptor waits, or one before it on its ring waits, for earlier ones to complete (R68): it has not come to its checks. -/
def State.behindFence (s : State) (d : Desc) : Bool :=
  (s.outstanding d.ring).any (fun f => decide (f.id ≤ d.id) && !f.started && f.fence && (s.outstanding d.ring).any (fun g => decide (g.id < f.id)))

/-- R364: the loader of its die is free for a descriptor, and no manifest descriptor of that die came to its checks before it. -/
def State.loaderFree (s : State) (d : Desc) : Bool :=
  !s.loaderBusy (d.slot / 64) &&
  !s.hi.descs.any (fun e => !e.started && (e.opcode == 0x50 || e.opcode == 0x51) && e.slot / 64 == d.slot / 64 && decide (e.id < d.id) && !s.behindFence e)

/-- R364: a manifest row runs the ring's next descriptor where it is one that `pick` names and it is its turn on its die's loader.
DESIGN CHOICE (log 54): until then the descriptor does not start. -/
def runManifest (n : Nat) (pick : Desc → Bool) (body : Desc → State → State) (s : State) : Res :=
  whenLive (fun t => runDesc n (fun d => pick d && t.loaderFree d) false body t) s

/-! ### Load (R363, R366, R377) -/

/-- The image that a MANIFEST_LOAD names: at HOST_ADDR or in the staging area of the slot's die. -/
def State.imageOf (s : State) (d : Desc) (data : HostData) : Option (List Byte) :=
  if d.u8 27 = 1 then some (sbytes s.re.areas (2 ^ 24 * (d.slot / 64)) d.length) else hostBytes d data

/-- R363: KiB of the store that a slot's image takes; none for an EMPTY slot. -/
def State.storedKiB (s : State) (k : Nat) : Nat := if (s.mslot k).image.isEmpty then 0 else storeKiB (s.mslot k).image

/-- R363, R366, R407: an accepted image stands in its slot, and its copy in the device area. -/
def State.acceptImage (s : State) (k : Nat) (m : List Byte) : State :=
  let free := s.rd MF_DIE_STATUS_STORE_FREE (k / 64) + s.storedKiB k - storeKiB m
  (((s.setMslot k { SlotSt.reset with image := m, copy := m }).wr MF_DIE_STATUS_STORE_FREE (k / 64) free).wrs
    [(MF_SLOT_STATUS_STATE, k, 1), (MF_SLOT_STATUS_VARIANTS, k, mfVariants m), (MF_SLOT_STATUS_TRIGGER, k, mfTrigger m),
     (MF_SLOT_STATUS_TILE_COUNT, k, mfTileCount m), (MF_SLOT_STATUS_FIRST_TILE, k, mfFirstTile m), (MF_SLOT_STATUS_BOUND, k, 0)]).putBytes
    MF_SLOT_DIGEST (8 * k) (sm3 m)

/-- R363, R366, R377: a MANIFEST_LOAD is measured, checked and placed, or refused. -/
def State.loadManifest (s : State) (d : Desc) (data : HostData) : State :=
  let k := d.slot
  if 2 ≤ s.slotState k then s.complete d .busy 0 0
  else match s.imageOf d data with
    | none => s.complete d .hostAccessError 0 0
    | some m =>
      match manifestFault m d.length d.partition k (s.rd MF_DIE_STATUS_STORE_FREE (k / 64) + s.storedKiB k) with
      | some f => (s.attest 3 1 k (sm3 m)).complete d .manifestRejected (refusalResult f) 0
      | none => ((s.attest 3 0 k (sm3 m)).acceptImage k m).complete d .success 0 0

/-- R365: the load from a staging area that a ring has under way. -/
def State.loadUnderWay (s : State) (n : Nat) : Option Desc := s.hi.descs.find? (fun d => d.ring == n && d.started && d.opcode == 0x50)

/-- MANIFEST_LOAD on a ring. DESIGN CHOICE (log 84): a load from a staging area starts with one command and ends with the
ring's next MANIFEST_LOAD; until then R365 closes the area. A load from host memory is one command. -/
def manifestLoad (n : Nat) (data : HostData) (s : State) : State :=
  match s.loadUnderWay n with
  | some d => if d.atRead then resumeDesc d (fun _ => ImageTest.clean) (fun e u => u.loadManifest e data) s else s.loadManifest d data
  | none => runDesc n (fun d => d.opcode == 0x50 && s.loaderFree d) ((s.nextDesc n).any (fun d => d.u8 27 == 0))
      (fun d u => if d.u8 27 = 1 then u else u.loadManifest d data) s

/-- MANIFEST_LOAD (R363). -/
def execManifestLoad (ring : Fin 4096) (data : HostData) (s : State) : Res := whenLive (manifestLoad ring.val data) s

/-! ### Reservations (R380, R484) -/

/-- The slots of a die that are ACTIVE or DEACTIVATING. -/
def State.activeSlots (s : State) (die : Nat) : List Nat := ((List.range 64).map (fun n => 64 * die + n)).filter (fun k => decide (2 ≤ s.slotState k))

/-- A sum of fractions in lowest form of their making: numerator and denominator. -/
def sumFractions (l : List (Nat × Nat)) : Nat × Nat := l.foldl (fun a x => (a.1 * x.2 + x.1 * a.2, a.2 * x.2)) (0, 1)

/-- R380: T of a manifest in ns, as a fraction: PERIOD_NS, or the shortest L / f_v. -/
def mfT (m : List Byte) : Nat × Nat :=
  if mfTrigger m = 1 then
    (mfCarried m).foldl (fun a v => if a.1 * variantMhz v ≤ mfL m v * 1000 * a.2 then a else (mfL m v * 1000, variantMhz v)) (mfL m 3 * 1000, variantMhz 3)
  else (mfPeriod m, 1)

/-- Bytes per T as a fraction of bytes per ns. -/
def perT (m : List Byte) (bytes : Nat) : Nat × Nat := (bytes * (mfT m).2, max 1 (mfT m).1)

/-- R380: the images of manifests on a die with one more are within the bridge's 16.4 TB/s in each direction. -/
def bridgeGranted (ms : List (List Byte)) : Bool :=
  let ok := fun (f : List Byte → Nat) => let q := sumFractions (ms.map (fun m => perT m (f m))); decide (q.1 ≤ 16400 * q.2)
  ok mfBridgeIn && ok mfBridgeOut

/-- The images of the manifests that hold reservations. -/
def State.activeImages (s : State) : List (List Byte) := ((s.activeSlots 0) ++ (s.activeSlots 1)).map (fun k => (s.mslot k).image)

/-- R483: the ceiling of reserved-class grants of a die, in units of 0.01 TB/s. -/
def hbmCeiling : Nat := 1028

/-- R380, R484: the manifests' grants on stack die `d` fit below its ceiling with the other grants. -/
def State.hbmGranted (s : State) (d : Nat) (ms : List (List Byte)) : Bool :=
  let q := sumFractions (ms.map (fun m => perT m (mfHbm m d)))
  decide (q.1 ≤ 10 * (hbmCeiling - s.rd MS_BW_GRANT_SLIPWAY d - s.rd MS_BW_GRANT_DEVICE d) * q.2)

/-- R487: MS_BW_GRANT of a die follows the manifests that hold reservations. DESIGN CHOICE (log 55): MANIFEST is rounded up. -/
def State.showGrant (s : State) (d : Nat) : State :=
  let q := sumFractions (s.activeImages.map (fun m => perT m (mfHbm m d)))
  let g := ceilDiv q.1 (10 * q.2)
  (s.wr MS_BW_GRANT_MANIFEST d g).wr MS_BW_GRANT_FREE d (hbmCeiling - s.rd MS_BW_GRANT_SLIPWAY d - g - s.rd MS_BW_GRANT_DEVICE d)

/-- R380: the first reservation of an image that cannot be granted to slot `k`. -/
def State.reservationRefused (s : State) (k : Nat) (m : List Byte) : Option Nat :=
  if !bridgeGranted (m :: (s.activeSlots (k / 64)).map (fun n => (s.mslot n).image)) then some 1
  else if !(s.hbmGranted 0 (m :: s.activeImages) && s.hbmGranted 1 (m :: s.activeImages)) then some 2
  else if !(List.range 2).all (fun d => decide (mfResultCells m d ≤ s.rd TQ_RESULT_CFG_LIMIT d)) then some 3
  else none

/-! ### Activation (R363, R381, R382) -/

/-- R382: the first trigger instant that is not earlier than `from_`. -/
def firstInstant (m : List Byte) (from_ : Nat) : Nat :=
  if from_ ≤ mfPhase m then mfPhase m else mfPhase m + ceilDiv (from_ - mfPhase m) (max 1 (mfPeriod m)) * mfPeriod m

/-- R363: some other ACTIVE or DEACTIVATING slot covers one of the manifest's tiles. -/
def State.tilesTaken (s : State) (k : Nat) (m : List Byte) : Bool :=
  (s.activeSlots (k / 64)).any (fun n => (mfTiles (s.mslot n).image).any (fun t => (mfTiles m).contains t))

/-- R363: every matrix lies inside one DEVICE_REGION of the manifest's partition. -/
def State.matricesInside (s : State) (m : List Byte) : Bool :=
  (List.range (mfMatrices m)).all (fun i =>
    let x := matrixOf m i
    s.regionTest 5 (mfPartition m) x.address (x.rows * x.rowBytes) == .inside)

/-- R360, R363: the streams of a manifest are copied into its tiles' instruction memories. -/
def State.loadPrograms (s : State) (m : List Byte) : State :=
  (List.range (mfTileCount m)).foldl (fun t n => t.modTile (mfFirstTile m + n) (fun y => { y with program := programOf m n })) s

/-- R363: a slot becomes ACTIVE: its streams are in the instruction memories and its counts start at zero. -/
def State.activateSlot (s : State) (k : Nat) (m : List Byte) (first : Nat) : State :=
  let t := s.modMslot k (fun x => { x with next := first, nominal := none, ended := s.now, run := none, late := 0, startedAt := none })
  let u := (t.wrs [(MF_SLOT_STATUS_STATE, k, 2), (MF_SLOT_EPOCHS_EPOCHS, k, 0), (MF_SLOT_LATE_VOIDS, k, 0), (MF_SLOT_LATE_SKIPPED, k, 0),
    (MF_SLOT_LATE_LATE_MAX_NS, k, 0), (MF_SLOT_LATE_SUM_LATE_EPOCHS, k, 0), (MF_SLOT_LATE_SUM_LATE_SUM_US, k, 0)]).addSat MF_DIE_STATUS_ACTIVE (k / 64) 1
  let v : State := { u with re := { u.re with own := u.re.own.filter (fun g => g.slot != k), peer := u.re.peer.filter (fun g => g.slot != k) } }
  ((v.showGrant 0).showGrant 1).loadPrograms m

/-- R363, R380, R381: MANIFEST_ACTIVATE with ACTION 0. -/
def State.activate (s : State) (d : Desc) : State :=
  let k := d.slot
  let m := (s.mslot k).image
  if s.slotState k = 0 then s.complete d .notFound 0 0
  else if s.slotState k ≠ 1 ∨ s.tilesTaken k m = true then s.complete d .busy 0 0
  else if !s.matricesInside m then s.complete d .protectionFault 0 0
  else match s.reservationRefused k m with
    | some r => s.complete d .quotaExceeded r 0
    | none =>
      let first := if mfTrigger m = 1 then 0 else firstInstant m ((s.dom (mfDomain m)).total + 10000)
      (s.activateSlot k m first).complete d .success first 0

/-- MANIFEST_ACTIVATE (R380). -/
def execManifestActivate (ring : Fin 4096) (s : State) : Res :=
  runManifest ring.val (fun d => d.opcode == 0x51 && d.u8 27 != 1 && d.u8 27 != 2) (fun d t => t.activate d) s

/-! ### Deactivation and unloading (R363) -/

/-- R363: a DEACTIVATING slot whose epoch has ended becomes LOADED: its reservations are released and its descriptors
complete. -/
def State.settleDeactivation (s : State) (k : Nat) : State :=
  if s.slotState k ≠ 3 ∨ (s.mslot k).run.isSome = true then s
  else
    let t := (s.wr MF_SLOT_STATUS_STATE k 1).wr MF_DIE_STATUS_ACTIVE (k / 64) (s.rd MF_DIE_STATUS_ACTIVE (k / 64) - 1)
    let u := (((t.modMslot k (fun x => { x with next := 0, nominal := none })).showGrant 0).showGrant 1)
    (u.hi.descs.filter (fun e => e.started && e.opcode == 0x51 && e.u8 27 == 1 && e.slot == k)).foldl (fun v e => v.complete e .success 0 0) u

/-- R363: MANIFEST_ACTIVATE with ACTION 1. A void epoch that waits for its rerun is given up. -/
def State.deactivate (s : State) (d : Desc) : State :=
  let k := d.slot
  if s.slotState k = 0 then s.complete d .notFound 0 0
  else if s.slotState k ≠ 2 ∨ (s.mslot k).bound.isEmpty = false then s.complete d .busy 0 0
  else
    let t := s.wr MF_SLOT_STATUS_STATE k 3
    (t.modMslot k (fun x => { x with run := x.run.filter (fun e => !e.ended) })).settleDeactivation k

/-- MANIFEST_DEACTIVATE (R363). -/
def execManifestDeactivate (ring : Fin 4096) (s : State) : Res :=
  runManifest ring.val (fun d => d.opcode == 0x51 && d.u8 27 == 1) (fun d t => t.deactivate d) s

/-- R363: an image is freed and its slot becomes EMPTY. -/
def State.emptySlot (s : State) (k : Nat) : State :=
  let t := s.wr MF_DIE_STATUS_STORE_FREE (k / 64) (s.rd MF_DIE_STATUS_STORE_FREE (k / 64) + s.storedKiB k)
  (((t.setMslot k SlotSt.reset).setWord (MF_SLOT_STATUS.offset k) 0).putBytes MF_SLOT_DIGEST (8 * k) (zeros 32))

/-- R363: MANIFEST_ACTIVATE with ACTION 2. -/
def State.unload (s : State) (d : Desc) : State :=
  if s.slotState d.slot = 0 then s.complete d .success 0 0
  else if s.slotState d.slot ≠ 1 then s.complete d .busy 0 0
  else (s.emptySlot d.slot).complete d .success 0 0

/-- MANIFEST_UNLOAD (R363). -/
def execManifestUnload (ring : Fin 4096) (s : State) : Res :=
  runManifest ring.val (fun d => d.opcode == 0x51 && d.u8 27 == 2) (fun d t => t.unload d) s

end Sys2Proof.Machine
end

