-- ==== Sys2Proof/Machine/Sched.lean ====
section
/-! DEFINITION. The scheduler (R273 to R278, R291, R303) and departure (R175 to R177, R199, R299, R570 to R573). -/

namespace Sys2Proof.Machine

/-! ### Deficit round robin (R277) -/

/-- R277: the loop over the active members: `charge m` is what member `m` would be charged for its next frame
where it is eligible, `quantum m` its quantum. The answer is the member served and the round after it. -/
def drrPick (charge : Nat → Option Nat) (quantum : Nat → Nat) : Nat → Drr → Option (Nat × Drr)
  | 0, _ => none
  | fuel + 1, d =>
    match d.active with
    | [] => none
    | m :: rest =>
      match charge m with
      | none => drrPick charge quantum fuel { d with active := rest ++ [m], granted := false }
      | some c =>
        let had := sget 0 d.deficit m
        let have_ := if d.granted then had else min (had + quantum m) (quantum m + 9236)
        if c ≤ have_ then some (m, { d with deficit := sset 0 m (have_ - c) d.deficit, granted := true })
        else drrPick charge quantum fuel { active := rest ++ [m], deficit := sset 0 m have_ d.deficit, granted := false }

/-- Visits after which an eligible member has been served: its deficit reaches 9,236 bytes within 37 quanta. -/
def Drr.fuel (d : Drr) : Nat := 40 * (d.active.length + 1)

/-! ### Eligibility (R274) -/

/-- R209: the first cells of a queue's head lie in SRAM. -/
def State.headInSram (s : State) (q : Nat) : Bool := s.pagesOf q == 0 || decide (0 < (s.slipOf q).1)

/-- R175: a copy of a frame toward port `n` may begin egress: its tail is checked, or it may cut through. -/
def State.mayBegin (s : State) (n : Nat) (x : FrameSt) : Bool :=
  x.checked || (match x.ingress with
    | none => true
    | some i => x.early && decide (s.portRate n ≤ s.portRate i))

/-- R173: L of a frame: its length through the FCS; before its tail has come, as its headers tell it (log 146): the FCS is added to
what an IP header or a Sceca header gives, and padded to 64 bytes. -/
def FrameSt.length (x : FrameSt) : Nat := if x.checked || (parse x.raw).ip.isNone then x.len else max 64 (x.len + 4)

/-- R275, R277: charge of a frame. -/
def FrameSt.charge (x : FrameSt) : Nat := x.length + 20

/-- R300: the frame is held by a fence. -/
def FrameSt.fenceHeld (x : FrameSt) : Bool := match x.fence with
  | some (_, _, held) => held
  | none => false

/-- R274, R24, R29: the head frame of a queue where it is eligible and the bridges on its way out are open. -/
def State.eligibleHead (s : State) (n q : Nat) : Option (Nat × FrameSt) :=
  match (s.queue q).head? with
  | none => none
  | some f =>
    match s.frame f with
    | none => none
    | some x => if s.mayBegin n x && !x.fenceHeld && s.headInSram q && s.crossed x && s.passes (4 + homeDie n) (n / 256) then some (f, x) else none

/-- The class conditions of R274 that hang on the frame: gate and credit. DEDUCED (log 35): the queue rounds pass over
a head that they do not let go. -/
def State.classLets (s : State) (n c : Nat) (x : FrameSt) : Bool :=
  s.gateOpen n c x.length && (!s.isFabric n || s.creditLets n c (cellsOf x.len))

/-- R275: the shaper of a class is not in deficit. -/
def State.shaperLets (s : State) (n c : Nat) : Bool :=
  s.rd TQ_CLASS_SCHED_MAX_RATE (8 * n + c) == 0 || decide (sget 0 (s.port n).shaper c ≤ 18472 * 80)

/-- The conditions of R274 on a class that hang on no frame. -/
def State.classOpen (s : State) (n c : Nat) : Bool :=
  s.shaperLets n c && (s.isFabric n || !(s.port n).paused.testBit c)

/-- The charge of a queue's head where the queue can be served. -/
def State.queueCharge (s : State) (n c q : Nat) : Option Nat :=
  match s.eligibleHead n q with
  | some (_, x) => if s.classLets n c x then some x.charge else none
  | none => none

/-- The quantum of the queues of a class (R269). -/
def State.queueQuantum (s : State) (n c : Nat) : Nat := s.rd TQ_QLAYOUT_QUANTUM (8 * s.rd TQ_PORT_SCHED_LAYOUT n + c)

/-- The queue that a class would serve next, with the round after it. -/
def State.peekClass (s : State) (n c : Nat) : Option (Nat × Drr) :=
  if s.classOpen n c then
    let d := (s.port n).queueRound c
    drrPick (s.queueCharge n c) (fun _ => s.queueQuantum n c) d.fuel d
  else none

/-- The charge of the frame that a class would send next. -/
def State.classCharge (s : State) (n c : Nat) : Option Nat := (s.peekClass n c).bind (fun qd => s.queueCharge n c qd.1)

/-- R276: the class is served as strict. -/
def State.servedStrict (s : State) (n c : Nat) : Bool := s.flag TQ_CLASS_SCHED_STRICT (8 * n + c) && !(s.port n).demoted

/-- R277: the class to serve, with the class round after it: the highest eligible strict class, else by round robin. -/
def State.pickClass (s : State) (n : Nat) : Option (Nat × Drr) :=
  let d := (s.port n).clsDrr
  match ((List.range 8).reverse.filter (fun c => s.servedStrict n c)).find? (fun c => (s.classCharge n c).isSome) with
  | some c => some (c, d)
  | none =>
    drrPick (fun c => if s.servedStrict n c then none else s.classCharge n c) (fun c => s.rd TQ_CLASS_SCHED_QUANTUM (8 * n + c)) d.fuel d

/-! ### Starting a frame (R303, R571) -/

/-- R303: whether the frame that leaves a queue of profile `p` is marked. -/
def State.markDraw (s : State) (q p : Nat) (bytes : List Byte) : Bool × State :=
  if !ecnCapable bytes then (false, s)
  else match s.congestion q with
    | .slipway => (true, s)
    | .rising =>
      let (v, t) := s.draw
      (decide (v % 256 < s.rd TQ_ECN_PROFILE_RISE_PROB p), t)
    | .clear => (false, s)

/-- R571: the residence of a frame that departs now. -/
def State.residence (s : State) (x : FrameSt) : Option Nat :=
  match x.arrival with
  | none => none
  | some a =>
    let d := s.rd TB_TC_CFG_DOMAIN 0
    if s.flag TB_TC_CFG_ENABLE 0 && s.timeReady d then some (wrapSub 64 ((s.dom d).total * 65536 + (s.dom d).frac / 65536) a) else none

/-- A queue's head starts on the wire: it is marked, its residence is known, and the shaper is charged. -/
def State.startFrame (s : State) (n c q f : Nat) (x : FrameSt) : State :=
  let profile := s.rd TQ_QLAYOUT_PROFILE (8 * s.rd TQ_PORT_SCHED_LAYOUT n + c)
  let (mark, t) := s.markDraw q profile x.bytes
  let u := if mark then (t.portAdd n 51 1).queueAdd q 3 1 else t
  let begin_ := fun (k : Copy) => if k.queue == q then { k with started := true, mark := mark, residence := s.residence x, charged := x.charge } else k
  let v := u.setFrame f { x with copies := x.copies.map begin_ }
  let shaped := s.rd TQ_CLASS_SCHED_MAX_RATE (8 * n + c) != 0
  v.modPort n (fun p => { p with sending := some f, shaper := if shaped then smod 0 c (fun b => b + 80 * x.charge) p.shaper else p.shaper })

/-- R200: the frame chosen goes out, or waits for the replay store. -/
def State.serve (s : State) (n c : Nat) (clsRound : Drr) : State :=
  match s.peekClass n c with
  | none => s
  | some (q, round) =>
    match s.eligibleHead n q with
    | none => s
    | some (f, x) =>
      if s.isFabric n && !s.storeTakes n (min x.length (s.rd PC_PORT_CFG_MAX_FRAME n) - 4) then s.wr PC_PORT_STATUS_REPLAY_LIMITED n 1
      else
        let t := s.modPort n (fun p => { p with clsDrr := clsRound, queueDrr := sput c round p.queueDrr })
        (t.startFrame n c q f x).wr PC_PORT_STATUS_REPLAY_LIMITED n 0

/-! ### The choice (R209, R277, R291) -/

/-- R291: heads of a queue that no window of their class can ever take are dropped. -/
def State.dropUnfit (s : State) (n c q : Nat) : Nat → State
  | 0 => s
  | fuel + 1 =>
    match (s.queue q).head? with
    | none => s
    | some f =>
      match s.frame f with
      | none => s
      | some x =>
        if s.neverFits n c x.length then State.dropUnfit (((s.endCopy f q true).portAdd n 22 1).queueAdd q 2 1) n c q fuel else s

/-- R209: a queue that the scheduler skips while it awaits a page is counted. -/
def State.countStalls (s : State) (n : Nat) : State :=
  ((s.portQueues n).filter (fun q => !s.headInSram q)).foldl (fun t _ => t.portAdd n 50 1) s

/-- R277: one choice of a port's scheduler. -/
def schedulerSelect (n : Nat) (s : State) : State :=
  if s.link n ≠ 3 ∨ (s.port n).sending.isSome = true then s
  else
    let t := (s.portQueues n).foldl (fun u q =>
      match (u.port n).classOf q with
      | some c => u.dropUnfit n c q (u.queue q).length
      | none => u) s
    let v := t.countStalls n
    match v.pickClass n with
    | some (c, round) => v.serve n c round
    | none => v

/-- SCHEDULER_SELECT (R277). -/
def execSchedulerSelect (port : Fin 1024) (s : State) : Res := whenLive (schedulerSelect port.val) s

/-! ### Departure -/

/-- R303, R572: the bytes of a copy as they left, with its mark and its correction. -/
def Copy.edit (k : Copy) (bytes : List Byte) : List Byte :=
  let b := if k.mark then markCe bytes else bytes
  match k.residence with
  | none => b
  | some r => match ptpEvent b (parse b) with
    | some o => ptpCorrect b (parse b) o r
    | none => b

/-- R570, R573: a PTP event message counts as corrected or bypassed. -/
def State.countPtp (s : State) (x : FrameSt) (k : Copy) : State :=
  if x.ingress.isNone || (ptpEvent x.bytes (parse x.bytes)).isNone then s
  else if k.residence.isSome then s.addWrap TB_TC_COUNT_CORRECTED 0 1
  else if x.arrival.isNone then s.addWrap TB_TC_COUNT_BYPASSED 0 1
  else s

/-- R214: what a frame counts as it leaves. -/
def State.countSent (s : State) (n q len : Nat) (stomp : Option Nat) : State :=
  match stomp with
  | none => (((s.portAdd n 2 1).portAdd n 3 len).queueAdd q 0 1).queueAdd q 1 len
  | some r => if r ≤ 6 then s.portAdd n (13 + r) 1 else s

/-- R194, R199: a copy goes out, under the next sequence number and into the replay store on a fabric port. -/
def State.sendCopy (s : State) (n f : Nat) (x : FrameSt) (bytes : List Byte) (cells : Nat) (stomp : Option Nat) : State :=
  if s.isFabric n then
    let (seq, t) := s.takeSeq n x.net cells
    t.sendHeld n ⟨seq, cells, x.net, bytes, some f, stomp⟩
  else s.emit (frameOut n none bytes stomp)

/-- R191: a copy that was in transmission as its link's initialisation started again ends under its old number; it is one of the
unacknowledged frames discarded. -/
def State.sendStale (s : State) (n seq : Nat) (x : FrameSt) (bytes : List Byte) (stomp : Option Nat) : State :=
  ((s.modPort n (fun p => { p with stale := none })).emit (frameOut n (some (makeTag seq true x.net)) bytes stomp)).portAdd n 49 1

/-- A port's wire is free again: a retransmission that waited for it begins (R199), then frames of the port itself. -/
def State.wireFree (s : State) (n : Nat) : State :=
  let t := s.modPort n (fun p => { p with sending := none })
  State.releaseOwn (match (t.port n).rtxDue with
    | some a => t.retransmit n a
    | none => t) n

/-- R277: a round's member that was charged `was` for a frame is charged `is_`. -/
def Drr.recharge (d : Drr) (m was is_ : Nat) : Drr :=
  if d.deficit.any (fun kv => kv.1 == m) then { d with deficit := sset 0 m (sget 0 d.deficit m + was - is_) d.deficit } else d

/-- R275, R277: a frame that started before its length was known is charged as it was sent: its shaper, its queue and its class. -/
def State.settleCharge (s : State) (n q was is_ : Nat) : State :=
  if was = is_ then s
  else match (s.port n).classOf q with
    | none => s
    | some c =>
      let shaped := s.rd TQ_CLASS_SCHED_MAX_RATE (8 * n + c) != 0
      let strict := s.servedStrict n c
      s.modPort n (fun p => { p with
        shaper := if shaped then smod 0 c (fun b => b + 80 * is_ - 80 * was) p.shaper else p.shaper
        clsDrr := if strict then p.clsDrr else p.clsDrr.recharge c was is_
        queueDrr := sput c ((p.queueRound c).recharge q was is_) p.queueDrr })

/-- The frame in transmission on a port has left with its last bit; one whose tail has not come cannot have. R176: one that was found
longer than the port allows is cut there and stomped, and so is one whose cells could not be read from SRAM (R465). -/
def frameDeparted (n : Nat) (sram : Sram) (s : State) : State :=
  match (s.port n).sending with
  | none => s
  | some f =>
    match s.frame f with
    | none => s.modPort n (fun p => { p with sending := none })
    | some x =>
      match x.copies.find? (fun k => k.port == n && k.started && !k.done) with
      | none => s.modPort n (fun p => { p with sending := none })
      | some k =>
        if !x.ended then s
        else
          let max := s.rd PC_PORT_CFG_MAX_FRAME n
          let stomp := x.stomp.or (if max < x.len then some 3 else if sram = .uncorrectable then some 5 else none)
          let bytes := (k.edit x.bytes).take (max - 4)
          let len := bytes.length + 4
          let a := ((s.sramRead (homeDie n) n sram).settleCharge n k.queue k.charged (len + 20)).countPtp x k
          let b := a.countSent n k.queue len stomp
          match (s.port n).stale with
          | some seq => ((b.sendStale n seq x bytes stomp).endCopy f k.queue true).wireFree n
          | none => ((b.sendCopy n f x bytes (cellsOf len) stomp).endCopy f k.queue (!s.isFabric n)).wireFree n

/-- FRAME_DEPARTED (R299). -/
def execFrameDeparted (port : Fin 1024) (sram : Sram) (s : State) : Res := whenLive (frameDeparted port.val sram) s

/-! ### Shapers (R275) -/

/-- R275: every shaper of the device fills for `ns` nanoseconds. -/
def State.fillShapers (s : State) (ns : Nat) : State :=
  ((s.pc.ports.filter (fun kv => !kv.2.shaper.isEmpty)).map (fun kv => kv.1)).foldl (fun t n =>
    t.modPort n (fun p =>
      let fill := fun (acc : List (Nat × Nat)) (cb : Nat × Nat) => sset 0 cb.1 (cb.2 - ns * t.rd TQ_CLASS_SCHED_MAX_RATE (8 * n + cb.1)) acc
      { p with shaper := p.shaper.foldl fill [] })) s

end Sys2Proof.Machine
end

