-- ==== Sys2Proof/Machine/Slipway.lean ====
section
/-! DEFINITION. The Slipway (R204 to R212): spilling, fetching and the writes of its region registers; and
COUNTER_SNAPSHOT (R308 to R311). -/

namespace Sys2Proof.Machine

/-! ### Spilling (R208, R210) -/

/-- The cells of a queue before the next page that may leave SRAM: its first HEAD_CELLS, or those before and in its pages. -/
def State.spillFrom (s : State) (q : Nat) : Nat :=
  if s.pagesOf q = 0 then s.rd PC_SLIP_CFG_HEAD_CELLS (homeDie (q / 1024)) else (s.slipOf q).1 + 16 * s.pagesOf q

/-- The frames of a queue that a page of cells behind `a` touches, with the cells before each. -/
def State.pageFrames (s : State) (q a : Nat) : List (Nat × Nat) :=
  (s.placed q).filter (fun fa => decide (fa.2 < a + 16 ∧ a < fa.2 + s.frameCells (q / 1024) fa.1))

/-- R208: a queue has a page of cells that may leave SRAM: none of its first HEAD_CELLS. DESIGN CHOICE (log 36): a queue's cells in the
region stand together, and a page waits until the frames in it have come whole. -/
def State.canSpill (s : State) (q : Nat) : Bool :=
  decide (s.spillFrom q + 16 ≤ s.queueCells q ∧ s.rd PC_SLIP_CFG_HEAD_CELLS (homeDie (q / 1024)) ≤ s.spillFrom q) &&
  (s.pageFrames q (s.spillFrom q)).all (fun fa => (s.frame fa.1).any (fun x => x.ended))

/-- The queues of a die that can give a page. -/
def State.spillable (s : State) (die : Nat) : List Nat :=
  (s.pc.queues.filter (fun kv => homeDie (kv.1 / 1024) == die && s.canSpill kv.1)).map (fun kv => kv.1)

/-- The queue among some that holds the most SRAM cells. -/
def State.longest (s : State) (qs : List Nat) : Option Nat :=
  qs.find? (fun q => qs.all (fun r => decide (s.sramCells r ≤ s.sramCells q)))

/-- A charge against a reservation (R166). -/
def Charge.reserved : Charge → Bool
  | .min => true
  | .headroom => true
  | .pool => true
  | .shared => false
  | .result => false

/-- A frame holds cells against a reservation on a die. -/
def FrameSt.holdsReserved (x : FrameSt) (die : Nat) : Bool := x.charges.any (fun c => c.1 == die && c.2.1.reserved && c.2.2 != 0)

/-- Cells admitted against reservations on a die that SRAM still holds. -/
def State.reservedCells (s : State) (die : Nat) : Nat :=
  s.chargedCells die .min + s.chargedCells die .headroom + s.chargedCells die .pool - s.pagedUnder die Charge.reserved

/-- A queue holds a frame that was admitted against a reservation. -/
def State.queueReserved (s : State) (q : Nat) : Bool :=
  (s.queue q).any (fun f => match s.frame f with
    | some x => x.holdsReserved (homeDie (q / 1024))
    | none => false)

/-- R208: occupancy of the shared pool of a die. -/
def State.occupancy (s : State) (die : Nat) : Nat := s.sharedPool die - s.sharedFree die

/-- R208: whether a die's long queues are spilling, with the hysteresis of SPILL_AT. -/
def State.longSpilling (s : State) (die : Nat) : Bool :=
  let a := s.rd PC_SLIP_CFG_SPILL_AT die
  if a * s.sharedPool die ≤ 256 * s.occupancy die then true
  else s.pc.spilling.contains die && decide ((a - 16) * s.sharedPool die ≤ 256 * s.occupancy die)

/-- R208: the queue whose next page leaves SRAM, if any. DEDUCED (log 36): of several queues with reserved cells the
longest goes first. -/
def State.spillChoice (s : State) (die : Nat) (long : Bool) : Option Nat :=
  if s.resvSram die < 2 * s.reservedCells die then
    (s.longest ((s.spillable die).filter s.queueReserved)).or (if long then s.longest (s.spillable die) else none)
  else if long then s.longest (s.spillable die) else none

/-- R204: the address of a queue's `k`-th page. -/
def State.pageAddress (s : State) (q k : Nat) : Nat := s.rd PC_SLIP_BASE_BASE (homeDie (q / 1024)) + 4096 * (s.slipPages q).getD k 0

/-- R165: the bytes of a page of cells of a queue that stands behind `a` others. DESIGN CHOICE (log 36): a cell holds 256 bytes of its
frame, the last one zeros behind them, and a page its cells in their order. -/
def State.pageBytes (s : State) (q a : Nat) : List Byte :=
  let cells := (s.placed q).flatMap (fun fa => match s.frame fa.1 with
    | some x => (List.range (s.frameCells (q / 1024) fa.1)).map (fun i => (fa.2 + i, fitTo 256 ((x.bytes.drop (256 * i)).take 256)))
    | none => [])
  (cells.filter (fun c => decide (a ≤ c.1 ∧ c.1 < a + 16))).flatMap (fun c => c.2)

/-- R32, R208, R210, R479: one page of 16 cells moves into a die's region. -/
def slipwaySpill (die : Nat) (s : State) : State :=
  let long := s.longSpilling die
  let others := s.pc.spilling.filter (fun d => d != die)
  let t : State := { s with pc := { s.pc with spilling := if long then others ++ [die] else others } }
  if !t.flag PC_SLIP_CFG_ENABLE die || t.slipFull die then t
  else match t.spillChoice die long with
    | none => t
    | some q =>
      let (h, p, g) := t.slipOf q
      let a := t.spillFrom q
      let u := t.setSlip q (if p + g = 0 then a else h, p + 1, g)
      (u.memWrite .discard (u.pageAddress q (p + g)) (t.pageBytes q a)).settleAllPfc

/-- SLIPWAY_SPILL (R208). -/
def execSlipwaySpill (die : Fin 2) (s : State) : Res := whenLive (slipwaySpill die.val) s

/-! ### Fetching (R209, R212) -/

/-- R209: a resident queue's next page is fetched while fewer than HEAD_CELLS cells lie in SRAM at its head or in flight. -/
def pageFetch (q : Nat) (s : State) : State :=
  let (h, p, g) := s.slipOf q
  if p ≠ 0 ∧ h + 16 * g < s.rd PC_SLIP_CFG_HEAD_CELLS (homeDie (q / 1024)) then s.setSlip q (h, p - 1, g + 1) else s

/-- SLIPWAY_PAGE_FETCH (R209). -/
def execSlipwayPageFetch (queue : Fin 1048576) (s : State) : Res := whenLive (pageFetch queue.val) s

/-- A queue's Slipway part stored; one without pages has none. -/
def State.putSlip (s : State) (q h p g : Nat) : State := s.setSlip q (if p + g = 0 then (0, 0, 0) else (h, p, g))

/-- A frame's copy in a queue has begun egress. -/
def State.begun (s : State) (f q : Nat) : Bool := match s.frame f with
  | some x => x.copies.any (fun k => k.queue == q && k.started)
  | none => false

/-- R212: a page that could not be read takes the frames it touches with it; one that has begun egress is stomped. -/
def State.losePage (s : State) (q : Nat) : State :=
  let (h, p, g) := s.slipOf q
  let hit := (s.pageFrames q h).map (fun fa => fa.1)
  let kept := (((s.placed q).filter (fun fa => decide (fa.2 < h + 16) && !(hit.contains fa.1 && !s.begun fa.1 q))).map
    (fun fa => s.frameCells (q / 1024) fa.1)).sum
  let t := hit.foldl (fun u f =>
    if u.begun f q then u.modFrame f (fun x => { x with stomp := x.stomp.or (some 6) })
    else ((u.endCopy f q true).portAdd (q / 1024) 22 1).queueAdd q 2 1) s
  let pages := min (p + g - 1) ((t.queueCells q - kept) / 16)
  t.putSlip q kept (pages - min (g - 1) pages) (min (g - 1) pages)

/-- R479, R480: the last use of a range: the sectors that a line holds are let go unwritten. -/
def State.lastUse (s : State) (a n : Nat) : State :=
  (rangeStripes a n).foldl (fun u t =>
    let ks := rangeSectors a n t
    let strip := fun (x : Line) => if x.stripe == t then { x with sectors := x.sectors.filter (fun kb => !ks.contains kb.1), dirty := ks.foldl (fun m k => if m.testBit k then m - 2 ^ k else m) x.dirty } else x
    { u with ms := { u.ms with lines := (u.ms.lines.map strip).filter (fun x => x.stripe != t || !x.sectors.isEmpty) } }) s

/-- R209, R470: the cells of a queue's oldest page lie in SRAM as the region gave them back. -/
def State.takePage (s : State) (q h : Nat) (page : List Byte) : State :=
  (s.pageFrames q h).foldl (fun u fa => u.modFrame fa.1 (fun x =>
    { x with bytes := (List.range x.bytes.length).map (fun j =>
        let c := fa.2 + j / 256
        if h ≤ c ∧ c < h + 16 then page.getD (256 * (c - h) + j % 256) 0 else x.bytes.getD j 0) })) s

/-- R209, R212, R506: a page fetch ends; it is uncorrectable where HBM says so or its stripe is lost. -/
def fetchDone (q : Nat) (readOk : Bool) (s : State) : State :=
  let (h, p, g) := s.slipOf q
  let at_ := s.pageAddress q 0
  if g = 0 then s
  else if readOk && (s.firstLost at_ 4096).isNone then ((s.takePage q h (s.memBytes at_ 4096)).lastUse at_ 4096).putSlip q (h + 16) p (g - 1)
  else (s.uncorrectable ((s.firstLost at_ 4096).getD (stripeOf at_))).losePage q

/-- SLIPWAY_FETCH_DONE (R209). -/
def execSlipwayFetchDone (queue : Fin 1048576) (readOk : Bool) (s : State) : Res := whenLive (fetchDone queue.val readOk) s

/-- R32, R204, R469: a region is aligned and lies in its own die's usable space, outside the device area. -/
def slipFits (die base size : Nat) : Bool :=
  decide (base % 0x100000 = 0 ∧ size % 0x100000 = 0 ∧ base / 2 ^ 38 = die ∧ base % 2 ^ 38 + size ≤ 2 ^ 38 - 2 ^ 30)

/-- R204, R210: a write of PC_SLIP_BASE or PC_SLIP_SIZE. DESIGN CHOICE (log 147): a value that leaves no region of R204 is refused as
R210 refuses; a size of zero leaves none to judge. -/
def slipRegion (r : Reg) (die : Nat) (v : Word) (s : State) : State :=
  let base := if r.base = PC_SLIP_BASE.base then PC_SLIP_BASE_BASE.of v else s.rd PC_SLIP_BASE_BASE die
  let size := if r.base = PC_SLIP_SIZE.base then PC_SLIP_SIZE_SIZE.of v else s.rd PC_SLIP_SIZE_SIZE die
  if s.flag PC_SLIP_CFG_ENABLE die || s.pagesUsed die != 0 || !(slipFits die base size || (size == 0 && decide (base % 0x100000 = 0))) then s.refuseWrite (r.offset die) v.toNat
  else s.plainWrite r die v

/-! ### Counter snapshots (R308 to R311) -/

/-- R309: the value of a counter of a class. -/
def State.counter (s : State) (cls i : Nat) : Nat :=
  match cls with
  | 1 => sget 0 s.pc.portCount i
  | 2 => sget 0 s.pc.queueCount i
  | 3 => sget 0 s.pc.meterCount i
  | _ => s.queueCells i

/-- COUNTER_SNAPSHOT (R308, R311). -/
def execCounterSnapshot (ring : Fin 4096) (written : Bool) (s : State) : Res :=
  runOpcode ring.val 0x60 false (fun d t =>
    if !written then t.complete d .hostAccessError 0 0
    else
      let vs := (List.range (d.u32 32)).flatMap (fun k => natLe 8 (t.counter (d.u8 24) (d.u32 28 + k)))
      (t.descWrite d d.hostAddr vs).complete d .success t.now64 0) s

end Sys2Proof.Machine
end

