-- ==== Sys2Proof/Machine/Hbm.lean ====
section
/-! DEFINITION. The stacks and the memory services that act on commands: the outer code (R472 to R477), cache and hint
settings (R466, R467, R481, R482), retrains and test access (R496 to R510), flow tables (R493, R495), atomics and
moorings (R427 to R429, R488 to R491), and the Slipway's grant (R484). -/

namespace Sys2Proof.Machine

/-! ### GF(2^8) (R473) -/

/-- R473: multiplication in GF(2^8) with field polynomial x^8 + x^4 + x^3 + x^2 + 1. -/
def gfMul (a b : Nat) : Nat := go 8 a b 0
where
  /-- Shift and add over `fuel` bits of `b`. -/
  go : Nat → Nat → Nat → Nat → Nat
    | 0, _, _, acc => acc
    | fuel + 1, x, y, acc =>
      let x2 := if x.testBit 7 then (2 * x) ^^^ 0x11D else 2 * x
      go fuel x2 (y / 2) (if y.testBit 0 then acc ^^^ x else acc)

/-- A power in GF(2^8). -/
def gfPow (a : Nat) : Nat → Nat
  | 0 => 1
  | n + 1 => gfMul a (gfPow a n)

/-- The inverse of a non-zero element: its 254th power. -/
def gfInv (a : Nat) : Nat :=
  let a2 := gfMul a a
  let a4 := gfMul a2 a2
  let a8 := gfMul a4 a4
  let a16 := gfMul a8 a8
  let a32 := gfMul a16 a16
  let a64 := gfMul a32 a32
  gfMul (gfMul (gfMul a2 a4) (gfMul a8 a16)) (gfMul (gfMul a32 a64) (gfMul a64 a64))

/-- R473: α^(17 - i), the weight of member `i` in the second syndrome. -/
def memberWeight (i : Nat) : Nat := gfPow 2 (17 - i)

/-! ### Decoding a stripe (R475) -/

/-- Byte `j` of the difference of member `i`. -/
def stripeDiff (r : StripeRead) (i j : Nat) : Nat := ((r.errors.getD i []).getD j 0).toNat

/-- The two syndromes of codeword `j`, erased members taken as zero differences. -/
def stripeSyndromes (r : StripeRead) (erased : List Nat) (j : Nat) : Nat × Nat :=
  ((List.range 18).filter (fun i => !erased.contains i)).foldl (fun (a : Nat × Nat) i =>
    (a.1 ^^^ stripeDiff r i j, a.2 ^^^ gfMul (stripeDiff r i j) (memberWeight i))) (0, 0)

/-- R475: what a read of a whole stripe comes to: the corrections found, by member, codeword and value, or uncorrectable. -/
inductive StripeOutcome where
  | clean
  | corrected (fixes : List (Nat × Nat × Nat))
  | filled (fixes : List (Nat × Nat × Nat))
  | inconsistent
  | uncorrectable
  deriving DecidableEq, Repr

/-- A codeword decodes to one error in member `i`. -/
def oneErrorIn (i : Nat) (s : Nat × Nat) : Bool := s.1 != 0 && s.2 == gfMul s.1 (memberWeight i)

/-- R475: the outcome with no erasure. -/
def stripeDecode0 (r : StripeRead) : StripeOutcome :=
  let bad := ((List.range 64).map (fun j => (j, stripeSyndromes r [] j))).filter (fun x => x.2 != (0, 0))
  if bad.isEmpty then .clean
  else match (List.range 18).find? (fun i => bad.all (fun x => oneErrorIn i x.2)) with
    | some i => .corrected (bad.map (fun x => (i, x.1, x.2.1)))
    | none => .uncorrectable

/-- R475: the outcome with member `i` erased. -/
def stripeDecode1 (r : StripeRead) (i : Nat) : StripeOutcome :=
  let ss := (List.range 64).map (fun j => (j, stripeSyndromes r [i] j))
  if ss.all (fun x => x.2.2 == gfMul x.2.1 (memberWeight i)) then .corrected (ss.map (fun x => (i, x.1, x.2.1))) else .inconsistent

/-- R475: the outcome with members `i` and `k` erased. -/
def stripeDecode2 (r : StripeRead) (i k : Nat) : StripeOutcome :=
  let inv := gfInv (memberWeight i ^^^ memberWeight k)
  .filled ((List.range 64).flatMap (fun j =>
    let s := stripeSyndromes r [i, k] j
    let v := gfMul (s.2 ^^^ gfMul s.1 (memberWeight k)) inv
    [(i, j, v), (k, j, s.1 ^^^ v)]))

/-- R475: the outcome of a read with its erased members. -/
def stripeDecode (r : StripeRead) : List Nat → StripeOutcome
  | [] => stripeDecode0 r
  | [i] => stripeDecode1 r i
  | [i, k] => stripeDecode2 r i k
  | _ => .uncorrectable

/-! ### What a read leaves (R475, R477, R506) -/

/-- A stack's state beyond its registers. -/
def State.hbmStack (s : State) (h : Nat) : Stack := sget Stack.reset s.ms.hbmStacks h

/-- The state with a stack's state changed. -/
def State.modStack (s : State) (h : Nat) (f : Stack → Stack) : State :=
  { s with ms := { s.ms with hbmStacks := sset Stack.reset h (f (s.hbmStack h)) s.ms.hbmStacks } }

/-- R499, R502: pseudo-channel `n` of a stack is declared an erasure. -/
def State.channelErased (s : State) (h n : Nat) : Bool :=
  (s.hbmStack h).retrain.any (fun r => r.channel == n) || s.fh.channelsErased.contains (64 * h + n)

/-- R475: the erased members of a read of a stripe. -/
def State.erasedMembers (s : State) (t : Nat) (r : StripeRead) : List Nat :=
  (List.range 18).filter (fun i => r.lost.getD i false || r.uncorrected.getD i false || s.channelErased (stripeStack t) (memberChannel t i))

/-- What is left of the differences of a stripe after its corrections is what the stack holds from then on: data member `i`,
byte `j`. An erased member holds what was filled in. -/
def State.keepDiffs (s : State) (t : Nat) (r : StripeRead) (erased : List Nat) (fixes : List (Nat × Nat × Nat)) : State :=
  let fix := fun i j => match fixes.find? (fun x => x.1 == i && x.2.1 == j) with
    | some x => x.2.2
    | none => 0
  let left := (List.range 16).flatMap (fun i => ((List.range 64).map (fun j =>
    (64 * i + j, (if erased.contains i then 0 else stripeDiff r i j) ^^^ fix i j))).filter (fun x => x.2 != 0))
  let hbm := left.foldl (fun m x => sset 0 (1024 * t + x.1) (BitVec.ofNat 8 ((sget 0 m (1024 * t + x.1)).toNat ^^^ x.2)) m) s.ms.hbm
  { s with ms := { s.ms with hbm := hbm } }

/-- A stripe can be read again: an earlier uncorrectable read of it is past. -/
def State.readable (s : State) (t : Nat) : State :=
  { s with ms := { s.ms with unreadable := s.ms.unreadable.filter (fun x => x != t), reread := s.ms.reread.filter (fun x => x != t) } }

/-- The pseudo-channel and row of member `i` of a stripe (R471). -/
def memberRow (t i : Nat) : Nat × Nat := (memberChannel t i, Config.chunkRow ((18 * stripeInStack t + i) / 64))

/-- R506, R614: a read of a stripe ends as uncorrectable. One that touches a row left in place for want of a spare joins the
bad-stripe list. -/
def State.loseStripe (s : State) (t : Nat) : State :=
  let u : State := s.readable t
  let v := State.uncorrectable { u with ms := { u.ms with unreadable := u.ms.unreadable ++ [t] } } t
  if (List.range 18).any (fun i => (s.hbmStack (stripeStack t)).stuck.contains (memberRow t i)) then v.joinBad t else v

/-- R498: a pseudo-channel is queued for a retrain, once. -/
def State.queueRetrain (s : State) (h n : Nat) : State :=
  s.modStack h (fun x => if x.queue.contains n then x else { x with queue := x.queue ++ [n] })

/-- R497, R502: a trigger of the device queues a pseudo-channel, unless that is permanently erased. -/
def State.triggerRetrain (s : State) (h n : Nat) : State :=
  if s.fh.channelsErased.contains (64 * h + n) then s else s.queueRetrain h n

/-- R497, R501: a row awaits repair, and with it its pseudo-channel a retrain. One with no spare row left stays in place (R614). -/
def State.queueRow (s : State) (h : Nat) (row : Nat × Nat) : State :=
  let x := s.hbmStack h
  if x.rows.contains row || x.stuck.contains row then s
  else (s.modStack h (fun y => { y with rows := y.rows ++ [row] })).triggerRetrain h row.1

/-- R501: the rows of members that their own code could not correct are queued for repair. -/
def State.noteUncorrected (s : State) (t : Nat) (r : StripeRead) : State :=
  ((List.range 18).filter (fun i => r.uncorrected.getD i false)).foldl (fun u i => u.queueRow (stripeStack t) (memberRow t i)) s

/-- R475, R501, R507: a read of a whole stripe is decoded. -/
def stripeRead (t : Nat) (r : StripeRead) (s0 : State) : State :=
  let d := stripeDie t
  let s := s0.noteUncorrected t r
  let es := s.erasedMembers t r
  if (s.badEntry t).isSome then s.loseStripe t
  else match stripeDecode r es with
    | .clean => (s.readable t).keepDiffs t r es []
    | .corrected fixes => ((s.readable t).keepDiffs t r es fixes).correctedRead d
    | .filled fixes =>
      (((s.readable t).keepDiffs t r es fixes).setErr MS_ERR_DOUBLE_ERASURE d).raise
        { code := 0x0804, kind := 5, logical := stripeStack t, die := 4 + d, detail0 := 1024 * t }
    | .inconsistent =>
      if s.ms.reread.contains t then s.loseStripe t else { s with ms := { s.ms with reread := s.ms.reread ++ [t] } }
    | .uncorrectable => s.loseStripe t

/-- A stack serves reads: it is ready and in SERVICE. -/
def State.stackServes (s : State) (h : Nat) : Bool := s.hbmReady h && s.rd MS_HBM_STATUS_STATE h == 1

/-- HBM_READ_COMPLETE (R475). -/
def execHbmReadComplete (stripe : Fin 536870912) (read : StripeRead) (s : State) : Res :=
  whenLive (fun t => if t.stackServes (stripeStack stripe.val) && stripeBacked stripe.val then stripeRead stripe.val read t else t) s

/-- R471: stripes of a stack. -/
def stackStripes : Nat := 44739242

/-- R477: the patrol scrubber reads the next stripe of its stack; one to be read again is read first. -/
def patrolScrub (h : Nat) (r : StripeRead) (s : State) : State :=
  if !s.stackServes h then s
  else
    let p := (s.hbmStack h).scrub
    let u := stripeRead (h / 6 * 2 ^ 28 + 6 * p + h % 6) r s
    if u.ms.reread.contains (h / 6 * 2 ^ 28 + 6 * p + h % 6) then u else u.modStack h (fun x => { x with scrub := (p + 1) % stackStripes })

/-- PATROL_SCRUB (R477). -/
def execPatrolScrub (stack : Fin 12) (read : StripeRead) (s : State) : Res := whenLive (patrolScrub stack.val read) s

/-! ### Cache settings (R466, R467, R481, R482) -/

/-- R467: every dirty line of a die's cache share is written back and all are invalidated. -/
def State.emptyShare (s : State) (d : Nat) : State :=
  (s.ms.lines.filter (fun x => stripeDie x.stripe == d)).foldl (fun t x => t.evict x) s

/-- R466, R467: a write of MS_CACHE_CFG. -/
def cacheCfgWrite (d : Nat) (v : Word) (s : State) : State :=
  let off := MS_CACHE_CFG.offset d
  let t := s.plainWrite MS_CACHE_CFG d v
  if s.flag MS_CACHE_STATUS_RESIZING d || decide (16 < MS_CACHE_CFG_SHARE.of v ∨ 12 < MS_CACHE_CFG_KEEP_WAYS.of v) then s.refuseWrite off v.toNat
  else if MS_CACHE_CFG_SHARE.of v = s.rd MS_CACHE_CFG_SHARE d then t
  else if !t.poolsFit then (s.refuseReserve t off v).setErr MS_ERR_RESIZE_REFUSED d
  else ((s.emptyShare d).plainWrite MS_CACHE_CFG d v).wr MS_CACHE_STATUS_RESIZING d 1

/-- CACHE_RESIZE (R467). -/
def execCacheResize (die : Fin 2) (value : Word) (s : State) : Res := whenReg (MS_CACHE_CFG.offset die.val) value (cacheCfgWrite die.val value) s

/-- CACHE_RESIZE_DONE (R467). -/
def execCacheResizeDone (die : Fin 2) (s : State) : Res := whenLive (fun t => t.wr MS_CACHE_STATUS_RESIZING die.val 0) s

/-- R482: word `w` of hint range `k` of a die, as a number. -/
def State.hintWord (s : State) (d k w : Nat) : Nat := (s.word (MS_HINT_RANGE.offset (32 * d + 2 * k + w))).toNat

/-- R482: a hint range that stands in its two words may be valid. -/
def State.hintOk (s : State) (d k : Nat) : Bool :=
  let base := bitsOf (s.hintWord d k 0) 38 0
  let limit := bitsOf (s.hintWord d k 1) 38 0
  base % 4096 == 0 && (limit + 1) % 4096 == 0 && decide (base ≤ limit ∧ 2 ^ 38 * d ≤ base ∧ limit < 2 ^ 38 * d + 2 ^ 38 - 2 ^ 30) &&
  (List.range 16).all (fun j => j == k || !(s.hintWord d j 1).testBit 63 ||
    decide (limit < bitsOf (s.hintWord d j 0) 38 0 ∨ bitsOf (s.hintWord d j 1) 38 0 < base))

/-- R16, R482: a word of a hint range as it is kept: its reserved bits read zero. -/
def hintKept (word : Nat) (v : Word) : Word :=
  if word = 0 then BitVec.ofNat 64 (v.toNat % 2 ^ 39)
  else BitVec.ofNat 64 (bitsOf v.toNat 38 0 + bitsOf v.toNat 61 60 * 2 ^ 60 + bitsOf v.toNat 63 63 * 2 ^ 63)

/-- R482: a write of word 1 of a hint range. -/
def hintWrite (d k : Nat) (v0 : Word) (s : State) : State :=
  let v := hintKept 1 v0
  let i := 32 * d + 2 * k + 1
  let t := s.plainWrite MS_HINT_RANGE i v
  if !v.toNat.testBit 63 || t.hintOk d k then t
  else (t.setWord (MS_HINT_RANGE.offset i) (BitVec.ofNat 64 ((t.word (MS_HINT_RANGE.offset i)).toNat % 2 ^ 63))).setErr MS_ERR_HINT_REFUSED d

/-- HINT_RANGE_SET (R482). -/
def execHintRangeSet (die : Fin 2) (range : Fin 16) (value : Word) (s : State) : Res := whenReg (MS_HINT_RANGE.offset (32 * die.val + 2 * range.val + 1)) value (hintWrite die.val range.val value) s

/-- R481, R506: an entry is written out when it is 10 µs old; one that its SRAM does not give back is lost with its stripe. -/
def wcbFlush (t : Nat) (sram : Sram) (s : State) : State :=
  if (lineAt s.ms.combining t).isNone then s
  else match sram with
    | .uncorrectable => (s.nearRead t .uncorrectable).uncorrectable t
    | _ => (s.nearRead t sram).flushCombining t

/-- WCB_FLUSH (R481, R506). -/
def execWcbFlush (stripe : Fin 536870912) (sram : Sram) (s : State) : Res := whenLive (wcbFlush stripe.val sram) s

/-! ### Retrains (R497 to R502) -/

/-- R497: the temperature trigger: every pseudo-channel for which TEMP has moved by TEMP_DELTA since it was trained is queued. -/
def State.queueWarm (s : State) (h : Nat) : State :=
  let x := s.hbmStack h
  let now := s.rd MS_HBM_STATUS_TEMP h
  let moved := fun (n : Nat) => let at_ := sget x.temp x.temps n
    decide (s.rd MS_HBM_CTL_TEMP_DELTA h ≤ (now - at_) + (at_ - now))
  ((List.range 64).filter moved).foldl (fun t n => t.triggerRetrain h n) s

/-- R497: the device's own triggers. DESIGN CHOICE (log 156): the controller's counts of corrections in a second and in 24 hours are
the commands' occasions. -/
def State.retrainTrigger (s : State) (h : Nat) : RetrainCause → State
  | .write _ => s
  | .turn => (s.modStack h (fun x => { x with turn := (x.turn + 1) % 64 })).triggerRetrain h (s.hbmStack h).turn
  | .temperature c =>
    let t := s.wr MS_HBM_STATUS_TEMP h c.toNat
    if (s.hbmStack h).retrain.isSome then t else t.queueWarm h
  | .errors n => s.triggerRetrain h n.val
  | .row n r => s.queueRow h (n.val, r.toNat)

/-- R503: TEST may be set. -/
def State.testOk (s : State) (h : Nat) : Bool :=
  let d := h / 6
  !s.flag PC_SLIP_CFG_ENABLE d && s.pagesUsed d == 0 && s.activeImages.all (fun m => mfHbm m d == 0) &&
  !s.cl.groups.any (fun kv => kv.2.armed.isSome && grOp kv.2.record != 6 && grArea kv.2.record / 2 ^ 38 == d)

/-- R503: TEST withdraws a stack. -/
def State.enterTest (s : State) (h : Nat) (v : Word) : State :=
  ((s.plainWrite MS_HBM_CTL h v).wr MS_HBM_STATUS_STATE h 2).fall (.hbm (Fin.ofNat 12 h))

/-- R505: the stripes of a stack lose what they held: every byte is zero, and no entry of the bad-stripe list names them. -/
def State.zeroStack (s : State) (h : Nat) : State :=
  let mine := fun (t : Nat) => stripeStack t == h
  let keep := fun (l : List Line) => l.filter (fun x => !mine x.stripe)
  let u : State := { s with ms := { s.ms with hbm := sclear (fun a => mine (a / 1024)) s.ms.hbm, lines := keep s.ms.lines, atomic := keep s.ms.atomic,
                                              combining := keep s.ms.combining, unreadable := s.ms.unreadable.filter (fun t => !mine t),
                                              reread := s.ms.reread.filter (fun t => !mine t) } }
  let listed := (List.range 1024).filter (fun i =>
    u.flag MS_BAD_STRIPE_VALID (1024 * (h / 6) + i) && mine (u.rd MS_BAD_STRIPE_ADDRESS (1024 * (h / 6) + i) / 1024))
  ((listed.foldl (fun v i => v.setWord (MS_BAD_STRIPE.offset (1024 * (h / 6) + i)) 0) u).countBad (h / 6)).countCombining (h / 6)

/-- R505: clearing TEST retrains the whole stack, which is ready again once it has been trained. -/
def State.exitTest (s : State) (h : Nat) (v : Word) : State :=
  ((s.plainWrite MS_HBM_CTL h v).wr MS_HBM_STATUS_STATE h 0).zeroStack h

/-- R508: the fields of a write of MS_HBM_CTL lie in their ranges. -/
def hbmCtlOk (v : Word) : Bool :=
  decide (2 ≤ MS_HBM_CTL_TEMP_DELTA.of v ∧ MS_HBM_CTL_TEMP_DELTA.of v ≤ 40 ∧ 600 ≤ MS_HBM_CTL_PERIOD_S.of v ∧ 1 ≤ MS_HBM_CTL_SCRUB_HOURS.of v)

/-- R497, R500, R503, R505, R508: a write of MS_HBM_CTL. -/
def hbmCtl (h : Nat) (v : Word) (s : State) : State :=
  let off := MS_HBM_CTL.offset h
  let t := s.plainWrite MS_HBM_CTL h v
  let was := s.flag MS_HBM_CTL_TEST h
  let now := t.flag MS_HBM_CTL_TEST h
  let ask := fun (u : State) => if MS_HBM_CTL_RETRAIN.isSet v then u.queueRetrain h (MS_HBM_CTL_PC.of v) else u
  if !hbmCtlOk v then s.refuseWrite off v.toNat
  else if now && !was then
    if (s.hbmStack h).retrain.isSome then s.modStack h (fun x => { x with heldTest := some v })
    else if s.testOk h then ask (s.enterTest h v)
    else s.refuseWrite off v.toNat
  else if was && !now then ask (s.exitTest h v)
  else ask t

/-- HBM_RETRAIN_REQUEST (R497, R498). -/
def execHbmRetrainRequest (stack : Fin 12) (cause : RetrainCause) (s : State) : Res :=
  match cause with
  | .write v => whenReg (MS_HBM_CTL.offset stack.val) v (hbmCtl stack.val v) s
  | _ => whenLive (fun t => if t.stackServes stack.val then t.retrainTrigger stack.val cause else t) s

/-- HBM_TEST_ENTER (R503). -/
def execHbmTestEnter (stack : Fin 12) (value : Word) (s : State) : Res := whenReg (MS_HBM_CTL.offset stack.val) value (hbmCtl stack.val value) s

/-- HBM_TEST_EXIT (R505). -/
def execHbmTestExit (stack : Fin 12) (value : Word) (s : State) : Res := whenReg (MS_HBM_CTL.offset stack.val) value (hbmCtl stack.val value) s

/-- R499 step 1: the retrain that waits longest starts. -/
def retrainStart (h : Nat) (s : State) : State :=
  match (s.hbmStack h).retrain, (s.hbmStack h).queue with
  | none, n :: rest =>
    if s.stackServes h then
      (s.modStack h (fun x => { x with queue := rest, retrain := some ⟨n, false⟩, fails := 0 })).wrs
        [(MS_HBM_STATUS_RETRAINING, h, 1), (MS_HBM_STATUS_RETRAIN_PC, h, n)]
    else s
  | _, _ => s

/-- HBM_RETRAIN_START (R499). -/
def execHbmRetrainStart (stack : Fin 12) (s : State) : Res := whenLive (retrainStart stack.val) s

/-- R499 step 5, R500: a retrain is over, and a TEST that waited for it acts. -/
def State.endRetrain (s : State) (h : Nat) : State :=
  let held := (s.hbmStack h).heldTest
  let t := (s.modStack h (fun x => { x with retrain := none, fails := 0, heldTest := none })).wr MS_HBM_STATUS_RETRAINING h 0
  match held with
  | some v => hbmCtl h v t
  | none => t

/-- R502, R614: a pseudo-channel is permanently erased; a second one takes the stack out of service. -/
def State.eraseChannel (s : State) (h n : Nat) : State :=
  let t := s.endRetrain h
  let u : State := { t with fh := { t.fh with channelsErased := if t.fh.channelsErased.contains (64 * h + n) then t.fh.channelsErased else t.fh.channelsErased ++ [64 * h + n] } }
  let e : Event := { code := 0x0806, kind := 6, logical := 64 * h + n, die := 4 + h / 6 }
  if s.fh.channelsErased.contains (64 * h + n) then t
  else if s.flag MS_HBM_STATUS_DEGRADED h then (u.raise e).stackFails h
  else ((u.wrs [(MS_HBM_STATUS_DEGRADED, h, 1), (MS_HBM_STATUS_ERASED_PC, h, n)]).raise e).useSpare (4 + h / 6) 6

/-- R501: one row is repaired. -/
def State.repairRow (s : State) (h n : Nat) : State :=
  (s.addSat MS_HBM_STATUS_ROW_REPAIRS h 1).raise { code := 0x0805, kind := 6, logical := 64 * h + n, die := 4 + h / 6 }

/-- R499, R501, R614: the rows of a pseudo-channel that await repair are repaired while spare rows are left; the others stay in
place. -/
def State.repairRows (s : State) (h n spareRows : Nat) : State :=
  let mine := (s.hbmStack h).rows.filter (fun x => x.1 == n)
  let t := s.modStack h (fun x => { x with rows := x.rows.filter (fun y => y.1 != n), stuck := x.stuck ++ mine.drop spareRows })
  (mine.take spareRows).foldl (fun u _ => u.repairRow h n) t

/-- R499 step 3, R501, R502: the PHY retrain ends. Three failures in a row erase the pseudo-channel for good. -/
def phyRetrainDone (h : Nat) (trained : Bool) (spareRows : Nat) (s : State) : State :=
  match (s.hbmStack h).retrain with
  | none => s
  | some r =>
    if r.sweeping then s
    else if trained then
      (s.modStack h (fun x => { x with retrain := some { r with sweeping := true }, fails := 0,
                                       temps := sput r.channel (s.rd MS_HBM_STATUS_TEMP h) x.temps })).repairRows h r.channel spareRows
    else if (s.hbmStack h).fails < 2 then s.modStack h (fun x => { x with fails := x.fails + 1 })
    else s.eraseChannel h r.channel

/-- HBM_PHY_RETRAIN_DONE (R499). -/
def execHbmPhyRetrainDone (stack : Fin 12) (trained : Bool) (spareRows : BitVec 8) (s : State) : Res :=
  whenLive (phyRetrainDone stack.val trained spareRows.toNat) s

/-- R499 step 5, R500: the rebuild sweep ends, the erasure is lifted, and the temperature trigger is looked at again. -/
def retrainDone (h : Nat) (s : State) : State :=
  match (s.hbmStack h).retrain with
  | some r => if r.sweeping then ((s.addSat MS_HBM_STATUS_RETRAINS h 1).queueWarm h).endRetrain h else s
  | none => s

/-- HBM_RETRAIN_DONE (R499). -/
def execHbmRetrainDone (stack : Fin 12) (s : State) : Res := whenLive (retrainDone stack.val) s

/-! ### Test access (R504, R510) -/

/-- R504, R510: a write of MS_HBM_TEST_CMD. DESIGN CHOICE (log 59): a shift of more than 512 bits or of none is discarded. -/
def testCmd (h : Nat) (v : Word) (s : State) : State :=
  let n := MS_HBM_TEST_CMD_LENGTH.of v
  if !MS_HBM_TEST_CMD_GO.isSet v then s.plainWrite MS_HBM_TEST_CMD h v
  else if !s.flag MS_HBM_CTL_TEST h || s.flag MS_HBM_TEST_CMD_BUSY h || decide (n < 1 ∨ 512 < n) then s.refuseWrite (MS_HBM_TEST_CMD.offset h) v.toNat
  else
    ((s.plainWrite MS_HBM_TEST_CMD h v).wr MS_HBM_TEST_CMD_BUSY h 1).emit
      (.testShift h (MS_HBM_TEST_CMD_INSTRUCTION.of v) (MS_HBM_TEST_CMD_CHANNEL.of v) n (s.getBytes MS_HBM_TEST_DATA (8 * h) 8))

/-- HBM_TEST_SHIFT (R504). -/
def execHbmTestShift (stack : Fin 12) (value : Word) (s : State) : Res := whenReg (MS_HBM_TEST_CMD.offset stack.val) value (testCmd stack.val value) s

/-- R504: the bits shifted out take the place of those shifted in. -/
def testShiftDone (h : Nat) (data : List Byte) (s : State) : State :=
  if !s.flag MS_HBM_TEST_CMD_BUSY h then s
  else
    let n := s.rd MS_HBM_TEST_CMD_LENGTH h
    let old := leNat (s.getBytes MS_HBM_TEST_DATA (8 * h) 8)
    (s.putBytes MS_HBM_TEST_DATA (8 * h) (natLe 64 (old / 2 ^ n * 2 ^ n + leNat data % 2 ^ n))).wr MS_HBM_TEST_CMD_BUSY h 0

/-- HBM_TEST_SHIFT_DONE (R504). -/
def execHbmTestShiftDone (stack : Fin 12) (data : List Byte) (s : State) : Res := whenLive (testShiftDone stack.val data) s

/-! ### Flow tables (R493, R495) -/

/-- R495: a pipeline's flow table is aligned and lies inside one region of LEVEL 0 or 1 for every partition. -/
def State.flowOk (s : State) (p : Nat) : Bool :=
  let a := s.rd MS_FLOW_BASE_ADDR p
  let n := 32 * 2 ^ s.rd MS_FLOW_CFG_LOG2 p
  a % 4096 == 0 && (s.assigned 5).any (fun e => decide (e.level ≤ 1) && e.partition == 0xFFFF && decide (e.base ≤ a ∧ a + n ≤ e.limit + 1))

/-- R495: counting is refused or stopped. DEDUCED (log 60): CFG_ERR is that of the pipeline's switch die. -/
def State.refuseFlow (s : State) (p : Nat) : State := (s.wr MS_FLOW_CFG_ENABLE p 0).setErr MS_ERR_CFG_ERR (p / 4)

/-- R495: a write of MS_FLOW_CFG. DESIGN CHOICE (log 59): a field outside its range discards the write. -/
def flowCfgWrite (p : Nat) (v : Word) (s : State) : State :=
  if MS_FLOW_CFG_LOG2.of v < 10 ∨ 24 < MS_FLOW_CFG_LOG2.of v ∨ MS_FLOW_CFG_FLUSH_US.of v = 0 then s.refuseWrite (MS_FLOW_CFG.offset p) v.toNat
  else
    let t := s.plainWrite MS_FLOW_CFG p v
    if MS_FLOW_CFG_ENABLE.isSet v && !t.flowOk p then t.refuseFlow p else t

/-- FLOW_ENABLE (R495). -/
def execFlowEnable (pipeline : Fin 8) (value : Word) (s : State) : Res := whenReg (MS_FLOW_CFG.offset pipeline.val) value (flowCfgWrite pipeline.val value) s

/-- R495: the tables are looked at again at a generation boundary. -/
def State.recheckFlows (s : State) : State :=
  (List.range 8).foldl (fun t p => if t.flag MS_FLOW_CFG_ENABLE p && !t.flowOk p then t.refuseFlow p else t) s

/-- FLOW_ENTRY_FLUSH (R493). -/
def execFlowEntryFlush (pipeline : Fin 8) (index : Fin 16777216) (s : State) : Res :=
  whenLive (fun t => t.flushFlow pipeline.val index.val) s

/-! ### The Slipway's grant (R204, R484) -/

/-- R484: a write of PC_SLIP_CFG. DESIGN CHOICE (log 59): a WRITE_GUARANTEE above 60 is refused as a grant. -/
def slipCfgWrite (d : Nat) (v : Word) (s : State) : State :=
  let g := 20 * PC_SLIP_CFG_WRITE_GUARANTEE.of v
  let t := s.wr MS_BW_GRANT_SLIPWAY d g
  if decide (60 < PC_SLIP_CFG_WRITE_GUARANTEE.of v ∨ hbmCeiling < g + s.rd MS_BW_GRANT_DEVICE d) || !t.hbmGranted d s.activeImages then
    (s.setErr MS_ERR_GRANT_REFUSED d).raise { code := 0x0802, kind := 15, logical := PC_SLIP_CFG.offset d, die := 4 + d,
                                              detail0 := PC_SLIP_CFG.offset d, detail1 := v.toNat }
  else (t.showGrant d).plainWrite PC_SLIP_CFG d v

/-! ### Atomics (R489, R490, R506) -/

/-- R489, R506: a host atomic at an address: `act` gives its status and what it stores, from the old word. -/
def State.hostAtomic (s0 : State) (d : Desc) (sram : Sram) (act : Nat → Status × Option Nat) : State :=
  let a := d.u64 24
  let s := s0.nearRead (stripeOf a) sram
  match s.firstLost a 8 with
  | some t => (s.uncorrectable t).complete d .dataUncorrectable 0 (s.errorIndex 0x0803 (stripeStack t))
  | none =>
    let old := s.memWord a
    match act old with
    | (st, some v) => (s.atomicWrite a (natLe 8 v)).complete d st old 0
    | (st, none) => (s.atomicPlace a 8).complete d st old 0

/-- ATOMIC_CAS (R489). -/
def execAtomicCas (ring : Fin 4096) (sram : Sram) (s : State) : Res :=
  runOpcode ring.val 0x42 false (fun d t => t.hostAtomic d sram (fun old => if old = d.u64 32 then (.success, some (d.u64 40)) else (.casMiscompare, none))) s

/-- ATOMIC_ADD (R489). -/
def execAtomicAdd (ring : Fin 4096) (sram : Sram) (s : State) : Res :=
  runOpcode ring.val 0x43 false (fun d t => t.hostAtomic d sram (fun old => (.success, some (wrapAdd 64 old (d.u64 32))))) s

/-! ### Moorings (R427 to R429, R491) -/

/-- R428: a mooring is a landing mooring of an armed group. -/
def State.landingMooring (s : State) (m : Nat) : Bool :=
  s.cl.groups.any (fun kv => kv.2.armed.isSome && decide (grMooring kv.2.record ≤ m ∧ m < grMooring kv.2.record + grMoorings kv.2.record))

/-- R427, R428: a MOORING_SET is applied at its home. -/
def State.setMooringBy (s : State) (d : Desc) : State :=
  let m := d.u32 24
  let o := d.u8 48
  let old := s.mooring m
  let target := if o.testBit 6 then old.target else d.u64 40
  if s.landingMooring m then s.complete d .busy 0 0
  else if o % 4 = 1 ∧ target = 0 then s.complete d .badField 0 48
  else
    let count := if o.testBit 7 then wrapAdd 64 old.count (d.u64 32) else d.u64 32
    let t := s.updateMooring m { count := count, target := target, action := o % 4 }
    t.complete d .success 0 0

/-- MOORING_SET (R427). -/
def execMooringSet (ring : Fin 4096) (s : State) : Res := runOpcode ring.val 0x40 false (fun d t => t.setMooringBy d) s

/-- R429: a wait completes at once, waits, or finds 8,192 others waiting. -/
def State.waitMooring (s : State) (d : Desc) : State :=
  let c := (s.mooring (d.u32 24)).count
  if d.u64 32 ≤ c then s.complete d .success c 0
  else if 8192 < s.hi.descs.countP (fun e => e.started && e.opcode == 0x41) then s.complete d .busy 0 0
  else s

/-- MOORING_WAIT (R429). -/
def execMooringWait (ring : Fin 4096) (s : State) : Res := runOpcode ring.val 0x41 false (fun d t => t.waitMooring d) s

/-- The moorings homed on a die. -/
def State.homeMoorings (s : State) (d : Nat) : List (Nat × Mooring) := s.ms.moorings.filter (fun kv => kv.1 / 32768 == d)

/-- R491: the mooring store is written to the older of its die's two checkpoints, while the stacks that hold them are ready. -/
def mooringCheckpoint (d : Nat) (s : State) : State :=
  if !s.stacksReady d then s
  else
    let old := sget [] s.ms.checkpoints d
    { s with ms := { s.ms with checkpoints := sput d (s.homeMoorings d :: old.take 1) s.ms.checkpoints } }

/-- MOORING_CHECKPOINT (R491). -/
def execMooringCheckpoint (die : Fin 2) (s : State) : Res := whenLive (mooringCheckpoint die.val) s

end Sys2Proof.Machine
end

