-- ==== Sys2Proof/Machine/Targets.lean ====
section
/-! DEFINITION. The device targets of the Gangway and of DMA descriptors (R77, R84, R232, R248, R359, R365, R657), and the DMA
opcodes. -/

namespace Sys2Proof.Machine

/-! ### Reading -/

/-- R359: the byte of a tile's accumulator image. -/
def TileSt.imageByte (x : TileSt) (a : Nat) : Byte :=
  if a < 393216 then (if a % 64 < 42 then (x.slot (a / 64)).getD (a % 64) 0 else 0)
  else BitVec.ofNat 8 (x.check ((a - 393216) / 8) / 2 ^ (8 * (a % 8)))

/-- A byte of a target. Kinds 0x01 and 0x07 read as zero (R92). -/
def State.targetByte (s : State) (kind unit a : Nat) : Byte :=
  match kind with
  | 0x02 => (fitTo 64 (s.slot unit (a / 64 / 0x100000) (a / 64 % 0x100000))).getD (a % 64) 0
  | 0x03 => (s.lpmUnit (a / 64)).getD (a % 64) 0
  | 0x04 => s.memByte a
  | 0x05 => sget 0 (s.tile unit).landing a
  | 0x06 => (s.tile unit).imageByte a
  | _ => 0

/-- Bytes of a target. -/
def State.targetBytesAt (s : State) (kind unit a n : Nat) : List Byte := (List.range n).map (fun i => s.targetByte kind unit (a + i))

/-! ### Writing -/

/-- A MANIFEST_LOAD from a die's staging area is under way (R365). -/
def State.stagingBusy (s : State) (die : Nat) : Bool :=
  s.hi.descs.any (fun d => d.started && d.opcode == 0x50 && d.u8 27 == 1 && d.u8 24 / 64 == die)

/-- A target takes writes now (R46, R117, R232, R248, R359, R365). DESIGN CHOICE (log 76): a window left enabled when the firmware
load was abandoned writes nothing. -/
def State.targetOpen (s : State) (kind unit : Nat) : Bool :=
  match kind with
  | 0x01 => !s.stagingBusy unit
  | 0x02 => s.imageOpen unit
  | 0x03 => s.lpmImageOpen
  | 0x05 => s.rd RE_TILE_STATUS_STATE unit == 1 && s.dieReady (6 + unit / 88)
  | 0x06 => s.rd RE_TILE_STATUS_STATE unit == 1 && s.dieReady (6 + unit / 88)
  | 0x07 => s.fwState == fwLoading
  | _ => true

/-- R359: a byte is written into a tile's accumulator image; bytes 42 to 63 of a slot take none, and bit 61 of a check register
stays zero (R339). -/
def TileSt.putImageByte (x : TileSt) (a : Nat) (b : Byte) : TileSt :=
  if a < 393216 then (if a % 64 < 42 then x.putSlot (a / 64) (overlay (x.slot (a / 64)) (a % 64) [b]) else x)
  else
    let k := (a - 393216) / 8
    let j := a % 8
    x.putCheck k (withBits (withBits (x.check k) (8 * j + 7) (8 * j) b.toNat) 61 61 0)

/-- Bytes are written to HBM by the host's agents, with the hint of each page (R466, R482). -/
def State.hostStore (s : State) (a : Nat) (bs : List Byte) : State :=
  (List.range ((a % 4096 + bs.length + 4095) / 4096)).foldl (fun t k =>
    let from_ := max a ((a / 4096 + k) * 4096)
    let upto := min (a + bs.length) ((a / 4096 + k + 1) * 4096)
    t.memWrite (t.hostHint from_) from_ ((bs.drop (from_ - a)).take (upto - from_))) s

/-- Bytes are written into a target that takes them. -/
def State.targetWrite (s : State) (kind unit a : Nat) (bs : List Byte) : State :=
  match kind with
  | 0x01 => { s with re := { s.re with areas := sstore s.re.areas (2 ^ 24 * unit + a) bs } }
  | 0x02 => bs.zipIdx.foldl (fun t bi =>
      let x := a + bi.2
      let w := x / 64 / 0x100000
      let i := x / 64 % 0x100000
      t.setSlot unit w i (overlay (fitTo 64 (t.slot unit w i)) (x % 64) [bi.1])) s
  | 0x03 => bs.zipIdx.foldl (fun t bi =>
      let x := a + bi.2
      t.setLpmUnit (x / 64) (overlay (t.lpmUnit (x / 64)) (x % 64) [bi.1])) s
  | 0x04 => s.hostStore a bs
  | 0x05 => s.modTile unit (fun x => { x with landing := sstore x.landing a bs })
  | 0x06 => s.modTile unit (fun x => bs.zipIdx.foldl (fun y bi => y.putImageByte (a + bi.2) bi.1) x)
  | 0x07 => s.writeImage a bs
  | _ => s

/-- The runs of adjacent bytes of a list by rising address. -/
def runsOf : List (Nat × Byte) → List (Nat × List Byte)
  | [] => []
  | (a, b) :: r =>
    match runsOf r with
    | (c, bs) :: q => if c = a + 1 then (a, b :: bs) :: q else (a, [b]) :: (c, bs) :: q
    | [] => [(a, [b])]

/-! ### DMA (R77, R506, R657) -/

/-- R86, R657: the firmware load takes no bytes unless it is EMPTY, REFUSED or LOADING. -/
def State.imageClosed (s : State) : Bool := !(s.fwState == fwEmpty || s.fwState == fwRefused || s.fwState == fwLoading)

/-- DMA_TO_DEVICE: RESULT is the bytes moved (R81). DESIGN CHOICE (log 131): into an LPM image or a staging area that takes no
writes, which R248 and R365 only call discarded, it completes with BUSY, as R232 and R359 have it. -/
def State.dmaIn (s : State) (d : Desc) (bs : List Byte) : State :=
  let kind := d.u8 24
  let unit := d.u16 26
  let t := if kind = 7 then s.openImage else s
  if (kind == 7 && s.imageClosed) || !t.targetOpen kind unit then s.complete d .busy 0 0
  else (t.targetWrite kind unit (d.u64 32) bs).complete d .success d.length 0

/-- DMA_TO_DEVICE (R77). -/
def execDmaToDevice (ring : Fin 4096) (data : HostData) (s : State) : Res :=
  runOpcode ring.val 0x03 true (fun d t => match hostBytes d data with
    | none => t.complete d .hostAccessError 0 0
    | some bs => t.dmaIn d bs) s

/-- What a read of HBM by the host's agents does to the caches, with the hint of each page (R466, R482). -/
def State.hostFetch (s : State) (a n : Nat) : State :=
  (List.range ((a % 4096 + n + 4095) / 4096)).foldl (fun t k =>
    let from_ := max a ((a / 4096 + k) * 4096)
    let upto := min (a + n) ((a / 4096 + k + 1) * 4096)
    t.readRange (t.hostHint from_) from_ (upto - from_)) s

/-- What a read by the host's agents of a target does to the caches: only HBM has any. -/
def State.targetRead (s : State) (kind a n : Nat) : State := if kind = 4 then s.hostFetch a n else s

/-- DMA_FROM_DEVICE: an uncorrectable stripe ends it (R506); whether the bytes before it reached host memory is a free value. -/
def State.dmaOut (s : State) (d : Desc) : State :=
  let kind := d.u8 24
  let a := d.u64 32
  match (if kind = 4 then s.firstLost a d.length else none) with
  | some t =>
    let (r, u) := s.draw
    let before := s.memBytes a (1024 * t - a)
    let v := if r % 2 = 0 then u else u.descWrite d d.hostAddr before
    (v.uncorrectable t).complete d .dataUncorrectable 0 (s.errorIndex 0x0803 (stripeStack t))
  | none => (((s.targetRead kind a d.length).descWrite d d.hostAddr (s.targetBytesAt kind (d.u16 26) a d.length))).complete d .success d.length 0

/-- DMA_FROM_DEVICE (R77): `written` says that host memory took the bytes. -/
def execDmaFromDevice (ring : Fin 4096) (written : Bool) (s : State) : Res :=
  runOpcode ring.val 0x04 false (fun d t => if written then t.dmaOut d else t.complete d .hostAccessError 0 0) s

end Sys2Proof.Machine
end

