-- ==== Sys2Proof/Machine/Gangway.lean ====
section
/-! DEFINITION. The Gangway (R84 to R93, R656). -/

namespace Sys2Proof.Machine

/-! ### Granules (R89, R93) -/

/-- The held bytes of a window replaced; PARTIAL follows. -/
def State.setHeldBytes (s : State) (k : Nat) (l : List (Nat × Byte × List Nat)) : State :=
  State.wr { s with hi := { s.hi with granules := sset [] k l s.hi.granules } } HI_GW_STATUS_PARTIAL k (bit (!l.isEmpty))

/-- R93: writes whose bytes a target refused are discarded, each counted once. -/
def State.discardWrites (s : State) (k : Nat) (numbers : List Nat) : State :=
  let t := numbers.foldl (fun u _ => u.setErr HI_GW_STATUS_DISCARDED k) s
  t.setHeldBytes k ((t.heldBytes k).map (fun x => (x.1, x.2.1, x.2.2.filter (fun n => !numbers.contains n))))

/-- R89: bytes of one granule are committed to the window's target. DESIGN CHOICE (log 137): whether the target takes a write is
judged here, as its bytes are committed. -/
def State.commitCells (s : State) (k : Nat) (cells : List (Nat × Byte × List Nat)) : State :=
  let kind := s.rd HI_GW_TARGET_TARGET_KIND k
  let unit := s.rd HI_GW_TARGET_TARGET_UNIT k
  if s.targetOpen kind unit then (runsOf (cells.map (fun x => (x.1, x.2.1)))).foldl (fun t r => t.targetWrite kind unit r.1 r.2) s
  else s.discardWrites k ((cells.flatMap (fun x => x.2.2)).eraseDups)

/-- R89: one granule of the held bytes is committed. -/
def State.commitGranule (s : State) (k g : Nat) : State :=
  let mine := (s.heldBytes k).filter (fun x => x.1 / 64 == g)
  State.commitCells (s.setHeldBytes k ((s.heldBytes k).filter (fun x => x.1 / 64 != g))) k mine

/-- R89, R91: everything a window holds is committed, by rising address. -/
def State.flushWindow (s : State) (k : Nat) : State :=
  ((((s.heldBytes k).map (fun x => x.1 / 64)).eraseDups)).foldl (fun t g => t.commitGranule k g) s

/-! ### Settings (R85, R86, R656) -/

/-- R86, R656: an enable, or a change while enabled, is refused. -/
def State.refuseWindow (s : State) (k off v : Nat) : State :=
  (s.setErr HI_GW_STATUS_CFG_ERR k).raise { code := 0x0006, logical := k, detail0 := off, detail1 := v }

/-- R86: the conditions of an enable, on the settings as they stand. -/
def State.windowOk (s : State) (k : Nat) : Bool :=
  let kind := s.rd HI_GW_TARGET_TARGET_KIND k
  let unit := s.rd HI_GW_TARGET_TARGET_UNIT k
  let p := s.rd HI_GW_TARGET_PARTITION k
  let base := s.rd HI_GW_BASE_BASE k
  let limit := s.rd HI_GW_LIMIT_LIMIT k
  decide (1 ≤ kind ∧ kind ≤ 7) && targetUnitOk kind unit && base % 64 == 0 && decide (base + limit ≤ targetBytes kind) &&
  (s.flag HI_GW_TARGET_MODE k || decide (limit ≤ 0x1000000)) &&
  (kind != 4 || (p != 0xFFFF && s.regionTest 5 p base limit == .inside)) &&
  (!(kind == 5 || kind == 6 || kind == 7) || p == 0xFFFF) &&
  (kind != 7 || (!s.imageClosed && s.imageWindow.isNone))

/-- R86, R87, R117: a window opens. -/
def State.openWindow (s : State) (k : Nat) : State :=
  let t := if s.rd HI_GW_TARGET_TARGET_KIND k = 7 then s.openImage else s
  ((t.setHeldBytes k []).wr HI_GW_STATUS_CURSOR k 0).wr HI_GW_TARGET_ENABLE k 1

/-- R86, R656: a write of HI_GW_TARGET. -/
def gangwayTarget (k : Nat) (v : Word) (s : State) : State :=
  let was := s.flag HI_GW_TARGET_ENABLE k
  let on := HI_GW_TARGET_ENABLE.isSet v
  let off := HI_GW_TARGET.offset k
  let t := s.plainWrite HI_GW_TARGET k v
  if was && on then (if t.word off = s.word off then s else s.refuseWindow k off v.toNat)
  else if was then (s.flushWindow k).plainWrite HI_GW_TARGET k v
  else if on then
    let u := t.wr HI_GW_TARGET_ENABLE k 0
    if u.windowOk k then u.openWindow k else u.refuseWindow k off v.toNat
  else t

/-- GANGWAY_ENABLE (R86). -/
def execGangwayEnable (window : Fin 16) (value : Word) (s : State) : Res := whenBar (gangwayTarget window.val value) s

/-- GANGWAY_CLOSE (R656). -/
def execGangwayClose (window : Fin 16) (value : Word) (s : State) : Res := whenBar (gangwayTarget window.val value) s

/-- R656: a write of HI_GW_BASE or HI_GW_LIMIT. -/
def gangwayRange (r : Reg) (k : Nat) (v : Word) (s : State) : State :=
  if s.flag HI_GW_TARGET_ENABLE k then s.refuseWindow k (r.offset k) v.toNat else s.plainWrite r k v

/-! ### Writes (R88 to R90, R93) -/

/-- R90: bytes of a write beyond the limit are lost. DESIGN CHOICE (log 136): so are those that are not enabled. -/
def State.overrun (s : State) (k rel n keep : Nat) : State :=
  if keep < n then
    let t := (s.setErr HI_GW_STATUS_OVERRUN k).raise { code := 0x0005, logical := k, detail0 := rel, detail1 := n }
    if keep = 0 then t.setErr HI_GW_STATUS_DISCARDED k else t
  else s

/-- R89, R93: write number `n` brings a byte to a granule, over the byte of earlier writes if it holds one. -/
def bringByte (n : Nat) (l : List (Nat × Byte × List Nat)) (a : Nat) (b : Byte) : List (Nat × Byte × List Nat) :=
  match l.find? (fun x => x.1 == a) with
  | some x => sput a (b, x.2.2 ++ [n]) l
  | none => sput a (b, [n]) l

/-- R88, R89: the bytes of a write that fall within the limit join what the window holds, and whole granules are committed. -/
def State.takeBytes (s : State) (k a : Nat) (bytes : List (Option Byte)) : State :=
  let n := s.hi.gangwayWrites + 1
  let cells := bytes.zipIdx.filterMap (fun x => x.1.map (fun b => (a + x.2, b)))
  let t : State := { s with hi := { s.hi with gangwayWrites := n } }
  let u := t.setHeldBytes k (cells.foldl (fun l c => bringByte n l c.1 c.2) (t.heldBytes k))
  ((cells.map (fun c => c.1 / 64)).eraseDups).foldl (fun v g =>
    if ((v.heldBytes k).filter (fun x => x.1 / 64 == g)).length = 64 then v.commitGranule k g else v) u

/-- R88 to R90, R93: a write to a window, its disabled bytes none. DESIGN CHOICE (log 135): CURSOR counts every byte of the write,
also those lost at the limit and those not enabled; it stops at its largest value, so that a window never wraps (R90). -/
def gangwayWrite (k offset : Nat) (data : List (Option Byte)) (s : State) : State :=
  let n := data.length
  if n = 0 then s
  else if !s.flag HI_GW_TARGET_ENABLE k then s.setErr HI_GW_STATUS_DISCARDED k
  else
    let stream := s.flag HI_GW_TARGET_MODE k
    let rel := if stream then s.rd HI_GW_STATUS_CURSOR k else offset
    let keep := min n (s.rd HI_GW_LIMIT_LIMIT k - rel)
    let t := if stream then s.addSat HI_GW_STATUS_CURSOR k n else s
    (t.overrun k rel n keep).takeBytes k (s.rd HI_GW_BASE_BASE k + rel) (data.take keep)

/-- A range of a window ends within its 16 MiB (R53). -/
def inWindow (offset n : Nat) : Bool := decide (offset + n ≤ 0x1000000)

/-- The die that a window's target lies on, where it is not the control die. -/
def State.windowDie (s : State) (k : Nat) : Nat :=
  let unit := s.rd HI_GW_TARGET_TARGET_UNIT k
  match s.rd HI_GW_TARGET_TARGET_KIND k with
  | 1 => 6 + unit
  | 2 => unit / 2
  | 3 => 0
  | 4 => 4 + s.rd HI_GW_BASE_BASE k / 2 ^ 38
  | 5 | 6 => 6 + unit / 88
  | _ => 8

/-- R24: an access to a window waits where a bridge to its target retrains. -/
def State.windowAccess (s : State) (k : Nat) (c : Crossing) (f : State → State) : State :=
  if s.flag HI_GW_TARGET_ENABLE k then s.acrossTo (min (s.windowDie k) 8) c f else f s

/-- A write to a window. -/
def State.windowWrite (s : State) (k offset : Nat) (data : List (Option Byte)) : State :=
  s.windowAccess k (.windowWrite k offset data) (gangwayWrite k offset data)

/-- GANGWAY_WRITE (R88, R89). -/
def execGangwayWrite (window : Fin 16) (offset : Nat) (data : List (Option Byte)) (s : State) : Res :=
  if inWindow offset data.length then whenBar (fun t => t.windowWrite window.val offset data) s
  else .fault (.outsideBar (0x1000000 * window.val + offset))

/-- GANGWAY_GRANULE_TIMEOUT (R89): 10 µs without a write. -/
def execGangwayGranuleTimeout (window : Fin 16) (s : State) : Res := whenLive (fun t => t.flushWindow window.val) s

/-! ### Reads (R91, R92, R506) -/

/-- R91: a read of HI_GW_STATUS commits what the window holds, then answers. -/
def gangwayStatusRead (k : Nat) (s : State) : State :=
  let t := s.flushWindow k
  t.emit (.readAnswer (natLe 8 (t.word (HI_GW_STATUS.offset k)).toNat))

/-- A read of a window's status. -/
def State.windowStatus (s : State) (k : Nat) : State := s.windowAccess k (.windowStatus k) (gangwayStatusRead k)

/-- GANGWAY_STATUS_READ (R91). -/
def execGangwayStatusRead (window : Fin 16) (s : State) : Res := whenBar (fun t => t.windowStatus window.val) s

/-- R92: the bytes of a window that a read may see; none where it reads as zero. -/
def State.windowReads (s : State) (k offset n : Nat) : Nat :=
  if s.flag HI_GW_TARGET_ENABLE k && !s.flag HI_GW_TARGET_MODE k then min n (s.rd HI_GW_LIMIT_LIMIT k - offset) else 0

/-- R92, R506: a read of a window. -/
def gangwayRead (k offset n : Nat) (s : State) : State :=
  let kind := s.rd HI_GW_TARGET_TARGET_KIND k
  let keep := s.windowReads k offset n
  let a := s.rd HI_GW_BASE_BASE k + offset
  match (if kind = 4 then s.firstLost a keep else none) with
  | some t => (s.uncorrectable t).emit .readAbort
  | none =>
    (s.targetRead kind a keep).emit
      (.readAnswer (s.targetBytesAt kind (s.rd HI_GW_TARGET_TARGET_UNIT k) a keep ++ zeros (n - keep)))

/-- A read of a window. -/
def State.windowRead (s : State) (k offset n : Nat) : State := s.windowAccess k (.windowRead k offset n) (gangwayRead k offset n)

/-- GANGWAY_READ (R92). -/
def execGangwayRead (window : Fin 16) (offset length : Nat) (s : State) : Res :=
  if inWindow offset length then whenBar (fun t => t.windowRead window.val offset length) s
  else .fault (.outsideBar (0x1000000 * window.val + offset))

end Sys2Proof.Machine
end

