-- ==== Sys2Proof/Machine/Time.lean ====
section
/-! DEFINITION. The counters of the time base (R556, R557, R560, R561, R565, R566) and one time-clock edge. -/

namespace Sys2Proof.Machine

/-- The counter of a domain as one number, in units of 2^-32 ns. -/
def TimeDom.whole (t : TimeDom) : Nat := t.total * 4294967296 + t.frac

/-- A counter moved forward by an increment in units of 2^-32 ns; SEC wraps modulo 2^48 (R556). -/
def TimeDom.advance (t : TimeDom) (incr : Nat) : TimeDom :=
  let f := t.frac + incr
  let n := t.ns + f / 4294967296
  { t with frac := f % 4294967296, ns := n % 1000000000, sec := (t.sec + n / 1000000000) % 2 ^ 48, lastIncr := incr }

/-- R561, R565: the most one cycle may slew, in units of 2^-32 ns. DEDUCED (log 37): the bound rounded down. -/
def State.slewBound (s : State) (d : Nat) : Nat := s.rd TB_DOM_CTL_SLEW_PPB d * 4294967296 / 1000000000

/-- An integer cut to within a bound of zero. -/
def clampInt (bound : Nat) (i : Int) : Int := max (-(bound : Int)) (min (bound : Int) i)

/-- R565: domain `d` follows the other. -/
def State.follows (s : State) (d : Nat) : Bool := s.flag TB_DOM_CTL_FOLLOW d

/-- R565: LOCKED of a domain. -/
def State.domLocked (s : State) (d : Nat) : Bool := (s.rd TB_STATUS_LOCKED 0).testBit d

/-- LOCKED of a domain set or cleared. -/
def State.setLocked (s : State) (d : Nat) (v : Bool) : State :=
  let l := s.rd TB_STATUS_LOCKED 0
  if l.testBit d = v then s else s.wr TB_STATUS_LOCKED 0 (l ^^^ 2 ^ d)

/-- The increment of a domain that runs by itself: INCR and its slew, with what REMAINING becomes (R557, R561). -/
def State.freeIncr (s : State) (d : Nat) : Nat × Int :=
  let a := clampInt (s.slewBound d) (s.dom d).remaining
  (((s.rd TB_DOM_INCR_INCR d : Int) + a).toNat, (s.dom d).remaining - a)

/-- R560, R565, R566: a domain after one edge, where `other` is the other domain before the edge and `incr` its
increment. -/
def State.domEdge (s : State) (d : Nat) (other : TimeDom) (incr : Nat) : TimeDom :=
  let t := s.dom d
  if !t.running then t
  else if s.follows d then
    if s.timeReady (1 - d) then
      let a := clampInt (s.slewBound d) ((other.whole : Int) - (t.whole : Int))
      t.advance ((incr : Int) + a).toNat
    else t.advance t.lastIncr
  else
    let (i, r) := s.freeIncr d
    { t.advance i with remaining := r }

/-- The increment that a domain makes at the coming edge. -/
def State.edgeIncr (s : State) (d : Nat) : Nat :=
  if !(s.dom d).running then 0 else if s.follows d then (s.dom d).lastIncr else (s.freeIncr d).1

/-- R556: one time-clock edge of both domains. -/
def State.timeEdge (s : State) : State :=
  let a := s.domEdge 0 s.tb.dom1 (s.edgeIncr 1)
  let b := s.domEdge 1 s.tb.dom0 (s.edgeIncr 0)
  { s with tb := { s.tb with dom0 := a, dom1 := b } }

/-- DESIGN CHOICE (log 3): what one time-clock edge does to the device: the counters count wherever the TIME clock
runs, and the shapers fill while the packet core's clock does. Every other effect of time comes as a command. -/
def tick (s : State) : State :=
  if s.bt.por && !s.bt.held then (if s.bt.stopped then s.timeEdge else s.timeEdge.fillShapers 1) else s

end Sys2Proof.Machine
end

