-- ==== Sys2Proof/Machine/Engine.lean ====
section
/-! DEFINITION. Optical engines: the frames of their links, ring tuning and lock (R520 to R527). -/

namespace Sys2Proof.Machine

/-- R546, R547: a Ford circuit's light path stands on a fibre pair at a wavelength. -/
def State.fordStands (s : State) (f w : Nat) : Bool :=
  match s.circuitOf (4 * f) with
  | some (k, side) =>
    s.rd OC_FORD_CIRCUIT_WAVELENGTH k == w &&
    (s.circuitState k == 3 || (s.circuitState k == 4 && !(s.circuit k).released.testBit side))
  | none => false

/-- A wavelength of a fibre carries a lane in service or is FREE. -/
def State.litFor (s : State) (f wl free w : Nat) : Bool :=
  free == w || (match laneAt wl w with
    | some j => !s.laneWithdrawn f j
    | none => false)

/-- R515, R546: a ring is in use: purpose 0 TX, 1 RX, 2 Ford drop, 3 Ford add. -/
def State.ringUsed (s : State) (f purpose w : Nat) : Bool :=
  match purpose with
  | 0 => s.litFor f (s.txWl f) (s.txFree f) w && s.calW f != w && !s.fordStands f w
  | 1 => s.litFor f (s.rxWl f) (s.rxFree f) w && !s.fordStands f w
  | _ => s.fordStands f w

/-- The rings of an engine that are in use, by their number in the engine. -/
def State.usedRings (s : State) (e : Nat) : List Nat :=
  (List.range 576).filter (fun r => s.ringUsed (16 * e + r / 36) (r % 36 / 9) (r % 9))

/-- R533: calibration values in force on ring `r` of an engine; free values before its first calibration. -/
def State.ringCal (s : State) (e r : Nat) : Nat × Nat × Nat :=
  let p := (s.engine e).plan
  (s.ringSt (576 * e + r)).cal.getD
    (Config.freeAt p (3 * r) % 65536, Config.freeAt p (3 * r + 1) % 65536, Config.freeAt p (3 * r + 2) % 65536)

/-- R524, R525: one update of a ring. -/
def RingSt.update (r : RingSt) (cal : Nat × Nat × Nat) (ff : Int) (hmin hmax p0 p1 : Nat) : RingSt :=
  let err : Int := (r.monitor : Int) - (cal.1 : Int)
  let acc := r.acc + (cal.2.1 : Int) * err
  let h := (max (hmin : Int) (min (hmax : Int) (acc + ff))).toNat
  let near := decide (err.natAbs ≤ cal.2.2)
  let inside := if near then min 16 (r.inside + 1) else 0
  let outside := if near then 0 else min 64 (r.outside + 1)
  let limit := if h = hmin ∨ h = hmax then min 64 (r.limit + 1) else 0
  let q := { r with acc := acc, heater := h, inside := inside, outside := outside, limit := limit }
  if r.locked then
    if 64 ≤ outside ∨ 64 ≤ limit then { q with locked := false, lost := true } else q
  else if 16 ≤ inside ∧ limit < 64 then { q with locked := true, lost := false, retries := 0, p0 := p0, p1 := p1 }
  else q

/-- R524: the input of the lag for a ring. -/
def State.lagInput (s : State) (e p0 p1 r : Nat) : Int :=
  let x := s.ringSt (576 * e + r)
  sext 16 (s.rd OC_FF_CFG_GAIN_RD0 e) * ((p0 : Int) - (x.p0 : Int)) + sext 16 (s.rd OC_FF_CFG_GAIN_RD1 e) * ((p1 : Int) - (x.p1 : Int))

/-- R524: the feedforward of a ring: zero while the lag has had no input, then a free value within FF_MAX (log 62). -/
def State.feedforward (s : State) (e draw r : Nat) : Int :=
  if (s.engine e).lagging then clampInt (s.rd OC_ENGINE_ENV_FF_MAX e) (sext 17 (Config.freeAt draw (576 + r))) else 0

/-- R524: every ring of an engine in use is updated. -/
def State.tuneRings (s : State) (e draw p0 p1 : Nat) (used : List Nat) : State :=
  used.foldl (fun t r =>
    t.setRingSt (576 * e + r) ((t.ringSt (576 * e + r)).update (t.ringCal e r) (t.feedforward e draw r)
      (t.rd OC_ENGINE_ENV_H_MIN e) (t.rd OC_ENGINE_ENV_H_MAX e) p0 p1)) s

/-- R525, R547, R548: a ring in use becomes unlocked. -/
def State.ringUnlocked (s : State) (e r : Nat) : State :=
  let f := 16 * e + r / 36
  let w := r % 9
  let a := (s.setErr OC_ERR_LOCK_LOST 0).raise { code := 0x0902, kind := 12, logical := 576 * e + r }
  match r % 36 / 9 with
  | 0 => match a.moveOf f with
    | some m => if m.marker = none ∧ (m.from_ = w ∨ m.to_ = w) then a.abandonMove f else a
    | none => a
  | 1 => a
  | _ => match a.circuitOf (4 * f) with
    | some (k, _) => if a.circuitState k = 3 then a.removeCircuit k else a
    | none => a

/-- R525, R606: what becomes of a modulator that is unlocked: it is given up once two recalibrations have not locked it; on
a ROTATING fibre its lane moves to FREE, and it is calibrated again. -/
def State.repairRing (s : State) (f w : Nat) : State :=
  let r := s.ringSt (ringKey f 0 w)
  let stuck := decide (64 ≤ r.outside ∨ 64 ≤ r.limit)
  if !r.lost || !s.ringUsed f 0 w then s
  else if stuck && decide (2 ≤ r.retries) then s.wavelengthFails f w
  else if !s.rotating f || s.calW f != 15 || s.fibreChanging f then s
  else if s.txFree f = w then (if r.retries = 0 ∨ stuck = true then s.startSweep f w else s)
  else match laneAt (s.txWl f) w with
    | none => s
    | some j => if (s.lanePort f j).isSome then s.startMove f j .unlocked else s.startSweep f w

/-- R521: the heater codes of a down frame; those of parked rings and of a ring in its sweep are free values (log 62). -/
def State.heaterCodes (s : State) (e draw : Nat) (used : List Nat) : List Byte :=
  (List.range 576).flatMap (fun r => natLe 2 (
    if used.contains r then (s.ringSt (576 * e + r)).heater
    else if r % 36 / 9 = 0 ∧ s.calW (16 * e + r / 36) = r % 9 then Config.freeAt draw r % 65536
    else Config.freeAt (s.engine e).plan (1728 + r) % 65536))

/-- R521: the settings that a command states for a fibre pair: maps, bridge, calibration, circuit. -/
def State.settings (s : State) (f : Nat) : List Nat :=
  let bridge := match s.moveOf f with
    | some m => if m.marker.isSome then [m.lane, m.from_, m.to_] else []
    | none => []
  let stands := (List.range 9).filter (s.fordStands f)
  [f % 16, (s.word (OC_FIBRE_MAP.offset f)).toNat, (s.word (OC_FIBRE_RX_MAP.offset f)).toNat] ++ stands ++ bridge

/-- R521: an engine whose last command is applied takes the next one that waits. -/
def EngineSt.nextCommand (x : EngineSt) : EngineSt :=
  match x.applied, x.queue with
  | true, i :: r => { x with cmdSeq := wrapAdd 32 x.cmdSeq 1, cmdFibre := i, applied := false, queue := r }
  | _, _ => x

/-- R521: a down frame. -/
def State.downFrame (s : State) (e draw : Nat) (used : List Nat) : List Byte :=
  let x := s.engine e
  let body := natLe 1 1 ++ natLe 1 e ++ natLe 2 x.seq ++ natLe 4 x.cmdSeq ++ s.heaterCodes e draw used ++
    (List.range 16).map (Config.commandBytes (s.settings (16 * e + x.cmdFibre)))
  body ++ natLe 4 (crc32 body)

/-- R524, R525: the loop of one microsecond: rings are tuned, those that come unlocked are met, UNLOCKED follows. -/
def State.engineLoop (s : State) (e draw p0 p1 : Nat) (used : List Nat) : State :=
  let was := used.filter (fun r => (s.ringSt (576 * e + r)).locked)
  let x := s.engine e
  let a := s.setEngine e { x with lagging := x.lagging || used.any (fun r => s.lagInput e p0 p1 r != 0) }
  let b := a.tuneRings e draw p0 p1 used
  let off := b.wr OC_ENGINE_STATUS_UNLOCKED e (used.filter (fun r => !(b.ringSt (576 * e + r)).locked)).length
  let c := (was.filter (fun r => !(b.ringSt (576 * e + r)).locked)).foldl (fun t r => t.ringUnlocked e r) off
  (List.range 144).foldl (fun t i => t.repairRing (16 * e + i / 9) (i % 9)) c

/-- ENGINE_DOWN_FRAME (R521, R524): while the engine's link is up. -/
def engineDown (e p0 p1 : Nat) (s : State) : State :=
  let st := s.rd OC_ENGINE_STATUS_STATE e
  if st = 1 ∨ st = 2 then
    let (d, a) := s.draw
    let used := a.usedRings e
    let b := a.engineLoop e d p0 p1 used
    let c := b.setEngine e (b.engine e).nextCommand
    let t := c.emit (.engineDown e (c.downFrame e d used))
    t.setEngine e { t.engine e with seq := wrapAdd 16 (t.engine e).seq 1 }
  else s

/-- ENGINE_DOWN_FRAME (R524). -/
def execEngineDownFrame (engine : Fin 16) (p0 p1 : BitVec 12) (s : State) : Res :=
  whenLive (engineDown engine.val p0.toNat p1.toNat) s

/-- R521: an up frame is good. -/
def upFrameGood (e : Nat) (b : List Byte) : Bool :=
  b.length == 1180 && le b 1176 4 == crc32 (b.take 1176) && le b 0 1 == 2 && le b 1 1 == e

/-- R535: a calibration ends where its engine's temperature moved by more than 2 °C. -/
def State.checkCalTemp (s : State) (f temp : Nat) : State :=
  match s.oc.calTemp.find? (fun x => x.1 == f) with
  | some (_, t0) => if t0 + 2 < temp ∨ temp + 2 < t0 then s.abandonCal f else s
  | none => s

/-- R521: what an up frame brings: monitor readings, the engine's temperature, the command that was applied. -/
def engineUp (e : Nat) (b : List Byte) (s : State) : State :=
  let st := s.rd OC_ENGINE_STATUS_STATE e
  if st = 1 ∨ st = 2 then
    if upFrameGood e b then
      let a := (s.usedRings e).foldl (fun t r =>
        t.setRingSt (576 * e + r) { t.ringSt (576 * e + r) with monitor := le b (8 + 2 * r) 2 }) s
      let x := a.engine e
      let c := if le b 4 4 = x.cmdSeq then a.setEngine e { x with applied := true } else a
      let temp := le b 1160 1
      (List.range 16).foldl (fun t i => t.checkCalTemp (16 * e + i) temp) (c.wr OC_ENGINE_STATUS_TEMP e temp)
    else s.addSat OC_ENGINE_STATUS_CRC_ERRS e 1
  else s

/-- ENGINE_UP_FRAME (R521). -/
def execEngineUpFrame (engine : Fin 16) (frame : List Byte) (s : State) : Res := whenLive (engineUp engine.val frame) s

/-! ### HOLD (R522, R535, R548) -/

/-- R522, R548: an engine enters HOLD: calibrations and Ford set-ups on it end; standing circuits and maps stay. -/
def engineHold (e : Nat) (s : State) : State :=
  let st := s.rd OC_ENGINE_STATUS_STATE e
  if st = 1 ∨ st = 2 then
    let a := ((s.wr OC_ENGINE_STATUS_STATE e 3).setErr OC_ERR_LINK_HOLD 0).raise { code := 0x0903, kind := 7, logical := e }
    let b := (List.range 16).foldl (fun t i => t.abandonCal (16 * e + i)) a
    (List.range 8).foldl (fun t c => if t.circuitState (8 * e + c) = 1 ∨ t.circuitState (8 * e + c) = 2 then t.removeCircuit (8 * e + c) else t) b
  else s

/-- ENGINE_ENTERS_HOLD (R522). -/
def execEngineEntersHold (engine : Fin 16) (s : State) : Res := whenLive (engineHold engine.val) s

/-- ENGINE_LINK_RETRAINED (R522): the loops resume; an engine that left service locks again first. -/
def execEngineLinkRetrained (engine : Fin 16) (s : State) : Res :=
  whenLive (fun t =>
    if t.rd OC_ENGINE_STATUS_STATE engine.val = 3 then t.wr OC_ENGINE_STATUS_STATE engine.val (if t.ready (.engine engine) then 2 else 1)
    else t) s

/-- ENGINE_HOLD_EXPIRY (R522): the engine leaves service. -/
def execEngineHoldExpiry (engine : Fin 16) (s : State) : Res :=
  whenLive (fun t => if t.rd OC_ENGINE_STATUS_STATE engine.val = 3 then t.leave (.engine engine) else t) s

/-- R524, R525: an engine's control unit begins to lock its rings: every fibre pair is commanded afresh. -/
def State.startLocking (s : State) (e : Nat) : State :=
  if s.rd OC_ENGINE_STATUS_STATE e = 0 then
    let (d, t) := s.draw
    (t.setEngine e { EngineSt.reset with queue := List.range 16, plan := d }).wr OC_ENGINE_STATUS_STATE e 1
  else s

end Sys2Proof.Machine
end

