-- ==== Sys2Proof/Machine/Laser.lean ====
section
/-! DEFINITION. Laser modules: frames, power, trends, sparing and the eye-safety limit (R523, R536 to R541). -/

namespace Sys2Proof.Machine

/-! ### The safety record (R598) -/

/-- R598: a safety action leaves an envelope: PM_OVERRIDE, PM_ERR and the event with its limit code. -/
def State.overridden (s : State) (code die sensed kind logical : Nat) : State :=
  let t := s.wrs [(PM_OVERRIDE_LIMIT, 0, code), (PM_OVERRIDE_DIE, 0, die), (PM_OVERRIDE_TIME_MS, 0, s.now / 1000000)]
  (t.setErr PM_ERR_POLICY_OVERRIDDEN 0).raise { code := 0x0B02, kind := kind, logical := logical, die := die, pattern := code, detail0 := sensed }

/-! ### Positions -/

/-- The active laser of a position. -/
def State.activeLaser (s : State) (m k : Nat) : Nat := s.rd OC_LASER_STATUS_ACTIVE (32 * m + k)

/-- The fibres that a module feeds. -/
def moduleFibres (m : Nat) : List Nat := (List.range 64).map (fun i => 64 * m + i)

/-- R607: a laser position gives up its spare: its retirement is held on the control die. -/
def State.retireLaser (s : State) (m k : Nat) : State :=
  let key := 16 * m + k
  if s.fh.lasersRetired.contains key then s else { s with fh := { s.fh with lasersRetired := s.fh.lasersRetired ++ [key] } }

/-- R540: a position has no spare. -/
def State.noSpare (s : State) (m k : Nat) : Bool := (s.laserPos m k).noSpare || s.fh.lasersRetired.contains (16 * m + k)

/-- R124, R128: a module all of whose positions are dark has lost its lasers and leaves service. DEDUCED (log 148): one that
loses single positions, whose lanes have moved, stays in service with the others. -/
def State.settleModule (s : State) (m : Nat) : State :=
  if (List.range 9).all (fun k => s.laserState m k == 3) then s.leave (.laser (Fin.ofNat 4 m)) else s

/-- R540: a position that is lost: its lanes move to their fibres' FREE, it goes dark and FAILED. -/
def State.laserFails (s : State) (m k : Nat) : State :=
  if s.laserState m k = 3 then s
  else
    let a := ((s.retireLaser m k).setErr OC_ERR_NO_SPARE 0).raise { code := 0x0908, kind := 9, logical := 16 * m + k }
    let b := (moduleFibres m).foldl (fun t f => t.wavelengthFails f k) a
    let p := b.laserPos m k
    (b.setLaserPos m k { p with drive0 := 0, drive1 := 0, noSpare := true, lit := false }).wr OC_LASER_STATUS_STATE (32 * m + k) 3 |>.settleModule m

/-! ### Swaps (R538, R539) -/

/-- R539: a fibre still needs something before position `k` can go dark: the lane on `k`, if it is in service. -/
def State.swapLane (s : State) (f k : Nat) : Option Nat :=
  if s.rd OC_FIBRE_MAP_FORD_W f = k then none
  else (laneAt (s.txWl f) k).filter (fun j => (s.lanePort f j).isSome)

/-- Steps 2 and 3 of R539 on one fibre: its lane moves, or its port trains. DEDUCED (log 67): a ROTATING fibre that has no
FREE left is treated as a FIXED one. -/
def State.swapFibre (s : State) (f k : Nat) : State :=
  match s.swapLane f k with
  | none => s
  | some j =>
    if s.rotating f && s.txFree f != 15 then s.startMove f j .laser
    else match s.lanePort f j with
      | some n => s.portFalls n 1
      | none => s

/-- Steps 1 to 3 of R539: a swap starts. -/
def State.startSwap (s : State) (m k : Nat) : State :=
  let a := (s.wr OC_LASER_STATUS_STATE (32 * m + k) 1).queueRecovery 9 (16 * m + k) (s.activeLaser m k) .none
  let b := (moduleFibres m).foldl (fun t f => t.abandonCal f) a
  (moduleFibres m).foldl (fun t f => t.swapFibre f k) b

/-- Steps 2 and 4 of R539 at a down frame: what is still to move is asked for again; once nothing is, the active laser is
switched off and the spare is lit. -/
def State.goOnSwap (s : State) (m k : Nat) : State :=
  let p := s.laserPos m k
  if s.laserState m k ≠ 1 ∨ p.lit = true then s
  else
    let a := (moduleFibres m).foldl (fun t f => t.swapFibre f k) s
    if (moduleFibres m).all (fun f => (a.swapLane f k).isNone) then
      let act := a.activeLaser m k
      let (d, b) := a.draw
      b.setLaserPos m k { ((p.drive act 0).drive (1 - act) (litDrive d k)) with lit := true, sum := 0, count := 0 }
    else a

/-- R540: at a down frame a failed position asks again for moves that had to wait. -/
def State.goOnFailed (s : State) (m k : Nat) : State :=
  if s.laserState m k = 3 then
    (moduleFibres m).foldl (fun t f => match laneAt (t.txWl f) k with
      | some j => if t.laneWithdrawn f j then t else t.wavelengthFails f k
      | none => t) s
  else s

/-- R523: a down frame. -/
def State.laserFrame (s : State) (m : Nat) : List Byte :=
  let body := natLe 1 0x11 ++ natLe 1 m ++ natLe 2 (sget 0 s.oc.laserSeq m) ++
    (List.range 9).flatMap (fun k => natLe 2 (s.laserPos m k).drive0 ++ natLe 2 (s.laserPos m k).drive1) ++ zeros 20
  body ++ natLe 4 (crc32 body)

/-- R523, R539: a down frame goes out, in every state of the module. -/
def laserDown (m : Nat) (s : State) : State :=
  let t := (List.range 9).foldl (fun u k => (u.goOnSwap m k).goOnFailed m k) s
  let u := t.emit (.laserDown m (t.laserFrame m))
  { u with oc := { u.oc with laserSeq := sset 0 m (wrapAdd 16 (sget 0 u.oc.laserSeq m) 1) u.oc.laserSeq } }

/-- LASER_DOWN_FRAME (R523). -/
def execLaserDownFrame (laserModule : Fin 4) (s : State) : Res := whenLive (laserDown laserModule.val) s

/-! ### Power (R536 to R538) -/

/-- The threshold of a module in 0.01 dB. -/
def State.spareThreshold (s : State) (m : Nat) : Int := 10 * (s.rd OC_LASER_CFG_LASER_SPARE_THRESHOLD m : Int)

/-- R536: the active laser's margin, in 0.01 dB. -/
def State.laserMargin (s : State) (m k : Nat) : Int :=
  sext 16 (s.rd OC_LASER_STATUS_POWER (32 * m + k)) - sext 16 (s.rd OC_LASER_CFG_ZERO_MARGIN m)

/-- R538, R540: a position is looked at: a swap starts, or the position is lost. -/
def State.judgeLaser (s : State) (m k : Nat) : State :=
  let i := 32 * m + k
  let st := s.laserState m k
  let low := decide (s.laserMargin m k ≤ s.spareThreshold m)
  let soon := decide (s.rd OC_LASER_STATUS_PREDICT_S i ≤ 10 * s.rd OC_LASER_CFG_LEAD m)
  if st = 1 ∨ st = 3 ∨ s.rd OC_LASER_MODULE_STATUS_STATE m ≠ 2 ∨ (s.laserPos m k).driven (s.activeLaser m k) = 0 then s
  else if s.noSpare m k then (if low then s.laserFails m k else s)
  else if soon then s.startSwap m k
  else if low then
    (((s.setErr OC_ERR_FAST_FADE 0).raise { code := 0x0906, kind := 9, logical := 16 * m + k })).startSwap m k
  else s

/-- R536: one position's reading: POWER, MARGIN, the sample of this second, and the drive current, kept while the power lies
within 0.1 dB of SET_POWER and otherwise adjusted to a free value (log 66). -/
def State.readLaser (s : State) (m draw : Nat) (b : List Byte) (k : Nat) : State :=
  let i := 32 * m + k
  let act := s.activeLaser m k
  let v := le b (4 + 4 * k + 2 * act) 2
  let p := s.laserPos m k
  let off := (sext 16 v - sext 16 (s.rd OC_LASER_CFG_SET_POWER m)).natAbs
  let q := { p with sum := p.sum + sext 16 v, count := p.count + 1 }
  let q' := if p.driven act = 0 ∨ off ≤ 10 then q else q.drive act (litDrive draw k)
  let t := (s.setLaserPos m k q').wr OC_LASER_STATUS_POWER i v
  t.wr OC_LASER_STATUS_MARGIN i (twos 16 (t.laserMargin m k))

/-- R523: an up frame of a module is good. -/
def laserUpGood (m : Nat) (b : List Byte) : Bool :=
  b.length == 64 && le b 60 4 == crc32 (b.take 60) && le b 0 1 == 0x12 && le b 1 1 == m

/-- R536, R538: an up frame. -/
def laserUp (m : Nat) (b : List Byte) (s : State) : State :=
  if laserUpGood m b = false then s
  else
    let (d, a) := s.draw
    let t := (List.range 9).foldl (fun u k => u.readLaser m d b k) a
    let u := t.wrs [(OC_LASER_MODULE_STATUS_INTERLOCK, m, le b 40 1 % 2), (OC_LASER_MODULE_STATUS_TEMP, m, le b 41 1)]
    (List.range 9).foldl (fun v k => v.judgeLaser m k) u

/-- LASER_UP_FRAME (R536). -/
def execLaserUpFrame (laserModule : Fin 4) (frame : List Byte) (s : State) : Res := whenLive (laserUp laserModule.val frame) s

/-- LASER_LINK_TIMEOUT (R523, R553): the module is no longer ready, nor the engines it feeds. -/
def execLaserLinkTimeout (laserModule : Fin 4) (s : State) : Res :=
  whenLive (fun t =>
    let m := laserModule.val
    let st := t.rd OC_LASER_MODULE_STATUS_STATE m
    if st = 1 ∨ st = 2 then
      (((t.wr OC_LASER_MODULE_STATUS_STATE m 3).setErr OC_ERR_LINK_HOLD 0).raise { code := 0x0903, logical := m }).leave (.laser laserModule)
    else t) s

/-! ### Trends (R537) -/

/-- R537: PREDICT_S by the least-squares line through one-second samples (in 0.01 dBm, times 2^16), for the power at which the
margin reaches the threshold. DESIGN CHOICE (log 68): the quotient is rounded down. -/
def predict (samples : List Int) (level : Int) : Nat :=
  let n : Int := (samples.length : Int)
  let ty := samples.zip (List.range samples.length)
  let sy : Int := samples.foldl (fun a y => a + y) 0
  let st : Int := n * (n - 1) / 2
  let stt : Int := (n - 1) * n * (2 * n - 1) / 6
  let sty : Int := ty.foldl (fun a x => a + (x.2 : Int) * x.1) 0
  let den : Int := n * stt - st * st
  let slope : Int := n * sty - st * sy
  let fit : Int := (sy * stt - st * sty) + slope * (n - 1)
  let above : Int := fit - den * level
  if samples.length < 2 ∨ 0 ≤ slope then 0xFFFF
  else if above ≤ 0 then 0
  else min 0xFFFE (above / (-slope)).toNat

/-- R537: a second ends for one position. -/
def State.trendLaser (s : State) (m k : Nat) : State :=
  let p := s.laserPos m k
  if p.count = 0 then s
  else
    let y : Int := p.sum * 65536 / (p.count : Int)
    let all := (p.samples ++ [y]).drop (p.samples.length + 1 - 3600)
    let level : Int := (sext 16 (s.rd OC_LASER_CFG_ZERO_MARGIN m) + s.spareThreshold m) * 65536
    (s.setLaserPos m k { p with sum := 0, count := 0, samples := all }).wr OC_LASER_STATUS_PREDICT_S (32 * m + k) (predict all level)

/-- R537, R538: a second ends for a module: its predictions follow, and its positions are looked at. -/
def laserTrend (m : Nat) (s : State) : State :=
  (List.range 9).foldl (fun t k => t.judgeLaser m k) ((List.range 9).foldl (fun t k => t.trendLaser m k) s)

/-- LASER_TREND_SAMPLE (R537). -/
def execLaserTrendSample (laserModule : Fin 4) (s : State) : Res := whenLive (laserTrend laserModule.val) s

/-! ### The spare (R539, R540) -/

/-- Step 6 of R539: the spare is at power and every ring has relocked: it is the active laser now. -/
def State.spareTakes (s : State) (m k : Nat) : State :=
  let i := 32 * m + k
  let p := s.laserPos m k
  let act := 1 - s.activeLaser m k
  let t := (s.setLaserPos m k { p with lit := false, noSpare := true, samples := [], sum := 0, count := 0 }).retireLaser m k
  (t.wrs [(OC_LASER_STATUS_ACTIVE, i, act), (OC_LASER_STATUS_STATE, i, 2), (OC_LASER_STATUS_PREDICT_S, i, 0xFFFF)]).raise
    { code := 0x0907, kind := 9, logical := 16 * m + k, physical := 256 * act }

/-- LASER_SPARE_AT_POWER (R539, R540). -/
def execLaserSpareAtPower (laserModule : Fin 4) (position : Fin 9) (reached : Bool) (s : State) : Res :=
  whenLive (fun t =>
    let m := laserModule.val
    let k := position.val
    if t.laserState m k = 1 ∧ (t.laserPos m k).lit = true then
      if reached then t.spareTakes m k else t.laserFails m k
    else t) s

/-! ### Eye safety (R541) -/

/-- R541: a laser above the limit is lowered, or switched off where its monitor does not respond; an active laser that ends
off is handled as in R540, a spare that does is no spare any more. -/
def State.cutLaser (s : State) (m k l power : Nat) (responds : Bool) : State :=
  let (d, a) := s.draw
  let b := ((a.setLaserPos m k ((a.laserPos m k).drive l (if responds then litDrive d k else 0))).setErr OC_ERR_SAFETY_CUT 0).overridden
    4 8 power 9 (16 * m + k)
  if responds then b
  else if l = b.activeLaser m k ∨ (b.laserPos m k).lit = true then b.laserFails m k
  else (b.setLaserPos m k { b.laserPos m k with noSpare := true }).retireLaser m k

/-- R541: a module reports an open output: every laser of it is switched off. -/
def State.interlockCut (s : State) (m : Nat) : State :=
  let a := ((s.wr OC_LASER_MODULE_STATUS_INTERLOCK m 1).setErr OC_ERR_SAFETY_CUT 0).overridden 4 8 1 9 (16 * m)
  (List.range 9).foldl (fun t k => t.laserFails m k) a

/-- LASER_SAFETY_CUT (R541). -/
def execLaserSafetyCut (laserModule : Fin 4) (cut : LaserCut) (s : State) : Res :=
  whenLive (fun t => match cut with
    | .overPower position laser power responds => t.cutLaser laserModule.val position.val laser.val power.toNat responds
    | .interlock => t.interlockCut laserModule.val) s

/-! ### Settings (R541, R554) -/

/-- R554: ENABLE is cleared: every laser of the module goes dark. -/
def State.darkModule (s : State) (m : Nat) : State :=
  let t := (List.range 9).foldl (fun u k => u.setLaserPos m k { u.laserPos m k with drive0 := 0, drive1 := 0 }) s
  (t.wr OC_LASER_MODULE_STATUS_STATE m 0).leave (.laser (Fin.ofNat 4 m))

/-- R541, R550, R554: a write of OC_LASER_CFG. -/
def laserCfgWrite (m : Nat) (v : Word) (s : State) : State :=
  let set := sext 16 (OC_LASER_CFG_SET_POWER.of v)
  let thr := OC_LASER_CFG_LASER_SPARE_THRESHOLD.of v
  if set < 1500 ∨ 2050 < set ∨ OC_LASER_CFG_LEAD.of v = 0 ∨ thr < 5 ∨ 60 < thr ∨ set ≤ sext 16 (OC_LASER_CFG_ZERO_MARGIN.of v) then s.ocRefuse
  else
    let was := s.flag OC_LASER_CFG_ENABLE m
    let on := OC_LASER_CFG_ENABLE.isSet v
    let t := s.plainWrite OC_LASER_CFG m v
    if on && !was then t.lightModule m else if was && !on then t.darkModule m else t

end Sys2Proof.Machine
end

