-- ==== Sys2Proof/Machine/Lockstep.lean ====
section
/-! DEFINITION. Lock-step pairs (R399 to R404, R409): digests exchanged with a peer device and compared epoch by epoch. -/

namespace Sys2Proof.Machine

/-! ### Settings (R399, R404, R409) -/

/-- R401: a slot is locked. -/
def State.slotLocked (s : State) (k : Nat) : Bool := (s.rd MF_LS_SLOTS_BITS (k / 64)).testBit (k % 64)

/-- R404: new epochs of locked slots are stopped. -/
def State.lockHalted (s : State) : Bool := s.flag MF_LS_CFG_HALT_ON_MISMATCH 0 && s.flag MF_LS_STATUS_MISMATCH 0

/-- R399: a port may carry the pair: 400G, KIND 1 and ready. -/
def State.pairPortOk (s : State) (n : Nat) : Bool := s.portRate n == 4 && s.isFabric n && s.portReady n

/-- R409: STATE as MF_LS_STATUS shows it: 0 OFF, 1 WAITING, 2 LOCKED, 3 HALTED. -/
def State.lockState (s : State) : Nat :=
  if !s.flag MF_LS_CFG_ENABLE 0 then 0
  else if s.lockHalted then 3
  else if s.portReady (s.rd MF_LS_CFG_PORT 0) then 2
  else 1

/-- R399, R409: a write of MF_LS_CFG. DESIGN CHOICE (log 56): TIMEOUT_US below 10 is refused, and digests kept are let go
when ENABLE falls. -/
def lsCfgWrite (v : Word) (s : State) : State :=
  if MF_LS_CFG_TIMEOUT_US.of v < 10 then s.refuseWrite (MF_LS_CFG.offset 0) v.toNat
  else
    let n := MF_LS_CFG_PORT.of v
    let kept := s.flag MF_LS_CFG_ENABLE 0 && s.rd MF_LS_CFG_PORT 0 == n
    let t := s.plainWrite MF_LS_CFG 0 v
    let forget := fun (u : State) => { u with re := { u.re with own := [], peer := [] } }
    if !MF_LS_CFG_ENABLE.isSet v then forget t
    else if kept then t
    else if s.pairPortOk n then forget t
    else forget ((t.wr MF_LS_CFG_ENABLE 0 0).setErr MF_LS_STATUS_CFG_ERR 0)

/-- LOCKSTEP_ENABLE (R399). -/
def execLockstepEnable (value : Word) (s : State) : Res := whenReg (MF_LS_CFG.offset 0) value (lsCfgWrite value) s

/-- LOCKSTEP_MISMATCH_CLEAR (R404): a write of MF_LS_STATUS. What the mismatch recorded stays until the next one. -/
def execLockstepMismatchClear (value : Word) (s : State) : Res := whenReg (MF_LS_STATUS.offset 0) value (fun t => t.plainWrite MF_LS_STATUS 0 value) s

/-! ### Comparing (R401, R403) -/

/-- R401: the fields in which two digests differ, as FIELDS numbers them. -/
def Digest.diff (a b : Digest) : Nat :=
  bit (a.result != b.result) + 2 * bit (a.sends != b.sends) + 4 * bit (a.manifest != b.manifest) +
    8 * bit (a.variant == b.variant && a.last != b.last) + 16 * bit (a.variant != b.variant)

/-- R401: what the first mismatch records. -/
def State.recordMismatch (s : State) (a : Digest) (fields : Nat) : State :=
  if s.flag MF_LS_STATUS_MISMATCH 0 then s
  else
    let t := (s.wr MF_LS_EPOCH_EPOCH 0 a.epoch).wrs [(MF_LS_STATUS_MISMATCH_SLOT, 0, a.slot), (MF_LS_STATUS_FIELDS, 0, fields)]
    t.putBytes MF_LS_TILE 0 (a.entries.flatten ++ zeros (16 * (88 - a.entries.length)))

/-- R401: two digests of one epoch are compared. -/
def State.compareDigests (s : State) (a b : Digest) : State :=
  let f := a.diff b
  if f % 16 ≠ 0 then ((s.recordMismatch a f).setErr MF_LS_STATUS_MISMATCH 0).raise { code := 0x0604, kind := 14, logical := a.slot, die := 6 + a.slot / 64, detail0 := f, detail1 := a.epoch }
  else if f = 16 then (s.setErr MF_LS_STATUS_VARIANT_DIFF 0).raise { code := 0x0605, kind := 14, logical := a.slot, die := 6 + a.slot / 64, detail1 := a.epoch }
  else s

/-- R401: once both digests of an epoch are present they are compared and let go. -/
def State.matchDigests (s : State) (k n : Nat) : State :=
  let here := fun (g : Digest) => g.slot == k && g.epoch == n
  match s.re.own.find? here, s.re.peer.find? here with
  | some a, some b =>
    let t : State := { s with re := { s.re with own := s.re.own.filter (fun g => !here g), peer := s.re.peer.filter (fun g => !here g) } }
    t.compareDigests a b
  | _, _ => s

/-- R403: a comparison is dropped. -/
def State.peerLate (s : State) (k n : Nat) : State :=
  (s.setErr MF_LS_STATUS_PEER_LATE 0).raise { code := 0x0606, kind := 14, logical := k, die := 6 + k / 64, detail1 := n }

/-- R401: digests of a slot, at most 64, the oldest let go first. -/
def keepDigest (l : List Digest) (g : Digest) : List Digest :=
  let l' := l ++ [g]
  if 64 < l'.countP (fun x => x.slot == g.slot) then
    match l'.find? (fun x => x.slot == g.slot) with
    | some old => l'.erase old
    | none => l'
  else l'

/-- R401: the device's own digest of an epoch. -/
def State.keepOwn (s : State) (g : Digest) : State :=
  State.matchDigests { s with re := { s.re with own := keepDigest s.re.own g } } g.slot g.epoch

/-- R382: epochs of a slot that have completed. -/
def State.completedEpochs (s : State) (k : Nat) : Nat := match (s.mslot k).run with
  | some e => e.number
  | none => s.rd MF_SLOT_EPOCHS_EPOCHS k

/-- R401, R403: the peer's digest of an epoch: one whose own digest is gone, or that is more than 64 epochs ahead, is
discarded. -/
def State.keepPeer (s : State) (g : Digest) : State :=
  let done := s.completedEpochs g.slot
  let mine := s.re.own.any (fun x => x.slot == g.slot && x.epoch == g.epoch)
  if !s.slotLocked g.slot then s
  else if (decide (g.epoch < done) && !mine) || decide (done + 64 < g.epoch + 1) then s.peerLate g.slot g.epoch
  else State.matchDigests { s with re := { s.re with peer := keepDigest s.re.peer g } } g.slot g.epoch

/-! ### Frames (R400) -/

/-- R400: a lock-step frame of the device's own digest. -/
def State.lockFrame (s : State) (g : Digest) (reruns start : Nat) : List Byte :=
  [0x01, 0x80, 0xC2, 0x00, 0x00, 0x0E] ++ portMac (s.rd MF_LS_CFG_PORT 0) ++ natBe 2 0x88B7 ++ natBe 1 1 ++ natBe 1 1 ++ natBe 2 96 ++
  natBe 8 Config.serial.toNat ++ natBe 1 g.slot ++ natBe 1 g.variant ++ natBe 1 (min 255 reruns) ++ natBe 1 0 ++ natBe 8 g.epoch ++
  g.manifest ++ natBe 4 g.last ++ natBe 4 g.sends ++ g.result ++ natBe 8 start ++ zeros 16

/-- R400: the digest that a lock-step payload carries. -/
def digestOf (p : List Byte) : Digest :=
  { slot := be p 12 1, epoch := be p 16 8, variant := be p 13 1 % 4, manifest := slice p 24 8, last := be p 32 4, sends := be p 36 4,
    result := slice p 40 32, entries := [] }

/-- R400: a payload is a DIGEST. -/
def digestFormed (p : List Byte) : Bool := p.length == 96 && be p 0 1 == 1 && be p 1 1 == 1 && be p 2 2 == 96 && decide (be p 12 1 < 128)

/-- R399 to R401: a lock-step frame arrives. DESIGN CHOICE (log 57): one on a port that is not the pair's, and one that is
no DIGEST, is counted in DROP_SCECA. -/
def lockstepIn (n : Nat) (tag : Option (BitVec 48)) (p : List Byte) (s : State) : State :=
  if s.link n ≠ 3 then s
  else
    let (taken, t) := s.linkConsume n tag (p.length + 18)
    if !taken then t
    else if !(s.flag MF_LS_CFG_ENABLE 0 && s.rd MF_LS_CFG_PORT 0 == n) || !digestFormed p then t.portAdd n 26 1
    else t.keepPeer (digestOf p)

/-- LOCKSTEP_DIGEST_RECEIVED (R401). -/
def execLockstepDigestReceived (port : Fin 1024) (tag : Option (BitVec 48)) (payload : List Byte) (s : State) : Res :=
  whenLive (lockstepIn port.val tag payload) s

/-- R403: TIMEOUT_US is over for the oldest own digest of a slot. -/
def peerTimeout (k : Nat) (s : State) : State :=
  match s.re.own.find? (fun g => g.slot == k) with
  | some g => State.peerLate { s with re := { s.re with own := s.re.own.erase g } } k g.epoch
  | none => s

/-- LOCKSTEP_PEER_TIMEOUT (R403). -/
def execLockstepPeerTimeout (slot : Fin 128) (s : State) : Res := whenLive (peerTimeout slot.val) s

end Sys2Proof.Machine
end

