-- ==== Sys2Proof/Machine/Prot.lean ====
section
/-! DEFINITION. The protection table, its generations, and partitions (R94 to R101, R456, R470, R653). -/

namespace Sys2Proof.Machine

/-! ### PROT_UPDATE (R94 to R96, R470) -/

/-- R94: entries of a kind. -/
def protEntries : Nat → Nat
  | 1 => 4096
  | 2 => 1024
  | 3 => 1024
  | 4 => 1024
  | 5 => 1024
  | 6 => 14
  | 7 => 16
  | _ => 0

/-- R469, R470: a range of usable bytes lies inside one die and outside its device area. -/
def outsideArea (base limit : Nat) : Bool :=
  decide (limit < 2 ^ 39) && base / 2 ^ 38 == limit / 2 ^ 38 && decide (limit % 2 ^ 38 < 2 ^ 38 - 2 ^ 30)

/-- R96: the first byte of BASE and LIMIT that breaks the rule of a kind. DESIGN CHOICE (log 138): where BASE lies above LIMIT, the
field at fault is LIMIT, unless BASE is out of its own range. -/
def rangeFault (kind base limit : Nat) : Option Nat :=
  match kind with
  | 3 => if 65535 < base then some 8 else if limit < base ∨ 65535 < limit then some 16 else none
  | 4 => if base % 4096 ≠ 0 then some 8 else if (limit + 1) % 4096 ≠ 0 ∨ limit < base then some 16 else none
  | 5 =>
    if base % 4096 ≠ 0 ∨ 2 ^ 39 ≤ base ∨ 2 ^ 38 - 2 ^ 30 ≤ base % 2 ^ 38 then some 8
    else if (limit + 1) % 4096 ≠ 0 ∨ limit < base ∨ outsideArea base limit = false then some 16
    else none
  | 6 => if 16 ≤ base then some 8 else if limit ≠ 0 then some 16 else none
  | _ => if base ≠ 0 then some 8 else if limit ≠ 0 then some 16 else none

/-- R96: the offset within an entry of its first field at fault, in byte order. -/
def entryFault (e : List Byte) : Option Nat :=
  let kind := le e 0 1
  let level := le e 1 1
  let part := le e 2 2
  if protEntries kind = 0 then some 0
  else if 4 ≤ level then some 1
  else if level ≠ 3 ∧ ((256 ≤ part ∧ part ≠ 0xFFFF) ∨ (part = 0xFFFF ∧ level = 2)) then some 2
  else if protEntries kind ≤ le e 4 4 then some 4
  else
    let ranges := if level = 3 then none else rangeFault kind (le e 8 8) (le e 16 8)
    ranges.or (if le e 24 8 ≠ 0 then some 24 else none)

/-- R96: an entry as stored: an unassigned one keeps nothing but its LEVEL. -/
def storedEntry (e : List Byte) : ProtEntry := if le e 1 1 = 3 then ⟨3, 0, 0, 0⟩ else ⟨le e 1 1, le e 2 2, le e 8 8, le e 16 8⟩

/-- The staging copy with an entry replaced. -/
def stageEntry (l : List (Nat × ProtEntry)) (e : List Byte) : List (Nat × ProtEntry) :=
  let k := protKey (le e 0 1) (le e 4 4)
  sset (ProtEntry.reset k) k (storedEntry e) l

/-- What is wrong with an array of entries: that it touches the entry of ring 0 (R95), or its first bad byte. -/
inductive ArrayFault where
  | ringZero
  | byte (offset : Nat)
  deriving DecidableEq, Repr

/-- R95, R96: the first fault of an array of entries from offset `at_` on. DEDUCED (log 77): entries are looked at in array
order, and one that names ring 0 ends the look. -/
def arrayFault (at_ : Nat) : List (List Byte) → Option ArrayFault
  | [] => none
  | e :: r =>
    if le e 0 1 = 1 ∧ le e 4 4 = 0 then some .ringZero
    else match entryFault e with
      | some o => some (.byte (at_ + o))
      | none => arrayFault (at_ + 32) r

/-- R96: PROT_UPDATE writes its entries into the staging copy, all or none. -/
def State.protUpdate (s : State) (d : Desc) (bs : List Byte) : State :=
  let es := (List.range (bs.length / 32)).map (fun i => slice bs (32 * i) 32)
  match arrayFault 0 es with
  | some .ringZero => s.complete d .notPermitted 0 0
  | some (.byte o) => s.complete d .badField 0 o
  | none => State.complete { s with hi := { s.hi with staging := es.foldl stageEntry s.hi.staging } } d .success 0 0

/-- R99: a PROT_COMMIT of the ring waits: what the ring asks of the table after it is carried out after it. -/
def State.commitWaits (s : State) (n : Nat) : Bool := s.hi.descs.any (fun d => d.ring == n && d.started && !d.silent && d.opcode == 0x11)

/-- PROT_UPDATE (R96). -/
def execProtUpdate (ring : Fin 4096) (data : HostData) (s : State) : Res :=
  if s.commitWaits ring.val then .next s
  else runOpcode ring.val 0x10 true (fun d t => match hostBytes d data with
    | none => t.complete d .hostAccessError 0 0
    | some bs => t.protUpdate d bs) s

/-- PROT_COMMIT (R97, R99): it starts, and takes effect at its generation boundary. -/
def execProtCommit (ring : Fin 4096) (s : State) : Res := runOpcode ring.val 0x11 false (fun _ t => t) s

/-! ### The generation boundary (R97 to R99, R456, R653) -/

/-- R98: a started descriptor that waits, and is checked again at each boundary: any but a manifest load under way. -/
def Desc.waits (d : Desc) : Bool := d.started && d.opcode != 0x50

/-- R56, R99: a descriptor or an epoch that started under the generation before the one in force is in flight. -/
def State.oldDraining (s : State) : Bool :=
  let g := s.rd HI_PROT_GEN_ACTIVE 0
  s.hi.descs.any (fun d => d.started && d.gen != g) || s.re.slots.any (fun kv => match kv.2.run with
    | some e => e.gen != g
    | none => false)

/-- R94: the 32 bytes of an entry as it is stored. -/
def ProtEntry.bytes (e : ProtEntry) (kind index : Nat) : List Byte :=
  natLe 1 kind ++ natLe 1 e.level ++ natLe 2 e.partition ++ natLe 4 index ++ natLe 8 e.base ++ natLe 8 e.limit ++ zeros 8

/-- R653: the image of the table in force. -/
def State.protImage (s : State) : List Byte :=
  [1, 2, 3, 4, 5, 6, 7].flatMap (fun kind => (List.range (protEntries kind)).flatMap (fun i => (s.protEntry kind i).bytes kind i))

/-- R456: the partitions that an entry names. DEDUCED (log 78): an unassigned entry names none. -/
def ProtEntry.names (e : ProtEntry) (p : Nat) : Bool := e.level != 3 && e.serves p

/-- R456: an entry that names a partition changed between two tables. -/
def partChanged (old new : List (Nat × ProtEntry)) (p : Nat) : Bool :=
  ((old ++ new).map (fun kv => kv.1)).any (fun k =>
    let a := sget (ProtEntry.reset k) old k
    let b := sget (ProtEntry.reset k) new k
    decide (k / 0x100000 ≤ 5) && a != b && (a.names p || b.names p))

/-- R456, R457: CL_PART_GEN of the partitions whose entries changed moves on, and their retained groups go. -/
def State.bumpPartitions (s : State) (old : List (Nat × ProtEntry)) : State :=
  (List.range 256).foldl (fun t p => if partChanged old t.hi.prot p then (t.addWrap CL_PART_GEN_GEN p 1).discardRetained p else t) s

/-- R98: descriptors that wait go on under the new generation, or end with PROTECTION_FAULT. -/
def State.recheckWaiting (s : State) : State :=
  (s.hi.descs.filter Desc.waits).foldl (fun t d =>
    if t.stillPermitted d then t.updateDesc d { d with gen := t.rd HI_PROT_GEN_ACTIVE 0 } else t.complete d .protectionFault 0 0) s

/-- R97, R134, R653: the staging copy comes into force, and is logged. -/
def State.newTable (s : State) : State :=
  let g := wrapAdd 32 (s.rd HI_PROT_GEN_ACTIVE 0) 1
  let t := State.wr { s with hi := { s.hi with prot := s.hi.staging } } HI_PROT_GEN_ACTIVE 0 g
  t.attest 4 0 g (sm3 t.protImage)

/-- R97 to R99: the generation boundary of the oldest commit that waits. -/
def generationBoundary (s : State) : State :=
  match s.hi.descs.find? (fun d => d.started && d.opcode == 0x11) with
  | none => s
  | some d =>
    if s.oldDraining then s
    else
      let t := s.newTable.complete d .success (s.newTable.rd HI_PROT_GEN_ACTIVE 0) 0
      (((t.recheckWaiting.bumpPartitions s.hi.prot).recheckLearn).recheckFlows).recheckContexts

/-- PROT_GENERATION_BOUNDARY (R97). -/
def execProtGenerationBoundary (s : State) : Res := whenLive generationBoundary s

/-! ### Partitions (R100, R101) -/

/-- R101: the quotas of the partitions in use, with one changed, stay within the device's totals. -/
def State.quotasFit (s : State) (p : Nat) (new : Part) : Bool :=
  let all := new :: ((s.hi.parts.filter (fun kv => kv.1 != p && kv.2.state != .free)).map (fun kv => kv.2))
  let sum := fun (f : Part → Nat) => (all.map f).sum
  decide (sum Part.landingKiB ≤ 176 * 1024 ∧ sum Part.accumulators ≤ 1081344 ∧ sum Part.moorings ≤ 65536 ∧ sum Part.contexts ≤ 16384)

/-- R101: the quotas do not fall below what the partition holds. -/
def State.quotaHolds (s : State) (p : Nat) (new : Part) : Bool :=
  let h := s.holdings p
  decide (h.landingKiB ≤ new.landingKiB ∧ h.accumulators ≤ new.accumulators ∧ h.moorings ≤ new.moorings ∧ h.contexts ≤ new.contexts)

/-- R100, R101: PARTITION_SET. -/
def State.setPartition (s : State) (d : Desc) : State :=
  let p := d.u16 24
  let new : Part := ⟨.active, d.u32 28, d.u32 32, d.u32 36, d.u32 40⟩
  if (s.part p).state = .draining then s.complete d .partitionDraining 0 0
  else if !s.quotasFit p new || !s.quotaHolds p new then s.complete d .quotaExceeded 0 0
  else State.complete { s with hi := { s.hi with parts := sset Part.reset p new s.hi.parts } } d .success 0 0

/-- PARTITION_SET (R100). -/
def execPartitionSet (ring : Fin 4096) (s : State) : Res := runOpcode ring.val 0x12 false (fun d t => t.setPartition d) s

end Sys2Proof.Machine
end

