-- ==== Sys2Proof/Machine/Epoch.lean ====
section
/-! DEFINITION. Epochs: trigger instants, starts, ends and reruns (R295, R381 to R393, R402, R594), and sentinel runs
(R395 to R398, R408). -/

namespace Sys2Proof.Machine

/-! ### Conditions (R383, R384, R594) -/

/-- R384: a logical tile can run an epoch: it shows ready and is neither recovering nor about to be retired. -/
def State.tileUsable (s : State) (t : Nat) : Bool :=
  s.tileReady t && s.rd RE_TILE_STATUS_STATE t != 3 && !s.fh.recoveries.any (fun r => r.kind == 4 && r.logical == t)

/-- R384 condition 5. -/
def State.tilesUsable (s : State) (m : List Byte) : Bool := (mfTiles m).all s.tileUsable

/-- The switch dies that hold a leg's matrices or spills (R127). -/
def State.legMemory (s : State) (r : List Byte) (l : Nat) : List Nat :=
  let p := s.legSlot r l
  (if p.spill = 0 then [] else [grArea r / 2 ^ 38]) ++
    (if p.matrix < 0xFFFF then [(matrixOf (s.mslot (grManifest r)).image p.matrix).address / 2 ^ 38] else [])

/-- R383, R423, R426, R127: what an operation slot runs in the next epoch, where it is bound and ready. -/
def State.slotReady (s : State) (k o : Nat) : Option LiveSlot :=
  match (s.mslot k).bound.find? (fun b => b.1 == o) with
  | none => none
  | some (_, i, l) =>
    match s.armed i, s.leg i l with
    | some a, some g =>
      match g.cur with
      | some (q, _, j) =>
        let room := j != 0 || decide (a.ops.countP (fun x => !x.acked && seqBefore x.seq q) < 4)
        let ready := (g.half (j % 2)).ready.isSome && !a.lost.contains l && a.disarm != some none && room &&
          (s.legMemory (s.record i) l).all s.stacksReady
        if ready then
          some { opslot := o, group := i, leg := l, seq := q, j := j, count := (a.countOf (s.record i) q).getD 0, exact := 0, output := 0,
                 overflow := false, special := false, projected := false, flushed := false, last := 0 }
        else none
      | none => none
    | _, _ => none

/-- R383: the operation slots that the next epoch does not suppress. -/
def State.liveSlots (s : State) (k : Nat) : List LiveSlot :=
  (List.range (mfOpSlots (s.mslot k).image)).filterMap (s.slotReady k)

/-- R383: the readiness of MOORING and TIME_GATED: every bound operation slot is ready, and one is bound. -/
def State.allReady (s : State) (k : Nat) : Bool :=
  !(s.mslot k).bound.isEmpty && (s.mslot k).bound.all (fun b => (s.slotReady k b.1).isSome)

/-- R594: while a die is THROTTLED it idles after each epoch for as long as that epoch lasted. -/
def State.idleOver (s : State) (die : Nat) : Bool :=
  !s.flag PM_RED_STATUS_THROTTLED die ||
    (!(s.activeSlots die).any (fun k => (s.mslot k).run.any (fun e => !e.ended)) &&
      (match s.pm.idle.find? (fun kv => kv.1 == die) with
        | some (_, upto, len) => decide (upto + len ≤ s.now)
        | none => true))

/-- R295: the charge of an epoch can be made on both switch dies. -/
def State.chargeable (s : State) (m : List Byte) : Bool :=
  (List.range 2).all (fun d => decide (s.rd TQ_RESULT_CFG_HELD d + mfResultCells m d ≤ s.rd TQ_RESULT_CFG_LIMIT d ∧ mfResultCells m d ≤ s.sharedFree d))

/-- R295: the charge of an epoch is made. -/
def State.makeCharge (s : State) (m : List Byte) : State :=
  (List.range 2).foldl (fun t d => t.wr TQ_RESULT_CFG_HELD d (t.rd TQ_RESULT_CFG_HELD d + mfResultCells m d)) s

/-- R384, R387, R388, R594: conditions 2, 3 and 5 with the variant and the idle gap; the moorings that trigger a manifest are seen
through its die's bridge (R24). -/
def State.mayRun (s : State) (k : Nat) (m : List Byte) : Bool :=
  let d := k / 64
  (mfTrigger m != 1 || s.passes (6 + d) (4 + d)) &&
  !s.flag MF_DIE_STATUS_CHANGING d && mfCarries m (s.rd MF_DIE_STATUS_VARIANT d) && s.idleOver d && s.tilesUsable m && s.chargeable m

/-! ### Trigger instants (R382) -/

/-- R382: a trigger instant is skipped. -/
def State.skipInstant (s : State) (k : Nat) : State := (s.addSat MF_SLOT_LATE_SKIPPED k 1).setErr MF_ERR_TRIGGER_SKIPPED (k / 64)

/-- R382: the trigger instant awaited comes: an earlier one still held back is skipped; it is skipped itself while an epoch
runs, while a tile is not usable, and under TIME_GATED while the operation slots are not ready. -/
def triggerInstant (k : Nat) (s : State) : State :=
  let x := s.mslot k
  let m := x.image
  let d := mfDomain m
  if s.slotState k ≠ 2 ∨ mfTrigger m = 1 ∨ s.timeReady d = false ∨ (s.dom d).total < x.next then s
  else
    let t := if x.nominal.isSome then s.skipInstant k else s
    let take := x.run.isNone && s.tilesUsable m && (mfTrigger m == 0 || s.allReady k)
    let u := t.modMslot k (fun y => { y with nominal := if take then some x.next else none, next := x.next + mfPeriod m })
    if take then u else u.skipInstant k

/-- TRIGGER_INSTANT (R382). -/
def execTriggerInstant (slot : Fin 128) (s : State) : Res := whenLive (triggerInstant slot.val) s

/-! ### Starting (R384, R385) -/

/-- R382: the nominal start of a MOORING epoch: when its readiness first held after the last epoch's end. -/
def State.mooringStart (s : State) (k : Nat) : Nat :=
  (s.mslot k).bound.foldl (fun n b => match s.slotReady k b.1 with
    | some a => match s.leg a.group a.leg with
      | some g => max n ((g.half (a.j % 2)).ready.getD 0)
      | none => n
    | none => n) (s.mslot k).ended

/-- R384: the lateness of an epoch that starts now, once its nominal start has come. -/
def State.lateness (s : State) (k : Nat) : Option Nat :=
  let x := s.mslot k
  if mfTrigger x.image = 1 then (if s.allReady k then some (s.now - s.mooringStart k) else none)
  else if s.timeReady (mfDomain x.image) then x.nominal.map (fun n => (s.dom (mfDomain x.image)).total - n)
  else none

/-- R384, R407: an epoch's lateness is counted. -/
def State.countLate (s : State) (k late : Nat) : State :=
  let total := (s.mslot k).late + late
  let t := (s.modMslot k (fun x => { x with late := total })).wr MF_SLOT_LATE_SUM_LATE_SUM_US k (min (total / 1000) 0xFFFFFFFF)
  let u := if 100 < late then t.addSat MF_SLOT_LATE_SUM_LATE_EPOCHS k 1 else t
  u.wr MF_SLOT_LATE_LATE_MAX_NS k (max (u.rd MF_SLOT_LATE_LATE_MAX_NS k) (min late 0xFFFFFFFF))

/-- R371, R378: nothing of the staging, weights and output accumulators of an earlier epoch is kept. -/
def State.freshTiles (s : State) (m : List Byte) : State :=
  (mfTiles m).foldl (fun t n => t.modTile n (fun y => { y with staging := [], weights := [], product := none })) s

/-- R385: an epoch starts with the operation slots that are ready now. -/
def State.startEpoch (s : State) (k : Nat) (m : List Byte) (live : List LiveSlot) : State :=
  let n := s.rd MF_SLOT_EPOCHS_EPOCHS k
  let run : EpochRun := { number := n, gen := s.rd HI_PROT_GEN_ACTIVE 0, start := s.now, variant := s.rd MF_DIE_STATUS_VARIANT (k / 64), reruns := 0, firstVoid := none, void := false,
                          ended := false, live := live, tiles := [], charge := (List.range 2).map (mfResultCells m) }
  let t := ((s.makeCharge m).modMslot k (fun x => { x with run := some run, nominal := none, startedAt := some s.now })).addSat MF_SLOT_EPOCHS_EPOCHS k 1
  live.foldl (fun u a => u.beginOp a.group a.seq) (t.freshTiles m)

/-- R384, R404: an epoch starts where every condition holds. -/
def epochStart (k : Nat) (s : State) : State :=
  let x := s.mslot k
  if s.slotState k ≠ 2 ∨ x.run.isSome = true ∨ (s.slotLocked k && s.lockHalted) = true then s
  else match s.lateness k with
    | none => s
    | some late => if s.mayRun k x.image then (s.countLate k late).startEpoch k x.image (s.liveSlots k) else s

/-- EPOCH_START (R384). -/
def execEpochStart (slot : Fin 128) (s : State) : Res := whenLive (epochStart slot.val) s

/-! ### Ending (R386, R389, R390, R401, R402) -/

/-- R402: the 16-byte entry of a tile. -/
def TileRun.entry (x : TileRun) : List Byte := natLe 8 x.td ++ natLe 4 x.sends ++ natLe 4 x.last

/-- R402: the digest of a completed epoch. -/
def State.ownDigest (s : State) (k : Nat) (m : List Byte) (e : EpochRun) : Digest :=
  let xs := (List.range (mfTileCount m)).map e.tile
  let es := xs.map TileRun.entry
  { slot := k, epoch := e.number, variant := e.variant, manifest := s.getBytes MF_SLOT_DIGEST (8 * k) 1, last := xs.foldl (fun n x => max n x.last) 0,
    sends := (xs.map (fun x => x.sends)).sum, result := sm3 es.flatten, entries := es }

/-- R401: the digest of a locked slot's epoch is sent to the peer and kept. -/
def State.swapDigests (s : State) (k : Nat) (m : List Byte) (e : EpochRun) : State :=
  let n := s.rd MF_LS_CFG_PORT 0
  if !s.flag MF_LS_CFG_ENABLE 0 || !s.slotLocked k then s
  else
    let g := s.ownDigest k m e
    (if s.portReady n then s.sendOwn n (s.lockFrame g e.reruns e.start) else s).keepOwn g

/-- R344: two folded checks of one operation together. -/
def joinChecks (a b : Nat) (kind : Bool) : Nat := checkWord (checkSpecial a || checkSpecial b) kind ((checkResidue a + checkResidue b) % prime61)

/-- R386, R389, R344, R352: what an epoch adds to its operation; a leaf leg adds its flags alone. -/
def OpSt.addEpoch (o : OpSt) (a : LiveSlot) (variant mapGen : Nat) (top : Bool) : OpSt :=
  let x := { o with overflow := o.overflow || a.overflow, special := o.special || a.special, projected := o.projected || a.projected, flushed := o.flushed || a.flushed }
  if !top then x
  else
    let mixed := o.mixed || o.variant.any (fun v => v != variant)
    { x with exact := joinChecks o.exact a.exact false, output := joinChecks o.output a.output true, cycles := wrapAdd 64 o.cycles a.last,
             epochs := wrapAdd 32 o.epochs 1, variant := some variant, mixed := mixed, mapGen := mapGen }

/-- R386, R423: a leg has finished epoch `j` of an operation: it moves to the next, or the operation has run to its end. -/
def State.legEnd (s : State) (a : LiveSlot) : State :=
  let i := a.group
  let l := a.leg
  let more := decide (a.j + 1 < epochsOf (s.legSlot (s.record i) l) a.count)
  match (s.leg i l).bind (fun g => g.cur) with
  | some (q, rerun, j) =>
    if q = a.seq ∧ j = a.j then
      let t := (s.modLeg i l (fun g => { g with cur := if more then some (q, rerun, j + 1) else none })).releaseHalf i l (j % 2)
      ((if more then t else t.legDone i l q).advance i).settleRelease i
    else s.settleRelease i
  | none => s.settleRelease i

/-- R386: an operation slot's part of an epoch ends. -/
def State.partEnd (s : State) (e : EpochRun) (a : LiveSlot) : State :=
  let top := grIsTop (s.record a.group) a.leg
  (s.modOp a.group a.seq (fun o => o.addEpoch a e.variant (s.rd RE_TILE_MAP_GEN_GEN 0) top)).legEnd a

/-- The end of a slot's epoch is noted (R382, R594). -/
def State.noteEnd (s : State) (k : Nat) (e : EpochRun) : State :=
  let t := s.modMslot k (fun x => { x with run := none, ended := s.now })
  { t with pm := { t.pm with idle := sput (k / 64) (s.now, s.now - e.start) t.pm.idle } }

/-- R386: L cycles after its first edge an epoch is over, every tile having passed its stream; a void one waits for its
rerun (R392), except where the slot is being deactivated. A context that a generation boundary took from its partition
is LOST then (R426). -/
def epochEnd (k : Nat) (s : State) : State :=
  let x := s.mslot k
  let m := x.image
  match x.run with
  | none => s
  | some e =>
    if e.ended then s
    else if e.void then
      (if s.slotState k = 3 then (s.noteEnd k e).settleDeactivation k else (s.modRun k (fun y => { y with ended := true })).recheckContexts)
    else if !(List.range (mfTileCount m)).all (fun t => (e.tile t).finished m e.variant t) then s
    else
      let a := ((s.releaseCharge k).swapDigests k m e).noteEnd k e
      (e.live.foldl (fun t l => t.partEnd e l) a).recheckContexts.settleDeactivation k

/-- EPOCH_END (R386). -/
def execEpochEnd (slot : Fin 128) (s : State) : Res := whenLive (epochEnd slot.val) s

/-! ### Rerun (R392) -/

/-- R392: the half of an operation slot's part of a void epoch holds every contribution. -/
def State.partWhole (s : State) (a : LiveSlot) : Bool := match s.leg a.group a.leg with
  | some g => (g.half (a.j % 2)).ready.isSome
  | none => false

/-- R424: a part of a void epoch whose operation is discarded runs no more. DESIGN CHOICE (log 58): nor does one whose context
is drained or gone and that lacks a contribution. Where no part remains of those it had, the epoch is given up. -/
def State.leaveOut (s : State) (k : Nat) (e : EpochRun) : State :=
  let kept := e.live.filter (fun a => (s.armed a.group).any (fun g => g.serves a.seq && (s.partWhole a || g.disarm != some none)))
  if kept.length = e.live.length then s
  else if kept.isEmpty then s.modMslot k (fun x => { x with run := none, ended := s.now })
  else s.modMslot k (fun x => { x with run := some { e with live := kept } })

/-- What an epoch gathered in an operation slot is let go. -/
def LiveSlot.again (a : LiveSlot) : LiveSlot :=
  { a with exact := 0, output := 0, overflow := false, special := false, projected := false, flushed := false, last := 0 }

/-- R392: a void epoch runs again with the same number, halves and program, under a charge of its own (R295). -/
def State.restartEpoch (s : State) (k : Nat) (m : List Byte) (e : EpochRun) : State :=
  let run : EpochRun := { e with gen := s.rd HI_PROT_GEN_ACTIVE 0, start := s.now, variant := s.rd MF_DIE_STATUS_VARIANT (k / 64), reruns := e.reruns + 1, void := false, ended := false,
                                 live := e.live.map LiveSlot.again, tiles := [], charge := (List.range 2).map (mfResultCells m) }
  let t := (s.makeCharge m).modMslot k (fun x => { x with run := some run, startedAt := some s.now })
  e.live.foldl (fun u a => u.modOp a.group a.seq (fun o => { o with reruns := satAdd 8 o.reruns 1 }.release (1000 + k) s.now)) (t.freshTiles m)

/-- R392: the rerun of a void epoch, once recovery has restored what it needs. -/
def epochRerun (k : Nat) (s : State) : State :=
  match (s.mslot k).run with
  | none => s
  | some e =>
    if !e.void || !e.ended then s
    else
      let t := e.live.foldl (fun u a => u.settleRelease a.group) (s.leaveOut k e)
      let m := (s.mslot k).image
      match (t.mslot k).run with
      | none => t
      | some f => if f.live.all t.partWhole && t.mayRun k m then t.restartEpoch k m f else t

/-- EPOCH_RERUN (R392). -/
def execEpochRerun (slot : Fin 128) (s : State) : Res := whenLive (epochRerun slot.val) s

/-! ### Sentinels (R395 to R398) -/

/-- R395: the longest that a sentinel run holds a tile, in ns. -/
def sentinelNs : Nat := 4000

/-- R395, R396: a sentinel may run on a tile that slot `k` covers. A run is one step of the model, so it makes no epoch late
(log 13). -/
def State.betweenEpochs (s : State) (k : Nat) : Bool :=
  let x := s.mslot k
  x.run.isNone && (if mfTrigger x.image = 0 then x.nominal.isNone && decide ((s.dom (mfDomain x.image)).total + sentinelNs ≤ x.next)
    else s.flag MF_SENTINEL_CFG_INTRUDE 0)

/-- R395 to R397: a sentinel may run on a physical tile: it is not retired, a logical tile in front of it is in use and not
recovering, and every manifest that covers it lies between two epochs. -/
def State.sentinelMay (s : State) (die phys : Nat) : Bool :=
  s.flag MF_SENTINEL_CFG_ENABLE 0 && s.dieReady (6 + die) && !s.fh.tilesRetired.contains (128 * die + phys) &&
  (match s.logicalOf die phys with
    | some t => s.tileUsable t && ((s.activeSlots die).filter (fun k => (mfTiles (s.mslot k).image).contains t)).all s.betweenEpochs
    | none => true)

/-- GEN generates a sentinel's inputs inside a tile: of a sentinel run alone (R373, R395). -/
def genInstr (die phys : Nat) (s : State) : State :=
  if !s.sentinelMay die phys then s
  else match s.logicalOf die phys with
    | some t => s.scramble t
    | none => s

/-- GEN (R373). -/
def execGen (die : Fin 2) (phys : Fin 96) (s : State) : Res := whenLive (genInstr die.val phys.val) s

/-- The key of a pass: physical tile, pattern and variant. -/
def passKey (die phys pattern variant : Nat) : Nat := 256 * (128 * die + phys) + 4 * pattern + variant

/-- R397: a sentinel passes on a physical tile at the variant in force. -/
def State.sentinelPass (s : State) (die phys pattern : Nat) : State :=
  let v := s.rd MF_DIE_STATUS_VARIANT die
  let t := s.addWrap MF_SENTINEL_STATUS_PASSES die 1
  { t with re := { t.re with passes := sput (passKey die phys pattern v) s.now t.re.passes } }

/-- R398, R609: a sentinel fails: it is recorded, and its tile is to be retired; a spare that fails is retired at once. -/
def State.sentinelFail (s : State) (die phys pattern : Nat) : State :=
  let v := s.rd MF_DIE_STATUS_VARIANT die
  let t := ((s.setErr MF_ERR_SENTINEL_FAIL die).addSat MF_SENTINEL_STATUS_FAILS die 1).wrs
    [(MF_SENTINEL_STATUS_LAST_VALID, die, 1), (MF_SENTINEL_STATUS_LAST_VARIANT, die, v), (MF_SENTINEL_STATUS_LAST_PATTERN, die, pattern),
     (MF_SENTINEL_STATUS_LAST_PHYS, die, phys)]
  let u := t.raise { code := 0x0603, kind := 4, logical := (s.logicalOf die phys).getD 0xFFFF, die := 6 + die, physical := 128 * die + phys, pattern := pattern, detail0 := pattern }
  match s.logicalOf die phys with
  | some n => u.queueRecovery 4 n phys (.pattern pattern)
  | none => u.retireSpareTile die phys

/-- R395, R398: a sentinel runs on a physical tile; whatever it leaves in the tile's storage is not stated (log 42). -/
def sentinelRun (die phys pattern : Nat) (pass : Bool) (s : State) : State :=
  if !s.sentinelMay die phys then s
  else
    let t := match s.logicalOf die phys with
      | some n => s.scramble n
      | none => s
    if pass then t.sentinelPass die phys pattern else t.sentinelFail die phys pattern

/-- SENTINEL_RUN (R397). -/
def execSentinelRun (die : Fin 2) (phys : Fin 96) (pattern : Fin 64) (pass : Bool) (s : State) : Res :=
  whenLive (sentinelRun die.val phys.val pattern.val pass) s

end Sys2Proof.Machine
end

