-- ==== Sys2Proof/Machine/Recovery.lean ====
section
/-! DEFINITION. Recoveries, retirements and the services of the fault log (R605 to R629). -/

namespace Sys2Proof.Machine

/-! ### Starting (R611, R618) -/

/-- The lowest place of FH_REC_STATUS that no recovery shows in. -/
def State.freePlace (s : State) : Option Nat := (List.range 16).find? (fun k => !s.fh.recoveries.any (fun r => r.place == some k))

/-- R611: QUIESCE of a tile: STATE reads RECOVERING, and a running epoch that uses the tile is void. -/
def State.quiesceTile (s : State) (t : Nat) : State :=
  (s.re.slots.map (fun kv => kv.1)).foldl (fun u k =>
    let m := (u.mslot k).image
    match (u.mslot k).run with
    | some e =>
      if mfFirstTile m ≤ t ∧ t < mfFirstTile m + mfTileCount m ∧ e.live.any (fun a => (opSlot m a.opslot).uses (t - mfFirstTile m)) = true then
        u.voidEpoch k
      else u
    | none => u) (s.wr RE_TILE_STATUS_STATE t 3)

/-- R611: QUIESCE: the unit takes no new work. -/
def State.quiesce (s : State) (r : Recovery) : State := if r.kind = 4 then s.quiesceTile r.logical else s

/-- R611, R618: a recovery that waits starts while fewer than 16 run. -/
def recoveryStart (kind logical : Nat) (s : State) : State :=
  match s.recoveryOf kind logical, s.freePlace with
  | some r, some k =>
    if r.state = 0 then
      ((s.putRecovery { r with state := 1, place := some k }).raise
        { code := 0x0C02, kind := kind, logical := logical, die := recoveryDie kind logical, state := 1, physical := r.physical }).quiesce r
    else s
  | _, _ => s

/-- RECOVERY_START (R611, R618). -/
def execRecoveryStart (kind : Fin 16) (logical : BitVec 32) (s : State) : Res := whenLive (recoveryStart kind.val logical.toNat) s

/-! ### REPAIR of a tile (R609, R611, R612) -/

/-- A pattern has passed on a physical tile at the variant in force, at or after a time. -/
def State.passedSince (s : State) (d phys pattern since : Nat) : Bool :=
  match s.re.passes.find? (fun kv => kv.1 == passKey d phys pattern (s.rd MF_DIE_STATUS_VARIANT d)) with
  | some kv => decide (since ≤ kv.2)
  | none => false

/-- R609: a physical tile has passed a sentinel within PERIOD_MS: a run of its own, or those of start-up. -/
def State.passedLately (s : State) (d phys : Nat) : Bool :=
  let fresh := fun (at_ : Nat) => decide (s.now - at_ ≤ s.rd MF_SENTINEL_CFG_PERIOD_MS 0 * 1000000)
  s.re.swept.any (fun kv => kv.1 == d && fresh kv.2) || s.re.passes.any (fun kv => kv.1 / 256 == 128 * d + phys && fresh kv.2)

/-- R609: a physical tile may stand in for the tile under recovery. -/
def State.spareFits (s : State) (d : Nat) (r : Recovery) (phys : Nat) : Bool :=
  s.passedLately d phys && (match r.test with
    | .pattern q => s.passedSince d phys q r.begun
    | .every => (List.range 64).all (fun q => s.passedSince d phys q r.begun)
    | .none => true)

/-- A recovery is over: its place is free. -/
def State.dropRecovery (s : State) (r : Recovery) : State :=
  let t : State := { s with fh := { s.fh with recoveries := s.fh.recoveries.filter (fun x => !x.isOf r.kind r.logical) } }
  match r.place with
  | some k => t.setWord (FH_REC_STATUS.offset k) 0
  | none => t

/-- R611, R629: a physical tile is retired. -/
def State.retireTile (s : State) (d phys : Nat) : State :=
  if s.fh.tilesRetired.contains (128 * d + phys) then s
  else State.addSat { s with fh := { s.fh with tilesRetired := s.fh.tilesRetired ++ [128 * d + phys] } } FH_SPARE_STATUS_RETIRED (6 + d) 1

/-- R612: with no spare left the logical tile is withdrawn. -/
def State.withdrawTile (s : State) (r : Recovery) : State :=
  let t := r.logical
  let d := t / 88
  let a := (((s.retireTile d r.old).addSat FH_SPARE_STATUS_WITHDRAWN (6 + d) 1).dropRecovery r)
  let b := (a.wrs [(RE_TILE_MAP_VALID, t, 0), (RE_TILE_STATUS_STATE, t, 4)]).addWrap RE_TILE_MAP_GEN_GEN 0 1
  let c : State := { b with fh := { b.fh with withdrawn := b.fh.withdrawn ++ [4 * 65536 + t] } }
  let e := c.raise { code := 0x0508, kind := 4, logical := t, die := 6 + d, state := 2, physical := r.physical, detail1 := b.rd RE_TILE_MAP_GEN_GEN 0 }
  (e.fall (.tile (Fin.ofNat 176 t))).loseTile t

/-- R611: the instruction memory of a tile is loaded from the manifest store. -/
def State.reloadTile (s : State) (t : Nat) : State :=
  (s.activeSlots (t / 88)).foldl (fun u k =>
    let m := (u.mslot k).image
    if mfFirstTile m ≤ t ∧ t < mfFirstTile m + mfTileCount m then u.modTile t (fun y => { y with program := programOf m (t - mfFirstTile m) }) else u)
    (s.modTile t (fun y => { y with program := [] }))

/-- R611: the spare is mapped behind the logical tile. What its accumulators and weights hold is not stated (log 42); its
instruction memory is loaded, and the landing frames follow in REBUILD. -/
def State.mapTile (s : State) (r : Recovery) (phys : Nat) : State :=
  let t := r.logical
  let d := t / 88
  let a := ((s.retireTile d r.old).addSat FH_SPARE_STATUS_USED (6 + d) 1).wrs [(RE_TILE_MAP_VALID, t, 1), (RE_TILE_MAP_DIE, t, d), (RE_TILE_MAP_PHYS, t, phys)]
  let b := ((a.addWrap RE_TILE_MAP_GEN_GEN 0 1).scramble t).reloadTile t
  let c := b.raise { code := 0x0507, kind := 4, logical := t, die := 6 + d, state := 2, physical := r.physical + 256 * phys, detail1 := b.rd RE_TILE_MAP_GEN_GEN 0 }
  (c.budgetEvents (6 + d) 4 (c.unusedSpares (6 + d))).putRecovery { r with state := 3 }

/-- R609, R611: REPAIR of a tile ends once the spare is chosen and mapped, or with the tile withdrawn. A tile that was mapped
before its recovery restarted stays mapped. -/
def State.repairTile (s : State) (r : Recovery) : State :=
  let d := r.logical / 88
  if s.rd RE_TILE_MAP_PHYS r.logical ≠ r.old then s.putRecovery { r with state := 3 }
  else
    let left := s.freeTiles d
    match left.find? (s.spareFits d r) with
    | some phys => s.mapTile r phys
    | none => if left.isEmpty then s.withdrawTile r else s

/-! ### REPAIR of a lane (R155, R613) -/

/-- R155, R613: the failing lane's group switches its spare in, at a marker on a fabric port and by training anew on an
Ethernet port; a port that is down is waited for. Without a spare, or where the lane that fails is the spare, the lane is
withdrawn. -/
def State.repairLane (s : State) (r : Recovery) : State :=
  let g := r.logical / 8
  let j := r.logical % 8
  let done := fun (t : State) => t.putRecovery { r with state := 3 }
  if s.laneSpareFree g = false then done (s.loseLane g j)
  else match ((List.range 4).map (fun k => 4 * g + k)).find? (fun n => s.laneOf n j) with
    | none => done (s.spareLane g j)
    | some n =>
      if s.link n = 0 then s
      else if s.link n = 1 then done (s.spareLane g j)
      else if s.isFabric n then
        if s.link n = 3 ∧ (s.port n).complete = true ∧ s.fibreChanging g = false then done ((s.sendMarker n 1 j 0).spareLane g j) else s
      else done ((s.portFalls n 1).spareLane g j)

/-- The REPAIR state of a recovery ends. -/
def State.repair (s : State) (r : Recovery) : State :=
  if r.kind = 4 then s.repairTile r else if r.kind = 1 then s.repairLane r else s.putRecovery { r with state := 3 }

/-! ### REBUILD and RESUME of a tile (R611, R612) -/

/-- The legs and halves that a landing frame of a tile belongs to: group, leg, half. -/
def State.frameOwner (s : State) (t f : Nat) : Option (Nat × Nat × Nat) :=
  (s.re.slots.findSome? (fun kv =>
    if mfFirstTile kv.2.image ≤ t ∧ t < mfFirstTile kv.2.image + mfTileCount kv.2.image then
      (kv.2.bound.find? (fun b =>
        let p := opSlot kv.2.image b.1
        p.uses (t - mfFirstTile kv.2.image) && decide (p.frameBase ≤ f ∧ f < p.frameBase + 2 * p.halfFrames))).map (fun b =>
          (b.2.1, b.2.2, (opSlot kv.2.image b.1).halfOf f))
    else none))

/-- R611, R612: a frame that could not be copied is free and is asked for from its source; its half misses it. -/
def State.frameGone (s : State) (t f : Nat) : State :=
  match s.landed t f, s.frameOwner t f with
  | some y, some (i, l, h) =>
    let m := halfMooring (s.record i) l h
    let a := s.freeFrame t f
    let b := a.setMooring m { a.mooring m with count := (a.mooring m).count - 1 }
    (b.modLeg i l (fun g => g.setHalf h { g.half h with ready := none })).askSource i l y.seq y.block y.source
  | _, _ => s

/-- The landing frames of a tile that hold a counted contribution. -/
def State.countedFrames (s : State) (t : Nat) : List Nat := (((s.tile t).frames).filter (fun kv => kv.2.counted)).map (fun kv => kv.1)

/-- R611: each landing mooring's COUNT is the counted frames of its half. -/
def State.recountHalf (s : State) (i l h : Nat) : State :=
  let m := halfMooring (s.record i) l h
  let n := ((s.halfFrames i l h).filter (fun x => x.2.2.counted)).length
  s.setMooring m { s.mooring m with count := n }

/-- The legs that use a tile: group and leg. -/
def State.tileLegs (s : State) (t : Nat) : List (Nat × Nat) :=
  s.re.slots.flatMap (fun kv =>
    if mfFirstTile kv.2.image ≤ t ∧ t < mfFirstTile kv.2.image + mfTileCount kv.2.image then
      (kv.2.bound.filter (fun b => (opSlot kv.2.image b.1).uses (t - mfFirstTile kv.2.image))).map (fun b => b.2)
    else [])

/-- REBUILD of a tile ends: with frames that could not be copied the recovery restarts (R612), else its moorings are set. -/
def State.rebuildTile (s : State) (r : Recovery) (lost : List Nat) : State :=
  let gone := lost.eraseDups.filter (fun f => (s.countedFrames r.logical).contains f)
  if gone.isEmpty then
    ((s.tileLegs r.logical).foldl (fun t x => (t.recountHalf x.1 x.2 0).recountHalf x.1 x.2 1) s).putRecovery { r with state := 5 }
  else
    let t := (s.setErr RE_ERR_ACC_UNCORRECTABLE (r.logical / 88)).raise
      { code := 0x0506, kind := 4, logical := r.logical, die := 6 + r.logical / 88, state := 4, physical := r.physical, detail0 := gone.headD 0 }
    (gone.foldl (fun u f => u.frameGone r.logical f) t).restartRecovery r

/-- R611: RESUME ends: the unit is back in its normal state. -/
def State.resume (s : State) (r : Recovery) : State :=
  let t := s.dropRecovery r
  let u := if r.kind = 4 then (t.wr RE_TILE_STATUS_STATE r.logical (bit (t.tileReady r.logical))).showTile r.logical else t
  u.raise { code := 0x0C03, kind := r.kind, logical := r.logical, die := recoveryDie r.kind r.logical, state := 5, physical := r.physical }

/-- A recovery may leave RESUME: a laser position's not while it is SWAPPING, a die's not while its reset runs, a bridge's not
while it retrains. -/
def State.mayResume (s : State) (r : Recovery) : Bool :=
  if r.kind = 9 then s.laserState (r.logical / 16) (r.logical % 16) != 1
  else if r.kind = 11 then !s.fh.diesReset.contains r.logical
  else if r.kind = 10 then !(s.bridge r.logical).retraining
  else true

/-- R611, R612: the state that a recovery stands in ends; `lost` are the landing frames that REBUILD could not copy. -/
def recoveryStateDone (place : Nat) (lost : List Nat) (s : State) : State :=
  match s.fh.recoveries.find? (fun r => r.place == some place) with
  | none => s
  | some r =>
    match r.state with
    | 1 => s.putRecovery { r with state := 2 }
    | 2 => s.repair r
    | 3 => s.putRecovery { r with state := 4 }
    | 4 => if r.kind = 4 then s.rebuildTile r lost else s.putRecovery { r with state := 5 }
    | _ => if s.mayResume r then s.resume r else s

/-- RECOVERY_STATE_DONE (R611). -/
def execRecoveryStateDone (place : Fin 16) (lost : List (Fin 256)) (s : State) : Res :=
  whenLive (recoveryStateDone place.val (lost.map (fun f => f.val))) s

/-! ### Lanes (R606) -/

/-- R606, R624: a lane's second is judged: its symbol error ratio, and the lock losses of the last 10 s; its errors are kept. -/
def laneErrorCheck (p errors symbols losses : Nat) (s : State) : State :=
  let old := (sget [] s.fh.laneLocks p).filter (fun t => decide (s.now - t ≤ 10000000000))
  let times := old ++ List.replicate losses s.now
  let t : State := { s with fh := { s.fh with laneLocks := sset [] p times s.fh.laneLocks, laneErrors := sset 0 p errors s.fh.laneErrors } }
  if symbols < errors * 10 ^ s.rd FH_CFG_LANE_SER_EXP 0 ∨ 2 ≤ times.length then t.laneFails p else t

/-- LANE_ERROR_CHECK (R606). -/
def execLaneErrorCheck (lane : Fin 2304) (errors symbols : BitVec 64) (losses : Fin 4) (s : State) : Res :=
  whenLive (laneErrorCheck lane.val errors.toNat symbols.toNat losses.val) s

/-! ### Retirement by host software (R608, R628) -/

/-- R628: the unit of a retirement request exists. -/
def retireExists (kind p : Nat) : Bool :=
  (kind == 1 && decide (p < 2304)) || (kind == 4 && decide (p < 256 ∧ p % 128 < 96)) || (kind == 9 && decide (p < 64 ∧ p % 16 < 9))

/-- R628: the physical tile is in use by a recovery: it stands behind the tile under recovery, is retired while frames are still
copied from it, or is the one being tested in REPAIR. -/
def State.tileInRecovery (s : State) (d p : Nat) : Bool :=
  s.fh.recoveries.any (fun r => r.kind == 4 && decide (1 ≤ r.state) && r.logical / 88 == d &&
    (s.rd RE_TILE_MAP_PHYS r.logical == p || (r.old == p && decide (r.state ≤ 4)) || (r.state == 2 && (s.freeTiles d).head? == some p)))

/-- R628: the physical unit is in use by a recovery. -/
def State.unitInRecovery (s : State) (kind p : Nat) : Bool :=
  if kind = 1 then s.fh.recoveries.any (fun r => r.kind == 1 && decide (1 ≤ r.state) && r.logical / 8 == (laneOfPhysical p).1)
  else if kind = 4 then s.tileInRecovery (p / 128) (p % 128)
  else s.laserState (p / 16) (p % 16) == 1

/-- R608: a physical tile is retired as if it had failed. -/
def State.retireTileReq (s : State) (d p : Nat) : State :=
  if s.fh.tilesRetired.contains (128 * d + p) then s
  else match s.logicalOf d p with
    | some t => s.queueRecovery 4 t p .none
    | none => s.retireSpareTile d p

/-- R628: the active laser of a position is retired. -/
def State.retireLaserReq (s : State) (m k : Nat) : State :=
  if s.laserState m k = 3 then s else if s.noSpare m k then s.laserFails m k else s.startSwap m k

/-- R608, R628: a write of FH_RETIRE_REQ. -/
def retireRequest (v : Word) (s : State) : State :=
  let kind := FH_RETIRE_REQ_KIND.of v
  let p := FH_RETIRE_REQ_PHYSICAL.of v
  if !FH_RETIRE_REQ_GO.isSet v then s
  else if !retireExists kind p || s.unitInRecovery kind p then s.refuseWrite (FH_RETIRE_REQ.offset 0) v.toNat
  else if kind = 1 then s.laneFails p
  else if kind = 4 then s.retireTileReq (p / 128) (p % 128)
  else s.retireLaserReq (p / 16) (p % 16)

/-- RETIRE_REQUEST (R608, R628). -/
def execRetireRequest (value : Word) (s : State) : Res := whenBar (retireRequest value) s

/-! ### The fault log (R620 to R622, R626, R628) -/

/-- MERGE_WINDOW_EXPIRY (R620). -/
def execMergeWindowExpiry (code : BitVec 16) (logical : BitVec 32) (s : State) : Res :=
  whenLive (fun t => t.closeWindow (code.toNat * 2 ^ 32 + logical.toNat)) s

/-- R622: a write of FH_LOG_ACK. -/
def logAck (v : Word) (s : State) : State :=
  let t := s.plainWrite FH_LOG_ACK 0 v
  State.signalLog { t with fh := { t.fh with vectorSent := false } }

/-- LOG_ACK (R622). -/
def execLogAck (value : Word) (s : State) : Res := whenBar (logAck value) s

/-- R628: a write of FH_CFG. -/
def fhCfgWrite (v : Word) (s : State) : State :=
  let e := FH_CFG_LANE_SER_EXP.of v
  let m := FH_CFG_MERGE_US.of v
  if e < 3 ∨ 8 < e ∨ m < 10 ∨ 60000000 < m then s.refuseWrite (FH_CFG.offset 0) v.toNat else s.plainWrite FH_CFG 0 v

/-- R625: time out of full service is not counted: FULL has not yet stood since the start, a stack is in TEST, or the peer
of an enabled port does not train. DEDUCED (log 73): a disabled port and a narrowed envelope take no function out of FULL. -/
def State.progressExcluded (s : State) : Bool :=
  !s.fh.fullSeen || (List.range 12).any (fun h => s.flag MS_HBM_CTL_TEST h) ||
  (List.range 1024).any (fun n => s.portEnabled n && decide (s.link n ≤ 1))

/-- R626: 64 ms pass. -/
def progressTick (s : State) : State :=
  if s.readyAt (0, 63) && !s.fh.recoveries.any (fun r => decide (1 ≤ r.state)) then s.addSat FH_PROGRESS_FULL_MS 0 1
  else if s.progressExcluded then s
  else s.addSat FH_PROGRESS_SHORT_MS 0 1

/-- PROGRESS_TICK (R626). -/
def execProgressTick (s : State) : Res := whenLive progressTick s

/-! ### FAULT_LOG_READ (R621) -/

/-- R621: the record of a SEQ, or 64 zero bytes where the log does not hold it. -/
def State.logBytes (s : State) (q : Nat) : List Byte := match s.fh.log.find? (fun r => r.seq == q) with
  | some r => r.bytes
  | none => zeros 64

/-- FAULT_LOG_READ (R621): `written` says that host memory took the bytes. -/
def execFaultLogRead (ring : Fin 4096) (written : Bool) (s : State) : Res :=
  runOpcode ring.val 0x70 false (fun d t =>
    let bytes := (List.range (d.u32 32)).flatMap (fun k => t.logBytes (wrapAdd 32 (d.u32 28) k))
    if !written then t.complete d .hostAccessError 0 0
    else (t.descWrite d d.hostAddr bytes).complete d .success (t.rd FH_LOG_STATUS_OLDEST_SEQ 0 + 2 ^ 32 * t.rd FH_LOG_STATUS_NEXT_SEQ 0) 0) s

end Sys2Proof.Machine
end

