-- ==== Sys2Proof/Machine/Tideline.lean ====
section
/-! DEFINITION. Tideline: the choice of a variant, clock stretching, and the safety limits (R585 to R594, R597 to R603). -/

namespace Sys2Proof.Machine

/-! ### Variants (R585 to R588) -/

/-- R586, R588: the variants that every ACTIVE manifest of a die carries, among those the envelope allows. -/
def State.carriedBy (s : State) (d : Nat) : List Nat :=
  (List.range 4).filter (fun v => (s.rd PM_RED_ENV_ALLOWED d).testBit v &&
    ((s.activeSlots d).filter (fun k => s.slotState k == 2)).all (fun k => mfCarries (s.mslot k).image v))

/-- R588: the envelope alone. -/
def State.envelope (s : State) (d : Nat) : List Nat := (List.range 4).filter (fun v => (s.rd PM_RED_ENV_ALLOWED d).testBit v)

/-- R586: the variants that a die may take. -/
def State.allowedVariants (s : State) (d : Nat) : List Nat :=
  if (s.carriedBy d).isEmpty then s.envelope d else s.carriedBy d

/-- R588: ENVELOPE_UNMET follows its condition, and is raised once each time it begins. -/
def State.settleUnmet (s : State) (d : Nat) : State :=
  let now := (s.carriedBy d).isEmpty
  let t := s.wr PM_RED_STATUS_UNMET d (bit now)
  if now && !s.flag PM_RED_STATUS_UNMET d then
    (t.setErr PM_ERR_ENVELOPE_UNMET 0).raise { code := 0x0B03, kind := 11, logical := 6 + d, die := 6 + d }
  else t

/-- R585, R586: a variant is requested: a slower one at once, a faster one once the voltage is up. DESIGN CHOICE (log 71): a
request for a faster variant takes the place of one that is pending. -/
def State.requestVariant (s : State) (d want : Nat) : State :=
  let cur := s.rd MF_DIE_STATUS_VARIANT d
  let t := s.wr PM_RED_STATUS_TARGET d want
  let others := s.pm.ramping.filter (fun x => x != d)
  if want < cur then State.wr { t with pm := { t.pm with ramping := others ++ [d] } } MF_DIE_STATUS_CHANGING d 0
  else State.wr { t with pm := { t.pm with ramping := others } } MF_DIE_STATUS_CHANGING d 1

/-- VOLTAGE_RAMP_DONE (R585): the voltage is up, and the clock change is requested. -/
def voltageUp (d : Nat) (s : State) : State :=
  if s.pm.ramping.contains d then
    State.wr { s with pm := { s.pm with ramping := s.pm.ramping.filter (fun x => x != d) } } MF_DIE_STATUS_CHANGING d 1
  else s

/-- VOLTAGE_RAMP_DONE (R585). -/
def execVoltageRampDone (die : Fin 2) (s : State) : Res := whenLive (voltageUp die.val) s

/-- R387: an epoch still runs on a die; a void one has stopped. -/
def State.dieRuns (s : State) (d : Nat) : Bool :=
  (s.activeSlots d).any (fun k => (s.mslot k).run.any (fun e => !e.ended && !e.void))

/-- R40: a contribution is on its way into a tile of a reduction die, so that crossing X4 is not empty toward it. -/
def State.landsOn (s : State) (d : Nat) : Bool :=
  s.cl.inflight.any (fun kv => match kv.2.place with
    | .frame _ _ t _ => t / 88 == d
    | _ => false)

/-- R40, R387: with no epoch running and nothing on its way to its tiles, the die changes clock. -/
def variantChange (d : Nat) (s : State) : State :=
  if s.flag MF_DIE_STATUS_CHANGING d && !s.dieRuns d && !s.landsOn d then
    let want := s.rd PM_RED_STATUS_TARGET d
    let t := s.wr MF_DIE_STATUS_CHANGING d 0
    if want = s.rd MF_DIE_STATUS_VARIANT d then t else (t.wr MF_DIE_STATUS_VARIANT d want).addSat PM_RED_STATUS_CHANGES d 1
  else s

/-- VARIANT_CHANGE (R387). -/
def execVariantChange (die : Fin 2) (s : State) : Res := whenLive (variantChange die.val) s

/-! ### Safety actions (R593, R597, R598) -/

/-- The place of a rail in R630. -/
def railIndex : Rail → Nat
  | .vddPkt => 0 | .vddSram => 1 | .vddSerdes => 2 | .vddhSerdes => 3 | .vddRda => 4 | .vddRdb => 5
  | .vddCtl => 6 | .vddioCtl => 7 | .vddHbm => 8 | .vddqHbm => 9 | .vppHbm => 10

/-- R593: the dies that a limit acts on: code, and the die or rail it was met at. -/
def limitDies (code at_ : Nat) : List Nat :=
  match code with
  | 2 => if at_ = 8 then List.range 8 else [at_]
  | 3 => match at_ with
    | 0 => List.range 6
    | 4 => [6]
    | 5 => [7]
    | _ => List.range 8
  | _ => [at_]

/-- The key of an action. -/
def actionKey (code at_ : Nat) : Nat := 256 * code + at_

/-- A safety action holds a die. -/
def State.heldBySafety (s : State) (g : Nat) : Bool := s.pm.actions.any (fun k => (limitDies (k / 256) (k % 256)).contains g)

/-- R598: the action takes a die outside its envelope. -/
def State.outsideEnvelope (s : State) (g : Nat) : Bool :=
  if g < 6 then decide (s.rd PM_PKG_CFG_STRETCH_ENV 0 < 12) else !(s.rd PM_RED_ENV_ALLOWED (g - 6)).testBit 3

/-- R593: a limit acts on one die: full stretch, or variant 3. -/
def State.limitActs (s : State) (code sensed g : Nat) : State :=
  let a := if s.outsideEnvelope g then s.overridden code g sensed 11 g else s
  if g < 6 then a.wr PM_DIE_STATUS_STRETCH g 12
  else
    let b := a.wr PM_RED_STATUS_OVERRIDE (g - 6) 1
    if b.rd MF_DIE_STATUS_VARIANT (g - 6) = 3 ∧ b.rd PM_RED_STATUS_TARGET (g - 6) = 3 then b else b.requestVariant (g - 6) 3

/-- R593, R598: a limit is entered. -/
def State.enterLimit (s : State) (code at_ sensed : Nat) : State :=
  let key := actionKey code at_
  if s.pm.actions.contains key then s
  else
    let t : State := { s with pm := { s.pm with actions := s.pm.actions ++ [key] } }
    (limitDies code at_).foldl (fun u g => u.limitActs code sensed g) t

/-- R593, R594: a sensor of a die reads 110 °C. -/
def tempEmergency (g temp : Nat) (s : State) : State :=
  if temp < 1760 ∨ s.pm.actions.contains (actionKey 2 g) = true then s
  else
    let a := ((s.wr PM_DIE_STATUS_TJ g temp).setErr PM_ERR_TEMP_EMERGENCY 0).raise
      { code := 0x0B04, kind := 11, logical := g, die := g, detail0 := temp }
    let b := if g = 6 ∨ g = 7 then a.wr PM_RED_STATUS_THROTTLED (g - 6) 1 else a
    b.enterLimit 2 g temp

/-- TEMP_EMERGENCY (R593, R594). -/
def execTempEmergency (die : Fin 9) (temp : BitVec 12) (s : State) : Res := whenLive (tempEmergency die.val temp.toNat) s

/-- RAIL_CURRENT_LIMIT (R593). -/
def execRailCurrentLimit (rail : Rail) (sensed : BitVec 16) (s : State) : Res :=
  whenLive (fun t => t.enterLimit 3 (railIndex rail) sensed.toNat) s

/-- The key of the action that a limit names. -/
def limitKey : Limit → Nat
  | .junction105 d => actionKey 1 (6 + d.val)
  | .junction110 g => actionKey 2 g.val
  | .current r => actionKey 3 (railIndex r)

/-- R597: a limit is released: what no other action holds is governed by R586 and R589 again. -/
def safetyRelease (l : Limit) (s : State) : State :=
  let t : State := { s with pm := { s.pm with actions := s.pm.actions.filter (fun k => k != limitKey l) } }
  let u := (List.range 2).foldl (fun v d => if t.heldBySafety (6 + d) then v else v.wr PM_RED_STATUS_OVERRIDE d 0) t
  match l with
  | .junction110 g => if g.val = 6 ∨ g.val = 7 then u.wr PM_RED_STATUS_THROTTLED (g.val - 6) 0 else u
  | _ => u

/-- SAFETY_RELEASE (R597). -/
def execSafetyRelease (limit : Limit) (s : State) : Res := whenLive (safetyRelease limit) s

/-! ### The evaluation (R586, R589, R591) -/

/-- The next slower variant of a list in rising order. -/
def slowerOf (allowed : List Nat) (cur : Nat) : Option Nat := allowed.find? (fun v => decide (cur < v))

/-- The next faster variant of a list in rising order. -/
def fasterOf (allowed : List Nat) (cur : Nat) : Option Nat := (allowed.filter (fun v => decide (v < cur))).getLast?

/-- R586: the conditions for a faster variant, but for their dwell. -/
def State.coolEnough (s : State) (d : Nat) (rise : Int) (package : Nat) : Bool :=
  let t : Int := s.rd PM_DIE_STATUS_TJ (6 + d)
  let p := s.rd PM_DIE_STATUS_POWER_W (6 + d)
  let limit : Int := ((s.rd PM_PKG_CFG_TJ_TARGET 0 : Nat) : Int) - (s.rd PM_PKG_CFG_HYST 0 : Nat)
  decide (50 * t + max rise 0 * (s.rd PM_PKG_CFG_HORIZON_US 0 : Nat) ≤ 800 * limit) &&
  decide (p + 20 ≤ s.rd PM_RED_ENV_DIE_CAP_W d) && decide (package + 40 ≤ s.rd PM_PKG_CFG_PKG_CAP_W 0)

/-- R586: the prediction or a power cap asks for a slower variant. `rise` is how far T rose over the last 50 µs, so the slope
is rise / 50. -/
def State.tooHot (s : State) (d : Nat) (rise : Int) (package : Nat) : Bool :=
  let t : Int := s.rd PM_DIE_STATUS_TJ (6 + d)
  let p := s.rd PM_DIE_STATUS_POWER_W (6 + d)
  decide (800 * (s.rd PM_PKG_CFG_TJ_TARGET 0 : Nat) ≤ 50 * t + max rise 0 * (s.rd PM_PKG_CFG_HORIZON_US 0 : Nat)) ||
  decide (s.rd PM_RED_ENV_DIE_CAP_W d < p) ||
  (decide (s.rd PM_PKG_CFG_PKG_CAP_W 0 < package) && decide (s.rd PM_DIE_STATUS_POWER_W (7 - d) ≤ p))

/-- R586: the variant that an evaluation wants. -/
def State.wantVariant (s : State) (d : Nat) (rise : Int) (package : Nat) : Nat :=
  let cur := s.rd MF_DIE_STATUS_VARIANT d
  let allowed := s.allowedVariants d
  let dwell := 10 * (sget 0 s.pm.dwell d - 1)
  if s.heldBySafety (6 + d) then 3
  else if !allowed.contains cur then ((slowerOf allowed cur).or (fasterOf allowed cur)).getD cur
  else if s.tooHot d rise package then (slowerOf allowed cur).getD cur
  else if s.coolEnough d rise package ∧ 0 < sget 0 s.pm.dwell d ∧ s.rd PM_PKG_CFG_UP_DWELL_US 0 ≤ dwell then (fasterOf allowed cur).getD cur
  else cur

/-- R586: consecutive evaluations at which a faster variant could be afforded. -/
def State.countDwell (s : State) (d : Nat) (rise : Int) (package : Nat) : State :=
  let n := if s.coolEnough d rise package then min 65536 (sget 0 s.pm.dwell d + 1) else 0
  { s with pm := { s.pm with dwell := sset 0 d n s.pm.dwell } }

/-- R586, R593 code 1: an evaluation of a reduction die. -/
def State.evaluateDie (s : State) (d : Nat) (rise : Int) (package : Nat) : State :=
  let a := (s.settleUnmet d).countDwell d rise package
  let t := a.rd PM_DIE_STATUS_TJ (6 + d)
  let b := if 1680 ≤ t then a.enterLimit 1 (6 + d) t else a
  let want := b.wantVariant d rise package
  if want = b.rd MF_DIE_STATUS_VARIANT d ∨ (want = b.rd PM_RED_STATUS_TARGET d ∧ (b.flag MF_DIE_STATUS_CHANGING d || b.pm.ramping.contains d) = true)
  then b else b.requestVariant d want

/-- R589: a reduction die runs at the slowest variant it is allowed. -/
def State.slowest (s : State) (d : Nat) : Bool := (slowerOf (s.allowedVariants d) (s.rd MF_DIE_STATUS_VARIANT d)).isNone

/-- R589: the stretch for the package budget moves by one step. -/
def State.stepBudget (s : State) (package : Nat) : State :=
  let env := s.rd PM_PKG_CFG_STRETCH_ENV 0
  let cap := s.rd PM_PKG_CFG_PKG_CAP_W 0
  let k := min env s.pm.budget
  let k' := if cap < package ∧ s.slowest 0 = true ∧ s.slowest 1 = true then min env (k + 1) else if package + 40 ≤ cap then k - 1 else k
  { s with pm := { s.pm with budget := k' } }

/-- R591: a die's stretch follows what holds it: up at once, down one code at a time. -/
def State.settleStretch (s : State) (g : Nat) : State :=
  let want := if s.heldBySafety g then 12 else s.pm.budget
  let cur := s.rd PM_DIE_STATUS_STRETCH g
  s.wr PM_DIE_STATUS_STRETCH g (if cur ≤ want then want else cur - 1)

/-- R601: the package's energy of 10 µs. -/
def State.countEnergy (s : State) (package : Nat) : State :=
  let e := s.pm.energy + package
  State.addWrap { s with pm := { s.pm with energy := e % 100 } } PM_PKG_ENERGY_MJ 0 (e / 100)

/-- R603: telemetry of the dies: power and hottest junction, in the order of R123. -/
def State.telemetry (s : State) (dies : List (BitVec 12 × BitVec 12)) : State :=
  (dies.take 9).zipIdx.foldl (fun t x => t.wrs [(PM_DIE_STATUS_POWER_W, x.2, x.1.1.toNat), (PM_DIE_STATUS_TJ, x.2, x.1.2.toNat)]) s

/-- R586, R589: an evaluation. DESIGN CHOICE (log 72): the package is governed at the evaluation of RD0. -/
def tideline (d : Nat) (dies : List (BitVec 12 × BitVec 12)) (rise : Int) (package : Nat) (s : State) : State :=
  let a := s.telemetry dies
  let b := if a.dieReady (6 + d) then a.evaluateDie d rise package else a
  if d = 0 then (List.range 6).foldl (fun t g => t.settleStretch g) ((b.countEnergy package).stepBudget package) else b

/-- TIDELINE_EVALUATION (R586). -/
def execTidelineEvaluation (die : Fin 2) (dies : List (BitVec 12 × BitVec 12)) (rise : Int) (package : BitVec 12) (s : State) : Res :=
  whenLive (tideline die.val dies rise package.toNat) s

/-! ### Settings (R590, R602) -/

/-- R590, R602: a write of PM_PKG_CFG. -/
def pkgCfgWrite (v : Word) (s : State) : State :=
  let cap := PM_PKG_CFG_PKG_CAP_W.of v
  let tj := PM_PKG_CFG_TJ_TARGET.of v
  if cap < 800 ∨ 2600 < cap ∨ tj < 60 ∨ 104 < tj ∨ PM_PKG_CFG_HYST.of v = 0 ∨ 12 < PM_PKG_CFG_STRETCH_ENV.of v ∨
      5000 < PM_PKG_CFG_HORIZON_US.of v ∨ PM_PKG_CFG_UP_DWELL_US.of v < 10 then
    s.setErr PM_ERR_CFG_REFUSED 0
  else s.plainWrite PM_PKG_CFG 0 v

/-- R590, R602: a write of PM_RED_ENV. -/
def redEnvWrite (d : Nat) (v : Word) (s : State) : State :=
  let cap := PM_RED_ENV_DIE_CAP_W.of v
  if PM_RED_ENV_ALLOWED.of v = 0 ∨ cap < 100 ∨ 450 < cap then s.setErr PM_ERR_CFG_REFUSED 0 else s.plainWrite PM_RED_ENV d v

end Sys2Proof.Machine
end

