-- ==== Sys2Proof/Machine/TimeCmd.lean ====
section
/-! DEFINITION. Commands of the time base: steering, following, holdover, replicas and snapshots (R557 to R569,
R580, R581), and what a domain's coming and going does (R292, R406, R562, R563, R573). -/

namespace Sys2Proof.Machine

/-! ### A domain leaves service and returns -/

/-- A time-triggered slot in use that follows a domain. -/
def State.timedSlot (s : State) (d k : Nat) : Bool :=
  s.slotState k == 2 && mfTrigger (s.mslot k).image != 1 && mfDomain (s.mslot k).image == d

/-- R573: frames of a domain that goes are forwarded uncorrected. -/
def State.forgetArrivals (s : State) : State :=
  { s with pc := { s.pc with frames := s.pc.frames.map (fun x => (x.1, { x.2 with arrival := none })) } }

/-- R562, R566, R567: a domain's readiness falls: gates open, timed manifests wait, the transparent clock stops correcting, its
follower is no longer LOCKED. -/
def State.domainFalls (s : State) (d : Nat) : State :=
  if s.timeReady d then
    let a := ((s.fall (.time (Fin.ofNat 2 d))).gatesDomainLost d).setLocked (1 - d) false
    let b := (List.range 128).foldl (fun t k => if t.timedSlot d k then t.setErr MF_ERR_DOMAIN_LOST (k / 64) else t) a
    if b.rd TB_TC_CFG_DOMAIN 0 = d then b.forgetArrivals else b
  else s

/-- The entry of a gate list in force `x` ns into its cycle. -/
def entryAt (list : List (Nat × Nat)) (x : Nat) : Nat :=
  match list with
  | [] => 0
  | [_] => 0
  | e :: r => if x < e.2 then 0 else 1 + entryAt r (x - e.2)

/-- R289: the start of the cycle in progress at `now`, where cycles begin at `anchor` and every `cycle` from it. -/
def cycleBegan (anchor cycle now : Nat) : Nat :=
  ((now : Int) - ((now : Int) - (anchor : Int)) % ((max 1 cycle : Nat) : Int)).toNat

/-- R563: a schedule whose domain is ready again: a change that is due takes place, and cycles go on in the new time. -/
def State.gateResumes (s : State) (k : Nat) : State :=
  let now := fun (t : State) => (t.dom (t.gate k).domain).total
  let a := if s.flag TQ_GATE_STATUS_PENDING k && decide (s.gateChange k ≤ (s.dom (s.gate k).pendingDomain).total) then Sys2Proof.Machine.gateChange k s else s
  let g := a.gate k
  let start := cycleBegan g.cycleStart g.operCycle (now a)
  a.setGate k { g with lost := false, cycleStart := start, entry := entryAt g.oper (now a - start) }

/-- R382, R563: a timed manifest goes on at the first instant that is not past; those passed over are skipped. -/
def State.slotResumes (s : State) (d k : Nat) : State :=
  let x := s.mslot k
  let first := firstInstant x.image (s.dom d).total
  let passed := (first - x.next) / max 1 (mfPeriod x.image) + bit x.nominal.isSome
  let t := s.modMslot k (fun y => { y with next := first, nominal := none })
  if passed = 0 then t else (t.addSat MF_SLOT_LATE_SKIPPED k passed).setErr MF_ERR_TRIGGER_SKIPPED (k / 64)

/-- R563: a domain becomes ready, and its consumers resume. -/
def State.domainRises (s : State) (d : Nat) : State :=
  if s.timeReady d then s
  else
    let a := s.rise (.time (Fin.ofNat 2 d))
    let b := (List.range 128).foldl (fun t k =>
      if t.flag TQ_GATE_STATUS_OPER_VALID k && (t.gate k).domain == d && (t.gate k).lost then t.gateResumes k else t) a
    (List.range 128).foldl (fun t k => if t.timedSlot d k then t.slotResumes d k else t) b

/-- A domain that counts may be ready: it does not settle after a STEP, and holdover has not run out. -/
def State.domainMay (s : State) (d : Nat) : Bool := (s.dom d).running && !(s.dom d).settling && !s.tb.expired && s.dieReady 8

/-! ### Steering (R557, R561, R562, R564 to R566, R581) -/

/-- A write of the time base that is discarded (R557, R561, R565, R576). -/
def State.tbRefuse (s : State) : State := s.setErr TB_ERR_CFG_REFUSED 0

/-- R557, R565: a write of TB_DOM_INCR. -/
def incrWrite (d : Nat) (v : Word) (s : State) : State :=
  let i := TB_DOM_INCR_INCR.of v
  if s.follows d ∨ i < 0xFF000000 ∨ 0x101000000 < i then s.tbRefuse else s.plainWrite TB_DOM_INCR d v

/-- R561, R565: a write of TB_DOM_ADJ. -/
def adjWrite (d : Nat) (v : Word) (s : State) : State :=
  let r : Int := (s.dom d).remaining + sext 32 (TB_DOM_ADJ_ADJ_NS.of v) * 4294967296
  if s.follows d ∨ 1000000000 * 4294967296 < r.natAbs then s.tbRefuse else s.setDom d { s.dom d with remaining := r }

/-- TIME_ADJUST (R561). -/
def execTimeAdjust (domain : Fin 2) (value : Word) (s : State) : Res := whenBar (adjWrite domain.val value) s

/-- R562: a STEP. -/
def State.stepDomain (s : State) (d : Nat) : State :=
  let x := s.dom d
  let t := s.setDom d { x with sec := s.rd TB_DOM_STEP_S_SECONDS d, ns := s.rd TB_DOM_STEP_NS_NS d, frac := 0, remaining := 0, settling := x.running }
  t.domainFalls d

/-- R564: a domain is enabled. Domain 1 takes over domain 0's value, increment and REMAINING; DESIGN CHOICE (log 69): domain 0,
stopped and enabled again, goes on from where it stood. -/
def State.enableDomain (s : State) (d : Nat) : State :=
  let t := if d = 1 then (s.setDom 1 { s.tb.dom0 with settling := false, running := true }).wr TB_DOM_INCR_INCR 1 (s.rd TB_DOM_INCR_INCR 0)
    else s.setDom 0 { s.tb.dom0 with running := true }
  if t.domainMay d then t.domainRises d else t

/-- R564: a domain is stopped. -/
def State.disableDomain (s : State) (d : Nat) : State :=
  let x := s.dom d
  State.domainFalls (s.setDom d { x with running := false, settling := false }) d

/-- R566: FOLLOW is cleared: the domain stays at the other domain's INCR with nothing to slew. -/
def State.unfollow (s : State) (d : Nat) : State :=
  ((s.setDom d { s.dom d with remaining := 0 }).wr TB_DOM_INCR_INCR d (s.rd TB_DOM_INCR_INCR (1 - d))).setLocked d false

/-- R562, R565, R581: a write of TB_DOM_CTL is discarded. DESIGN CHOICE (log 59): so is one with SLEW_PPB outside its range. -/
def State.domCtlBad (s : State) (d : Nat) (v : Word) : Bool :=
  let slew := TB_DOM_CTL_SLEW_PPB.of v
  let follow := TB_DOM_CTL_FOLLOW.isSet v
  let step := TB_DOM_CTL_STEP.isSet v
  decide (slew < 1 ∨ 500000 < slew) || (follow && s.follows (1 - d)) || (step && (follow || s.follows d)) ||
  (step && decide (1000000000 ≤ s.rd TB_DOM_STEP_NS_NS d))

/-- R562, R564 to R566: a write of TB_DOM_CTL. -/
def domCtl (d : Nat) (v : Word) (s : State) : State :=
  if s.domCtlBad d v then s.tbRefuse
  else
    let was := s.flag TB_DOM_CTL_ENABLE d
    let on := TB_DOM_CTL_ENABLE.isSet v
    let a := s.plainWrite TB_DOM_CTL d v
    let b := if s.follows d && !TB_DOM_CTL_FOLLOW.isSet v then a.unfollow d else a
    let c := if on && !was then b.enableDomain d else if was && !on then b.disableDomain d else b
    if TB_DOM_CTL_STEP.isSet v then c.stepDomain d else c

/-- TIME_STEP (R562). -/
def execTimeStep (domain : Fin 2) (value : Word) (s : State) : Res := whenBar (domCtl domain.val value) s

/-- DOMAIN_ENABLE (R564). -/
def execDomainEnable (domain : Fin 2) (value : Word) (s : State) : Res := whenBar (domCtl domain.val value) s

/-- DOMAIN_FOLLOW (R565, R566). -/
def execDomainFollow (domain : Fin 2) (value : Word) (s : State) : Res := whenBar (domCtl domain.val value) s

/-- R562, R563: 10,000 time-clock cycles after a STEP the domain is ready again. -/
def stepSettled (d : Nat) (s : State) : State :=
  if (s.dom d).settling then
    let t := s.setDom d { s.dom d with settling := false }
    if t.domainMay d then t.domainRises d else t
  else s

/-- TIME_STEP_SETTLED (R562). -/
def execTimeStepSettled (domain : Fin 2) (s : State) : Res := whenLive (stepSettled domain.val) s

/-- DOMAIN_LOCKED (R565): the two counters agree in all 112 bits. -/
def execDomainLocked (domain : Fin 2) (s : State) : Res :=
  whenLive (fun t =>
    let d := domain.val
    if t.follows d && t.timeReady (1 - d) && (t.dom d).whole == (t.dom (1 - d)).whole then t.setLocked d true else t) s

/-! ### Holdover (R567, R568) -/

/-- R567: TCLK is lost. -/
def tclkLost (s : State) : State :=
  if s.flag TB_STATUS_TCLK_PRESENT 0 then
    ((s.wrs [(TB_STATUS_TCLK_PRESENT, 0, 0), (TB_STATUS_HOLDOVER, 0, 1)]).setErr TB_ERR_TCLK_LOST 0).raise { code := 0x0A02 }
  else s

/-- TCLK_LOST (R567). -/
def execTclkLost (s : State) : Res := whenLive tclkLost s

/-- R567: HOLDOVER_MS runs out. -/
def holdoverExpiry (s : State) : State :=
  if s.flag TB_STATUS_HOLDOVER 0 && !s.tb.expired then
    let t : State := { s with tb := { s.tb with expired := true } }
    (((t.domainFalls 0).domainFalls 1).setErr TB_ERR_HOLDOVER_EXPIRED 0).raise { code := 0x0A03 }
  else s

/-- HOLDOVER_EXPIRY (R567). -/
def execHoldoverExpiry (s : State) : Res := whenLive holdoverExpiry s

/-- R568: the PLL relocks to TCLK: enabled domains are ready again. -/
def tclkRelock (s : State) : State :=
  if s.flag TB_STATUS_HOLDOVER 0 then
    let t : State := State.wrs { s with tb := { s.tb with expired := false } } [(TB_STATUS_TCLK_PRESENT, 0, 1), (TB_STATUS_HOLDOVER, 0, 0)]
    let u := if t.domainMay 0 then t.domainRises 0 else t
    if u.domainMay 1 then u.domainRises 1 else u
  else s

/-- TCLK_RELOCK (R568). -/
def execTclkRelock (s : State) : Res := whenLive tclkRelock s

/-! ### Replicas and snapshots (R569, R580) -/

/-- R34: a die's replica stands as far from the master's count as given, in thousandths of a time-clock cycle. -/
def State.setReplica (s : State) (g : Nat) (x : Int) : State := { s with tb := { s.tb with replicas := sset 0 g x s.tb.replicas } }

/-- R34: a die's replica is aligned to the master. -/
def State.alignReplica (s : State) (g : Nat) : State := (s.setReplica g 0).wr TB_REPLICA_ALIGNED g 1

/-- R34: a die's clock line has gained as much on the master's clock. -/
def State.driftReplica (s : State) (g : Nat) (drift : Int) : State := s.setReplica g (sget 0 s.tb.replicas g + drift)

/-- R569: a replica that differs from the master by a time-clock cycle or more is realigned. -/
def State.realign (s : State) (g : Nat) : State :=
  if s.dieReady g && decide (1000 ≤ (sget 0 s.tb.replicas g).natAbs) then
    (((s.addSat TB_REPLICA_REALIGNS g 1).alignReplica g).setErr TB_ERR_REPLICA_REALIGNED 0).raise
      { code := 0x0A04, kind := 11, logical := g, die := g }
  else s

/-- R34, R569: the replicas have drifted, and every one is compared with the master. -/
def replicaCheck (drift : List (Nat × Int)) (s : State) : State :=
  (List.range 9).foldl State.realign (drift.foldl (fun t x => t.driftReplica x.1 x.2) s)

/-- REPLICA_CHECK (R34, R569): `drift` is what each replica named has gained on the master since the last check. -/
def execReplicaCheck (drift : List (Fin 9 × Int)) (s : State) : Res :=
  whenLive (replicaCheck (drift.map (fun x => (x.1.val, x.2)))) s

/-- R580: both domains are captured at one edge. -/
def snapCtl (v : Word) (s : State) : State :=
  if TB_SNAP_CTL_GO.isSet v then
    (List.range 2).foldl (fun t d => t.wrs [(TB_SNAP_S_SEC, d, (s.dom d).sec), (TB_SNAP_NSF_NS, d, (s.dom d).ns),
      (TB_SNAP_NSF_FRAC, d, (s.dom d).frac / 65536)]) s
  else s

/-- TIME_SNAPSHOT (R580). -/
def execTimeSnapshot (value : Word) (s : State) : Res := whenBar (snapCtl value) s

/-- R580: a write of TB_CFG. DESIGN CHOICE (log 59): HOLDOVER_MS outside its range refuses the write. -/
def tbCfgWrite (v : Word) (s : State) : State := if 60000 < TB_CFG_HOLDOVER_MS.of v then s.tbRefuse else s.plainWrite TB_CFG 0 v

/-- R570, R573, R580: a write of TB_TC_CFG; frames that arrived under another DOMAIN go uncorrected. -/
def tcCfgWrite (v : Word) (s : State) : State :=
  let t := s.plainWrite TB_TC_CFG 0 v
  if TB_TC_CFG_DOMAIN.of v = s.rd TB_TC_CFG_DOMAIN 0 then t else t.forgetArrivals

end Sys2Proof.Machine
end

