-- ==== Sys2Proof/Machine/Supply.lean ====
section
/-! DEFINITION. Supplies, clocks and trips (R595, R596, R636, R639) and die resets (R106, R617). -/

namespace Sys2Proof.Machine

/-! ### The device stops (R595, R636) -/

/-- R595: every laser is switched off through its laser link. -/
def State.lasersOff (s : State) : State :=
  let t := (List.range 36).foldl (fun u i => u.setLaserPos (i / 9) (i % 9) { u.laserPos (i / 9) (i % 9) with drive0 := 0, drive1 := 0 }) s
  (List.range 4).foldl (fun u m =>
    let v := u.emit (.laserDown m (u.laserFrame m))
    { v with oc := { v.oc with laserSeq := sset 0 m (wrapAdd 16 (sget 0 v.oc.laserSeq m) 1) v.oc.laserSeq } }) t

/-- R595: every clock domain but TIME stops until a cold reset. -/
def State.stopDevice (s : State) : State := State.lasersOff { s with bt := { s.bt with stopped := true } }

/-- R636, R637: the device stops with FAULT_L asserted. -/
def State.stopFault (s : State) : State := State.emit (State.stopDevice { s with bt := { s.bt with faultL := true } }) (.pin .faultL false)

/-- R595, R596: 120 °C (in sixteenths) on a sensor. -/
def thermalTrip (die sensor temp : Nat) (s : State) : State :=
  if temp < 1920 then s
  else
    let t : State := { s with bt := { s.bt with thermtripL := true, trip := some (die, sensor, temp, s.tb.dom0.visible) } }
    (t.emit (.pin .thermtripL false)).stopDevice

/-- THERMAL_TRIP (R595, R596). -/
def execThermalTrip (die : Fin 9) (sensor : BitVec 5) (temp : BitVec 12) (s : State) : Res :=
  whenLive (thermalTrip die.val sensor.toNat temp.toNat) s

/-- R636: VDD_CTL or VDDIO_CTL outside its range holds every die in reset; without VDD_CTL the trip record is lost (R596). Any
other rail stops the device. -/
def railFault (rail : Rail) (s : State) : State :=
  match rail with
  | .vddCtl => { s with bt := { s.bt with held := true, trip := none } }
  | .vddioCtl => { s with bt := { s.bt with held := true } }
  | _ => if s.live then s.stopFault else s

/-- RAIL_FAULT (R636): while POR_L is high. -/
def execRailFault (rail : Rail) (s : State) : Res := .next (if s.bt.por then railFault rail s else s)

/-! ### Reference clocks (R639) -/

/-- CORE_REFCLK_LOST (R639): in service the device stops; before start-up nothing starts. -/
def execCoreRefclkLost (s : State) : Res :=
  .next (let t : State := { s with bt := { s.bt with coreRefLost := true } }
    if t.live && t.dieReady 8 then t.stopFault else t)

/-- CORE_REFCLK_RESTORED (R639): start-up proceeds. -/
def execCoreRefclkRestored (s : State) : Res := .next { s with bt := { s.bt with coreRefLost := false } }

/-- The logical ports of a port die. -/
def diePorts (d : Nat) : List Nat := (List.range 256).map (fun k => 256 * d + k)

/-- R213, R639: every port of a port die whose link is not down goes down, and trains again if it is enabled. -/
def State.diePortsFall (s : State) (d : Nat) : State :=
  (diePorts d).foldl (fun t n => if t.link n = 0 then t else t.portFalls n (bit (t.portEnabled n))) s

/-- SERDES_REFCLK_LOST (R639). -/
def execSerdesRefclkLost (die : Fin 4) (s : State) : Res :=
  .next (if s.bt.serdesLost.contains die.val then s
    else
      let t : State := { s with bt := { s.bt with serdesLost := s.bt.serdesLost ++ [die.val] } }
      if t.live then t.diePortsFall die.val else t)

/-- SERDES_REFCLK_RESTORED (R639): the die's ports can lock again. -/
def execSerdesRefclkRestored (die : Fin 4) (s : State) : Res :=
  .next { s with bt := { s.bt with serdesLost := s.bt.serdesLost.filter (fun d => d != die.val) } }

/-! ### What a die reset clears (R106, R617) -/

/-- DESIGN CHOICE (log 74): the read-only fields that a die's reset does not leave at their reset values: they show what the
control die holds or what recovery restores with the configuration (the spare and repair maps, the copies of tables, schedules and
manifests, the reservations of armed contexts), or a link that has been taken down before. -/
def keptFields : List Fld :=
  [PC_LANE_GROUP_SPARE_FOR, PC_PORT_STATUS_LINK, PC_PORT_STATUS_ACTIVE_LANES, FT_PIPE_STATUS_IMAGE_BUSY, FT_PIPE_COUNT_STATIC,
   FT_PIPE_COUNT_LEARNED, FT_LEARN_PROD_COUNT, FT_GROUP_CFG_LIVE, FT_LPM_STATUS_IMAGE_BUSY, FT_LPM_STATUS_V6_USED,
   FT_LPM_STATUS_V4_USED, TQ_GATE_STATUS_PENDING, TQ_GATE_STATUS_OPER_VALID, TQ_GATE_STATUS_CHANGE_NS, TQ_GATE_CHANGE_S_SECONDS,
   TQ_GATE_OPER_STATES, TQ_GATE_OPER_INTERVAL_NS, RE_TILE_MAP_VALID, RE_TILE_MAP_DIE, RE_TILE_MAP_PHYS, RE_TILE_MAP_GEN_GEN,
   RE_TILE_STATUS_STATE, RE_TILE_STATUS_SLOTS_HELD, RE_TILE_STATUS_FRAMES_HELD, MF_DIE_STATUS_STORE_FREE, MF_DIE_STATUS_ACTIVE,
   MF_SLOT_STATUS_STATE, MF_SLOT_STATUS_VARIANTS, MF_SLOT_STATUS_TRIGGER, MF_SLOT_STATUS_TILE_COUNT, MF_SLOT_STATUS_FIRST_TILE,
   MF_SLOT_STATUS_BOUND, MF_SLOT_EPOCHS_EPOCHS, MF_SLOT_DIGEST_WORD, MS_BW_GRANT_SLIPWAY, MS_BW_GRANT_MANIFEST, MS_BW_GRANT_DEVICE,
   MS_BW_GRANT_FREE, MS_HBM_STATUS_STATE, MS_HBM_STATUS_DEGRADED, MS_HBM_STATUS_ERASED_PC, MS_HBM_STATUS_ROW_REPAIRS,
   MS_BAD_STRIPE_VALID, MS_BAD_STRIPE_ADDRESS]

/-- The bits of a register that hold after its die's reset what they held before: configuration, which comes back from the control
die, and what is restored with it. -/
def keptMask (r : Reg) : Nat :=
  (keptFields.filter (fun f => f.reg.base == r.base)).foldl (fun m f => m ||| (2 ^ (f.hi + 1) - 2 ^ f.lo)) (r.rw ||| r.rwl)

/-- R106: a register word of a die after the die's reset and restoration; everything not restored is at its reset value. -/
def dieWord (d : Nat) (kv : Nat × Word) : Nat × Word :=
  match registerAt kv.1 with
  | some (r, _) =>
    if dieOf kv.1 = d then
      let kept := BitVec.ofNat 64 (keptMask r)
      (kv.1, (kv.2 &&& kept) ||| (resetWord kv.1 &&& ~~~kept))
    else kv
  | none => if 0x80000 ≤ kv.1 % 0x100000 ∧ dieOf (kv.1 - 0x80000) = d then (kv.1, 0) else kv

/-- The registers of a die that is reset. -/
def State.dieRegs (s : State) (d : Nat) : State := { s with regs := (s.regs.map (dieWord d)).filter (fun kv => kv.2 != resetWord kv.1) }

/-- R617: a port die: its ports train anew, learned entries, learns under way, flowlets and flow counts are gone, and the port
and meter counters start from zero (log 74). -/
def State.clearPortDie (s : State) (d : Nat) : State :=
  let a := s.diePortsFall d
  let mine := fun (p : Nat) => p / 2 == d
  let ft : TableSt := { a.ft with
    endpoints := a.ft.endpoints.filter (fun kv => !(mine (kv.1 / 0x400000) && imgLearned kv.2)),
    learns := sclear mine a.ft.learns, conflicts := sclear mine a.ft.conflicts, flowlets := sclear (fun k => mine (k / 65536 % 9)) a.ft.flowlets }
  let pc : PacketSt := { a.pc with portCount := sclear (fun k => k / 64 / 256 == d) a.pc.portCount, meterCount := sclear (fun k => k / 4 / 16384 == d) a.pc.meterCount }
  let tq : QueueSt := { a.tq with meters := sclear (fun k => k / 16384 == d) a.tq.meters }
  let ms : MemSt := { a.ms with flows := sclear mine a.ms.flows }
  ((({ a with ft := ft, pc := pc, tq := tq, ms := ms } : State).recount (2 * d)).recount (2 * d + 1)).dieRegs d

/-- A contribution that waits in the buffer of a switch die is lost. -/
def State.loseWaiting (s : State) (w : Waiting) : State :=
  let t := s.unwait w.frame
  if w.counted then t.dropFrame w.frame
  else match t.inflight w.port with
    | some x => t.setInflight w.port { x with place := .dropped }
    | none => t

/-- R617: what the ports homed on switch die `k` hold is gone. -/
def State.flushDiePorts (s : State) (k : Nat) : State :=
  ((List.range 512).map (fun n => 512 * k + n)).foldl (fun t n => if (t.portQueues n).isEmpty && (t.port n).sending.isNone then t else t.flushPort n) s

/-- R617: contributions waiting at the ports of switch die `k` are gone. -/
def State.loseDieWaiting (s : State) (k : Nat) : State :=
  (s.cl.waits.filter (fun w => homeDie w.port == k)).foldl (fun t w => t.loseWaiting w) s

/-- R617: the caches, combining entries and moorings of switch die `k` are empty. -/
def State.clearDieLines (s : State) (k : Nat) : State :=
  let mine := fun (l : List Line) => l.filter (fun x => stripeDie x.stripe != k)
  { s with ms := { s.ms with lines := mine s.ms.lines, atomic := mine s.ms.atomic, combining := mine s.ms.combining,
                             moorings := s.ms.moorings.filter (fun kv => kv.1 / 32768 != k) } }

/-- R617: a pseudo-channel of switch die `k` that was being retrained waits for it again. -/
def State.requeueRetrains (s : State) (k : Nat) : State :=
  (List.range 6).foldl (fun t j =>
    let h := 6 * k + j
    match (t.hbmStack h).retrain with
    | some r => (t.modStack h (fun x => { x with queue := r.channel :: x.queue, retrain := none, fails := 0 })).wr MS_HBM_STATUS_RETRAINING h 0
    | none => t) s

/-- R617: the queue counters of switch die `k` are zero. -/
def State.zeroDieQueues (s : State) (k : Nat) : State :=
  { s with pc := { s.pc with queueCount := sclear (fun i => i / 4 / 524288 == k) s.pc.queueCount } }

/-- R295: what running epochs had charged to the result pool of switch die `k` goes with its buffer. -/
def State.loseCharges (s : State) (k : Nat) : State :=
  { s with re := { s.re with slots := s.re.slots.map (fun kv => (kv.1, { kv.2 with run := kv.2.run.map (fun e => { e with charge := e.charge.set k 0 }) })) } }

/-- R617: a switch die: frames buffered there are lost, its caches hold nothing, a retrain under way goes back to the front of
its queue, and the queue counters start from zero (log 74). What HBM holds stays. -/
def State.clearSwitchDie (s : State) (k : Nat) : State :=
  (((((((s.flushDiePorts k).loseDieWaiting k).loseCharges k).clearDieLines k).countCombining k).requeueRetrains k).zeroDieQueues k).dieRegs (4 + k)

/-- The armed groups whose legs run on a reduction die. -/
def State.groupsOn (s : State) (k : Nat) : List Nat :=
  (s.cl.groups.filter (fun kv => kv.2.armed.isSome && !grNoLegs kv.2.record && grManifest kv.2.record / 64 == k)).map (fun kv => kv.1)

/-- R617: what the landing frames of a group's legs hold is gone: it is to be asked for again, and the moorings count none. -/
def State.emptyLegs (s : State) (i : Nat) : State :=
  (List.range (grLegs (s.record i))).foldl (fun t l => (t.discardFrames i l 0).discardFrames i l 1) s

/-- R617: contributions arriving into a tile of a reset die are dropped. -/
def State.dropLanding (s : State) (k : Nat) : State :=
  { s with cl := { s.cl with inflight := s.cl.inflight.map (fun kv => match kv.2.place with
    | .frame _ _ t _ => if t / 88 = k then (kv.1, { kv.2 with place := .dropped }) else kv
    | _ => kv) } }

/-- R617: a reduction die: running epochs are void, its tiles and staging area hold nothing, and it starts at variant 3. -/
def State.clearReductionDie (s : State) (k : Nat) : State :=
  let a := ((List.range 64).map (fun j => 64 * k + j)).foldl (fun t j => t.voidEpoch j) s
  let b := (a.groupsOn k).foldl (fun t i => t.emptyLegs i) (a.dropLanding k)
  let re : ReduceSt := { b.re with tiles := sclear (fun t => t / 88 == k) b.re.tiles, areas := sclear (fun x => x / 2 ^ 24 == k) b.re.areas, swept := sdel k b.re.swept }
  let pm : PowerSt := { b.pm with ramping := b.pm.ramping.filter (fun x => x != k), dwell := sdel k b.pm.dwell }
  let c : State := { b with re := re, pm := pm }
  let e := (List.range 88).foldl (fun t j => if t.rd RE_TILE_STATUS_STATE (88 * k + j) = 4 then t else t.wr RE_TILE_STATUS_STATE (88 * k + j) 0) (c.dieRegs (6 + k))
  e.wrs [(MF_DIE_STATUS_VARIANT, k, 3), (MF_DIE_STATUS_CHANGING, k, 0), (PM_RED_STATUS_TARGET, k, 3)]

/-- R106, R617: one die is reset. -/
def State.resetDie (s : State) (d : Nat) : State :=
  if s.fh.diesReset.contains d || s.fh.withdrawn.contains (11 * 65536 + d) then s
  else
    let a := ({ s with fh := { s.fh with diesReset := s.fh.diesReset ++ [d] } } : State).raise { code := 0x0C07, kind := 11, logical := d, die := d }
    let b := ((a.setReplica d 0).leave (.die (Fin.ofNat 9 d))).queueRecovery 11 d d .none
    if d < 4 then b.clearPortDie d else if d < 6 then b.clearSwitchDie (d - 4) else b.clearReductionDie (d - 6)

/-- DIE_RESET (R106, R617). -/
def execDieReset (die : Fin 8) (s : State) : Res := whenLive (fun t => t.resetDie die.val) s

/-! ### A reset die is restored (R491, R617) -/

/-- R491: every MOORING_WAIT is evaluated against the restored COUNT. -/
def State.settleWaits (s : State) : State :=
  (s.hi.descs.filter (fun d => d.started && d.opcode == 0x41)).foldl (fun t d =>
    let c := (t.mooring (d.u32 24)).count
    if d.u64 32 ≤ c then t.complete d .success c 0 else t) s

/-- R430, R491: a landing mooring is set again: it counts what its half's frames hold. -/
def State.resetHalf (s : State) (i l h : Nat) : State := (s.recountHalf i l h).settleHalf i l h

/-- R506: a copy in the device area of switch die `k` is read uncorrectably: it is recorded. -/
def State.areaLost (s : State) (k kind logical : Nat) : State :=
  ((s.setErr MS_ERR_UNCORRECTABLE k).addWrap MS_ECC_COUNT_UNCORRECTABLE k 1).raise { code := 0x0803, kind := kind, logical := logical, die := 4 + k }

/-- R491, R506, R617: a switch die: its moorings come from the newest checkpoint that can be read, `bad` of them cannot, landing
moorings are set again, waits are looked at. With neither every mooring is zero. -/
def State.restoreSwitchDie (s0 : State) (k bad : Nat) : State :=
  let saves := sget [] s0.ms.checkpoints k
  let s := (List.range (min bad saves.length)).foldl (fun t _ => t.areaLost k 11 (4 + k)) s0
  let saved := (saves.drop bad).headD []
  let a : State := { s with ms := { s.ms with moorings := saved.foldl (fun l kv => sput kv.1 kv.2 l) s.ms.moorings } }
  let armed := (a.cl.groups.filter (fun kv => kv.2.armed.isSome && !grNoLegs kv.2.record && grMooring kv.2.record / 32768 == k)).map (fun kv => kv.1)
  let b := armed.foldl (fun t i => (List.range (grLegs (t.record i))).foldl (fun u l => (u.resetHalf i l 0).resetHalf i l 1) t) a
  b.settleWaits

/-- R448, R617: a group on a reduction die: what its frames had held is asked for again, and operations whose record was produced
and that are not acknowledged run again. -/
def State.restoreGroup (s : State) (i : Nat) : State :=
  let a := (List.range (grLegs (s.record i))).foldl (fun t l => (((t.settleHalf i l 0).settleHalf i l 1).askOwed i l 0).askOwed i l 1) s
  let again : List Nat := match a.armed i with
    | some x => (x.ops.filter (fun o => o.produced && !o.acked && !o.rerun)).map (fun o => o.seq)
    | none => []
  (again.foldl (fun t q => t.startRerun i q) a).advance i

/-- R366, R506, R617: a slot of a reduction die is restored from its copy, whose digest is checked, and its streams are loaded
again. One whose copy cannot be read or does not have the digest becomes EMPTY. -/
def State.restoreSlot (s0 : State) (k : Nat) (bad : Bool) : State :=
  let x := s0.mslot k
  let s := if bad && s0.slotState k != 0 then s0.areaLost (k / 64) 14 k else s0
  if s.slotState k = 0 then s
  else if bad ∨ sm3 x.copy ≠ s.getBytes MF_SLOT_DIGEST (8 * k) 4 then
    (if 2 ≤ s.slotState k then s.wr MF_DIE_STATUS_ACTIVE (k / 64) (s.rd MF_DIE_STATUS_ACTIVE (k / 64) - 1) else s).emptySlot k
  else
    let t := s.modMslot k (fun y => { y with image := y.copy })
    if 2 ≤ s.slotState k then t.loadPrograms x.copy else t

/-- R366: every slot of reduction die `k` is restored. DESIGN CHOICE (log 99): its copies lie in switch die `k`. -/
def State.restoreSlots (s : State) (k : Nat) (copies : List Nat) : State :=
  (List.range 64).foldl (fun t n => t.restoreSlot (64 * k + n) (copies.contains n)) s

/-- R506, R617: the die is restored; its functions then rise one by one. `copies` are the slots whose copies, and `checkpoints` how
many of the newest checkpoints, are read uncorrectably. -/
def dieResetDone (d : Nat) (copies : List Nat) (checkpoints : Nat) (s : State) : State :=
  if s.fh.diesReset.contains d then
    let t : State := { s with fh := { s.fh with diesReset := s.fh.diesReset.filter (fun x => x != d) } }
    if d < 4 then t else if d < 6 then (t.restoreSwitchDie (d - 4) checkpoints).resteerBridge else
      let u := t.restoreSlots (d - 6) copies
      (u.groupsOn (d - 6)).foldl (fun v i => v.restoreGroup i) u
  else s

/-- DIE_RESET_DONE (R617). -/
def execDieResetDone (die : Fin 8) (copies : List (Fin 64)) (checkpoints : Fin 3) (s : State) : Res :=
  whenLive (dieResetDone die.val (copies.map (fun k => k.val)) checkpoints.val) s

end Sys2Proof.Machine
end

