-- ==== Sys2Proof/Machine/Ready.lean ====
section
/-! DEFINITION. Functions become ready and leave service (R121 to R129). -/

namespace Sys2Proof.Machine

/-- R124: the functions that a function needs. -/
def needs : Fn → List (Nat × Nat)
  | .die d => if d.val = 8 then [] else [(0, 8)]
  | .pilot => []
  | .pipe p => [(0, p.val / 2), (0, 15)]
  | .hbm h => [(0, 4 + h.val / 6), (0, 15)]
  | .time _ => [(0, 8)]
  | .engine e => [(0, 54 + e.val / 4)]
  | .laser _ => [(0, 15)]
  | .port n => [(0, 16 + n.val / 128), (0, 4 + n.val / 512), (0, 38 + n.val / 64)]
  | .tile t => [(0, 6 + t.val / 88), (0, 15)]

/-- A die may become ready: it is not under reset and not withdrawn. -/
def State.dieMay (s : State) (d : Nat) : Bool := !s.fh.diesReset.contains d && !s.fh.withdrawn.contains (11 * 65536 + d)

/-- R502, R503, R614: a stack may become ready: it is not in TEST, has not left service, and has lost one pseudo-channel at most. -/
def State.hbmMay (s : State) (h : Nat) : Bool :=
  !s.flag MS_HBM_CTL_TEST h && s.rd MS_HBM_STATUS_STATE h != 3 && decide ((s.fh.channelsErased.filter (fun c => c / 64 == h)).length ≤ 1)

/-- R124, R525: every ring of an engine that is in use is locked. -/
def State.ringsLocked (s : State) (e : Nat) : Bool :=
  (List.range 576).all (fun r => !s.ringUsed (16 * e + r / 36) (r % 36 / 9) (r % 9) || (s.ringSt (576 * e + r)).locked)

/-- R124, R536: the active laser of a position is lit and its power lies within 0.1 dB of SET_POWER. -/
def State.atSetPower (s : State) (m k : Nat) : Bool :=
  (s.laserPos m k).driven (s.activeLaser m k) != 0 &&
  decide ((sext 16 (s.rd OC_LASER_STATUS_POWER (32 * m + k)) - sext 16 (s.rd OC_LASER_CFG_SET_POWER m)).natAbs ≤ 10)

/-- R124: a laser module may become ready: it is lit, its output is closed, and every position that has not failed (log 148) is at
set power. -/
def State.laserMay (s : State) (m : Nat) : Bool :=
  s.flag OC_LASER_CFG_ENABLE m && !s.flag OC_LASER_MODULE_STATUS_INTERLOCK m &&
  (List.range 9).any (fun k => s.laserState m k != 3) && (List.range 9).all (fun k => s.laserState m k == 3 || s.atSetPower m k)

/-- R24, R124: no bridge at a die retrains. -/
def State.bridgesTrained (s : State) (d : Nat) : Bool :=
  (List.range 9).all (fun b => !((bridgeEnds b).1 == d || (bridgeEnds b).2 == d) || !(s.bridge b).retraining)

/-- R124: the part of a function's condition that the model holds; that the rest holds is what the command says. -/
def State.functionMay (s : State) : Fn → Bool
  | .die d => s.dieMay d.val && s.bridgesTrained d.val
  | .pilot => s.fwState == fwRunning
  | .pipe _ => true
  | .hbm h => s.hbmMay h.val
  | .time d => if d.val = 0 && !s.tb.dom0.running then s.flag TB_DOM_CTL_ENABLE 0 else s.domainMay d.val
  | .engine e => s.ringsLocked e.val
  | .laser m => s.laserMay m.val
  | .port n => s.portEnabled n.val && s.link n.val == 3 && s.identityOk n.val && !s.fh.portsHeld.contains n.val
  | .tile t => !s.fh.withdrawn.contains (4 * 65536 + t.val) && (s.recoveryOf 4 t.val).isNone

/-- R121, R124: what becoming ready leaves in the state beside the bit. -/
def State.functionRises (s : State) : Fn → State
  | .die d =>
    if d.val = 8 then State.rise (if s.rd EV_LOG_COUNT_COUNT 0 = 0 then startRecords s else s) (.die d)
    else (s.alignReplica d.val).rise (.die d)
  | .pilot => s.rise .pilot
  | .pipe p => s.rise (.pipe p)
  | .hbm h => ((s.wr MS_HBM_STATUS_STATE h.val 1).modStack h.val (fun x => { x with temp := s.rd MS_HBM_STATUS_TEMP h.val, temps := [] })).rise (.hbm h)
  | .time d =>
    if d.val = 0 && !s.tb.dom0.running then
      State.domainRises (State.wr { s with tb := { s.tb with dom0 := { s.tb.dom0 with running := true } } } TB_STATUS_TCLK_PRESENT 0 1) 0
    else s.domainRises d.val
  | .engine e => (s.wr OC_ENGINE_STATUS_STATE e.val 2).rise (.engine e)
  | .laser m =>
    let t := (s.wr OC_LASER_MODULE_STATUS_STATE m.val 2).rise (.laser m)
    (List.range 4).foldl (fun u k => u.startLocking (4 * m.val + k)) t
  | .port n => s.rise (.port n)
  | .tile t =>
    let a := State.wr (if s.re.swept.any (fun kv => kv.1 == t.val / 88) then s
      else { s with re := { s.re with swept := sput (t.val / 88) s.now s.re.swept } }) RE_TILE_MAP_VALID t.val 1
    (a.rise (.tile t)).showTile t.val

/-- R121, R124: a function becomes ready. Before CORE_REFCLK comes nothing starts (R639). -/
def functionReady (f : Fn) (s : State) : State :=
  if !s.bt.coreRefLost && !s.ready f && (needs f).all s.readyAt && s.functionMay f then s.functionRises f else s

/-- FUNCTION_READY (R124). -/
def execFunctionReady (fn : Fn) (s : State) : Res := whenLive (functionReady fn) s

/-- R128: a function leaves service, and with it what needs it: with the control die the time domains (R292). -/
def functionLeaves (f : Fn) (s : State) : State :=
  match f with
  | .time d => s.domainFalls d.val
  | .die d => (if d.val = 8 then (s.domainFalls 0).domainFalls 1 else s).leave f
  | _ => s.leave f

/-- FUNCTION_LEAVES_SERVICE (R128). -/
def execFunctionLeavesService (fn : Fn) (s : State) : Res := whenLive (functionLeaves fn) s

end Sys2Proof.Machine
end

