-- ==== Sys2Proof/Machine/Trigger.lean ====
section
/-! DEFINITION. Trigger outputs, PPS and captures (R574 to R579, R582). -/

namespace Sys2Proof.Machine

/-! ### Trigger outputs (R574 to R576) -/

/-- LEAD_NS of an output. -/
def State.lead (s : State) (k : Nat) : Int := sext 32 (s.rd TB_TRIG_PERIOD_LEAD_NS k)

/-- R574: a pulse of `width` from `start` and every `period` after it, at time `t`. -/
def inPulse (t start : Int) (period width : Nat) : Bool :=
  decide (start ≤ t) && decide ((t - start) % ((max 1 period : Nat) : Int) < (width : Int))

/-- R574, R575: PERIODIC. -/
def State.periodicLevel (s : State) (k : Nat) : Bool :=
  let d := s.rd TB_TRIG_CFG_DOMAIN k
  let start : Int := (s.rd TB_TRIG_START_S_SECONDS k * 1000000000 + s.rd TB_TRIG_START_NS_NS k : Nat)
  s.timeReady d && inPulse (s.dom d).total (start + s.lead k) (s.rd TB_TRIG_PERIOD_PERIOD_NS k) (s.rd TB_TRIG_CFG_WIDTH_NS k)

/-- R574, R575: EPOCH_NOMINAL. -/
def State.nominalLevel (s : State) (k : Nat) : Bool :=
  let slot := s.rd TB_TRIG_CFG_SELECT k
  let m := (s.mslot slot).image
  let d := mfDomain m
  s.slotState slot == 2 && mfTrigger m != 1 && s.timeReady d &&
    inPulse (s.dom d).total ((mfPhase m : Int) + s.lead k) (mfPeriod m) (s.rd TB_TRIG_CFG_WIDTH_NS k)

/-- R289, R290: the start of a schedule's operational cycle that covers time `t`, before its change time: the last one before the
change is extended to it where the next would begin less than EXT_NS before it. -/
def State.operCycleAt (s : State) (n t : Nat) : Nat :=
  let g := s.gate n
  let start := cycleBegan g.cycleStart g.operCycle t
  if s.flag TQ_GATE_STATUS_PENDING n then min start (cycleBegan g.cycleStart g.operCycle (max g.cycleStart (s.gateChange n - g.operExt))) else start

/-- R574, R575, R291: GATE: the states of a schedule at the instant `LEAD_NS` from now. -/
def State.gateLevel (s : State) (k : Nat) : Bool :=
  let n := s.rd TB_TRIG_CFG_SELECT k
  let c := s.rd TB_TRIG_CFG_CLASS k
  let g := s.gate n
  if !s.flag TQ_GATE_STATUS_OPER_VALID n || !s.timeReady g.domain then true
  else
    let t := (((s.dom g.domain).total : Int) + s.lead k).toNat
    let late := s.flag TQ_GATE_STATUS_PENDING n && decide (s.gateChange n ≤ t)
    let list := if late then g.pending else g.oper
    let start := if late then cycleBegan (s.gateChange n) g.pendingCycle t else s.operCycleAt n t
    ((list.getD (entryAt list (t - start)) (0, 0)).1).testBit c

/-- R574: the level that a mode gives an output now, before INVERT; none where either may hold: EPOCH_START follows an epoch's
start within 320 ns. -/
def State.scheduledLevel (s : State) (k : Nat) : Option Bool :=
  match s.rd TB_TRIG_CFG_MODE k with
  | 1 => some (s.periodicLevel k)
  | 2 => some (s.nominalLevel k)
  | 3 =>
    match (s.mslot (s.rd TB_TRIG_CFG_SELECT k)).startedAt with
    | some t0 => if s.now < t0 + 320 + s.rd TB_TRIG_CFG_WIDTH_NS k then none else some false
    | none => some false
  | 4 => some (s.gateLevel k)
  | 5 => some ((List.range 16).any (fun i => s.calW (16 * (s.rd TB_TRIG_CFG_SELECT k % 16) + i) != 15))
  | 6 => some (s.flag TB_TRIG_CFG_LEVEL k)
  | _ => some false

/-- An output's pin takes a level. -/
def State.drivePin (s : State) (k : Nat) (level : Bool) : State :=
  if s.tb.trig.testBit k = level then s else State.emit { s with tb := { s.tb with trig := s.tb.trig ^^^ 2 ^ k } } (.pin (.trigOut k) level)

/-- TRIGGER_OUTPUT_CHANGE (R574, R575): an output comes to the level its mode gives it, INVERT applied. -/
def triggerOutput (k : Nat) (level : Bool) (s : State) : State :=
  let ok := match s.scheduledLevel k with
    | some v => v == level
    | none => true
  if ok then s.drivePin k (level != s.flag TB_TRIG_CFG_INVERT k) else s

/-- TRIGGER_OUTPUT_CHANGE (R574). -/
def execTriggerOutputChange (output : Fin 8) (level : Bool) (s : State) : Res := whenLive (triggerOutput output.val level) s

/-- R575, R576, R580, R582: the settings of an output are within their ranges. DESIGN CHOICE (log 59): MODE 7 and a START_NS or LEAD_NS
outside its range are refused as R576's cases are. -/
def State.triggerOk (s : State) (k : Nat) : Bool :=
  let mode := s.rd TB_TRIG_CFG_MODE k
  let width := s.rd TB_TRIG_CFG_WIDTH_NS k
  let period := s.rd TB_TRIG_PERIOD_PERIOD_NS k
  let sel := s.rd TB_TRIG_CFG_SELECT k
  decide (4 ≤ width ∧ 100 ≤ period ∧ period ≤ 1000000000 ∧ mode ≤ 6 ∧ s.rd TB_TRIG_START_NS_NS k < 1000000000) &&
  decide ((s.lead k).natAbs ≤ 1000000) && (mode != 1 || decide (width < period)) &&
  (match mode with
   | 2 | 3 | 4 => decide (sel < 128)
   | 5 => decide (sel < 16)
   | _ => true)

/-- The registers of an output, in the order of their offsets. -/
def triggerReg : Nat → Reg
  | 0 => TB_TRIG_CFG
  | 1 => TB_TRIG_START_S
  | 2 => TB_TRIG_START_NS
  | _ => TB_TRIG_PERIOD

/-- R576: a write of an output's register: the output first goes low, or high under INVERT. -/
def triggerWrite (k r : Nat) (v : Word) (s : State) : State :=
  let t := s.plainWrite (triggerReg r) k v
  if t.triggerOk k then t.drivePin k (t.flag TB_TRIG_CFG_INVERT k) else s.tbRefuse

/-- TRIGGER_CONFIG_WRITE (R576). -/
def execTriggerConfigWrite (output : Fin 8) (register : Fin 4) (value : Word) (s : State) : Res :=
  whenBar (triggerWrite output.val register.val value) s

/-! ### PPS (R577) -/

/-- R577: the level PPS_OUT has now. -/
def State.ppsLevel (s : State) : Bool :=
  let d := s.rd TB_PPS_CFG_DOMAIN 0
  s.flag TB_PPS_CFG_ENABLE 0 && s.timeReady d &&
    decide ((((s.dom d).total : Int) - sext 30 (s.rd TB_PPS_CFG_LEAD_NS 0)) % 1000000000 < (s.rd TB_PPS_CFG_WIDTH_NS 0 : Int))

/-- PPS_OUTPUT_PULSE (R577): PPS_OUT comes to its level. -/
def ppsPulse (level : Bool) (s : State) : State :=
  if s.ppsLevel = level ∧ s.tb.pps ≠ level then State.emit { s with tb := { s.tb with pps := level } } (.pin .ppsOut level) else s

/-- PPS_OUTPUT_PULSE (R577). -/
def execPpsOutputPulse (level : Bool) (s : State) : Res := whenLive (ppsPulse level) s

/-- R582: a write of TB_PPS_CFG. DESIGN CHOICE (log 59): a field outside its range refuses the write. -/
def ppsCfgWrite (v : Word) (s : State) : State :=
  let w := TB_PPS_CFG_WIDTH_NS.of v
  if w < 100 ∨ 500000000 < w ∨ 100000 < (sext 30 (TB_PPS_CFG_LEAD_NS.of v)).natAbs then s.tbRefuse else s.plainWrite TB_PPS_CFG 0 v

/-! ### Captures (R578, R579) -/

/-- The captures that wait on an input. -/
def State.captures (s : State) (i : Nat) : List Capture := sget [] s.tb.captures i

/-- R578: the entry of an edge. DESIGN CHOICE (log 70): the time of an edge is that of the command. -/
def State.captureOf (s : State) (i : Nat) (rising : Bool) : Capture :=
  let r0 := s.timeReady 0
  let r1 := s.timeReady 1
  ⟨rising, s.tb.lostEdge.contains i, r0, r1, if r0 then s.tb.dom0.sec else 0, if r0 then s.tb.dom0.ns else 0,
   if r1 then s.tb.dom1.sec else 0, if r1 then s.tb.dom1.ns else 0⟩

/-- R578: an edge on a capture input; one that finds the FIFO full is lost. -/
def captureEdge (i : Nat) (rising : Bool) (s : State) : State :=
  if s.flag TB_CAP_CTL_ENABLE i && (s.rd TB_CAP_CTL_EDGE i).testBit (bit (!rising)) then
    if (s.captures i).length < 16 then
      { s with tb := { s.tb with captures := sput i (s.captures i ++ [s.captureOf i rising]) s.tb.captures,
                                 lostEdge := s.tb.lostEdge.filter (fun j => j != i) } }
    else State.setErr { s with tb := { s.tb with lostEdge := i :: s.tb.lostEdge.filter (fun j => j != i) } } TB_ERR_CAP_OVERFLOW 0
  else s

/-- CAPTURE_EDGE (R578). -/
def execCaptureEdge (input : Fin 5) (rising : Bool) (s : State) : Res := whenLive (captureEdge input.val rising) s

/-- R579, R582: a write of TB_CAP_CTL; POP removes the oldest entry. DESIGN CHOICE (log 59): EDGE 0 refuses the write. -/
def capCtl (i : Nat) (v : Word) (s : State) : State :=
  if TB_CAP_CTL_EDGE.of v = 0 then s.tbRefuse
  else
    let t := s.plainWrite TB_CAP_CTL i v
    if TB_CAP_CTL_POP.isSet v then { t with tb := { t.tb with captures := sset [] i ((t.captures i).drop 1) t.tb.captures } } else t

/-- CAPTURE_POP (R579). -/
def execCapturePop (input : Fin 5) (value : Word) (s : State) : Res := whenBar (capCtl input.val value) s

end Sys2Proof.Machine
end

