-- ==== Sys2Proof/Machine/RegWrite.lean ====
section
/-! DEFINITION. Writes and reads of BAR0 registers (R15 to R17, R46, R54): what a write of each register does, the
fields that a read computes, the companion counts, and the descriptors REG_READ and REG_WRITE (R76, R78). -/

namespace Sys2Proof.Machine

/-! ### Registers with checks of their own and no row -/

/-- R408: a PERIOD_MS outside its range discards the write. -/
def sentinelCfgWrite (v : Word) (s : State) : State :=
  let p := MF_SENTINEL_CFG_PERIOD_MS.of v
  if p < 10 ∨ 86400000 < p then s else s.plainWrite MF_SENTINEL_CFG 0 v

/-- R460: a write of CL_CFG with a field outside its range is discarded and raises an event. -/
def clCfgWrite (v : Word) (s : State) : State :=
  if CL_CFG_REPLAY_AFTER_US.of v < 10 ∨ CL_CFG_REPLAY_LIMIT.of v < 1 ∨ CL_CFG_RESEND_US.of v < 10 ∨ CL_CFG_DRAIN_RATE.of v < 1 then
    s.refuseWrite (CL_CFG.offset 0) v.toNat
  else s.plainWrite CL_CFG 0 v

/-- R482: words 0 and 1 of a hint range; word 1 holds VALID and is checked. -/
def hintWordWrite (i : Nat) (v : Word) (s : State) : State :=
  if i % 2 = 1 then hintWrite (i / 32) (i % 32 / 2) v s else s.plainWrite MS_HINT_RANGE i (hintKept 0 v)

/-- PRESUMED (log 2): a vector that pends is sent when its mask is cleared. -/
def msixCtlWrite (i : Nat) (v : Word) (s : State) : State :=
  let t := s.plainWrite HI_MSIX_CTL i v
  let bits := t.rd HI_MSIX_PBA_PENDING (i / 64)
  if !t.flag HI_MSIX_CTL_MASK i && bits.testBit (i % 64) then
    (t.wr HI_MSIX_PBA_PENDING (i / 64) (bits ^^^ 2 ^ (i % 64))).sendVector i
  else t

/-- R172, R181: a write of a register that bears on the reservations, after which classes may have room for XON. -/
def accountWrite (r : Reg) (i : Nat) (v : Word) (s : State) : State := (reserveWrite r i v s).settleAllPfc

/-- R179, R181: a write of PC_CLASS_MODE, after which classes may have room for XON. -/
def classModeWrite (n : Nat) (v : Word) (s : State) : State := (s.plainWrite PC_CLASS_MODE n v).settleAllPfc

/-- R257, R263: ORIGIN_MODE has the codes of SPRAY_MODE, of which 3 is reserved and its write discarded. -/
def sprayEnvWrite (i : Nat) (v : Word) (s : State) : State :=
  if FT_SPRAY_ENV_ORIGIN_MODE.of v = 3 then s else s.plainWrite FT_SPRAY_ENV i v

/-! ### What a write of each register does (R15) -/

/-- The effect of a write on an element of a register. -/
abbrev Effect : Type := Nat → Word → State → State

/-- Host interface and start-up registers whose write does more than its access codes say. -/
def hostEffects : List (Reg × Effect) :=
  [(HI_GW_TARGET, gangwayTarget), (HI_GW_BASE, gangwayRange HI_GW_BASE), (HI_GW_LIMIT, gangwayRange HI_GW_LIMIT),
   (HI_RING_CFG, ringCfgWrite), (HI_MSIX_CTL, msixCtlWrite), (BT_RESET, fun _ => btReset), (BT_FW_CTL, fun _ => fwCtl),
   (EV_QUOTE_CTL, fun _ => quoteCtl), (EV_PORT_POLICY, policyWrite)]

/-- Packet-core and table registers. -/
def packetEffects : List (Reg × Effect) :=
  [(PC_BUF_CFG, accountWrite PC_BUF_CFG), (PC_SLIP_CFG, slipCfgWrite), (PC_SLIP_BASE, slipRegion PC_SLIP_BASE),
   (PC_SLIP_SIZE, slipRegion PC_SLIP_SIZE), (PC_LANE_GROUP, laneGroup), (PC_PORT_CFG, portCfg),
   (PC_CREDIT_CFG, accountWrite PC_CREDIT_CFG), (PC_ING_ACCT, accountWrite PC_ING_ACCT), (PC_CLASS_MODE, classModeWrite), (FT_AGE_CFG, fun _ => ageCfg),
   (FT_LPM_CFG, fun _ => lpmCfg), (FT_PIPE_CTL, pipeCtl), (FT_HASH_SEED_LO, seedWrite FT_HASH_SEED_LO),
   (FT_HASH_SEED_HI, seedWrite FT_HASH_SEED_HI), (FT_LEARN_CFG, fun _ => learnCfg), (FT_LEARN_CONS, fun _ => learnCons),
   (FT_GROUP_CFG, groupCfg), (FT_SPRAY_ENV, sprayEnvWrite)]

/-- Queue and meter registers. -/
def queueEffects : List (Reg × Effect) :=
  [(TQ_QLAYOUT, qlayoutWrite), (TQ_PORT_SCHED, portSchedWrite), (TQ_CLASS_SCHED, classSchedWrite),
   (TQ_METER_PROFILE, profileWrite), (TQ_METER_MAP, meterMap), (TQ_METER_CFG, fun m v => meterCfg m (v.toNat % 2 ^ 32)),
   (TQ_GATE_CTL, gateCtl)]

/-- Manifest, collective and memory registers. -/
def reduceEffects : List (Reg × Effect) :=
  [(MF_SENTINEL_CFG, fun _ => sentinelCfgWrite), (MF_LS_CFG, fun _ => lsCfgWrite), (CL_CFG, fun _ => clCfgWrite),
   (MS_CACHE_CFG, cacheCfgWrite), (MS_HINT_RANGE, hintWordWrite), (MS_HBM_CTL, hbmCtl), (MS_HBM_TEST_CMD, testCmd),
   (MS_FLOW_CFG, flowCfgWrite)]

/-- Optical, time, power and fault registers. -/
def controlEffects : List (Reg × Effect) :=
  [(OC_CAL_CFG, fun _ => calCfgWrite), (OC_FORD_CFG, fun _ => fordCfgWrite), (OC_FORD_CMD, fun _ => fordCmd),
   (OC_ENGINE_ENV, engineEnvWrite), (OC_FF_CFG, ffCfgWrite), (OC_LASER_CFG, laserCfgWrite), (OC_FIBRE_MAP, fibreMapWrite),
   (TB_CFG, fun _ => tbCfgWrite), (TB_SNAP_CTL, fun _ => snapCtl), (TB_DOM_CTL, domCtl), (TB_DOM_INCR, incrWrite),
   (TB_DOM_ADJ, adjWrite), (TB_TC_CFG, fun _ => tcCfgWrite), (TB_PPS_CFG, fun _ => ppsCfgWrite),
   (TB_TRIG_CFG, fun k => triggerWrite k 0), (TB_TRIG_START_S, fun k => triggerWrite k 1),
   (TB_TRIG_START_NS, fun k => triggerWrite k 2), (TB_TRIG_PERIOD, fun k => triggerWrite k 3), (TB_CAP_CTL, capCtl),
   (PM_PKG_CFG, fun _ => pkgCfgWrite), (PM_RED_ENV, redEnvWrite), (FH_CFG, fun _ => fhCfgWrite), (FH_LOG_ACK, fun _ => logAck),
   (FH_RETIRE_REQ, fun _ => retireRequest)]

/-- Every register whose write does more than its access codes say. -/
def effects : List (Reg × Effect) := hostEffects ++ packetEffects ++ queueEffects ++ reduceEffects ++ controlEffects

/-- A write of element `i` of a register: its own effect, or that of its access codes (R15). -/
def regWrite (r : Reg) (i : Nat) (v : Word) (s : State) : State :=
  match effects.find? (fun e => e.1.base == r.base) with
  | some e => e.2 i v s
  | none => s.plainWrite r i v

/-- R104: the W1C register whose companion count stands at an offset. -/
def companionTarget (off : Nat) : Option Nat :=
  if off % 0x100000 < 0x80000 then none
  else match registerAt (off - 0x80000) with
    | some (r, _) => if r.w1c = 0 then none else some (off - 0x80000)
    | none => none

/-- R15, R17, R46: a 64-bit write at a BAR0 offset. Registers of 32 bits take a half each; a companion count takes none. -/
def barWrite (off : Nat) (v : Word) (s : State) : State :=
  match registerAt off with
  | some (r, i) =>
    s.onReadyDie off v (fun t => if r.stride = 4 then regWrite r (i + 1) (v >>> 32) (regWrite r i v t) else regWrite r i v t)
  | none => match companionTarget off with
    | some o => if s.atReach o then s else s.discardWrite off (dieOf o) v
    | none => s

/-- The last offset of BAR0 is below this (R53). -/
def bar0Size : Nat := 0x4000000

/-- REGISTER_WRITE (R15): accesses are of 64 bits (R41); one at an offset that is no multiple of 8 finds no register (R17). -/
def execRegisterWrite (offset : Nat) (value : Word) (s : State) : Res :=
  if bar0Size ≤ offset then .fault (.outsideBar offset)
  else whenBar (fun t => if offset % 8 = 0 then barWrite offset value t else t) s

/-! ### Reads -/

/-- Seconds between two domain-0 times, saturating at 65,535 (R408). -/
def ageSeconds (now at_ : Nat) : Nat := min 0xFFFF ((now - at_) / 1000000000)

/-- R408: how long ago a physical tile last passed a sentinel at a variant. -/
def State.tileAge (s : State) (d phys v : Nat) : Nat :=
  let own := (s.re.passes.filter (fun kv => kv.1 / 256 == 128 * d + phys && kv.1 % 4 == v)).map (fun kv => kv.2)
  let start := (s.re.swept.filter (fun kv => kv.1 == d)).map (fun kv => kv.2)
  ((own ++ start).map (ageSeconds s.now)).foldl min 0xFFFF

/-- R408: AGE_v of a reduction die, the oldest among its logical tiles. -/
def State.sentinelAge (s : State) (d v : Nat) : Nat :=
  let tiles := ((List.range 88).map (fun k => 88 * d + k)).filter (fun t => s.flag RE_TILE_MAP_VALID t)
  if tiles.isEmpty then 0xFFFF else (tiles.map (fun t => s.tileAge d (s.physicalTile t) v)).foldl max 0

/-- R579: the words that show the oldest capture of an input. -/
def captureWord (w : Nat) : List Capture → Nat
  | [] => 0
  | c :: _ =>
    match w with
    | 0 => bit true * 2 ^ 63 + bit c.rising * 2 ^ 62 + bit c.overflow * 2 ^ 61 + bit c.ready0 * 2 ^ 60 + bit c.ready1 * 2 ^ 59 + c.sec0 % 2 ^ 48
    | 1 => c.ns1 % 2 ^ 32 * 2 ^ 32 + c.ns0 % 2 ^ 32
    | _ => c.sec1 % 2 ^ 48

/-- A field of a word replaced. -/
def Fld.into (f : Fld) (v w : Nat) : Nat := withBits w f.hi f.lo v

/-- The registers whose value follows other state: what a read of element `i` makes of the word that is stored. -/
def shown : List (Reg × (State → Nat → Nat → Nat)) :=
  [(HI_PROT_GEN, fun s _ w => HI_PROT_GEN_OLD_DRAINING.into (bit s.oldDraining) w),
   (PC_BUF_STATUS, fun s d w => PC_BUF_STATUS_SHARED.into (s.sharedPool d) (PC_BUF_STATUS_SRAM_FREE.into (s.sramFree d) w)),
   (PC_BUF_RES, fun s _ w => PC_BUF_RES_RESV.into s.resv w),
   (PC_SLIP_STATUS, fun s d w => PC_SLIP_STATUS_FULL.into (bit (s.slipFull d))
     (PC_SLIP_STATUS_PAGES_USED.into (s.pagesUsed d) (PC_SLIP_STATUS_QUEUES_RESIDENT.into (s.queuesResident d) w))),
   (FT_GROUP_CFG, fun s g w => FT_GROUP_CFG_LIVE.into (s.liveMembers g).length w),
   (MF_SENTINEL_AGE, fun s d _ => s.sentinelAge d 0 + 2 ^ 16 * s.sentinelAge d 1 + 2 ^ 32 * s.sentinelAge d 2 + 2 ^ 48 * s.sentinelAge d 3),
   (MF_LS_STATUS, fun s _ w => MF_LS_STATUS_STATE.into s.lockState w),
   (TB_STATUS, fun s _ w => TB_STATUS_READY.into (bit (s.timeReady 0) + 2 * bit (s.timeReady 1)) w),
   (TB_DOM_ADJ, fun s d w => TB_DOM_ADJ_REMAINING.into ((((s.dom d).remaining.tdiv 4294967296) % 4294967296).toNat) w),
   (TB_CAP_W0, fun s i _ => captureWord 0 (s.captures i)), (TB_CAP_W1, fun s i _ => captureWord 1 (s.captures i)),
   (TB_CAP_W2, fun s i _ => captureWord 2 (s.captures i))]

/-- R15: what a read of element `i` of a register returns. -/
def State.regValue (s : State) (r : Reg) (i : Nat) : Word :=
  let w := s.word (r.offset i)
  match shown.find? (fun e => e.1.base == r.base) with
  | some e => BitVec.ofNat 64 (e.2 s i w.toNat)
  | none => w

/-- R15, R17, R46, R91, R105: a 64-bit read at a BAR0 offset, with what it does. -/
def State.barRead (s : State) (off : Nat) : Word × State :=
  match registerAt off with
  | some (r, i) =>
    if !s.atReach off then (0, s)
    else if r.stride = 4 then ((s.regValue r (i + 1) <<< 32) ||| s.regValue r i, s)
    else if r.base = HI_GW_STATUS.base then ((s.flushWindow i).regValue r i, s.flushWindow i)
    else (s.regValue r i, s)
  | none => match companionTarget off with
    | some o => if s.atReach o then s.readCompanion o else (0, s)
    | none => (0, s)

/-- R105: a read of a companion count, or of a register, is answered, once no bridge on the way to its die retrains (R24). -/
def State.countRead (s : State) (off : Nat) : State :=
  s.acrossTo (dieOf ((companionTarget off).getD off)) (.count off) (fun t => (t.barRead off).2.emit (.readAnswer (natLe 8 (t.barRead off).1.toNat)))

/-- COMPANION_COUNT_READ (R105): the count is returned and cleared. -/
def execCompanionCountRead (offset : Nat) (s : State) : Res :=
  if bar0Size ≤ offset then .fault (.outsideBar offset)
  else whenBar (fun t => if offset % 8 = 0 then t.countRead offset else t.emit (.readAnswer (zeros 8))) s

/-! ### REG_READ and REG_WRITE (R76, R78, R81) -/

/-- R17: the bytes that reads of `n` registers from an offset on return, in address order. -/
def State.readRegs (s : State) (off : Nat) : Nat → List Byte × State
  | 0 => ([], s)
  | n + 1 =>
    let (w, t) := s.barRead off
    let (bs, u) := t.readRegs (off + 8) n
    (natLe 8 w.toNat ++ bs, u)

/-- R78: registers from an offset on are written in address order. -/
def writeRegs (off : Nat) (ws : List Nat) (s : State) : State :=
  ws.zipIdx.foldl (fun t x => barWrite (off + 8 * x.2) (BitVec.ofNat 64 x.1) t) s

/-- A descriptor completes unless what it did has removed it (a warm reset). -/
def State.completeIfHeld (s : State) (d : Desc) (result : Nat) : State :=
  if s.hi.descs.any (fun e => e.id == d.id) then s.complete d .success result 0 else s

/-- REG_READ (R76): `written` says that host memory took the bytes. -/
def execRegRead (ring : Fin 4096) (written : Bool) (s : State) : Res :=
  runOpcode ring.val 0x01 false (fun d t =>
    let (bs, u) := t.readRegs (d.u32 24) (d.u16 28)
    if written then (u.descWrite d d.hostAddr bs).complete d .success d.length 0 else u.complete d .hostAccessError 0 0) s

/-- REG_WRITE (R76, R78): it writes with the ring's level, P0 where a register has RWL fields. -/
def execRegWrite (ring : Fin 4096) (data : HostData) (s : State) : Res :=
  runOpcode ring.val 0x02 true (fun d t => match hostBytes d data with
    | none => t.complete d .hostAccessError 0 0
    | some bs => (writeRegs (d.u32 24) ((List.range (d.u16 28)).map (fun k => le bs (8 * k) 8)) t).completeIfHeld d d.length) s

end Sys2Proof.Machine
end

