-- ==== Sys2Proof/Machine/Bridges.lean ====
section
/-! DEFINITION. Bridge replays and retrains, and what crosses once a bridge is trained (R23, R24, R616). -/

namespace Sys2Proof.Machine

/-- R616: the die that a bridge's failure resets. -/
def bridgeDie (b : Nat) : Nat := if b < 4 then b else if b = 4 then 5 else if b < 7 then b + 1 else b - 3

/-- R23: a transfer unit is sent again; replays of one unit in a row are counted. -/
def bridgeReplay (b unit_ : Nat) (s : State) : State :=
  let x := s.bridge b
  if x.retraining then s
  else (s.setBridge b { x with unit_ := unit_, replays := if x.unit_ = unit_ then min 8 (x.replays + 1) else 1 }).emit (.bridgeResend b)

/-- BRIDGE_REPLAY (R23). -/
def execBridgeReplay (bridge : Fin 9) (unit : BitVec 16) (s : State) : Res := whenLive (bridgeReplay bridge.val unit.toNat) s

/-- BRIDGE_RETRAIN of the event table. -/
def State.noteRetrain (s : State) (b : Nat) : State := s.raise { code := 0x0C05, kind := 10, logical := b, die := bridgeDie b }

/-- R24: after 8 failed replays of a unit both ends retrain. -/
def bridgeRetrain (b : Nat) (s : State) : State :=
  let x := s.bridge b
  if x.retraining || decide (x.replays < 8) then s
  else (s.setBridge b { x with replays := 0, failures := 0, retraining := true }).noteRetrain b

/-- BRIDGE_RETRAIN (R24). -/
def execBridgeRetrain (bridge : Fin 9) (s : State) : Res := whenLive (bridgeRetrain bridge.val) s

/-- R616: the die behind a bridge that failed for good is withdrawn. -/
def State.withdrawDie (s : State) (d : Nat) : State :=
  let key := 11 * 65536 + d
  let t : State := { s with fh := { s.fh with withdrawn := if s.fh.withdrawn.contains key then s.fh.withdrawn else s.fh.withdrawn ++ [key] } }
  (t.raise { code := 0x0C08, kind := 11, logical := d, die := d }).leave (.die (Fin.ofNat 9 d))

/-- R24: what waited for a bridge crosses it. -/
def Crossing.deliver (s : State) : Crossing → State
  | .write off v => barWrite off v s
  | .count off => s.countRead off
  | .windowWrite k off data => s.windowWrite k off data
  | .windowRead k off n => s.windowRead k off n
  | .windowStatus k => s.windowStatus k

/-- R24: a bridge is done retraining: what it held crosses in its order, and contributions that waited for it are steered. -/
def State.releaseBridge (s : State) (b : Nat) (failed : Bool) : State :=
  let held := (s.bridge b).held
  let t := s.setBridge b { Bridge.reset with unit_ := (s.bridge b).unit_, failed := failed }
  (held.foldl (fun u e => e.2.deliver u) t).resteerBridge

/-- R24, R616: an attempt to retrain ends. After three that failed the die is reset and the bridge retrained once more. -/
def bridgeRetrainDone (b : Nat) (ok : Bool) (s : State) : State :=
  let x := s.bridge b
  if !x.retraining then s
  else if ok then s.releaseBridge b false
  else if x.failed then (s.withdrawDie (bridgeDie b)).releaseBridge b true
  else if x.failures < 2 then (s.setBridge b { x with failures := x.failures + 1 }).noteRetrain b
  else
    let t := (s.setBridge b { x with failures := 0, failed := true }).raise { code := 0x0C06, kind := 10, logical := b, die := bridgeDie b }
    ((t.resetDie (bridgeDie b)).queueRecovery 10 b b .none).noteRetrain b

/-- BRIDGE_RETRAIN_DONE (R616). -/
def execBridgeRetrainDone (bridge : Fin 9) (ok : Bool) (s : State) : Res := whenLive (bridgeRetrainDone bridge.val ok) s

end Sys2Proof.Machine
end

