-- ==== Sys2Proof/Machine/Dispatch.lean ====
section
/-! DEFINITION. The dispatch of a command to its meaning: one arm per constructor, one direct call each. -/

namespace Sys2Proof.Machine

/-- The effect of a command on everything but the queue. -/
def exec (i : Instr) (s : State) : Host.Outcome State Fault Refusal :=
  match i with
  | .nop ring => Sys2Proof.Machine.execNop ring s
  | .regRead ring written => Sys2Proof.Machine.execRegRead ring written s
  | .regWrite ring data => Sys2Proof.Machine.execRegWrite ring data s
  | .dmaToDevice ring data => Sys2Proof.Machine.execDmaToDevice ring data s
  | .dmaFromDevice ring written => Sys2Proof.Machine.execDmaFromDevice ring written s
  | .protUpdate ring data => Sys2Proof.Machine.execProtUpdate ring data s
  | .protCommit ring => Sys2Proof.Machine.execProtCommit ring s
  | .protGenerationBoundary => Sys2Proof.Machine.execProtGenerationBoundary s
  | .partitionSet ring => Sys2Proof.Machine.execPartitionSet ring s
  | .partitionDrain ring => Sys2Proof.Machine.execPartitionDrain ring s
  | .drainContextRelease partition => Sys2Proof.Machine.execDrainContextRelease partition s
  | .drainComplete partition => Sys2Proof.Machine.execDrainComplete partition s
  | .ftInsert ring data => Sys2Proof.Machine.execFtInsert ring data s
  | .ftDelete ring data => Sys2Proof.Machine.execFtDelete ring data s
  | .lpmInsert ring data => Sys2Proof.Machine.execLpmInsert ring data s
  | .lpmDelete ring data => Sys2Proof.Machine.execLpmDelete ring data s
  | .ftShadowCompare ring written met => Sys2Proof.Machine.execFtShadowCompare ring written met s
  | .groupRegister ring data => Sys2Proof.Machine.execGroupRegister ring data s
  | .groupRelease ring => Sys2Proof.Machine.execGroupRelease ring s
  | .contextArm ring => Sys2Proof.Machine.execContextArm ring s
  | .contextDisarm ring => Sys2Proof.Machine.execContextDisarm ring s
  | .collectiveLaunch ring data => Sys2Proof.Machine.execCollectiveLaunch ring data s
  | .resultAck ring => Sys2Proof.Machine.execResultAck ring s
  | .mooringSet ring => Sys2Proof.Machine.execMooringSet ring s
  | .mooringWait ring => Sys2Proof.Machine.execMooringWait ring s
  | .atomicCas ring sram => Sys2Proof.Machine.execAtomicCas ring sram s
  | .atomicAdd ring sram => Sys2Proof.Machine.execAtomicAdd ring sram s
  | .manifestLoad ring data => Sys2Proof.Machine.execManifestLoad ring data s
  | .manifestActivate ring => Sys2Proof.Machine.execManifestActivate ring s
  | .manifestDeactivate ring => Sys2Proof.Machine.execManifestDeactivate ring s
  | .manifestUnload ring => Sys2Proof.Machine.execManifestUnload ring s
  | .counterSnapshot ring written => Sys2Proof.Machine.execCounterSnapshot ring written s
  | .faultLogRead ring written => Sys2Proof.Machine.execFaultLogRead ring written s
  | .sqTail ring value => Sys2Proof.Machine.execSqTail ring value s
  | .cqHead ring value => Sys2Proof.Machine.execCqHead ring value s
  | .descriptorFetch ring data => Sys2Proof.Machine.execDescriptorFetch ring data s
  | .cqModerationTimeout ring => Sys2Proof.Machine.execCqModerationTimeout ring s
  | .ringEnable ring value => Sys2Proof.Machine.execRingEnable ring value s
  | .ringDisable ring value => Sys2Proof.Machine.execRingDisable ring value s
  | .gangwayEnable window value => Sys2Proof.Machine.execGangwayEnable window value s
  | .gangwayClose window value => Sys2Proof.Machine.execGangwayClose window value s
  | .gangwayWrite window offset data => Sys2Proof.Machine.execGangwayWrite window offset data s
  | .gangwayRead window offset length => Sys2Proof.Machine.execGangwayRead window offset length s
  | .gangwayStatusRead window => Sys2Proof.Machine.execGangwayStatusRead window s
  | .gangwayGranuleTimeout window => Sys2Proof.Machine.execGangwayGranuleTimeout window s
  | .powerStateD3hot => Sys2Proof.Machine.execPowerStateD3hot s
  | .powerStateD0 => Sys2Proof.Machine.execPowerStateD0 s
  | .hostPortReset cause => Sys2Proof.Machine.execHostPortReset cause s
  | .configSpaceReady => Sys2Proof.Machine.execConfigSpaceReady s
  | .registerWrite offset value => Sys2Proof.Machine.execRegisterWrite offset value s
  | .companionCountRead offset => Sys2Proof.Machine.execCompanionCountRead offset s
  | .coldReset => Sys2Proof.Machine.execColdReset s
  | .porRelease x4 => Sys2Proof.Machine.execPorRelease x4 s
  | .warmReset value => Sys2Proof.Machine.execWarmReset value s
  | .lockSet value => Sys2Proof.Machine.execLockSet value s
  | .firmwareStart value => Sys2Proof.Machine.execFirmwareStart value s
  | .firmwareAbandon value => Sys2Proof.Machine.execFirmwareAbandon value s
  | .firmwareCheckDone => Sys2Proof.Machine.execFirmwareCheckDone s
  | .functionReady fn => Sys2Proof.Machine.execFunctionReady fn s
  | .functionLeavesService fn => Sys2Proof.Machine.execFunctionLeavesService fn s
  | .quoteStart value => Sys2Proof.Machine.execQuoteStart value s
  | .quoteDone => Sys2Proof.Machine.execQuoteDone s
  | .evbauthIdTimer port => Sys2Proof.Machine.execEvbauthIdTimer port s
  | .evbauthIdReceived port tag payload => Sys2Proof.Machine.execEvbauthIdReceived port tag payload s
  | .evbauthProofReceived port tag payload => Sys2Proof.Machine.execEvbauthProofReceived port tag payload s
  | .evbauthTimeout port => Sys2Proof.Machine.execEvbauthTimeout port s
  | .portEnable port value => Sys2Proof.Machine.execPortEnable port value s
  | .portDisable port value => Sys2Proof.Machine.execPortDisable port value s
  | .laneLayoutWrite group value => Sys2Proof.Machine.execLaneLayoutWrite group value s
  | .linkFecLock port => Sys2Proof.Machine.execLinkFecLock port s
  | .portLinkDown port => Sys2Proof.Machine.execPortLinkDown port s
  | .frameHeaderArrival port tag head => Sys2Proof.Machine.execFrameHeaderArrival port tag head s
  | .frameTailArrival port rest fcs => Sys2Proof.Machine.execFrameTailArrival port rest fcs s
  | .schedulerSelect port => Sys2Proof.Machine.execSchedulerSelect port s
  | .frameDeparted port sram => Sys2Proof.Machine.execFrameDeparted port sram s
  | .pfcFrameReceived port classes quanta => Sys2Proof.Machine.execPfcFrameReceived port classes quanta s
  | .pfcXoffRefresh port cls => Sys2Proof.Machine.execPfcXoffRefresh port cls s
  | .pfcQuantaExpiry port cls => Sys2Proof.Machine.execPfcQuantaExpiry port cls s
  | .pauseReceived port => Sys2Proof.Machine.execPauseReceived port s
  | .linkInitReceived port payload => Sys2Proof.Machine.execLinkInitReceived port payload s
  | .linkInitTimer port => Sys2Proof.Machine.execLinkInitTimer port s
  | .initTimeout port => Sys2Proof.Machine.execInitTimeout port s
  | .linkStatusReceived port payload => Sys2Proof.Machine.execLinkStatusReceived port payload s
  | .linkStatusTimer port => Sys2Proof.Machine.execLinkStatusTimer port s
  | .linkRetryTimeout port => Sys2Proof.Machine.execLinkRetryTimeout port s
  | .markerReceived port tag payload => Sys2Proof.Machine.execMarkerReceived port tag payload s
  | .laneSwap port lane => Sys2Proof.Machine.execLaneSwap port lane s
  | .slipwaySpill die => Sys2Proof.Machine.execSlipwaySpill die s
  | .slipwayPageFetch queue => Sys2Proof.Machine.execSlipwayPageFetch queue s
  | .slipwayFetchDone queue readOk => Sys2Proof.Machine.execSlipwayFetchDone queue readOk s
  | .fenceRelease slot => Sys2Proof.Machine.execFenceRelease slot s
  | .learn pipeline => Sys2Proof.Machine.execLearn pipeline s
  | .learnEnable value => Sys2Proof.Machine.execLearnEnable value s
  | .ageSweepVisit pipeline way slot => Sys2Proof.Machine.execAgeSweepVisit pipeline way slot s
  | .tableImageLoadStart pipeline value => Sys2Proof.Machine.execTableImageLoadStart pipeline value s
  | .tableImageCheck pipeline value => Sys2Proof.Machine.execTableImageCheck pipeline value s
  | .tableImageDone pipeline => Sys2Proof.Machine.execTableImageDone pipeline s
  | .lpmImageLoadStart value => Sys2Proof.Machine.execLpmImageLoadStart value s
  | .lpmImageCheck value => Sys2Proof.Machine.execLpmImageCheck value s
  | .sprayGroupCommit group value => Sys2Proof.Machine.execSprayGroupCommit group value s
  | .gateCommit schedule value => Sys2Proof.Machine.execGateCommit schedule value s
  | .gateChange schedule => Sys2Proof.Machine.execGateChange schedule s
  | .gateCycleStart schedule => Sys2Proof.Machine.execGateCycleStart schedule s
  | .gateEntryEnd schedule => Sys2Proof.Machine.execGateEntryEnd schedule s
  | .meterRefill meter ns => Sys2Proof.Machine.execMeterRefill meter ns s
  | .meterProfileApply profile value => Sys2Proof.Machine.execMeterProfileApply profile value s
  | .meterRestart meter value => Sys2Proof.Machine.execMeterRestart meter value s
  | .contributionReceived port tag packet => Sys2Proof.Machine.execContributionReceived port tag packet s
  | .contributionCounted port fcs => Sys2Proof.Machine.execContributionCounted port fcs s
  | .armWaitExpiry => Sys2Proof.Machine.execArmWaitExpiry s
  | .triggerInstant slot => Sys2Proof.Machine.execTriggerInstant slot s
  | .epochStart slot => Sys2Proof.Machine.execEpochStart slot s
  | .epochEnd slot => Sys2Proof.Machine.execEpochEnd slot s
  | .epochRerun slot => Sys2Proof.Machine.execEpochRerun slot s
  | .clear slot tile => Sys2Proof.Machine.execClear slot tile s
  | .add slot tile sram => Sys2Proof.Machine.execAdd slot tile sram s
  | .check slot tile sram holds => Sys2Proof.Machine.execCheck slot tile sram holds s
  | .round slot tile sram mismatch => Sys2Proof.Machine.execRound slot tile sram mismatch s
  | .send slot tile => Sys2Proof.Machine.execSend slot tile s
  | .mload slot tile onTime => Sys2Proof.Machine.execMload slot tile onTime s
  | .proj slot tile => Sys2Proof.Machine.execProj slot tile s
  | .pcheck slot tile holds => Sys2Proof.Machine.execPcheck slot tile holds s
  | .spill slot tile sram => Sys2Proof.Machine.execSpill slot tile sram s
  | .fill slot tile onTime => Sys2Proof.Machine.execFill slot tile onTime s
  | .repeat slot tile => Sys2Proof.Machine.execRepeat slot tile s
  | .gen die phys => Sys2Proof.Machine.execGen die phys s
  | .tidelineEvaluation die dies rise package => Sys2Proof.Machine.execTidelineEvaluation die dies rise package s
  | .voltageRampDone die => Sys2Proof.Machine.execVoltageRampDone die s
  | .variantChange die => Sys2Proof.Machine.execVariantChange die s
  | .sentinelRun die phys pattern pass => Sys2Proof.Machine.execSentinelRun die phys pattern pass s
  | .lockstepEnable value => Sys2Proof.Machine.execLockstepEnable value s
  | .lockstepDigestReceived port tag payload => Sys2Proof.Machine.execLockstepDigestReceived port tag payload s
  | .lockstepPeerTimeout slot => Sys2Proof.Machine.execLockstepPeerTimeout slot s
  | .lockstepMismatchClear value => Sys2Proof.Machine.execLockstepMismatchClear value s
  | .replayTimer group leg half => Sys2Proof.Machine.execReplayTimer group leg half s
  | .replayRequestReceived port tag packet => Sys2Proof.Machine.execReplayRequestReceived port tag packet s
  | .hopAckReceived port tag packet => Sys2Proof.Machine.execHopAckReceived port tag packet s
  | .resultWriteReceived port tag packet => Sys2Proof.Machine.execResultWriteReceived port tag packet s
  | .broadcastReceived port tag packet => Sys2Proof.Machine.execBroadcastReceived port tag packet s
  | .broadcastResend group => Sys2Proof.Machine.execBroadcastResend group s
  | .retainedGroupExpiry partition => Sys2Proof.Machine.execRetainedGroupExpiry partition s
  | .mooringCheckpoint die => Sys2Proof.Machine.execMooringCheckpoint die s
  | .cacheResize die value => Sys2Proof.Machine.execCacheResize die value s
  | .cacheResizeDone die => Sys2Proof.Machine.execCacheResizeDone die s
  | .hintRangeSet die range value => Sys2Proof.Machine.execHintRangeSet die range value s
  | .wcbFlush stripe sram => Sys2Proof.Machine.execWcbFlush stripe sram s
  | .hbmReadComplete stripe read => Sys2Proof.Machine.execHbmReadComplete stripe read s
  | .patrolScrub stack read => Sys2Proof.Machine.execPatrolScrub stack read s
  | .hbmRetrainRequest stack cause => Sys2Proof.Machine.execHbmRetrainRequest stack cause s
  | .hbmRetrainStart stack => Sys2Proof.Machine.execHbmRetrainStart stack s
  | .hbmPhyRetrainDone stack trained spareRows => Sys2Proof.Machine.execHbmPhyRetrainDone stack trained spareRows s
  | .hbmRetrainDone stack => Sys2Proof.Machine.execHbmRetrainDone stack s
  | .hbmTestEnter stack value => Sys2Proof.Machine.execHbmTestEnter stack value s
  | .hbmTestShift stack value => Sys2Proof.Machine.execHbmTestShift stack value s
  | .hbmTestShiftDone stack data => Sys2Proof.Machine.execHbmTestShiftDone stack data s
  | .hbmTestExit stack value => Sys2Proof.Machine.execHbmTestExit stack value s
  | .flowEnable pipeline value => Sys2Proof.Machine.execFlowEnable pipeline value s
  | .flowEntryFlush pipeline index => Sys2Proof.Machine.execFlowEntryFlush pipeline index s
  | .engineDownFrame engine p0 p1 => Sys2Proof.Machine.execEngineDownFrame engine p0 p1 s
  | .engineUpFrame engine frame => Sys2Proof.Machine.execEngineUpFrame engine frame s
  | .engineHoldExpiry engine => Sys2Proof.Machine.execEngineHoldExpiry engine s
  | .laserDownFrame laserModule => Sys2Proof.Machine.execLaserDownFrame laserModule s
  | .laserUpFrame laserModule frame => Sys2Proof.Machine.execLaserUpFrame laserModule frame s
  | .laserLinkTimeout laserModule => Sys2Proof.Machine.execLaserLinkTimeout laserModule s
  | .laserTrendSample laserModule => Sys2Proof.Machine.execLaserTrendSample laserModule s
  | .laserSpareAtPower laserModule position reached => Sys2Proof.Machine.execLaserSpareAtPower laserModule position reached s
  | .laserSafetyCut laserModule cut => Sys2Proof.Machine.execLaserSafetyCut laserModule cut s
  | .moveRequest port tag payload => Sys2Proof.Machine.execMoveRequest port tag payload s
  | .moveGrant port tag payload => Sys2Proof.Machine.execMoveGrant port tag payload s
  | .moveRefuse port tag payload => Sys2Proof.Machine.execMoveRefuse port tag payload s
  | .moveAnswerTimeout fibre => Sys2Proof.Machine.execMoveAnswerTimeout fibre s
  | .calibrationStart fibre => Sys2Proof.Machine.execCalibrationStart fibre s
  | .calibrationDone fibre target ki window => Sys2Proof.Machine.execCalibrationDone fibre target ki window s
  | .fordWindow engine => Sys2Proof.Machine.execFordWindow engine s
  | .fordAccept port tag payload => Sys2Proof.Machine.execFordAccept port tag payload s
  | .fordDecline port tag payload => Sys2Proof.Machine.execFordDecline port tag payload s
  | .fordAnswerTimeout engine circuit => Sys2Proof.Machine.execFordAnswerTimeout engine circuit s
  | .fordReleased port tag payload => Sys2Proof.Machine.execFordReleased port tag payload s
  | .fordReleaseTimeout engine circuit => Sys2Proof.Machine.execFordReleaseTimeout engine circuit s
  | .fordRemoveCmd value => Sys2Proof.Machine.execFordRemoveCmd value s
  | .timeAdjust domain value => Sys2Proof.Machine.execTimeAdjust domain value s
  | .timeStep domain value => Sys2Proof.Machine.execTimeStep domain value s
  | .timeStepSettled domain => Sys2Proof.Machine.execTimeStepSettled domain s
  | .domainEnable domain value => Sys2Proof.Machine.execDomainEnable domain value s
  | .domainFollow domain value => Sys2Proof.Machine.execDomainFollow domain value s
  | .tclkLost => Sys2Proof.Machine.execTclkLost s
  | .holdoverExpiry => Sys2Proof.Machine.execHoldoverExpiry s
  | .tclkRelock => Sys2Proof.Machine.execTclkRelock s
  | .replicaCheck drift => Sys2Proof.Machine.execReplicaCheck drift s
  | .timeSnapshot value => Sys2Proof.Machine.execTimeSnapshot value s
  | .triggerConfigWrite output register value => Sys2Proof.Machine.execTriggerConfigWrite output register value s
  | .triggerOutputChange output level => Sys2Proof.Machine.execTriggerOutputChange output level s
  | .ppsOutputPulse level => Sys2Proof.Machine.execPpsOutputPulse level s
  | .captureEdge input rising => Sys2Proof.Machine.execCaptureEdge input rising s
  | .capturePop input value => Sys2Proof.Machine.execCapturePop input value s
  | .tempEmergency die temp => Sys2Proof.Machine.execTempEmergency die temp s
  | .railCurrentLimit rail sensed => Sys2Proof.Machine.execRailCurrentLimit rail sensed s
  | .safetyRelease limit => Sys2Proof.Machine.execSafetyRelease limit s
  | .thermalTrip die sensor temp => Sys2Proof.Machine.execThermalTrip die sensor temp s
  | .railFault rail => Sys2Proof.Machine.execRailFault rail s
  | .coreRefclkLost => Sys2Proof.Machine.execCoreRefclkLost s
  | .serdesRefclkLost die => Sys2Proof.Machine.execSerdesRefclkLost die s
  | .serdesRefclkRestored die => Sys2Proof.Machine.execSerdesRefclkRestored die s
  | .bridgeReplay bridge unit => Sys2Proof.Machine.execBridgeReplay bridge unit s
  | .bridgeRetrain bridge => Sys2Proof.Machine.execBridgeRetrain bridge s
  | .bridgeRetrainDone bridge ok => Sys2Proof.Machine.execBridgeRetrainDone bridge ok s
  | .dieReset die => Sys2Proof.Machine.execDieReset die s
  | .dieResetDone die copies checkpoints => Sys2Proof.Machine.execDieResetDone die copies checkpoints s
  | .laneErrorCheck lane errors symbols losses => Sys2Proof.Machine.execLaneErrorCheck lane errors symbols losses s
  | .recoveryStart kind logical => Sys2Proof.Machine.execRecoveryStart kind logical s
  | .recoveryStateDone place lost => Sys2Proof.Machine.execRecoveryStateDone place lost s
  | .retireRequest value => Sys2Proof.Machine.execRetireRequest value s
  | .mergeWindowExpiry code logical => Sys2Proof.Machine.execMergeWindowExpiry code logical s
  | .logAck value => Sys2Proof.Machine.execLogAck value s
  | .progressTick => Sys2Proof.Machine.execProgressTick s
  | .lpmImageDone => Sys2Proof.Machine.execLpmImageDone s
  | .engineEntersHold engine => Sys2Proof.Machine.execEngineEntersHold engine s
  | .engineLinkRetrained engine => Sys2Proof.Machine.execEngineLinkRetrained engine s
  | .domainLocked domain => Sys2Proof.Machine.execDomainLocked domain s
  | .coreRefclkRestored => Sys2Proof.Machine.execCoreRefclkRestored s

end Sys2Proof.Machine
end

