-- ==== Sys2Proof/Machine/Frame.lean ====
section
/-! DEFINITION. The parts of the state, for saying what a command leaves unchanged: every field of the state, and the words
of every register array (with the companion counts of its words, R104). -/

namespace Sys2Proof.Machine

/-- A part of the state. -/
inductive Piece where
  /-- The words of the register array at this base, and their companion counts. -/
  | words (base : Nat)
  | hiRings
  | hiDescs
  | hiNextId
  | hiGranules
  | hiGangwayWrites
  | hiProt
  | hiStaging
  | hiParts
  | hiD3hot
  | hiHeld
  | hiAnswering
  | hiConfig
  | btPor
  | btX4
  | btWarm
  | btHeld
  | btStopped
  | btTrip
  | btImage
  | btImageTop
  | btEntry
  | btQuoteNonce
  | btExchanges
  | btCoreRefLost
  | btSerdesLost
  | btFaultL
  | btThermtripL
  | pcPorts
  | pcFrames
  | pcNextFrame
  | pcQueues
  | pcSlip
  | pcSlipPages
  | pcSpilling
  | pcPortCount
  | pcQueueCount
  | pcMeterCount
  | ftEndpoints
  | ftLpm
  | ftLearns
  | ftConflicts
  | ftGroups
  | ftFlowlets
  | ftChanges
  | tqGates
  | tqMeters
  | tqProfiles
  | tqFences
  | tbDom0
  | tbDom1
  | tbCaptures
  | tbLostEdge
  | tbTrig
  | tbPps
  | tbExpired
  | tbReplicas
  | fhLog
  | fhWindows
  | fhVectorSent
  | fhTilesRetired
  | fhLanesRetired
  | fhLasersRetired
  | fhChannelsErased
  | fhWithdrawn
  | fhRecoveries
  | fhEscalations
  | fhPortsHeld
  | fhBridges
  | fhDiesReset
  | fhLaneLocks
  | fhLaneErrors
  | fhFullSeen
  | msHbm
  | msLines
  | msAtomic
  | msCombining
  | msUnreadable
  | msReread
  | msMoorings
  | msCheckpoints
  | msHbmStacks
  | msFlows
  | reTiles
  | reSlots
  | reAreas
  | rePasses
  | reOwn
  | rePeer
  | reSwept
  | clGroups
  | clTags
  | clInflight
  | clWaits
  | clDrains
  | clRetentions
  | clNotices
  | ocRings
  | ocEngines
  | ocMoves
  | ocGranted
  | ocCalibrated
  | ocLasers
  | ocLaserSeq
  | ocCircuits
  | ocPairs
  | ocCalTemp
  | pmRamping
  | pmDwell
  | pmActions
  | pmIdle
  | pmEnergy
  | pmBudget
  | drawn
  | outputs
  deriving DecidableEq, Repr

/-- Two states agree in a part. -/
def Piece.same (s t : State) : Piece → Prop
  | .words b => ∀ off, ownerOf off = some b → t.word off = s.word off
  | .hiRings => t.hi.rings = s.hi.rings
  | .hiDescs => t.hi.descs = s.hi.descs
  | .hiNextId => t.hi.nextId = s.hi.nextId
  | .hiGranules => t.hi.granules = s.hi.granules
  | .hiGangwayWrites => t.hi.gangwayWrites = s.hi.gangwayWrites
  | .hiProt => t.hi.prot = s.hi.prot
  | .hiStaging => t.hi.staging = s.hi.staging
  | .hiParts => t.hi.parts = s.hi.parts
  | .hiD3hot => t.hi.d3hot = s.hi.d3hot
  | .hiHeld => t.hi.held = s.hi.held
  | .hiAnswering => t.hi.answering = s.hi.answering
  | .hiConfig => t.hi.config = s.hi.config
  | .btPor => t.bt.por = s.bt.por
  | .btX4 => t.bt.x4 = s.bt.x4
  | .btWarm => t.bt.warm = s.bt.warm
  | .btHeld => t.bt.held = s.bt.held
  | .btStopped => t.bt.stopped = s.bt.stopped
  | .btTrip => t.bt.trip = s.bt.trip
  | .btImage => t.bt.image = s.bt.image
  | .btImageTop => t.bt.imageTop = s.bt.imageTop
  | .btEntry => t.bt.entry = s.bt.entry
  | .btQuoteNonce => t.bt.quoteNonce = s.bt.quoteNonce
  | .btExchanges => t.bt.exchanges = s.bt.exchanges
  | .btCoreRefLost => t.bt.coreRefLost = s.bt.coreRefLost
  | .btSerdesLost => t.bt.serdesLost = s.bt.serdesLost
  | .btFaultL => t.bt.faultL = s.bt.faultL
  | .btThermtripL => t.bt.thermtripL = s.bt.thermtripL
  | .pcPorts => t.pc.ports = s.pc.ports
  | .pcFrames => t.pc.frames = s.pc.frames
  | .pcNextFrame => t.pc.nextFrame = s.pc.nextFrame
  | .pcQueues => t.pc.queues = s.pc.queues
  | .pcSlip => t.pc.slip = s.pc.slip
  | .pcSlipPages => t.pc.slipPages = s.pc.slipPages
  | .pcSpilling => t.pc.spilling = s.pc.spilling
  | .pcPortCount => t.pc.portCount = s.pc.portCount
  | .pcQueueCount => t.pc.queueCount = s.pc.queueCount
  | .pcMeterCount => t.pc.meterCount = s.pc.meterCount
  | .ftEndpoints => t.ft.endpoints = s.ft.endpoints
  | .ftLpm => t.ft.lpm = s.ft.lpm
  | .ftLearns => t.ft.learns = s.ft.learns
  | .ftConflicts => t.ft.conflicts = s.ft.conflicts
  | .ftGroups => t.ft.groups = s.ft.groups
  | .ftFlowlets => t.ft.flowlets = s.ft.flowlets
  | .ftChanges => t.ft.changes = s.ft.changes
  | .tqGates => t.tq.gates = s.tq.gates
  | .tqMeters => t.tq.meters = s.tq.meters
  | .tqProfiles => t.tq.profiles = s.tq.profiles
  | .tqFences => t.tq.fences = s.tq.fences
  | .tbDom0 => t.tb.dom0 = s.tb.dom0
  | .tbDom1 => t.tb.dom1 = s.tb.dom1
  | .tbCaptures => t.tb.captures = s.tb.captures
  | .tbLostEdge => t.tb.lostEdge = s.tb.lostEdge
  | .tbTrig => t.tb.trig = s.tb.trig
  | .tbPps => t.tb.pps = s.tb.pps
  | .tbExpired => t.tb.expired = s.tb.expired
  | .tbReplicas => t.tb.replicas = s.tb.replicas
  | .fhLog => t.fh.log = s.fh.log
  | .fhWindows => t.fh.windows = s.fh.windows
  | .fhVectorSent => t.fh.vectorSent = s.fh.vectorSent
  | .fhTilesRetired => t.fh.tilesRetired = s.fh.tilesRetired
  | .fhLanesRetired => t.fh.lanesRetired = s.fh.lanesRetired
  | .fhLasersRetired => t.fh.lasersRetired = s.fh.lasersRetired
  | .fhChannelsErased => t.fh.channelsErased = s.fh.channelsErased
  | .fhWithdrawn => t.fh.withdrawn = s.fh.withdrawn
  | .fhRecoveries => t.fh.recoveries = s.fh.recoveries
  | .fhEscalations => t.fh.escalations = s.fh.escalations
  | .fhPortsHeld => t.fh.portsHeld = s.fh.portsHeld
  | .fhBridges => t.fh.bridges = s.fh.bridges
  | .fhDiesReset => t.fh.diesReset = s.fh.diesReset
  | .fhLaneLocks => t.fh.laneLocks = s.fh.laneLocks
  | .fhLaneErrors => t.fh.laneErrors = s.fh.laneErrors
  | .fhFullSeen => t.fh.fullSeen = s.fh.fullSeen
  | .msHbm => t.ms.hbm = s.ms.hbm
  | .msLines => t.ms.lines = s.ms.lines
  | .msAtomic => t.ms.atomic = s.ms.atomic
  | .msCombining => t.ms.combining = s.ms.combining
  | .msUnreadable => t.ms.unreadable = s.ms.unreadable
  | .msReread => t.ms.reread = s.ms.reread
  | .msMoorings => t.ms.moorings = s.ms.moorings
  | .msCheckpoints => t.ms.checkpoints = s.ms.checkpoints
  | .msHbmStacks => t.ms.hbmStacks = s.ms.hbmStacks
  | .msFlows => t.ms.flows = s.ms.flows
  | .reTiles => t.re.tiles = s.re.tiles
  | .reSlots => t.re.slots = s.re.slots
  | .reAreas => t.re.areas = s.re.areas
  | .rePasses => t.re.passes = s.re.passes
  | .reOwn => t.re.own = s.re.own
  | .rePeer => t.re.peer = s.re.peer
  | .reSwept => t.re.swept = s.re.swept
  | .clGroups => t.cl.groups = s.cl.groups
  | .clTags => t.cl.tags = s.cl.tags
  | .clInflight => t.cl.inflight = s.cl.inflight
  | .clWaits => t.cl.waits = s.cl.waits
  | .clDrains => t.cl.drains = s.cl.drains
  | .clRetentions => t.cl.retentions = s.cl.retentions
  | .clNotices => t.cl.notices = s.cl.notices
  | .ocRings => t.oc.rings = s.oc.rings
  | .ocEngines => t.oc.engines = s.oc.engines
  | .ocMoves => t.oc.moves = s.oc.moves
  | .ocGranted => t.oc.granted = s.oc.granted
  | .ocCalibrated => t.oc.calibrated = s.oc.calibrated
  | .ocLasers => t.oc.lasers = s.oc.lasers
  | .ocLaserSeq => t.oc.laserSeq = s.oc.laserSeq
  | .ocCircuits => t.oc.circuits = s.oc.circuits
  | .ocPairs => t.oc.pairs = s.oc.pairs
  | .ocCalTemp => t.oc.calTemp = s.oc.calTemp
  | .pmRamping => t.pm.ramping = s.pm.ramping
  | .pmDwell => t.pm.dwell = s.pm.dwell
  | .pmActions => t.pm.actions = s.pm.actions
  | .pmIdle => t.pm.idle = s.pm.idle
  | .pmEnergy => t.pm.energy = s.pm.energy
  | .pmBudget => t.pm.budget = s.pm.budget
  | .drawn => t.free = s.free
  | .outputs => t.out = s.out

/-- The states agree in every part but those of a list. -/
def Unchanged (l : List Piece) (s t : State) : Prop := ∀ p, p ∉ l → p.same s t

end Sys2Proof.Machine
end

