-- ==== Sys2Proof/Machine/Touches.lean ====
section
/-! DEFINITION. The parts of the state that each command may change: the frame of every command. The list of an operation that
many commands share has a name of its own. -/

namespace Sys2Proof.Machine

/-- The words of every register of the map. -/
def everyRegister : List Piece := (List.range 14).flatMap (fun b => (blockRegisters b).map (fun r => .words r.base))

/-- The words of every register of the host interface. -/
def hostRegisters : List Piece := (blockRegisters 0).map (fun r => .words r.base)

/-- Every part that is not made of register words. -/
def everyField : List Piece :=
  [.hiRings, .hiDescs, .hiNextId, .hiGranules, .hiGangwayWrites, .hiProt, .hiStaging, .hiParts, .hiD3hot, .hiHeld,
   .hiAnswering, .hiConfig, .btPor, .btX4, .btWarm, .btHeld, .btStopped, .btTrip, .btImage, .btImageTop, .btEntry,
   .btQuoteNonce, .btExchanges, .btCoreRefLost, .btSerdesLost, .btFaultL, .btThermtripL, .pcPorts, .pcFrames, .pcNextFrame,
   .pcQueues, .pcSlip, .pcSlipPages, .pcSpilling, .pcPortCount, .pcQueueCount, .pcMeterCount, .ftEndpoints, .ftLpm, .ftLearns,
   .ftConflicts, .ftGroups, .ftFlowlets, .ftChanges, .tqGates, .tqMeters, .tqProfiles, .tqFences, .tbDom0, .tbDom1,
   .tbCaptures, .tbLostEdge, .tbTrig, .tbPps, .tbExpired, .tbReplicas, .fhLog, .fhWindows, .fhVectorSent, .fhTilesRetired,
   .fhLanesRetired, .fhLasersRetired, .fhChannelsErased, .fhWithdrawn, .fhRecoveries, .fhEscalations, .fhPortsHeld, .fhBridges,
   .fhDiesReset, .fhLaneLocks, .fhLaneErrors, .fhFullSeen, .msHbm, .msLines, .msAtomic, .msCombining, .msUnreadable, .msReread,
   .msMoorings, .msCheckpoints, .msHbmStacks, .msFlows, .reTiles, .reSlots, .reAreas, .rePasses, .reOwn, .rePeer, .reSwept,
   .clGroups, .clTags, .clInflight, .clWaits, .clDrains, .clRetentions, .clNotices, .ocRings, .ocEngines, .ocMoves, .ocGranted,
   .ocCalibrated, .ocLasers, .ocLaserSeq, .ocCircuits, .ocPairs, .ocCalTemp, .pmRamping, .pmDwell, .pmActions, .pmIdle,
   .pmEnergy, .pmBudget, .drawn, .outputs]

/-- Every part but those of a list. -/
def allBut (l : List Piece) : List Piece := everyRegister ++ everyField.filter (fun p => !l.contains p)

/-- What a write or a message toward the host (`State.toHost`) touches. -/
def toHostParts : List Piece :=
  [.hiHeld, .outputs]

/-- What the record of an event (`State.raise`) touches. -/
def eventParts : List Piece :=
  toHostParts ++
  [.fhLog, .fhWindows, .fhVectorSent, .words HI_MSIX_PBA.base, .words FH_LOG_STATUS.base, .words FH_ERR.base,
   .words FH_CLASS_COUNT.base, .words FH_FAULT_COUNT.base]

/-- What the completion of a descriptor (`State.complete`) touches. -/
def completionParts : List Piece :=
  toHostParts ++
  [.hiRings, .hiDescs, .words HI_RING_STATUS.base, .words HI_MSIX_PBA.base]

/-- What a change of a readiness bit (`State.fall`) touches. -/
def readinessParts : List Piece :=
  eventParts ++
  [.fhFullSeen, .words BT_READY_MAP.base, .words BT_READY_CHANGE.base]

/-- What a spare put in use (`State.useSpare`) touches. -/
def spareParts : List Piece :=
  eventParts ++
  [.words FH_SPARE_STATUS.base]

/-- What an uncorrectable stripe (`State.loseStripe`) touches. -/
def lostStripeParts : List Piece :=
  readinessParts ++
  [.msUnreadable, .msReread, .words MS_ERR.base, .words MS_ECC_COUNT.base, .words MS_HBM_STATUS.base,
   .words MS_BAD_STRIPE.base, .words FH_SPARE_STATUS.base]

/-- What a write of device memory (`State.memWrite`) touches. -/
def memoryParts : List Piece :=
  lostStripeParts ++
  [.msHbm, .msLines, .msAtomic, .msCombining, .words MS_CACHE_STATUS.base]

/-- What a packet that the device itself sends (`State.originate`) touches. -/
def originateParts : List Piece :=
  [.pcPorts, .pcFrames, .pcNextFrame, .pcQueues, .pcPortCount, .ftFlowlets, .tqFences, .reSlots, .words PC_BUF_ERR.base,
   .words FT_PIPE_DROP.base]

/-- What a new look at the armed contexts (`State.recheckContexts`) touches. -/
def contextParts : List Piece :=
  originateParts ++ eventParts ++ completionParts ++
  [.reTiles, .clGroups, .words RE_TILE_STATUS.base, .words MF_SLOT_STATUS.base, .words CL_ERR.base,
   .words CL_GROUP_STATUS.base, .words CL_CONTEXT_STATUS.base]

/-- What the end of a move (`State.abandonMove`) touches. -/
def moveEndParts : List Piece :=
  eventParts ++
  [.ocEngines, .ocMoves, .words OC_ERR.base]

/-- What a link that goes down (`State.portFalls`) touches. -/
def portDownParts : List Piece :=
  readinessParts ++ completionParts ++ moveEndParts ++
  [.btExchanges, .pcPorts, .pcFrames, .pcQueues, .pcSlip, .pcSlipPages, .pcPortCount, .pcQueueCount, .tqFences, .msMoorings,
   .reTiles, .clGroups, .clInflight, .clWaits, .ocRings, .ocGranted, .ocCircuits, .words PC_PORT_STATUS.base,
   .words TQ_RESULT_CFG.base, .words CL_ERR.base, .words CL_DROP.base, .words OC_FORD_CIRCUIT.base, .words OC_FIBRE_MAP.base,
   .words OC_FIBRE_RX_MAP.base, .words EV_PORT_STATUS.base]

/-- What the loss of a lane (`State.loseLane`) touches. -/
def laneLossParts : List Piece :=
  portDownParts ++
  [.fhLanesRetired, .fhWithdrawn, .words FH_SPARE_STATUS.base]

/-- What the loss of a wavelength (`State.wavelengthFails`) touches. -/
def wavelengthLossParts : List Piece :=
  laneLossParts ++
  [.fhRecoveries, .ocCalTemp, .drawn, .words FH_REC_STATUS.base]

/-- What the next launch of a context (`State.launchNext`) touches. -/
def launchParts : List Piece :=
  contextParts ++ memoryParts ++
  [.msMoorings, .clInflight, .clWaits, .words TQ_RESULT_CFG.base, .words CL_DROP.base]

/-- What a contribution counted (`State.countIn`) touches. -/
def countParts : List Piece :=
  memoryParts ++
  [.pcPorts, .pcNextFrame, .pcPortCount, .tqFences, .msFlows, .words MS_FLOW_LOST.base]

/-- What a result sent (`sendInstr`) touches. -/
def sendParts : List Piece :=
  memoryParts ++ originateParts ++ completionParts ++
  [.msMoorings, .reTiles, .clGroups, .words CL_ERR.base, .words CL_DROP.base]

/-- What a frame steered into its queues (`State.steer`) touches. -/
def queueFrameParts : List Piece :=
  memoryParts ++ originateParts ++
  [.reTiles, .clGroups, .clWaits, .words CL_ERR.base, .words CL_DROP.base]

/-- What a frame dropped while it arrives (`State.dropArriving`) touches. -/
def dropParts : List Piece :=
  memoryParts ++
  [.pcPorts, .pcFrames, .pcNextFrame, .pcQueues, .msFlows, .words MS_FLOW_LOST.base]

/-- The parts of the state that a command may change, beside the queue. -/
def touches (i : Instr) : List Piece :=
  match i with
  | .nop _ => completionParts
  | .regRead _ _ => everyRegister ++ memoryParts ++ completionParts ++ [.hiGranules, .btImage, .btImageTop, .ftEndpoints,
      .ftLpm, .reTiles, .reAreas]
  | .regWrite _ _ => allBut [.hiNextId, .hiD3hot, .hiAnswering, .hiConfig, .btPor, .btX4, .btTrip, .btCoreRefLost,
      .btSerdesLost, .fhChannelsErased]
  | .dmaToDevice _ _ => memoryParts ++ completionParts ++ [.btImage, .btImageTop, .ftEndpoints, .ftLpm, .reTiles, .reAreas,
      .words BT_FW_STATUS.base]
  | .dmaFromDevice _ _ => lostStripeParts ++ completionParts ++ [.msHbm, .msLines, .msCombining, .drawn,
      .words MS_CACHE_STATUS.base]
  | .protUpdate _ _ => completionParts ++ [.hiStaging]
  | .protCommit _ => completionParts
  | .protGenerationBoundary => contextParts ++ [.hiProt, .words HI_PROT_GEN.base, .words FT_LEARN_CFG.base,
      .words FT_LEARN_STATUS.base, .words CL_PART_GEN.base, .words MS_ERR.base, .words MS_FLOW_CFG.base,
      .words EV_LOG_COUNT.base, .words EV_LOG_ACC.base, .words EV_LOG.base]
  | .partitionSet _ => completionParts ++ [.hiParts]
  | .partitionDrain _ => launchParts ++ [.hiParts, .clDrains, .clRetentions, .words RE_ERR.base, .words RE_CHECK_COUNT.base]
  | .drainContextRelease _ => completionParts ++ [.reTiles, .reSlots, .clGroups, .clDrains, .clRetentions,
      .words RE_TILE_STATUS.base, .words MF_SLOT_STATUS.base, .words CL_GROUP_STATUS.base, .words CL_CONTEXT_STATUS.base]
  | .drainComplete _ => completionParts ++ [.hiParts, .clDrains]
  | .ftInsert _ _ => eventParts ++ completionParts ++ [.ftEndpoints, .ftChanges, .words FT_PIPE_STATUS.base,
      .words FT_PIPE_COUNT.base, .words FT_LEARN_PROD.base, .words FT_LEARN_STATUS.base]
  | .ftDelete _ _ => completionParts ++ [.ftEndpoints, .ftChanges, .words FT_PIPE_COUNT.base]
  | .lpmInsert _ _ => completionParts ++ [.ftLpm, .ftChanges, .words FT_LPM_STATUS.base]
  | .lpmDelete _ _ => completionParts ++ [.ftLpm, .ftChanges, .words FT_LPM_STATUS.base]
  | .ftShadowCompare _ _ _ => completionParts
  | .groupRegister _ _ => originateParts ++ completionParts ++ [.reTiles, .clGroups, .clTags, .words RE_TILE_STATUS.base,
      .words MF_SLOT_STATUS.base, .words CL_GROUP_STATUS.base, .words CL_CONTEXT_STATUS.base]
  | .groupRelease _ => completionParts ++ [.clGroups, .words CL_GROUP_STATUS.base, .words CL_CONTEXT_STATUS.base]
  | .contextArm _ => launchParts ++ [.words RE_ERR.base, .words RE_CHECK_COUNT.base]
  | .contextDisarm _ => originateParts ++ completionParts ++ [.msMoorings, .reTiles, .clGroups, .words RE_TILE_STATUS.base,
      .words MF_SLOT_STATUS.base, .words CL_GROUP_STATUS.base, .words CL_CONTEXT_STATUS.base]
  | .collectiveLaunch _ _ => launchParts
  | .resultAck _ => originateParts ++ completionParts ++ [.msMoorings, .reTiles, .clGroups, .words RE_TILE_STATUS.base,
      .words MF_SLOT_STATUS.base, .words CL_GROUP_STATUS.base, .words CL_CONTEXT_STATUS.base]
  | .mooringSet _ => completionParts ++ [.msMoorings]
  | .mooringWait _ => completionParts
  | .atomicCas _ _ => memoryParts ++ completionParts
  | .atomicAdd _ _ => memoryParts ++ completionParts
  | .manifestLoad _ _ => completionParts ++ [.reSlots, .words MF_DIE_STATUS.base, .words MF_SLOT_STATUS.base,
      .words MF_SLOT_DIGEST.base, .words EV_LOG_COUNT.base, .words EV_LOG_ACC.base, .words EV_LOG.base]
  | .manifestActivate _ => completionParts ++ [.reTiles, .reSlots, .reOwn, .rePeer, .words MF_DIE_STATUS.base,
      .words MF_SLOT_STATUS.base, .words MF_SLOT_EPOCHS.base, .words MF_SLOT_LATE.base, .words MF_SLOT_LATE_SUM.base,
      .words MS_BW_GRANT.base]
  | .manifestDeactivate _ => completionParts ++ [.reSlots, .words MF_DIE_STATUS.base, .words MF_SLOT_STATUS.base,
      .words MS_BW_GRANT.base]
  | .manifestUnload _ => completionParts ++ [.reSlots, .words MF_DIE_STATUS.base, .words MF_SLOT_STATUS.base,
      .words MF_SLOT_DIGEST.base]
  | .counterSnapshot _ _ => completionParts
  | .faultLogRead _ _ => completionParts
  | .sqTail _ _ => eventParts ++ [.hiRings, .words HI_RING_STATUS.base]
  | .cqHead _ _ => eventParts ++ [.hiRings, .words HI_RING_STATUS.base]
  | .descriptorFetch _ _ => eventParts ++ completionParts ++ [.hiNextId]
  | .cqModerationTimeout _ => toHostParts ++ [.hiRings, .words HI_MSIX_PBA.base]
  | .ringEnable _ _ => eventParts ++ completionParts ++ [.words HI_RING_CFG.base]
  | .ringDisable _ _ => eventParts ++ completionParts ++ [.words HI_RING_CFG.base]
  | .gangwayEnable _ _ => memoryParts ++ [.hiGranules, .btImage, .btImageTop, .ftEndpoints, .ftLpm, .reTiles, .reAreas,
      .words HI_GW_TARGET.base, .words HI_GW_STATUS.base, .words BT_FW_STATUS.base]
  | .gangwayClose _ _ => memoryParts ++ [.hiGranules, .btImage, .btImageTop, .ftEndpoints, .ftLpm, .reTiles, .reAreas,
      .words HI_GW_TARGET.base, .words HI_GW_STATUS.base, .words BT_FW_STATUS.base]
  | .gangwayWrite _ _ _ => memoryParts ++ [.hiGranules, .hiGangwayWrites, .btImage, .btImageTop, .ftEndpoints, .ftLpm,
      .fhBridges, .reTiles, .reAreas, .words HI_GW_STATUS.base]
  | .gangwayRead _ _ _ => lostStripeParts ++ [.fhBridges, .msHbm, .msLines, .msCombining, .words MS_CACHE_STATUS.base]
  | .gangwayStatusRead _ => memoryParts ++ [.hiGranules, .btImage, .btImageTop, .ftEndpoints, .ftLpm, .fhBridges, .reTiles,
      .reAreas, .words HI_GW_STATUS.base]
  | .gangwayGranuleTimeout _ => memoryParts ++ [.hiGranules, .btImage, .btImageTop, .ftEndpoints, .ftLpm, .reTiles, .reAreas,
      .words HI_GW_STATUS.base]
  | .powerStateD3hot => [.hiD3hot]
  | .powerStateD0 => toHostParts ++ [.hiD3hot]
  | .hostPortReset _ => hostRegisters ++ [.hiRings, .hiDescs, .hiGranules, .hiD3hot, .hiHeld, .hiAnswering, .hiConfig]
  | .configSpaceReady => [.hiAnswering, .hiConfig, .drawn]
  | .registerWrite _ _ => allBut [.hiNextId, .hiD3hot, .hiAnswering, .hiConfig, .btPor, .btX4, .btTrip, .btCoreRefLost,
      .btSerdesLost, .fhChannelsErased]
  | .companionCountRead _ => everyRegister ++ memoryParts ++ [.hiGranules, .btImage, .btImageTop, .ftEndpoints, .ftLpm,
      .fhBridges, .reTiles, .reAreas]
  | .coldReset => allBut [.btTrip, .btCoreRefLost, .btSerdesLost, .drawn]
  | .porRelease _ => [.btPor, .btX4]
  | .warmReset _ => allBut [.hiNextId, .hiD3hot, .hiAnswering, .hiConfig, .btPor, .btX4, .btTrip, .btCoreRefLost,
      .btSerdesLost, .fhTilesRetired, .fhLanesRetired, .fhLasersRetired, .fhChannelsErased, .fhWithdrawn, .drawn]
  | .lockSet _ => [.outputs, .words BT_LOCK.base]
  | .firmwareStart _ => eventParts ++ [.hiGranules, .btImage, .btImageTop, .words HI_GW_TARGET.base, .words HI_GW_STATUS.base,
      .words BT_FW_STATUS.base]
  | .firmwareAbandon _ => eventParts ++ [.hiGranules, .btImage, .btImageTop, .words HI_GW_TARGET.base,
      .words HI_GW_STATUS.base, .words BT_FW_STATUS.base]
  | .firmwareCheckDone => readinessParts ++ [.btEntry, .ocLasers, .drawn, .words BT_LOCK.base, .words BT_FW_STATUS.base,
      .words OC_LASER_CFG.base, .words OC_LASER_MODULE_STATUS.base, .words EV_LOG_COUNT.base, .words EV_LOG_ACC.base,
      .words EV_LOG.base]
  | .functionReady _ => readinessParts ++ [.btTrip, .tqGates, .tbDom0, .tbReplicas, .msHbmStacks, .reSlots, .reSwept,
      .ocEngines, .drawn, .words TQ_GATE_STATUS.base, .words TQ_GATE_OPER.base, .words RE_TILE_MAP.base,
      .words RE_TILE_STATUS.base, .words MF_ERR.base, .words MF_SLOT_LATE.base, .words MS_HBM_STATUS.base,
      .words OC_ENGINE_STATUS.base, .words OC_LASER_MODULE_STATUS.base, .words TB_STATUS.base, .words TB_REPLICA.base,
      .words EV_BOOT_ID.base, .words EV_LOG_COUNT.base, .words EV_LOG_ACC.base, .words EV_LOG.base]
  | .functionLeavesService _ => readinessParts ++ [.pcPorts, .pcFrames, .pcPortCount, .tqGates, .tqFences,
      .words TQ_RESULT_CFG.base, .words TQ_ERR.base, .words MF_ERR.base, .words TB_STATUS.base]
  | .quoteStart _ => [.btQuoteNonce, .outputs, .words EV_QUOTE_STATUS.base]
  | .quoteDone => [.words EV_QUOTE_STATUS.base, .words EV_QUOTE_OUT.base]
  | .evbauthIdTimer _ => [.btExchanges, .pcPorts, .pcPortCount, .drawn, .outputs]
  | .evbauthIdReceived _ _ _ => readinessParts ++ [.btExchanges, .pcPorts, .pcFrames, .pcPortCount, .tqFences, .drawn,
      .words PC_PORT_STATUS.base, .words TQ_RESULT_CFG.base, .words EV_PORT_STATUS.base, .words EV_PORT_PEER_SERIAL.base,
      .words EV_PORT_PEER_DIGEST.base]
  | .evbauthProofReceived _ _ _ => eventParts ++ [.btExchanges, .pcPorts, .pcPortCount, .words PC_PORT_STATUS.base,
      .words EV_PORT_STATUS.base]
  | .evbauthTimeout _ => [.btExchanges, .words PC_PORT_STATUS.base, .words EV_PORT_STATUS.base]
  | .portEnable _ _ => portDownParts ++ [.fhEscalations, .fhPortsHeld, .fhBridges, .ocCalTemp, .words PC_BUF_ERR.base,
      .words PC_PORT_CFG.base, .words TQ_ERR.base]
  | .portDisable _ _ => portDownParts ++ [.fhEscalations, .fhPortsHeld, .fhBridges, .ocCalTemp, .words PC_BUF_ERR.base,
      .words PC_PORT_CFG.base, .words TQ_ERR.base]
  | .laneLayoutWrite _ _ => readinessParts ++ [.fhBridges, .words PC_LANE_GROUP.base]
  | .linkFecLock _ => eventParts ++ [.btExchanges, .pcPorts, .words PC_BUF_ERR.base, .words PC_PORT_STATUS.base,
      .words EV_PORT_STATUS.base]
  | .portLinkDown _ => portDownParts
  | .frameHeaderArrival _ _ _ => dropParts ++ countParts ++ [.pcQueueCount, .pcMeterCount, .ftEndpoints, .ftFlowlets,
      .tqMeters, .words PC_BUF_ERR.base, .words FT_PIPE_DROP.base]
  | .frameTailArrival _ _ _ => memoryParts ++ [.pcPorts, .pcFrames, .pcQueues, .pcSlip, .pcSlipPages, .pcPortCount,
      .pcQueueCount, .ftLearns, .tqFences, .msFlows, .ocPairs, .words PC_LINK_ERR.base, .words FT_PIPE_STATUS.base,
      .words TQ_RESULT_CFG.base, .words MS_FLOW_LOST.base]
  | .schedulerSelect _ => [.pcPorts, .pcFrames, .pcQueues, .pcSlip, .pcSlipPages, .pcPortCount, .pcQueueCount, .tqFences,
      .drawn, .outputs, .words PC_PORT_STATUS.base, .words TQ_RESULT_CFG.base]
  | .frameDeparted _ _ => portDownParts ++ [.fhLanesRetired, .fhRecoveries, .fhEscalations, .fhPortsHeld,
      .words PC_LINK_ERR.base, .words MS_ERR.base, .words MS_ECC_COUNT.base, .words TB_TC_COUNT.base,
      .words FH_SPARE_STATUS.base, .words FH_REC_STATUS.base]
  | .pfcFrameReceived _ _ _ => [.pcPorts, .pcPortCount]
  | .pfcXoffRefresh _ _ => [.pcPorts, .pcPortCount, .outputs]
  | .pfcQuantaExpiry _ _ => [.pcPorts]
  | .pauseReceived _ => [.pcPortCount]
  | .linkInitReceived _ _ => readinessParts ++ moveEndParts ++ [.pcPorts, .pcFrames, .pcPortCount, .tqFences, .ocRings,
      .ocGranted, .ocCircuits, .words PC_BUF_ERR.base, .words PC_PORT_STATUS.base, .words PC_LINK_ERR.base,
      .words TQ_RESULT_CFG.base, .words OC_FORD_CIRCUIT.base, .words OC_FIBRE_MAP.base, .words OC_FIBRE_RX_MAP.base]
  | .linkInitTimer _ => [.pcPorts, .pcPortCount, .outputs, .words PC_PORT_STATUS.base]
  | .initTimeout _ => eventParts ++ [.words PC_LINK_ERR.base]
  | .linkStatusReceived _ _ => portDownParts ++ [.fhLanesRetired, .fhRecoveries, .fhEscalations, .fhPortsHeld, .ocCalTemp,
      .words PC_LINK_ERR.base, .words FH_SPARE_STATUS.base, .words FH_REC_STATUS.base]
  | .linkStatusTimer _ => [.pcPortCount, .outputs]
  | .linkRetryTimeout _ => portDownParts ++ [.fhLanesRetired, .fhRecoveries, .fhEscalations, .fhPortsHeld,
      .words PC_LINK_ERR.base, .words FH_SPARE_STATUS.base, .words FH_REC_STATUS.base]
  | .markerReceived _ _ _ => spareParts ++ [.pcPorts, .pcPortCount, .fhLanesRetired, .ocRings, .ocEngines, .ocGranted,
      .ocCircuits, .drawn, .words PC_LANE_GROUP.base, .words PC_PORT_STATUS.base, .words OC_FORD_CIRCUIT.base,
      .words OC_FIBRE_MAP.base, .words OC_FIBRE_RX_MAP.base]
  | .laneSwap _ _ => spareParts ++ [.pcPorts, .pcPortCount, .fhLanesRetired, .words PC_LANE_GROUP.base]
  | .slipwaySpill _ => memoryParts ++ [.pcPorts, .pcSlip, .pcSlipPages, .pcSpilling, .pcPortCount]
  | .slipwayPageFetch _ => [.pcSlip, .pcSlipPages]
  | .slipwayFetchDone _ _ => eventParts ++ [.pcPorts, .pcFrames, .pcQueues, .pcSlip, .pcSlipPages, .pcPortCount, .pcQueueCount,
      .tqFences, .msLines, .words TQ_RESULT_CFG.base, .words MS_ERR.base, .words MS_ECC_COUNT.base]
  | .fenceRelease _ => [.pcFrames, .tqFences]
  | .learn _ => eventParts ++ [.ftEndpoints, .ftLearns, .ftConflicts, .words FT_PIPE_STATUS.base, .words FT_PIPE_COUNT.base,
      .words FT_LEARN_PROD.base, .words FT_LEARN_STATUS.base]
  | .learnEnable _ => eventParts ++ [.fhBridges, .words FT_LEARN_CFG.base, .words FT_LEARN_PROD.base,
      .words FT_LEARN_CONS.base, .words FT_LEARN_STATUS.base]
  | .ageSweepVisit _ _ _ => toHostParts ++ [.ftEndpoints, .words FT_PIPE_COUNT.base, .words FT_LEARN_PROD.base,
      .words FT_LEARN_STATUS.base]
  | .tableImageLoadStart _ _ => eventParts ++ [.ftEndpoints, .fhBridges, .words FT_PIPE_CTL.base, .words FT_PIPE_STATUS.base,
      .words FT_PIPE_COUNT.base]
  | .tableImageCheck _ _ => eventParts ++ [.ftEndpoints, .fhBridges, .words FT_PIPE_CTL.base, .words FT_PIPE_STATUS.base,
      .words FT_PIPE_COUNT.base]
  | .tableImageDone _ => eventParts ++ [.ftEndpoints, .words FT_PIPE_STATUS.base, .words FT_PIPE_COUNT.base]
  | .lpmImageLoadStart _ => eventParts ++ [.ftLpm, .fhBridges, .words FT_LPM_CFG.base, .words FT_LPM_STATUS.base]
  | .lpmImageCheck _ => eventParts ++ [.ftLpm, .fhBridges, .words FT_LPM_CFG.base, .words FT_LPM_STATUS.base]
  | .sprayGroupCommit _ _ => eventParts ++ [.ftGroups, .fhBridges, .words FT_GROUP_CFG.base]
  | .gateCommit _ _ => eventParts ++ [.tqGates, .fhBridges, .words TQ_ERR.base, .words TQ_GATE_CTL.base,
      .words TQ_GATE_STATUS.base, .words TQ_GATE_CHANGE_S.base]
  | .gateChange _ => [.tqGates, .words TQ_GATE_STATUS.base, .words TQ_GATE_OPER.base]
  | .gateCycleStart _ => [.tqGates]
  | .gateEntryEnd _ => [.tqGates]
  | .meterRefill _ _ => [.tqMeters]
  | .meterProfileApply _ _ => eventParts ++ [.tqMeters, .tqProfiles, .fhBridges, .words TQ_ERR.base,
      .words TQ_METER_PROFILE.base]
  | .meterRestart _ _ => eventParts ++ [.tqMeters, .fhBridges, .words TQ_METER_CFG.base]
  | .contributionReceived _ _ _ => queueFrameParts ++ dropParts ++ [.clInflight, .words PC_LINK_ERR.base]
  | .contributionCounted _ _ => launchParts ++ dropParts ++ [.words PC_LINK_ERR.base, .words RE_ERR.base,
      .words RE_CHECK_COUNT.base]
  | .armWaitExpiry => originateParts ++ [.clInflight, .clWaits, .clNotices, .outputs, .words TQ_RESULT_CFG.base,
      .words CL_ERR.base, .words CL_DROP.base]
  | .triggerInstant _ => [.reSlots, .words MF_ERR.base, .words MF_SLOT_LATE.base]
  | .epochStart _ => [.reTiles, .reSlots, .clGroups, .words TQ_RESULT_CFG.base, .words MF_SLOT_EPOCHS.base,
      .words MF_SLOT_LATE.base, .words MF_SLOT_LATE_SUM.base]
  | .epochEnd _ => contextParts ++ [.msMoorings, .reOwn, .rePeer, .pmIdle, .words TQ_RESULT_CFG.base,
      .words MF_DIE_STATUS.base, .words MF_LS_STATUS.base, .words MF_LS_EPOCH.base, .words MF_LS_TILE.base,
      .words MS_BW_GRANT.base, .words MS_ERR.base, .words MS_ECC_COUNT.base]
  | .epochRerun _ => completionParts ++ [.reTiles, .reSlots, .clGroups, .words TQ_RESULT_CFG.base, .words RE_TILE_STATUS.base,
      .words MF_SLOT_STATUS.base, .words CL_GROUP_STATUS.base, .words CL_CONTEXT_STATUS.base]
  | .clear _ _ => [.reTiles, .reSlots]
  | .add _ _ _ => originateParts ++ eventParts ++ [.msMoorings, .reTiles, .clGroups, .words TQ_RESULT_CFG.base,
      .words RE_ERR.base, .words MF_ERR.base, .words MF_SLOT_LATE.base]
  | .check _ _ _ _ => eventParts ++ [.pcPorts, .pcPortCount, .fhRecoveries, .reSlots, .clGroups, .words TQ_RESULT_CFG.base,
      .words RE_ERR.base, .words RE_CHECK_COUNT.base, .words MF_ERR.base, .words MF_SLOT_LATE.base, .words FH_REC_STATUS.base]
  | .round _ _ _ _ => eventParts ++ [.pcPorts, .pcPortCount, .fhRecoveries, .reTiles, .reSlots, .clGroups,
      .words TQ_RESULT_CFG.base, .words RE_ERR.base, .words RE_CHECK_COUNT.base, .words MF_ERR.base, .words MF_SLOT_LATE.base,
      .words FH_REC_STATUS.base]
  | .send _ _ => sendParts
  | .mload _ _ _ => lostStripeParts ++ [.pcPorts, .pcPortCount, .msHbm, .msLines, .msCombining, .reTiles, .reSlots, .clGroups,
      .words TQ_RESULT_CFG.base, .words MF_ERR.base, .words MF_SLOT_LATE.base, .words MS_CACHE_STATUS.base]
  | .proj _ _ => eventParts ++ [.pcPorts, .pcPortCount, .reTiles, .reSlots, .clGroups, .drawn, .words TQ_RESULT_CFG.base,
      .words MF_ERR.base, .words MF_SLOT_LATE.base]
  | .pcheck _ _ _ => eventParts ++ [.pcPorts, .pcPortCount, .fhRecoveries, .reTiles, .reSlots, .clGroups,
      .words TQ_RESULT_CFG.base, .words RE_ERR.base, .words RE_CHECK_COUNT.base, .words MF_ERR.base, .words MF_SLOT_LATE.base,
      .words FH_REC_STATUS.base]
  | .spill _ _ _ => memoryParts ++ [.pcPorts, .pcPortCount, .reSlots, .clGroups, .words TQ_RESULT_CFG.base, .words RE_ERR.base,
      .words MF_ERR.base, .words MF_SLOT_LATE.base]
  | .fill _ _ _ => lostStripeParts ++ [.pcPorts, .pcPortCount, .msHbm, .msLines, .msCombining, .reTiles, .reSlots, .clGroups,
      .words TQ_RESULT_CFG.base, .words MF_ERR.base, .words MF_SLOT_LATE.base, .words MS_CACHE_STATUS.base]
  | .repeat _ _ => [.reSlots]
  | .gen _ _ => [.reTiles, .drawn]
  | .tidelineEvaluation _ _ _ _ => eventParts ++ [.pmRamping, .pmDwell, .pmActions, .pmEnergy, .pmBudget,
      .words MF_DIE_STATUS.base, .words PM_ERR.base, .words PM_OVERRIDE.base, .words PM_PKG_ENERGY.base,
      .words PM_RED_STATUS.base, .words PM_DIE_STATUS.base]
  | .voltageRampDone _ => [.pmRamping, .words MF_DIE_STATUS.base]
  | .variantChange _ => [.words MF_DIE_STATUS.base, .words PM_RED_STATUS.base]
  | .sentinelRun _ _ _ _ => spareParts ++ [.fhTilesRetired, .fhRecoveries, .reTiles, .rePasses, .drawn, .words MF_ERR.base,
      .words MF_SENTINEL_STATUS.base, .words FH_REC_STATUS.base]
  | .lockstepEnable _ => eventParts ++ [.fhBridges, .reOwn, .rePeer, .words MF_LS_CFG.base, .words MF_LS_STATUS.base]
  | .lockstepDigestReceived _ _ _ => eventParts ++ [.pcPorts, .pcPortCount, .reOwn, .rePeer, .words MF_LS_STATUS.base,
      .words MF_LS_EPOCH.base, .words MF_LS_TILE.base]
  | .lockstepPeerTimeout _ => eventParts ++ [.reOwn, .words MF_LS_STATUS.base]
  | .lockstepMismatchClear _ => eventParts ++ [.fhBridges, .words MF_LS_STATUS.base]
  | .replayTimer _ _ _ => originateParts ++ eventParts ++ [.msMoorings, .reTiles, .clGroups, .words CL_ERR.base]
  | .replayRequestReceived _ _ _ => sendParts ++ contextParts ++ dropParts ++ [.words PC_LINK_ERR.base]
  | .hopAckReceived _ _ _ => sendParts ++ contextParts ++ dropParts ++ [.words PC_LINK_ERR.base]
  | .resultWriteReceived _ _ _ => dropParts ++ originateParts ++ [.clGroups, .words PC_LINK_ERR.base, .words CL_ERR.base,
      .words CL_DROP.base]
  | .broadcastReceived _ _ _ => dropParts ++ contextParts ++ [.words PC_LINK_ERR.base, .words CL_DROP.base]
  | .broadcastResend _ => originateParts ++ eventParts ++ [.clGroups, .words CL_ERR.base]
  | .retainedGroupExpiry _ => [.clGroups, .words CL_GROUP_STATUS.base, .words CL_CONTEXT_STATUS.base]
  | .mooringCheckpoint _ => [.msCheckpoints]
  | .cacheResize _ _ => lostStripeParts ++ [.fhBridges, .msHbm, .msLines, .words PC_BUF_ERR.base, .words MS_CACHE_CFG.base,
      .words MS_CACHE_STATUS.base]
  | .cacheResizeDone _ => [.words MS_CACHE_STATUS.base]
  | .hintRangeSet _ _ _ => eventParts ++ [.fhBridges, .words MS_ERR.base, .words MS_HINT_RANGE.base]
  | .wcbFlush _ _ => memoryParts
  | .hbmReadComplete _ _ => lostStripeParts ++ [.msHbm, .msHbmStacks]
  | .patrolScrub _ _ => lostStripeParts ++ [.msHbm, .msHbmStacks]
  | .hbmRetrainRequest _ _ => readinessParts ++ [.fhBridges, .msHbm, .msLines, .msAtomic, .msCombining, .msUnreadable,
      .msReread, .msHbmStacks, .words MS_CACHE_STATUS.base, .words MS_HBM_CTL.base, .words MS_HBM_STATUS.base,
      .words MS_BAD_STRIPE.base, .words FH_SPARE_STATUS.base]
  | .hbmRetrainStart _ => [.msHbmStacks, .words MS_HBM_STATUS.base]
  | .hbmPhyRetrainDone _ _ _ => readinessParts ++ [.fhChannelsErased, .msHbm, .msLines, .msAtomic, .msCombining, .msUnreadable,
      .msReread, .msHbmStacks, .words MS_CACHE_STATUS.base, .words MS_HBM_CTL.base, .words MS_HBM_STATUS.base,
      .words MS_BAD_STRIPE.base, .words FH_SPARE_STATUS.base]
  | .hbmRetrainDone _ => readinessParts ++ [.msHbm, .msLines, .msAtomic, .msCombining, .msUnreadable, .msReread, .msHbmStacks,
      .words MS_CACHE_STATUS.base, .words MS_HBM_CTL.base, .words MS_HBM_STATUS.base, .words MS_BAD_STRIPE.base,
      .words FH_SPARE_STATUS.base]
  | .hbmTestEnter _ _ => readinessParts ++ [.fhBridges, .msHbm, .msLines, .msAtomic, .msCombining, .msUnreadable, .msReread,
      .msHbmStacks, .words MS_CACHE_STATUS.base, .words MS_HBM_CTL.base, .words MS_HBM_STATUS.base, .words MS_BAD_STRIPE.base,
      .words FH_SPARE_STATUS.base]
  | .hbmTestShift _ _ => eventParts ++ [.fhBridges, .words MS_HBM_TEST_CMD.base]
  | .hbmTestShiftDone _ _ => [.words MS_HBM_TEST_CMD.base, .words MS_HBM_TEST_DATA.base]
  | .hbmTestExit _ _ => readinessParts ++ [.fhBridges, .msHbm, .msLines, .msAtomic, .msCombining, .msUnreadable, .msReread,
      .msHbmStacks, .words MS_CACHE_STATUS.base, .words MS_HBM_CTL.base, .words MS_HBM_STATUS.base, .words MS_BAD_STRIPE.base,
      .words FH_SPARE_STATUS.base]
  | .flowEnable _ _ => eventParts ++ [.fhBridges, .words MS_ERR.base, .words MS_FLOW_CFG.base]
  | .flowEntryFlush _ _ => memoryParts ++ [.msFlows, .words MS_FLOW_LOST.base]
  | .engineDownFrame _ _ _ => wavelengthLossParts ++ [.words OC_ENGINE_STATUS.base]
  | .engineUpFrame _ _ => moveEndParts ++ [.ocRings, .ocCalTemp, .words OC_ENGINE_STATUS.base, .words OC_FIBRE_MAP.base]
  | .engineHoldExpiry _ => readinessParts ++ [.pcPorts, .pcFrames, .pcPortCount, .tqFences, .words TQ_RESULT_CFG.base]
  | .laserDownFrame _ => wavelengthLossParts ++ [.ocLasers, .ocLaserSeq]
  | .laserUpFrame _ _ => wavelengthLossParts ++ [.fhLasersRetired, .ocLasers, .words OC_LASER_MODULE_STATUS.base,
      .words OC_LASER_STATUS.base]
  | .laserLinkTimeout _ => readinessParts ++ [.pcPorts, .pcFrames, .pcPortCount, .tqFences, .words TQ_RESULT_CFG.base,
      .words OC_ERR.base, .words OC_LASER_MODULE_STATUS.base]
  | .laserTrendSample _ => wavelengthLossParts ++ [.fhLasersRetired, .ocLasers, .words OC_LASER_STATUS.base]
  | .laserSpareAtPower _ _ _ => wavelengthLossParts ++ [.fhLasersRetired, .ocLasers, .words OC_LASER_STATUS.base]
  | .laserSafetyCut _ _ => wavelengthLossParts ++ [.fhLasersRetired, .ocLasers, .words OC_LASER_MODULE_STATUS.base,
      .words OC_LASER_STATUS.base, .words PM_ERR.base, .words PM_OVERRIDE.base]
  | .moveRequest _ _ _ => [.pcPorts, .pcPortCount, .ocEngines, .ocGranted, .outputs]
  | .moveGrant _ _ _ => [.pcPorts, .pcPortCount, .ocEngines, .ocMoves, .outputs]
  | .moveRefuse _ _ _ => moveEndParts ++ [.pcPorts, .pcPortCount, .ocCalTemp, .words OC_FIBRE_MAP.base]
  | .moveAnswerTimeout _ => moveEndParts ++ [.pcPorts, .pcPortCount, .ocCalTemp, .words OC_FIBRE_MAP.base]
  | .calibrationStart _ => [.pcPorts, .pcPortCount, .ocEngines, .ocMoves, .ocCalTemp, .drawn, .outputs, .words OC_FIBRE_MAP.base]
  | .calibrationDone _ _ _ _ => [.ocRings, .ocEngines, .ocCalibrated, .ocCalTemp, .words OC_FIBRE_MAP.base]
  | .fordWindow _ => moveEndParts ++ [.pcPorts, .pcPortCount, .ocRings, .ocCircuits, .ocPairs, .ocCalTemp, .drawn,
      .words PC_PORT_STATUS.base, .words OC_FORD_CIRCUIT.base, .words OC_FIBRE_MAP.base, .words OC_FIBRE_RX_MAP.base]
  | .fordAccept _ _ _ => [.pcPorts, .pcPortCount, .ocCircuits, .outputs, .words OC_FORD_CIRCUIT.base]
  | .fordDecline _ _ _ => eventParts ++ [.pcPorts, .pcPortCount, .ocRings, .ocEngines, .ocCircuits, .ocPairs,
      .words OC_ERR.base, .words OC_FORD_CIRCUIT.base, .words OC_FIBRE_MAP.base, .words OC_FIBRE_RX_MAP.base]
  | .fordAnswerTimeout _ _ => eventParts ++ [.pcPorts, .pcPortCount, .ocRings, .ocEngines, .ocCircuits, .ocPairs,
      .words OC_ERR.base, .words OC_FORD_CIRCUIT.base, .words OC_FIBRE_MAP.base, .words OC_FIBRE_RX_MAP.base]
  | .fordReleased _ _ _ => [.pcPorts, .pcPortCount, .ocRings, .ocEngines, .ocCircuits, .outputs, .words PC_PORT_STATUS.base,
      .words OC_FORD_CIRCUIT.base, .words OC_FIBRE_MAP.base, .words OC_FIBRE_RX_MAP.base]
  | .fordReleaseTimeout _ _ => [.pcPorts, .pcPortCount, .ocRings, .ocEngines, .ocCircuits, .outputs,
      .words PC_PORT_STATUS.base, .words OC_FORD_CIRCUIT.base, .words OC_FIBRE_MAP.base, .words OC_FIBRE_RX_MAP.base]
  | .fordRemoveCmd _ => [.pcPorts, .pcPortCount, .ocRings, .ocEngines, .ocCircuits, .outputs, .words PC_PORT_STATUS.base,
      .words OC_FORD_CIRCUIT.base, .words OC_FIBRE_MAP.base, .words OC_FIBRE_RX_MAP.base]
  | .timeAdjust _ _ => [.tbDom0, .tbDom1, .outputs, .words TB_ERR.base]
  | .timeStep _ _ => readinessParts ++ [.pcFrames, .tqGates, .tbDom0, .tbDom1, .reSlots, .words TQ_ERR.base,
      .words TQ_GATE_STATUS.base, .words TQ_GATE_OPER.base, .words MF_ERR.base, .words MF_SLOT_LATE.base,
      .words TB_STATUS.base, .words TB_ERR.base, .words TB_DOM_CTL.base, .words TB_DOM_INCR.base]
  | .timeStepSettled _ => readinessParts ++ [.tqGates, .tbDom0, .tbDom1, .reSlots, .words TQ_GATE_STATUS.base,
      .words TQ_GATE_OPER.base, .words MF_ERR.base, .words MF_SLOT_LATE.base]
  | .domainEnable _ _ => readinessParts ++ [.pcFrames, .tqGates, .tbDom0, .tbDom1, .reSlots, .words TQ_ERR.base,
      .words TQ_GATE_STATUS.base, .words TQ_GATE_OPER.base, .words MF_ERR.base, .words MF_SLOT_LATE.base,
      .words TB_STATUS.base, .words TB_ERR.base, .words TB_DOM_CTL.base, .words TB_DOM_INCR.base]
  | .domainFollow _ _ => readinessParts ++ [.pcFrames, .tqGates, .tbDom0, .tbDom1, .reSlots, .words TQ_ERR.base,
      .words TQ_GATE_STATUS.base, .words TQ_GATE_OPER.base, .words MF_ERR.base, .words MF_SLOT_LATE.base,
      .words TB_STATUS.base, .words TB_ERR.base, .words TB_DOM_CTL.base, .words TB_DOM_INCR.base]
  | .tclkLost => eventParts ++ [.words TB_STATUS.base, .words TB_ERR.base]
  | .holdoverExpiry => readinessParts ++ [.pcFrames, .tqGates, .tbExpired, .words TQ_ERR.base, .words MF_ERR.base,
      .words TB_STATUS.base, .words TB_ERR.base]
  | .tclkRelock => readinessParts ++ [.tqGates, .tbExpired, .reSlots, .words TQ_GATE_STATUS.base, .words TQ_GATE_OPER.base,
      .words MF_ERR.base, .words MF_SLOT_LATE.base, .words TB_STATUS.base]
  | .replicaCheck _ => eventParts ++ [.tbReplicas, .words TB_ERR.base, .words TB_REPLICA.base]
  | .timeSnapshot _ => [.outputs, .words TB_SNAP_S.base, .words TB_SNAP_NSF.base]
  | .triggerConfigWrite _ _ _ => [.tbTrig, .outputs, .words TB_ERR.base, .words TB_TRIG_CFG.base, .words TB_TRIG_START_S.base,
      .words TB_TRIG_START_NS.base, .words TB_TRIG_PERIOD.base]
  | .triggerOutputChange _ _ => [.tbTrig, .outputs]
  | .ppsOutputPulse _ => [.tbPps, .outputs]
  | .captureEdge _ _ => [.tbCaptures, .tbLostEdge, .words TB_ERR.base]
  | .capturePop _ _ => [.tbCaptures, .outputs, .words TB_ERR.base, .words TB_CAP_CTL.base]
  | .tempEmergency _ _ => eventParts ++ [.pmRamping, .pmActions, .words MF_DIE_STATUS.base, .words PM_ERR.base,
      .words PM_OVERRIDE.base, .words PM_RED_STATUS.base, .words PM_DIE_STATUS.base]
  | .railCurrentLimit _ _ => eventParts ++ [.pmRamping, .pmActions, .words MF_DIE_STATUS.base, .words PM_ERR.base,
      .words PM_OVERRIDE.base, .words PM_RED_STATUS.base, .words PM_DIE_STATUS.base]
  | .safetyRelease _ => [.pmActions, .words PM_RED_STATUS.base]
  | .thermalTrip _ _ _ => [.btStopped, .btTrip, .btThermtripL, .ocLasers, .ocLaserSeq, .outputs]
  | .railFault _ => [.btHeld, .btStopped, .btTrip, .btFaultL, .ocLasers, .ocLaserSeq, .outputs]
  | .coreRefclkLost => [.btStopped, .btCoreRefLost, .btFaultL, .ocLasers, .ocLaserSeq, .outputs]
  | .serdesRefclkLost _ => portDownParts ++ [.btSerdesLost]
  | .serdesRefclkRestored _ => [.btSerdesLost]
  | .bridgeReplay _ _ => [.fhBridges, .outputs]
  | .bridgeRetrain _ => eventParts ++ [.fhBridges]
  | .bridgeRetrainDone _ _ => allBut [.hiNextId, .hiD3hot, .hiAnswering, .hiConfig, .btPor, .btX4, .btTrip, .btCoreRefLost,
      .btSerdesLost, .fhChannelsErased]
  | .dieReset _ => everyRegister ++ portDownParts ++ [.pcMeterCount, .ftEndpoints, .ftLearns, .ftConflicts, .ftFlowlets,
      .tqMeters, .tbReplicas, .fhRecoveries, .fhDiesReset, .msLines, .msAtomic, .msCombining, .msHbmStacks, .msFlows, .reSlots,
      .reAreas, .reSwept, .pmRamping, .pmDwell]
  | .dieResetDone _ _ _ => launchParts ++ [.fhDiesReset, .words RE_ERR.base, .words RE_CHECK_COUNT.base,
      .words MF_DIE_STATUS.base, .words MF_SLOT_DIGEST.base]
  | .laneErrorCheck _ _ _ _ => spareParts ++ [.fhLanesRetired, .fhRecoveries, .fhLaneLocks, .fhLaneErrors,
      .words FH_REC_STATUS.base]
  | .recoveryStart _ _ => eventParts ++ [.pcPorts, .pcPortCount, .fhRecoveries, .reSlots, .clGroups, .words TQ_RESULT_CFG.base,
      .words RE_TILE_STATUS.base, .words MF_ERR.base, .words MF_SLOT_LATE.base, .words FH_REC_STATUS.base]
  | .recoveryStateDone _ _ => laneLossParts ++ contextParts ++ [.fhTilesRetired, .fhRecoveries, .drawn,
      .words PC_LANE_GROUP.base, .words RE_TILE_MAP.base, .words RE_TILE_MAP_GEN.base, .words RE_ERR.base,
      .words FH_REC_STATUS.base]
  | .retireRequest _ => wavelengthLossParts ++ [.fhTilesRetired, .fhLasersRetired, .ocLasers, .words OC_LASER_STATUS.base]
  | .mergeWindowExpiry _ _ => toHostParts ++ [.fhLog, .fhWindows, .fhVectorSent, .words HI_MSIX_PBA.base,
      .words FH_LOG_STATUS.base]
  | .logAck _ => toHostParts ++ [.fhVectorSent, .words HI_MSIX_PBA.base, .words FH_LOG_ACK.base]
  | .progressTick => [.words FH_PROGRESS.base]
  | .lpmImageDone => eventParts ++ [.ftLpm, .words FT_LPM_STATUS.base]
  | .engineEntersHold _ => moveEndParts ++ [.pcPorts, .pcPortCount, .ocRings, .ocCircuits, .ocCalTemp,
      .words PC_PORT_STATUS.base, .words OC_ENGINE_STATUS.base, .words OC_FORD_CIRCUIT.base, .words OC_FIBRE_MAP.base,
      .words OC_FIBRE_RX_MAP.base]
  | .engineLinkRetrained _ => [.words OC_ENGINE_STATUS.base]
  | .domainLocked _ => [.words TB_STATUS.base]
  | .coreRefclkRestored => [.btCoreRefLost]

end Sys2Proof.Machine
end

