-- ==== Sys2Proof/WellFormed.lean ====
section
/-! DEFINITION. Well-formed commands: the operands whose shape the types of Syntax.lean do not fix are as the spec
has them (an access lies in its BAR, a PFC frame carries eight quanta, a stripe has eighteen members). -/

namespace Sys2Proof

/-- R41, R53: an 8-byte aligned offset of the 64 MiB of BAR0. -/
def aligned8 (offset : Nat) : Bool := decide (offset < 0x4000000) && offset % 8 == 0

/-- R53: bytes within the 16 MiB of one window. -/
def windowRange (offset n : Nat) : Bool := decide (offset + n ≤ 0x1000000)

/-- R472: a stripe read tells of eighteen members of 64 bytes. -/
def StripeRead.wf (r : StripeRead) : Bool := r.errors.length == 18 && r.errors.all (fun e => e.length == 64) && r.lost.length == 18 && r.uncorrected.length == 18

/-- A command's operands have the shape the spec gives them. -/
def Instr.wf : Instr → Bool
  | .nop _ => true
  | .regRead _ _ => true
  | .regWrite _ _ => true
  | .dmaToDevice _ _ => true
  | .dmaFromDevice _ _ => true
  | .protUpdate _ _ => true
  | .protCommit _ => true
  | .protGenerationBoundary => true
  | .partitionSet _ => true
  | .partitionDrain _ => true
  | .drainContextRelease _ => true
  | .drainComplete _ => true
  | .ftInsert _ _ => true
  | .ftDelete _ _ => true
  | .lpmInsert _ _ => true
  | .lpmDelete _ _ => true
  | .ftShadowCompare _ _ _ => true
  | .groupRegister _ _ => true
  | .groupRelease _ => true
  | .contextArm _ => true
  | .contextDisarm _ => true
  | .collectiveLaunch _ _ => true
  | .resultAck _ => true
  | .mooringSet _ => true
  | .mooringWait _ => true
  | .atomicCas _ _ => true
  | .atomicAdd _ _ => true
  | .manifestLoad _ _ => true
  | .manifestActivate _ => true
  | .manifestDeactivate _ => true
  | .manifestUnload _ => true
  | .counterSnapshot _ _ => true
  | .faultLogRead _ _ => true
  | .sqTail _ _ => true
  | .cqHead _ _ => true
  | .descriptorFetch _ _ => true
  | .cqModerationTimeout _ => true
  | .ringEnable _ _ => true
  | .ringDisable _ _ => true
  | .gangwayEnable _ _ => true
  | .gangwayClose _ _ => true
  | .gangwayWrite _ offset data => windowRange offset data.length
  | .gangwayRead _ offset length => windowRange offset length
  | .gangwayStatusRead _ => true
  | .gangwayGranuleTimeout _ => true
  | .powerStateD3hot => true
  | .powerStateD0 => true
  | .hostPortReset _ => true
  | .configSpaceReady => true
  | .registerWrite offset _ => aligned8 offset
  | .companionCountRead offset => aligned8 offset
  | .coldReset => true
  | .porRelease _ => true
  | .warmReset _ => true
  | .lockSet _ => true
  | .firmwareStart _ => true
  | .firmwareAbandon _ => true
  | .firmwareCheckDone => true
  | .functionReady _ => true
  | .functionLeavesService _ => true
  | .quoteStart _ => true
  | .quoteDone => true
  | .evbauthIdTimer _ => true
  | .evbauthIdReceived _ _ _ => true
  | .evbauthProofReceived _ _ _ => true
  | .evbauthTimeout _ => true
  | .portEnable _ _ => true
  | .portDisable _ _ => true
  | .laneLayoutWrite _ _ => true
  | .linkFecLock _ => true
  | .portLinkDown _ => true
  | .frameHeaderArrival _ _ _ => true
  | .frameTailArrival _ _ _ => true
  | .schedulerSelect _ => true
  | .frameDeparted _ _ => true
  | .pfcFrameReceived _ _ quanta => quanta.length == 8
  | .pfcXoffRefresh _ _ => true
  | .pfcQuantaExpiry _ _ => true
  | .pauseReceived _ => true
  | .linkInitReceived _ _ => true
  | .linkInitTimer _ => true
  | .initTimeout _ => true
  | .linkStatusReceived _ _ => true
  | .linkStatusTimer _ => true
  | .linkRetryTimeout _ => true
  | .markerReceived _ _ _ => true
  | .laneSwap _ _ => true
  | .slipwaySpill _ => true
  | .slipwayPageFetch _ => true
  | .slipwayFetchDone _ _ => true
  | .fenceRelease _ => true
  | .learn _ => true
  | .learnEnable _ => true
  | .ageSweepVisit _ _ _ => true
  | .tableImageLoadStart _ _ => true
  | .tableImageCheck _ _ => true
  | .tableImageDone _ => true
  | .lpmImageLoadStart _ => true
  | .lpmImageCheck _ => true
  | .sprayGroupCommit _ _ => true
  | .gateCommit _ _ => true
  | .gateChange _ => true
  | .gateCycleStart _ => true
  | .gateEntryEnd _ => true
  | .meterRefill _ _ => true
  | .meterProfileApply _ _ => true
  | .meterRestart _ _ => true
  | .contributionReceived _ _ _ => true
  | .contributionCounted _ _ => true
  | .armWaitExpiry => true
  | .triggerInstant _ => true
  | .epochStart _ => true
  | .epochEnd _ => true
  | .epochRerun _ => true
  | .clear _ _ => true
  | .add _ _ _ => true
  | .check _ _ _ _ => true
  | .round _ _ _ _ => true
  | .send _ _ => true
  | .mload _ _ _ => true
  | .proj _ _ => true
  | .pcheck _ _ _ => true
  | .spill _ _ _ => true
  | .fill _ _ _ => true
  | .repeat _ _ => true
  | .gen _ _ => true
  | .tidelineEvaluation _ dies _ _ => dies.length == 9
  | .voltageRampDone _ => true
  | .variantChange _ => true
  | .sentinelRun _ _ _ _ => true
  | .lockstepEnable _ => true
  | .lockstepDigestReceived _ _ _ => true
  | .lockstepPeerTimeout _ => true
  | .lockstepMismatchClear _ => true
  | .replayTimer _ _ _ => true
  | .replayRequestReceived _ _ _ => true
  | .hopAckReceived _ _ _ => true
  | .resultWriteReceived _ _ _ => true
  | .broadcastReceived _ _ _ => true
  | .broadcastResend _ => true
  | .retainedGroupExpiry _ => true
  | .mooringCheckpoint _ => true
  | .cacheResize _ _ => true
  | .cacheResizeDone _ => true
  | .hintRangeSet _ _ _ => true
  | .wcbFlush _ _ => true
  | .hbmReadComplete _ read => read.wf
  | .patrolScrub _ read => read.wf
  | .hbmRetrainRequest _ _ => true
  | .hbmRetrainStart _ => true
  | .hbmPhyRetrainDone _ _ _ => true
  | .hbmRetrainDone _ => true
  | .hbmTestEnter _ _ => true
  | .hbmTestShift _ _ => true
  | .hbmTestShiftDone _ data => decide (data.length ≤ 64)
  | .hbmTestExit _ _ => true
  | .flowEnable _ _ => true
  | .flowEntryFlush _ _ => true
  | .engineDownFrame _ _ _ => true
  | .engineUpFrame _ _ => true
  | .engineHoldExpiry _ => true
  | .laserDownFrame _ => true
  | .laserUpFrame _ _ => true
  | .laserLinkTimeout _ => true
  | .laserTrendSample _ => true
  | .laserSpareAtPower _ _ _ => true
  | .laserSafetyCut _ _ => true
  | .moveRequest _ _ _ => true
  | .moveGrant _ _ _ => true
  | .moveRefuse _ _ _ => true
  | .moveAnswerTimeout _ => true
  | .calibrationStart _ => true
  | .calibrationDone _ _ _ _ => true
  | .fordWindow _ => true
  | .fordAccept _ _ _ => true
  | .fordDecline _ _ _ => true
  | .fordAnswerTimeout _ _ => true
  | .fordReleased _ _ _ => true
  | .fordReleaseTimeout _ _ => true
  | .fordRemoveCmd _ => true
  | .timeAdjust _ _ => true
  | .timeStep _ _ => true
  | .timeStepSettled _ => true
  | .domainEnable _ _ => true
  | .domainFollow _ _ => true
  | .tclkLost => true
  | .holdoverExpiry => true
  | .tclkRelock => true
  | .replicaCheck drift => decide (drift.map (fun x => x.1)).Nodup
  | .timeSnapshot _ => true
  | .triggerConfigWrite _ _ _ => true
  | .triggerOutputChange _ _ => true
  | .ppsOutputPulse _ => true
  | .captureEdge _ _ => true
  | .capturePop _ _ => true
  | .tempEmergency _ _ => true
  | .railCurrentLimit _ _ => true
  | .safetyRelease _ => true
  | .thermalTrip _ _ _ => true
  | .railFault _ => true
  | .coreRefclkLost => true
  | .serdesRefclkLost _ => true
  | .serdesRefclkRestored _ => true
  | .bridgeReplay _ _ => true
  | .bridgeRetrain _ => true
  | .bridgeRetrainDone _ _ => true
  | .dieReset _ => true
  | .dieResetDone _ copies _ => decide copies.Nodup
  | .laneErrorCheck _ _ _ _ => true
  | .recoveryStart _ _ => true
  | .recoveryStateDone _ lost => decide lost.Nodup
  | .retireRequest _ => true
  | .mergeWindowExpiry _ _ => true
  | .logAck _ => true
  | .progressTick => true
  | .lpmImageDone => true
  | .engineEntersHold _ => true
  | .engineLinkRetrained _ => true
  | .domainLocked _ => true
  | .coreRefclkRestored => true

end Sys2Proof
end

