-- ==== Sys2Proof/Safety.lean ====
section
/-! DEFINITION. What claims about runs speak of: the canonical form of the tables that hold the registers and HBM, and
what every step leaves to the steps after it (the waiting commands, the outputs already made, the draws already taken). And the words
in which the statements of single commands are made: a descriptor admitted and answered, a frame sent, an instruction passed. -/

namespace Sys2Proof.Machine

/-- The register table lists its offsets in rising order, and none that holds its reset word. -/
def RegsOk (m : List (Nat × Word)) : Prop := swf resetWord m = true

/-- The HBM table lists its bytes in rising order, and none that is zero. -/
def HbmOk (m : List (Nat × Byte)) : Prop := swf (fun _ => 0) m = true

/-- The state's tables are in canonical form, so that equal contents are equal data. -/
structure State.Canonical (s : State) : Prop where
  regs : RegsOk s.regs
  hbm : HbmOk s.ms.hbm

/-- Every waiting command is well formed. -/
def State.QueueOk (s : State) : Prop := ∀ c ∈ s.pending, c.wf = true

/-- What a command leaves to those after it: the queue as it stands, the outputs made before it, and draws never
taken twice; and it keeps the canonical form. -/
structure Keeps (s t : State) : Prop where
  pending : t.pending = s.pending
  out : s.out <+: t.out
  free : s.free ≤ t.free
  regs : RegsOk s.regs → RegsOk t.regs
  hbm : HbmOk s.ms.hbm → HbmOk t.ms.hbm

/-! ### What statements of a command speak of -/

/-- A descriptor as it stands once it has passed check 1 and started (R98). -/
def Desc.begun (d : Desc) (s : State) : Desc := { d with started := true, gen := s.rd HI_PROT_GEN_ACTIVE 0 }

/-- The state in which a descriptor of the list has started. -/
def State.startDesc (s : State) (d : Desc) : State := s.updateDesc d (d.begun s)

/-- R68, R79: descriptor `d` of this opcode is the next of ring `n` to start, none of that opcode waits at its read, nothing keeps it
from starting, it passes all ten checks with what its image adds to them, and it moves data or needs none. -/
structure AdmittedWith (s : State) (n opcode : Nat) (reads : Bool) (image : ImageTest) (d : Desc) : Prop where
  live : s.live = true
  fresh : s.readingDesc n (fun e => e.opcode == opcode) = none
  next : s.nextDesc n = some d
  op : d.opcode = opcode
  fence : d.fence = true → s.earlierPending d = false
  reached : s.descHeld d = false
  awake : reads = true → s.hi.d3hot = false
  passes : (s.startDesc d).checks (d.begun s) image = none
  moves : d.movesNothing = false

/-- R79: descriptor `d` of this opcode is the next of ring `n` to start, and fails a check: its status and DETAIL. -/
structure RefusedWith (s : State) (n opcode : Nat) (image : ImageTest) (d : Desc) (st : Status) (detail : Nat) : Prop where
  live : s.live = true
  fresh : s.readingDesc n (fun e => e.opcode == opcode) = none
  next : s.nextDesc n = some d
  op : d.opcode = opcode
  fence : d.fence = true → s.earlierPending d = false
  reached : s.descHeld d = false
  awake : s.hi.d3hot = false
  fails : (s.startDesc d).checks (d.begun s) image = some (st, detail)

/-- A descriptor that has no image to test. -/
abbrev Admitted (s : State) (n opcode : Nat) (reads : Bool) (d : Desc) : Prop := AdmittedWith s n opcode reads ImageTest.clean d

/-- R24, R46: an access to the register at `off` is performed at once: its die is reached, and no bridge on the way retrains. -/
def State.performs (s : State) (off : Nat) : Bool := s.atReach off && (s.closedOn (routeOf 8 (dieOf off))).isEmpty

/-- R24: no bridge to the target of an enabled window retrains. -/
def State.windowReached (s : State) (k : Nat) : Prop := s.flag HI_GW_TARGET_ENABLE k = true → s.routeOpen 8 (min (s.windowDie k) 8) = true

/-- An output that a step made. -/
def Emitted (s t : State) (o : Out) : Prop := o ∈ t.out.drop s.out.length

/-- R52: a write or a message that a step made toward the host, held while the function is in D3hot. -/
def SentHost (s t : State) (o : Out) : Prop := if s.hi.d3hot = true then o ∈ t.hi.held else Emitted s t o

/-- R51: a step wrote the data of descriptor `d` to host memory, with Relaxed Ordering. -/
def WroteHost (s t : State) (d : Desc) (data : List Byte) : Prop := SentHost s t (.hostWrite d.hostAddr data true)

/-- R69, R70, R81: a step wrote the completion of descriptor `d`: 32 bytes with its TAG and index, this status and this RESULT went to a
slot of its ring's CQ. -/
def Completed (s t : State) (d : Desc) (st : Status) (result : Nat) : Prop :=
  ∃ slot address data, data.length = 32 ∧ le data 0 4 = d.tag ∧ le data 4 2 = statusCode st ∧ le data 12 4 = d.index % 2 ^ 32 ∧ le data 16 8 = result ∧
    SentHost s t (.completion d.ring slot address data)

/-- R69: a step ended descriptor `d` with this status and RESULT: its completion is written, and it is fetched no longer. -/
def Answered (s t : State) (d : Desc) (st : Status) (result : Nat) : Prop :=
  Completed s t d st result ∧ ∀ e ∈ t.hi.descs, e.id ≠ d.id

/-- R478: a line of the caches: its sectors are listed once each by their place in the stripe, and each is 32 bytes. -/
def Line.Ok (x : Line) : Prop := srising 0 x.sectors = true ∧ ∀ kb ∈ x.sectors, kb.1 < 32 ∧ kb.2.length = 32

/-- R478: every sector has at most one copy that is newer than HBM's: the lines of the cache share, of the atomic store and of the
write-combining buffer are of different stripes, a sector of a line that is not dirty is as HBM holds it, every sector of the
write-combining buffer is newer, and a cache share that is empty or being resized (R467) holds no line. -/
structure State.Coherent (s : State) : Prop where
  one : ((s.ms.lines ++ s.ms.atomic ++ s.ms.combining).map (fun x => x.stripe)).Nodup
  ok : ∀ x ∈ s.ms.lines ++ s.ms.atomic ++ s.ms.combining, x.Ok
  clean : ∀ x ∈ s.ms.lines ++ s.ms.atomic, ∀ kb ∈ x.sectors, x.dirty.testBit kb.1 = false → kb.2 = s.farSector x.stripe kb.1
  newer : ∀ x ∈ s.ms.combining, ∀ kb ∈ x.sectors, x.dirty.testBit kb.1 = true
  off : ∀ x ∈ s.ms.lines, s.cacheOn (stripeDie x.stripe) = true

/-- R89, R91: the bytes that window `k` held have reached a target that takes writes, where the window held each byte once. -/
def HeldReached (s t : State) (k : Nat) : Prop :=
  let kind := s.rd HI_GW_TARGET_TARGET_KIND k
  let unit := s.rd HI_GW_TARGET_TARGET_UNIT k
  kind = 2 ∨ kind = 3 ∨ kind = 5 → s.targetOpen kind unit = true → ((s.heldBytes k).map (fun x => x.1)).Nodup →
    ∀ x ∈ s.heldBytes k, t.targetByte kind unit x.1 = x.2.1

/-- A good frame, without a stomp, that a step sent on a port, under whatever link tag. -/
def SentFrame (s t : State) (n : Nat) (bytes : List Byte) : Prop := ∃ tag, Emitted s t (frameOut n tag bytes none)

/-- R186, R194, R200: a step handed port `n` a frame of its own. On an initialised fabric link it takes its turn behind those that wait,
and they go out in order as long as wire, credit and store let the next one go; on any other link it goes out at once. -/
def SentOwn (s t : State) (n : Nat) (bytes : List Byte) : Prop :=
  if s.isFabric n = true ∧ (s.port n).complete = true then
    ∃ k, (t.port n).own = ((s.port n).own ++ [bytes]).drop k ∧ (∀ b ∈ ((s.port n).own ++ [bytes]).take k, SentFrame s t n b) ∧
      ∀ b, (t.port n).own.head? = some b → t.ownLets n b = false
  else SentFrame s t n bytes

/-- The frames of a list went out on a port in order, each under its own number. -/
def ResentInOrder (s t : State) (n : Nat) (held : List Held) : Prop :=
  (held.map (fun h => frameOut n (some (makeTag h.seq true h.net)) h.bytes h.stomp)).Sublist (t.out.drop s.out.length)

/-- Pipeline `p` holds the same endpoint table. -/
def SameTable (s t : State) (p : Nat) : Prop := ∀ w < 4, ∀ i < 0x100000, t.slot p w i = s.slot p w i

/-- Pipeline `p` holds the same endpoint table but for the slot `c`, which holds this image. -/
def TableSet (s t : State) (p : Nat) (c : Nat × Nat) (img : List Byte) : Prop :=
  t.slot p c.1 c.2 = img ∧ ∀ w < 4, ∀ i < 0x100000, (w, i) ≠ c → t.slot p w i = s.slot p w i

/-- Every entry of pipeline `p`'s table stands where it stood, or in another slot that its key hashes to. -/
def EntriesKept (s t : State) (p : Nat) : Prop :=
  ∀ w < 4, ∀ i < 0x100000, allZero (s.slot p w i) = false →
    t.slot p w i = s.slot p w i ∨ ∃ v < 4, t.slot p v (s.hashSlot p v (imgKey (s.slot p w i))) = s.slot p w i

/-- R225: of the four reports that a RESULT has for pipeline `p`, the `k`-th stands and no other. -/
def Reports (r p k : Nat) : Prop := ∀ j < 4, r.testBit (8 * j + p) = decide (j = k)

/-- R373: tile `x.t` of the epoch that runs in slot `k` has passed the instruction `x`. -/
def Passed (s t : State) (k : Nat) (x : Issue) : Prop :=
  ∃ e f, (s.mslot k).run = some e ∧ (t.mslot k).run = some f ∧ (f.tile x.t).pos = (e.tile x.t).pass.pos ∧ (f.tile x.t).loop = (e.tile x.t).pass.loop

/-- R391: the epoch that runs in slot `k` is void, and EPOCH_VOID says so. -/
def Voided (t : State) (k : Nat) : Prop := (∃ f, (t.mslot k).run = some f ∧ f.void = true) ∧ t.rd MF_ERR_EPOCH_VOID (k / 64) = 1

/-- R373, R385: instruction `op` stands next in the stream of a tile in slot `k`'s epoch, and works for part `a` of it. -/
structure Works (s : State) (k tile op : Nat) (x : Issue) (a : LiveSlot) : Prop where
  live : s.live = true
  next : s.issue k tile = some x
  op : x.i.op = op
  work : x.work = some a

/-- R316: every tile but one is as it was. -/
def OtherTiles (s t : State) (tile : Nat) : Prop := ∀ u, u ≠ tile → t.tile u = s.tile u

/-- R390, R506: a read of `n` bytes of device memory for an epoch of slot `k` fails: it comes late, a bridge on its way retrains, or a
stripe of it cannot be corrected. -/
def EpochReadFails (s : State) (onTime : Bool) (k a n : Nat) : Prop :=
  onTime = false ∨ (∃ u ∈ rangeStripes a n, s.passes (6 + k / 64) (4 + stripeDie u) = false) ∨ (s.firstLost a n).isSome = true

/-- R431, R195: a port takes a Sceca packet of a type that is addressed to the device: its link is up and idle, a fabric port accepts it at
its tag, and nothing drops it at its head. -/
structure Taken (s : State) (n : Nat) (tag : Option (BitVec 48)) (type : Nat) (packet : List Byte) (h : Hdr) (c : Sceca) : Prop where
  live : s.live = true
  up : s.link n = 3
  idle : (s.port n).arriving = none ∧ s.inflight n = none
  named : s.controlPacket type packet = some (h, c)
  tagged : s.isFabric n = true → s.tagVerdict n tag = .accept
  good : s.refusedIn n (if s.isFabric n = true then tagVn (tag.getD 0).toNat else 0) packet c = none

/-- A packet's IPv6 source. -/
def Hdr.source (h : Hdr) : List Byte := match h.ip with
  | some v => v.src
  | none => []

/-- R214: a good frame of `len` bytes was counted as received on port `n`. -/
def CountedIn (s t : State) (n len : Nat) : Prop :=
  t.counter 1 (64 * n) = (s.counter 1 (64 * n) + 1) % 2 ^ 64 ∧ t.counter 1 (64 * n + 1) = (s.counter 1 (64 * n + 1) + len) % 2 ^ 64

/-- R188, R528: port `n` takes a well-formed optical message of a type: a link is there, its link layer takes the frame, which leaves `u`. -/
structure MessageTaken (s u : State) (n : Nat) (tag : Option (BitVec 48)) (p : List Byte) (type : Nat) : Prop where
  live : s.live = true
  up : 2 ≤ s.link n
  consumed : s.linkConsume n tag (p.length + 18) = (true, u)
  good : ocGood type p = true

/-- R188, R528: an optical message that is not taken: where no link is there it is lost, and otherwise only the link layer has seen it. -/
def MessageIgnored (s : State) (n : Nat) (tag : Option (BitVec 48)) (p : List Byte) (type : Nat) (c : Instr) : Prop :=
  (s.link n < 2 → exec c s = .next s) ∧
  ∀ b u, 2 ≤ s.link n → s.linkConsume n tag (p.length + 18) = (b, u) → (b = false ∨ ocGood type p = false) → exec c s = .next u

/-- R532: a lane was moved without a bridge: its marker went out, its four bits of the map hold the new wavelength, MOVE_UNBRIDGED is set,
and the old wavelength is FREE, to be swept where the lane's ring had come unlocked, or used no more where it had failed. -/
def MovedUnbridged (s t : State) (f : Nat) (m : Move) : Prop :=
  t.moveOf f = none ∧ t.txWl f = withBits (s.txWl f) (4 * m.lane + 3) (4 * m.lane) m.to_ % 2 ^ 32 ∧ t.rd OC_ERR_MOVE_UNBRIDGED 0 = 1 ∧
  SentOwn s t m.port m.swapFrame ∧
  match m.cause with
  | .laser => t.txFree f = m.from_ % 16 ∧ t.calW f = s.calW f
  | .failed => t.txFree f = 15 ∧ t.calW f = s.calW f
  | _ => t.txFree f = m.from_ % 16 ∧ t.calW f = m.from_ % 16

/-- R547, R203: the leaves of a removed circuit have released it: on a side whose link is up the device's FORD_REMOVE marker went out, and
the circuit waits for the leaf's; with neither link up it is FREE. -/
def RemovalGoesOn (s t : State) (k : Nat) : Prop :=
  t.circuitState k = (if s.link (s.circuitPort k 0) = 3 ∨ s.link (s.circuitPort k 1) = 3 then 4 else 0) ∧
  (s.circuitPort k 0 ≠ s.circuitPort k 1 → ∀ side < 2, s.link (s.circuitPort k side) = 3 →
    SentOwn s t (s.circuitPort k side) (markerFrame (s.circuitPort k side) 4 ((s.circuit k).lanes side).2 (s.rd OC_FORD_CIRCUIT_ID k)))

/-- R529, R547: on a side of a circuit whose link is up its leaf was sent FORD_REMOVE. -/
def TakenBack (s t : State) (k side : Nat) : Prop :=
  s.link (s.circuitPort k side) = 3 → SentOwn s t (s.circuitPort k side) (s.ocFrame (s.circuitPort k side) 0x15 (s.rd OC_FORD_CIRCUIT_ID k)
    ((s.circuit k).lanes side).1 ((s.circuit k).lanes side).2 (s.rd OC_FORD_CIRCUIT_WAVELENGTH k) 0 0 0)

/-- R606, R608, R628: a physical lane was judged to have failed. One that is retired already changes nothing; the recovery of a failed lane's
logical lane is queued, or goes on; an idle spare is retired. -/
def LaneFailed (s t : State) (p : Nat) : Prop :=
  let g := (laneOfPhysical p).1
  let i := (laneOfPhysical p).2
  if p ∈ s.fh.lanesRetired then t.fh.recoveries = s.fh.recoveries ∧ t.fh.lanesRetired = s.fh.lanesRetired ∧ t.regs = s.regs
  else if i = 8 then
    (s.rd PC_LANE_GROUP_SPARE_FOR g = 15 → physicalLane g 8 ∈ t.fh.lanesRetired ∧ t.fh.recoveries = s.fh.recoveries) ∧
    (s.rd PC_LANE_GROUP_SPARE_FOR g ≠ 15 → ∃ r, t.recoveryOf 1 (8 * g + s.rd PC_LANE_GROUP_SPARE_FOR g) = some r)
  else ∃ r, t.recoveryOf 1 (8 * g + i) = some r ∧ (s.recoveryOf 1 (8 * g + i) = none → r.state = 0 ∧ r.old = p)

end Sys2Proof.Machine
end

