-- ==== Sys2Proof/Certificates/Slice0/Obligations.lean ====
section
/-! DEFINITION. What is claimed of the block, for the provers: each statement from the numbered rules that its docstring names. -/

open Sys2Proof Sys2Proof.Machine

/-- A step runs the command at the front of the queue, on the state that has the rest of the queue, and answers what it answers. With no
command waiting one edge of the time clock passes (the model's choice, log 3): a domain that runs by itself advances by its increment,
INCR slewed within its bound, and REMAINING shrinks by the slew (R556, R560, R561); one that is stopped stands. -/
def Obligations.StepsTakeTheFront : Prop :=
  (∀ (s : State) (c : Instr) (rest : List Instr), step { s with pending := c :: rest } = exec c { s with pending := rest }) ∧
  (∀ s : State, s.pending = [] → step s = .next (tick s)) ∧
  (∀ (s : State) (d : Fin 2), s.bt.por = true → s.bt.held = false → (s.dom d).running = true → s.follows d = false →
    (s.dom d).frac < 2 ^ 32 → (s.dom d).ns < 10 ^ 9 → (s.dom d).sec + 1 < 2 ^ 48 → (s.freeIncr d).1 ≤ 10 ^ 9 * 2 ^ 32 →
    ((tick s).dom d).whole = (s.dom d).whole + (s.freeIncr d).1 ∧ ((tick s).dom d).ns < 10 ^ 9 ∧ ((tick s).dom d).frac < 2 ^ 32 ∧
    ((tick s).dom d).remaining = (s.freeIncr d).2 ∧
    ((s.dom d).remaining = 0 → (s.freeIncr d).1 = s.rd TB_DOM_INCR_INCR d)) ∧
  (∀ (s : State) (d : Fin 2), (s.dom d).running = false → (tick s).dom d = s.dom d)

/-- R94, R100, R106: the machine right after a cold reset. Every register word reads its reset value; ring 0 alone of the
protection table's resources is assigned, to P0 with partition 0xFFFF; every partition is FREE; all of HBM and every mooring is clear;
no command waits, and the tables and caches are in form. HBM's bytes (log 1) and the register words for which the spec states no reset
value (logs 2 and 157) are the model's choice. -/
def Obligations.ResetHolds : Prop :=
  (∀ off, State.reset.word off = resetWord off) ∧
  State.reset.protEntry 1 0 = ⟨0, 0xFFFF, 0, 0⟩ ∧
  (∀ kind index, ¬ (kind = 1 ∧ index = 0) → index < 0x100000 → (State.reset.protEntry kind index).level = 3) ∧
  (∀ p, (State.reset.part p).state = .free) ∧
  (∀ a, State.reset.memByte a = 0) ∧
  (∀ m, State.reset.mooring m = ⟨0, 0, 0⟩) ∧
  State.reset.pending = [] ∧ State.reset.Canonical ∧ State.reset.QueueOk ∧ State.reset.Coherent

/-- Every step, from every state and whatever command is in front, keeps the register table and the HBM table in canonical form and
every waiting command well formed. It takes no command but the one in front, takes back no output already made, and never takes one
draw of an open value twice. -/
def Obligations.EveryStepKeepsTheForms : Prop :=
  ∀ s t : State, step s = .next t →
    (s.Canonical → t.Canonical) ∧ (s.QueueOk → t.QueueOk) ∧ t.pending = s.pending.tail ∧ s.out <+: t.out ∧ s.free ≤ t.free

/-- R95: the entry of ring 0 stands, in the table in force and in the staging copy, through every step of every command. R5: so do
BT_DEVICE_ID and BT_DEVICE_SERIAL. -/
def Obligations.WhatIsFixedStands : Prop :=
  ∀ s t : State, step s = .next t →
    (s.protEntry 1 0 = ⟨0, 0xFFFF, 0, 0⟩ → sget (ProtEntry.reset (protKey 1 0)) s.hi.staging (protKey 1 0) = ⟨0, 0xFFFF, 0, 0⟩ →
      t.protEntry 1 0 = ⟨0, 0xFFFF, 0, 0⟩ ∧ sget (ProtEntry.reset (protKey 1 0)) t.hi.staging (protKey 1 0) = ⟨0, 0xFFFF, 0, 0⟩) ∧
    (s.Canonical → ∀ r ∈ [BT_DEVICE_ID, BT_DEVICE_SERIAL], s.word r.base = resetWord r.base → t.word r.base = resetWord r.base)

/-- The frame of every command: whatever its operands and the state, a command leaves unchanged every register array, table, memory,
queue and engine of the state that `touches` does not list for it. -/
def Obligations.CommandsTouchOnlyTheirState : Prop :=
  ∀ (c : Instr) (s t : State), exec c s = .next t → Unchanged (touches c) s t

/-- R478, R480, R481: whatever its hint, and whatever lines it allocates, evicts or combines, a DMA_TO_DEVICE to HBM leaves every
byte that it writes reading as written and every other byte of device memory as it was; a DMA_FROM_DEVICE leaves every byte as it
was. Both keep each sector's copies coherent. -/
def Obligations.MemoryHoldsWhatIsWritten : Prop :=
  (∀ (s : State) (n : Fin 4096) (d : Desc) (bs : List Byte), s.Coherent → Admitted s n 0x03 true d → bs.length = d.length →
    d.u8 24 = 4 →
    ∃ t, exec (.dmaToDevice n (some bs)) s = .next t ∧ t.Coherent ∧
      ∀ a, t.memByte a = if d.u64 32 ≤ a ∧ a < d.u64 32 + bs.length then bs.getD (a - d.u64 32) 0 else s.memByte a) ∧
  (∀ (s : State) (n : Fin 4096) (d : Desc), s.Coherent → Admitted s n 0x04 false d → d.u8 24 = 4 →
    s.firstLost (d.u64 32) d.length = none →
    ∃ t, exec (.dmaFromDevice n true) s = .next t ∧ t.Coherent ∧ (∀ a, t.memByte a = s.memByte a) ∧
      WroteHost s t d (s.memBytes (d.u64 32) d.length))

/-- R70, R81: the c-th completion of a ring goes to slot c mod 2^CQ_LOG2 of its CQ, as one write of 32 bytes there, naturally aligned where
the CQ's base is. Its PHASE is 1 while ⌊c / 2^CQ_LOG2⌋ is even and 0 while it is odd; it carries its descriptor's TAG, index and generation,
its status, RESULT and DETAIL, and the ring's SQ_HEAD, each in its place, and zeros elsewhere. The count of completions moves on by one, and
the descriptor is held no longer. -/
def Obligations.CompletionTakesNextSlot : Prop :=
  ∀ (s : State) (d : Desc) (st : Status) (result detail : Nat), d.silent = false →
    let size := 2 ^ s.rd HI_RING_CFG_CQ_LOG2 d.ring
    let c := (s.ring d.ring).written
    ∃ e : List Byte, SentHost s (s.complete d st result detail)
        (.completion d.ring (c % size) ((s.rd HI_RING_CQ_BASE_ADDR d.ring + 32 * (c % size)) % 2 ^ 64) e) ∧
      e.length = 32 ∧ le e 0 4 = d.tag ∧ le e 4 2 = statusCode st ∧ le e 6 1 = 0 ∧ le e 7 1 = (if c / size % 2 = 0 then 128 else 0) ∧
      le e 8 4 = s.rd HI_RING_STATUS_SQ_HEAD d.ring ∧ le e 12 4 = d.index % 2 ^ 32 ∧ le e 16 8 = result % 2 ^ 64 ∧
      le e 24 4 = d.gen % 2 ^ 32 ∧ le e 28 4 = detail % 2 ^ 32 ∧
      (s.rd HI_RING_CQ_BASE_ADDR d.ring % 32 = 0 → (s.rd HI_RING_CQ_BASE_ADDR d.ring + 32 * (c % size)) % 2 ^ 64 % 32 = 0) ∧
      ((s.complete d st result detail).ring d.ring).written = (c + 1) % 2 ^ 32 ∧
      (∀ x ∈ (s.complete d st result detail).hi.descs, x.id ≠ d.id)

/-- R76, R78, R69: NOP, REG_READ and REG_WRITE run once every check has passed. NOP completes with SUCCESS. REG_READ writes to
HOST_ADDR what reads of its COUNT registers in address order return, and completes with SUCCESS and the bytes moved, or with
HOST_ACCESS_ERROR where host memory does not take them. REG_WRITE of one register that has no rule of its own leaves in it what
the access codes of its fields make of the eight bytes read, and completes with SUCCESS and the bytes moved, or with
HOST_ACCESS_ERROR where host memory cannot be read. -/
def Obligations.NopRegReadRegWriteComplete : Prop :=
  (∀ (s : State) (n : Fin 4096) (d : Desc), Admitted s n 0x00 false d →
    ∃ t, exec (.nop n) s = .next t ∧ Answered s t d .success 0) ∧
  (∀ (s : State) (n : Fin 4096) (d : Desc), Admitted s n 0x01 false d →
    (∃ t, exec (.regRead n true) s = .next t ∧ Answered s t d .success d.length ∧
      WroteHost s t d ((s.startDesc d).readRegs (d.u32 24) (d.u16 28)).1) ∧
    ∃ t, exec (.regRead n false) s = .next t ∧ Answered s t d .hostAccessError 0) ∧
  (∀ (s : State) (n : Fin 4096) (d : Desc) (bs : List Byte) (r : Reg) (i : Nat), Admitted s n 0x02 true d → d.u16 28 = 1 →
    bs.length = d.length → registerAt (d.u32 24) = some (r, i) → r.stride ≠ 4 → s.performs (d.u32 24) = true →
    effects.find? (fun e => e.1.base == r.base) = none → r.base ≠ HI_RING_STATUS.base → r.base ≠ HI_MSIX_PBA.base →
    ∃ t, exec (.regWrite n (some bs)) s = .next t ∧ Answered s t d .success d.length ∧
      (t.word (r.offset i)).toNat = accessWrite r (s.locked (r.offset i)) (s.word (r.offset i)).toNat (le bs 0 8) % 2 ^ 64) ∧
  (∀ (s : State) (n : Fin 4096) (d : Desc), Admitted s n 0x02 true d →
    ∃ t, exec (.regWrite n none) s = .next t ∧ Answered s t d .hostAccessError 0)

/-- R77, R81, R506: DMA_TO_DEVICE into a target that takes writes leaves there what a write of the bytes read at HOST_ADDR to the descriptor's
target address leaves, changes no other table, memory, tile or boot state, and completes with SUCCESS and the bytes moved; into a target
that takes none it changes nothing there and completes with BUSY. A first DMA_TO_DEVICE of the firmware image opens the load.
DMA_FROM_DEVICE writes the bytes of its target to HOST_ADDR and completes with SUCCESS and the bytes moved, or with
DATA_UNCORRECTABLE where a stripe of HBM that it reads cannot be corrected. Either completes with HOST_ACCESS_ERROR, and changes no
target, where the host's side of it fails. -/
def Obligations.DmaCompletes : Prop :=
  (∀ (s : State) (n : Fin 4096) (d : Desc) (bs : List Byte), Admitted s n 0x03 true d → bs.length = d.length → d.u8 24 ≠ 7 →
    let u := (s.startDesc d).targetWrite (d.u8 24) (d.u16 26) (d.u64 32) bs
    ∃ t, exec (.dmaToDevice n (some bs)) s = .next t ∧
      if s.targetOpen (d.u8 24) (d.u16 26) = true then
        Answered s t d .success d.length ∧ t.ft = u.ft ∧ t.ms = u.ms ∧ t.re = u.re ∧ t.bt = u.bt
      else Answered s t d .busy 0 ∧ t.ft = s.ft ∧ t.ms = s.ms ∧ t.re = s.re ∧ t.bt = s.bt) ∧
  (∀ (s : State) (n : Fin 4096) (d : Desc) (bs : List Byte), Admitted s n 0x03 true d → bs.length = d.length → d.u8 24 = 7 →
    let u := (s.startDesc d).openImage.writeImage (d.u64 32) bs
    ∃ t, exec (.dmaToDevice n (some bs)) s = .next t ∧
      if s.imageClosed = false then Answered s t d .success d.length ∧ t.bt = u.bt ∧ t.fwState = fwLoading ∧ t.ft = s.ft ∧ t.ms = s.ms ∧ t.re = s.re
      else Answered s t d .busy 0 ∧ t.bt = s.bt ∧ t.fwState = s.fwState ∧ t.ft = s.ft ∧ t.ms = s.ms ∧ t.re = s.re) ∧
  (∀ (s : State) (n : Fin 4096) (d : Desc), Admitted s n 0x03 true d →
    ∃ t, exec (.dmaToDevice n none) s = .next t ∧ Answered s t d .hostAccessError 0 ∧ t.ft = s.ft ∧ t.ms = s.ms ∧ t.re = s.re ∧ t.bt = s.bt) ∧
  (∀ (s : State) (n : Fin 4096) (d : Desc), Admitted s n 0x04 false d → (d.u8 24 = 4 → s.firstLost (d.u64 32) d.length = none) →
    ∃ t, exec (.dmaFromDevice n true) s = .next t ∧ Answered s t d .success d.length ∧
      WroteHost s t d (s.targetBytesAt (d.u8 24) (d.u16 26) (d.u64 32) d.length)) ∧
  (∀ (s : State) (n : Fin 4096) (d : Desc) (x : Nat), Admitted s n 0x04 false d → d.u8 24 = 4 → s.firstLost (d.u64 32) d.length = some x →
    ∃ t, exec (.dmaFromDevice n true) s = .next t ∧ Answered s t d .dataUncorrectable 0) ∧
  (∀ (s : State) (n : Fin 4096) (d : Desc), Admitted s n 0x04 false d →
    ∃ t, exec (.dmaFromDevice n false) s = .next t ∧ Answered s t d .hostAccessError 0 ∧ t.ft = s.ft ∧ t.ms = s.ms ∧ t.re = s.re ∧ t.bt = s.bt)

/-- R96, R97, R99: PROT_UPDATE stores every entry of its array in the staging copy and changes nothing in force, or stores none
where an entry names ring 0 (NOT_PERMITTED) or has a bad byte (BAD_FIELD), or where host memory does not answer (HOST_ACCESS_ERROR);
while a PROT_COMMIT of its ring waits it does nothing. PROT_COMMIT starts and waits. At its boundary, once no
work of the generation before is in flight, the staging copy is in force, ACTIVE has moved on by one, and the commit has completed
with SUCCESS and the new generation in RESULT.

R100, R101, R454, R457: PARTITION_SET makes a partition that is not DRAINING ACTIVE with the quotas given where they fit, and
changes nothing otherwise. PARTITION_DRAIN of an ACTIVE partition makes it DRAINING and waits; of a FREE one it completes with
SUCCESS. Releasing the next context of a draining partition, where DRAIN_RATE allows one more, leaves its leg without a context. Once nothing of the partition is in
flight the drain completes: the partition is FREE and holds no quota. Retained groups of a partition that is ACTIVE again are
discarded. -/
def Obligations.ProtectionAndPartitionsChange : Prop :=
  (∀ (s : State) (n : Fin 4096) (d : Desc) (bs : List Byte), Admitted s n 0x10 true d → s.commitWaits n = false → bs.length = d.length →
    let es := (List.range (bs.length / 32)).map (fun i => slice bs (32 * i) 32)
    ∃ t, exec (.protUpdate n (some bs)) s = .next t ∧ t.hi.prot = s.hi.prot ∧
      match arrayFault 0 es with
      | none => Answered s t d .success 0 ∧ t.hi.staging = es.foldl stageEntry s.hi.staging
      | some .ringZero => Answered s t d .notPermitted 0 ∧ t.hi.staging = s.hi.staging
      | some (.byte _) => Answered s t d .badField 0 ∧ t.hi.staging = s.hi.staging) ∧
  (∀ (s : State) (n : Fin 4096) (d : Desc), Admitted s n 0x10 true d → s.commitWaits n = false →
    ∃ t, exec (.protUpdate n none) s = .next t ∧ Answered s t d .hostAccessError 0 ∧ t.hi.staging = s.hi.staging ∧ t.hi.prot = s.hi.prot) ∧
  (∀ (s : State) (n : Fin 4096) (data : HostData), s.commitWaits n = true → exec (.protUpdate n data) s = .next s) ∧
  (∀ (s : State) (n : Fin 4096) (d : Desc), Admitted s n 0x11 false d →
    ∃ t, exec (.protCommit n) s = .next t ∧ t.hi.prot = s.hi.prot ∧ t.rd HI_PROT_GEN_ACTIVE 0 = s.rd HI_PROT_GEN_ACTIVE 0 ∧
      d.begun s ∈ t.hi.descs) ∧
  (∀ (s : State) (d : Desc), s.live = true → s.hi.d3hot = false → d.silent = false →
    s.hi.descs.find? (fun x => x.started && x.opcode == 0x11) = some d → s.oldDraining = false →
    ∃ t, exec .protGenerationBoundary s = .next t ∧ t.hi.prot = s.hi.staging ∧ t.hi.staging = s.hi.staging ∧
      t.rd HI_PROT_GEN_ACTIVE 0 = (s.rd HI_PROT_GEN_ACTIVE 0 + 1) % 2 ^ 32 ∧
      Completed s t d .success ((s.rd HI_PROT_GEN_ACTIVE 0 + 1) % 2 ^ 32)) ∧
  (∀ (s : State) (n : Fin 4096) (d : Desc), Admitted s n 0x12 false d →
    let p := d.u16 24
    let new : Part := ⟨.active, d.u32 28, d.u32 32, d.u32 36, d.u32 40⟩
    ∃ t, exec (.partitionSet n) s = .next t ∧
      if (s.part p).state = .draining then Answered s t d .partitionDraining 0 ∧ t.hi.parts = s.hi.parts
      else if s.quotasFit p new = true ∧ s.quotaHolds p new = true then
        Answered s t d .success 0 ∧ t.part p = new ∧ ∀ q, q ≠ p → t.part q = s.part q
      else Answered s t d .quotaExceeded 0 ∧ t.hi.parts = s.hi.parts) ∧
  (∀ (s : State) (n : Fin 4096) (d : Desc), Admitted s n 0x13 false d →
    let p := d.u16 24
    ∃ t, exec (.partitionDrain n) s = .next t ∧
      match (s.part p).state with
      | .free => Answered s t d .success 0 ∧ t.hi.parts = s.hi.parts
      | .draining => d.begun s ∈ t.hi.descs ∧ t.hi.parts = s.hi.parts
      | .active => t.part p = { s.part p with state := .draining } ∧ (∀ q, q ≠ p → t.part q = s.part q) ∧
          t.cl.drains = s.cl.drains ++ [⟨p, s.rd HI_PROT_GEN_ACTIVE 0, s.rd CL_PART_GEN_GEN p, s.now, 0⟩]) ∧
  (∀ (s : State) (p : Fin 256) (d : Drain) (i l : Nat), s.live = true → s.drainOf p = some d → s.drainFull d = false → s.nextRelease p = some (i, l) →
    ∃ t, exec (.drainContextRelease p) s = .next t ∧ (t.leg i l).all (fun g => g.context == noContext) = true) ∧
  (∀ (s : State) (p : Fin 256) (d : Drain), s.live = true → s.drainOf p = some d →
    (s.groupsOf p).any (fun kv => kv.2.armed.isSome) = false → s.inFlight d = false →
    ∃ t, exec (.drainComplete p) s = .next t ∧ t.part p = Part.reset ∧ t.drainOf p = none ∧
      ∀ x ∈ t.hi.descs, ¬ (x.started = true ∧ x.opcode = 0x13 ∧ x.u16 24 = p.val)) ∧
  (∀ (s : State) (p : Fin 256), s.live = true → (s.part p).state = .active →
    ∃ t, exec (.retainedGroupExpiry p) s = .next t ∧ ∀ kv ∈ t.cl.groups, kv.2.partition = p.val → kv.2.retained = none)

/-- R64, R65, R654, R73, R74: a valid SQ_TAIL value becomes T and an invalid one sets DOORBELL_ERR and stops the ring; one written to
a ring that is disabled or stopped changes nothing. A valid CQ_HEAD value becomes K and arms the ring where ARM is 1, and where
unconsumed completions stay behind an ARM the vector is sent at once; an invalid one sets CQ_HEAD_ERR and moves nothing, and one written to
a disabled ring changes nothing.

R66, R67, R61, R73: a fetch takes as many whole descriptors as it may and as host memory returned, in order, and SQ_HEAD
counts them; where all are of known opcodes they join the ring's descriptors, and one of an unknown opcode is completed with BAD_OPCODE; a read that
fails sets FETCH_ERR and stops the ring. The oldest unconsumed completion of an armed CQ reaching MOD_TIME sends its vector once. -/
def Obligations.DoorbellsAndFetchesAct : Prop :=
  (∀ (s : State) (n : Fin 4096) (v : BitVec 32), s.barOpen = true →
    ∃ t, exec (.sqTail n v) s = .next t ∧
      if s.ringEnabled n = false ∨ (s.ring n).stopped = true then t = s
      else if wrapSub 32 v.toNat (s.rd HI_RING_STATUS_SQ_HEAD n) ≤ 2 ^ s.rd HI_RING_CFG_SQ_LOG2 n ∧
          wrapSub 32 v.toNat (s.ring n).tail ≤ 2 ^ s.rd HI_RING_CFG_SQ_LOG2 n then
        t.ring n = { s.ring n with tail := v.toNat } ∧ t.regs = s.regs
      else t.ring n = { s.ring n with stopped := true } ∧ t.rd HI_RING_STATUS_DOORBELL_ERR n = 1) ∧
  (∀ (s : State) (n : Fin 4096) (v : Word), s.barOpen = true → s.ringEnabled n = true →
    let head := v.toNat % 2 ^ 32
    let arm := v.toNat.testBit 32
    let left := wrapSub 32 (s.ring n).written head
    ∃ t, exec (.cqHead n v) s = .next t ∧
      if wrapSub 32 head (s.ring n).consumed ≤ (s.ring n).unconsumed then
        (t.ring n).consumed = head ∧ (t.ring n).armed = (if arm = true then decide (left = 0) else (s.ring n).armed) ∧
        (arm = true → left ≠ 0 → s.flag HI_MSIX_CTL_MASK (s.rd HI_RING_CFG_VECTOR n) = false →
          Emitted s t (.msix (s.rd HI_RING_CFG_VECTOR n) (s.rd HI_MSIX_ADDR_ADDR (s.rd HI_RING_CFG_VECTOR n))
            (s.rd HI_MSIX_CTL_DATA (s.rd HI_RING_CFG_VECTOR n))))
      else t.ring n = s.ring n ∧ t.rd HI_RING_STATUS_CQ_HEAD_ERR n = 1) ∧
  (∀ (s : State) (n : Fin 4096) (v : Word), s.barOpen = true → s.ringEnabled n = false → exec (.cqHead n v) s = .next s) ∧
  (∀ (s : State) (n : Fin 4096) (bs : List Byte), s.live = true → 0 < s.fetchable n → 64 ≤ bs.length →
    let k := min (s.fetchable n) (bs.length / 64)
    let one := fun (i : Nat) => (⟨s.hi.nextId + i, n, (s.rd HI_RING_STATUS_SQ_HEAD n + i) % 2 ^ 32, slice bs (64 * i) 64, false, false,
      s.rd HI_PROT_GEN_ACTIVE 0, false, if le (slice bs (64 * i) 64) 0 1 = 0x24 then [s.tableChanges (le (slice bs (64 * i) 64) 24 1)] else []⟩ : Desc)
    ∃ t, exec (.descriptorFetch n (some bs)) s = .next t ∧
      t.rd HI_RING_STATUS_SQ_HEAD n = (s.rd HI_RING_STATUS_SQ_HEAD n + k) % 2 ^ 32 ∧ t.hi.nextId = s.hi.nextId + k ∧
      ((∀ i < k, (opForm (one i)).isSome = true) → t.hi.descs = s.hi.descs ++ (List.range k).map one) ∧
      ∀ i < k, (opForm (one i)).isSome = false → Completed s t (one i) .badOpcode 0) ∧
  (∀ (s : State) (n : Fin 4096), s.live = true → 0 < s.fetchable n →
    ∃ t, exec (.descriptorFetch n none) s = .next t ∧ t.rd HI_RING_STATUS_FETCH_ERR n = 1 ∧ (t.ring n).stopped = true ∧
      t.hi.descs = s.hi.descs) ∧
  (∀ (s : State) (n : Fin 4096), s.live = true → (s.ring n).armed = true → 0 < (s.ring n).unconsumed → 0 < s.rd HI_RING_CFG_MOD_TIME n →
    s.hi.answering = true → s.flag HI_MSIX_CTL_MASK (s.rd HI_RING_CFG_VECTOR n) = false →
    ∃ t, exec (.cqModerationTimeout n) s = .next t ∧ (t.ring n).armed = false ∧
      SentHost s t (.msix (s.rd HI_RING_CFG_VECTOR n) (s.rd HI_MSIX_ADDR_ADDR (s.rd HI_RING_CFG_VECTOR n))
        (s.rd HI_MSIX_CTL_DATA (s.rd HI_RING_CFG_VECTOR n))))

/-- R59, R71: a write that sets ENABLE of a disabled ring enables it where the configuration is good, with the SQ head, the tail and
the completion count at zero and the CQ armed, and otherwise leaves ENABLE 0 and sets CFG_ERR. A write that clears ENABLE leaves
the ring disabled and none of its fetched descriptors unstarted, and QUIESCED reads 1 once it holds no work. -/
def Obligations.RingsEnableAndDisable : Prop :=
  (∀ (s : State) (n : Fin 4096) (v : Word), s.barOpen = true → s.ringEnabled n = false → HI_RING_CFG_ENABLE.isSet v = true →
    let sq := HI_RING_CFG_SQ_LOG2.of v
    let cq := HI_RING_CFG_CQ_LOG2.of v
    ∃ t, exec (.ringEnable n v) s = .next t ∧
      if 6 ≤ sq ∧ sq ≤ 16 ∧ 6 ≤ cq ∧ cq ≤ 16 ∧ sq ≤ cq ∧ s.rd HI_RING_SQ_BASE_ADDR n % 4096 = 0 ∧ s.rd HI_RING_CQ_BASE_ADDR n % 4096 = 0 ∧
          1 ≤ HI_RING_CFG_VECTOR.of v ∧ s.ringLevel n ≠ 3 then
        t.ringEnabled n = true ∧ t.sqSize n = 2 ^ sq ∧ t.cqSize n = 2 ^ cq ∧ t.ring n = ⟨0, 0, 0, true, false⟩ ∧
        t.rd HI_RING_STATUS_SQ_HEAD n = 0 ∧ t.rd HI_RING_STATUS_QUIESCED n = 0
      else t.ringEnabled n = false ∧ t.rd HI_RING_STATUS_CFG_ERR n = 1) ∧
  (∀ (s : State) (n : Fin 4096) (v : Word), s.barOpen = true → s.ringEnabled n = true → HI_RING_CFG_ENABLE.isSet v = false →
    ∃ t, exec (.ringDisable n v) s = .next t ∧ t.ringEnabled n = false ∧ (∀ d ∈ t.outstanding n, d.started = true) ∧
      (t.rd HI_RING_STATUS_QUIESCED n = 1 ↔ t.outstanding n = []))

/-- R86, R656, R89, R91: setting ENABLE opens a window whose settings are good, with CURSOR zero and nothing held, and otherwise
leaves ENABLE 0 and sets CFG_ERR. Clearing it closes the window; that, a read of HI_GW_STATUS and the 10 µs timeout leave nothing
held, and a target that takes writes then holds what was (shown for the forwarding tables, the LPM image and a tile's landing buffer).

R53, R88 to R93: a write to a disabled window is discarded and sets DISCARDED, which SETS counts. A write of one byte within the
limit of a DIRECT window goes to HI_GW_BASE plus its offset, where it is held while the granule it falls in is not whole; the CURSOR
of a STREAM window advances by the bytes of the write, and stops at its largest value (the model's choice, log 135); bytes at or beyond HI_GW_LIMIT set OVERRUN. A read answers with the bytes of
the target that a DIRECT window shows within its limit and zeros after them. A range past the end of a window is no address. -/
def Obligations.GangwayWindowsServe : Prop :=
  (∀ (s : State) (k : Fin 16) (v : Word), s.barOpen = true → s.flag HI_GW_TARGET_ENABLE k = false → HI_GW_TARGET_ENABLE.isSet v = true →
    ∃ t, exec (.gangwayEnable k v) s = .next t ∧
      t.rd HI_GW_TARGET_TARGET_KIND k = HI_GW_TARGET_TARGET_KIND.of v ∧ t.rd HI_GW_TARGET_TARGET_UNIT k = HI_GW_TARGET_TARGET_UNIT.of v ∧
      t.rd HI_GW_TARGET_PARTITION k = HI_GW_TARGET_PARTITION.of v ∧ t.rd HI_GW_TARGET_MODE k = HI_GW_TARGET_MODE.of v ∧
      if ((s.plainWrite HI_GW_TARGET k v).wr HI_GW_TARGET_ENABLE k 0).windowOk k = true then
        t.flag HI_GW_TARGET_ENABLE k = true ∧ t.rd HI_GW_STATUS_CURSOR k = 0 ∧ t.heldBytes k = [] ∧
        (HI_GW_TARGET_TARGET_KIND.of v = 7 → t.fwState = fwLoading)
      else t.flag HI_GW_TARGET_ENABLE k = false ∧ t.rd HI_GW_STATUS_CFG_ERR k = 1) ∧
  (∀ (s : State) (k : Fin 16) (v : Word), s.barOpen = true → s.flag HI_GW_TARGET_ENABLE k = true → HI_GW_TARGET_ENABLE.isSet v = false →
    ∃ t, exec (.gangwayClose k v) s = .next t ∧ t.flag HI_GW_TARGET_ENABLE k = false ∧
      t.heldBytes k = [] ∧ HeldReached s t k) ∧
  (∀ (s : State) (k : Fin 16), s.barOpen = true → s.windowReached k →
    ∃ t, exec (.gangwayStatusRead k) s = .next t ∧ Emitted s t (.readAnswer (natLe 8 (t.word (HI_GW_STATUS.offset k)).toNat)) ∧
      t.heldBytes k = [] ∧ HeldReached s t k) ∧
  (∀ (s : State) (k : Fin 16), s.live = true →
    ∃ t, exec (.gangwayGranuleTimeout k) s = .next t ∧
      t.heldBytes k = [] ∧ HeldReached s t k) ∧
  (∀ (s : State) (k : Fin 16) (offset : Nat) (data : List (Option Byte)), s.barOpen = true → data ≠ [] → offset + data.length ≤ 0x1000000 →
    s.flag HI_GW_TARGET_ENABLE k = false →
    ∃ t, exec (.gangwayWrite k offset data) s = .next t ∧ t.rd HI_GW_STATUS_DISCARDED k = 1 ∧
      bitsOf (t.word (companionOf (HI_GW_STATUS.offset k))).toNat 63 32 =
        min (bitsOf (s.word (companionOf (HI_GW_STATUS.offset k))).toNat 63 32 + 1) 0xFFFFFFFF) ∧
  (∀ (s : State) (k : Fin 16) (offset : Nat) (b : Byte), s.barOpen = true → offset < 0x1000000 → s.flag HI_GW_TARGET_ENABLE k = true →
    s.flag HI_GW_TARGET_MODE k = false → offset < s.rd HI_GW_LIMIT_LIMIT k →
    let a := s.rd HI_GW_BASE_BASE k + offset
    let held := bringByte (s.hi.gangwayWrites + 1) (s.heldBytes k) a b
    s.windowReached k → (held.filter (fun x => x.1 / 64 == a / 64)).length ≠ 64 →
    ∃ t, exec (.gangwayWrite k offset [some b]) s = .next t ∧ t.heldBytes k = held ∧ t.rd HI_GW_STATUS_PARTIAL k = 1) ∧
  (∀ (s : State) (k : Fin 16) (offset : Nat) (data : List (Option Byte)), s.barOpen = true → data ≠ [] → offset + data.length ≤ 0x1000000 →
    s.flag HI_GW_TARGET_ENABLE k = true → s.windowReached k →
    let at_ := if s.flag HI_GW_TARGET_MODE k = true then s.rd HI_GW_STATUS_CURSOR k else offset
    ∃ t, exec (.gangwayWrite k offset data) s = .next t ∧
      t.rd HI_GW_STATUS_CURSOR k = (if s.flag HI_GW_TARGET_MODE k = true then min (2 ^ 40 - 1) (s.rd HI_GW_STATUS_CURSOR k + data.length)
        else s.rd HI_GW_STATUS_CURSOR k) ∧
      (s.rd HI_GW_LIMIT_LIMIT k < at_ + data.length → t.rd HI_GW_STATUS_OVERRUN k = 1)) ∧
  (∀ (s : State) (k : Fin 16) (offset n : Nat), s.barOpen = true → offset + n ≤ 0x1000000 → s.windowReached k →
    let kind := s.rd HI_GW_TARGET_TARGET_KIND k
    let keep := if s.flag HI_GW_TARGET_ENABLE k = true ∧ s.flag HI_GW_TARGET_MODE k = false then min n (s.rd HI_GW_LIMIT_LIMIT k - offset) else 0
    let a := s.rd HI_GW_BASE_BASE k + offset
    ∃ t, exec (.gangwayRead k offset n) s = .next t ∧
      ((kind = 4 → s.firstLost a keep = none) →
        Emitted s t (.readAnswer (s.targetBytesAt kind (s.rd HI_GW_TARGET_TARGET_UNIT k) a keep ++ zeros (n - keep)))) ∧
      (∀ x, kind = 4 → s.firstLost a keep = some x → Emitted s t .readAbort)) ∧
  (∀ (s : State) (k : Fin 16) (offset n : Nat) (data : List (Option Byte)),
    (0x1000000 < offset + data.length → exec (.gangwayWrite k offset data) s = .fault (.outsideBar (0x1000000 * k + offset))) ∧
    (0x1000000 < offset + n → exec (.gangwayRead k offset n) s = .fault (.outsideBar (0x1000000 * k + offset))))

/-- R15, R17, R46: a write of a 64-bit register whose write does no more than its access codes say changes that register alone: an RW bit
takes the bit written, a RWL bit only while its block is not locked, a 1 clears a W1C bit and sets a W1S bit, and every other bit stays.
A write to a companion count, to an unassigned offset, or at no multiple of 8, changes nothing; one to a register of a die that is not
ready, or that waits for a bridge (R24), leaves it. While the BARs are not set it changes nothing, and in D3hot it is answered with
Unsupported Request (R52). A write within BAR0 always completes; an access beyond it stops.

R104, R105: a read of the companion count register of a W1C register answers its two counts and clears both, and nothing else; R15: a
read of another register answers its value and changes nothing, but for one of HI_GW_STATUS, before which the window's writes are
committed (R91); R17, R46: one of an unassigned offset, or of a die that is not ready, answers zero; R24: one that needs a bridge that
retrains waits for it; R52: in D3hot one is answered with Unsupported Request. -/
def Obligations.RegistersAnswer : Prop :=
  (∀ (s : State) (off : Nat) (v : Word) (r : Reg) (i : Nat), s.barOpen = true → off < bar0Size → off % 8 = 0 → registerAt off = some (r, i) →
    (r.stride ≠ 4 → (∀ e ∈ effects, e.1.base ≠ r.base) → s.performs off = true →
      ∃ w : Word, exec (.registerWrite off v) s = .next (s.setWord off w) ∧
        ∀ b < 64, w.getLsbD b =
          if (r.rw.testBit b || (r.rwl.testBit b && !s.locked off)) = true then v.getLsbD b
          else ((s.word off).getLsbD b && !(r.w1c.testBit b && v.getLsbD b)) || (r.w1s.testBit b && v.getLsbD b)) ∧
    (s.performs off = false → ∃ t, exec (.registerWrite off v) s = .next t ∧ t.word off = s.word off)) ∧
  (∀ (s : State) (off : Nat) (v : Word), s.barOpen = true → off < bar0Size →
    (off % 8 ≠ 0 ∨ (registerAt off = none ∧ ∀ o, companionTarget off = some o → s.atReach o = true)) → exec (.registerWrite off v) s = .next s) ∧
  (∀ (s : State) (off : Nat) (v : Word), s.barOpen = false → off < bar0Size →
    exec (.registerWrite off v) s = .next (if s.barsSet = true then s.emit .unsupportedRequest else s)) ∧
  (∀ (s : State) (off : Nat) (v : Word), off < bar0Size → ∃ t, exec (.registerWrite off v) s = .next t) ∧
  (∀ (s : State) (off : Nat) (v : Word), bar0Size ≤ off →
    exec (.registerWrite off v) s = .fault (.outsideBar off) ∧ exec (.companionCountRead off) s = .fault (.outsideBar off)) ∧
  (∀ (s : State) (off o : Nat), s.barOpen = true → off < bar0Size → off % 8 = 0 → registerAt off = none → companionTarget off = some o →
    s.performs o = true →
    ∃ t, exec (.companionCountRead off) s = .next t ∧ Emitted s t (.readAnswer (natLe 8 (s.word off).toNat)) ∧ t.word off = 0 ∧
      ∀ a, a ≠ off → t.word a = s.word a) ∧
  (∀ (s : State) (off : Nat) (r : Reg) (i : Nat), s.barOpen = true → off < bar0Size → off % 8 = 0 → registerAt off = some (r, i) →
    s.performs off = true →
    (r.stride ≠ 4 → r.base ≠ HI_GW_STATUS.base → exec (.companionCountRead off) s = .next (s.emit (.readAnswer (natLe 8 (s.regValue r i).toNat)))) ∧
    (r.stride = 4 → exec (.companionCountRead off) s =
      .next (s.emit (.readAnswer (natLe 8 ((s.regValue r (i + 1) <<< 32) ||| s.regValue r i).toNat)))) ∧
    (r.stride ≠ 4 → r.base = HI_GW_STATUS.base → exec (.companionCountRead off) s =
      .next ((s.flushWindow i).emit (.readAnswer (natLe 8 ((s.flushWindow i).regValue r i).toNat)))) ∧
    ((∀ e ∈ shown, e.1.base ≠ r.base) → s.regValue r i = s.word (r.offset i))) ∧
  (∀ (s : State) (off : Nat), s.barOpen = true → off < bar0Size → off % 8 = 0 →
    let o := (companionTarget off).getD off
    (∀ b rest, s.closedOn (routeOf 8 (dieOf o)) = b :: rest → exec (.companionCountRead off) s = .next (s.holdAccess b (.count off))) ∧
    (s.closedOn (routeOf 8 (dieOf o)) = [] → (registerAt off).isSome = true ∨ (companionTarget off).isSome = true → s.atReach o = false →
      exec (.companionCountRead off) s = .next (s.emit (.readAnswer (natLe 8 0)))) ∧
    (s.closedOn (routeOf 8 (dieOf o)) = [] → registerAt off = none → companionTarget off = none →
      exec (.companionCountRead off) s = .next (s.emit (.readAnswer (natLe 8 0))))) ∧
  (∀ (s : State) (off : Nat), s.barOpen = true → off < bar0Size → off % 8 ≠ 0 →
    exec (.companionCountRead off) s = .next (s.emit (.readAnswer (zeros 8)))) ∧
  (∀ (s : State) (off : Nat), s.barOpen = false → off < bar0Size →
    exec (.companionCountRead off) s = .next (if s.barsSet = true then s.emit .unsupportedRequest else s))

/-- R106, R107, R109, R110, R596, R121, R49: POR_L low brings every register, table, memory, engine and queue of every part of the device
to reset, and in the boot part all but the trip record and the reference clocks that the board supplies; POR_L rising samples PCIE_X4,
and changes no register. A warm reset with the right key loses every descriptor and ring and every table named here, keeps the
retirements, the answering of the PCIe link and the trip record, and leaves every register but the spare and repair maps and the
progress count at its reset value; with another key it changes nothing.
A host port reset clears the HI_ block but the protection generation and table, silences the descriptors that have started, drops
the others with those that wait at a read of host memory (log 143), and leaves the boot, packet, table, collective, memory and reduction
parts as they are. -/
def Obligations.ResetsClear : Prop :=
  (∀ (s : State), ∃ t, exec .coldReset s = .next t ∧ t.regs = [] ∧ t.hi = HostSt.reset ∧ t.pc = PacketSt.reset ∧ t.ft = TableSt.reset ∧
    t.tq = QueueSt.reset ∧ t.tb = TimeSt.reset ∧ t.fh = FaultSt.reset ∧ t.ms = MemSt.reset ∧ t.re = ReduceSt.reset ∧
    t.cl = CollectiveSt.reset ∧ t.oc = OpticalSt.reset ∧ t.pm = PowerSt.reset ∧
    t.bt = { BootSt.reset with trip := s.bt.trip, coreRefLost := s.bt.coreRefLost, serdesLost := s.bt.serdesLost } ∧ t.fwState = fwEmpty) ∧
  (∀ (s : State) (x4 : Bool), s.bt.por = false → ∃ t, exec (.porRelease x4) s = .next t ∧ t.bt.por = true ∧ t.bt.x4 = x4 ∧ t.regs = s.regs) ∧
  (∀ (s : State) (v : Word), s.barOpen = true → BT_RESET_WARM.isSet v = true →
    ∃ t, exec (.warmReset v) s = .next t ∧
      if BT_RESET_KEY.of v = 0x57A4 then
        (∀ off, keptWarm off = false → t.word off = resetWord off) ∧ t.hi.descs = [] ∧ t.hi.rings = [] ∧ t.hi.prot = [] ∧ t.hi.parts = [] ∧
        t.hi.answering = s.hi.answering ∧ t.bt.por = true ∧ t.bt.warm = true ∧ t.bt.trip = s.bt.trip ∧ t.bt.image = [] ∧
        t.fh.tilesRetired = s.fh.tilesRetired ∧ t.fh.lanesRetired = s.fh.lanesRetired ∧ t.ms = MemSt.reset ∧ t.re = ReduceSt.reset ∧
        t.cl = CollectiveSt.reset ∧ t.pc = PacketSt.reset ∧ t.out = s.out
      else t = s) ∧
  (∀ (s : State) (cause : PortResetCause), s.live = true →
    ∃ t, exec (.hostPortReset cause) s = .next t ∧
      (∀ off, off < 0x100000 → off ≠ HI_PROT_GEN.offset 0 → t.word off = resetWord off) ∧
      (∀ off, 0x100000 ≤ off ∨ off = HI_PROT_GEN.offset 0 → t.word off = s.word off) ∧
      t.hi.rings = [] ∧ t.hi.granules = [] ∧ t.hi.answering = false ∧ t.hi.prot = s.hi.prot ∧ t.hi.parts = s.hi.parts ∧
      t.hi.descs = (s.hi.descs.filter (fun d => d.started && !d.atRead)).map (fun d => { d with silent := true }) ∧
      t.bt = s.bt ∧ t.pc = s.pc ∧ t.ft = s.ft ∧ t.cl = s.cl ∧ t.ms = s.ms ∧ t.re = s.re ∧ t.out = s.out)

/-- R52, R655, R121: entering D3hot, once configuration space answers, changes nothing else. A descriptor that reads host memory then passes
its checks and waits at that read, shown for REG_WRITE, DMA_TO_DEVICE, FT_INSERT, LPM_INSERT and GROUP_REGISTER, and one that waited goes on
in D0, shown for a DMA_TO_DEVICE whose read fails. Returning to D0 issues what was held, in order, and changes no descriptor, ring or
register; configuration space answers once the control die is ready, and the host has then set its BARs (the model's choice, log 11). R111:
a write of BT_LOCK adds the blocks it names to those locked and unlocks none. -/
def Obligations.PowerStatesAndLocks : Prop :=
  (∀ (s : State), s.live = true → s.hi.answering = true → exec .powerStateD3hot s = .next { s with hi := { s.hi with d3hot := true } }) ∧
  (∀ (s : State), s.live = true → ∃ t, exec .powerStateD0 s = .next t ∧ t.hi.d3hot = false ∧ t.hi.held = [] ∧ t.out = s.out ++ s.hi.held ∧
    t.hi.descs = s.hi.descs ∧ t.hi.rings = s.hi.rings ∧ t.regs = s.regs) ∧
  (∀ (s : State) (n : Fin 4096) (data : HostData) (op : Nat) (c : Instr) (d : Desc),
    (op, c) ∈ [(0x02, Instr.regWrite n data), (0x03, .dmaToDevice n data), (0x20, .ftInsert n data), (0x22, .lpmInsert n data),
      (0x30, .groupRegister n data)] →
    s.live = true → s.hi.d3hot = true → s.readingDesc n (fun e => e.opcode == op) = none → s.nextDesc n = some d → d.opcode = op →
    (d.fence = true → s.earlierPending d = false) → s.descHeld d = false → (s.startDesc d).preChecks (d.begun s) = none → d.movesNothing = false →
    exec c s = .next ((s.startDesc d).updateDesc (d.begun s) { d.begun s with atRead := true })) ∧
  (∀ (s : State) (n : Fin 4096) (d : Desc), s.live = true → s.hi.d3hot = false → d.silent = false → d.ring = n →
    s.readingDesc n (fun e => e.opcode == 0x03) = some d →
    ∃ t, exec (.dmaToDevice n none) s = .next t ∧ Answered s t d .hostAccessError 0) ∧
  (∀ (s : State), s.live = true → s.dieReady 8 = true → ∃ t, exec .configSpaceReady s = .next t ∧ t.hi.answering = true ∧ t.regs = s.regs ∧
    (s.hi.answering = false → t.barsSet = true)) ∧
  (∀ (s : State) (v : Word), s.barOpen = true → ∃ t, exec (.lockSet v) s = .next t ∧
    ∀ b < 14, (t.rd BT_LOCK_LOCK 0).testBit b = ((s.rd BT_LOCK_LOCK 0).testBit b || v.toNat.testBit b))

/-- R115 to R117, R119, R112: START in LOADING begins the check and closes the image window; ABANDON in LOADING or REFUSED empties the
store and returns to EMPTY; both bits at once, or either outside its states, change no state of the load. A check that ends makes an
entry in the attestation log; where the header is good and the signature verifies under the fused key Pilot is RUNNING from the image's
ENTRY, ready, has made an entry for each configuration set it applies (R134, log 144), and blocks 1 and 13 are locked; otherwise the load is
REFUSED with the first REASON that applies and Pilot does not start. A command while no check runs changes nothing. -/
def Obligations.FirmwareLoads : Prop :=
  (∀ (s : State) (v : Word), s.barOpen = true → BT_FW_CTL_START.isSet v = true → BT_FW_CTL_ABANDON.isSet v = false → s.fwState = fwLoading →
    ∃ t, exec (.firmwareStart v) s = .next t ∧ t.fwState = fwChecking ∧
      ∀ k, s.imageWindow = some k → t.flag HI_GW_TARGET_ENABLE k = false ∧ t.heldBytes k = []) ∧
  (∀ (s : State) (v : Word), s.barOpen = true → BT_FW_CTL_ABANDON.isSet v = true → BT_FW_CTL_START.isSet v = false →
    s.fwState = fwLoading ∨ s.fwState = fwRefused →
    ∃ t, exec (.firmwareAbandon v) s = .next t ∧ t.fwState = fwEmpty ∧ t.bt.image = [] ∧ t.bt.imageTop = 0) ∧
  (∀ (s : State) (v : Word), s.barOpen = true →
    (BT_FW_CTL_START.isSet v = true ∧ (BT_FW_CTL_ABANDON.isSet v = true ∨ s.fwState ≠ fwLoading)) ∨
      (BT_FW_CTL_START.isSet v = false ∧ BT_FW_CTL_ABANDON.isSet v = true ∧ s.fwState ≠ fwLoading ∧ s.fwState ≠ fwRefused) →
    ∃ t, exec (.firmwareStart v) s = .next t ∧ t.bt = s.bt ∧ t.fwState = s.fwState ∧
      t.rd FH_CLASS_COUNT_COUNT 1 = (s.rd FH_CLASS_COUNT_COUNT 1 + 1) % 2 ^ 32) ∧
  (∀ (s : State), s.live = true → s.fwState = fwChecking →
    let h := sbytes s.bt.image 0 64
    let len := le h 16 8
    let good := Config.verify Config.firmwareKey (sm3 (sbytes s.bt.image 0 (len - 64))) (sbytes s.bt.image (len - 64) 64)
    let reason := if le h 0 4 ≠ 0x46565047 ∨ le h 7 1 ≠ 1 then 1 else if le h 4 2 ≠ 0x9400 then 2 else if le h 6 1 ≠ 0xB1 then 3
      else if len < 4096 ∨ 0x4000000 < len ∨ len % 64 ≠ 0 ∨ s.bt.imageTop < len then 4 else if good = false then 5 else 0
    ∃ t, exec .firmwareCheckDone s = .next t ∧ t.rd BT_FW_STATUS_REASON 0 = reason ∧ t.rd BT_FW_STATUS_VERSION 0 = le h 8 4 ∧
      t.rd EV_LOG_COUNT_COUNT 0 =
        (s.rd EV_LOG_COUNT_COUNT 0 + 1 + (if reason = 0 then Config.configSets (sm3 (sbytes s.bt.image 0 len)) else 0)) % 2 ^ 64 ∧
      if reason = 0 then t.fwState = fwRunning ∧ t.bt.entry = some (le h 24 4) ∧ t.ready .pilot = true ∧
        (t.rd BT_LOCK_LOCK 0).testBit 1 = true ∧ (t.rd BT_LOCK_LOCK 0).testBit 13 = true
      else t.fwState = fwRefused ∧ t.bt.entry = s.bt.entry ∧ t.rd BT_READY_MAP_BITS 0 = s.rd BT_READY_MAP_BITS 0) ∧
  (∀ (s : State), s.live = true → s.fwState ≠ fwChecking → exec .firmwareCheckDone s = .next s)

/-- R137: START in IDLE or DONE holds the nonce and signs; a START while signing changes nothing. Once the quote is signed the state is
DONE and EV_QUOTE_OUT holds the serial, the boot identity, the nonce held, the count and the accumulator of the attestation log, the time
of domain 0, the protection generation in force, zeros, and the signature over the SM3 digest of all that. -/
def Obligations.QuotesAreSigned : Prop :=
  (∀ (s : State) (v : Word), s.barOpen = true → EV_QUOTE_CTL_START.isSet v = true →
    (s.rd EV_QUOTE_STATUS_STATE 0 = 1 → exec (.quoteStart v) s = .next s) ∧
    (s.rd EV_QUOTE_STATUS_STATE 0 ≠ 1 →
      ∃ t, exec (.quoteStart v) s = .next t ∧ t.rd EV_QUOTE_STATUS_STATE 0 = 1 ∧ t.bt.quoteNonce = s.getBytes EV_QUOTE_NONCE 0 4)) ∧
  (∀ (s : State), s.live = true → s.rd EV_QUOTE_STATUS_STATE 0 = 1 → s.bt.quoteNonce.length = 32 →
    let body := natLe 8 (s.rd BT_DEVICE_SERIAL_SERIAL 0) ++ s.getBytes EV_BOOT_ID 0 2 ++ s.bt.quoteNonce ++
      natLe 8 (s.rd EV_LOG_COUNT_COUNT 0) ++ s.getBytes EV_LOG_ACC 0 4 ++ natLe 12 s.tb.dom0.visible ++ natLe 4 (s.rd HI_PROT_GEN_ACTIVE 0) ++ zeros 16
    ∃ t, exec .quoteDone s = .next t ∧ t.rd EV_QUOTE_STATUS_STATE 0 = 2 ∧
      t.getBytes EV_QUOTE_OUT 0 24 = body ++ (List.range 64).map (Config.sign (sm3 body))) ∧
  (∀ (s : State), s.live = true → s.rd EV_QUOTE_STATUS_STATE 0 ≠ 1 → exec .quoteDone s = .next s)

/-- R121, R124, R128, R129: a function whose conditions hold becomes ready, and ROSE is set. A function that leaves service is not
ready, no function whose row names it is, and FELL is set. One whose conditions do not hold, or that is ready, does not
become ready: nothing changes. -/
def Obligations.FunctionsRiseAndFall : Prop :=
  (∀ (s : State) (f : Fn), s.live = true → s.bt.coreRefLost = false → s.ready f = false → (needs f).all s.readyAt = true → s.functionMay f = true →
    ∃ t, exec (.functionReady f) s = .next t ∧ t.ready f = true ∧ t.rd BT_READY_CHANGE_ROSE 0 = 1) ∧
  (∀ (s : State) (f : Fn), s.live = true → s.ready f = true →
    ∃ t, exec (.functionLeavesService f) s = .next t ∧ t.ready f = false ∧ t.rd BT_READY_CHANGE_FELL 0 = 1 ∧
      ∀ g ∈ dependents f, t.ready g = false) ∧
  (∀ (s : State) (f : Fn), s.live = true → (s.bt.coreRefLost = true ∨ s.ready f = true ∨ (needs f).all s.readyAt = false ∨ s.functionMay f = false) →
    exec (.functionReady f) s = .next s)

/-- R139 to R143: while its exchange runs a port sends its own ID message, the same each time, with its serial number and public key. A
peer's well-formed ID message, accepted by the link, leaves the peer's serial and the SM3 digest of its key in the port's registers and
is answered with a PROOF that echoes its nonce and is signed over the port's own ID message and the peer's; one that comes after the
exchange has ended starts another, with the link in LINK_INIT. A PROOF ends a running exchange: FAILED where it does not verify,
MISMATCH where the expected digest differs, VERIFIED otherwise. 100 ms without one end it as UNVERIFIED. Where no exchange runs a PROOF
that the link accepts and the timeout change nothing of it. -/
def Obligations.IdentityExchanges : Prop :=
  (∀ (s : State) (n : Fin 1024), s.live = true → (s.exchange n).running = true →
    ∃ t id, exec (.evbauthIdTimer n) s = .next t ∧ SentOwn s t n (evbFrame n id) ∧ (t.exchange n).ownId = id ∧
      ((s.exchange n).ownId ≠ [] → id = (s.exchange n).ownId) ∧
      ((s.exchange n).ownId = [] → evbGood 1 id = true ∧ be id 4 8 = s.rd BT_DEVICE_SERIAL_SERIAL 0 ∧ slice id 48 64 = fitTo 64 Config.publicKey)) ∧
  (∀ (s : State) (n : Fin 1024), s.live = true → (s.exchange n).running = false → exec (.evbauthIdTimer n) s = .next s) ∧
  (∀ (s : State) (n : Fin 1024) (tag : Option (BitVec 48)) (p : List Byte), s.live = true → 2 ≤ s.link n →
    (s.linkConsume n tag (p.length + 18)).1 = true → evbGood 1 p = true →
    ∃ t id proof, exec (.evbauthIdReceived n tag p) s = .next t ∧ t.rd EV_PORT_PEER_SERIAL_SERIAL n = be p 4 8 ∧
      t.getBytes EV_PORT_PEER_DIGEST (16 * n) 4 = sm3 (slice p 48 64) ∧ (t.exchange n).peerId = p ∧ (t.exchange n).running = true ∧
      SentOwn s t n (evbFrame n proof) ∧ evbGood 2 proof = true ∧ slice proof 16 32 = slice p 16 32 ∧
      (t.exchange n).ownId = id ∧ slice proof 48 64 = fitTo 64 (signature (id ++ p)) ∧
      ((s.exchange n).running = false → t.rd EV_PORT_STATUS_RESULT n = 1 ∧ t.link n = 2 ∧ t.portReady n = false)) ∧
  (∀ (s : State) (n : Fin 1024) (tag : Option (BitVec 48)) (p : List Byte), s.live = true → 2 ≤ s.link n →
    (s.linkConsume n tag (p.length + 18)).1 = true → evbGood 2 p = true →
    let x := s.exchange n
    ∃ t, exec (.evbauthProofReceived n tag p) s = .next t ∧
      if x.running = true then
        (t.exchange n).running = false ∧
        t.rd EV_PORT_STATUS_RESULT n = if x.proves p = false then 4
          else if x.expectValid = true ∧ x.expect ≠ s.getBytes EV_PORT_PEER_DIGEST (16 * n) 4 then 5 else 2
      else t.exchange n = x ∧ t.rd EV_PORT_STATUS_RESULT n = s.rd EV_PORT_STATUS_RESULT n) ∧
  (∀ (s : State) (n : Fin 1024), s.live = true →
    ∃ t, exec (.evbauthTimeout n) s = .next t ∧
      if (s.exchange n).running = true then (t.exchange n).running = false ∧ t.rd EV_PORT_STATUS_RESULT n = 3 else t = s)

/-- R150, R152 to R155, R172, R213: setting ENABLE of a present, disabled port with a MAX_FRAME in range starts training where the
reservations leave enough shared cells, and a write that may not act leaves the register; clearing it takes the link down at once. A
LAYOUT takes effect only while the group's ports are disabled and down. A port that can lock enters LINK_INIT and starts its identity
exchange; one that cannot stays as it is. A link that fails loses what its port held and counts what its replay store held, and an
enabled port trains again. A free spare stands in for a lane of a port that trains, on a fabric port with its link up behind a MARKER,
and that lane is retired; other lanes' spares are left. -/
def Obligations.PortsComeAndGo : Prop :=
  (∀ (s : State) (n : Fin 1024) (v : Word), s.barOpen = true → s.performs (PC_PORT_CFG.offset n) = true → s.portEnabled n = false →
    PC_PORT_CFG_ENABLE.isSet v = true →
    ∃ t, exec (.portEnable n v) s = .next t ∧
      if s.portRate n ≠ 0 ∧ 1518 ≤ PC_PORT_CFG_MAX_FRAME.of v ∧ PC_PORT_CFG_MAX_FRAME.of v ≤ 9216 ∧ (s.plainWrite PC_PORT_CFG n v).poolsFit = true then
        t.portEnabled n = true ∧ t.link n = 1 ∧ t.rd PC_PORT_CFG_KIND n = PC_PORT_CFG_KIND.of v ∧
        t.rd PC_PORT_CFG_MAX_FRAME n = PC_PORT_CFG_MAX_FRAME.of v
      else t.word (PC_PORT_CFG.offset n) = s.word (PC_PORT_CFG.offset n) ∧ t.link n = s.link n) ∧
  (∀ (s : State) (n : Fin 1024) (v : Word), s.barOpen = true → s.performs (PC_PORT_CFG.offset n) = true → s.portEnabled n = true →
    PC_PORT_CFG_ENABLE.isSet v = false →
    ∃ t, exec (.portDisable n v) s = .next t ∧
      if PC_PORT_CFG_KIND.of v = s.rd PC_PORT_CFG_KIND n ∧ PC_PORT_CFG_MAX_FRAME.of v = s.rd PC_PORT_CFG_MAX_FRAME n ∧
          1518 ≤ PC_PORT_CFG_MAX_FRAME.of v ∧ PC_PORT_CFG_MAX_FRAME.of v ≤ 9216 then
        t.portEnabled n = false ∧ t.link n = 0 ∧ t.portReady n = false ∧ (t.port n).sending = none ∧
        (t.port n).arriving = none ∧ (t.port n).store = [] ∧ (t.port n).own = [] ∧ ¬ n.val ∈ t.fh.portsHeld
      else t.word (PC_PORT_CFG.offset n) = s.word (PC_PORT_CFG.offset n) ∧ t.link n = s.link n) ∧
  (∀ (s : State) (g : Fin 256) (v : Word), s.barOpen = true → s.performs (PC_LANE_GROUP.offset g) = true →
    ∃ t, exec (.laneLayoutWrite g v) s = .next t ∧
      if PC_LANE_GROUP_LAYOUT.of v ≤ 4 ∧ (PC_LANE_GROUP_LAYOUT.of v = s.rd PC_LANE_GROUP_LAYOUT g ∨
          (List.range 4).all (fun k => !s.portEnabled (4 * g + k) && s.link (4 * g + k) == 0) = true) then
        t.rd PC_LANE_GROUP_LAYOUT g = PC_LANE_GROUP_LAYOUT.of v
      else t.word (PC_LANE_GROUP.offset g) = s.word (PC_LANE_GROUP.offset g)) ∧
  (∀ (s : State) (n : Fin 1024), s.live = true →
    ∃ t, exec (.linkFecLock n) s = .next t ∧
      if s.canLock n = true then
        t.link n = 2 ∧ (t.exchange n).running = true ∧ (t.exchange n).ownId = [] ∧ (t.exchange n).peerId = [] ∧ t.rd EV_PORT_STATUS_RESULT n = 1 ∧
        t.rd PC_PORT_STATUS_ACTIVE_LANES n = s.activeLanes n
      else t = s) ∧
  (∀ (s : State) (n : Fin 1024), s.live = true →
    ∃ t, exec (.portLinkDown n) s = .next t ∧
      if s.link n ≠ 0 then
        t.link n = bit (s.portEnabled n) ∧ t.portReady n = false ∧ (t.port n).sending = none ∧ (t.port n).arriving = none ∧
        (t.port n).store = [] ∧ (t.port n).own = [] ∧ t.rd EV_PORT_STATUS_RESULT n = 0 ∧ (t.exchange n).running = false ∧
        t.counter 1 (64 * n + 49) = (s.counter 1 (64 * n + 49) + (s.port n).store.length) % 2 ^ 64
      else t = s) ∧
  (∀ (s : State) (n : Fin 1024) (j : Fin 8), s.live = true →
    ∃ t, exec (.laneSwap n j) s = .next t ∧
      (if s.laneSpareFree (n / 4) = true ∧ s.laneOf n j = true ∧ s.portEnabled n = true ∧
          (s.link n = 1 ∨ (s.isFabric n = true ∧ s.link n = 3 ∧ (s.port n).complete = true ∧ s.fibreChanging (n / 4) = false)) then
        t.rd PC_LANE_GROUP_SPARE_FOR (n / 4) = j ∧ physicalLane (n / 4) j ∈ t.fh.lanesRetired ∧
        (s.link n = 3 → SentOwn s t n (markerFrame n 1 j 0))
      else t = s) ∧
      ∀ g, g ≠ n.val / 4 → g < 256 → t.rd PC_LANE_GROUP_SPARE_FOR g = s.rd PC_LANE_GROUP_SPARE_FOR g)

/-- R189 to R191, R193, R194, R198 to R201, R203: on a fabric link that initialises an INIT with this end's VN_MIN and SHARED is sent,
and one received tells of the peer's buffers and is acknowledged, until INIT_ACK has gone both ways and numbers and credits start from
zero; one on an initialised link starts initialisation again, discards and counts what the replay store holds, and sets REINIT; 100 ms
without completion set INIT_TIMEOUT. A round trip is measured from the times that INIT or STATUS carries. On an initialised link a STATUS
with the next expected number, the NAK state and the credits returned is sent, and one received gives the credit counts and lets go what
it acknowledges; a NAK for a held frame that is not stale and the retry timeout send every held frame from there again, in order, once
the wire is free. An accepted LANE_SWAP MARKER puts the group's free spare in its lane's place; one not accepted changes no lane. -/
def Obligations.LinkLayerRuns : Prop :=
  (∀ (s : State) (n : Fin 1024) (p : List Byte), s.live = true → s.isFabric n = true → 2 ≤ s.link n →
    ∃ t, exec (.linkInitReceived n p) s = .next t ∧ (t.port n).initSeen = true ∧ (t.port n).peerShared = be p 21 3 ∧
      (t.port n).peerMin = (List.range 5).map (fun k => be p (6 + 2 * k) 2) ∧
      (be p 32 8 ≠ 0 → t.rd PC_PORT_STATUS_RTT_NS n = min 0xFFFF (wrapSub 64 (wrapSub 64 s.now64 (be p 32 8)) (be p 40 4))) ∧
      if (s.port n).complete = true then
        t.rd PC_LINK_ERR_REINIT n = 1 ∧ (t.port n).store = [] ∧ (t.port n).complete = false ∧ (t.port n).ackSent = false ∧
        t.counter 1 (64 * n + 49) = (s.counter 1 (64 * n + 49) + (s.port n).store.length) % 2 ^ 64
      else
        (t.port n).complete = ((s.port n).ackSent && ((s.port n).ackSeen || (be p 4 1).testBit 0)) ∧
        ((t.port n).complete = true → (t.port n).nextSeq = 0 ∧ (t.port n).expected = 0 ∧ (t.port n).sent = [0, 0, 0, 0, 0] ∧
          (t.port n).returned = [0, 0, 0, 0, 0] ∧ (t.port n).creditRet = [0, 0, 0, 0, 0])) ∧
  (∀ (s : State) (n : Fin 1024), s.live = true → s.isFabric n = true → 2 ≤ s.link n → (s.port n).complete = false →
    ((s.port n).initSeen && (s.port n).ackSent) = false →
    ∃ t payload, exec (.linkInitTimer n) s = .next t ∧ Emitted s t (frameOut n (some (makeTag 0 false 0)) (controlFrame n payload) none) ∧
      be payload 1 1 = 3 ∧ be payload 4 1 = bit (s.port n).initSeen ∧
      (∀ k < 5, be payload (6 + 2 * k) 2 = s.rd PC_CREDIT_CFG_VN_MIN n % 2 ^ 16) ∧ be payload 21 3 = s.advertised n % 2 ^ 24 ∧
      (t.port n).ackSent = ((s.port n).ackSent || (s.port n).initSeen) ∧ (t.port n).complete = ((t.port n).ackSent && (s.port n).ackSeen)) ∧
  (∀ (s : State) (n : Fin 1024), s.live = true → s.isFabric n = true → s.link n = 2 → (s.port n).complete = false →
    ∃ t, exec (.initTimeout n) s = .next t ∧ t.rd PC_LINK_ERR_INIT_TIMEOUT n = 1 ∧ t.link n = 2 ∧ t.port n = s.port n) ∧
  (∀ (s : State) (n : Fin 1024) (p : List Byte), s.live = true → s.isFabric n = true → (s.port n).complete = true → 2 ≤ s.link n →
    (s.port n).own = [] →
    let a := be p 2 2
    let held := (s.port n).store
    let k := wrapSub 16 a ((held.map Held.seq).headD a)
    let left := if held.length < k then held else held.drop k
    ∃ t, exec (.linkStatusReceived n p) s = .next t ∧
      ((be p 4 1).testBit 0 = false →
        (t.port n).returned = (List.range 5).map (fun v => be p (6 + 3 * v) 3) ∧ (t.port n).store = left ∧
        (be p 32 8 ≠ 0 → t.rd PC_PORT_STATUS_RTT_NS n = min 0xFFFF (wrapSub 64 (wrapSub 64 s.now64 (be p 32 8)) (be p 40 4)))) ∧
      ((be p 4 1).testBit 0 = true → (s.port n).rtxFrom = none → left.any (fun e => e.seq == a) = true →
        if (s.port n).sending = none then ResentInOrder s t n (left.dropWhile (fun e => e.seq != a)) else (t.port n).rtxDue = some a)) ∧
  (∀ (s : State) (n : Fin 1024), s.live = true → s.isFabric n = true → (s.port n).complete = true →
    ∃ t payload, exec (.linkStatusTimer n) s = .next t ∧ Emitted s t (frameOut n (some (makeTag 0 false 0)) (controlFrame n payload) none) ∧
      be payload 1 1 = 1 ∧ be payload 2 2 = (s.port n).expected % 2 ^ 16 ∧ be payload 4 1 = bit (s.port n).nak ∧
      (∀ v < 5, be payload (6 + 3 * v) 3 = (s.port n).creditRet.getD v 0 % 2 ^ 24) ∧ t.port n = s.port n) ∧
  (∀ (s : State) (n : Fin 1024) (e : Held), s.live = true → (s.port n).store.head? = some e →
    ∃ t, exec (.linkRetryTimeout n) s = .next t ∧
      if (s.port n).sending = none then ResentInOrder s t n (s.port n).store else (t.port n).rtxDue = some e.seq) ∧
  (∀ (s : State) (n : Fin 1024) (tag : BitVec 48) (p : List Byte), s.live = true → s.isFabric n = true → (s.port n).complete = true →
    2 ≤ s.link n →
    ∃ t, exec (.markerReceived n tag p) s = .next t ∧
      if (s.linkConsume n (some tag) (p.length + 18)).1 = true then
        be p 1 1 = 2 → be p 4 1 = 1 → s.laneSpareFree (n / 4) = true → s.laneOf n (be p 5 1) = true →
          t.rd PC_LANE_GROUP_SPARE_FOR (n / 4) = be p 5 1 ∧ physicalLane (n / 4) (be p 5 1) ∈ t.fh.lanesRetired
      else t.rd PC_LANE_GROUP_SPARE_FOR (n / 4) = s.rd PC_LANE_GROUP_SPARE_FOR (n / 4) ∧ t.oc = s.oc)

/-- R181, R183, R184: a PFC frame on an Ethernet port pauses each class it names with a quanta other than zero and resumes each it names
with zero; on a fabric port it is discarded and counted, as PAUSE is on every port. XOFF is repeated while it stands, and only then. A
pause whose quanta expire is over, and the other classes' pauses stand. -/
def Obligations.FlowControlFrames : Prop :=
  (∀ (s : State) (n : Fin 1024) (classes : BitVec 8) (quanta : List (BitVec 16)), s.live = true → s.isFabric n = false →
    ∃ t, exec (.pfcFrameReceived n classes quanta) s = .next t ∧
      ∀ c < 8, (t.port n).paused.testBit c = if classes.toNat.testBit c then (quanta.getD c 0 != 0) else (s.port n).paused.testBit c) ∧
  (∀ (s : State) (n : Fin 1024) (classes : BitVec 8) (quanta : List (BitVec 16)), s.live = true → s.isFabric n = true →
    ∃ t, exec (.pfcFrameReceived n classes quanta) s = .next t ∧ t.port n = s.port n ∧
      t.counter 1 (64 * n + 43) = (s.counter 1 (64 * n + 43) + 1) % 2 ^ 64) ∧
  (∀ (s : State) (n : Fin 1024) (c : Fin 8), s.live = true →
    ∃ t, exec (.pfcXoffRefresh n c) s = .next t ∧
      if (s.port n).xoffSent.testBit c = true then
        SentFrame s t n (pfcFrame n c 0xFFFF) ∧ t.counter 1 (64 * n + 27 + c) = (s.counter 1 (64 * n + 27 + c) + 1) % 2 ^ 64 ∧
        (t.port n).paused = (s.port n).paused ∧ (t.port n).xoffSent = (s.port n).xoffSent
      else t = s) ∧
  (∀ (s : State) (n : Fin 1024) (c : Fin 8), s.live = true →
    ∃ t, exec (.pfcQuantaExpiry n c) s = .next t ∧ (t.port n).paused.testBit c = false ∧
      ∀ k < 8, k ≠ c.val → (t.port n).paused.testBit k = (s.port n).paused.testBit k) ∧
  (∀ (s : State) (n : Fin 1024), s.live = true →
    ∃ t, exec (.pauseReceived n) s = .next t ∧ t.port n = s.port n ∧
      t.counter 1 (64 * n + 43) = (s.counter 1 (64 * n + 43) + 1) % 2 ^ 64)

/-- R156, R173, R196, R197, R213, R217: the head of a data frame that arrives on a port with its link up, and that a fabric port accepts at
its tag, leaves a frame in arrival whose copies stand in their queues; on a port that is not ready it is dropped and counted in
DROP_PORT_DOWN. A duplicate is counted and a rejected head puts the receiver in NAK state, and neither leaves a frame. R177, R178, R214: a
tail ends the arrival: one with a bad FCS, a FEC failure or a stomp raises its own counter, one shorter than 64 bytes or longer than
MAX_FRAME raises RUNT or OVERSIZE, and any other is counted in RX_FRAMES and RX_BYTES. -/
def Obligations.FramesArrive : Prop :=
  (∀ (s : State) (n : Fin 1024) (tag : Option (BitVec 48)) (head : List Byte), s.live = true → s.link n = 3 → (s.port n).arriving = none →
    s.inflight n = none → s.ownRow n (tagVn (tag.getD 0).toNat) head = false → (s.isFabric n = true → s.tagVerdict n tag = .accept) →
    ∃ t f x, exec (.frameHeaderArrival n tag head) s = .next t ∧ (t.port n).arriving = some f ∧ t.frame f = some x ∧ x.raw = head ∧
      x.ingress = some n.val ∧ x.checked = false ∧ (∀ k ∈ x.copies, f ∈ t.queue k.queue) ∧
      (s.portReady n = false → s.scecaToDevice head (parse head) = none →
        t.counter 1 (64 * n + 20) = (s.counter 1 (64 * n + 20) + 1) % 2 ^ 64 ∧ x.bytes = [] ∧ x.copies = [])) ∧
  (∀ (s : State) (n : Fin 1024) (tag : Option (BitVec 48)) (head : List Byte), s.live = true → s.link n = 3 → (s.port n).arriving = none →
    s.inflight n = none → s.ownRow n (tagVn (tag.getD 0).toNat) head = false → s.isFabric n = true →
    (s.tagVerdict n tag = .duplicate → ∃ t, exec (.frameHeaderArrival n tag head) s = .next t ∧ t.port n = s.port n ∧
      t.counter 1 (64 * n + 48) = (s.counter 1 (64 * n + 48) + 1) % 2 ^ 64) ∧
    (s.tagVerdict n tag = .reject → ∃ t, exec (.frameHeaderArrival n tag head) s = .next t ∧ t.port n = { s.port n with nak := true })) ∧
  (∀ (s : State) (n : Fin 1024) (rest : List Byte) (fcs : Fcs) (f : Nat) (x : FrameSt), s.live = true → (s.port n).arriving = some f →
    s.frame f = some x →
    let len := x.raw.length + rest.length + 4
    ∃ t, exec (.frameTailArrival n rest fcs) s = .next t ∧ (t.port n).arriving = none ∧
      match tailFault (x.raw ++ rest) fcs with
      | some (k, _) => t.counter 1 (64 * n + k) = (s.counter 1 (64 * n + k) + 1) % 2 ^ 64
      | none =>
        if s.rd PC_PORT_CFG_MAX_FRAME n < len then t.counter 1 (64 * n + 25) = (s.counter 1 (64 * n + 25) + 1) % 2 ^ 64
        else if len < 64 then t.counter 1 (64 * n + 24) = (s.counter 1 (64 * n + 24) + 1) % 2 ^ 64
        else t.counter 1 (64 * n) = (s.counter 1 (64 * n) + 1) % 2 ^ 64 ∧ t.counter 1 (64 * n + 1) = (s.counter 1 (64 * n + 1) + len) % 2 ^ 64)

/-- R209, R274, R277: a port with an idle wire starts the frame that its rounds choose: the head of a queue that has passed its tail or may
cut through, that no fence holds and whose first cells lie in SRAM; on a fabric port one that the replay store cannot take waits, with
REPLAY_LIMITED set (R200). A port whose wire is busy or whose link is not up starts nothing. R194, R199, R214: a frame whose tail has come
leaves with its last bit and leaves its queue: on an Ethernet port it goes out as it is, on a fabric port under the next sequence number and
into the replay store, and a good one is counted at its queue. R176: one too long for the port, or with cells that could not be read, ends
in a stomp. -/
def Obligations.FramesLeave : Prop :=
  (∀ (s : State) (n : Fin 1024) (c q f : Nat) (x : FrameSt) (a b : Drr), s.live = true → s.link n = 3 → (s.port n).sending = none →
    (∀ r ∈ s.portQueues n, s.headInSram r = true ∧ ∀ k g y, (s.port n).classOf r = some k → (s.queue r).head? = some g → s.frame g = some y →
      s.neverFits n k y.length = false) →
    s.pickClass n = some (c, a) → s.peekClass n c = some (q, b) → s.eligibleHead n q = some (f, x) →
    ∃ t, exec (.schedulerSelect n) s = .next t ∧
      if s.isFabric n = true ∧ s.storeTakes n (min x.length (s.rd PC_PORT_CFG_MAX_FRAME n) - 4) = false then
        (t.port n).sending = none ∧ t.rd PC_PORT_STATUS_REPLAY_LIMITED n = 1 ∧ t.pc.queues = s.pc.queues
      else
        (t.port n).sending = some f ∧ t.rd PC_PORT_STATUS_REPLAY_LIMITED n = 0 ∧
        (∃ y, t.frame f = some y ∧ y = { x with copies := y.copies } ∧ ∀ k ∈ y.copies, k.queue = q → k.started = true) ∧
        (s.queue q).head? = some f ∧ s.frame f = some x ∧ (x.checked = true ∨ x.ingress = none ∨ x.early = true) ∧ x.fenceHeld = false) ∧
  (∀ (s : State) (n : Fin 1024), s.live = true → s.link n ≠ 3 ∨ (s.port n).sending.isSome = true → exec (.schedulerSelect n) s = .next s) ∧
  (∀ (s : State) (n : Fin 1024) (sram : Sram) (f : Nat) (x : FrameSt) (k : Copy), s.live = true → (s.port n).sending = some f →
    s.frame f = some x → x.copies.find? (fun k => k.port == n.val && k.started && !k.done) = some k →
    (x.ended = false → exec (.frameDeparted n sram) s = .next s) ∧
    (x.ended = true → (s.port n).stale = none →
      let bytes := (k.edit x.bytes).take (s.rd PC_PORT_CFG_MAX_FRAME n - 4)
      let stomp := x.stomp.or (if s.rd PC_PORT_CFG_MAX_FRAME n < x.len then some 3 else if sram = .uncorrectable then some 5 else none)
      ∃ t, exec (.frameDeparted n sram) s = .next t ∧ (t.port n).sending = none ∧ f ∉ t.queue k.queue ∧
        (if s.isFabric n = true then
          Emitted s t (frameOut n (some (makeTag (s.port n).nextSeq true x.net)) bytes stomp) ∧
          ((s.port n).rtxDue = none → (s.port n).own = [] → (t.port n).nextSeq = ((s.port n).nextSeq + 1) % 2 ^ 16 ∧
            (t.port n).store = (s.port n).store ++ [⟨(s.port n).nextSeq, cellsOf (bytes.length + 4), x.net, bytes, some f, stomp⟩])
        else Emitted s t (frameOut n none bytes stomp)) ∧
        (stomp = none → t.counter 2 (4 * k.queue) = (s.counter 2 (4 * k.queue) + 1) % 2 ^ 64 ∧
          t.counter 2 (4 * k.queue + 1) = (s.counter 2 (4 * k.queue + 1) + bytes.length + 4) % 2 ^ 64)))

/-- R208 to R210, R212: one page of 16 cells leaves SRAM for a die's region, from the queue that must give it and from no other; none while
the Slipway is disabled or full. A queue with pages and too few cells at its head fetches its next, and no other does. A fetch that ends well
lands its 16 cells; one that does not sets UNCORRECTABLE of the die whose memory it read. R300: the fence packet at the head of its slot
becomes eligible once no packet of the phase before it is outstanding, and the next in the slot turns the phase. -/
def Obligations.SlipwayAndFencesMove : Prop :=
  (∀ (s : State) (die : Fin 2), s.live = true →
    ∃ t, exec (.slipwaySpill die) s = .next t ∧ (s.flag PC_SLIP_CFG_ENABLE die = false ∨ s.slipFull die = true → t.pc.slip = s.pc.slip) ∧
      (s.flag PC_SLIP_CFG_ENABLE die = true → s.slipFull die = false →
        match s.spillChoice die (s.longSpilling die) with
        | some q => t.pagesOf q = s.pagesOf q + 1 ∧ ∀ r, r ≠ q → t.slipOf r = s.slipOf r
        | none => t.pc.slip = s.pc.slip)) ∧
  (∀ (s : State) (q : Fin 1048576), s.live = true →
    let (h, p, g) := s.slipOf q
    ∃ t, exec (.slipwayPageFetch q) s = .next t ∧
      t.slipOf q = (if p ≠ 0 ∧ h + 16 * g < s.rd PC_SLIP_CFG_HEAD_CELLS (homeDie (q / 1024)) then (h, p - 1, g + 1) else (h, p, g)) ∧
      ∀ r, r ≠ q.val → t.slipOf r = s.slipOf r) ∧
  (∀ (s : State) (q : Fin 1048576) (ok : Bool), s.live = true →
    let (h, p, g) := s.slipOf q
    let lost := s.firstLost (s.pageAddress q 0) 4096
    g ≠ 0 → ∃ t, exec (.slipwayFetchDone q ok) s = .next t ∧
      if ok = true ∧ lost = none then t.slipOf q = (if p + (g - 1) = 0 then (0, 0, 0) else (h + 16, p, g - 1)) ∧ ∀ r, r ≠ q.val → t.slipOf r = s.slipOf r
      else t.rd MS_ERR_UNCORRECTABLE (stripeDie (lost.getD (stripeOf (s.pageAddress q 0)))) = 1) ∧
  (∀ (s : State) (k : Fin 65536) (f : Nat) (rest : List Nat) (x : FrameSt), s.live = true → (s.fence k).held = f :: rest →
    s.frame f = some x → f ∉ rest →
    ∃ t y, exec (.fenceRelease k) s = .next t ∧ t.frame f = some y ∧
      if (s.fence k).count (1 - (s.fence k).phase) = 0 then
        (t.fence k).held = rest ∧ y.fence = x.fence.map (fun e => (e.1, e.2.1, false)) ∧
        (t.fence k).phase = if rest = [] then (s.fence k).phase else 1 - (s.fence k).phase
      else t = s) ∧
  (∀ (s : State) (k : Fin 65536), s.live = true → (s.fence k).held = [] → exec (.fenceRelease k) s = .next s)

/-- R222 to R226, R231: FT_INSERT of a good image acts on each pipeline of its mask apart, and RESULT reports each. One whose image is being
loaded is left, and reported in [31:24]. A slot that holds the key is overwritten where the command or a LEARNED entry allows it, and the
table is left with EXISTS where not. Without such a slot the entry takes the first empty slot that its key hashes to; where there is none, the
entries along a path move to make room, each to another slot that its key hashes to; where there is no path, the first LEARNED entry among
the slots is evicted; and where there is none the table is left, without room and with REHASH_REQUEST. Pipelines outside the mask are left.
FT_DELETE empties the slot that holds the key and leaves every other, or reports the key absent. A descriptor that fails a check, one with a
bad image among them, completes with that check's status, and one whose image cannot be read with HOST_ACCESS_ERROR, and no table changes. -/
def Obligations.EndpointEntriesInsertAndDelete : Prop :=
  (∀ (s : State) (n : Fin 4096) (d : Desc) (bs : List Byte), bs.length = d.length →
    AdmittedWith s n 0x20 true (insertTest (some bs) (d.begun s)) d →
    ∃ t st r, exec (.ftInsert n (some bs)) s = .next t ∧ Answered s t d st r ∧ r < 2 ^ 32 ∧
      st = (if bitsOf r 15 8 ≠ 0 then .tableFull else if bitsOf r 31 24 ≠ 0 then .busy else if bitsOf r 23 16 ≠ 0 then .exists_ else .success) ∧
      ∀ p < 8,
        if (d.u8 24).testBit p = false then Reports r p 4 ∧ SameTable s t p
        else if s.flag FT_PIPE_CTL_IMAGE_LOAD p = true then Reports r p 3 ∧ SameTable s t p
        else match s.findKey p (imgKey bs) with
          | some c =>
            if d.u8 25 = 1 ∨ imgLearned (s.slot p c.1 c.2) = true then Reports r p 0 ∧ TableSet s t p c bs else Reports r p 2 ∧ SameTable s t p
          | none => match (s.candidates p (imgKey bs)).find? (fun c => (s.slot p c.1 c.2).isEmpty) with
            | some c => Reports r p 0 ∧ TableSet s t p c bs
            | none => match s.cuckooPath p (imgKey bs) with
              | some path => Reports r p 0 ∧ EntriesKept s t p ∧ ∃ c, path.head? = some c ∧ c ∈ s.candidates p (imgKey bs) ∧ t.slot p c.1 c.2 = bs
              | none => match (s.candidates p (imgKey bs)).find? (fun c => imgLearned (s.slot p c.1 c.2)) with
                | some c => Reports r p 0 ∧ TableSet s t p c bs ∧ t.rd FT_PIPE_STATUS_EVICTED p = 1
                | none => Reports r p 1 ∧ SameTable s t p ∧ t.rd FT_PIPE_STATUS_REHASH_REQUEST p = 1) ∧
  (∀ (s : State) (n : Fin 4096) (d : Desc) (bs : List Byte), bs.length = d.length →
    AdmittedWith s n 0x21 true (deleteTest (some bs) (d.begun s)) d →
    ∃ t st r, exec (.ftDelete n (some bs)) s = .next t ∧ Answered s t d st r ∧ r < 2 ^ 32 ∧
      st = (if bitsOf r 31 24 ≠ 0 then .busy else if bitsOf r 7 0 = 0 then .notFound else .success) ∧
      ∀ p < 8,
        if (d.u8 24).testBit p = false then Reports r p 4 ∧ SameTable s t p
        else if s.flag FT_PIPE_CTL_IMAGE_LOAD p = true then Reports r p 3 ∧ SameTable s t p
        else match s.findKey p (imgKey bs) with
          | some c => Reports r p 0 ∧ TableSet s t p c []
          | none => Reports r p 1 ∧ SameTable s t p) ∧
  (∀ (s : State) (n : Fin 4096) (d : Desc) (bs : List Byte) (st : Status) (detail : Nat),
    (RefusedWith s n 0x20 (insertTest (some bs) (d.begun s)) d st detail →
      ∃ t, exec (.ftInsert n (some bs)) s = .next t ∧ Answered s t d st 0 ∧ t.ft = s.ft) ∧
    (RefusedWith s n 0x21 (deleteTest (some bs) (d.begun s)) d st detail →
      ∃ t, exec (.ftDelete n (some bs)) s = .next t ∧ Answered s t d st 0 ∧ t.ft = s.ft)) ∧
  (∀ (s : State) (n : Fin 4096) (d : Desc),
    (Admitted s n 0x20 true d → ∃ t, exec (.ftInsert n none) s = .next t ∧ Answered s t d .hostAccessError 0 ∧ t.ft = s.ft) ∧
    (Admitted s n 0x21 true d → ∃ t, exec (.ftDelete n none) s = .next t ∧ Answered s t d .hostAccessError 0 ∧ t.ft = s.ft))

/-- R244 to R246: LPM_INSERT of a good image whose prefix is held overwrites it with RESULT 1; where fewer free units remain than an entry
takes it completes with TABLE_FULL and changes nothing; otherwise the family holds one entry more, with every entry it held, RESULT is
0, and entries that lay in order of non-increasing length still do. LPM_DELETE takes away an entry of its prefix and no entry of another,
or completes with NOT_FOUND. R248: while an image is loaded or checked either completes with BUSY (log 25), and no table changes. -/
def Obligations.PrefixesInsertAndDelete : Prop :=
  (∀ (s : State) (n : Fin 4096) (d : Desc) (bs : List Byte), AdmittedWith s n 0x22 true (lpmInsertTest (some bs) (d.begun s)) d →
    bs.length = d.length → s.lpmOpen = true →
    let f := lpmFamily bs
    lpmWidth f * (s.lpmEntries f).length ≤ s.lpmUnits f →
    ∃ t, exec (.lpmInsert n (some bs)) s = .next t ∧
      if (s.lpmEntries f).any (fun e => lpmKey e == lpmKey bs) = true then
        Answered s t d .success 1 ∧ bs ∈ t.lpmEntries f ∧ (t.lpmEntries f).length = (s.lpmEntries f).length ∧
        ∀ e ∈ s.lpmEntries f, lpmKey e ≠ lpmKey bs → e ∈ t.lpmEntries f
      else if s.lpmUnits f < lpmWidth f * ((s.lpmEntries f).length + 1) then Answered s t d .tableFull 0 ∧ t.ft.lpm = s.ft.lpm
      else Answered s t d .success 0 ∧ bs ∈ t.lpmEntries f ∧ (∀ e ∈ s.lpmEntries f, e ∈ t.lpmEntries f) ∧
        (t.lpmEntries f).length = (s.lpmEntries f).length + 1 ∧
        (nonIncreasing ((s.lpmEntries f).map lpmLength) = true → nonIncreasing ((t.lpmEntries f).map lpmLength) = true)) ∧
  (∀ (s : State) (n : Fin 4096) (d : Desc) (bs : List Byte), AdmittedWith s n 0x23 true (lpmDeleteTest (some bs) (d.begun s)) d →
    bs.length = d.length → s.lpmOpen = true →
    let f := lpmFamily bs
    lpmWidth f * (s.lpmEntries f).length ≤ s.lpmUnits f →
    ∃ t, exec (.lpmDelete n (some bs)) s = .next t ∧
      if (s.lpmEntries f).any (fun e => lpmKey e == lpmKey bs) = true then
        Answered s t d .success 0 ∧ (t.lpmEntries f).length < (s.lpmEntries f).length ∧ (∀ e ∈ t.lpmEntries f, e ∈ s.lpmEntries f) ∧
        (∀ e ∈ s.lpmEntries f, lpmKey e ≠ lpmKey bs → e ≠ [] → e ∈ t.lpmEntries f) ∧
        (nonIncreasing ((s.lpmEntries f).map lpmLength) = true → nonIncreasing ((t.lpmEntries f).map lpmLength) = true)
      else Answered s t d .notFound 0 ∧ t.ft.lpm = s.ft.lpm) ∧
  (∀ (s : State) (n : Fin 4096) (d : Desc) (bs : List Byte), bs.length = d.length → s.lpmOpen = false →
    (AdmittedWith s n 0x22 true (lpmInsertTest (some bs) (d.begun s)) d →
      ∃ t, exec (.lpmInsert n (some bs)) s = .next t ∧ Answered s t d .busy 0 ∧ t.ft = s.ft) ∧
    (AdmittedWith s n 0x23 true (lpmDeleteTest (some bs) (d.begun s)) d →
      ∃ t, exec (.lpmDelete n (some bs)) s = .next t ∧ Answered s t d .busy 0 ∧ t.ft = s.ft))

/-- R231, R233, R248, R249: setting IMAGE_LOAD empties the table of its pipeline alone and sets IMAGE_BUSY, which falls when the clearing
ends; clearing it sets IMAGE_BUSY for the check, after which every entry left is one that R222 and R223 allow, in a slot that its key hashes
to. An LPM image whose check fails is cleared whole and sets IMAGE_BAD; one that passes is kept. R254: a write of FT_GROUP_CFG takes the
members that FT_GROUP_MEMBER holds then; one whose COUNT is out of range is discarded. -/
def Obligations.TableImagesLoad : Prop :=
  (∀ (s : State) (p : Fin 8) (v : Word), s.barOpen = true → s.performs (FT_PIPE_CTL.offset p) = true → FT_PIPE_CTL_SPRAY_MODE.of v ≠ 3 →
    FT_PIPE_CTL_IMAGE_LOAD.isSet v = true → s.flag FT_PIPE_CTL_IMAGE_LOAD p = false →
    ∃ t, exec (.tableImageLoadStart p v) s = .next t ∧ t.flag FT_PIPE_CTL_IMAGE_LOAD p = true ∧ t.flag FT_PIPE_STATUS_IMAGE_BUSY p = true ∧
      t.tableOpen p = false ∧ (∀ w < 4, ∀ i < 0x100000, t.slot p w i = []) ∧ t.rd FT_PIPE_COUNT_STATIC p = 0 ∧ t.rd FT_PIPE_COUNT_LEARNED p = 0 ∧
      ∀ q < 8, q ≠ p.val → SameTable s t q) ∧
  (∀ (s : State) (p : Fin 8) (v : Word), s.barOpen = true → s.performs (FT_PIPE_CTL.offset p) = true → FT_PIPE_CTL_SPRAY_MODE.of v ≠ 3 →
    FT_PIPE_CTL_IMAGE_LOAD.isSet v = false → s.flag FT_PIPE_CTL_IMAGE_LOAD p = true →
    ∃ t, exec (.tableImageCheck p v) s = .next t ∧ t.flag FT_PIPE_CTL_IMAGE_LOAD p = false ∧ t.flag FT_PIPE_STATUS_IMAGE_BUSY p = true ∧ t.ft = s.ft) ∧
  (∀ (s : State) (p : Fin 8), s.live = true → (s.ft.endpoints.map (fun kv => kv.1)).Nodup →
    ∃ t, exec (.tableImageDone p) s = .next t ∧
      if s.flag FT_PIPE_STATUS_IMAGE_BUSY p = true then
        t.flag FT_PIPE_STATUS_IMAGE_BUSY p = false ∧
        if s.flag FT_PIPE_CTL_IMAGE_LOAD p = true then t.ft = s.ft
        else (∀ w < 4, ∀ i < 0x100000, t.slot p w i ≠ [] →
          t.slot p w i = s.slot p w i ∧ imageFault (t.slot p w i) = none ∧ s.hashSlot p w (imgKey (t.slot p w i)) = i) ∧
          ∀ q < 8, q ≠ p.val → SameTable s t q
      else t = s) ∧
  (∀ (s : State) (v : Word), s.barOpen = true → s.performs (FT_LPM_CFG.offset 0) = true →
    FT_LPM_CFG_V4_UNITS.of v = s.rd FT_LPM_CFG_V4_UNITS 0 ∨
      (s.ft.lpm = [] ∧ FT_LPM_CFG_V4_UNITS.of v % 4 = 0 ∧ FT_LPM_CFG_V4_UNITS.of v ≤ 0x80000) →
    (FT_LPM_CFG_IMAGE_LOAD.isSet v = true → s.flag FT_LPM_CFG_IMAGE_LOAD 0 = false →
      ∃ t, exec (.lpmImageLoadStart v) s = .next t ∧ t.ft.lpm = [] ∧ t.lpmOpen = false ∧ t.flag FT_LPM_STATUS_IMAGE_BUSY 0 = true) ∧
    (FT_LPM_CFG_IMAGE_LOAD.isSet v = false → s.flag FT_LPM_CFG_IMAGE_LOAD 0 = true →
      ∃ t, exec (.lpmImageCheck v) s = .next t ∧ t.ft.lpm = s.ft.lpm ∧ t.flag FT_LPM_CFG_IMAGE_LOAD 0 = false ∧
        t.flag FT_LPM_STATUS_IMAGE_BUSY 0 = true)) ∧
  (∀ (s : State), s.live = true →
    ∃ t, exec .lpmImageDone s = .next t ∧
      if s.flag FT_LPM_STATUS_IMAGE_BUSY 0 = true then
        t.flag FT_LPM_STATUS_IMAGE_BUSY 0 = false ∧
        if s.flag FT_LPM_CFG_IMAGE_LOAD 0 = true ∨ (s.areaGood 4 = true ∧ s.areaGood 6 = true) then t.ft.lpm = s.ft.lpm
        else t.ft.lpm = [] ∧ t.rd FT_LPM_STATUS_IMAGE_BAD 0 = 1
      else t = s) ∧
  (∀ (s : State) (g : Fin 4096) (v : Word), s.barOpen = true → s.performs (FT_GROUP_CFG.offset g) = true →
    ∃ t, exec (.sprayGroupCommit g v) s = .next t ∧
      if FT_GROUP_CFG_VALID.isSet v = true then
        if 1 ≤ FT_GROUP_CFG_COUNT.of v ∧ FT_GROUP_CFG_COUNT.of v ≤ 32 then
          sget [] t.ft.groups g = (List.range (FT_GROUP_CFG_COUNT.of v)).map (s.memberWord g)
        else t.ft = s.ft ∧ t.word (FT_GROUP_CFG.offset g) = s.word (FT_GROUP_CFG.offset g)
      else sget [] t.ft.groups g = [])

/-- R234 to R236: a queued learn, while learning runs, becomes a LEARNED entry of its port in the first empty slot that its address hashes
to; one that hits a LEARNED entry of another port moves it; any other entry of that address is left; one that finds no room sets
LEARN_DROPPED. While an image is checked it waits, and with learning off or an image being loaded it is dropped. R239: enabling the record
buffer takes effect, and its counts start at zero, only where its settings are good. R241, R242: a visit of the sweeper to an entry with AGE
clears HIT and STALE, or sets STALE, or removes the entry, and leaves every other. R250, R253: a shadow compare writes the digests of its
blocks to HOST_ADDR, with the changes that met its scan in RESULT, and is BUSY while the table loads. -/
def Obligations.LearningAgingAndCompare : Prop :=
  (∀ (s : State) (p : Fin 8) (vid mac port : Nat) (rest : List (Nat × Nat × Nat)), s.live = true →
    sget [] s.ft.learns p = (vid, mac, port) :: rest →
    ∃ t, exec (.learn p) s = .next t ∧
      if s.flag FT_PIPE_CTL_IMAGE_LOAD p = true ∨ s.flag FT_PIPE_CTL_LEARN p = false then sget [] t.ft.learns p = rest ∧ SameTable s t p
      else if s.flag FT_PIPE_STATUS_IMAGE_BUSY p = true then t = s
      else sget [] t.ft.learns p = rest ∧
        match s.findKey p (l2Key vid mac) with
        | none => match (s.candidates p (l2Key vid mac)).find? (fun c => (s.slot p c.1 c.2).isEmpty) with
          | some c => TableSet s t p c (learnedImage vid mac port)
          | none => s.cuckooPath p (l2Key vid mac) = none → SameTable s t p ∧ t.rd FT_PIPE_STATUS_LEARN_DROPPED p = 1
        | some c =>
          if imgLearned (s.slot p c.1 c.2) = true ∧ ¬(imgAction (s.slot p c.1 c.2) = 1 ∧ imgTarget (s.slot p c.1 c.2) = port) then
            TableSet s t p c (overlay (s.slot p c.1 c.2) 34 (natLe 2 port))
          else SameTable s t p) ∧
  (∀ (s : State) (v : Word), s.barOpen = true → s.performs (FT_LEARN_CFG.offset 0) = true →
    FT_LEARN_CFG_ENABLE.isSet v = true → s.flag FT_LEARN_CFG_ENABLE 0 = false →
    ∃ t, exec (.learnEnable v) s = .next t ∧
      if s.rd FT_LEARN_BASE_ADDR 0 % 4096 = 0 ∧ 8 ≤ FT_LEARN_CFG_LOG2.of v ∧ FT_LEARN_CFG_LOG2.of v ≤ 20 ∧
          (s.plainWrite FT_LEARN_CFG 0 v).learnBufferOk = true then
        t.flag FT_LEARN_CFG_ENABLE 0 = true ∧ t.rd FT_LEARN_PROD_COUNT 0 = 0 ∧ t.rd FT_LEARN_CONS_COUNT 0 = 0
      else t.flag FT_LEARN_CFG_ENABLE 0 = false ∧ t.rd FT_LEARN_STATUS_CFG_ERR 0 = 1) ∧
  (∀ (s : State) (p : Fin 8) (w : Fin 4) (i : Fin 1048576), s.live = true →
    let img := s.slot p w i
    let f := imgFlags img
    ∃ t, exec (.ageSweepVisit p w i) s = .next t ∧
      if s.flag FT_AGE_CFG_ENABLE 0 = false ∨ s.tableOpen p = false ∨ img = [] ∨ f.testBit 6 = false then t = s
      else if f.testBit 5 = true then TableSet s t p (w.val, i.val) (imgWithFlags img (f &&& 0xCF))
      else if f.testBit 4 = false then TableSet s t p (w.val, i.val) (imgWithFlags img (f ||| 0x10))
      else TableSet s t p (w.val, i.val) []) ∧
  (∀ (s : State) (n : Fin 4096) (d : Desc) (met : Nat), Admitted s n 0x24 false d →
    (d.u8 24 < 8 → s.flag FT_PIPE_CTL_IMAGE_LOAD (d.u8 24) = true →
      ∃ t, exec (.ftShadowCompare n true met) s = .next t ∧ Answered s t d .busy 0) ∧
    (¬(d.u8 24 < 8 ∧ s.flag FT_PIPE_CTL_IMAGE_LOAD (d.u8 24) = true) →
      (∃ t, exec (.ftShadowCompare n true met) s = .next t ∧ Answered s t d .success (s.changesMet d met % 2 ^ 32) ∧
        (d.u32 32 ≠ 0 → WroteHost s t d (((List.range (d.u32 32)).map (fun k => d.u32 28 + k)).flatMap
          (fun b => if d.u8 24 < 8 then s.tableDigest (d.u8 24) b else s.lpmDigest b)))) ∧
      ∃ t, exec (.ftShadowCompare n false met) s = .next t ∧ Answered s t d .hostAccessError 0))

/-- R288 to R291: an accepted COMMIT leaves a pending copy of the administrative list, PENDING set, and as its change time the base time or
the first of its repetitions that is not earlier than 10 µs on; a refused one leaves both copies and sets GATE_REFUSED. At the change time the
pending list becomes operational, and cycles begin at it. A cycle begins where the one before it is not extended to the change time, and
within a cycle the entries follow in order, the last one holding to its end. -/
def Obligations.GatesRun : Prop :=
  (∀ (s : State) (k : Fin 128) (v : Word), s.barOpen = true → s.performs (TQ_GATE_CTL.offset k) = true → TQ_GATE_CTL_COMMIT.isSet v = true →
    let u := s.plainWrite TQ_GATE_CTL k v
    let change := changeTime (s.rd TQ_GATE_BASE_S_SECONDS k * 1000000000 + s.rd TQ_GATE_BASE_NS_NS k)
      (s.rd TQ_GATE_CYCLE_CYCLE_NS k) ((s.dom (TQ_GATE_CTL_DOMAIN.of v)).total + 10000)
    ∃ t, exec (.gateCommit k v) s = .next t ∧
      if u.commitOk k = true then
        t.flag TQ_GATE_STATUS_PENDING k = true ∧ (t.gate k).pending = u.adminList k ∧ (t.gate k).pendingCycle = s.rd TQ_GATE_CYCLE_CYCLE_NS k ∧
        (t.gate k).pendingExt = s.rd TQ_GATE_CYCLE_EXT_NS k ∧ (t.gate k).oper = (s.gate k).oper ∧ (t.gate k).pendingDomain = TQ_GATE_CTL_DOMAIN.of v ∧
        t.rd TQ_GATE_STATUS_CHANGE_NS k = change % 1000000000 ∧ t.rd TQ_GATE_CHANGE_S_SECONDS k = change / 1000000000 % 2 ^ 48
      else t.tq = s.tq ∧ t.rd TQ_ERR_GATE_REFUSED 0 = 1) ∧
  (∀ (s : State) (k : Fin 128), s.live = true → s.flag TQ_GATE_STATUS_PENDING k = true →
    ∃ t, exec (.gateChange k) s = .next t ∧ (t.gate k).oper = (s.gate k).pending ∧ (t.gate k).operCycle = (s.gate k).pendingCycle ∧
      (t.gate k).operExt = (s.gate k).pendingExt ∧ (t.gate k).domain = (s.gate k).pendingDomain ∧
      (t.gate k).cycleStart = s.gateChange k ∧ (t.gate k).entry = 0 ∧ t.flag TQ_GATE_STATUS_PENDING k = false ∧
      t.flag TQ_GATE_STATUS_OPER_VALID k = true ∧
      ∀ e < 64, t.rd TQ_GATE_OPER_STATES (64 * k + e) = ((s.gate k).pending.getD e (0, 0)).1 % 256) ∧
  (∀ (s : State) (k : Fin 128), s.live = true → s.flag TQ_GATE_STATUS_PENDING k = false → exec (.gateChange k) s = .next s) ∧
  (∀ (s : State) (k : Fin 128), s.live = true →
    ∃ t, exec (.gateCycleStart k) s = .next t ∧
      if s.flag TQ_GATE_STATUS_OPER_VALID k = true ∧ s.gateExtends k = false then
        (t.gate k).cycleStart = (s.gate k).cycleStart + (s.gate k).operCycle ∧ (t.gate k).entry = 0 ∧ (t.gate k).oper = (s.gate k).oper
      else t = s) ∧
  (∀ (s : State) (k : Fin 128), s.live = true →
    ∃ t, exec (.gateEntryEnd k) s = .next t ∧
      if s.flag TQ_GATE_STATUS_OPER_VALID k = true ∧ (s.gate k).entry + 1 < (s.gate k).oper.length then
        (t.gate k).entry = (s.gate k).entry + 1 ∧ (t.gate k).oper = (s.gate k).oper
      else t = s)

/-- R281, R283, R284: a write of word 0 of a profile applies its three words to every meter of the profile, which keeps the tokens of each
bucket up to its new size, and is refused where CBS is below 9,216 bytes or a two-rate profile is out of bounds; a write of a meter's settings
restarts it with both buckets full; a refill adds what its rates give to each bucket, and no more than is missing. Other meters are left. -/
def Obligations.MetersRun : Prop :=
  (∀ (s : State) (r : Fin 256) (v : Word), s.barOpen = true → s.performs (TQ_METER_PROFILE.offset (4 * r)) = true →
    let w1 := s.rd TQ_METER_PROFILE_WORD (4 * r + 1)
    let w2 := s.rd TQ_METER_PROFILE_WORD (4 * r + 2)
    ∃ t, exec (.meterProfileApply r v) s = .next t ∧
      if w2 % 2 ^ 32 < 9216 ∨ (v.toNat.testBit 63 = true ∧ (w1 / 2 ^ 32 < w1 % 2 ^ 32 ∨ w2 / 2 ^ 32 < 9216)) then
        t.tq = s.tq ∧ t.rd TQ_ERR_METER_REFUSED 0 = 1 ∧ t.word (TQ_METER_PROFILE.offset (4 * r)) = s.word (TQ_METER_PROFILE.offset (4 * r))
      else (t.profile r).2 = (w1, w2) ∧
        ∀ m < 65536, if s.meterProfile m = r then
            (t.meter m).c = w2 % 2 ^ 32 * 8000 - min (profCbs (s.profile r) * 8000 - (s.meter m).c) (w2 % 2 ^ 32 * 8000) ∧
            (t.meter m).e = w2 / 2 ^ 32 * 8000 - min (profEbs (s.profile r) * 8000 - (s.meter m).e) (w2 / 2 ^ 32 * 8000)
          else t.meter m = s.meter m) ∧
  (∀ (s : State) (m : Fin 65536) (v : BitVec 32), s.barOpen = true → s.performs (TQ_METER_CFG.offset m) = true →
    ∃ t, exec (.meterRestart m v) s = .next t ∧ t.meter m = ⟨0, 0⟩ ∧ t.meterProfile m = v.toNat % 256 ∧
      ∀ k < 65536, k ≠ m.val → t.meter k = s.meter k) ∧
  (∀ (s : State) (m : Fin 65536) (ns : Nat), s.live = true →
    ∃ t, exec (.meterRefill m ns) s = .next t ∧
      let w := s.profile (s.meterProfile m)
      let v := s.meter m
      (t.meter m).c = v.c - profCir w * ns ∧
      (t.meter m).e = (if profTwoRate w = true then v.e - profPir w * ns else v.e - (profCir w * ns - v.c)) ∧
      ∀ k, k ≠ m.val → t.meter k = s.meter k)

/-- R415 to R418, R457: GROUP_REGISTER of a record that passes the checks of R415 registers it at the lowest free index under the next
TAG of that index, answers the handle, and leaves every other group; a record that fails one answers that check's status and registers
nothing; a retained group's own record restores it. GROUP_RELEASE forgets a group that is not armed, and answers BUSY for one that is
and NOT_FOUND for a handle that names none of the partition's. -/
def Obligations.GroupsRegisterAndRelease : Prop :=
  (∀ (s : State) (n : Fin 4096) (d : Desc) (bs : List Byte), Admitted s n 0x30 true d → bs.length = d.length → grReplace bs = false →
    s.restorable d.partition bs = none → s.recordRefused d.partition bs none = none → s.groupRoom none (grMembers bs) = true →
    let i := lowestFree 0 (s.cl.groups.map (fun kv => kv.1))
    ∃ t g, exec (.groupRegister n (some bs)) s = .next t ∧ Answered s t d .success (handleOf i g % 2 ^ 64) ∧ t.group i = some g ∧
      g.record = bs ∧ g.partition = d.partition ∧ g.armed = none ∧ g.retained = none ∧
      g.tag = (if sget 0 s.cl.tags i = 0xFFFF then 1 else sget 0 s.cl.tags i + 1) ∧ ∀ j, j ≠ i → t.group j = s.group j) ∧
  (∀ (s : State) (n : Fin 4096) (d : Desc) (bs : List Byte) (i : Nat) (g : GroupSt) (st : Status) (x : Nat), Admitted s n 0x30 true d →
    bs.length = d.length → s.restorable d.partition bs = none → grReplace bs = true → s.groupFor d (grGroup bs) = some (i, g) →
    (s.recordRefused d.partition bs (some (i, g)) = some (st, x) →
      ∃ t, exec (.groupRegister n (some bs)) s = .next t ∧ Answered s t d st 0 ∧ t.cl = s.cl) ∧
    (s.recordRefused d.partition bs (some (i, g)) = none → g.armed = none → s.groupRoom (some i) (grMembers bs) = true →
      ∃ t h, exec (.groupRegister n (some bs)) s = .next t ∧ Answered s t d .success (grGroup bs) ∧ t.group i = some h ∧ h.record = bs ∧
        h.tag = g.tag)) ∧
  (∀ (s : State) (n : Fin 4096) (d : Desc) (bs : List Byte) (st : Status) (x : Nat), Admitted s n 0x30 true d → bs.length = d.length →
    s.restorable d.partition bs = none → grReplace bs = false → s.recordRefused d.partition bs none = some (st, x) →
    ∃ t, exec (.groupRegister n (some bs)) s = .next t ∧ Answered s t d st 0 ∧ t.cl = s.cl) ∧
  (∀ (s : State) (n : Fin 4096) (d : Desc) (bs : List Byte) (i : Nat) (g : GroupSt), Admitted s n 0x30 true d → bs.length = d.length →
    s.restorable d.partition bs = some (i, g) →
    ∃ t, exec (.groupRegister n (some bs)) s = .next t ∧ Answered s t d .success ((2 ^ 32 + handleOf i g) % 2 ^ 64) ∧
      t.group i = some { g with retained := none }) ∧
  (∀ (s : State) (n : Fin 4096) (d : Desc), Admitted s n 0x30 true d →
    ∃ t, exec (.groupRegister n none) s = .next t ∧ Answered s t d .hostAccessError 0) ∧
  (∀ (s : State) (n : Fin 4096) (d : Desc), Admitted s n 0x31 false d →
    ∃ t, exec (.groupRelease n) s = .next t ∧
      match s.groupFor d (d.u32 24) with
      | none => Answered s t d .notFound 0 ∧ t.cl = s.cl
      | some (i, g) =>
        if g.armed.isSome = true then Answered s t d .busy 0 ∧ t.cl = s.cl
        else Answered s t d .success 0 ∧ t.group i = none ∧ ∀ j, j ≠ i → t.group j = s.group j)

/-- R421, R424: CONTEXT_ARM answers NOT_FOUND for no group of the partition, SUCCESS or BUSY for one that is armed as the descriptor says
or otherwise, the status of the first check that fails, or SUCCESS with the number of its contexts; a BARRIER group is then armed with
one context and its mooring starts from zero. CONTEXT_DISARM answers NOT_FOUND for no group and SUCCESS for one that is not armed; an
armed BARRIER group that has no operation is released at once. -/
def Obligations.ContextsArmAndDisarm : Prop :=
  (∀ (s : State) (n : Fin 4096) (d : Desc), Admitted s n 0x32 false d →
    ∃ t, exec (.contextArm n) s = .next t ∧
      match s.groupFor d (d.u32 24) with
      | none => Answered s t d .notFound 0 ∧ t.cl = s.cl
      | some (i, g) =>
        match g.armed with
        | some a =>
          t.cl = s.cl ∧
          if a.first = d.u32 28 ∧ a.count = d.u32 32 ∧ a.disarm = none then Answered s t d .success (a.legs.length % 2 ^ 64) else Answered s t d .busy 0
        | none =>
          match s.armRefused g.record d.partition (d.u32 32) with
          | some (st, _) => Answered s t d st 0 ∧ t.cl = s.cl
          | none => Answered s t d .success (grContexts g.record) ∧
            (grOp g.record = 6 → grLegs g.record = 0 → s.cl.waits = [] → ∃ a, t.armed i = some a ∧ a.first = d.u32 28 ∧ a.count = d.u32 32 ∧ a.disarm = none ∧
              (t.mooring (grMooring g.record)).count = 0 ∧ (t.mooring (grMooring g.record)).target = grMembers g.record)) ∧
  (∀ (s : State) (n : Fin 4096) (d : Desc), Admitted s n 0x33 false d →
    match s.groupFor d (d.u32 24) with
    | none => ∃ t, exec (.contextDisarm n) s = .next t ∧ Answered s t d .notFound 0 ∧ t.cl = s.cl
    | some (i, g) =>
      match g.armed with
      | none => ∃ t, exec (.contextDisarm n) s = .next t ∧ Answered s t d .success 0 ∧ t.cl = s.cl
      | some a => grOp g.record = 6 → grLegs g.record = 0 → a.ops = [] → (∀ e ∈ s.hi.descs, e.id = d.id → e = d) →
        ∃ t, exec (.contextDisarm n) s = .next t ∧ Answered s t d .success 0 ∧ t.armed i = none)

/-- R438, R446, R452: a launch for no HOST group, of a sequence already acknowledged, too far on, or of another count, is refused with
the status R438 names; a repeat of one whose record stands completes with it; the next sequence of an armed BARRIER or JOB_BROADCAST
group is taken, and a broadcast's bytes enter device memory as the version held. RESULT_ACK answers SUCCESS for an operation whose
record stands or that was acknowledged before, BUSY before its record, and NOT_FOUND for one not launched. -/
def Obligations.OperationsLaunchAndAcknowledge : Prop :=
  (∀ (s : State) (n : Fin 4096) (d : Desc) (data : HostData), Admitted s n 0x34 true d →
    (s.groupFor d (d.u32 24) = none →
      ∃ t, exec (.collectiveLaunch n data) s = .next t ∧ Answered s t d .notFound 0 ∧ t.cl = s.cl) ∧
    (∀ i g, s.groupFor d (d.u32 24) = some (i, g) →
      (grHost g.record = false → ∃ t, exec (.collectiveLaunch n data) s = .next t ∧ Answered s t d .badField 0 ∧ t.cl = s.cl) ∧
      (grHost g.record = true → g.armed = none → ∃ t, exec (.collectiveLaunch n data) s = .next t ∧ Answered s t d .notFound 0 ∧ t.cl = s.cl) ∧
      ∀ a, grHost g.record = true → g.armed = some a → grOp g.record ≠ 7 →
        (seqBefore (d.u32 28) a.oldest = true → ∃ t, exec (.collectiveLaunch n data) s = .next t ∧ Answered s t d .notFound 0 ∧ t.cl = s.cl) ∧
        (seqBefore (d.u32 28) a.oldest = false →
          (∀ o, a.op (d.u32 28) = some o → o.launched = true →
            (o.count ≠ d.u32 32 → ∃ t, exec (.collectiveLaunch n data) s = .next t ∧ Answered s t d .badField 0 ∧ t.cl = s.cl) ∧
            (o.count = d.u32 32 → o.produced = true → o.rerun = false → o.replayed = false → o.reruns = 0 →
              ∃ t, exec (.collectiveLaunch n data) s = .next t ∧ Answered s t d .success (o.time % 2 ^ 64) ∧ t.cl = s.cl)) ∧
          (a.op (d.u32 28) = none → d.u32 28 ≠ a.nextLaunch → seqBefore (d.u32 28) a.nextLaunch = false →
            ∃ t, exec (.collectiveLaunch n data) s = .next t ∧ Answered s t d .busy 0 ∧ t.cl = s.cl)))) ∧
  (∀ (s : State) (n : Fin 4096) (d : Desc) (raw : List Byte) (i : Nat) (g : GroupSt) (a : Armed), Admitted s n 0x34 true d →
    raw.length = d.length → s.groupFor d (d.u32 24) = some (i, g) → grHost g.record = true → g.armed = some a → d.u32 28 = a.nextLaunch →
    a.disarm = none → a.lost = [] → countOk g.record (s.projects g.record) (d.u32 32) = true → s.launchRefused d g.record raw = none →
    (grOp g.record = 6 → seqBefore (d.u32 28) a.oldest = false → a.op (d.u32 28) = none →
      ∃ t b, exec (.collectiveLaunch n (some raw)) s = .next t ∧ t.armed i = some b ∧ b.nextLaunch = (d.u32 28 + 1) % 2 ^ 32) ∧
    (grOp g.record = 7 → g.bcast.held.any (fun h => h.1 == d.u32 28) = false →
      ∃ t h, exec (.collectiveLaunch n (some raw)) s = .next t ∧ t.group i = some h ∧ h.bcast.held = some (d.u32 28, (raw.drop 64).length) ∧
        h.bcast.acks = [])) ∧
  (∀ (s : State) (n : Fin 4096) (d : Desc), Admitted s n 0x35 false d →
    ∃ t, exec (.resultAck n) s = .next t ∧
      match s.groupFor d (d.u32 24) with
      | none => Answered s t d .notFound 0
      | some (_, g) =>
        match g.armed with
        | none => Answered s t d .success 0
        | some a =>
          if grOp g.record = 7 then Answered s t d (g.bcast.ackStatus (grMembers g.record) (d.u32 28)) 0
          else Answered s t d (if seqBefore (d.u32 28) a.oldest = true then .success else match a.op (d.u32 28) with
            | none => .notFound
            | some o => if o.launched = false then .notFound else if o.produced = true then .success else .busy) 0)

/-- R427 to R429, R491: MOORING_SET stores or adds to COUNT and stores TARGET unless told to keep it, applies ACTION to the result, and
completes every wait that the new COUNT reaches; of a landing mooring it is BUSY, and other moorings are left. MOORING_WAIT completes at
once where COUNT has reached its value, and otherwise waits, or is BUSY where 8,192 others wait. R489, R506: ATOMIC_CAS and ATOMIC_ADD, on a
word that can be read and whatever the caches hold of it, answer the old word and leave the new one, except that a comparison that fails
leaves it, and leave every other byte of device memory; an uncorrectable word completes with DATA_UNCORRECTABLE. -/
def Obligations.MooringsAndAtomicsAct : Prop :=
  (∀ (s : State) (n : Fin 4096) (d : Desc), Admitted s n 0x40 false d →
    let m := d.u32 24
    let o := d.u8 48
    let target := if o.testBit 6 = true then (s.mooring m).target else d.u64 40
    let sum := if o.testBit 7 = true then ((s.mooring m).count + d.u64 32) % 2 ^ 64 else d.u64 32
    let count := if o % 4 = 2 ∧ target < sum then target else sum
    ∃ t, exec (.mooringSet n) s = .next t ∧
      if s.landingMooring m = true then Answered s t d .busy 0 ∧ t.ms = s.ms
      else if o % 4 = 1 ∧ target = 0 then Answered s t d .badField 0 ∧ t.ms = s.ms
      else Answered s t d .success 0 ∧ (t.mooring m).target = target ∧ (t.mooring m).action = o % 4 ∧
        (t.mooring m).count = (if o % 4 = 1 ∧ target ≤ count then count % target else count) ∧
        (∀ k, k ≠ m → t.mooring k = s.mooring k) ∧
        ∀ w ∈ s.hi.descs, w.started = true → w.opcode = 0x41 → w.u32 24 = m → w.silent = false → w.id ≠ d.id → w.u64 32 ≤ count →
          Answered s t w .success (count % 2 ^ 64)) ∧
  (∀ (s : State) (n : Fin 4096) (d : Desc), Admitted s n 0x41 false d →
    ∃ t, exec (.mooringWait n) s = .next t ∧ t.ms = s.ms ∧
      if d.u64 32 ≤ (s.mooring (d.u32 24)).count then Answered s t d .success ((s.mooring (d.u32 24)).count % 2 ^ 64)
      else if 8192 < (s.startDesc d).hi.descs.countP (fun e => e.started && e.opcode == 0x41) then Answered s t d .busy 0
      else t = s.startDesc d) ∧
  (∀ (s : State) (n : Fin 4096) (sram : Sram) (d : Desc), s.Coherent → Admitted s n 0x42 false d → sram ≠ .uncorrectable →
    s.firstLost (d.u64 24) 8 = none →
    let a := d.u64 24
    let old := s.memWord a
    ∃ t, exec (.atomicCas n sram) s = .next t ∧ t.Coherent ∧
      if old = d.u64 32 then Answered s t d .success old ∧
        ∀ b, t.memByte b = if a ≤ b ∧ b < a + 8 then (natLe 8 (d.u64 40)).getD (b - a) 0 else s.memByte b
      else Answered s t d .casMiscompare old ∧ ∀ b, t.memByte b = s.memByte b) ∧
  (∀ (s : State) (n : Fin 4096) (sram : Sram) (d : Desc), s.Coherent → Admitted s n 0x43 false d → sram ≠ .uncorrectable →
    s.firstLost (d.u64 24) 8 = none →
    let a := d.u64 24
    let old := s.memWord a
    ∃ t, exec (.atomicAdd n sram) s = .next t ∧ t.Coherent ∧ Answered s t d .success old ∧
      ∀ b, t.memByte b = if a ≤ b ∧ b < a + 8 then (natLe 8 ((old + d.u64 32) % 2 ^ 64)).getD (b - a) 0 else s.memByte b) ∧
  (∀ (s : State) (n : Fin 4096) (sram : Sram) (d : Desc) (x : Nat), sram ≠ .uncorrectable → s.firstLost (d.u64 24) 8 = some x →
    (Admitted s n 0x42 false d → ∃ t, exec (.atomicCas n sram) s = .next t ∧ Answered s t d .dataUncorrectable 0 ∧ ∀ b, t.memByte b = s.memByte b) ∧
    (Admitted s n 0x43 false d → ∃ t, exec (.atomicAdd n sram) s = .next t ∧ Answered s t d .dataUncorrectable 0 ∧ ∀ b, t.memByte b = s.memByte b))

/-- R363, R366: a MANIFEST_LOAD of an image that passes the load checks stands in its slot, which is LOADED; a refused one leaves the slot
as it was; either is entered in the attestation log; a slot in use is BUSY. ACTIVATE, DEACTIVATE and UNLOAD answer the first
precondition that fails, or take their effect on the slot's state. R365 (with log 84): a load from a staging area ends with the ring's
next MANIFEST_LOAD. -/
def Obligations.ManifestsChangeState : Prop :=
  (∀ (s : State) (n : Fin 4096) (d : Desc) (bs : List Byte), Admitted s n 0x50 false d → s.loaderFree d = true →
    s.loadUnderWay n = none → s.hi.d3hot = false → d.u8 27 ≠ 1 → bs.length = d.length →
    let k := d.slot
    ∃ t, exec (.manifestLoad n (some bs)) s = .next t ∧
      if 2 ≤ s.slotState k then Answered s t d .busy 0 ∧ t.re = s.re
      else t.rd EV_LOG_COUNT_COUNT 0 = (s.rd EV_LOG_COUNT_COUNT 0 + 1) % 2 ^ 64 ∧
        match manifestFault bs d.length d.partition k (s.rd MF_DIE_STATUS_STORE_FREE (k / 64) + s.storedKiB k) with
        | some f => Answered s t d .manifestRejected (refusalResult f % 2 ^ 64) ∧ t.mslot k = s.mslot k ∧ t.slotState k = s.slotState k
        | none => Answered s t d .success 0 ∧ (t.mslot k).image = bs ∧ t.slotState k = 1 ∧ t.getBytes MF_SLOT_DIGEST (8 * k) 4 = sm3 bs) ∧
  (∀ (s : State) (n : Fin 4096) (d : Desc), Admitted s n 0x50 false d → s.loaderFree d = true → s.loadUnderWay n = none →
    (d.u8 27 = 1 → exec (.manifestLoad n none) s = .next (s.startDesc d)) ∧
    (d.u8 27 ≠ 1 → s.hi.d3hot = false → s.slotState d.slot < 2 → ∃ t, exec (.manifestLoad n none) s = .next t ∧ Answered s t d .hostAccessError 0)) ∧
  (∀ (s : State) (n : Fin 4096) (d : Desc) (data : HostData), s.live = true → s.loadUnderWay n = some d → d.silent = false → d.atRead = false → d.u8 27 = 1 →
    s.slotState d.slot < 2 →
    let m := sbytes s.re.areas (2 ^ 24 * (d.slot / 64)) d.length
    ∃ t, exec (.manifestLoad n data) s = .next t ∧
      match manifestFault m d.length d.partition d.slot (s.rd MF_DIE_STATUS_STORE_FREE (d.slot / 64) + s.storedKiB d.slot) with
      | some f => Answered s t d .manifestRejected (refusalResult f % 2 ^ 64)
      | none => Answered s t d .success 0 ∧ (t.mslot d.slot).image = m ∧ t.slotState d.slot = 1) ∧
  (∀ (s : State) (n : Fin 4096) (d : Desc), Admitted s n 0x51 false d → s.loaderFree d = true → d.u8 27 ≠ 1 → d.u8 27 ≠ 2 →
    let k := d.slot
    let m := (s.mslot k).image
    ∃ t, exec (.manifestActivate n) s = .next t ∧
      if s.slotState k = 0 then Answered s t d .notFound 0 ∧ t.re = s.re
      else if s.slotState k ≠ 1 ∨ s.tilesTaken k m = true then Answered s t d .busy 0 ∧ t.re = s.re
      else if s.matricesInside m = false then Answered s t d .protectionFault 0 ∧ t.re = s.re
      else match s.reservationRefused k m with
        | some r => Answered s t d .quotaExceeded (r % 2 ^ 64) ∧ t.re = s.re
        | none => t.slotState k = 2 ∧ t.rd MF_SLOT_EPOCHS_EPOCHS k = 0 ∧ (t.mslot k).image = m ∧
          let first := if mfTrigger m = 1 then 0 else firstInstant m ((s.dom (mfDomain m)).total + 10000)
          Answered s t d .success (first % 2 ^ 64) ∧ (t.mslot k).next = first) ∧
  (∀ (s : State) (n : Fin 4096) (d : Desc), Admitted s n 0x51 false d → s.loaderFree d = true → d.u8 27 = 1 →
    let k := d.slot
    ∃ t, exec (.manifestDeactivate n) s = .next t ∧
      if s.slotState k = 0 then Answered s t d .notFound 0
      else if s.slotState k ≠ 2 ∨ (s.mslot k).bound ≠ [] then Answered s t d .busy 0
      else if (s.mslot k).run.all (fun e => e.ended) = true then Answered s t d .success 0 ∧ t.slotState k = 1
      else t.slotState k = 3 ∧ ∃ e ∈ t.hi.descs, e.id = d.id) ∧
  (∀ (s : State) (n : Fin 4096) (d : Desc), Admitted s n 0x51 false d → s.loaderFree d = true → d.u8 27 = 2 →
    let k := d.slot
    ∃ t, exec (.manifestUnload n) s = .next t ∧
      if s.slotState k = 0 then Answered s t d .success 0 ∧ t.re = s.re
      else if s.slotState k ≠ 1 then Answered s t d .busy 0 ∧ t.re = s.re
      else Answered s t d .success 0 ∧ t.slotState k = 0 ∧ t.mslot k = SlotSt.reset)

/-- R308, R309, R311: COUNTER_SNAPSHOT writes the values of its counters, eight bytes each in order, to HOST_ADDR, and answers the time.
R621: FAULT_LOG_READ writes the records of its sequence numbers, zeros for those the log does not hold, and answers the oldest and the
next sequence number. Either answers HOST_ACCESS_ERROR where host memory does not take the bytes. -/
def Obligations.SnapshotsAndLogReads : Prop :=
  (∀ (s : State) (n : Fin 4096) (d : Desc), Admitted s n 0x60 false d →
    (∃ t, exec (.counterSnapshot n true) s = .next t ∧ Answered s t d .success s.now64 ∧
      (d.u32 32 ≠ 0 → WroteHost s t d
        ((List.range (d.u32 32)).flatMap (fun k => natLe 8 (s.counter (d.u8 24) (d.u32 28 + k)))))) ∧
    ∃ t, exec (.counterSnapshot n false) s = .next t ∧ Answered s t d .hostAccessError 0) ∧
  (∀ (s : State) (n : Fin 4096) (d : Desc), Admitted s n 0x70 false d →
    (∃ t, exec (.faultLogRead n true) s = .next t ∧
      Answered s t d .success (s.rd FH_LOG_STATUS_OLDEST_SEQ 0 + 2 ^ 32 * s.rd FH_LOG_STATUS_NEXT_SEQ 0) ∧
      (d.u32 32 ≠ 0 → WroteHost s t d ((List.range (d.u32 32)).flatMap (fun k => s.logBytes ((d.u32 28 + k) % 2 ^ 32))))) ∧
    ∃ t, exec (.faultLogRead n false) s = .next t ∧ Answered s t d .hostAccessError 0)

/-- R373, R385: an instruction that stands next and is suppressed passes and does no more; one that does not stand next does nothing. -/
def Obligations.SuppressedInstructionsPass : Prop :=
  ∀ (s : State) (k : Fin 128) (tile : Fin 176) (sram : Sram) (b : Bool), s.live = true →
    let same := fun (op : Nat) (c : Instr) =>
      ((∀ x, s.issue k tile = some x → x.i.op ≠ op) → exec c s = .next s) ∧
      ∀ x, s.issue k tile = some x → x.i.op = op → x.work = none →
        ∃ t, exec c s = .next t ∧ Passed s t k x ∧ t.re.tiles = s.re.tiles ∧ t.ms = s.ms ∧ t.cl = s.cl ∧ t.out = s.out ∧ t.regs = s.regs
    same 0x01 (.clear k tile) ∧ same 0x02 (.add k tile sram) ∧ same 0x03 (.check k tile sram b) ∧ same 0x06 (.mload k tile b) ∧
    same 0x07 (.proj k tile) ∧ same 0x08 (.pcheck k tile b) ∧ same 0x09 (.spill k tile sram) ∧ same 0x0A (.fill k tile b)

/-- R343 to R345, R373, R395, R318, R391: CLEAR leaves zeros in its block's slots and check register. ADD adds its frame's elements into
the accumulators and folds the contribution's check word into the register; a frame without a counted contribution makes the epoch void.
CHECK folds the register of a block whose check holds into the operation's EXACT_CHECK, and otherwise sets SUM_CHECK and makes the epoch
void. ROUND leaves the rounded payload in its buffer, and sets ROUND_MISMATCH and makes the epoch void where its two units differ; one
that is suppressed or finds no element leaves the buffer empty. An SRAM error that cannot be corrected sets ACC_UNCORRECTABLE and makes
the epoch void. Each passes. GEN, where a sentinel may run, leaves the tile's accumulators as one value not stated (the model's choice,
log 42) and its buffers, weights and output empty; elsewhere it does nothing. Another tile is left as it was. -/
def Obligations.ReducingInstructionsAct : Prop :=
  (∀ (s : State) (k : Fin 128) (tile : Fin 176) (x : Issue) (a : LiveSlot), Works s k tile 0x01 x a →
    ∃ t, exec (.clear k tile) s = .next t ∧ Passed s t k x ∧ (t.tile tile).check x.chk = 0 ∧
      (∀ n < x.p.k, (t.tile tile).slot (x.base + n) = zeros 42) ∧
      (∀ n, n < x.base ∨ x.base + x.p.k ≤ n → (t.tile tile).slot n = (s.tile tile).slot n) ∧
      (∀ n, n ≠ x.chk → (t.tile tile).check n = (s.tile tile).check n) ∧ OtherTiles s t tile) ∧
  (∀ (s : State) (k : Fin 128) (tile : Fin 176) (sram : Sram) (x : Issue) (a : LiveSlot), Works s k tile 0x02 x a →
    ∃ t, exec (.add k tile sram) s = .next t ∧ Passed s t k x ∧
      match s.landed tile (x.frame a) with
      | none => Voided t k ∧ t.re.tiles = s.re.tiles
      | some y =>
        if y.counted = false then Voided t k ∧ t.re.tiles = s.re.tiles
        else if sram = .uncorrectable then Voided t k ∧ t.rd RE_ERR_ACC_UNCORRECTABLE (k / 64) = 1
        else t.tile tile = ((s.tile tile).addAll x.p.layout x.base (elements x.p.inF (x.present a)
          (sbytes (s.tile tile).landing (8192 * x.frame a) (payloadBytes x.p.inF (x.present a))))).putCheck x.chk
            (foldCheck ((s.tile tile).check x.chk) y.check) ∧ OtherTiles s t tile ∧
          t.rd RE_ERR_ACC_CORRECTED (k / 64) = (if sram = .corrected then 1 else s.rd RE_ERR_ACC_CORRECTED (k / 64))) ∧
  (∀ (s : State) (k : Fin 128) (tile : Fin 176) (sram : Sram) (holds : Bool) (x : Issue) (a : LiveSlot), Works s k tile 0x03 x a →
    let w := accumCheck x.p.layout ((s.tile tile).accums x.p.layout x.base 0 x.p.e)
    let reg := (s.tile tile).check x.chk
    ∃ t, exec (.check k tile sram holds) s = .next t ∧ Passed s t k x ∧ t.re.tiles = s.re.tiles ∧
      if sram = .uncorrectable then Voided t k ∧ t.rd RE_ERR_ACC_UNCORRECTABLE (k / 64) = 1
      else if holds = true ∧ checkResidue w = checkResidue reg ∧ checkSpecial w = checkSpecial reg then
        ∃ e f, (s.mslot k).run = some e ∧ (t.mslot k).run = some f ∧ f.void = e.void ∧
          f.live.map (fun b => b.exact) = e.live.map (fun b => if b.opslot = x.i.opslot then foldOperation b.exact reg (x.blockOf a * x.p.e) false else b.exact)
      else Voided t k ∧ t.rd RE_ERR_SUM_CHECK (k / 64) = 1 ∧
        t.rd RE_CHECK_COUNT_SUM_FAIL (k / 64) = (s.rd RE_CHECK_COUNT_SUM_FAIL (k / 64) + 1) % 2 ^ 32) ∧
  (∀ (s : State) (k : Fin 128) (tile : Fin 176) (sram : Sram) (mismatch : Bool) (x : Issue), s.live = true → s.issue k tile = some x → x.i.op = 0x04 →
    (∀ a, x.work = some a → s.roundValues x a = []) →
    ∃ t, exec (.round k tile sram mismatch) s = .next t ∧ Passed s t k x ∧ (t.tile tile).buf x.i.buf = none ∧ OtherTiles s t tile ∧ t.regs = s.regs) ∧
  (∀ (s : State) (k : Fin 128) (tile : Fin 176) (sram : Sram) (mismatch : Bool) (x : Issue) (a : LiveSlot), Works s k tile 0x04 x a →
    s.roundValues x a ≠ [] →
    ∃ t, exec (.round k tile sram mismatch) s = .next t ∧ Passed s t k x ∧ OtherTiles s t tile ∧
      if sram = .uncorrectable then Voided t k ∧ t.rd RE_ERR_ACC_UNCORRECTABLE (k / 64) = 1 ∧ t.tile tile = s.tile tile
      else (t.tile tile).buf x.i.buf = (if (s.rounded x a).bytes = [] then none else some (s.rounded x a)) ∧
        (t.tile tile).acc = (s.tile tile).acc ∧ (t.tile tile).chk = (s.tile tile).chk ∧ (t.tile tile).landing = (s.tile tile).landing ∧
        (mismatch = true → Voided t k ∧ t.rd RE_ERR_ROUND_MISMATCH (k / 64) = 1)) ∧
  (∀ (s : State) (die : Fin 2) (phys : Fin 96), s.live = true → s.sentinelMay die phys = false → exec (.gen die phys) s = .next s) ∧
  (∀ (s : State) (die : Fin 2) (phys : Fin 96), s.live = true → s.sentinelMay die phys = true →
    match s.logicalOf die phys with
    | none => exec (.gen die phys) s = .next s
    | some n =>
      ∃ t, exec (.gen die phys) s = .next t ∧ (t.tile n).acc = [] ∧ (t.tile n).chk = [] ∧ (t.tile n).leftover = some s.free ∧ t.free = s.free + 1 ∧
        (t.tile n).staging = [] ∧ (t.tile n).product = none ∧ (t.tile n).weights = [] ∧ (t.tile n).landing = (s.tile n).landing ∧
        (t.tile n).frames = (s.tile n).frames ∧ OtherTiles s t n ∧ t.regs = s.regs)

/-- R402, R420, R373, R347 to R351, R390, R422, R506: SEND, where its buffer holds something of a slot that is not suppressed, sends that
payload down to the members or up, and folds it into its tile's TD and counts it; elsewhere it passes and sends nothing. MLOAD leaves
the matrix's rows in the weight store, and FILL the images of its block in the block's slots, as device memory holds them; where that
read comes late or cannot be corrected the epoch is void. PROJ leaves its product, and makes the epoch void where its buffer or a row of
its matrix is missing. PCHECK marks the product checked or sets PROJ_CHECK and makes the epoch void, SPILL writes its block's slots to
device memory, or makes the epoch void where it cannot read them, and REPEAT opens its span. Another tile is left as it was. -/
def Obligations.ProjectingAndMovingInstructionsAct : Prop :=
  (∀ (s : State) (k : Fin 128) (tile : Fin 176) (x : Issue) (e : EpochRun), s.live = true → s.issue k tile = some x → x.i.op = 0x05 →
    (s.mslot k).run = some e →
    (∀ a y, x.live = some a → (s.tile tile).buf x.i.buf = some y →
      ∃ t f, exec (.send k tile) s = .next t ∧ (t.mslot k).run = some f ∧ t.pc = (if x.i.dest = 0 then s.sendDown x a y else s.sendUp x a y).pc ∧
        f.tile x.t = { ((e.tile x.t).sent y.exact (outputCheck y.bytes) y.special).pass with last := max (e.tile x.t).last (sendReady x y) }) ∧
    (x.live = none ∨ (s.tile tile).buf x.i.buf = none →
      ∃ t f, exec (.send k tile) s = .next t ∧ (t.mslot k).run = some f ∧ f.tile x.t = (e.tile x.t).pass ∧ t.pc = s.pc ∧ t.re.tiles = s.re.tiles)) ∧
  (∀ (s : State) (k : Fin 128) (tile : Fin 176) (onTime : Bool) (x : Issue) (a : LiveSlot), Works s k tile 0x06 x a →
    let w := matrixOf x.m x.i.matrix
    let at_ := w.address + x.i.firstRow * w.rowBytes
    ∃ t, exec (.mload k tile onTime) s = .next t ∧ Passed s t k x ∧ OtherTiles s t tile ∧
      (EpochReadFails s onTime k at_ (x.i.rows * w.rowBytes) → Voided t k ∧ t.tile tile = s.tile tile) ∧
      (¬ EpochReadFails s onTime k at_ (x.i.rows * w.rowBytes) → (∀ n < x.i.rows,
        sget [] (t.tile tile).weights (65536 * x.i.matrix + x.i.firstRow + n) = s.memBytes (at_ + n * w.rowBytes) w.rowBytes) ∧
        (t.tile tile).acc = (s.tile tile).acc ∧ (t.tile tile).chk = (s.tile tile).chk ∧ (t.tile tile).staging = (s.tile tile).staging)) ∧
  (∀ (s : State) (k : Fin 128) (tile : Fin 176) (x : Issue) (a : LiveSlot), Works s k tile 0x07 x a →
    ∃ t, exec (.proj k tile) s = .next t ∧ Passed s t k x ∧ OtherTiles s t tile ∧
      match (s.tile tile).buf x.i.buf with
      | none => Voided t k ∧ t.tile tile = s.tile tile
      | some b =>
        let w := matrixOf x.m x.i.matrix
        if (s.tile tile).holdsMatrix x.i.matrix w = false then Voided t k ∧ t.tile tile = s.tile tile
        else t.tile tile = { s.tile tile with
          product := some (productOf (saturates x.p.rounding) w x.i.opslot (x.blockOf a) s.free (elements b.format b.whole b.bytes)
            ((s.tile tile).matrix x.i.matrix w)) }) ∧
  (∀ (s : State) (k : Fin 128) (tile : Fin 176) (holds : Bool) (x : Issue) (a : LiveSlot), Works s k tile 0x08 x a →
    ∃ t, exec (.pcheck k tile holds) s = .next t ∧ Passed s t k x ∧ OtherTiles s t tile ∧
      match (s.tile tile).product with
      | none => Voided t k ∧ t.tile tile = s.tile tile
      | some q =>
        if holds = true ∧ projectionChecks q.d q.c q.g q.m q.y = true then t.tile tile = { s.tile tile with product := some { q with checked := true } }
        else Voided t k ∧ t.rd RE_ERR_PROJ_CHECK (k / 64) = 1 ∧ t.tile tile = s.tile tile) ∧
  (∀ (s : State) (k : Fin 128) (tile : Fin 176) (sram : Sram) (x : Issue) (a : LiveSlot), Works s k tile 0x09 x a →
    ∃ t, exec (.spill k tile sram) s = .next t ∧ Passed s t k x ∧ t.re.tiles = s.re.tiles ∧
      if sram = .uncorrectable then Voided t k ∧ t.rd RE_ERR_ACC_UNCORRECTABLE (k / 64) = 1 ∧ t.ms = s.ms
      else t.ms = (s.memWrite areaHint (s.spillAddress x a) ((List.range x.p.k).flatMap (fun n => fitTo 64 ((s.tile tile).slot (x.base + n))))).ms) ∧
  (∀ (s : State) (k : Fin 128) (tile : Fin 176) (onTime : Bool) (x : Issue) (a : LiveSlot), Works s k tile 0x0A x a →
    let at_ := s.spillAddress x a
    ∃ t, exec (.fill k tile onTime) s = .next t ∧ Passed s t k x ∧ OtherTiles s t tile ∧
      (EpochReadFails s onTime k at_ (64 * x.p.k) → Voided t k ∧ t.tile tile = s.tile tile) ∧
      (¬ EpochReadFails s onTime k at_ (64 * x.p.k) → (∀ n < x.p.k, (t.tile tile).slot (x.base + n) = s.memBytes (at_ + 64 * n) 42) ∧
        (∀ n, n < x.base ∨ x.base + x.p.k ≤ n → (t.tile tile).slot n = (s.tile tile).slot n) ∧ (t.tile tile).chk = (s.tile tile).chk)) ∧
  (∀ (s : State) (k : Fin 128) (tile : Fin 176) (x : Issue) (e : EpochRun), s.live = true → s.issue k tile = some x → x.i.op = 0x0B →
    (s.mslot k).run = some e →
    ∃ t f, exec (.repeat k tile) s = .next t ∧ (t.mslot k).run = some f ∧ f.tile x.t = (e.tile x.t).enter x.i ∧
      (∀ n, n ≠ x.t → f.tile n = e.tile n) ∧ t.re.tiles = s.re.tiles ∧ t.regs = s.regs)

/-- R382, R384 to R386, R389, R391, R392, R295: a trigger instant that can be taken becomes the nominal start awaited, and one that
cannot, or one that was still held back, is counted as skipped; the instant after it is one period on. An epoch starts, where its
conditions hold, with the number of epochs begun before it, the operation slots that are ready and the charge of its result cells. It
ends once every tile has passed its stream; a void one waits for its rerun, which has the same number and parts, or ends where its slot
is being deactivated. Where the conditions do not hold, these commands do nothing. -/
def Obligations.EpochsRun : Prop :=
  (∀ (s : State) (k : Fin 128), s.live = true →
    let x := s.mslot k
    let due := s.slotState k = 2 ∧ mfTrigger x.image ≠ 1 ∧ s.timeReady (mfDomain x.image) = true ∧ x.next ≤ (s.dom (mfDomain x.image)).total
    let take := x.run.isNone && s.tilesUsable x.image && (mfTrigger x.image == 0 || s.allReady k)
    (¬ due → exec (.triggerInstant k) s = .next s) ∧
    (due → ∃ t, exec (.triggerInstant k) s = .next t ∧ (t.mslot k).next = x.next + mfPeriod x.image ∧
      (t.mslot k).nominal = (if take = true then some x.next else none) ∧ (t.mslot k).run = x.run ∧ (∀ j, j ≠ k.val → t.mslot j = s.mslot j) ∧
      t.rd MF_SLOT_LATE_SKIPPED k = satAdd 16 (s.rd MF_SLOT_LATE_SKIPPED k) (bit x.nominal.isSome + bit (!take)) ∧
      (take = false ∨ x.nominal.isSome = true → t.rd MF_ERR_TRIGGER_SKIPPED (k / 64) = 1))) ∧
  (∀ (s : State) (k : Fin 128), s.live = true →
    let may := s.slotState k = 2 ∧ (s.mslot k).run = none ∧ (s.slotLocked k && s.lockHalted) = false ∧ (s.lateness k).isSome = true ∧
      s.mayRun k (s.mslot k).image = true
    (¬ may → exec (.epochStart k) s = .next s) ∧
    (may → ∃ t e, exec (.epochStart k) s = .next t ∧ (t.mslot k).run = some e ∧ e.number = s.rd MF_SLOT_EPOCHS_EPOCHS k ∧ e.live = s.liveSlots k ∧
      e.void = false ∧ e.ended = false ∧ e.tiles = [] ∧ e.variant = s.rd MF_DIE_STATUS_VARIANT (k / 64) ∧ (t.mslot k).nominal = none ∧
      t.rd MF_SLOT_EPOCHS_EPOCHS k = satAdd 64 (s.rd MF_SLOT_EPOCHS_EPOCHS k) 1 ∧
      (∀ d : Fin 2, t.rd TQ_RESULT_CFG_HELD d = s.rd TQ_RESULT_CFG_HELD d + mfResultCells (s.mslot k).image d) ∧
      ∀ j, j ≠ k.val → t.mslot j = s.mslot j)) ∧
  (∀ (s : State) (k : Fin 128), s.live = true → ((s.mslot k).run = none ∨ ∃ e, (s.mslot k).run = some e ∧ e.ended = true) →
    exec (.epochEnd k) s = .next s) ∧
  (∀ (s : State) (k : Fin 128) (e : EpochRun), s.live = true → (s.mslot k).run = some e → e.ended = false →
    (e.void = true → s.slotState k ≠ 3 → (∀ kv ∈ s.cl.groups, kv.2.armed.isSome = true → s.stillOwns kv.2 = true) →
      ∃ t, exec (.epochEnd k) s = .next t ∧ (t.mslot k).run = some { e with ended := true } ∧ t.regs = s.regs ∧ t.cl = s.cl ∧ t.re.tiles = s.re.tiles) ∧
    (e.void = true → s.slotState k = 3 → ∃ t, exec (.epochEnd k) s = .next t ∧ (t.mslot k).run = none ∧
      t.rd MF_SLOT_STATUS_STATE k = 1) ∧
    (e.void = false → (List.range (mfTileCount (s.mslot k).image)).all (fun n => (e.tile n).finished (s.mslot k).image e.variant n) = true →
      ∃ t, exec (.epochEnd k) s = .next t ∧ (t.mslot k).run = none ∧ (t.mslot k).ended = s.now) ∧
    (e.void = false → (List.range (mfTileCount (s.mslot k).image)).all (fun n => (e.tile n).finished (s.mslot k).image e.variant n) = false →
      exec (.epochEnd k) s = .next s)) ∧
  (∀ (s : State) (k : Fin 128), s.live = true → (∀ e, (s.mslot k).run = some e → e.void = false ∨ e.ended = false) → exec (.epochRerun k) s = .next s) ∧
  (∀ (s : State) (k : Fin 128) (e : EpochRun), s.live = true → (s.mslot k).run = some e → e.void = true → e.ended = true →
    (∀ a ∈ e.live, s.partWhole a = true ∧ ∃ g, s.armed a.group = some g ∧ g.serves a.seq = true ∧ g.disarm = none) →
    if s.mayRun k (s.mslot k).image = true then
      ∃ t f, exec (.epochRerun k) s = .next t ∧ (t.mslot k).run = some f ∧ f.number = e.number ∧ f.reruns = e.reruns + 1 ∧ f.void = false ∧
        f.ended = false ∧ f.tiles = [] ∧ f.live.map (fun a => (a.opslot, a.group, a.leg, a.seq, a.j)) = e.live.map (fun a => (a.opslot, a.group, a.leg, a.seq, a.j)) ∧
        (∀ j, j ≠ k.val → t.mslot j = s.mslot j)
    else exec (.epochRerun k) s = .next s)

/-- R431, R433, R434, R435, R164, R462: a contribution whose head a port takes is in flight there: into its landing frame, where its
group is armed and that frame is free; or dropped and counted, where the port is not ready, its partition is FREE or it names no group
of it. Its tail ends the flight: a good one is counted in RX_FRAMES and RX_BYTES, a bad one in its own counter. The contribution that
has waited longest for arming leaves the buffer when its wait is over, counted as such. With nothing in flight or waiting, the tail and
the wait's end do nothing. -/
def Obligations.ContributionsArriveAndCount : Prop :=
  (∀ (s : State) (n : Fin 1024) (tag : Option (BitVec 48)) (packet : List Byte) (h : Hdr) (c : Sceca), s.live = true → s.link n = 3 →
    (s.port n).arriving = none → s.inflight n = none → s.contribution packet = some (h, c) →
    (s.isFabric n = true → s.tagVerdict n tag = .accept ∧ c.vnet = tagVn (tag.getD 0).toNat) →
    (s.portReady n = false →
      ∃ t f, exec (.contributionReceived n tag packet) s = .next t ∧ t.inflight n = some ⟨packet, .dropped, f⟩ ∧
        t.counter 1 (64 * n + 20) = (s.counter 1 (64 * n + 20) + 1) % 2 ^ 64 ∧ t.cl.waits = s.cl.waits ∧ t.cl.groups = s.cl.groups ∧ t.re = s.re) ∧
    (s.portReady n = true → s.pairPort n = false →
      (c.partition < 256 → (s.part c.partition).state = .free →
        ∃ t f, exec (.contributionReceived n tag packet) s = .next t ∧ t.inflight n = some ⟨packet, .dropped, f⟩ ∧
          t.rd CL_DROP_COUNT 1 = (s.rd CL_DROP_COUNT 1 + 1) % 2 ^ 64 ∧ t.cl.waits = s.cl.waits ∧ t.cl.groups = s.cl.groups ∧ t.re = s.re) ∧
      (c.partition < 256 → (s.part c.partition).state = .active → (s.groupBy c.group).filter (fun ig => ig.2.partition == c.partition) = none →
        ∃ t f, exec (.contributionReceived n tag packet) s = .next t ∧ t.inflight n = some ⟨packet, .dropped, f⟩ ∧
          t.rd CL_DROP_COUNT 0 = (s.rd CL_DROP_COUNT 0 + 1) % 2 ^ 64 ∧ t.cl.waits = s.cl.waits ∧ t.cl.groups = s.cl.groups ∧ t.re = s.re) ∧
      (∀ (i : Nat) (g : GroupSt) (a : Armed) (l src e : Nat), c.partition < 256 → (s.part c.partition).state = .active →
        s.groupBy c.group = some (i, g) → s.group i = some g → g.partition = c.partition → g.armed = some a → a.disarm = none →
        c.source < grMembers g.record → (grOp g.record = 5 → c.source = grRoot g.record) → grOp g.record ≠ 7 → seqBefore c.sequence a.oldest = false →
        wrapSub 32 c.sequence a.oldest < 4 → arrivesEmpty g.record a = false → legOfMember g.record c.source = (l, src) →
        contributionElems g.record (s.legSlot g.record l) (a.countOf g.record c.sequence) (some c.source) c.block c.payloadLen = .inl e →
        s.reachesTiles n (recordDie g.record) = true → s.slotFor i l c.sequence c.block src = .frame →
        let p := s.legSlot g.record l
        let k := s.legTile g.record l (s.spot i l (c.block / p.bpe % 2) c.block src).1
        let y := (s.spot i l (c.block / p.bpe % 2) c.block src).2
        ∃ t f, exec (.contributionReceived n tag packet) s = .next t ∧ t.inflight n = some ⟨packet, .frame i l k y, f⟩ ∧
          t.landed k y = some ⟨c.sequence, c.block, src, false, c.check, e⟩ ∧
          sbytes (t.tile k).landing (8192 * y) (c.payload packet).length = c.payload packet ∧ (∀ u, u ≠ k → t.tile u = s.tile u) ∧
          t.cl.waits = s.cl.waits ∧ t.cl.groups = s.cl.groups))) ∧
  (∀ (s : State) (n : Fin 1024) (fcs : Fcs), s.live = true → s.inflight n = none → exec (.contributionCounted n fcs) s = .next s) ∧
  (∀ (s : State) (n : Fin 1024) (fcs : Fcs) (x : Inflight), s.live = true → s.inflight n = some x →
    ∃ t, exec (.contributionCounted n fcs) s = .next t ∧ t.inflight n = none ∧
      match tailFault x.packet fcs with
      | some (k, _) => t.counter 1 (64 * n + k) = (s.counter 1 (64 * n + k) + 1) % 2 ^ 64
      | none =>
        if s.rd PC_PORT_CFG_MAX_FRAME n < x.packet.length + 4 then t.counter 1 (64 * n + 25) = (s.counter 1 (64 * n + 25) + 1) % 2 ^ 64
        else t.counter 1 (64 * n) = (s.counter 1 (64 * n) + 1) % 2 ^ 64 ∧
          t.counter 1 (64 * n + 1) = (s.counter 1 (64 * n + 1) + (x.packet.length + 4)) % 2 ^ 64) ∧
  (∀ (s : State), s.live = true → s.cl.waits.find? (fun w => w.cause == .arming) = none → exec .armWaitExpiry s = .next s) ∧
  (∀ (s : State) (w : Waiting) (h : Hdr) (c : Sceca), s.live = true → s.cl.waits.find? (fun v => v.cause == .arming) = some w →
    s.contribution w.packet = some (h, c) →
    ∃ t, exec .armWaitExpiry s = .next t ∧ t.cl.waits = s.cl.waits.filter (fun v => v.frame != w.frame) ∧
      t.rd CL_DROP_COUNT 2 = (s.rd CL_DROP_COUNT 2 + 1) % 2 ^ 64 ∧ t.rd CL_ERR_ARM_WAIT_DROPPED 0 = 1 ∧ t.cl.groups = s.cl.groups)

/-- R446, R449, R462: a HOP_ACK for a group that takes none is MISDIRECTED, and one from the parent changes no group. A SUCCESS from
members of an operation whose record stands is noted, and the operation of a BARRIER group is acknowledged once all have answered; another
status notes no answer. A REPLAY_REQUEST for no group of its partition is dropped, as is one from no member or parent, and one for an
acknowledged operation counts as ACKED_REPLAY; an operation without its record is to run again after it, and one with its record begins a
rerun, which counts. R443: a RESULT_WRITE is taken by an armed relay group alone; one older than the group's oldest operation is stale,
and what comes of another is its relaying. -/
def Obligations.AnswersAndReplaysAreTaken : Prop :=
  (∀ (s : State) (n : Fin 1024) (tag : Option (BitVec 48)) (packet : List Byte) (h : Hdr) (c : Sceca), Taken s n tag 4 packet h c →
    (s.ackedBy h.source c = none → s.ackFromParent h.source c = false →
      ∃ t, exec (.hopAckReceived n tag packet) s = .next t ∧ CountedIn s t n (packet.length + 4) ∧
        t.rd CL_DROP_COUNT 9 = (s.rd CL_DROP_COUNT 9 + 1) % 2 ^ 64 ∧ t.cl.groups = s.cl.groups) ∧
    (s.ackedBy h.source c = none → s.ackFromParent h.source c = true →
      ∃ t, exec (.hopAckReceived n tag packet) s = .next t ∧ CountedIn s t n (packet.length + 4) ∧ t.cl.groups = s.cl.groups ∧
        ∀ k < 10, t.rd CL_DROP_COUNT k = s.rd CL_DROP_COUNT k) ∧
    (∀ i ms g a, s.ackedBy h.source c = some (i, ms) → be (c.payload packet) 0 2 ≠ statusCode .success → s.group i = some g → g.armed = some a →
      ∃ t b, exec (.hopAckReceived n tag packet) s = .next t ∧ CountedIn s t n (packet.length + 4) ∧ t.armed i = some b ∧
        ∀ o, a.op c.sequence = some o → ∃ p, b.op c.sequence = some p ∧ p.acks = o.acks ∧ p.acked = o.acked) ∧
    (∀ i ms g a o, s.ackedBy h.source c = some (i, ms) → be (c.payload packet) 0 2 = statusCode .success → s.group i = some g → g.armed = some a →
      grOp g.record = 6 → grLegs g.record = 0 → seqBefore c.sequence a.oldest = false → a.op c.sequence = some o → o.produced = true →
      let acks := o.acks ++ ms.filter (fun m => !o.acks.contains m)
      ∃ t b, exec (.hopAckReceived n tag packet) s = .next t ∧ CountedIn s t n (packet.length + 4) ∧ t.armed i = some b ∧
        if grMembers g.record ≤ acks.length then ∀ p, b.op c.sequence = some p → p.acked = true
        else ∃ p, b.op c.sequence = some p ∧ p.acks = acks)) ∧
  (∀ (s : State) (n : Fin 1024) (tag : Option (BitVec 48)) (packet : List Byte) (h : Hdr) (c : Sceca), Taken s n tag 3 packet h c →
    (s.packetGroup c = none →
      ∃ t, exec (.replayRequestReceived n tag packet) s = .next t ∧ CountedIn s t n (packet.length + 4) ∧
        t.rd CL_DROP_COUNT 0 = (s.rd CL_DROP_COUNT 0 + 1) % 2 ^ 64 ∧ t.cl.groups = s.cl.groups) ∧
    (∀ i g, s.packetGroup c = some (i, g) →
      ((grMembersAt g.record h.source).isEmpty = true → (grHasParent g.record && grParentAddress g.record == h.source) = false →
        ∃ t, exec (.replayRequestReceived n tag packet) s = .next t ∧ CountedIn s t n (packet.length + 4) ∧
          t.counter 1 (64 * n + 26) = (s.counter 1 (64 * n + 26) + 1) % 2 ^ 64 ∧ t.cl.groups = s.cl.groups) ∧
      ∀ a, (grMembersAt g.record h.source).isEmpty = false → g.armed = some a →
        (seqBefore c.sequence a.oldest = true →
          ∃ t, exec (.replayRequestReceived n tag packet) s = .next t ∧ CountedIn s t n (packet.length + 4) ∧
            t.rd CL_DROP_COUNT 8 = (s.rd CL_DROP_COUNT 8 + 1) % 2 ^ 64 ∧ t.cl.groups = s.cl.groups) ∧
        (∀ o, seqBefore c.sequence a.oldest = false → a.op c.sequence = some o →
          (o.acked = true →
            ∃ t, exec (.replayRequestReceived n tag packet) s = .next t ∧ CountedIn s t n (packet.length + 4) ∧
              t.rd CL_DROP_COUNT 8 = (s.rd CL_DROP_COUNT 8 + 1) % 2 ^ 64 ∧ t.cl.groups = s.cl.groups) ∧
          (o.acked = false → o.produced = false →
            ∃ t b p, exec (.replayRequestReceived n tag packet) s = .next t ∧ CountedIn s t n (packet.length + 4) ∧ t.armed i = some b ∧
              b.op c.sequence = some p ∧ p.rerun = true) ∧
          (o.acked = false → o.produced = true → o.rerun = false → a.disarm = none →
            ∃ t b p, exec (.replayRequestReceived n tag packet) s = .next t ∧ CountedIn s t n (packet.length + 4) ∧ t.armed i = some b ∧
              b.op c.sequence = some p ∧ p.reruns = satAdd 8 o.reruns 1 ∧ p.produced = true)))) ∧
  (∀ (s : State) (n : Fin 1024) (tag : Option (BitVec 48)) (packet : List Byte) (h : Hdr) (c : Sceca), Taken s n tag 2 packet h c →
    ((∀ i g a, s.packetGroup c = some (i, g) → g.armed = some a → grHasParent g.record = true → grNoLegs g.record = true) →
      ∃ t, exec (.resultWriteReceived n tag packet) s = .next t ∧ CountedIn s t n (packet.length + 4) ∧
        t.rd CL_DROP_COUNT 9 = (s.rd CL_DROP_COUNT 9 + 1) % 2 ^ 64 ∧ t.cl.groups = s.cl.groups) ∧
    (∀ i g a, s.packetGroup c = some (i, g) → g.armed = some a → grHasParent g.record = true → grNoLegs g.record = false →
      ∃ t, exec (.resultWriteReceived n tag packet) s = .next t ∧ CountedIn s t n (packet.length + 4) ∧
        (t.armed i).map (fun b => b.oldest) = some a.oldest ∧
        (seqBefore c.sequence a.oldest = true → t.rd CL_DROP_COUNT 3 = (s.rd CL_DROP_COUNT 3 + 1) % 2 ^ 64 ∧ t.cl.groups = s.cl.groups) ∧
        (seqBefore c.sequence a.oldest = false →
          t = (((s.countIn n (if s.isFabric n = true then tagVn (tag.getD 0).toNat else 0) packet h c false).noteCeOf i packet c).relayTo i g.record
            ((a.op c.sequence).getD (freshOp c.sequence a.count)) c (c.payload packet)) ∧ ∀ k < 10, t.rd CL_DROP_COUNT k = s.rd CL_DROP_COUNT k)))

/-- R452: a block of a version no newer than the one held changes nothing that is held; one that is too far in, or older than the version
coming in, is dropped and counted; a block of a newer one is kept until all its blocks have come, and the version is then held and no
member has acknowledged it. Every RESEND_US each member that has not acknowledged is sent it again, the sixteenth time with
BROADCAST_STALLED. R448: a round of requests for what a half misses is counted, the last with REPLAY_EXHAUSTED; none follows it. R457,
R491: a second after a partition became ACTIVE again its retained groups are discarded, and no other group is; the moorings of a die are
written to the older of its checkpoints while the stacks that hold them are ready. -/
def Obligations.BroadcastsAndTimersRun : Prop :=
  (∀ (s : State) (n : Fin 1024) (tag : Option (BitVec 48)) (packet : List Byte) (h : Hdr) (c : Sceca), Taken s n tag 5 packet h c →
    ((s.packetGroup c).filter (fun ig => grOp ig.2.record == 7 && ig.2.armed.isSome) = none →
      ∃ t, exec (.broadcastReceived n tag packet) s = .next t ∧ CountedIn s t n (packet.length + 4) ∧
        t.rd CL_DROP_COUNT 9 = (s.rd CL_DROP_COUNT 9 + 1) % 2 ^ 64 ∧ t.cl.groups = s.cl.groups) ∧
    ∀ i g, (s.packetGroup c).filter (fun ig => grOp ig.2.record == 7 && ig.2.armed.isSome) = some (i, g) →
      let old := g.bcast.held.any (fun x => !seqBefore x.1 c.versionNo)
      let astray := decide (8 ≤ c.block) || g.bcast.coming.any (fun x => seqBefore c.versionNo x.1)
      let b := (g.bcast.noteCe h c h.source).gather c (c.payload packet)
      (old = true → ∃ t, exec (.broadcastReceived n tag packet) s = .next t ∧ CountedIn s t n (packet.length + 4) ∧ t.cl.groups = s.cl.groups) ∧
      (old = false → astray = true →
        ∃ t, exec (.broadcastReceived n tag packet) s = .next t ∧ CountedIn s t n (packet.length + 4) ∧
          t.rd CL_DROP_COUNT 4 = (s.rd CL_DROP_COUNT 4 + 1) % 2 ^ 64 ∧ t.cl.groups = s.cl.groups) ∧
      (old = false → astray = false → 0 < grMembers g.record →
        ∃ t k, exec (.broadcastReceived n tag packet) s = .next t ∧ CountedIn s t n (packet.length + 4) ∧ t.group i = some k ∧
          match b.whole with
          | none => k = { g with bcast := b }
          | some (v, bytes) => k.bcast.held = some (v, bytes.length) ∧ k.bcast.acks = [] ∧ k.bcast.coming = none ∧ k.record = g.record)) ∧
  (∀ (s : State) (i : Fin 32768) (g : GroupSt), s.live = true → s.group i = some g →
    (g.armed.isSome && g.bcast.held.isSome) = false → exec (.broadcastResend i) s = .next s) ∧
  (∀ (s : State) (i : Fin 32768) (g : GroupSt), s.live = true → s.group i = some g → g.armed.isSome = true → g.bcast.held.isSome = true →
    ∃ t k, exec (.broadcastResend i) s = .next t ∧ t.group i = some k ∧ k.bcast.held = g.bcast.held ∧ k.bcast.acks = g.bcast.acks ∧
      ∀ m ∈ g.unackedMembers, sget 0 k.bcast.resends m = sget 0 g.bcast.resends m + 1 ∧
        (sget 0 g.bcast.resends m = 15 → t.rd CL_ERR_BROADCAST_STALLED 0 = 1)) ∧
  (∀ (s : State) (i : Fin 32768) (l : Fin 33) (h : Fin 2) (a : Armed) (g : LegSt) (u : Use) (us : List Use), s.live = true →
    s.armed i = some a → s.leg i l = some g → s.halfUses i l h = u :: us →
    (s.rd CL_CFG_REPLAY_LIMIT 0 ≤ (g.half h).rounds ∨ (s.halfFrames i l h).any (fun x => x.2.2.counted) = false ∨
      (∀ n, a.countOf (s.record i) u.seq = some n → s.missing i l n u = []) → exec (.replayTimer i l h) s = .next s) ∧
    ∀ n, grNoLegs (s.record i) = false → (g.half h).rounds < s.rd CL_CFG_REPLAY_LIMIT 0 → (s.halfFrames i l h).any (fun x => x.2.2.counted) = true →
      a.countOf (s.record i) u.seq = some n → s.missing i l n u ≠ [] →
      ∃ t k, exec (.replayTimer i l h) s = .next t ∧ t.leg i l = some k ∧ (k.half h).rounds = (g.half h).rounds + 1 ∧
        ((g.half h).rounds + 1 = s.rd CL_CFG_REPLAY_LIMIT 0 → t.rd CL_ERR_REPLAY_EXHAUSTED 0 = 1)) ∧
  (∀ (s : State) (p : Fin 256), s.live = true →
    ((s.part p).state ≠ .active → exec (.retainedGroupExpiry p) s = .next s) ∧
    ((s.part p).state = .active →
      ∃ t, exec (.retainedGroupExpiry p) s = .next t ∧ (∀ kv ∈ t.cl.groups, kv.2.partition = p.val → kv.2.retained = none) ∧
        ∀ i g, (i, g) ∈ s.cl.groups → (∀ kv ∈ s.cl.groups, kv.1 = i → kv.2 = g) → (g.partition ≠ p.val ∨ g.retained = none) → t.group i = some g)) ∧
  (∀ (s : State) (d : Fin 2), s.live = true →
    (s.stacksReady d = false → exec (.mooringCheckpoint d) s = .next s) ∧
    (s.stacksReady d = true →
      ∃ t, exec (.mooringCheckpoint d) s = .next t ∧ sget [] t.ms.checkpoints d = s.homeMoorings d :: (sget [] s.ms.checkpoints d).take 1 ∧
        (∀ e, e ≠ d.val → sget [] t.ms.checkpoints e = sget [] s.ms.checkpoints e) ∧ t.ms.moorings = s.ms.moorings))

/-- R586, R585, R593 code 1: an evaluation shows the telemetry it was given. On a die that is ready: at 105 °C or more variant 3 is in force
or requested; else, where no safety limit holds the die, a variant outside those it may take gives way to the nearest slower one, or the
nearest faster one; a die that is too hot or over a power cap asks for the next slower one; one with room for the dwell asks for the next
faster one; any other keeps what it has. A requested change pends, or waits for the voltage. R585: once the voltage is up the change is
requested. R387, R40: the die changes clock only while no epoch runs on it and nothing is on its way to its tiles, and the change is
counted. -/
def Obligations.VariantsMove : Prop :=
  (∀ (s : State) (d : Fin 2) (dies : List (BitVec 12 × BitVec 12)) (rise : Int) (package : BitVec 12), s.live = true →
    let a := s.telemetry dies
    let cur := s.rd MF_DIE_STATUS_VARIANT d
    let allowed := s.allowedVariants d
    let t₀ := a.rd PM_DIE_STATUS_TJ (6 + d)
    ∃ t, exec (.tidelineEvaluation d dies rise package) s = .next t ∧ t.rd MF_DIE_STATUS_VARIANT d = cur ∧
      (∀ k x, k < 9 → dies[k]? = some x → t.rd PM_DIE_STATUS_POWER_W k = x.1.toNat ∧ t.rd PM_DIE_STATUS_TJ k = x.2.toNat) ∧
      let asks (v : Nat) : Prop := v ≠ cur → t.rd PM_RED_STATUS_TARGET d = v ∧ (t.flag MF_DIE_STATUS_CHANGING d || t.pm.ramping.contains d.val) = true
      let same : Prop := t.rd PM_RED_STATUS_TARGET d = s.rd PM_RED_STATUS_TARGET d ∧ t.flag MF_DIE_STATUS_CHANGING d = s.flag MF_DIE_STATUS_CHANGING d
      (s.dieReady (6 + d) = false → same) ∧
      (s.dieReady (6 + d) = true →
        (1680 ≤ t₀ → cur = 3 ∨ t.rd PM_RED_STATUS_TARGET d = 3) ∧
        (t₀ < 1680 → s.heldBySafety (6 + d) = true → asks 3) ∧
        (t₀ < 1680 → s.heldBySafety (6 + d) = false →
          (allowed.contains cur = false → ∀ v, ((slowerOf allowed cur).or (fasterOf allowed cur)) = some v → asks v) ∧
          (allowed.contains cur = true → a.tooHot d rise package.toNat = true → ∀ v, slowerOf allowed cur = some v → asks v) ∧
          (allowed.contains cur = true → a.tooHot d rise package.toNat = false → a.coolEnough d rise package.toNat = true →
            s.rd PM_PKG_CFG_UP_DWELL_US 0 ≤ 10 * min 65535 (sget 0 s.pm.dwell d.val) → ∀ v, fasterOf allowed cur = some v → asks v) ∧
          (allowed.contains cur = true → a.tooHot d rise package.toNat = false → a.coolEnough d rise package.toNat = true →
            10 * min 65535 (sget 0 s.pm.dwell d.val) < s.rd PM_PKG_CFG_UP_DWELL_US 0 → same) ∧
          (allowed.contains cur = true → a.tooHot d rise package.toNat = false → a.coolEnough d rise package.toNat = false → same)))) ∧
  (∀ (s : State) (d : Fin 2), s.live = true →
    (s.pm.ramping.contains d.val = false → exec (.voltageRampDone d) s = .next s) ∧
    (s.pm.ramping.contains d.val = true →
      ∃ t, exec (.voltageRampDone d) s = .next t ∧ t.flag MF_DIE_STATUS_CHANGING d = true ∧ t.pm.ramping.contains d.val = false ∧
        t.rd MF_DIE_STATUS_VARIANT d = s.rd MF_DIE_STATUS_VARIANT d)) ∧
  (∀ (s : State) (d : Fin 2), s.live = true →
    (s.dieRuns d = true ∨ s.landsOn d = true ∨ s.flag MF_DIE_STATUS_CHANGING d = false → exec (.variantChange d) s = .next s) ∧
    (s.dieRuns d = false → s.landsOn d = false → s.flag MF_DIE_STATUS_CHANGING d = true →
      ∃ t, exec (.variantChange d) s = .next t ∧ t.rd MF_DIE_STATUS_VARIANT d = s.rd PM_RED_STATUS_TARGET d ∧ t.flag MF_DIE_STATUS_CHANGING d = false ∧
        t.rd PM_RED_STATUS_CHANGES d = (if s.rd PM_RED_STATUS_TARGET d = s.rd MF_DIE_STATUS_VARIANT d then s.rd PM_RED_STATUS_CHANGES d
          else min (2 ^ 32 - 1) (s.rd PM_RED_STATUS_CHANGES d + 1))))

/-- R593, R597: a limit that is met and not in force already acts at once on each die it names: a packet or switch die stretches to
code 12, a reduction die has variant 3 requested and shows OVERRIDE; at 110 °C TEMP_EMERGENCY is set, and a reduction die's epochs are
held (R594). A temperature below that, or a limit already in force, changes nothing. A limit that is released is in force no more, OVERRIDE falls on each reduction die that no other limit holds, and R594 holds
that die's epochs no more. -/
def Obligations.SafetyLimitsAct : Prop :=
  (∀ (s : State) (g : Fin 9) (temp : BitVec 12), s.live = true → (temp.toNat < 1760 ∨ s.pm.actions.contains (actionKey 2 g) = true) →
    exec (.tempEmergency g temp) s = .next s) ∧
  (∀ (s : State) (g : Fin 9) (temp : BitVec 12), s.live = true → 1760 ≤ temp.toNat → s.pm.actions.contains (actionKey 2 g) = false →
    ∃ t, exec (.tempEmergency g temp) s = .next t ∧ t.rd PM_DIE_STATUS_TJ g = temp.toNat ∧ t.rd PM_ERR_TEMP_EMERGENCY 0 = 1 ∧
      t.pm.actions.contains (actionKey 2 g) = true ∧
      (∀ d : Fin 2, g.val = 6 + d → t.flag PM_RED_STATUS_THROTTLED d = true) ∧
      (∀ x < 6, t.rd PM_DIE_STATUS_STRETCH x = (if g.val = x ∨ g.val = 8 then 12 else s.rd PM_DIE_STATUS_STRETCH x)) ∧
      (∀ d < 2, g.val ≠ 6 + d → g.val ≠ 8 → t.rd PM_RED_STATUS_TARGET d = s.rd PM_RED_STATUS_TARGET d) ∧
      ∀ d < 2, (g.val = 6 + d ∨ g.val = 8) → t.rd PM_RED_STATUS_TARGET d = 3 ∧ t.flag PM_RED_STATUS_OVERRIDE d = true) ∧
  (∀ (s : State) (r : Rail) (sensed : BitVec 16), s.live = true → s.pm.actions.contains (actionKey 3 (railIndex r)) = true →
    exec (.railCurrentLimit r sensed) s = .next s) ∧
  (∀ (s : State) (r : Rail) (sensed : BitVec 16), s.live = true → s.pm.actions.contains (actionKey 3 (railIndex r)) = false →
    ∃ t, exec (.railCurrentLimit r sensed) s = .next t ∧ t.pm.actions.contains (actionKey 3 (railIndex r)) = true ∧
      (r ≠ .vddRda → r ≠ .vddRdb → ∀ x < 6, t.rd PM_DIE_STATUS_STRETCH x = 12) ∧
      ∀ d < 2, (match r with | .vddPkt => False | .vddRda => d = 0 | .vddRdb => d = 1 | _ => True) →
        t.rd PM_RED_STATUS_TARGET d = 3 ∧ t.flag PM_RED_STATUS_OVERRIDE d = true) ∧
  (∀ (s : State) (l : Limit), s.live = true →
    ∃ t, exec (.safetyRelease l) s = .next t ∧ (∀ k, t.pm.actions.contains k = (s.pm.actions.contains k && k != limitKey l)) ∧
      (∀ d < 2, t.flag PM_RED_STATUS_OVERRIDE d = (t.heldBySafety (6 + d) && s.flag PM_RED_STATUS_OVERRIDE d)) ∧
      ∀ d : Fin 2, l = .junction110 ⟨6 + d, by omega⟩ → t.flag PM_RED_STATUS_THROTTLED d = false)

/-- R397, R398: a sentinel that passes on a tile it may run on is counted and its time kept; one that fails sets SENTINEL_FAIL, is
recorded with its variant, pattern and physical tile, and has the logical tile in front of it recovered. On any other tile it does
nothing.

R399: a write of MF_LS_CFG that sets ENABLE takes effect only where PORT is a 400G fabric port that shows ready, and otherwise leaves
ENABLE 0 and sets CFG_ERR; R404: a 1 written to MISMATCH clears it. R401: the peer's digest of a locked slot's epoch is compared once both
are there, and both are let go: a difference in RESULT_DIGEST, SENDS, MANIFEST, or LAST_CYCLE at one variant, sets MISMATCH, and a
difference in VARIANT alone sets VARIANT_DIFF. A frame that the link layer does not take is no digest, and one that is no DIGEST of the
pair's is dropped (the model counts it in DROP_SCECA, log 57). R403: a digest that waits past TIMEOUT_US is dropped with PEER_LATE; with
none waiting nothing happens. The model refuses a TIMEOUT_US below 10 (log 56). -/
def Obligations.SentinelsAndLockstepCompare : Prop :=
  (∀ (s : State) (d : Fin 2) (phys : Fin 96) (pattern : Fin 64), s.live = true →
    (∀ pass, s.sentinelMay d phys = false → exec (.sentinelRun d phys pattern pass) s = .next s) ∧
    (s.sentinelMay d phys = true →
      (∃ t, exec (.sentinelRun d phys pattern true) s = .next t ∧
        t.rd MF_SENTINEL_STATUS_PASSES d = (s.rd MF_SENTINEL_STATUS_PASSES d + 1) % 2 ^ 32 ∧
        sget 0 t.re.passes (passKey d phys pattern (s.rd MF_DIE_STATUS_VARIANT d)) = s.now) ∧
      (∃ t, exec (.sentinelRun d phys pattern false) s = .next t ∧ t.rd MF_ERR_SENTINEL_FAIL d = 1 ∧
        t.rd MF_SENTINEL_STATUS_FAILS d = min 65535 (s.rd MF_SENTINEL_STATUS_FAILS d + 1) ∧ t.rd MF_SENTINEL_STATUS_LAST_VALID d = 1 ∧
        t.rd MF_SENTINEL_STATUS_LAST_PHYS d = phys ∧ t.rd MF_SENTINEL_STATUS_LAST_PATTERN d = pattern ∧
        t.rd MF_SENTINEL_STATUS_LAST_VARIANT d = s.rd MF_DIE_STATUS_VARIANT d ∧
        ∀ n, s.logicalOf d phys = some n → t.fh.recoveries.any (fun r => r.kind == 4 && r.logical == n) = true))) ∧
  (∀ (s : State) (v : Word), s.barOpen = true → s.performs (MF_LS_CFG.offset 0) = true → MF_LS_CFG_TIMEOUT_US.of v < 10 →
    ∃ t, exec (.lockstepEnable v) s = .next t ∧ t.word (MF_LS_CFG.offset 0) = s.word (MF_LS_CFG.offset 0) ∧ t.re = s.re) ∧
  (∀ (s : State) (v : Word), s.barOpen = true → s.performs (MF_LS_CFG.offset 0) = true → 10 ≤ MF_LS_CFG_TIMEOUT_US.of v →
    ∃ t, exec (.lockstepEnable v) s = .next t ∧ t.rd MF_LS_CFG_PORT 0 = MF_LS_CFG_PORT.of v ∧
      (MF_LS_CFG_ENABLE.isSet v = false → t.flag MF_LS_CFG_ENABLE 0 = false ∧ t.re.own = [] ∧ t.re.peer = []) ∧
      (MF_LS_CFG_ENABLE.isSet v = true → s.flag MF_LS_CFG_ENABLE 0 = false →
        t.flag MF_LS_CFG_ENABLE 0 = s.pairPortOk (MF_LS_CFG_PORT.of v) ∧
        (s.pairPortOk (MF_LS_CFG_PORT.of v) = false → t.rd MF_LS_STATUS_CFG_ERR 0 = 1))) ∧
  (∀ (s : State) (v : Word), s.barOpen = true → s.performs (MF_LS_STATUS.offset 0) = true →
    ∃ t, exec (.lockstepMismatchClear v) s = .next t ∧ t.flag MF_LS_STATUS_MISMATCH 0 = (s.flag MF_LS_STATUS_MISMATCH 0 && !MF_LS_STATUS_MISMATCH.isSet v)) ∧
  (∀ (s : State) (n : Fin 1024) (tag : Option (BitVec 48)) (p : List Byte), s.live = true →
    (s.link n ≠ 3 → exec (.lockstepDigestReceived n tag p) s = .next s) ∧
    (∀ u, s.link n = 3 → s.linkConsume n tag (p.length + 18) = (false, u) → exec (.lockstepDigestReceived n tag p) s = .next u) ∧
    (∀ u, s.link n = 3 → s.linkConsume n tag (p.length + 18) = (true, u) →
      (s.flag MF_LS_CFG_ENABLE 0 = false ∨ s.rd MF_LS_CFG_PORT 0 ≠ n.val ∨ digestFormed p = false) →
      ∃ t, exec (.lockstepDigestReceived n tag p) s = .next t ∧ t.counter 1 (64 * n + 26) = (u.counter 1 (64 * n + 26) + 1) % 2 ^ 64 ∧
        t.re = s.re ∧ t.regs = u.regs)) ∧
  (∀ (s u : State) (n : Fin 1024) (tag : Option (BitVec 48)) (p : List Byte) (a : Digest), s.live = true → s.link n = 3 →
    s.linkConsume n tag (p.length + 18) = (true, u) →
    s.flag MF_LS_CFG_ENABLE 0 = true → s.rd MF_LS_CFG_PORT 0 = n → digestFormed p = true → s.slotLocked (digestOf p).slot = true →
    let b := digestOf p
    s.re.own.find? (fun x => x.slot == b.slot && x.epoch == b.epoch) = some a → (∀ x ∈ s.re.peer, x.slot ≠ b.slot) →
    b.epoch ≤ s.completedEpochs b.slot →
    ∃ t, exec (.lockstepDigestReceived n tag p) s = .next t ∧ (∀ x ∈ t.re.own, ¬ (x.slot = b.slot ∧ x.epoch = b.epoch)) ∧
      (∀ x ∈ t.re.peer, x.slot ≠ b.slot) ∧
      let wrong := a.result ≠ b.result ∨ a.sends ≠ b.sends ∨ a.manifest ≠ b.manifest ∨ (a.variant = b.variant ∧ a.last ≠ b.last)
      (wrong → t.flag MF_LS_STATUS_MISMATCH 0 = true ∧
        (s.flag MF_LS_STATUS_MISMATCH 0 = false → t.rd MF_LS_EPOCH_EPOCH 0 = a.epoch % 2 ^ 64 ∧ t.rd MF_LS_STATUS_MISMATCH_SLOT 0 = a.slot)) ∧
      (¬ wrong → t.flag MF_LS_STATUS_MISMATCH 0 = s.flag MF_LS_STATUS_MISMATCH 0 ∧ (a.variant ≠ b.variant → t.rd MF_LS_STATUS_VARIANT_DIFF 0 = 1))) ∧
  (∀ (s : State) (k : Fin 128), s.live = true → s.re.own.find? (fun x => x.slot == k.val) = none → exec (.lockstepPeerTimeout k) s = .next s) ∧
  (∀ (s : State) (k : Fin 128) (g : Digest), s.live = true → s.re.own.find? (fun x => x.slot == k.val) = some g →
    ∃ t, exec (.lockstepPeerTimeout k) s = .next t ∧ t.rd MF_LS_STATUS_PEER_LATE 0 = 1 ∧ t.re.own = s.re.own.erase g ∧ t.re.peer = s.re.peer)

/-- R466, R467: a new SHARE that the pools leave room for empties the die's cache share, whose bytes device memory then holds, and shows
RESIZING until the resize is done; one that they leave none for is refused with RESIZE_REFUSED, and while RESIZING, or with a field out of
range, a write changes nothing. R482, R16: a hint range is made valid only where it is good, and otherwise stays invalid with
HINT_REFUSED; its reserved bits read zero. R481, R476, R506: a write-combining entry is written to HBM whole and is held no more; one that
its SRAM does not give back is dropped and counts as uncorrectable. R493: a gathered flow entry is added to its four counts in memory, or
replaces an uncorrectable one and is counted lost, and is held no more; while the stacks of its table are not ready it is held. -/
def Obligations.CacheAndCountersServe : Prop :=
  (∀ (s : State) (d : Fin 2) (v : Word), s.barOpen = true → s.performs (MS_CACHE_CFG.offset d) = true →
    (s.flag MS_CACHE_STATUS_RESIZING d = true ∨ 16 < MS_CACHE_CFG_SHARE.of v ∨ 12 < MS_CACHE_CFG_KEEP_WAYS.of v →
      ∃ t, exec (.cacheResize d v) s = .next t ∧ t.word (MS_CACHE_CFG.offset d) = s.word (MS_CACHE_CFG.offset d) ∧ t.ms = s.ms) ∧
    (s.flag MS_CACHE_STATUS_RESIZING d = false → MS_CACHE_CFG_SHARE.of v ≤ 16 → MS_CACHE_CFG_KEEP_WAYS.of v ≤ 12 →
      MS_CACHE_CFG_SHARE.of v = s.rd MS_CACHE_CFG_SHARE d →
      ∃ t, exec (.cacheResize d v) s = .next t ∧ t.rd MS_CACHE_CFG_KEEP_WAYS d = MS_CACHE_CFG_KEEP_WAYS.of v ∧
        t.flag MS_CACHE_STATUS_RESIZING d = false ∧ t.ms = s.ms) ∧
    (s.flag MS_CACHE_STATUS_RESIZING d = false → MS_CACHE_CFG_SHARE.of v ≤ 16 → MS_CACHE_CFG_KEEP_WAYS.of v ≤ 12 →
      MS_CACHE_CFG_SHARE.of v ≠ s.rd MS_CACHE_CFG_SHARE d → (s.plainWrite MS_CACHE_CFG d v).poolsFit = false →
      ∃ t, exec (.cacheResize d v) s = .next t ∧ t.word (MS_CACHE_CFG.offset d) = s.word (MS_CACHE_CFG.offset d) ∧ t.ms = s.ms ∧
        t.rd MS_ERR_RESIZE_REFUSED d = 1) ∧
    (s.flag MS_CACHE_STATUS_RESIZING d = false → MS_CACHE_CFG_SHARE.of v ≤ 16 → MS_CACHE_CFG_KEEP_WAYS.of v ≤ 12 →
      MS_CACHE_CFG_SHARE.of v ≠ s.rd MS_CACHE_CFG_SHARE d → (s.plainWrite MS_CACHE_CFG d v).poolsFit = true →
      ∃ t, exec (.cacheResize d v) s = .next t ∧ t.rd MS_CACHE_CFG_SHARE d = MS_CACHE_CFG_SHARE.of v ∧
        t.rd MS_CACHE_CFG_KEEP_WAYS d = MS_CACHE_CFG_KEEP_WAYS.of v ∧ t.flag MS_CACHE_STATUS_RESIZING d = true ∧
        (∀ x ∈ t.ms.lines, stripeDie x.stripe ≠ d) ∧ (∀ x ∈ s.ms.lines, stripeDie x.stripe ≠ d → x ∈ t.ms.lines) ∧
        (s.Coherent → ∀ a, t.memByte a = s.memByte a))) ∧
  (∀ (s : State) (d : Fin 2), s.live = true →
    ∃ t, exec (.cacheResizeDone d) s = .next t ∧ t.flag MS_CACHE_STATUS_RESIZING d = false ∧ t.ms = s.ms ∧
      t.rd MS_CACHE_STATUS_WCB_USED d = s.rd MS_CACHE_STATUS_WCB_USED d) ∧
  (∀ (s : State) (d : Fin 2) (k : Fin 16) (v : Word), s.barOpen = true → s.performs (MS_HINT_RANGE.offset (32 * d + 2 * k + 1)) = true →
    ∃ t, exec (.hintRangeSet d k v) s = .next t ∧ bitsOf (t.hintWord d k 1) 38 0 = bitsOf v.toNat 38 0 ∧
      bitsOf (t.hintWord d k 1) 59 39 = 0 ∧ bitsOf (t.hintWord d k 1) 61 60 = bitsOf v.toNat 61 60 ∧ (t.hintWord d k 1).testBit 62 = false ∧
      let good := (s.plainWrite MS_HINT_RANGE (32 * d + 2 * k + 1) (hintKept 1 v)).hintOk d k
      (t.hintWord d k 1).testBit 63 = (v.toNat.testBit 63 && good) ∧ (v.toNat.testBit 63 = true → good = false → t.rd MS_ERR_HINT_REFUSED d = 1)) ∧
  (∀ (s : State) (stripe : Fin 536870912) (sram : Sram), s.live = true → lineAt s.ms.combining stripe = none →
    exec (.wcbFlush stripe sram) s = .next s) ∧
  (∀ (s : State) (stripe : Fin 536870912) (sram : Sram) (x : Line), s.live = true → lineAt s.ms.combining stripe = some x → sram ≠ .uncorrectable →
    (x.sectors.map (fun kb => kb.1)).Nodup → (∀ kb ∈ x.sectors, kb.1 < 32 ∧ kb.2.length = 32) →
    ∃ t, exec (.wcbFlush stripe sram) s = .next t ∧ lineAt t.ms.combining stripe = none ∧ (∀ kb ∈ x.dirtySectors, t.farSector stripe kb.1 = kb.2) ∧
      (∀ a, a / 1024 ≠ stripe.val → sget 0 t.ms.hbm a = sget 0 s.ms.hbm a) ∧ (s.Coherent → ∀ a, t.memByte a = s.memByte a)) ∧
  (∀ (s : State) (stripe : Fin 536870912) (x : Line), s.live = true → lineAt s.ms.combining stripe = some x →
    ∃ t, exec (.wcbFlush stripe .uncorrectable) s = .next t ∧ lineAt t.ms.combining stripe = none ∧ t.rd MS_ERR_UNCORRECTABLE (stripeDie stripe) = 1 ∧
      t.ms.hbm = s.ms.hbm) ∧
  (∀ (s : State) (p : Fin 8) (i : Fin 16777216), s.live = true →
    (s.narrowTakes p = false ∨ (s.flows p).find? (fun kf => kf.1 == i.val) = none → exec (.flowEntryFlush p i) s = .next s) ∧
    ∀ f, s.narrowTakes p = true → (s.flows p).find? (fun kf => kf.1 == i.val) = some (i.val, f) →
      let a := s.rd MS_FLOW_BASE_ADDR p + 32 * i
      a % 32 = 0 → s.Coherent →
      ∃ t, exec (.flowEntryFlush p i) s = .next t ∧ (∀ kf ∈ t.flows p, kf.1 ≠ i) ∧
        (∀ b, b < a ∨ a + 32 ≤ b → t.memByte b = s.memByte b) ∧
        (s.firstLost a 32 = none → t.memWord a = (s.memWord a + f.frames) % 2 ^ 64 ∧ t.memWord (a + 8) = (s.memWord (a + 8) + f.bytes) % 2 ^ 64 ∧
          t.memWord (a + 16) = (s.memWord (a + 16) + f.ce) % 2 ^ 64 ∧ t.memWord (a + 24) = (s.memWord (a + 24) + f.dropped) % 2 ^ 64) ∧
        ((s.firstLost a 32).isSome = true → t.rd MS_FLOW_LOST_LOST p = (s.rd MS_FLOW_LOST_LOST p + 1) % 2 ^ 32 ∧
          t.memWord a = f.frames % 2 ^ 64 ∧ t.memWord (a + 8) = f.bytes % 2 ^ 64 ∧ t.memWord (a + 16) = f.ce % 2 ^ 64 ∧
          t.memWord (a + 24) = f.dropped % 2 ^ 64))

/-- R475, R477: a whole-stripe read that finds no wrong member but erased ones, or one wrong member and no erased one, leaves the data of
every stripe as it was, counts a correction of one member and sets DOUBLE_ERASURE where two were filled; with three members erased, or a
stripe of the bad-stripe list, it is uncorrectable. One erased member beside a wrong one has the stripe read once more, and is then
uncorrectable. The patrol scrubber does the same and goes on to the next stripe of its stack. On a stack that is not in service, or
for a stripe without storage, nothing is read. -/
def Obligations.StripesAreCorrected : Prop :=
  (∀ (s : State) (stripe : Fin 536870912) (r : StripeRead), s.live = true → (s.stackServes (stripeStack stripe) = false ∨ stripeBacked stripe = false) →
    exec (.hbmReadComplete stripe r) s = .next s) ∧
  (∀ (s : State) (h : Fin 12) (r : StripeRead), s.live = true → s.stackServes h = false → exec (.patrolScrub h r) s = .next s) ∧
  (∀ (s : State) (stripe : Fin 536870912) (r : StripeRead), s.live = true → s.stackServes (stripeStack stripe) = true → stripeBacked stripe = true →
    s.badEntry stripe = none →
    let es := s.erasedMembers stripe r
    let d := stripeDie stripe
    (∀ i, es = [i] → stripeDecode1 r i = .inconsistent →
      ∃ t, exec (.hbmReadComplete stripe r) s = .next t ∧ t.ms.hbm = s.ms.hbm ∧
        if s.ms.reread.contains stripe.val = true then t.ms.unreadable.contains stripe.val = true ∧ t.rd MS_ERR_UNCORRECTABLE d = 1
        else t.ms.reread.contains stripe.val = true ∧ t.regs = s.regs) ∧
    (es.length ≤ 2 → (∀ i < 18, es.contains i = false → ∀ j < 64, stripeDiff r i j = 0) →
      ∃ t, exec (.hbmReadComplete stripe r) s = .next t ∧ t.ms.hbm = s.ms.hbm ∧ t.ms.unreadable.contains stripe.val = false ∧
        (es.length = 1 → t.rd MS_ERR_CORRECTED d = 1 ∧ t.rd MS_ECC_COUNT_CORRECTED d = (s.rd MS_ECC_COUNT_CORRECTED d + 1) % 2 ^ 32) ∧
        (es.length = 2 → t.rd MS_ERR_DOUBLE_ERASURE d = 1)) ∧
    (∀ i < 18, es = [] → (∀ k < 18, k ≠ i → ∀ j < 64, stripeDiff r k j = 0) → (∃ j < 64, stripeDiff r i j ≠ 0) →
      ∃ t, exec (.hbmReadComplete stripe r) s = .next t ∧ t.ms.hbm = s.ms.hbm ∧ t.rd MS_ERR_CORRECTED d = 1 ∧
        t.rd MS_ECC_COUNT_CORRECTED d = (s.rd MS_ECC_COUNT_CORRECTED d + 1) % 2 ^ 32) ∧
    (3 ≤ es.length →
      ∃ t, exec (.hbmReadComplete stripe r) s = .next t ∧ t.ms.unreadable.contains stripe.val = true ∧ t.rd MS_ERR_UNCORRECTABLE d = 1)) ∧
  (∀ (s : State) (stripe : Fin 536870912) (r : StripeRead), s.live = true → s.stackServes (stripeStack stripe) = true → stripeBacked stripe = true →
    (s.badEntry stripe).isSome = true →
    ∃ t, exec (.hbmReadComplete stripe r) s = .next t ∧ t.rd MS_ERR_UNCORRECTABLE (stripeDie stripe) = 1 ∧ t.ms.hbm = s.ms.hbm) ∧
  (∀ (s : State) (h : Fin 12) (r : StripeRead), s.live = true → s.stackServes h = true →
    let p := (s.hbmStack h).scrub
    let stripe := h / 6 * 2 ^ 28 + 6 * p + h % 6
    s.badEntry stripe = none → (s.erasedMembers stripe r).length ≤ 2 →
    (∀ i < 18, (s.erasedMembers stripe r).contains i = false → ∀ j < 64, stripeDiff r i j = 0) →
    ∃ t, exec (.patrolScrub h r) s = .next t ∧ t.ms.hbm = s.ms.hbm ∧ (t.hbmStack h).scrub = (p + 1) % stackStripes)

/-- R497 to R502: a retrain that is asked for is queued once, unless its pseudo-channel is erased for good; the stack's temperature
reaches TEMP, and a row that awaits repair queues its pseudo-channel. The retrain that waits longest starts on a stack in service; trained,
it goes on to its sweep with its rows repaired while spare rows are left, and a third failure in a row erases the pseudo-channel for good;
the sweep's end lifts the erasure. A step that is not due changes nothing. R503 to R505, R508, R500: a write with a field out of range
changes nothing; TEST withdraws a stack that nothing uses, is refused where something does, and waits for a retrain; shifts of up to 512
bits run one at a time and give back what was shifted out, and clearing TEST leaves every byte of the stack zero. R495: counting is enabled
where the table is good. -/
def Obligations.StacksRetrainAndTest : Prop :=
  (∀ (s : State) (h : Fin 12) (c : RetrainCause), s.live = true → s.stackServes h = false → (∀ v, c ≠ .write v) →
    exec (.hbmRetrainRequest h c) s = .next s) ∧
  (∀ (s : State) (h : Fin 12), s.live = true → s.stackServes h = true →
    let x := s.hbmStack h
    let queued := fun (n : Nat) => if s.fh.channelsErased.contains (64 * h + n) = true ∨ n ∈ x.queue then x.queue else x.queue ++ [n]
    (∀ n : Fin 64, ∃ t, exec (.hbmRetrainRequest h (.errors n)) s = .next t ∧ t.hbmStack h = { x with queue := queued n }) ∧
    (∃ t, exec (.hbmRetrainRequest h .turn) s = .next t ∧ t.hbmStack h = { x with queue := queued x.turn, turn := (x.turn + 1) % 64 }) ∧
    (∀ (n : Fin 64) (row : BitVec 24), ∃ t, exec (.hbmRetrainRequest h (.row n row)) s = .next t ∧
      t.hbmStack h = (if (n.val, row.toNat) ∈ x.rows ∨ (n.val, row.toNat) ∈ x.stuck then x
        else { x with rows := x.rows ++ [(n.val, row.toNat)], queue := queued n })) ∧
    (∀ c : BitVec 8, ∃ t, exec (.hbmRetrainRequest h (.temperature c)) s = .next t ∧ t.rd MS_HBM_STATUS_TEMP h = c.toNat ∧
      (t.hbmStack h).retrain = x.retrain ∧ (x.retrain.isSome = true → t.hbmStack h = x) ∧
      (x.retrain = none → ∀ n < 64, n ∈ (t.hbmStack h).queue ↔ n ∈ x.queue ∨ (s.fh.channelsErased.contains (64 * h + n) = false ∧
        s.rd MS_HBM_CTL_TEMP_DELTA h ≤ (c.toNat - sget x.temp x.temps n) + (sget x.temp x.temps n - c.toNat))))) ∧
  (∀ (s : State) (h : Fin 12) (v : Word), s.barOpen = true → s.performs (MS_HBM_CTL.offset h) = true →
    (hbmCtlOk v = false → ∃ t, exec (.hbmRetrainRequest h (.write v)) s = .next t ∧ t.word (MS_HBM_CTL.offset h) = s.word (MS_HBM_CTL.offset h) ∧
      t.ms = s.ms) ∧
    (hbmCtlOk v = true → s.flag MS_HBM_CTL_TEST h = false → MS_HBM_CTL_TEST.isSet v = false → MS_HBM_CTL_RETRAIN.isSet v = true →
      ∃ t, exec (.hbmRetrainRequest h (.write v)) s = .next t ∧ MS_HBM_CTL_PC.of v ∈ (t.hbmStack h).queue ∧
        t.rd MS_HBM_CTL_TEMP_DELTA h = MS_HBM_CTL_TEMP_DELTA.of v ∧ t.rd MS_HBM_CTL_PERIOD_S h = MS_HBM_CTL_PERIOD_S.of v) ∧
    (hbmCtlOk v = true → s.flag MS_HBM_CTL_TEST h = false → MS_HBM_CTL_TEST.isSet v = true →
      ((s.hbmStack h).retrain.isSome = true →
        ∃ t, exec (.hbmTestEnter h v) s = .next t ∧ t.hbmStack h = { s.hbmStack h with heldTest := some v } ∧ t.regs = s.regs) ∧
      ((s.hbmStack h).retrain = none → s.testOk h = false →
        ∃ t, exec (.hbmTestEnter h v) s = .next t ∧ t.word (MS_HBM_CTL.offset h) = s.word (MS_HBM_CTL.offset h) ∧ t.ms = s.ms) ∧
      ((s.hbmStack h).retrain = none → s.testOk h = true →
        ∃ t, exec (.hbmTestEnter h v) s = .next t ∧ t.flag MS_HBM_CTL_TEST h = true ∧ t.rd MS_HBM_STATUS_STATE h = 2 ∧ t.hbmReady h = false)) ∧
    (hbmCtlOk v = true → s.flag MS_HBM_CTL_TEST h = true → MS_HBM_CTL_TEST.isSet v = false →
      ∃ t, exec (.hbmTestExit h v) s = .next t ∧ t.flag MS_HBM_CTL_TEST h = false ∧ t.rd MS_HBM_STATUS_STATE h = 0 ∧
        (∀ a, stripeStack (stripeOf a) = h → t.memByte a = 0) ∧ ∀ a, stripeStack (a / 1024) ≠ h → sget 0 t.ms.hbm a = sget 0 s.ms.hbm a)) ∧
  (∀ (s : State) (h : Fin 12), s.live = true →
    (s.stackServes h = false ∨ (s.hbmStack h).retrain.isSome = true ∨ (s.hbmStack h).queue = [] → exec (.hbmRetrainStart h) s = .next s) ∧
    ∀ n rest, s.stackServes h = true → (s.hbmStack h).retrain = none → (s.hbmStack h).queue = n :: rest →
      ∃ t, exec (.hbmRetrainStart h) s = .next t ∧ t.hbmStack h = { s.hbmStack h with queue := rest, retrain := some ⟨n, false⟩, fails := 0 } ∧
        t.flag MS_HBM_STATUS_RETRAINING h = true ∧ t.rd MS_HBM_STATUS_RETRAIN_PC h = n % 64) ∧
  (∀ (s : State) (h : Fin 12) (trained : Bool) (spare : BitVec 8), s.live = true → (∀ x, (s.hbmStack h).retrain = some x → x.sweeping = true) →
    exec (.hbmPhyRetrainDone h trained spare) s = .next s) ∧
  (∀ (s : State) (h : Fin 12) (n : Nat) (spare : BitVec 8), s.live = true → (s.hbmStack h).retrain = some ⟨n, false⟩ →
    let mine := (s.hbmStack h).rows.filter (fun x => x.1 == n)
    (∃ t, exec (.hbmPhyRetrainDone h true spare) s = .next t ∧ (t.hbmStack h).retrain = some ⟨n, true⟩ ∧ (t.hbmStack h).fails = 0 ∧
      (t.hbmStack h).rows = (s.hbmStack h).rows.filter (fun x => x.1 != n) ∧ (t.hbmStack h).stuck = (s.hbmStack h).stuck ++ mine.drop spare.toNat ∧
      t.rd MS_HBM_STATUS_ROW_REPAIRS h = min 255 (s.rd MS_HBM_STATUS_ROW_REPAIRS h + min mine.length spare.toNat)) ∧
    ((s.hbmStack h).fails < 2 → ∃ t, exec (.hbmPhyRetrainDone h false spare) s = .next t ∧
      t.hbmStack h = { s.hbmStack h with fails := (s.hbmStack h).fails + 1 } ∧ t.regs = s.regs) ∧
    (2 ≤ (s.hbmStack h).fails → ∃ t, exec (.hbmPhyRetrainDone h false spare) s = .next t ∧ (t.hbmStack h).retrain = none ∧
      t.fh.channelsErased.contains (64 * h + n) = true)) ∧
  (∀ (s : State) (h : Fin 12), s.live = true → (∀ x, (s.hbmStack h).retrain = some x → x.sweeping = false) →
    exec (.hbmRetrainDone h) s = .next s) ∧
  (∀ (s : State) (h : Fin 12) (n : Nat), s.live = true → (s.hbmStack h).retrain = some ⟨n, true⟩ →
    ∃ t, exec (.hbmRetrainDone h) s = .next t ∧ (t.hbmStack h).retrain = none ∧ t.flag MS_HBM_STATUS_RETRAINING h = false ∧
      t.rd MS_HBM_STATUS_RETRAINS h = min 65535 (s.rd MS_HBM_STATUS_RETRAINS h + 1)) ∧
  (∀ (s : State) (h : Fin 12) (v : Word), s.barOpen = true → s.performs (MS_HBM_TEST_CMD.offset h) = true → MS_HBM_TEST_CMD_GO.isSet v = true →
    s.flag MS_HBM_CTL_TEST h = true → s.flag MS_HBM_TEST_CMD_BUSY h = false → 1 ≤ MS_HBM_TEST_CMD_LENGTH.of v → MS_HBM_TEST_CMD_LENGTH.of v ≤ 512 →
    ∃ t, exec (.hbmTestShift h v) s = .next t ∧ t.flag MS_HBM_TEST_CMD_BUSY h = true ∧
      Emitted s t (.testShift h (MS_HBM_TEST_CMD_INSTRUCTION.of v) (MS_HBM_TEST_CMD_CHANNEL.of v) (MS_HBM_TEST_CMD_LENGTH.of v)
        (s.getBytes MS_HBM_TEST_DATA (8 * h) 8))) ∧
  (∀ (s : State) (h : Fin 12) (v : Word), s.barOpen = true → s.performs (MS_HBM_TEST_CMD.offset h) = true → MS_HBM_TEST_CMD_GO.isSet v = true →
    (s.flag MS_HBM_CTL_TEST h = false ∨ s.flag MS_HBM_TEST_CMD_BUSY h = true ∨ MS_HBM_TEST_CMD_LENGTH.of v = 0 ∨ 512 < MS_HBM_TEST_CMD_LENGTH.of v) →
    ∃ t, exec (.hbmTestShift h v) s = .next t ∧ t.word (MS_HBM_TEST_CMD.offset h) = s.word (MS_HBM_TEST_CMD.offset h)) ∧
  (∀ (s : State) (h : Fin 12) (data : List Byte), s.live = true → s.flag MS_HBM_TEST_CMD_BUSY h = false →
    exec (.hbmTestShiftDone h data) s = .next s) ∧
  (∀ (s : State) (h : Fin 12) (data : List Byte), s.live = true → s.flag MS_HBM_TEST_CMD_BUSY h = true →
    ∃ t, exec (.hbmTestShiftDone h data) s = .next t ∧ t.flag MS_HBM_TEST_CMD_BUSY h = false ∧
      let n := s.rd MS_HBM_TEST_CMD_LENGTH h
      n ≤ 512 → leNat (t.getBytes MS_HBM_TEST_DATA (8 * h) 8) % 2 ^ n = leNat data % 2 ^ n) ∧
  (∀ (s : State) (p : Fin 8) (v : Word), s.barOpen = true → s.performs (MS_FLOW_CFG.offset p) = true → 10 ≤ MS_FLOW_CFG_LOG2.of v →
    MS_FLOW_CFG_LOG2.of v ≤ 24 → MS_FLOW_CFG_FLUSH_US.of v ≠ 0 →
    ∃ t, exec (.flowEnable p v) s = .next t ∧ t.rd MS_FLOW_CFG_LOG2 p = MS_FLOW_CFG_LOG2.of v ∧
      let good := (s.plainWrite MS_FLOW_CFG p v).flowOk p
      t.flag MS_FLOW_CFG_ENABLE p = (MS_FLOW_CFG_ENABLE.isSet v && good) ∧
      (MS_FLOW_CFG_ENABLE.isSet v = true → good = false → t.rd MS_ERR_CFG_ERR (p / 4) = 1))

/-- R521 to R525: a down frame of an engine in LOCKING or SERVICE goes out, 1,180 bytes that begin with its type and the engine, and every
heater of a ring in use then lies within the envelope; a good up frame brings the monitor readings, the temperature and the command that
was applied, and a bad one is counted. R522, R548: an engine that loses its frames enters HOLD, in which no fibre calibrates and no circuit
is being set up; retrained, it resumes, in LOCKING where it had left service, and leaves service when HOLD lasts. In other states of the
engine these do nothing. R533, R534: a calibration that may begin sweeps the oldest channel of a fibre with no link up; on a ROTATING fibre
it first asks the peer to move the oldest lane to FREE; otherwise none begins. It ends with the ring's new values. -/
def Obligations.EnginesTuneAndHold : Prop :=
  (∀ (s : State) (e : Fin 16) (p0 p1 : BitVec 12), s.live = true →
    if s.rd OC_ENGINE_STATUS_STATE e = 1 ∨ s.rd OC_ENGINE_STATUS_STATE e = 2 then
      ∃ t frame, exec (.engineDownFrame e p0 p1) s = .next t ∧ Emitted s t (.engineDown e frame) ∧ frame.length = 1180 ∧
        le frame 0 1 = 1 ∧ le frame 1 1 = e ∧
        (s.rd OC_ENGINE_ENV_H_MIN e ≤ s.rd OC_ENGINE_ENV_H_MAX e → ∀ r ∈ s.usedRings e,
          s.rd OC_ENGINE_ENV_H_MIN e ≤ (t.ringSt (576 * e + r)).heater ∧ (t.ringSt (576 * e + r)).heater ≤ s.rd OC_ENGINE_ENV_H_MAX e)
    else exec (.engineDownFrame e p0 p1) s = .next s) ∧
  (∀ (s : State) (e : Fin 16) (b : List Byte), s.live = true →
    if s.rd OC_ENGINE_STATUS_STATE e = 1 ∨ s.rd OC_ENGINE_STATUS_STATE e = 2 then
      ∃ t, exec (.engineUpFrame e b) s = .next t ∧
        if upFrameGood e b = true then
          t.rd OC_ENGINE_STATUS_TEMP e = le b 1160 1 ∧ (∀ r ∈ s.usedRings e, (t.ringSt (576 * e + r)).monitor = le b (8 + 2 * r) 2) ∧
          (le b 4 4 = (s.engine e).cmdSeq → (t.engine e).applied = true)
        else t.rd OC_ENGINE_STATUS_CRC_ERRS e = min 65535 (s.rd OC_ENGINE_STATUS_CRC_ERRS e + 1) ∧ t.oc = s.oc
    else exec (.engineUpFrame e b) s = .next s) ∧
  (∀ (s : State) (e : Fin 16), s.live = true →
    (if s.rd OC_ENGINE_STATUS_STATE e = 1 ∨ s.rd OC_ENGINE_STATUS_STATE e = 2 then
      ∃ t, exec (.engineEntersHold e) s = .next t ∧ t.rd OC_ENGINE_STATUS_STATE e = 3 ∧ t.rd OC_ERR_LINK_HOLD 0 = 1 ∧
        (∀ i < 16, t.calW (16 * e + i) = 15) ∧ ∀ c < 8, t.circuitState (8 * e + c) ≠ 1 ∧ t.circuitState (8 * e + c) ≠ 2
    else exec (.engineEntersHold e) s = .next s) ∧
    if s.rd OC_ENGINE_STATUS_STATE e = 3 then
      (∃ t, exec (.engineLinkRetrained e) s = .next t ∧ t.rd OC_ENGINE_STATUS_STATE e = (if s.ready (.engine e) = true then 2 else 1) ∧ t.oc = s.oc) ∧
      (∃ t, exec (.engineHoldExpiry e) s = .next t ∧ t.ready (.engine e) = false)
    else exec (.engineLinkRetrained e) s = .next s ∧ exec (.engineHoldExpiry e) s = .next s) ∧
  (∀ (s : State) (f : Fin 256), s.live = true →
    let usable := (((List.range 8).filter (fun j => !s.laneWithdrawn f j)).map (wlOf (s.txWl f))).filter (fun w => w != s.rd OC_FIBRE_MAP_FORD_W f)
    let all := usable ++ (if s.txFree f = 15 then [] else [s.txFree f])
    if s.mayCalibrate f = false then exec (.calibrationStart f) s = .next s
    else if s.upPorts f = [] then
      (all = [] → exec (.calibrationStart f) s = .next s) ∧
      (all ≠ [] → ∃ t w, exec (.calibrationStart f) s = .next t ∧ t.calW f = w ∧ w ∈ all ∧
        ∀ v ∈ all, sget 0 s.oc.calibrated (16 * f + w) ≤ sget 0 s.oc.calibrated (16 * f + v))
    else if s.rotating f = true ∧ s.txFree f ≠ 15 ∧ usable ≠ [] then
      ∃ t m, exec (.calibrationStart f) s = .next t ∧ t.moveOf f = some m ∧ m.cause = .calibration ∧ m.marker = none ∧ m.to_ = s.txFree f ∧
        m.from_ ∈ usable ∧ (∀ v ∈ usable, sget 0 s.oc.calibrated (16 * f + m.from_) ≤ sget 0 s.oc.calibrated (16 * f + v)) ∧
        wlOf (s.txWl f) m.lane = m.from_ ∧ SentOwn s t m.port (s.ocFrame m.port 0x01 m.id m.lane 0 m.from_ m.to_ 0 0)
    else exec (.calibrationStart f) s = .next s) ∧
  (∀ (s : State) (f : Fin 256) (target ki window : BitVec 16), s.live = true →
    if s.calW f = 15 then exec (.calibrationDone f target ki window) s = .next s
    else
      ∃ t, exec (.calibrationDone f target ki window) s = .next t ∧ t.calW f = 15 ∧
        (t.ringSt (ringKey f 0 (s.calW f))).cal = some (target.toNat, ki.toNat, window.toNat) ∧
        (t.ringSt (ringKey f 0 (s.calW f))).locked = false ∧ sget 0 t.oc.calibrated (16 * f + s.calW f) = t.now)

/-- R530 to R532: a request is granted where its target is locked, the group's spare is unused and nothing else changes that direction, and
otherwise refused with its reason. A grant of the move under way bridges the lane and sends its marker. A refusal, or no answer, ends a move
for calibration; any other is made unbridged. R522: while the fibre's engine is in HOLD an answer changes no move. A message that names no
move which waits for an answer, is of another form, or that the link layer does not take, changes nothing further. -/
def Obligations.WavelengthsMove : Prop :=
  (∀ (s : State) (n : Fin 1024) (tag : Option (BitVec 48)) (p : List Byte), s.live = true →
    MessageIgnored s n tag p 0x01 (.moveRequest n tag p) ∧ MessageIgnored s n tag p 0x02 (.moveGrant n tag p) ∧
    MessageIgnored s n tag p 0x03 (.moveRefuse n tag p)) ∧
  (∀ (s u : State) (n : Fin 1024) (tag : Option (BitVec 48)) (p : List Byte), MessageTaken s u n tag p 0x01 →
    let f := n.val / 4
    let why := u.moveReason f (be p 11 1)
    ∃ t, exec (.moveRequest n tag p) s = .next t ∧ t.regs = u.regs ∧
      SentOwn u t n (u.ocFrame n (if why = 0 then 0x02 else 0x03) (be p 4 4) (be p 8 1) why (be p 10 1) (be p 11 1) 0 0) ∧
      (why = 0 ↔ (∀ x ∈ u.oc.granted, x.1 ≠ f) ∧ (∀ k d, u.circuitOf (4 * f) = some (k, d) → u.circuitState k = 3) ∧
        (u.ringSt (ringKey f 1 (be p 11 1))).locked = true ∧ u.rd PC_LANE_GROUP_SPARE_FOR f = 15) ∧
      (why = 0 → (f, be p 4 4, be p 8 1, be p 10 1, be p 11 1) ∈ t.oc.granted) ∧
      (why ≠ 0 → t.oc = u.oc ∧ (why = 3 ↔ ((∃ x ∈ u.oc.granted, x.1 = f) ∨ ∃ k d, u.circuitOf (4 * f) = some (k, d) ∧ u.circuitState k ≠ 3)))) ∧
  (∀ (s u : State) (n : Fin 1024) (tag : Option (BitVec 48)) (p : List Byte),
    let f := n.val / 4
    let waits (m : Move) : Prop := m.marker = none ∧ be p 4 4 = m.id ∧ u.engineHolds f = false
    (MessageTaken s u n tag p 0x02 →
      ((∀ m, u.moveOf f = some m → ¬ waits m) → exec (.moveGrant n tag p) s = .next u) ∧
      (∀ m, u.moveOf f = some m → waits m →
        ∃ t, exec (.moveGrant n tag p) s = .next t ∧ t.moveOf f = some { m with marker := some m.swapFrame } ∧
          SentOwn u t m.port m.swapFrame ∧ t.txWl f = u.txWl f)) ∧
    (MessageTaken s u n tag p 0x03 →
      ((∀ m, u.moveOf f = some m → ¬ waits m) → exec (.moveRefuse n tag p) s = .next u) ∧
      (∀ m, u.moveOf f = some m → waits m →
        ∃ t, exec (.moveRefuse n tag p) s = .next t ∧
          if m.cause = .calibration then t.moveOf f = none ∧ t.regs = u.regs else MovedUnbridged u t f m))) ∧
  (∀ (s : State) (f : Fin 256), s.live = true →
    ((∀ m, s.moveOf f = some m → m.marker = none → s.engineHolds f = true) → exec (.moveAnswerTimeout f) s = .next s) ∧
    (∀ m, s.moveOf f = some m → m.marker = none → s.engineHolds f = false →
      ∃ t, exec (.moveAnswerTimeout f) s = .next t ∧
        if m.cause = .calibration then t.moveOf f = none ∧ t.regs = s.regs else MovedUnbridged s t f m))

/-- R523: a down frame of a module goes out, 64 bytes that begin with its type and the module; 100 ms without a good up frame take a module
that was lit or in service from service, in HOLD. R536, R538, R540: a good up frame brings the temperature and each active laser's power, and a lit
position in service whose margin has fallen to the threshold begins a swap, or is FAILED where it has no spare; a bad one changes nothing. R537: a
second gives one sample of each position that was read, at most 3,600 of them, and PREDICT_S reads 0xFFFF while the power does not fall;
of the others it stays. R539, R540: a spare at power is the active laser; one that does not get there leaves the position FAILED. R541: a
laser above the limit sets SAFETY_CUT and POLICY_OVERRIDDEN; one that does not respond is off, its position FAILED where it was the
active laser or the spare of a swap, and without a spare otherwise; at an interlock every position of the module is FAILED. -/
def Obligations.LasersAreSpared : Prop :=
  (∀ (s : State) (m : Fin 4), s.live = true →
    (∃ t frame, exec (.laserDownFrame m) s = .next t ∧ Emitted s t (.laserDown m frame) ∧ frame.length = 64 ∧ le frame 0 1 = 0x11 ∧
      le frame 1 1 = m) ∧
    if s.rd OC_LASER_MODULE_STATUS_STATE m = 1 ∨ s.rd OC_LASER_MODULE_STATUS_STATE m = 2 then
      ∃ t, exec (.laserLinkTimeout m) s = .next t ∧ t.rd OC_LASER_MODULE_STATUS_STATE m = 3 ∧ t.ready (.laser m) = false ∧ t.rd OC_ERR_LINK_HOLD 0 = 1
    else exec (.laserLinkTimeout m) s = .next s) ∧
  (∀ (s : State) (m : Fin 4) (b : List Byte), s.live = true →
    if laserUpGood m b = true then
      ∃ t, exec (.laserUpFrame m b) s = .next t ∧ t.rd OC_LASER_MODULE_STATUS_TEMP m = le b 41 1 ∧
        ∀ k < 9, t.rd OC_LASER_STATUS_POWER (32 * m + k) = le b (4 + 4 * k + 2 * s.activeLaser m k) 2 ∧
          (s.rd OC_LASER_MODULE_STATUS_STATE m = 2 → (s.laserPos m k).driven (s.activeLaser m k) ≠ 0 → (s.laserState m k = 0 ∨ s.laserState m k = 2) →
            sext 16 (le b (4 + 4 * k + 2 * s.activeLaser m k) 2) - sext 16 (s.rd OC_LASER_CFG_ZERO_MARGIN m) ≤ s.spareThreshold m →
            t.laserState m k = if s.noSpare m k = true then 3 else 1)
    else exec (.laserUpFrame m b) s = .next s) ∧
  (∀ (s : State) (m : Fin 4), s.live = true →
    ∃ t, exec (.laserTrendSample m) s = .next t ∧ ∀ k < 9,
      if (s.laserPos m k).count = 0 then t.rd OC_LASER_STATUS_PREDICT_S (32 * m + k) = s.rd OC_LASER_STATUS_PREDICT_S (32 * m + k)
      else
        (t.laserPos m k).count = 0 ∧ (t.laserPos m k).samples.length = min 3600 ((s.laserPos m k).samples.length + 1) ∧
        ((t.laserPos m k).samples.Pairwise (fun x y => x ≤ y) → t.rd OC_LASER_STATUS_PREDICT_S (32 * m + k) = 0xFFFF)) ∧
  (∀ (s : State) (m : Fin 4) (k : Fin 9) (reached : Bool), s.live = true →
    if s.laserState m k = 1 ∧ (s.laserPos m k).lit = true then
      ∃ t, exec (.laserSpareAtPower m k reached) s = .next t ∧ t.noSpare m k = true ∧
        if reached = true then t.laserState m k = 2 ∧ t.activeLaser m k = 1 - s.activeLaser m k
        else t.laserState m k = 3 ∧ t.rd OC_ERR_NO_SPARE 0 = 1 ∧ (t.laserPos m k).drive0 = 0 ∧ (t.laserPos m k).drive1 = 0
    else exec (.laserSpareAtPower m k reached) s = .next s) ∧
  (∀ (s : State) (m : Fin 4), s.live = true →
    (∀ (k : Fin 9) (l : Fin 2) (power : BitVec 16) (responds : Bool),
      ∃ t, exec (.laserSafetyCut m (.overPower k l power responds)) s = .next t ∧ t.rd OC_ERR_SAFETY_CUT 0 = 1 ∧ t.rd PM_ERR_POLICY_OVERRIDDEN 0 = 1 ∧
        t.rd PM_OVERRIDE_LIMIT 0 = 4 ∧
        if responds = true then t.laserState m k = s.laserState m k
        else (t.laserPos m k).driven l = 0 ∧
          if l.val = s.activeLaser m k ∨ (s.laserPos m k).lit = true then t.laserState m k = 3
          else t.laserState m k = s.laserState m k ∧ t.noSpare m k = true) ∧
    ∃ t, exec (.laserSafetyCut m .interlock) s = .next t ∧ t.rd OC_ERR_SAFETY_CUT 0 = 1 ∧ t.flag OC_LASER_MODULE_STATUS_INTERLOCK m = true ∧
      ∀ k < 9, t.laserState m k = 3)

/-- R542 to R545: a window's end begins a new count of every pair's demand; a circuit whose ports may no longer have one is set up or stands
no more; a lone candidate pair that may have a circuit is offered one at the lowest wavelength that qualifies, each leaf by its FORD_OFFER.
Both leaves' FORD_ACCEPT make it SWITCHING, with the device's FORD_ADD markers; a FORD_DECLINE, or no answer, makes it FREE, sets
FORD_DECLINED and holds the pair off. R547, R552: REMOVE takes an offer back at once and begins the removal of a circuit that stands or is
switching; once both leaves have released it, or the time is over, the FORD_REMOVE markers go out, and with no link up it is FREE. An
answer to nothing that waits for it changes nothing further. -/
def Obligations.FordCircuitsComeAndGo : Prop :=
  (∀ (s : State) (e : Fin 16), s.live = true → (s.oc.pairs.map (fun x => x.1)).Nodup →
    ∃ t, exec (.fordWindow e) s = .next t ∧
      (∀ k ∈ s.oc.pairs.map (fun x => x.1), k / 1024 / 64 = e.val →
        t.pair k = ⟨0, 0, if s.reaches (s.pair k).demand (s.rd OC_FORD_CFG_ON_RATE 0) = true then min 255 ((s.pair k).high + 1) else 0,
          (s.pair k).heldOff - 1⟩) ∧
      (∀ c < 8, (s.circuitState (8 * e + c) = 2 ∨ s.circuitState (8 * e + c) = 3) →
        s.fordPairOk (s.circuitPort (8 * e + c) 0) (s.circuitPort (8 * e + c) 1) = false →
        t.circuitState (8 * e + c) ≠ 2 ∧ t.circuitState (8 * e + c) ≠ 3) ∧
      (∀ key p w, (∀ c < 8, s.circuitState (8 * e + c) = 0) → s.oc.pairs = [(key, p)] → key / 1024 / 64 = e → p.heldOff ≤ 1 →
        s.reaches p.demand (s.rd OC_FORD_CFG_ON_RATE 0) = true → s.rd OC_FORD_CFG_ON_COUNT 0 ≤ min 255 (p.high + 1) →
        s.fordPairOk (key / 1024) (key % 1024) = true → s.moveOf (key / 1024 / 4) = none → s.moveOf (key % 1024 / 4) = none →
        s.engineHolds (key / 1024 / 4) = false → s.fordWave (key / 1024 / 4) (key % 1024 / 4) = some w →
        let k := 8 * e.val
        let offer (n other a b : Nat) := s.ocFrame n 0x11 (t.rd OC_FORD_CIRCUIT_ID k) a b w 0 (s.leafOf other).1 (s.leafOf other).2
        t.circuitState k = 1 ∧ t.rd OC_FORD_CIRCUIT_WAVELENGTH k = w ∧ t.circuitPort k 0 = key / 1024 ∧ t.circuitPort k 1 = key % 1024 ∧
        SentOwn s t (key / 1024) (offer (key / 1024) (key % 1024) (t.circuit k).leafA (t.circuit k).spineA) ∧
        SentOwn s t (key % 1024) (offer (key % 1024) (key / 1024) (t.circuit k).leafB (t.circuit k).spineB))) ∧
  (∀ (s : State) (n : Fin 1024) (tag : Option (BitVec 48)) (p : List Byte), s.live = true →
    MessageIgnored s n tag p 0x12 (.fordAccept n tag p) ∧ MessageIgnored s n tag p 0x13 (.fordDecline n tag p) ∧
    MessageIgnored s n tag p 0x16 (.fordReleased n tag p)) ∧
  (∀ (s u : State) (n : Fin 1024) (tag : Option (BitVec 48)) (p : List Byte),
    let offered (k : Nat) : Prop := u.circuitState k = 1
    let removing (k : Nat) : Prop := u.circuitState k = 4 ∧ (u.circuit k).restored = none
    (MessageTaken s u n tag p 0x12 → (∀ k side, u.circuitNamed n p = some (k, side) → ¬ offered k) → exec (.fordAccept n tag p) s = .next u) ∧
    (MessageTaken s u n tag p 0x13 → (∀ k side, u.circuitNamed n p = some (k, side) → ¬ offered k) → exec (.fordDecline n tag p) s = .next u) ∧
    (MessageTaken s u n tag p 0x16 → (∀ k side, u.circuitNamed n p = some (k, side) → ¬ removing k) → exec (.fordReleased n tag p) s = .next u) ∧
    ∀ k side, u.circuitNamed n p = some (k, side) →
      (MessageTaken s u n tag p 0x12 → offered k →
        ∃ t, exec (.fordAccept n tag p) s = .next t ∧ (t.circuit k).accepted = (u.circuit k).accepted ||| (side + 1) ∧
          if (u.circuit k).accepted ||| (side + 1) = 3 then
            t.circuitState k = 2 ∧ (u.circuitPort k 0 ≠ u.circuitPort k 1 → ∀ d < 2,
              SentOwn u t (u.circuitPort k d) (markerFrame (u.circuitPort k d) 3 ((u.circuit k).lanes d).2 (u.rd OC_FORD_CIRCUIT_ID k)))
          else t.circuitState k = 1) ∧
      (MessageTaken s u n tag p 0x13 → offered k →
        ∃ t, exec (.fordDecline n tag p) s = .next t ∧ t.circuitState k = 0 ∧ t.rd OC_ERR_FORD_DECLINED 0 = 1 ∧
          (t.pair (pairKey (u.circuitPort k 0) (u.circuitPort k 1))).heldOff = u.rd OC_FORD_CFG_OFF_COUNT 0 ∧ TakenBack u t k (1 - side)) ∧
      (MessageTaken s u n tag p 0x16 → removing k →
        ∃ t, exec (.fordReleased n tag p) s = .next t ∧
          if (u.circuit k).released ||| (side + 1) = 3 then RemovalGoesOn u t k
          else t.circuitState k = 4 ∧ (t.circuit k).released = (u.circuit k).released ||| (side + 1))) ∧
  (∀ (s : State) (e : Fin 16) (c : Fin 8), s.live = true →
    let k := 8 * e.val + c.val
    (if s.circuitState k = 1 then
      ∃ t, exec (.fordAnswerTimeout e c) s = .next t ∧ t.circuitState k = 0 ∧ t.rd OC_ERR_FORD_DECLINED 0 = 1 ∧
        (t.pair (pairKey (s.circuitPort k 0) (s.circuitPort k 1))).heldOff = s.rd OC_FORD_CFG_OFF_COUNT 0
    else exec (.fordAnswerTimeout e c) s = .next s) ∧
    (if s.circuitState k = 4 ∧ (s.circuit k).restored = none then ∃ t, exec (.fordReleaseTimeout e c) s = .next t ∧ RemovalGoesOn s t k
    else exec (.fordReleaseTimeout e c) s = .next s)) ∧
  (∀ (s : State) (v : Word), s.barOpen = true →
    (OC_FORD_CMD_REMOVE.isSet v = false ∨ s.circuitOf (OC_FORD_CMD_PORT.of v) = none → exec (.fordRemoveCmd v) s = .next s) ∧
    (∀ k side, OC_FORD_CMD_REMOVE.isSet v = true → s.circuitOf (OC_FORD_CMD_PORT.of v) = some (k, side) →
      (4 ≤ s.circuitState k → exec (.fordRemoveCmd v) s = .next s) ∧
      (s.circuitState k = 1 → ∃ t, exec (.fordRemoveCmd v) s = .next t ∧ t.circuitState k = 0 ∧
        (s.circuitPort k 0 ≠ s.circuitPort k 1 → TakenBack s t k 0 ∧ TakenBack s t k 1)) ∧
      (s.circuitState k = 2 ∨ s.circuitState k = 3 → (s.circuit k).released = 0 → (s.circuit k).restored = none → s.circuitPort k 0 ≠ s.circuitPort k 1 →
        ∃ t, exec (.fordRemoveCmd v) s = .next t ∧
          t.circuitState k = (if s.link (s.circuitPort k 0) = 3 ∨ s.link (s.circuitPort k 1) = 3 then 4 else 0) ∧
          TakenBack s t k 0 ∧ TakenBack s t k 1)))

/-- R561, R565: ADJ_NS adds to REMAINING, unless the domain follows or REMAINING would pass 10^9 ns: then the write is refused. A write of
TB_DOM_CTL, whichever of its commands makes it, leaves the other domain's counter as it is. R562: a STEP loads the counter, clears what is
below a nanosecond and REMAINING, and withdraws the domain, which is ready again once it has settled (R563). R564: enabling domain 1 copies
domain 0; an enabled domain counts, and is ready where its clock and its die are; a stopped one neither counts nor is ready. R565, R566: a follower is
LOCKED once the two counters agree in every bit; clearing FOLLOW leaves it the other domain's INCR and nothing to slew. -/
def Obligations.DomainsAreSteered : Prop :=
  (∀ (s : State) (d : Fin 2) (v : Word), s.barOpen = true →
    let r : Int := (s.dom d).remaining + sext 32 (TB_DOM_ADJ_ADJ_NS.of v) * 4294967296
    ∃ t, exec (.timeAdjust d v) s = .next t ∧
      if s.follows d = true ∨ 1000000000 * 4294967296 < r.natAbs then t.rd TB_ERR_CFG_REFUSED 0 = 1 ∧ t.tb = s.tb
      else t.dom d = { s.dom d with remaining := r } ∧ t.regs = s.regs ∧ t.dom (1 - d.val) = s.dom (1 - d.val)) ∧
  (∀ (s : State) (d : Fin 2) (v : Word) (c : Instr), s.barOpen = true → c ∈ [.timeStep d v, .domainEnable d v, .domainFollow d v] →
    let on := TB_DOM_CTL_ENABLE.isSet v
    let was := s.flag TB_DOM_CTL_ENABLE d
    let follow := TB_DOM_CTL_FOLLOW.isSet v
    let step := TB_DOM_CTL_STEP.isSet v
    if s.domCtlBad d v = true then
      ∃ t, exec c s = .next t ∧ t.rd TB_ERR_CFG_REFUSED 0 = 1 ∧ t.tb = s.tb ∧ t.word (TB_DOM_CTL.offset d) = s.word (TB_DOM_CTL.offset d)
    else
      ∃ t, exec c s = .next t ∧ t.flag TB_DOM_CTL_ENABLE d = on ∧ t.follows d = follow ∧ t.rd TB_DOM_CTL_SLEW_PPB d = TB_DOM_CTL_SLEW_PPB.of v ∧
        t.dom (1 - d.val) = s.dom (1 - d.val) ∧
        (step = true → t.timeReady d = false ∧ (t.dom d).sec = s.rd TB_DOM_STEP_S_SECONDS d ∧ (t.dom d).ns = s.rd TB_DOM_STEP_NS_NS d ∧
          (t.dom d).frac = 0 ∧ (t.dom d).remaining = 0 ∧ (t.dom d).settling = (t.dom d).running ∧
          (on = was → (t.dom d).running = (s.dom d).running) ∧ (on ≠ was → (t.dom d).running = on)) ∧
        (step = false → on = true → was = false →
          (t.dom d).running = true ∧
          (d.val = 1 → t.tb.dom1 = { s.tb.dom0 with settling := false, running := true } ∧ t.rd TB_DOM_INCR_INCR 1 = s.rd TB_DOM_INCR_INCR 0) ∧
          (d.val = 0 → t.tb.dom0.sec = s.tb.dom0.sec ∧ t.tb.dom0.ns = s.tb.dom0.ns ∧ t.tb.dom0.frac = s.tb.dom0.frac) ∧
          (t.domainMay d = true → t.timeReady d = true)) ∧
        (step = false → on = false → was = true → (t.dom d).running = false ∧ t.timeReady d = false) ∧
        (step = false → on = was →
          if s.follows d = true ∧ follow = false then
            t.dom d = { s.dom d with remaining := 0 } ∧ t.rd TB_DOM_INCR_INCR d = s.rd TB_DOM_INCR_INCR (1 - d.val) ∧ t.domLocked d = false
          else t.dom d = s.dom d ∧ t.timeReady d = s.timeReady d)) ∧
  (∀ (s : State) (d : Fin 2), s.live = true →
    if (s.dom d).settling = true then
      ∃ t, exec (.timeStepSettled d) s = .next t ∧ t.dom d = { s.dom d with settling := false } ∧
        t.timeReady d = (s.timeReady d || ((s.dom d).running && !s.tb.expired && s.dieReady 8))
    else exec (.timeStepSettled d) s = .next s) ∧
  (∀ (s : State) (d : Fin 2), s.live = true →
    if s.follows d = true ∧ s.timeReady (1 - d.val) = true ∧ (s.dom d).whole = (s.dom (1 - d.val)).whole then
      ∃ t, exec (.domainLocked d) s = .next t ∧ t.domLocked d = true ∧ t.domLocked (1 - d.val) = s.domLocked (1 - d.val) ∧ t.tb = s.tb
    else exec (.domainLocked d) s = .next s)

/-- R567: TCLK_LOST begins the holdover, in which the domains stay ready; once it expires neither is. R568: at the relock every domain that
runs is ready again. R34, R569: a replica has gained what its line drifted; one on a die that is ready and a cycle or more from the master is
realigned and counted, and any other is left. R580: GO captures both domains. R574 to R577: a write of an output's registers takes the
output to its rest level, or is refused; an output and PPS_OUT come to the level their settings give, and no other. R578, R579: an edge that an
input captures is kept with both domains' times, or lost with CAP_OVERFLOW where 16 wait; one that it does not capture is nothing; POP
removes the oldest, and a write with no edge selected is refused (log 59). -/
def Obligations.ReferencePinsAndCaptures : Prop :=
  (∀ (s : State), s.live = true →
    (if s.flag TB_STATUS_TCLK_PRESENT 0 = true then
      ∃ t, exec .tclkLost s = .next t ∧ t.flag TB_STATUS_TCLK_PRESENT 0 = false ∧ t.flag TB_STATUS_HOLDOVER 0 = true ∧ t.rd TB_ERR_TCLK_LOST 0 = 1 ∧
        t.tb = s.tb ∧ ∀ d < 2, t.timeReady d = s.timeReady d
    else exec .tclkLost s = .next s) ∧
    (if s.flag TB_STATUS_HOLDOVER 0 = true ∧ s.tb.expired = false then
      ∃ t, exec .holdoverExpiry s = .next t ∧ t.timeReady 0 = false ∧ t.timeReady 1 = false ∧ t.rd TB_ERR_HOLDOVER_EXPIRED 0 = 1 ∧
        t.tb.dom0 = s.tb.dom0 ∧ t.tb.dom1 = s.tb.dom1
    else exec .holdoverExpiry s = .next s) ∧
    (if s.flag TB_STATUS_HOLDOVER 0 = true then
      ∃ t, exec .tclkRelock s = .next t ∧ t.flag TB_STATUS_TCLK_PRESENT 0 = true ∧ t.flag TB_STATUS_HOLDOVER 0 = false ∧ t.tb.expired = false ∧
        t.tb.dom0 = s.tb.dom0 ∧ t.tb.dom1 = s.tb.dom1 ∧
        ∀ d < 2, (s.dom d).running = true → (s.dom d).settling = false → s.dieReady 8 = true → t.timeReady d = true
    else exec .tclkRelock s = .next s)) ∧
  (∀ (s : State) (drift : List (Fin 9 × Int)), s.live = true →
    ∃ t, exec (.replicaCheck drift) s = .next t ∧ ∀ g : Fin 9,
      let apart := sget 0 s.tb.replicas g + ((drift.filter (fun x => x.1 == g)).map (fun x => x.2)).sum
      if s.dieReady g = true ∧ 1000 ≤ apart.natAbs then
        sget 0 t.tb.replicas g = 0 ∧ t.flag TB_REPLICA_ALIGNED g = true ∧ t.rd TB_ERR_REPLICA_REALIGNED 0 = 1 ∧
        t.rd TB_REPLICA_REALIGNS g = min 65535 (s.rd TB_REPLICA_REALIGNS g + 1)
      else sget 0 t.tb.replicas g = apart ∧ t.word (TB_REPLICA.offset g) = s.word (TB_REPLICA.offset g)) ∧
  (∀ (s : State) (v : Word), s.barOpen = true →
    if TB_SNAP_CTL_GO.isSet v = true then
      ∃ t, exec (.timeSnapshot v) s = .next t ∧ ∀ d < 2, t.rd TB_SNAP_S_SEC d = (s.dom d).sec % 2 ^ 48 ∧
        t.rd TB_SNAP_NSF_NS d = (s.dom d).ns % 2 ^ 32 ∧ t.rd TB_SNAP_NSF_FRAC d = (s.dom d).frac / 2 ^ 16 % 2 ^ 16
    else exec (.timeSnapshot v) s = .next s) ∧
  (∀ (s : State) (k : Fin 8) (r : Fin 4) (v : Word), s.barOpen = true →
    let u := s.plainWrite (triggerReg r) k v
    ∃ t, exec (.triggerConfigWrite k r v) s = .next t ∧
      if u.triggerOk k = true then
        t.word ((triggerReg r).offset k) = u.word ((triggerReg r).offset k) ∧ t.tb.trig.testBit k = t.flag TB_TRIG_CFG_INVERT k ∧
        ∀ j < 8, j ≠ k.val → t.tb.trig.testBit j = s.tb.trig.testBit j
      else t.rd TB_ERR_CFG_REFUSED 0 = 1 ∧ t.word ((triggerReg r).offset k) = s.word ((triggerReg r).offset k) ∧ t.tb = s.tb) ∧
  (∀ (s : State) (k : Fin 8) (level : Bool), s.live = true →
    if s.scheduledLevel k = some (!level) then exec (.triggerOutputChange k level) s = .next s
    else
      let pin := level != s.flag TB_TRIG_CFG_INVERT k
      ∃ t, exec (.triggerOutputChange k level) s = .next t ∧ t.tb.trig.testBit k = pin ∧
        (s.tb.trig.testBit k ≠ pin → Emitted s t (.pin (.trigOut k) pin)) ∧ ∀ j < 8, j ≠ k.val → t.tb.trig.testBit j = s.tb.trig.testBit j) ∧
  (∀ (s : State) (level : Bool), s.live = true →
    if s.ppsLevel = level then ∃ t, exec (.ppsOutputPulse level) s = .next t ∧ t.tb.pps = level ∧ (s.tb.pps ≠ level → Emitted s t (.pin .ppsOut level))
    else exec (.ppsOutputPulse level) s = .next s) ∧
  (∀ (s : State) (i : Fin 5) (rising : Bool), s.live = true →
    if s.flag TB_CAP_CTL_ENABLE i = true ∧ (s.rd TB_CAP_CTL_EDGE i).testBit (if rising = true then 0 else 1) = true then
      ((s.captures i).length < 16 →
        ∃ t c, exec (.captureEdge i rising) s = .next t ∧ t.captures i = s.captures i ++ [c] ∧ c.rising = rising ∧
          c.overflow = s.tb.lostEdge.contains i.val ∧ c.ready0 = s.timeReady 0 ∧ c.ready1 = s.timeReady 1 ∧
          c.sec0 = (if s.timeReady 0 = true then s.tb.dom0.sec else 0) ∧ c.ns0 = (if s.timeReady 0 = true then s.tb.dom0.ns else 0) ∧
          c.sec1 = (if s.timeReady 1 = true then s.tb.dom1.sec else 0) ∧ c.ns1 = (if s.timeReady 1 = true then s.tb.dom1.ns else 0) ∧
          i.val ∉ t.tb.lostEdge ∧ ∀ j < 5, j ≠ i.val → t.captures j = s.captures j) ∧
      (16 ≤ (s.captures i).length →
        ∃ t, exec (.captureEdge i rising) s = .next t ∧ t.tb.captures = s.tb.captures ∧ t.rd TB_ERR_CAP_OVERFLOW 0 = 1 ∧ i.val ∈ t.tb.lostEdge)
    else exec (.captureEdge i rising) s = .next s) ∧
  (∀ (s : State) (i : Fin 5) (v : Word), s.barOpen = true →
    if TB_CAP_CTL_EDGE.of v = 0 then ∃ t, exec (.capturePop i v) s = .next t ∧ t.rd TB_ERR_CFG_REFUSED 0 = 1 ∧ t.tb = s.tb
    else ∃ t, exec (.capturePop i v) s = .next t ∧ t.flag TB_CAP_CTL_ENABLE i = TB_CAP_CTL_ENABLE.isSet v ∧ t.rd TB_CAP_CTL_EDGE i = TB_CAP_CTL_EDGE.of v ∧
      t.captures i = (if TB_CAP_CTL_POP.isSet v = true then (s.captures i).drop 1 else s.captures i) ∧
      ∀ j < 5, j ≠ i.val → t.captures j = s.captures j)

/-- R595, R596: 120 °C on a sensor asserts THERMTRIP_L, keeps the trip record, stops the device and switches every laser off; a reading below
that does nothing. R636: VDD_CTL or VDDIO_CTL outside its range holds every die in reset, and VDD_CTL loses the record; any other rail stops
the device with FAULT_L. R639: so does CORE_REFCLK lost in service; SERDES_REFCLK lost takes every port of its die down. -/
def Obligations.SuppliesAndClocksStop : Prop :=
  (∀ (s : State) (g : Fin 9) (sensor : BitVec 5) (temp : BitVec 12), s.live = true →
    if 1920 ≤ temp.toNat then
      ∃ t, exec (.thermalTrip g sensor temp) s = .next t ∧ t.bt.stopped = true ∧ t.live = false ∧ t.bt.thermtripL = true ∧
        t.bt.trip = some (g.val, sensor.toNat, temp.toNat, s.tb.dom0.visible) ∧ Emitted s t (.pin .thermtripL false) ∧
        ∀ m < 4, ∀ k < 9, (t.laserPos m k).drive0 = 0 ∧ (t.laserPos m k).drive1 = 0
    else exec (.thermalTrip g sensor temp) s = .next s) ∧
  (∀ (s : State) (r : Rail),
    (s.bt.por = false → exec (.railFault r) s = .next s) ∧
    (s.bt.por = true →
      (r = .vddCtl → ∃ t, exec (.railFault r) s = .next t ∧ t.bt.held = true ∧ t.bt.trip = none ∧ t.live = false) ∧
      (r = .vddioCtl → ∃ t, exec (.railFault r) s = .next t ∧ t.bt.held = true ∧ t.bt.trip = s.bt.trip ∧ t.live = false) ∧
      (r ≠ .vddCtl → r ≠ .vddioCtl →
        if s.live = true then ∃ t, exec (.railFault r) s = .next t ∧ t.bt.stopped = true ∧ t.bt.faultL = true ∧ Emitted s t (.pin .faultL false)
        else exec (.railFault r) s = .next s))) ∧
  (∀ (s : State),
    (∃ t, exec .coreRefclkLost s = .next t ∧ t.bt.coreRefLost = true ∧
      if s.live = true ∧ s.dieReady 8 = true then t.bt.stopped = true ∧ t.bt.faultL = true ∧ Emitted s t (.pin .faultL false)
      else t.bt = { s.bt with coreRefLost := true } ∧ t.regs = s.regs ∧ t.out = s.out) ∧
    (∃ t, exec .coreRefclkRestored s = .next t ∧ t.bt = { s.bt with coreRefLost := false } ∧ t.regs = s.regs)) ∧
  (∀ (s : State) (d : Fin 4),
    (d.val ∈ s.bt.serdesLost → exec (.serdesRefclkLost d) s = .next s) ∧
    (d.val ∉ s.bt.serdesLost →
      ∃ t, exec (.serdesRefclkLost d) s = .next t ∧ d.val ∈ t.bt.serdesLost ∧
        (s.live = true → ∀ k < 256, t.link (256 * d + k) ≤ 1 ∧ (s.link (256 * d + k) ≠ 0 → t.portReady (256 * d + k) = false)) ∧
        (s.live = false → t.regs = s.regs))) ∧
  (∀ (s : State) (d : Fin 4), ∃ t, exec (.serdesRefclkRestored d) s = .next t ∧ d.val ∉ t.bt.serdesLost ∧
    (∀ x, x ≠ d.val → (x ∈ t.bt.serdesLost ↔ x ∈ s.bt.serdesLost)) ∧ t.regs = s.regs)

/-- R23, R24, R616: a replay of a bridge sends its transfer unit again, and replays of one unit in a row are counted; after eight, the bridge
retrains, and not before; a retrain that succeeds ends it; the third failed one in a row resets the die behind it, and a failure after that
withdraws the die. R106, R617: a die that is reset is not ready: a port die's ports go down and its learned entries are gone; a switch
die's caches, buffers and moorings are empty while HBM keeps what it holds; a reduction die's tiles are empty and it runs at variant 3. A
die under reset, or withdrawn, is not reset again. Restored with no group armed, a switch die's moorings come from its newest checkpoint that
can be read, and a reduction die's slots from their copies, or are EMPTY where a copy cannot be read. -/
def Obligations.BridgesAndDiesRecover : Prop :=
  (∀ (s : State) (b : Fin 9) (u : BitVec 16), s.live = true →
    let x := s.bridge b
    if x.retraining = true then exec (.bridgeReplay b u) s = .next s ∧ exec (.bridgeRetrain b) s = .next s
    else
      (∃ t, exec (.bridgeReplay b u) s = .next t ∧ Emitted s t (.bridgeResend b) ∧
        t.bridge b = { x with unit_ := u.toNat, replays := if x.unit_ = u.toNat then min 8 (x.replays + 1) else 1 } ∧ t.regs = s.regs) ∧
      (8 ≤ x.replays → ∃ t, exec (.bridgeRetrain b) s = .next t ∧ t.bridge b = { x with replays := 0, failures := 0, retraining := true }) ∧
      (x.replays < 8 → exec (.bridgeRetrain b) s = .next s)) ∧
  (∀ (s : State) (b : Fin 9) (ok : Bool), s.live = true →
    let x := s.bridge b
    if x.retraining = false then exec (.bridgeRetrainDone b ok) s = .next s
    else
      ∃ t, exec (.bridgeRetrainDone b ok) s = .next t ∧
        if ok = true then t.bridge b = { Bridge.reset with unit_ := x.unit_ }
        else if x.failed = true then
          (t.bridge b).retraining = false ∧ 11 * 65536 + bridgeDie b ∈ t.fh.withdrawn ∧ t.dieReady (bridgeDie b) = false
        else if x.failures < 2 then t.bridge b = { x with failures := x.failures + 1 } ∧ t.fh.diesReset = s.fh.diesReset
        else t.bridge b = { x with failures := 0, failed := true } ∧
          (bridgeDie b ∈ t.fh.diesReset ∨ 11 * 65536 + bridgeDie b ∈ t.fh.withdrawn) ∧ ∃ r, t.recoveryOf 10 b = some r) ∧
  (∀ (s : State) (d : Fin 8), s.live = true →
    if d.val ∈ s.fh.diesReset ∨ 11 * 65536 + d.val ∈ s.fh.withdrawn then exec (.dieReset d) s = .next s
    else
      ∃ t, exec (.dieReset d) s = .next t ∧ d.val ∈ t.fh.diesReset ∧ t.dieReady d = false ∧ t.ms.hbm = s.ms.hbm ∧
        (d.val < 4 → (∀ k < 256, t.link (256 * d + k) ≤ 1) ∧ ∀ kv ∈ t.ft.endpoints, kv.1 / 0x400000 / 2 = d → imgLearned kv.2 = false) ∧
        (∀ k : Fin 2, d.val = 4 + k → (∀ x ∈ t.ms.lines ++ t.ms.atomic ++ t.ms.combining, stripeDie x.stripe ≠ k) ∧
          ∀ kv ∈ t.ms.moorings, kv.1 / 32768 ≠ k) ∧
        (∀ k : Fin 2, d.val = 6 + k → t.rd MF_DIE_STATUS_VARIANT k = 3 ∧ t.flag MF_DIE_STATUS_CHANGING k = false ∧ t.rd PM_RED_STATUS_TARGET k = 3 ∧
          ∀ kv ∈ t.re.tiles, kv.1 / 88 ≠ k)) ∧
  (∀ (s : State) (d : Fin 8) (copies : List (Fin 64)) (checkpoints : Fin 3), s.live = true →
    if d.val ∉ s.fh.diesReset then exec (.dieResetDone d copies checkpoints) s = .next s
    else
      ∃ t, exec (.dieResetDone d copies checkpoints) s = .next t ∧ d.val ∉ t.fh.diesReset ∧
        (d.val < 4 → t.regs = s.regs) ∧
        (s.cl.groups = [] →
          (∀ k : Fin 2, d.val = 4 + k →
            let saved := ((sget [] s.ms.checkpoints k).drop checkpoints).headD []
            (saved.map (fun kv => kv.1)).Nodup → ∀ kv ∈ saved, t.mooring kv.1 = kv.2) ∧
          (∀ (k : Fin 2) (n : Fin 64), d.val = 6 + k →
            let m := 64 * k.val + n.val
            (s.slotState m = 0 ∨ n ∈ copies → t.slotState m = 0) ∧
            (s.slotState m ≠ 0 → n ∉ copies → sm3 (s.mslot m).copy = s.getBytes MF_SLOT_DIGEST (8 * m) 4 →
              t.slotState m = s.slotState m ∧ (t.mslot m).image = (s.mslot m).copy))))

/-- R606, R608, R624, R628: a lane's second is judged by its symbol error ratio and its lock losses of the last 10 s; a lane that fails, or
that host software retires, has its recovery queued, as has a tile that host software retires while it stands for a logical tile; one that
stands for none is retired, and a laser position swaps to its spare, or is FAILED. A request without GO does nothing; one for no unit, or for one in recovery,
is refused. R611, R612, R618: a queued recovery starts in the lowest free place and runs its states in order; a lane's spare or a tile's spare is put in place in
REPAIR, which waits where it cannot be yet, and without one the unit is withdrawn; a tile whose frames cannot be copied starts again. R620: a
merge window that closes logs what it merged. R622: an acknowledgement sends vector 0 again only where records lie beyond it. R626: 64 ms
count as full service, as short of it, or not at all. -/
def Obligations.RecoveriesRun : Prop :=
  (∀ (s : State) (p : Fin 2304) (errors symbols : BitVec 64) (losses : Fin 4), s.live = true →
    let times := (sget [] s.fh.laneLocks p).filter (fun t => decide (s.now - t ≤ 10000000000)) ++ List.replicate losses s.now
    ∃ t, exec (.laneErrorCheck p errors symbols losses) s = .next t ∧ sget [] t.fh.laneLocks p = times ∧ sget 0 t.fh.laneErrors p = errors.toNat ∧
      if symbols.toNat < errors.toNat * 10 ^ s.rd FH_CFG_LANE_SER_EXP 0 ∨ 2 ≤ times.length then LaneFailed s t p
      else t.fh.recoveries = s.fh.recoveries ∧ t.fh.lanesRetired = s.fh.lanesRetired ∧ t.regs = s.regs) ∧
  (∀ (s : State) (v : Word), s.barOpen = true →
    let kind := FH_RETIRE_REQ_KIND.of v
    let p := FH_RETIRE_REQ_PHYSICAL.of v
    if FH_RETIRE_REQ_GO.isSet v = false then exec (.retireRequest v) s = .next s
    else
      ∃ t, exec (.retireRequest v) s = .next t ∧
        if retireExists kind p = false ∨ s.unitInRecovery kind p = true then
          t.fh.recoveries = s.fh.recoveries ∧ t.fh.tilesRetired = s.fh.tilesRetired ∧ t.fh.lanesRetired = s.fh.lanesRetired
        else
          (kind = 1 → LaneFailed s t p) ∧
          (kind = 4 → p ∈ s.fh.tilesRetired → t = s) ∧
          (∀ n, kind = 4 → p ∉ s.fh.tilesRetired → s.logicalOf (p / 128) (p % 128) = some n →
            ∃ r, t.recoveryOf 4 n = some r ∧ (s.recoveryOf 4 n = none → r.state = 0 ∧ r.old = p % 128)) ∧
          (kind = 4 → s.logicalOf (p / 128) (p % 128) = none → p ∈ t.fh.tilesRetired) ∧
          (kind = 9 → t.laserState (p / 16) (p % 16) =
            if s.laserState (p / 16) (p % 16) = 3 ∨ s.noSpare (p / 16) (p % 16) = true then 3 else 1)) ∧
  (∀ (s : State) (kind : Fin 16) (logical : BitVec 32), s.live = true →
    (s.freePlace = none ∨ (∀ r, s.recoveryOf kind logical.toNat = some r → r.state ≠ 0) → exec (.recoveryStart kind logical) s = .next s) ∧
    (∀ r k, s.recoveryOf kind logical.toNat = some r → r.state = 0 → s.freePlace = some k →
      ∃ t q, exec (.recoveryStart kind logical) s = .next t ∧ t.recoveryOf kind logical.toNat = some q ∧ q.state = 1 ∧ q.place = some k ∧
        t.rd FH_REC_STATUS_STATE k = 1 ∧ (kind.val = 4 → t.rd RE_TILE_STATUS_STATE logical.toNat = 3))) ∧
  (∀ (s : State) (k : Fin 16) (lost : List (Fin 256)), s.live = true →
    (s.fh.recoveries.find? (fun x => x.place == some k.val) = none → exec (.recoveryStateDone k lost) s = .next s) ∧
    ∀ r, s.fh.recoveries.find? (fun x => x.place == some k.val) = some r →
      let after (n : Nat) (t : State) : Prop := ∃ q, t.recoveryOf r.kind r.logical = some q ∧ q.state = n
      let done (n : Nat) : Prop := ∃ t, exec (.recoveryStateDone k lost) s = .next t ∧ after n t
      let n := r.logical
      let d := r.logical / 88
      (r.state = 1 → done 2) ∧ (r.state = 3 → done 4) ∧ (r.state = 2 → r.kind ≠ 1 → r.kind ≠ 4 → done 3) ∧ (r.state = 4 → r.kind ≠ 4 → done 5) ∧
      (r.state = 5 →
        if s.mayResume r = true then
          ∃ t, exec (.recoveryStateDone k lost) s = .next t ∧ t.recoveryOf r.kind r.logical = none ∧ t.rd FH_REC_STATUS_STATE k = 0
        else exec (.recoveryStateDone k lost) s = .next s) ∧
      (r.state = 2 → r.kind = 1 →
        let port := ((List.range 4).map (fun x => 4 * (n / 8) + x)).find? (fun q => s.laneOf q (n % 8))
        let waits : Prop := ∃ q, port = some q ∧ (s.link q = 0 ∨
          (2 ≤ s.link q ∧ s.isFabric q = true ∧ ¬ (s.link q = 3 ∧ (s.port q).complete = true ∧ s.fibreChanging (n / 8) = false)))
        (s.laneSpareFree (n / 8) = false → ∃ t, exec (.recoveryStateDone k lost) s = .next t ∧ 65536 + n ∈ t.fh.withdrawn ∧ after 3 t) ∧
        (s.laneSpareFree (n / 8) = true → waits → exec (.recoveryStateDone k lost) s = .next s) ∧
        (s.laneSpareFree (n / 8) = true → ¬ waits →
          ∃ t, exec (.recoveryStateDone k lost) s = .next t ∧ t.rd PC_LANE_GROUP_SPARE_FOR (n / 8) = n % 8 ∧ after 3 t)) ∧
      (r.state = 2 → r.kind = 4 →
        if s.rd RE_TILE_MAP_PHYS n ≠ r.old then done 3
        else
          (∀ phys, (s.freeTiles d).find? (s.spareFits d r) = some phys → ∃ t, exec (.recoveryStateDone k lost) s = .next t ∧
            t.rd RE_TILE_MAP_PHYS n = phys ∧ t.flag RE_TILE_MAP_VALID n = true ∧ 128 * d + r.old ∈ t.fh.tilesRetired ∧
            t.rd RE_TILE_MAP_GEN_GEN 0 = (s.rd RE_TILE_MAP_GEN_GEN 0 + 1) % 2 ^ 32 ∧ after 3 t) ∧
          (s.freeTiles d ≠ [] → (s.freeTiles d).find? (s.spareFits d r) = none → exec (.recoveryStateDone k lost) s = .next s) ∧
          (s.freeTiles d = [] → ∃ t, exec (.recoveryStateDone k lost) s = .next t ∧ t.flag RE_TILE_MAP_VALID n = false ∧
            t.rd RE_TILE_STATUS_STATE n = 4 ∧ 4 * 65536 + n ∈ t.fh.withdrawn ∧ t.recoveryOf 4 n = none)) ∧
      (r.state = 4 → r.kind = 4 →
        if ∃ f ∈ lost, f.val ∈ s.countedFrames n then
          ∃ t q, exec (.recoveryStateDone k lost) s = .next t ∧ t.recoveryOf 4 n = some q ∧ q.state = 1 ∧ q.restarts = min 255 (r.restarts + 1)
        else done 5)) ∧
  (∀ (s : State) (code : BitVec 16) (logical : BitVec 32), s.live = true →
    let key := code.toNat * 2 ^ 32 + logical.toNat
    (s.windowAt key = none → exec (.mergeWindowExpiry code logical) s = .next s) ∧
    (∀ n e, s.windowAt key = some (n, some e) → ∃ t r, exec (.mergeWindowExpiry code logical) s = .next t ∧ t.windowAt key = none ∧
      t.fh.log.getLast? = some r ∧ r.count = n ∧ r.event = e.code ∧
      t.rd FH_LOG_STATUS_NEXT_SEQ 0 = (s.rd FH_LOG_STATUS_NEXT_SEQ 0 + 1) % 2 ^ 32) ∧
    (∀ n, s.windowAt key = some (n, none) →
      ∃ t, exec (.mergeWindowExpiry code logical) s = .next t ∧ t.windowAt key = none ∧ t.fh.log = s.fh.log ∧ t.regs = s.regs)) ∧
  (∀ (s : State) (v : Word), s.barOpen = true →
    ∃ t, exec (.logAck v) s = .next t ∧ t.rd FH_LOG_ACK_ACK_SEQ 0 = FH_LOG_ACK_ACK_SEQ.of v ∧ t.fh.vectorSent = t.logBeyondAck ∧
      (t.logBeyondAck = false → t.out = s.out)) ∧
  (∀ (s : State), s.live = true →
    let full := s.readyAt (0, 63) && !s.fh.recoveries.any (fun r => decide (1 ≤ r.state))
    if full = true then ∃ t, exec .progressTick s = .next t ∧ t.rd FH_PROGRESS_FULL_MS 0 = min (2 ^ 32 - 1) (s.rd FH_PROGRESS_FULL_MS 0 + 1)
    else if s.progressExcluded = true then exec .progressTick s = .next s
    else ∃ t, exec .progressTick s = .next t ∧ t.rd FH_PROGRESS_SHORT_MS 0 = min (2 ^ 32 - 1) (s.rd FH_PROGRESS_SHORT_MS 0 + 1))
end

