-- ==== Sys2Proof/Laws/Sparse.lean ====
section
/-! SUPPORT. Laws of sparse tables: what a write leaves to a read, and that every operation keeps the canonical form. -/

namespace Sys2Proof.Machine

variable {α : Type}

/-! ### Reading after a write -/

theorem sget_sput_same (d : α) (k : Nat) (v : α) (m : List (Nat × α)) : sget d (sput k v m) k = v := by
  induction m with
  | nil => simp [sput, sget]
  | cons x r ih =>
    obtain ⟨j, w⟩ := x
    simp only [sput]
    split
    · simp [sget]
    · split
      · simp [sget]
      · simp [sget, *]

theorem sget_sput_other (d : α) {k j : Nat} (h : k ≠ j) (v : α) (m : List (Nat × α)) : sget d (sput k v m) j = sget d m j := by
  induction m with
  | nil => simp [sput, sget, h]
  | cons x r ih =>
    obtain ⟨i, w⟩ := x
    simp only [sput]
    split
    · next e => subst e; simp [sget, h]
    · split
      · simp [sget, h]
      · simp only [sget, ih]

theorem sget_sdel_same (d : α) (k : Nat) (m : List (Nat × α)) : sget d (sdel k m) k = d := by
  induction m with
  | nil => rfl
  | cons x r ih =>
    obtain ⟨j, w⟩ := x
    by_cases e : j = k
    · simpa [sdel, e] using ih
    · simpa [sdel, sget, e] using ih

theorem sget_sdel_other (d : α) {k j : Nat} (h : k ≠ j) (m : List (Nat × α)) : sget d (sdel k m) j = sget d m j := by
  induction m with
  | nil => rfl
  | cons x r ih =>
    obtain ⟨i, w⟩ := x
    by_cases e : i = k
    · subst e; simpa [sdel, sget, h] using ih
    · simp only [sdel] at ih
      simp [sdel, sget, e, ih]

theorem sget_sset_same [DecidableEq α] (d : α) (k : Nat) (v : α) (m : List (Nat × α)) : sget d (sset d k v m) k = v := by
  unfold sset
  split
  · next e => rw [sget_sdel_same, e]
  · exact sget_sput_same ..

theorem sget_sset_other [DecidableEq α] (d e : α) {k j : Nat} (h : k ≠ j) (v : α) (m : List (Nat × α)) :
    sget d (sset e k v m) j = sget d m j := by
  unfold sset
  split
  · exact sget_sdel_other d h m
  · exact sget_sput_other d h v m

theorem sget_sclear (d : α) (p : Nat → Bool) (m : List (Nat × α)) (k : Nat) :
    sget d (sclear p m) k = if p k then d else sget d m k := by
  induction m with
  | nil => simp [sclear, sget]
  | cons x r ih =>
    obtain ⟨j, w⟩ := x
    simp only [sclear] at ih
    by_cases e : j = k
    · subst e
      cases h : p j <;> simp [sclear, sget, h] <;> simp_all
    · cases h : p j <;> simp [sclear, sget, h, e, ih]

/-! ### The canonical form is kept -/

theorem srising_mono {lo lo' : Nat} (h : lo' ≤ lo) {m : List (Nat × α)} (w : srising lo m = true) : srising lo' m = true := by
  cases m with
  | nil => rfl
  | cons x r =>
    obtain ⟨k, v⟩ := x
    simp only [srising, Bool.and_eq_true, decide_eq_true_eq] at w ⊢
    exact ⟨by omega, w.2⟩

theorem srising_filter (p : Nat × α → Bool) {lo : Nat} {m : List (Nat × α)} (w : srising lo m = true) : srising lo (m.filter p) = true := by
  induction m generalizing lo with
  | nil => rfl
  | cons x r ih =>
    obtain ⟨k, v⟩ := x
    simp only [srising, Bool.and_eq_true, decide_eq_true_eq] at w
    by_cases h : p (k, v)
    · simp only [List.filter_cons, h, if_true, srising, Bool.and_eq_true, decide_eq_true_eq]
      exact ⟨w.1, ih w.2⟩
    · simp only [List.filter_cons, h, Bool.false_eq_true, if_false]
      exact srising_mono (by omega) (ih w.2)

theorem srising_sput (k : Nat) (v : α) {lo : Nat} {m : List (Nat × α)} (h : lo ≤ k) (w : srising lo m = true) :
    srising lo (sput k v m) = true := by
  induction m generalizing lo with
  | nil => simp [sput, srising, h]
  | cons x r ih =>
    obtain ⟨j, u⟩ := x
    simp only [srising, Bool.and_eq_true, decide_eq_true_eq] at w
    simp only [sput]
    split
    · next e => subst e; simp [srising, h, w.2]
    · split
      · next lt => simp only [srising, Bool.and_eq_true, decide_eq_true_eq]; exact ⟨h, by omega, w.2⟩
      · next ne nlt => simp only [srising, Bool.and_eq_true, decide_eq_true_eq]; exact ⟨w.1, ih (by omega) w.2⟩

theorem mem_sput {k : Nat} {v : α} {m : List (Nat × α)} {x : Nat × α} (h : x ∈ sput k v m) : x = (k, v) ∨ x ∈ m := by
  induction m with
  | nil => simpa [sput] using h
  | cons y r ih =>
    obtain ⟨j, u⟩ := y
    simp only [sput] at h
    split at h
    · rcases List.mem_cons.mp h with e | e
      · exact .inl e
      · exact .inr (List.mem_cons_of_mem _ e)
    · split at h
      · rcases List.mem_cons.mp h with e | e
        · exact .inl e
        · exact .inr e
      · rcases List.mem_cons.mp h with e | e
        · exact .inr (e ▸ List.mem_cons_self)
        · rcases ih e with f | f
          · exact .inl f
          · exact .inr (List.mem_cons_of_mem _ f)

theorem swf_filter [DecidableEq α] {d : Nat → α} (p : Nat × α → Bool) {m : List (Nat × α)} (w : swf d m = true) :
    swf d (m.filter p) = true := by
  simp only [swf, Bool.and_eq_true, List.all_eq_true] at w ⊢
  exact ⟨srising_filter p w.1, fun x hx => w.2 x (List.mem_filter.mp hx).1⟩

theorem swf_sset [DecidableEq α] {d : Nat → α} (k : Nat) (v : α) {m : List (Nat × α)} (w : swf d m = true) :
    swf d (sset (d k) k v m) = true := by
  unfold sset
  split
  · exact swf_filter _ w
  · next ne =>
    simp only [swf, Bool.and_eq_true, List.all_eq_true] at w ⊢
    refine ⟨srising_sput k v (Nat.zero_le k) w.1, fun x hx => ?_⟩
    rcases mem_sput hx with e | e
    · subst e; simpa using ne
    · exact w.2 x e

theorem swf_sclear [DecidableEq α] {d : Nat → α} (p : Nat → Bool) {m : List (Nat × α)} (w : swf d m = true) :
    swf d (sclear p m) = true := swf_filter _ w

theorem swf_sstore {m : List (Nat × Byte)} (a : Nat) (bs : List Byte) (w : swf (fun _ => (0 : Byte)) m = true) :
    swf (fun _ => (0 : Byte)) (sstore m a bs) = true := by
  induction bs generalizing m a with
  | nil => exact w
  | cons b r ih => exact ih _ (swf_sset (d := fun _ => (0 : Byte)) a b w)

end Sys2Proof.Machine
end

