-- ==== Sys2Proof/Laws/Keeps.lean ====
section
/-! SUPPORT. The rules from which every operation of the block is shown to keep what `Keeps` names. -/

namespace Sys2Proof.Machine

variable {r s : State}

/-- An outcome keeps, where it is a next state. -/
structure KeepsRes (r : State) (o : Res) : Prop where
  next_state : ∀ t, o = .next t → Keeps r t

theorem Keeps.refl (s : State) : Keeps s s := ⟨rfl, List.prefix_refl _, Nat.le_refl _, id, id⟩

theorem Keeps.trans {a b c : State} (h : Keeps a b) (k : Keeps b c) : Keeps a c :=
  ⟨k.pending.trans h.pending, h.out.trans k.out, Nat.le_trans h.free k.free, fun x => k.regs (h.regs x), fun x => k.hbm (h.hbm x)⟩

/-- A change of the fields that `Keeps` does not name. -/
theorem Keeps.same (h : Keeps r s) {hi bt pc ft tq tb fh re cl oc pm} {ms : MemSt} (k : ms.hbm = s.ms.hbm) :
    Keeps r ⟨s.regs, hi, bt, pc, ft, tq, tb, fh, ms, re, cl, oc, pm, s.free, s.out, s.pending⟩ :=
  ⟨h.pending, h.out, h.free, h.regs, fun x => by simpa [k] using h.hbm x⟩

theorem Keeps.regsTo (h : Keeps r s) {m : List (Nat × Word)} (k : RegsOk s.regs → RegsOk m) : Keeps r { s with regs := m } :=
  ⟨h.pending, h.out, h.free, fun x => k (h.regs x), h.hbm⟩

theorem Keeps.hbmTo (h : Keeps r s) {m : MemSt} (k : HbmOk s.ms.hbm → HbmOk m.hbm) : Keeps r { s with ms := m } :=
  ⟨h.pending, h.out, h.free, h.regs, fun x => k (h.hbm x)⟩

theorem Keeps.ite {c : Prop} [Decidable c] {a b : State} (ha : Keeps r a) (hb : Keeps r b) : Keeps r (if c then a else b) := by
  split <;> assumption

theorem Keeps.foldl {β : Type} {f : State → β → State} {l : List β} (h : Keeps r s) (hf : ∀ t b, Keeps r t → Keeps r (f t b)) :
    Keeps r (l.foldl f s) := by
  induction l generalizing s with
  | nil => exact h
  | cons x l ih => exact ih (hf s x h)

theorem Keeps.foldlPair {α β : Type} {f : α × State → β → α × State} {l : List β} {a : α × State} (h : Keeps r a.2)
    (hf : ∀ acc b, Keeps r acc.2 → Keeps r (f acc b).2) : Keeps r (l.foldl f a).2 := by
  induction l generalizing a with
  | nil => exact h
  | cons x l ih => exact ih (hf a x h)

theorem KeepsRes.next (h : Keeps r s) : KeepsRes r (.next s) := ⟨by intro t e; cases e; exact h⟩

theorem KeepsRes.fault (f : Fault) : KeepsRes r (.fault f) := ⟨by intro t e; cases e⟩

theorem KeepsRes.refused (f : Refusal) : KeepsRes r (.refused f) := ⟨by intro t e; cases e⟩

theorem KeepsRes.ite {c : Prop} [Decidable c] {a b : Res} (ha : KeepsRes r a) (hb : KeepsRes r b) : KeepsRes r (if c then a else b) := by
  split <;> assumption

/-! ### Canonical tables through whole-table updates -/

theorem swf_foldl {α β : Type} [DecidableEq α] {d : Nat → α} {f : List (Nat × α) → β → List (Nat × α)}
    (hf : ∀ m b, swf d m = true → swf d (f m b) = true) (l : List β) {m : List (Nat × α)} (w : swf d m = true) :
    swf d (l.foldl f m) = true := by
  induction l generalizing m with
  | nil => exact w
  | cons x l ih => exact ih (hf m x w)

theorem srising_map {α : Type} (f : Nat × α → Nat × α) (hf : ∀ kv, (f kv).1 = kv.1) {m : List (Nat × α)} {lo : Nat}
    (w : srising lo m = true) : srising lo (m.map f) = true := by
  induction m generalizing lo with
  | nil => rfl
  | cons x m ih =>
    simp only [srising, List.map_cons, Bool.and_eq_true, decide_eq_true_eq] at w ⊢
    rw [hf]
    exact ⟨w.1, ih w.2⟩

/-- A table whose values are mapped and then stripped of the reset values is canonical again. -/
theorem swf_rebuild (f : Nat × Word → Nat × Word) (hf : ∀ kv, (f kv).1 = kv.1) {m : List (Nat × Word)}
    (w : swf resetWord m = true) : swf resetWord ((m.map f).filter (fun kv => kv.2 != resetWord kv.1)) = true := by
  simp only [swf, Bool.and_eq_true] at w ⊢
  refine ⟨srising_filter _ (srising_map f hf w.1), ?_⟩
  simp only [List.all_eq_true, List.mem_filter]
  rintro x ⟨-, h⟩
  simpa using h

theorem dieWord_key (d : Nat) (kv : Nat × Word) : (dieWord d kv).1 = kv.1 := by
  unfold dieWord
  repeat' split
  all_goals rfl

theorem sparesKept_key (kv : Nat × Word) : (spareKept kv).1 = kv.1 := by
  unfold spareKept
  repeat' split
  all_goals rfl

/-! ### The operations that touch what `Keeps` names -/

theorem State.setWord_keeps (off : Nat) (w : Word) (h : Keeps r s) : Keeps r (s.setWord off w) :=
  h.regsTo (fun x => swf_sset (d := resetWord) off w x)

theorem State.resetRegs_keeps (lo hi : Nat) (h : Keeps r s) : Keeps r (s.resetRegs lo hi) :=
  h.regsTo (fun x => swf_sclear _ x)

theorem State.emit_keeps (o : Out) (h : Keeps r s) : Keeps r (s.emit o) :=
  ⟨h.pending, h.out.trans (List.prefix_append _ _), h.free, h.regs, h.hbm⟩

theorem State.draw_keeps (h : Keeps r s) : Keeps r s.draw.2 :=
  ⟨h.pending, h.out, Nat.le_succ_of_le h.free, h.regs, h.hbm⟩

theorem warmReset_keeps (h : Keeps r s) : Keeps r (warmReset s) :=
  ⟨h.pending, h.out, h.free, fun x => swf_rebuild _ sparesKept_key (swf_filter _ (h.regs x)), fun _ => rfl⟩

theorem coldReset_keeps (h : Keeps r s) : Keeps r (coldReset s) := by
  refine ⟨h.pending, h.out.trans ?_, h.free, fun _ => rfl, fun _ => rfl⟩
  unfold coldReset
  rw [List.append_assoc]
  exact List.prefix_append _ _

end Sys2Proof.Machine
end

