-- ==== Sys2Proof/Laws/RegMap.lean ====
section
/-! SUPPORT. The register map: no two register arrays share an offset, so that a word of one array is reached through
that array alone, and a companion count (R104) through the register it counts for. -/

namespace Sys2Proof.Machine

variable {x y : Reg}

/-- The places, modulo its spacing, at which an array has words. -/
def Reg.places (x : Reg) : List Nat := (List.range x.used).map (fun k => (x.base + x.stride * k) % (x.stride * x.block))

/-- Two arrays share no offset, as a check of their layouts alone. -/
def Reg.apart (x y : Reg) : Bool :=
  decide (x.base + x.stride * (x.count - 1) < y.base) || decide (y.base + y.stride * (y.count - 1) < x.base) ||
  (decide (x.stride * x.block = y.stride * y.block) && (x.places.all (fun p => !y.places.contains p)))

/-- An array's layout is one that arithmetic can follow. -/
def Reg.laid (x : Reg) : Bool :=
  decide (0 < x.stride ∧ 0 < x.used ∧ x.used ≤ x.block ∧ 0 < x.count ∧ x.count % x.block = 0 ∧
    x.base % 0x100000 + x.stride * x.count ≤ 0x100000)

/-- The companion counts of an array, as an array. -/
def Reg.companion (x : Reg) : Reg := { x with base := x.base + 0x80000 }

/-- What the register map of one block is checked for. -/
def blockOk (b : Nat) : Bool :=
  (blockRegisters b).all (fun x => x.laid && decide (x.base / 0x100000 = b) &&
    (blockRegisters b).all (fun y => decide (x.base = y.base) || x.apart y) &&
    (decide (x.w1c = 0) || (x.companion.laid && decide (x.companion.base / 0x100000 = b) && decide (0x80000 ≤ x.companion.base % 0x100000) &&
      (blockRegisters b).all (fun y => x.companion.apart y))))

theorem block0_ok : blockOk 0 = true := by decide +kernel
theorem block1_ok : blockOk 1 = true := by decide +kernel
theorem block2_ok : blockOk 2 = true := by decide +kernel
theorem block3_ok : blockOk 3 = true := by decide +kernel
theorem block4_ok : blockOk 4 = true := by decide +kernel
theorem block5_ok : blockOk 5 = true := by decide +kernel
theorem block6_ok : blockOk 6 = true := by decide +kernel
theorem block7_ok : blockOk 7 = true := by decide +kernel
theorem block8_ok : blockOk 8 = true := by decide +kernel
theorem block9_ok : blockOk 9 = true := by decide +kernel
theorem block10_ok : blockOk 10 = true := by decide +kernel
theorem block11_ok : blockOk 11 = true := by decide +kernel
theorem block12_ok : blockOk 12 = true := by decide +kernel
theorem block13_ok : blockOk 13 = true := by decide +kernel

theorem block_ok (b : Nat) : blockOk b = true := by
  match b with
  | 0 => exact block0_ok
  | 1 => exact block1_ok
  | 2 => exact block2_ok
  | 3 => exact block3_ok
  | 4 => exact block4_ok
  | 5 => exact block5_ok
  | 6 => exact block6_ok
  | 7 => exact block7_ok
  | 8 => exact block8_ok
  | 9 => exact block9_ok
  | 10 => exact block10_ok
  | 11 => exact block11_ok
  | 12 => exact block12_ok
  | 13 => exact block13_ok
  | n + 14 => rfl

theorem Reg.laid_iff : x.laid = true ↔ 0 < x.stride ∧ 0 < x.used ∧ x.used ≤ x.block ∧ 0 < x.count ∧ x.count % x.block = 0 ∧
    x.base % 0x100000 + x.stride * x.count ≤ 0x100000 := by simp [Reg.laid]

theorem Reg.slot_block (h : x.laid = true) (i : Nat) : x.slot i % x.block < x.used := by
  obtain ⟨-, hu, hb, -, -, -⟩ := Reg.laid_iff.1 h
  have : i % x.count % x.block % x.used < x.used := Nat.mod_lt _ hu
  unfold Reg.slot
  rw [Nat.add_comm, Nat.add_mul_mod_self_right, Nat.mod_eq_of_lt (by omega)]
  exact this

theorem Reg.slot_lt (h : x.laid = true) (i : Nat) : x.slot i < x.count := by
  obtain ⟨-, hu, hb, hc, hd, -⟩ := Reg.laid_iff.1 h
  obtain ⟨q, hq⟩ := Nat.dvd_of_mod_eq_zero hd
  have hi : i % x.count < x.count := Nat.mod_lt _ hc
  have h1 : i % x.count % x.block % x.used < x.block := lt_of_lt_of_le (Nat.mod_lt _ hu) hb
  have h2 : i % x.count / x.block < q := by
    apply Nat.div_lt_of_lt_mul
    rw [← hq]
    exact hi
  unfold Reg.slot
  calc i % x.count / x.block * x.block + i % x.count % x.block % x.used
      < i % x.count / x.block * x.block + x.block := by omega
    _ = (i % x.count / x.block + 1) * x.block := by ring
    _ ≤ q * x.block := Nat.mul_le_mul_right _ h2
    _ = x.count := by rw [hq, Nat.mul_comm]

theorem Reg.offset_ge (x : Reg) (i : Nat) : x.base ≤ x.offset i := Nat.le_add_right _ _

theorem Reg.offset_lt (h : x.laid = true) (i : Nat) : x.offset i < x.base + x.stride * x.count := by
  have h0 := (Reg.laid_iff.1 h).1
  have := Nat.mul_lt_mul_of_pos_left (Reg.slot_lt h i) h0
  unfold Reg.offset
  omega

theorem Reg.offset_le (h : x.laid = true) (i : Nat) : x.offset i ≤ x.base + x.stride * (x.count - 1) := by
  have := Nat.mul_le_mul_left x.stride (Nat.le_sub_one_of_lt (Reg.slot_lt h i))
  unfold Reg.offset
  omega

theorem Reg.offset_block (h : x.laid = true) (i : Nat) : x.offset i / 0x100000 = x.base / 0x100000 := by
  have h1 := x.offset_ge i
  have h2 := Reg.offset_lt h i
  have h3 := (Reg.laid_iff.1 h).2.2.2.2.2
  omega

theorem mem_places (j : Nat) (h : j % x.block < x.used) : (x.base + x.stride * j) % (x.stride * x.block) ∈ x.places := by
  refine List.mem_map.2 ⟨j % x.block, List.mem_range.2 h, ?_⟩
  conv_rhs => rw [← Nat.div_add_mod j x.block]
  rw [Nat.mul_add, ← Nat.mul_assoc, Nat.add_left_comm, Nat.mul_add_mod]

theorem Reg.indexAt_offset (h : x.laid = true) (i : Nat) : x.indexAt (x.offset i) = some (x.slot i) := by
  obtain ⟨hs, -⟩ := Reg.laid_iff.1 h
  have h1 : x.offset i - x.base = x.stride * x.slot i := by unfold Reg.offset; omega
  unfold Reg.indexAt
  rw [if_neg (by have := x.offset_ge i; omega), h1, Nat.mul_mod_right, Nat.mul_div_cancel_left _ hs,
    if_pos ⟨rfl, Reg.slot_lt h i, Reg.slot_block h i⟩]

/-- Arrays that are apart have no offset in common. -/
theorem Reg.apart_offset (h : x.laid = true) (k : y.laid = true) (a : x.apart y = true) (i : Nat) : y.indexAt (x.offset i) = none := by
  obtain ⟨hs, -⟩ := Reg.laid_iff.1 k
  have h1 := x.offset_ge i
  have h2 := Reg.offset_le h i
  cases e : y.indexAt (x.offset i) with
  | none => rfl
  | some j =>
    exfalso
    unfold Reg.indexAt at e
    split at e
    · cases e
    · split at e
      · next hge hj =>
        obtain ⟨hm, hlt, hu⟩ := hj
        have he : x.offset i = y.base + y.stride * ((x.offset i - y.base) / y.stride) := by
          have := Nat.div_add_mod (x.offset i - y.base) y.stride
          omega
        have hlt' := Nat.mul_le_mul_left y.stride (Nat.le_sub_one_of_lt hlt)
        unfold Reg.apart at a
        simp only [Bool.or_eq_true, decide_eq_true_eq, Bool.and_eq_true, List.all_eq_true, Bool.not_eq_true', List.contains_eq_mem,
          decide_eq_false_iff_not] at a
        rcases a with (a | a) | ⟨hmod, a⟩
        · omega
        · omega
        · refine a _ (mem_places (x := x) (x.slot i) (Reg.slot_block h i)) ?_
          have hp := mem_places (x := y) _ hu
          rw [← he, ← hmod] at hp
          exact hp
      · cases e

theorem mem_block (hx : x ∈ blockRegisters (x.base / 0x100000)) :
    x.laid = true ∧ (∀ y ∈ blockRegisters (x.base / 0x100000), x.base = y.base ∨ x.apart y = true) ∧
    (x.w1c ≠ 0 → x.companion.laid = true ∧ x.companion.base / 0x100000 = x.base / 0x100000 ∧
      0x80000 ≤ x.companion.base % 0x100000 ∧
      ∀ y ∈ blockRegisters (x.base / 0x100000), x.companion.apart y = true) := by
  have h := block_ok (x.base / 0x100000)
  unfold blockOk at h
  rw [List.all_eq_true] at h
  have h := h x hx
  simp only [Bool.and_eq_true, Bool.or_eq_true, decide_eq_true_eq, List.all_eq_true] at h
  obtain ⟨⟨⟨h1, -⟩, h2⟩, h3⟩ := h
  exact ⟨h1, h2, fun n => by
    obtain h3 | h3 := h3
    · exact absurd h3 n
    · exact ⟨h3.1.1.1, h3.1.1.2, h3.1.2, h3.2⟩⟩

theorem laid_of_mem {b : Nat} (hy : y ∈ blockRegisters b) : y.laid = true := by
  have h := block_ok b
  unfold blockOk at h
  rw [List.all_eq_true] at h
  have h := h y hy
  simp only [Bool.and_eq_true] at h
  exact h.1.1.1

/-- What stands at an element's offset is an element of its own array. -/
theorem registerAt_offset (hx : x ∈ blockRegisters (x.base / 0x100000)) (i : Nat) :
    ∃ z j, registerAt (x.offset i) = some (z, j) ∧ z.base = x.base := by
  obtain ⟨hl, ha, -⟩ := mem_block hx
  have hr : ∃ z j, registerAt (x.offset i) = some (z, j) ∧ z.base = x.base := by
    unfold registerAt
    rw [Reg.offset_block hl]
    cases e : (blockRegisters (x.base / 0x100000)).findSome? (fun r => (r.indexAt (x.offset i)).map (fun j => (r, j))) with
    | none =>
      rw [List.findSome?_eq_none_iff] at e
      have := e x hx
      rw [Reg.indexAt_offset hl] at this
      cases this
    | some zj =>
      obtain ⟨z, hz, e⟩ := List.exists_of_findSome?_eq_some e
      cases ez : z.indexAt (x.offset i) with
      | none => rw [ez] at e; cases e
      | some j =>
        rw [ez] at e
        cases e
        refine ⟨z, j, rfl, ?_⟩
        obtain h | h := ha z hz
        · exact h.symm
        · rw [Reg.apart_offset hl (laid_of_mem hz) h] at ez
          cases ez
  exact hr

/-- An element's offset belongs to its own array. -/
theorem ownerOf_offset (hx : x ∈ blockRegisters (x.base / 0x100000)) (i : Nat) : ownerOf (x.offset i) = some x.base := by
  obtain ⟨z, j, h, hb⟩ := registerAt_offset hx i
  unfold ownerOf
  rw [h]
  exact congrArg some hb

theorem ownerOf_unlisted {off : Nat} (h : registerAt off = none) (hb : 0x80000 ≤ off % 0x100000) :
    ownerOf off = (registerAt (off - 0x80000)).map (fun z => z.1.base) := by
  unfold ownerOf
  rw [h]
  exact if_pos hb

/-- A companion count belongs to the array that it counts for. -/
theorem ownerOf_companion (hx : x ∈ blockRegisters (x.base / 0x100000)) (hw : x.w1c ≠ 0) (i : Nat) :
    ownerOf (companionOf (x.offset i)) = some x.base := by
  obtain ⟨hl, -, hc⟩ := mem_block hx
  obtain ⟨cl, cb, ch, ca⟩ := hc hw
  have ho : companionOf (x.offset i) = x.companion.offset i := by
    unfold companionOf Reg.offset Reg.companion Reg.slot
    simp only
    omega
  have hn : registerAt (x.companion.offset i) = none := by
    unfold registerAt
    rw [Reg.offset_block cl, cb, List.findSome?_eq_none_iff]
    intro y hy
    rw [Reg.apart_offset cl (laid_of_mem hy) (ca y hy)]
    rfl
  have hb : 0x80000 ≤ x.companion.offset i % 0x100000 := by
    have h1 := x.companion.offset_ge i
    have h2 := Reg.offset_lt cl i
    have h3 := (Reg.laid_iff.1 cl).2.2.2.2.2
    omega
  have hd : x.companion.offset i - 0x80000 = x.offset i := by
    rw [← ho]
    unfold companionOf
    omega
  obtain ⟨z, j, h, hz⟩ := registerAt_offset hx i
  rw [ho, ownerOf_unlisted hn hb, hd, h]
  exact congrArg some hz

end Sys2Proof.Machine
end

