-- ==== Sys2Proof/Laws/Only.lean ====
section
/-! SUPPORT. The rules from which every operation of the block is shown to change only the parts that it names. A set of
parts is held as a mask, one bit for each part. -/

namespace Sys2Proof.Machine

variable {m : Nat} {r s : State}

/-! ### Parts as bits -/

/-- The bit of a register array: 32 bits for each block of the map. -/
def arrayBit (base : Nat) : Nat :=
  128 + 32 * (base / 0x100000) + ((blockRegisters (base / 0x100000)).map (fun x => x.base)).idxOf base

/-- The bit of a part. -/
def Piece.bit : Piece → Nat
  | .words b => arrayBit b
  | .hiRings => 0
  | .hiDescs => 1
  | .hiNextId => 2
  | .hiGranules => 3
  | .hiGangwayWrites => 4
  | .hiProt => 5
  | .hiStaging => 6
  | .hiParts => 7
  | .hiD3hot => 8
  | .hiHeld => 9
  | .hiAnswering => 10
  | .hiConfig => 11
  | .btPor => 12
  | .btX4 => 13
  | .btWarm => 14
  | .btHeld => 15
  | .btStopped => 16
  | .btTrip => 17
  | .btImage => 18
  | .btImageTop => 19
  | .btEntry => 20
  | .btQuoteNonce => 21
  | .btExchanges => 22
  | .btCoreRefLost => 23
  | .btSerdesLost => 24
  | .btFaultL => 25
  | .btThermtripL => 26
  | .pcPorts => 27
  | .pcFrames => 28
  | .pcNextFrame => 29
  | .pcQueues => 30
  | .pcSlip => 31
  | .pcSlipPages => 32
  | .pcSpilling => 33
  | .pcPortCount => 34
  | .pcQueueCount => 35
  | .pcMeterCount => 36
  | .ftEndpoints => 37
  | .ftLpm => 38
  | .ftLearns => 39
  | .ftConflicts => 40
  | .ftGroups => 41
  | .ftFlowlets => 42
  | .ftChanges => 43
  | .tqGates => 44
  | .tqMeters => 45
  | .tqProfiles => 46
  | .tqFences => 47
  | .tbDom0 => 48
  | .tbDom1 => 49
  | .tbCaptures => 50
  | .tbLostEdge => 51
  | .tbTrig => 52
  | .tbPps => 53
  | .tbExpired => 54
  | .tbReplicas => 55
  | .fhLog => 56
  | .fhWindows => 57
  | .fhVectorSent => 58
  | .fhTilesRetired => 59
  | .fhLanesRetired => 60
  | .fhLasersRetired => 61
  | .fhChannelsErased => 62
  | .fhWithdrawn => 63
  | .fhRecoveries => 64
  | .fhEscalations => 65
  | .fhPortsHeld => 66
  | .fhBridges => 67
  | .fhDiesReset => 68
  | .fhLaneLocks => 69
  | .fhLaneErrors => 70
  | .fhFullSeen => 71
  | .msHbm => 72
  | .msLines => 73
  | .msAtomic => 74
  | .msCombining => 75
  | .msUnreadable => 76
  | .msReread => 77
  | .msMoorings => 78
  | .msCheckpoints => 79
  | .msHbmStacks => 80
  | .msFlows => 81
  | .reTiles => 82
  | .reSlots => 83
  | .reAreas => 84
  | .rePasses => 85
  | .reOwn => 86
  | .rePeer => 87
  | .reSwept => 88
  | .clGroups => 89
  | .clTags => 90
  | .clInflight => 91
  | .clWaits => 92
  | .clDrains => 93
  | .clRetentions => 94
  | .clNotices => 95
  | .ocRings => 96
  | .ocEngines => 97
  | .ocMoves => 98
  | .ocGranted => 99
  | .ocCalibrated => 100
  | .ocLasers => 101
  | .ocLaserSeq => 102
  | .ocCircuits => 103
  | .ocPairs => 104
  | .ocCalTemp => 105
  | .pmRamping => 106
  | .pmDwell => 107
  | .pmActions => 108
  | .pmIdle => 109
  | .pmEnergy => 110
  | .pmBudget => 111
  | .drawn => 112
  | .outputs => 113

/-- The mask of a list of parts. -/
def maskOf (l : List Piece) : Nat := l.foldl (fun m p => m ||| 2 ^ p.bit) 0

/-- `s` was reached from `r` by changing only the parts of a mask, and keeps what `Keeps` names. -/
structure Only (m : Nat) (r s : State) : Prop where
  keeps : Keeps r s
  same : ∀ p : Piece, m.testBit p.bit = false → p.same r s

/-- An outcome does so, where it is a next state. -/
structure OnlyRes (m : Nat) (r : State) (o : Res) : Prop where
  next_state : ∀ t, o = .next t → Only m r t

/-- Mask `m` has every bit of mask `a`. -/
structure Covers (a m : Nat) : Prop where
  le : a ||| m = m

theorem Covers.sub {a b m : Nat} (k : Covers b m) (h : a ||| b = b) : Covers a m :=
  ⟨by rw [← k.le, ← Nat.lor_assoc, h]⟩

theorem Covers.bit {a i m : Nat} (k : Covers a m) (h : a.testBit i = true) : m.testBit i = true := by
  rw [← k.le, Nat.testBit_or, h, Bool.true_or]

theorem Piece.same_refl (s : State) (p : Piece) : p.same s s := by
  cases p <;> simp [Piece.same]

theorem Piece.same_trans {a b c : State} {p : Piece} (h : p.same a b) (k : p.same b c) : p.same a c := by
  cases p <;> simp only [Piece.same] at h k ⊢ <;> first
    | exact k.trans h
    | exact fun off e => (k off e).trans (h off e)

theorem Only.refl (m : Nat) (s : State) : Only m s s := ⟨Keeps.refl s, fun p _ => p.same_refl s⟩

theorem Only.ite {c : Prop} [Decidable c] {a b : State} (ha : Only m r a) (hb : Only m r b) : Only m r (if c then a else b) := by
  split <;> assumption

theorem Only.foldl {β : Type} {f : State → β → State} {l : List β} (h : Only m r s) (hf : ∀ t b, Only m r t → Only m r (f t b)) :
    Only m r (l.foldl f s) := by
  induction l generalizing s with
  | nil => exact h
  | cons x l ih => exact ih (hf s x h)

theorem Only.foldlPair {α β : Type} {f : α × State → β → α × State} {l : List β} {a : α × State} (h : Only m r a.2)
    (hf : ∀ acc b, Only m r acc.2 → Only m r (f acc b).2) : Only m r (l.foldl f a).2 := by
  induction l generalizing a with
  | nil => exact h
  | cons x l ih => exact ih (hf a x h)

theorem OnlyRes.next (h : Only m r s) : OnlyRes m r (.next s) := ⟨by intro t e; cases e; exact h⟩

theorem OnlyRes.fault (f : Fault) : OnlyRes m r (.fault f) := ⟨by intro t e; cases e⟩

theorem OnlyRes.refused (f : Refusal) : OnlyRes m r (.refused f) := ⟨by intro t e; cases e⟩

theorem OnlyRes.ite {c : Prop} [Decidable c] {a b : Res} (ha : OnlyRes m r a) (hb : OnlyRes m r b) : OnlyRes m r (if c then a else b) := by
  split <;> assumption

/-! ### Changes of one part of the state at a time -/

/-- The fields of `hi` outside a mask are as they were. -/
structure HostStOnly (m : Nat) (a b : HostSt) : Prop where
  rings_same : m.testBit 0 = true ∨ b.rings = a.rings
  descs_same : m.testBit 1 = true ∨ b.descs = a.descs
  nextId_same : m.testBit 2 = true ∨ b.nextId = a.nextId
  granules_same : m.testBit 3 = true ∨ b.granules = a.granules
  gangwayWrites_same : m.testBit 4 = true ∨ b.gangwayWrites = a.gangwayWrites
  prot_same : m.testBit 5 = true ∨ b.prot = a.prot
  staging_same : m.testBit 6 = true ∨ b.staging = a.staging
  parts_same : m.testBit 7 = true ∨ b.parts = a.parts
  d3hot_same : m.testBit 8 = true ∨ b.d3hot = a.d3hot
  held_same : m.testBit 9 = true ∨ b.held = a.held
  answering_same : m.testBit 10 = true ∨ b.answering = a.answering
  config_same : m.testBit 11 = true ∨ b.config = a.config

theorem HostStOnly.of {a : HostSt} {f_rings} {f_descs} {f_nextId} {f_granules} {f_gangwayWrites} {f_prot} {f_staging} {f_parts} {f_d3hot} {f_held} {f_answering} {f_config}
    (k_rings : m.testBit 0 = true ∨ f_rings = a.rings) (k_descs : m.testBit 1 = true ∨ f_descs = a.descs) (k_nextId : m.testBit 2 = true ∨ f_nextId = a.nextId) (k_granules : m.testBit 3 = true ∨ f_granules = a.granules) (k_gangwayWrites : m.testBit 4 = true ∨ f_gangwayWrites = a.gangwayWrites) (k_prot : m.testBit 5 = true ∨ f_prot = a.prot) (k_staging : m.testBit 6 = true ∨ f_staging = a.staging) (k_parts : m.testBit 7 = true ∨ f_parts = a.parts) (k_d3hot : m.testBit 8 = true ∨ f_d3hot = a.d3hot) (k_held : m.testBit 9 = true ∨ f_held = a.held) (k_answering : m.testBit 10 = true ∨ f_answering = a.answering) (k_config : m.testBit 11 = true ∨ f_config = a.config) :
    HostStOnly m a ⟨f_rings, f_descs, f_nextId, f_granules, f_gangwayWrites, f_prot, f_staging, f_parts, f_d3hot, f_held, f_answering, f_config⟩ := ⟨k_rings, k_descs, k_nextId, k_granules, k_gangwayWrites, k_prot, k_staging, k_parts, k_d3hot, k_held, k_answering, k_config⟩

theorem HostStOnly.refl (a : HostSt) : HostStOnly m a a := by
  constructor <;> exact .inr rfl

/-- The fields of `bt` outside a mask are as they were. -/
structure BootStOnly (m : Nat) (a b : BootSt) : Prop where
  por_same : m.testBit 12 = true ∨ b.por = a.por
  x4_same : m.testBit 13 = true ∨ b.x4 = a.x4
  warm_same : m.testBit 14 = true ∨ b.warm = a.warm
  held_same : m.testBit 15 = true ∨ b.held = a.held
  stopped_same : m.testBit 16 = true ∨ b.stopped = a.stopped
  trip_same : m.testBit 17 = true ∨ b.trip = a.trip
  image_same : m.testBit 18 = true ∨ b.image = a.image
  imageTop_same : m.testBit 19 = true ∨ b.imageTop = a.imageTop
  entry_same : m.testBit 20 = true ∨ b.entry = a.entry
  quoteNonce_same : m.testBit 21 = true ∨ b.quoteNonce = a.quoteNonce
  exchanges_same : m.testBit 22 = true ∨ b.exchanges = a.exchanges
  coreRefLost_same : m.testBit 23 = true ∨ b.coreRefLost = a.coreRefLost
  serdesLost_same : m.testBit 24 = true ∨ b.serdesLost = a.serdesLost
  faultL_same : m.testBit 25 = true ∨ b.faultL = a.faultL
  thermtripL_same : m.testBit 26 = true ∨ b.thermtripL = a.thermtripL

theorem BootStOnly.of {a : BootSt} {f_por} {f_x4} {f_warm} {f_held} {f_stopped} {f_trip} {f_image} {f_imageTop} {f_entry} {f_quoteNonce} {f_exchanges} {f_coreRefLost} {f_serdesLost} {f_faultL} {f_thermtripL}
    (k_por : m.testBit 12 = true ∨ f_por = a.por) (k_x4 : m.testBit 13 = true ∨ f_x4 = a.x4) (k_warm : m.testBit 14 = true ∨ f_warm = a.warm) (k_held : m.testBit 15 = true ∨ f_held = a.held) (k_stopped : m.testBit 16 = true ∨ f_stopped = a.stopped) (k_trip : m.testBit 17 = true ∨ f_trip = a.trip) (k_image : m.testBit 18 = true ∨ f_image = a.image) (k_imageTop : m.testBit 19 = true ∨ f_imageTop = a.imageTop) (k_entry : m.testBit 20 = true ∨ f_entry = a.entry) (k_quoteNonce : m.testBit 21 = true ∨ f_quoteNonce = a.quoteNonce) (k_exchanges : m.testBit 22 = true ∨ f_exchanges = a.exchanges) (k_coreRefLost : m.testBit 23 = true ∨ f_coreRefLost = a.coreRefLost) (k_serdesLost : m.testBit 24 = true ∨ f_serdesLost = a.serdesLost) (k_faultL : m.testBit 25 = true ∨ f_faultL = a.faultL) (k_thermtripL : m.testBit 26 = true ∨ f_thermtripL = a.thermtripL) :
    BootStOnly m a ⟨f_por, f_x4, f_warm, f_held, f_stopped, f_trip, f_image, f_imageTop, f_entry, f_quoteNonce, f_exchanges, f_coreRefLost, f_serdesLost, f_faultL, f_thermtripL⟩ := ⟨k_por, k_x4, k_warm, k_held, k_stopped, k_trip, k_image, k_imageTop, k_entry, k_quoteNonce, k_exchanges, k_coreRefLost, k_serdesLost, k_faultL, k_thermtripL⟩

theorem BootStOnly.refl (a : BootSt) : BootStOnly m a a := by
  constructor <;> exact .inr rfl

/-- The fields of `pc` outside a mask are as they were. -/
structure PacketStOnly (m : Nat) (a b : PacketSt) : Prop where
  ports_same : m.testBit 27 = true ∨ b.ports = a.ports
  frames_same : m.testBit 28 = true ∨ b.frames = a.frames
  nextFrame_same : m.testBit 29 = true ∨ b.nextFrame = a.nextFrame
  queues_same : m.testBit 30 = true ∨ b.queues = a.queues
  slip_same : m.testBit 31 = true ∨ b.slip = a.slip
  slipPages_same : m.testBit 32 = true ∨ b.slipPages = a.slipPages
  spilling_same : m.testBit 33 = true ∨ b.spilling = a.spilling
  portCount_same : m.testBit 34 = true ∨ b.portCount = a.portCount
  queueCount_same : m.testBit 35 = true ∨ b.queueCount = a.queueCount
  meterCount_same : m.testBit 36 = true ∨ b.meterCount = a.meterCount

theorem PacketStOnly.of {a : PacketSt} {f_ports} {f_frames} {f_nextFrame} {f_queues} {f_slip} {f_slipPages} {f_spilling} {f_portCount} {f_queueCount} {f_meterCount}
    (k_ports : m.testBit 27 = true ∨ f_ports = a.ports) (k_frames : m.testBit 28 = true ∨ f_frames = a.frames) (k_nextFrame : m.testBit 29 = true ∨ f_nextFrame = a.nextFrame) (k_queues : m.testBit 30 = true ∨ f_queues = a.queues) (k_slip : m.testBit 31 = true ∨ f_slip = a.slip) (k_slipPages : m.testBit 32 = true ∨ f_slipPages = a.slipPages) (k_spilling : m.testBit 33 = true ∨ f_spilling = a.spilling) (k_portCount : m.testBit 34 = true ∨ f_portCount = a.portCount) (k_queueCount : m.testBit 35 = true ∨ f_queueCount = a.queueCount) (k_meterCount : m.testBit 36 = true ∨ f_meterCount = a.meterCount) :
    PacketStOnly m a ⟨f_ports, f_frames, f_nextFrame, f_queues, f_slip, f_slipPages, f_spilling, f_portCount, f_queueCount, f_meterCount⟩ := ⟨k_ports, k_frames, k_nextFrame, k_queues, k_slip, k_slipPages, k_spilling, k_portCount, k_queueCount, k_meterCount⟩

theorem PacketStOnly.refl (a : PacketSt) : PacketStOnly m a a := by
  constructor <;> exact .inr rfl

/-- The fields of `ft` outside a mask are as they were. -/
structure TableStOnly (m : Nat) (a b : TableSt) : Prop where
  endpoints_same : m.testBit 37 = true ∨ b.endpoints = a.endpoints
  lpm_same : m.testBit 38 = true ∨ b.lpm = a.lpm
  learns_same : m.testBit 39 = true ∨ b.learns = a.learns
  conflicts_same : m.testBit 40 = true ∨ b.conflicts = a.conflicts
  groups_same : m.testBit 41 = true ∨ b.groups = a.groups
  flowlets_same : m.testBit 42 = true ∨ b.flowlets = a.flowlets
  changes_same : m.testBit 43 = true ∨ b.changes = a.changes

theorem TableStOnly.of {a : TableSt} {f_endpoints} {f_lpm} {f_learns} {f_conflicts} {f_groups} {f_flowlets} {f_changes}
    (k_endpoints : m.testBit 37 = true ∨ f_endpoints = a.endpoints) (k_lpm : m.testBit 38 = true ∨ f_lpm = a.lpm) (k_learns : m.testBit 39 = true ∨ f_learns = a.learns) (k_conflicts : m.testBit 40 = true ∨ f_conflicts = a.conflicts) (k_groups : m.testBit 41 = true ∨ f_groups = a.groups) (k_flowlets : m.testBit 42 = true ∨ f_flowlets = a.flowlets) (k_changes : m.testBit 43 = true ∨ f_changes = a.changes) :
    TableStOnly m a ⟨f_endpoints, f_lpm, f_learns, f_conflicts, f_groups, f_flowlets, f_changes⟩ := ⟨k_endpoints, k_lpm, k_learns, k_conflicts, k_groups, k_flowlets, k_changes⟩

theorem TableStOnly.refl (a : TableSt) : TableStOnly m a a := by
  constructor <;> exact .inr rfl

/-- The fields of `tq` outside a mask are as they were. -/
structure QueueStOnly (m : Nat) (a b : QueueSt) : Prop where
  gates_same : m.testBit 44 = true ∨ b.gates = a.gates
  meters_same : m.testBit 45 = true ∨ b.meters = a.meters
  profiles_same : m.testBit 46 = true ∨ b.profiles = a.profiles
  fences_same : m.testBit 47 = true ∨ b.fences = a.fences

theorem QueueStOnly.of {a : QueueSt} {f_gates} {f_meters} {f_profiles} {f_fences}
    (k_gates : m.testBit 44 = true ∨ f_gates = a.gates) (k_meters : m.testBit 45 = true ∨ f_meters = a.meters) (k_profiles : m.testBit 46 = true ∨ f_profiles = a.profiles) (k_fences : m.testBit 47 = true ∨ f_fences = a.fences) :
    QueueStOnly m a ⟨f_gates, f_meters, f_profiles, f_fences⟩ := ⟨k_gates, k_meters, k_profiles, k_fences⟩

theorem QueueStOnly.refl (a : QueueSt) : QueueStOnly m a a := by
  constructor <;> exact .inr rfl

/-- The fields of `tb` outside a mask are as they were. -/
structure TimeStOnly (m : Nat) (a b : TimeSt) : Prop where
  dom0_same : m.testBit 48 = true ∨ b.dom0 = a.dom0
  dom1_same : m.testBit 49 = true ∨ b.dom1 = a.dom1
  captures_same : m.testBit 50 = true ∨ b.captures = a.captures
  lostEdge_same : m.testBit 51 = true ∨ b.lostEdge = a.lostEdge
  trig_same : m.testBit 52 = true ∨ b.trig = a.trig
  pps_same : m.testBit 53 = true ∨ b.pps = a.pps
  expired_same : m.testBit 54 = true ∨ b.expired = a.expired
  replicas_same : m.testBit 55 = true ∨ b.replicas = a.replicas

theorem TimeStOnly.of {a : TimeSt} {f_dom0} {f_dom1} {f_captures} {f_lostEdge} {f_trig} {f_pps} {f_expired} {f_replicas}
    (k_dom0 : m.testBit 48 = true ∨ f_dom0 = a.dom0) (k_dom1 : m.testBit 49 = true ∨ f_dom1 = a.dom1) (k_captures : m.testBit 50 = true ∨ f_captures = a.captures) (k_lostEdge : m.testBit 51 = true ∨ f_lostEdge = a.lostEdge) (k_trig : m.testBit 52 = true ∨ f_trig = a.trig) (k_pps : m.testBit 53 = true ∨ f_pps = a.pps) (k_expired : m.testBit 54 = true ∨ f_expired = a.expired) (k_replicas : m.testBit 55 = true ∨ f_replicas = a.replicas) :
    TimeStOnly m a ⟨f_dom0, f_dom1, f_captures, f_lostEdge, f_trig, f_pps, f_expired, f_replicas⟩ := ⟨k_dom0, k_dom1, k_captures, k_lostEdge, k_trig, k_pps, k_expired, k_replicas⟩

theorem TimeStOnly.refl (a : TimeSt) : TimeStOnly m a a := by
  constructor <;> exact .inr rfl

/-- The fields of `fh` outside a mask are as they were. -/
structure FaultStOnly (m : Nat) (a b : FaultSt) : Prop where
  log_same : m.testBit 56 = true ∨ b.log = a.log
  windows_same : m.testBit 57 = true ∨ b.windows = a.windows
  vectorSent_same : m.testBit 58 = true ∨ b.vectorSent = a.vectorSent
  tilesRetired_same : m.testBit 59 = true ∨ b.tilesRetired = a.tilesRetired
  lanesRetired_same : m.testBit 60 = true ∨ b.lanesRetired = a.lanesRetired
  lasersRetired_same : m.testBit 61 = true ∨ b.lasersRetired = a.lasersRetired
  channelsErased_same : m.testBit 62 = true ∨ b.channelsErased = a.channelsErased
  withdrawn_same : m.testBit 63 = true ∨ b.withdrawn = a.withdrawn
  recoveries_same : m.testBit 64 = true ∨ b.recoveries = a.recoveries
  escalations_same : m.testBit 65 = true ∨ b.escalations = a.escalations
  portsHeld_same : m.testBit 66 = true ∨ b.portsHeld = a.portsHeld
  bridges_same : m.testBit 67 = true ∨ b.bridges = a.bridges
  diesReset_same : m.testBit 68 = true ∨ b.diesReset = a.diesReset
  laneLocks_same : m.testBit 69 = true ∨ b.laneLocks = a.laneLocks
  laneErrors_same : m.testBit 70 = true ∨ b.laneErrors = a.laneErrors
  fullSeen_same : m.testBit 71 = true ∨ b.fullSeen = a.fullSeen

theorem FaultStOnly.of {a : FaultSt} {f_log} {f_windows} {f_vectorSent} {f_tilesRetired} {f_lanesRetired} {f_lasersRetired} {f_channelsErased} {f_withdrawn} {f_recoveries} {f_escalations} {f_portsHeld} {f_bridges} {f_diesReset} {f_laneLocks} {f_laneErrors} {f_fullSeen}
    (k_log : m.testBit 56 = true ∨ f_log = a.log) (k_windows : m.testBit 57 = true ∨ f_windows = a.windows) (k_vectorSent : m.testBit 58 = true ∨ f_vectorSent = a.vectorSent) (k_tilesRetired : m.testBit 59 = true ∨ f_tilesRetired = a.tilesRetired) (k_lanesRetired : m.testBit 60 = true ∨ f_lanesRetired = a.lanesRetired) (k_lasersRetired : m.testBit 61 = true ∨ f_lasersRetired = a.lasersRetired) (k_channelsErased : m.testBit 62 = true ∨ f_channelsErased = a.channelsErased) (k_withdrawn : m.testBit 63 = true ∨ f_withdrawn = a.withdrawn) (k_recoveries : m.testBit 64 = true ∨ f_recoveries = a.recoveries) (k_escalations : m.testBit 65 = true ∨ f_escalations = a.escalations) (k_portsHeld : m.testBit 66 = true ∨ f_portsHeld = a.portsHeld) (k_bridges : m.testBit 67 = true ∨ f_bridges = a.bridges) (k_diesReset : m.testBit 68 = true ∨ f_diesReset = a.diesReset) (k_laneLocks : m.testBit 69 = true ∨ f_laneLocks = a.laneLocks) (k_laneErrors : m.testBit 70 = true ∨ f_laneErrors = a.laneErrors) (k_fullSeen : m.testBit 71 = true ∨ f_fullSeen = a.fullSeen) :
    FaultStOnly m a ⟨f_log, f_windows, f_vectorSent, f_tilesRetired, f_lanesRetired, f_lasersRetired, f_channelsErased, f_withdrawn, f_recoveries, f_escalations, f_portsHeld, f_bridges, f_diesReset, f_laneLocks, f_laneErrors, f_fullSeen⟩ := ⟨k_log, k_windows, k_vectorSent, k_tilesRetired, k_lanesRetired, k_lasersRetired, k_channelsErased, k_withdrawn, k_recoveries, k_escalations, k_portsHeld, k_bridges, k_diesReset, k_laneLocks, k_laneErrors, k_fullSeen⟩

theorem FaultStOnly.refl (a : FaultSt) : FaultStOnly m a a := by
  constructor <;> exact .inr rfl

/-- The fields of `ms` outside a mask are as they were. -/
structure MemStOnly (m : Nat) (a b : MemSt) : Prop where
  hbm_same : m.testBit 72 = true ∨ b.hbm = a.hbm
  lines_same : m.testBit 73 = true ∨ b.lines = a.lines
  atomic_same : m.testBit 74 = true ∨ b.atomic = a.atomic
  combining_same : m.testBit 75 = true ∨ b.combining = a.combining
  unreadable_same : m.testBit 76 = true ∨ b.unreadable = a.unreadable
  reread_same : m.testBit 77 = true ∨ b.reread = a.reread
  moorings_same : m.testBit 78 = true ∨ b.moorings = a.moorings
  checkpoints_same : m.testBit 79 = true ∨ b.checkpoints = a.checkpoints
  hbmStacks_same : m.testBit 80 = true ∨ b.hbmStacks = a.hbmStacks
  flows_same : m.testBit 81 = true ∨ b.flows = a.flows

theorem MemStOnly.of {a : MemSt} {f_hbm} {f_lines} {f_atomic} {f_combining} {f_unreadable} {f_reread} {f_moorings} {f_checkpoints} {f_hbmStacks} {f_flows}
    (k_hbm : m.testBit 72 = true ∨ f_hbm = a.hbm) (k_lines : m.testBit 73 = true ∨ f_lines = a.lines) (k_atomic : m.testBit 74 = true ∨ f_atomic = a.atomic) (k_combining : m.testBit 75 = true ∨ f_combining = a.combining) (k_unreadable : m.testBit 76 = true ∨ f_unreadable = a.unreadable) (k_reread : m.testBit 77 = true ∨ f_reread = a.reread) (k_moorings : m.testBit 78 = true ∨ f_moorings = a.moorings) (k_checkpoints : m.testBit 79 = true ∨ f_checkpoints = a.checkpoints) (k_hbmStacks : m.testBit 80 = true ∨ f_hbmStacks = a.hbmStacks) (k_flows : m.testBit 81 = true ∨ f_flows = a.flows) :
    MemStOnly m a ⟨f_hbm, f_lines, f_atomic, f_combining, f_unreadable, f_reread, f_moorings, f_checkpoints, f_hbmStacks, f_flows⟩ := ⟨k_hbm, k_lines, k_atomic, k_combining, k_unreadable, k_reread, k_moorings, k_checkpoints, k_hbmStacks, k_flows⟩

theorem MemStOnly.refl (a : MemSt) : MemStOnly m a a := by
  constructor <;> exact .inr rfl

/-- The fields of `re` outside a mask are as they were. -/
structure ReduceStOnly (m : Nat) (a b : ReduceSt) : Prop where
  tiles_same : m.testBit 82 = true ∨ b.tiles = a.tiles
  slots_same : m.testBit 83 = true ∨ b.slots = a.slots
  areas_same : m.testBit 84 = true ∨ b.areas = a.areas
  passes_same : m.testBit 85 = true ∨ b.passes = a.passes
  own_same : m.testBit 86 = true ∨ b.own = a.own
  peer_same : m.testBit 87 = true ∨ b.peer = a.peer
  swept_same : m.testBit 88 = true ∨ b.swept = a.swept

theorem ReduceStOnly.of {a : ReduceSt} {f_tiles} {f_slots} {f_areas} {f_passes} {f_own} {f_peer} {f_swept}
    (k_tiles : m.testBit 82 = true ∨ f_tiles = a.tiles) (k_slots : m.testBit 83 = true ∨ f_slots = a.slots) (k_areas : m.testBit 84 = true ∨ f_areas = a.areas) (k_passes : m.testBit 85 = true ∨ f_passes = a.passes) (k_own : m.testBit 86 = true ∨ f_own = a.own) (k_peer : m.testBit 87 = true ∨ f_peer = a.peer) (k_swept : m.testBit 88 = true ∨ f_swept = a.swept) :
    ReduceStOnly m a ⟨f_tiles, f_slots, f_areas, f_passes, f_own, f_peer, f_swept⟩ := ⟨k_tiles, k_slots, k_areas, k_passes, k_own, k_peer, k_swept⟩

theorem ReduceStOnly.refl (a : ReduceSt) : ReduceStOnly m a a := by
  constructor <;> exact .inr rfl

/-- The fields of `cl` outside a mask are as they were. -/
structure CollectiveStOnly (m : Nat) (a b : CollectiveSt) : Prop where
  groups_same : m.testBit 89 = true ∨ b.groups = a.groups
  tags_same : m.testBit 90 = true ∨ b.tags = a.tags
  inflight_same : m.testBit 91 = true ∨ b.inflight = a.inflight
  waits_same : m.testBit 92 = true ∨ b.waits = a.waits
  drains_same : m.testBit 93 = true ∨ b.drains = a.drains
  retentions_same : m.testBit 94 = true ∨ b.retentions = a.retentions
  notices_same : m.testBit 95 = true ∨ b.notices = a.notices

theorem CollectiveStOnly.of {a : CollectiveSt} {f_groups} {f_tags} {f_inflight} {f_waits} {f_drains} {f_retentions} {f_notices}
    (k_groups : m.testBit 89 = true ∨ f_groups = a.groups) (k_tags : m.testBit 90 = true ∨ f_tags = a.tags) (k_inflight : m.testBit 91 = true ∨ f_inflight = a.inflight) (k_waits : m.testBit 92 = true ∨ f_waits = a.waits) (k_drains : m.testBit 93 = true ∨ f_drains = a.drains) (k_retentions : m.testBit 94 = true ∨ f_retentions = a.retentions) (k_notices : m.testBit 95 = true ∨ f_notices = a.notices) :
    CollectiveStOnly m a ⟨f_groups, f_tags, f_inflight, f_waits, f_drains, f_retentions, f_notices⟩ := ⟨k_groups, k_tags, k_inflight, k_waits, k_drains, k_retentions, k_notices⟩

theorem CollectiveStOnly.refl (a : CollectiveSt) : CollectiveStOnly m a a := by
  constructor <;> exact .inr rfl

/-- The fields of `oc` outside a mask are as they were. -/
structure OpticalStOnly (m : Nat) (a b : OpticalSt) : Prop where
  rings_same : m.testBit 96 = true ∨ b.rings = a.rings
  engines_same : m.testBit 97 = true ∨ b.engines = a.engines
  moves_same : m.testBit 98 = true ∨ b.moves = a.moves
  granted_same : m.testBit 99 = true ∨ b.granted = a.granted
  calibrated_same : m.testBit 100 = true ∨ b.calibrated = a.calibrated
  lasers_same : m.testBit 101 = true ∨ b.lasers = a.lasers
  laserSeq_same : m.testBit 102 = true ∨ b.laserSeq = a.laserSeq
  circuits_same : m.testBit 103 = true ∨ b.circuits = a.circuits
  pairs_same : m.testBit 104 = true ∨ b.pairs = a.pairs
  calTemp_same : m.testBit 105 = true ∨ b.calTemp = a.calTemp

theorem OpticalStOnly.of {a : OpticalSt} {f_rings} {f_engines} {f_moves} {f_granted} {f_calibrated} {f_lasers} {f_laserSeq} {f_circuits} {f_pairs} {f_calTemp}
    (k_rings : m.testBit 96 = true ∨ f_rings = a.rings) (k_engines : m.testBit 97 = true ∨ f_engines = a.engines) (k_moves : m.testBit 98 = true ∨ f_moves = a.moves) (k_granted : m.testBit 99 = true ∨ f_granted = a.granted) (k_calibrated : m.testBit 100 = true ∨ f_calibrated = a.calibrated) (k_lasers : m.testBit 101 = true ∨ f_lasers = a.lasers) (k_laserSeq : m.testBit 102 = true ∨ f_laserSeq = a.laserSeq) (k_circuits : m.testBit 103 = true ∨ f_circuits = a.circuits) (k_pairs : m.testBit 104 = true ∨ f_pairs = a.pairs) (k_calTemp : m.testBit 105 = true ∨ f_calTemp = a.calTemp) :
    OpticalStOnly m a ⟨f_rings, f_engines, f_moves, f_granted, f_calibrated, f_lasers, f_laserSeq, f_circuits, f_pairs, f_calTemp⟩ := ⟨k_rings, k_engines, k_moves, k_granted, k_calibrated, k_lasers, k_laserSeq, k_circuits, k_pairs, k_calTemp⟩

theorem OpticalStOnly.refl (a : OpticalSt) : OpticalStOnly m a a := by
  constructor <;> exact .inr rfl

/-- The fields of `pm` outside a mask are as they were. -/
structure PowerStOnly (m : Nat) (a b : PowerSt) : Prop where
  ramping_same : m.testBit 106 = true ∨ b.ramping = a.ramping
  dwell_same : m.testBit 107 = true ∨ b.dwell = a.dwell
  actions_same : m.testBit 108 = true ∨ b.actions = a.actions
  idle_same : m.testBit 109 = true ∨ b.idle = a.idle
  energy_same : m.testBit 110 = true ∨ b.energy = a.energy
  budget_same : m.testBit 111 = true ∨ b.budget = a.budget

theorem PowerStOnly.of {a : PowerSt} {f_ramping} {f_dwell} {f_actions} {f_idle} {f_energy} {f_budget}
    (k_ramping : m.testBit 106 = true ∨ f_ramping = a.ramping) (k_dwell : m.testBit 107 = true ∨ f_dwell = a.dwell) (k_actions : m.testBit 108 = true ∨ f_actions = a.actions) (k_idle : m.testBit 109 = true ∨ f_idle = a.idle) (k_energy : m.testBit 110 = true ∨ f_energy = a.energy) (k_budget : m.testBit 111 = true ∨ f_budget = a.budget) :
    PowerStOnly m a ⟨f_ramping, f_dwell, f_actions, f_idle, f_energy, f_budget⟩ := ⟨k_ramping, k_dwell, k_actions, k_idle, k_energy, k_budget⟩

theorem PowerStOnly.refl (a : PowerSt) : PowerStOnly m a a := by
  constructor <;> exact .inr rfl

/-- A change of the fields of the state's parts, registers aside. -/
theorem Only.parts (h : Only m r s) {x_hi : HostSt} {x_bt : BootSt} {x_pc : PacketSt} {x_ft : TableSt} {x_tq : QueueSt} {x_tb : TimeSt} {x_fh : FaultSt} {x_ms : MemSt} {x_re : ReduceSt} {x_cl : CollectiveSt} {x_oc : OpticalSt} {x_pm : PowerSt}
    (k_hi : HostStOnly m s.hi x_hi) (k_bt : BootStOnly m s.bt x_bt) (k_pc : PacketStOnly m s.pc x_pc) (k_ft : TableStOnly m s.ft x_ft) (k_tq : QueueStOnly m s.tq x_tq) (k_tb : TimeStOnly m s.tb x_tb) (k_fh : FaultStOnly m s.fh x_fh) (k_ms : MemStOnly m s.ms x_ms) (k_re : ReduceStOnly m s.re x_re) (k_cl : CollectiveStOnly m s.cl x_cl) (k_oc : OpticalStOnly m s.oc x_oc) (k_pm : PowerStOnly m s.pm x_pm)
    (hh : x_ms.hbm = s.ms.hbm) :
    Only m r ⟨s.regs, x_hi, x_bt, x_pc, x_ft, x_tq, x_tb, x_fh, x_ms, x_re, x_cl, x_oc, x_pm, s.free, s.out, s.pending⟩ := by
  refine ⟨h.keeps.same hh, fun p hp => Piece.same_trans (h.same p hp) ?_⟩
  cases p <;> simp only [Piece.bit] at hp <;> simp only [Piece.same]
  case words => intro off _; rfl
  case hiRings => exact k_hi.rings_same.resolve_left (by simp [hp])
  case hiDescs => exact k_hi.descs_same.resolve_left (by simp [hp])
  case hiNextId => exact k_hi.nextId_same.resolve_left (by simp [hp])
  case hiGranules => exact k_hi.granules_same.resolve_left (by simp [hp])
  case hiGangwayWrites => exact k_hi.gangwayWrites_same.resolve_left (by simp [hp])
  case hiProt => exact k_hi.prot_same.resolve_left (by simp [hp])
  case hiStaging => exact k_hi.staging_same.resolve_left (by simp [hp])
  case hiParts => exact k_hi.parts_same.resolve_left (by simp [hp])
  case hiD3hot => exact k_hi.d3hot_same.resolve_left (by simp [hp])
  case hiHeld => exact k_hi.held_same.resolve_left (by simp [hp])
  case hiAnswering => exact k_hi.answering_same.resolve_left (by simp [hp])
  case hiConfig => exact k_hi.config_same.resolve_left (by simp [hp])
  case btPor => exact k_bt.por_same.resolve_left (by simp [hp])
  case btX4 => exact k_bt.x4_same.resolve_left (by simp [hp])
  case btWarm => exact k_bt.warm_same.resolve_left (by simp [hp])
  case btHeld => exact k_bt.held_same.resolve_left (by simp [hp])
  case btStopped => exact k_bt.stopped_same.resolve_left (by simp [hp])
  case btTrip => exact k_bt.trip_same.resolve_left (by simp [hp])
  case btImage => exact k_bt.image_same.resolve_left (by simp [hp])
  case btImageTop => exact k_bt.imageTop_same.resolve_left (by simp [hp])
  case btEntry => exact k_bt.entry_same.resolve_left (by simp [hp])
  case btQuoteNonce => exact k_bt.quoteNonce_same.resolve_left (by simp [hp])
  case btExchanges => exact k_bt.exchanges_same.resolve_left (by simp [hp])
  case btCoreRefLost => exact k_bt.coreRefLost_same.resolve_left (by simp [hp])
  case btSerdesLost => exact k_bt.serdesLost_same.resolve_left (by simp [hp])
  case btFaultL => exact k_bt.faultL_same.resolve_left (by simp [hp])
  case btThermtripL => exact k_bt.thermtripL_same.resolve_left (by simp [hp])
  case pcPorts => exact k_pc.ports_same.resolve_left (by simp [hp])
  case pcFrames => exact k_pc.frames_same.resolve_left (by simp [hp])
  case pcNextFrame => exact k_pc.nextFrame_same.resolve_left (by simp [hp])
  case pcQueues => exact k_pc.queues_same.resolve_left (by simp [hp])
  case pcSlip => exact k_pc.slip_same.resolve_left (by simp [hp])
  case pcSlipPages => exact k_pc.slipPages_same.resolve_left (by simp [hp])
  case pcSpilling => exact k_pc.spilling_same.resolve_left (by simp [hp])
  case pcPortCount => exact k_pc.portCount_same.resolve_left (by simp [hp])
  case pcQueueCount => exact k_pc.queueCount_same.resolve_left (by simp [hp])
  case pcMeterCount => exact k_pc.meterCount_same.resolve_left (by simp [hp])
  case ftEndpoints => exact k_ft.endpoints_same.resolve_left (by simp [hp])
  case ftLpm => exact k_ft.lpm_same.resolve_left (by simp [hp])
  case ftLearns => exact k_ft.learns_same.resolve_left (by simp [hp])
  case ftConflicts => exact k_ft.conflicts_same.resolve_left (by simp [hp])
  case ftGroups => exact k_ft.groups_same.resolve_left (by simp [hp])
  case ftFlowlets => exact k_ft.flowlets_same.resolve_left (by simp [hp])
  case ftChanges => exact k_ft.changes_same.resolve_left (by simp [hp])
  case tqGates => exact k_tq.gates_same.resolve_left (by simp [hp])
  case tqMeters => exact k_tq.meters_same.resolve_left (by simp [hp])
  case tqProfiles => exact k_tq.profiles_same.resolve_left (by simp [hp])
  case tqFences => exact k_tq.fences_same.resolve_left (by simp [hp])
  case tbDom0 => exact k_tb.dom0_same.resolve_left (by simp [hp])
  case tbDom1 => exact k_tb.dom1_same.resolve_left (by simp [hp])
  case tbCaptures => exact k_tb.captures_same.resolve_left (by simp [hp])
  case tbLostEdge => exact k_tb.lostEdge_same.resolve_left (by simp [hp])
  case tbTrig => exact k_tb.trig_same.resolve_left (by simp [hp])
  case tbPps => exact k_tb.pps_same.resolve_left (by simp [hp])
  case tbExpired => exact k_tb.expired_same.resolve_left (by simp [hp])
  case tbReplicas => exact k_tb.replicas_same.resolve_left (by simp [hp])
  case fhLog => exact k_fh.log_same.resolve_left (by simp [hp])
  case fhWindows => exact k_fh.windows_same.resolve_left (by simp [hp])
  case fhVectorSent => exact k_fh.vectorSent_same.resolve_left (by simp [hp])
  case fhTilesRetired => exact k_fh.tilesRetired_same.resolve_left (by simp [hp])
  case fhLanesRetired => exact k_fh.lanesRetired_same.resolve_left (by simp [hp])
  case fhLasersRetired => exact k_fh.lasersRetired_same.resolve_left (by simp [hp])
  case fhChannelsErased => exact k_fh.channelsErased_same.resolve_left (by simp [hp])
  case fhWithdrawn => exact k_fh.withdrawn_same.resolve_left (by simp [hp])
  case fhRecoveries => exact k_fh.recoveries_same.resolve_left (by simp [hp])
  case fhEscalations => exact k_fh.escalations_same.resolve_left (by simp [hp])
  case fhPortsHeld => exact k_fh.portsHeld_same.resolve_left (by simp [hp])
  case fhBridges => exact k_fh.bridges_same.resolve_left (by simp [hp])
  case fhDiesReset => exact k_fh.diesReset_same.resolve_left (by simp [hp])
  case fhLaneLocks => exact k_fh.laneLocks_same.resolve_left (by simp [hp])
  case fhLaneErrors => exact k_fh.laneErrors_same.resolve_left (by simp [hp])
  case fhFullSeen => exact k_fh.fullSeen_same.resolve_left (by simp [hp])
  case msHbm => exact k_ms.hbm_same.resolve_left (by simp [hp])
  case msLines => exact k_ms.lines_same.resolve_left (by simp [hp])
  case msAtomic => exact k_ms.atomic_same.resolve_left (by simp [hp])
  case msCombining => exact k_ms.combining_same.resolve_left (by simp [hp])
  case msUnreadable => exact k_ms.unreadable_same.resolve_left (by simp [hp])
  case msReread => exact k_ms.reread_same.resolve_left (by simp [hp])
  case msMoorings => exact k_ms.moorings_same.resolve_left (by simp [hp])
  case msCheckpoints => exact k_ms.checkpoints_same.resolve_left (by simp [hp])
  case msHbmStacks => exact k_ms.hbmStacks_same.resolve_left (by simp [hp])
  case msFlows => exact k_ms.flows_same.resolve_left (by simp [hp])
  case reTiles => exact k_re.tiles_same.resolve_left (by simp [hp])
  case reSlots => exact k_re.slots_same.resolve_left (by simp [hp])
  case reAreas => exact k_re.areas_same.resolve_left (by simp [hp])
  case rePasses => exact k_re.passes_same.resolve_left (by simp [hp])
  case reOwn => exact k_re.own_same.resolve_left (by simp [hp])
  case rePeer => exact k_re.peer_same.resolve_left (by simp [hp])
  case reSwept => exact k_re.swept_same.resolve_left (by simp [hp])
  case clGroups => exact k_cl.groups_same.resolve_left (by simp [hp])
  case clTags => exact k_cl.tags_same.resolve_left (by simp [hp])
  case clInflight => exact k_cl.inflight_same.resolve_left (by simp [hp])
  case clWaits => exact k_cl.waits_same.resolve_left (by simp [hp])
  case clDrains => exact k_cl.drains_same.resolve_left (by simp [hp])
  case clRetentions => exact k_cl.retentions_same.resolve_left (by simp [hp])
  case clNotices => exact k_cl.notices_same.resolve_left (by simp [hp])
  case ocRings => exact k_oc.rings_same.resolve_left (by simp [hp])
  case ocEngines => exact k_oc.engines_same.resolve_left (by simp [hp])
  case ocMoves => exact k_oc.moves_same.resolve_left (by simp [hp])
  case ocGranted => exact k_oc.granted_same.resolve_left (by simp [hp])
  case ocCalibrated => exact k_oc.calibrated_same.resolve_left (by simp [hp])
  case ocLasers => exact k_oc.lasers_same.resolve_left (by simp [hp])
  case ocLaserSeq => exact k_oc.laserSeq_same.resolve_left (by simp [hp])
  case ocCircuits => exact k_oc.circuits_same.resolve_left (by simp [hp])
  case ocPairs => exact k_oc.pairs_same.resolve_left (by simp [hp])
  case ocCalTemp => exact k_oc.calTemp_same.resolve_left (by simp [hp])
  case pmRamping => exact k_pm.ramping_same.resolve_left (by simp [hp])
  case pmDwell => exact k_pm.dwell_same.resolve_left (by simp [hp])
  case pmActions => exact k_pm.actions_same.resolve_left (by simp [hp])
  case pmIdle => exact k_pm.idle_same.resolve_left (by simp [hp])
  case pmEnergy => exact k_pm.energy_same.resolve_left (by simp [hp])
  case pmBudget => exact k_pm.budget_same.resolve_left (by simp [hp])
/-- A change of `hi` alone. -/
theorem Only.hiTo {x : HostSt} (k : HostStOnly m s.hi x) (h : Only m r s) :
    Only m r ⟨s.regs, x, s.bt, s.pc, s.ft, s.tq, s.tb, s.fh, s.ms, s.re, s.cl, s.oc, s.pm, s.free, s.out, s.pending⟩ :=
  Only.parts h k (.refl _) (.refl _) (.refl _) (.refl _) (.refl _) (.refl _) (.refl _) (.refl _) (.refl _) (.refl _) (.refl _) rfl

/-- A change of `bt` alone. -/
theorem Only.btTo {x : BootSt} (k : BootStOnly m s.bt x) (h : Only m r s) :
    Only m r ⟨s.regs, s.hi, x, s.pc, s.ft, s.tq, s.tb, s.fh, s.ms, s.re, s.cl, s.oc, s.pm, s.free, s.out, s.pending⟩ :=
  Only.parts h (.refl _) k (.refl _) (.refl _) (.refl _) (.refl _) (.refl _) (.refl _) (.refl _) (.refl _) (.refl _) (.refl _) rfl

/-- A change of `pc` alone. -/
theorem Only.pcTo {x : PacketSt} (k : PacketStOnly m s.pc x) (h : Only m r s) :
    Only m r ⟨s.regs, s.hi, s.bt, x, s.ft, s.tq, s.tb, s.fh, s.ms, s.re, s.cl, s.oc, s.pm, s.free, s.out, s.pending⟩ :=
  Only.parts h (.refl _) (.refl _) k (.refl _) (.refl _) (.refl _) (.refl _) (.refl _) (.refl _) (.refl _) (.refl _) (.refl _) rfl

/-- A change of `ft` alone. -/
theorem Only.ftTo {x : TableSt} (k : TableStOnly m s.ft x) (h : Only m r s) :
    Only m r ⟨s.regs, s.hi, s.bt, s.pc, x, s.tq, s.tb, s.fh, s.ms, s.re, s.cl, s.oc, s.pm, s.free, s.out, s.pending⟩ :=
  Only.parts h (.refl _) (.refl _) (.refl _) k (.refl _) (.refl _) (.refl _) (.refl _) (.refl _) (.refl _) (.refl _) (.refl _) rfl

/-- A change of `tq` alone. -/
theorem Only.tqTo {x : QueueSt} (k : QueueStOnly m s.tq x) (h : Only m r s) :
    Only m r ⟨s.regs, s.hi, s.bt, s.pc, s.ft, x, s.tb, s.fh, s.ms, s.re, s.cl, s.oc, s.pm, s.free, s.out, s.pending⟩ :=
  Only.parts h (.refl _) (.refl _) (.refl _) (.refl _) k (.refl _) (.refl _) (.refl _) (.refl _) (.refl _) (.refl _) (.refl _) rfl

/-- A change of `tb` alone. -/
theorem Only.tbTo {x : TimeSt} (k : TimeStOnly m s.tb x) (h : Only m r s) :
    Only m r ⟨s.regs, s.hi, s.bt, s.pc, s.ft, s.tq, x, s.fh, s.ms, s.re, s.cl, s.oc, s.pm, s.free, s.out, s.pending⟩ :=
  Only.parts h (.refl _) (.refl _) (.refl _) (.refl _) (.refl _) k (.refl _) (.refl _) (.refl _) (.refl _) (.refl _) (.refl _) rfl

/-- A change of `fh` alone. -/
theorem Only.fhTo {x : FaultSt} (k : FaultStOnly m s.fh x) (h : Only m r s) :
    Only m r ⟨s.regs, s.hi, s.bt, s.pc, s.ft, s.tq, s.tb, x, s.ms, s.re, s.cl, s.oc, s.pm, s.free, s.out, s.pending⟩ :=
  Only.parts h (.refl _) (.refl _) (.refl _) (.refl _) (.refl _) (.refl _) k (.refl _) (.refl _) (.refl _) (.refl _) (.refl _) rfl

/-- A change of `ms` alone. -/
theorem Only.msTo {x : MemSt} (k : MemStOnly m s.ms x) (hh : x.hbm = s.ms.hbm) (h : Only m r s) :
    Only m r ⟨s.regs, s.hi, s.bt, s.pc, s.ft, s.tq, s.tb, s.fh, x, s.re, s.cl, s.oc, s.pm, s.free, s.out, s.pending⟩ :=
  Only.parts h (.refl _) (.refl _) (.refl _) (.refl _) (.refl _) (.refl _) (.refl _) k (.refl _) (.refl _) (.refl _) (.refl _) hh

/-- A change of `re` alone. -/
theorem Only.reTo {x : ReduceSt} (k : ReduceStOnly m s.re x) (h : Only m r s) :
    Only m r ⟨s.regs, s.hi, s.bt, s.pc, s.ft, s.tq, s.tb, s.fh, s.ms, x, s.cl, s.oc, s.pm, s.free, s.out, s.pending⟩ :=
  Only.parts h (.refl _) (.refl _) (.refl _) (.refl _) (.refl _) (.refl _) (.refl _) (.refl _) k (.refl _) (.refl _) (.refl _) rfl

/-- A change of `cl` alone. -/
theorem Only.clTo {x : CollectiveSt} (k : CollectiveStOnly m s.cl x) (h : Only m r s) :
    Only m r ⟨s.regs, s.hi, s.bt, s.pc, s.ft, s.tq, s.tb, s.fh, s.ms, s.re, x, s.oc, s.pm, s.free, s.out, s.pending⟩ :=
  Only.parts h (.refl _) (.refl _) (.refl _) (.refl _) (.refl _) (.refl _) (.refl _) (.refl _) (.refl _) k (.refl _) (.refl _) rfl

/-- A change of `oc` alone. -/
theorem Only.ocTo {x : OpticalSt} (k : OpticalStOnly m s.oc x) (h : Only m r s) :
    Only m r ⟨s.regs, s.hi, s.bt, s.pc, s.ft, s.tq, s.tb, s.fh, s.ms, s.re, s.cl, x, s.pm, s.free, s.out, s.pending⟩ :=
  Only.parts h (.refl _) (.refl _) (.refl _) (.refl _) (.refl _) (.refl _) (.refl _) (.refl _) (.refl _) (.refl _) k (.refl _) rfl

/-- A change of `pm` alone. -/
theorem Only.pmTo {x : PowerSt} (k : PowerStOnly m s.pm x) (h : Only m r s) :
    Only m r ⟨s.regs, s.hi, s.bt, s.pc, s.ft, s.tq, s.tb, s.fh, s.ms, s.re, s.cl, s.oc, x, s.free, s.out, s.pending⟩ :=
  Only.parts h (.refl _) (.refl _) (.refl _) (.refl _) (.refl _) (.refl _) (.refl _) (.refl _) (.refl _) (.refl _) (.refl _) k rfl


/-- A change of the memory system with the bytes of HBM among it. -/
theorem Only.memory (h : Only m r s) {x : MemSt} (k : MemStOnly m s.ms x) (w : HbmOk s.ms.hbm → HbmOk x.hbm) :
    Only m r { s with ms := x } := by
  refine ⟨h.keeps.hbmTo w, fun p hp => Piece.same_trans (h.same p hp) ?_⟩
  cases p <;> simp only [Piece.bit] at hp <;> simp only [Piece.same]
  case words => intro off _; rfl
  case msHbm => exact k.hbm_same.resolve_left (by simp [hp])
  case msLines => exact k.lines_same.resolve_left (by simp [hp])
  case msAtomic => exact k.atomic_same.resolve_left (by simp [hp])
  case msCombining => exact k.combining_same.resolve_left (by simp [hp])
  case msUnreadable => exact k.unreadable_same.resolve_left (by simp [hp])
  case msReread => exact k.reread_same.resolve_left (by simp [hp])
  case msMoorings => exact k.moorings_same.resolve_left (by simp [hp])
  case msCheckpoints => exact k.checkpoints_same.resolve_left (by simp [hp])
  case msHbmStacks => exact k.hbmStacks_same.resolve_left (by simp [hp])
  case msFlows => exact k.flows_same.resolve_left (by simp [hp])

/-! ### Register words -/

/-- A mask covers whatever owns an offset. -/
def Owns (m off : Nat) : Prop := ∀ b, ownerOf off = some b → m.testBit (arrayBit b) = true

theorem State.setWord_only (off : Nat) (w : Word) (k : Owns m off) (h : Only m r s) : Only m r (s.setWord off w) := by
  refine ⟨State.setWord_keeps off w h.keeps, fun p hp => Piece.same_trans (h.same p hp) ?_⟩
  cases p
  case words b =>
    intro o ho
    have hne : off ≠ o := by
      rintro rfl
      simp [Piece.bit, k b ho] at hp
    exact sget_sset_other _ _ hne _ _
  all_goals rfl

theorem State.emit_only (o : Out) (k : m.testBit 113 = true) (h : Only m r s) : Only m r (s.emit o) := by
  refine ⟨State.emit_keeps o h.keeps, fun p hp => Piece.same_trans (h.same p hp) ?_⟩
  cases p
  case outputs => simp [Piece.bit, k] at hp
  case words => intro off _; rfl
  all_goals rfl

theorem State.draw_only (k : m.testBit 112 = true) (h : Only m r s) : Only m r s.draw.2 := by
  refine ⟨State.draw_keeps h.keeps, fun p hp => Piece.same_trans (h.same p hp) ?_⟩
  cases p
  case drawn => simp [Piece.bit, k] at hp
  case words => intro off _; rfl
  all_goals rfl

theorem State.draw_only_eq {a : Nat} {t : State} (e : s.draw = (a, t)) (k : m.testBit 112 = true) (h : Only m r s) : Only m r t := by
  have w := State.draw_only k h
  rw [e] at w
  exact w


/-- The array is one of the map's, and a mask names it. -/
def grantsB (a : Nat) (x : Reg) : Bool :=
  a.testBit (arrayBit x.base) && (blockRegisters (x.base / 0x100000)).any (fun y =>
    x.base == y.base && x.stride == y.stride && x.block == y.block && x.used == y.used && x.count == y.count && (x.w1c == 0 || y.w1c != 0))

/-- A mask covers the words of an array. -/
def Grants (m : Nat) (x : Reg) : Prop := ∀ i, Owns m (x.offset i)

/-- A mask covers the words of an array and their companion counts. -/
def GrantsErr (m : Nat) (x : Reg) : Prop := Grants m x ∧ ∀ i, Owns m (companionOf (x.offset i))

theorem listed_of_grantsB {a : Nat} {x : Reg} (h : grantsB a x = true) : a.testBit (arrayBit x.base) = true ∧
    ∃ y ∈ blockRegisters (y.base / 0x100000), y.base = x.base ∧ (∀ i, x.offset i = y.offset i) ∧ (x.w1c ≠ 0 → y.w1c ≠ 0) := by
  simp only [grantsB, Bool.and_eq_true, List.any_eq_true, beq_iff_eq, Bool.or_eq_true, bne_iff_ne] at h
  obtain ⟨h1, y, hy, ⟨⟨⟨⟨hb, hs⟩, hk⟩, hu⟩, hc⟩, hw⟩ := h
  refine ⟨h1, y, hb ▸ hy, hb.symm, fun i => ?_, fun n => hw.resolve_left n⟩
  unfold Reg.offset Reg.slot
  rw [hb, hs, hk, hu, hc]

theorem Covers.words {a : Nat} (k : Covers a m) {x : Reg} (h : grantsB a x = true) : Grants m x := by
  obtain ⟨h1, y, hy, hb, ho, -⟩ := listed_of_grantsB h
  intro i b e
  rw [ho, ownerOf_offset hy] at e
  cases e
  rw [hb]
  exact k.bit h1

theorem Covers.err {a : Nat} (k : Covers a m) {x : Reg} (h : grantsB a x = true) (w : x.w1c ≠ 0) : GrantsErr m x := by
  refine ⟨k.words h, fun i b e => ?_⟩
  obtain ⟨h1, y, hy, hb, ho, hw⟩ := listed_of_grantsB h
  rw [ho, ownerOf_companion hy (hw w)] at e
  cases e
  rw [hb]
  exact k.bit h1

theorem State.wr_only (f : Fld) (i v : Nat) (k : Grants m f.reg) (h : Only m r s) : Only m r (s.wr f i v) :=
  State.setWord_only _ _ (k i) h

theorem State.setErr_only (f : Fld) (i : Nat) (k : GrantsErr m f.reg) (h : Only m r s) : Only m r (s.setErr f i) :=
  State.wr_only f i _ k.1 (State.setWord_only _ _ (k.2 i) h)

theorem State.wrs_only (l : List (Fld × Nat × Nat)) (k : ∀ x ∈ l, Grants m x.1.reg) (h : Only m r s) : Only m r (s.wrs l) := by
  unfold State.wrs
  induction l generalizing s with
  | nil => exact h
  | cons x l ih => exact ih (fun y hy => k y (List.mem_cons_of_mem _ hy)) (State.wr_only _ _ _ (k x (List.mem_cons_self ..)) h)

theorem State.setWord_at_only {x : Reg} {i : Nat} {w : Word} (k : Grants m x) (h : Only m r s) : Only m r (s.setWord (x.offset i) w) :=
  State.setWord_only _ _ (k i) h

theorem State.addSat_only (f : Fld) (i n : Nat) (k : Grants m f.reg) (h : Only m r s) : Only m r (s.addSat f i n) := State.wr_only f i _ k h

theorem State.addWrap_only (f : Fld) (i n : Nat) (k : Grants m f.reg) (h : Only m r s) : Only m r (s.addWrap f i n) := State.wr_only f i _ k h

theorem State.putBytes_only (x : Reg) (i : Nat) (bs : List Byte) (k : Grants m x) (h : Only m r s) : Only m r (s.putBytes x i bs) :=
  Only.foldl h (fun _ j ht => State.setWord_only _ _ (k (i + j)) ht)

theorem State.plainWrite_only (x : Reg) (i : Nat) (v : Word) (k : Grants m x) (h : Only m r s) : Only m r (s.plainWrite x i v) :=
  State.setWord_only _ _ (k i) h

/-- The bits of every register array. -/
def allWords : Nat := 0xffffffffffffffffffffffffffffffffffffffffffffffffffffffffffffffffffffffffffffffffffffffffffffffffffffffffffffffff00000000000000000000000000000000

theorem mem_block_of_registerAt {off : Nat} {x : Reg} {i : Nat} (e : registerAt off = some (x, i)) : x ∈ blockRegisters (off / 0x100000) := by
  obtain ⟨y, hy, e⟩ := List.exists_of_findSome?_eq_some e
  cases ey : y.indexAt off with
  | none => rw [ey] at e; cases e
  | some j => rw [ey] at e; cases e; exact hy

theorem allWords_block : (List.range 14).all (fun b => (blockRegisters b).all (fun x => allWords.testBit (arrayBit x.base))) = true := by decide +kernel

theorem allWords_bit {b : Nat} {x : Reg} (hx : x ∈ blockRegisters b) : allWords.testBit (arrayBit x.base) = true := by
  have hb : b < 14 := by
    match b with
    | 0 | 1 | 2 | 3 | 4 | 5 | 6 | 7 | 8 | 9 | 10 | 11 | 12 | 13 => omega
    | n + 14 => cases hx
  have h := allWords_block
  rw [List.all_eq_true] at h
  exact (List.all_eq_true.1 (h b (List.mem_range.2 hb))) x hx

/-- A mask with every array covers every offset. -/
theorem owns_all (k : Covers allWords m) (off : Nat) : Owns m off := by
  intro b e
  unfold ownerOf at e
  split at e
  · next x i hx =>
    cases e
    exact k.bit (allWords_bit (mem_block_of_registerAt hx))
  · split at e
    · cases hx : registerAt (off - 0x80000) with
      | none => rw [hx] at e; cases e
      | some z =>
        rw [hx] at e
        cases e
        exact k.bit (allWords_bit (mem_block_of_registerAt (x := z.1) (i := z.2) hx))
    · cases e

/-- A change of the register table as a whole. -/
theorem Only.regsTo (k : Covers allWords m) (h : Only m r s) {l : List (Nat × Word)} (w : RegsOk s.regs → RegsOk l) :
    Only m r { s with regs := l } := by
  refine ⟨h.keeps.regsTo w, fun p hp => Piece.same_trans (h.same p hp) ?_⟩
  cases p
  case words b =>
    intro o ho
    simp [Piece.bit, owns_all k o b ho] at hp
  all_goals rfl

/-- The bits of the arrays of block 0, HI_. -/
def hiWords : Nat := 0xffffffff00000000000000000000000000000000

theorem hiWords_block : (blockRegisters 0).all (fun x => hiWords.testBit (arrayBit x.base)) = true := by decide +kernel

theorem owner_in_block {off b : Nat} (e : ownerOf off = some b) (h : off < 0x100000) : ∃ x ∈ blockRegisters 0, x.base = b := by
  unfold ownerOf at e
  split at e
  · next x i hx =>
    cases e
    have := mem_block_of_registerAt hx
    rw [Nat.div_eq_of_lt h] at this
    exact ⟨x, this, rfl⟩
  · split at e
    · cases hx : registerAt (off - 0x80000) with
      | none => rw [hx] at e; cases e
      | some z =>
        rw [hx] at e
        cases e
        have := mem_block_of_registerAt (x := z.1) (i := z.2) hx
        rw [Nat.div_eq_of_lt (by omega)] at this
        exact ⟨z.1, this, rfl⟩
    · cases e

/-- A mask with every array covers the array at any offset. -/
theorem grants_listed (k : Covers allWords m) {x : Reg} {o i : Nat} (_ : registerAt o = some (x, i)) : Grants m x :=
  fun _ => owns_all k _

/-- What is reached in one step of its own. -/
theorem Only.whole {t : State} (h : Only m r s) (k : Keeps s t) (w : ∀ p : Piece, m.testBit p.bit = false → p.same s t) : Only m r t :=
  ⟨h.keeps.trans k, fun p hp => Piece.same_trans (h.same p hp) (w p hp)⟩

/-- The block HI_ going back to its reset words changes its arrays alone. -/
theorem State.resetHi_only (k : Covers hiWords m) (h : Only m r s) : Only m r (s.resetRegs 0 0x100000) := by
  refine ⟨State.resetRegs_keeps _ _ h.keeps, fun p hp => Piece.same_trans (h.same p hp) ?_⟩
  cases p
  case words b =>
    intro o ho
    unfold State.word State.resetRegs
    rw [sget_sclear, if_neg]
    simp only [Nat.zero_le, true_and, decide_eq_true_eq]
    intro hlt
    obtain ⟨x, hx, rfl⟩ := owner_in_block ho hlt
    have := k.bit ((List.all_eq_true.1 hiWords_block) x hx)
    simp [Piece.bit, this] at hp
  all_goals rfl

end Sys2Proof.Machine
end

