-- ==== Sys2Proof/Laws/OnlyOps.lean ====
section
/-! SUPPORT. Every operation of Machine/Ops.lean to Machine/Meter.lean changes only the parts that its mask names: from a state that did so, it answers one
that did so. -/

namespace Sys2Proof.Machine

/-! ### Machine/Ops.lean -/

theorem State.countEvent_only {m : Nat} {r s : State} {x1 : Event} (k : Covers 0x30400000000000000000000000000000000000000000000000000000000000000000000000000000000000000000000000000000000000000000000000000000000 m) (h : Only m r s) : Only m r (State.countEvent s x1) := by
  unfold State.countEvent
  try dsimp only
  repeat' (first
    | with_reducible assumption
    | with_reducible apply Only.ite
    | with_reducible refine State.addWrap_only _ _ _ (k.words (by decide)) ?_
    | with_reducible refine State.setErr_only _ _ (k.err (by decide) (by decide)) ?_)

theorem State.setWindow_only {m : Nat} {r s : State} {x1 : Nat} {x2 : Nat × Option Event} (k : Covers 0x200000000000000 m) (h : Only m r s) : Only m r (State.setWindow s x1 x2) := by
  unfold State.setWindow
  try dsimp only
  repeat' (first
    | with_reducible assumption
    | fail_if_no_progress (with_reducible refine Only.fhTo (by apply FaultStOnly.of <;> first | exact .inl (k.bit (by decide)) | exact .inr rfl) ?_))

theorem State.toHost_only {m : Nat} {r s : State} {x1 : Out} (k : Covers 0x20000000000000000000000000200 m) (h : Only m r s) : Only m r (State.toHost s x1) := by
  unfold State.toHost
  try dsimp only
  repeat' (first
    | with_reducible assumption
    | fail_if_no_progress (with_reducible refine Only.hiTo (by apply HostStOnly.of <;> first | exact .inl (k.bit (by decide)) | exact .inr rfl) ?_)
    | with_reducible apply Only.ite
    | with_reducible refine State.emit_only _ (k.bit (i := 113) (by decide)) ?_)

theorem State.sendVector_only {m : Nat} {r s : State} {x1 : Nat} (k : Covers 0x80000020000000000000000000000000200 m) (h : Only m r s) : Only m r (State.sendVector s x1) := by
  unfold State.sendVector
  try dsimp only
  repeat' (first
    | with_reducible assumption
    | with_reducible apply Only.ite
    | with_reducible refine State.wr_only _ _ _ (k.words (by decide)) ?_
    | with_reducible refine State.toHost_only (k.sub (by decide)) ?_)

theorem State.signalLog_only {m : Nat} {r s : State} (k : Covers 0x80000020000000000000400000000000200 m) (h : Only m r s) : Only m r (State.signalLog s) := by
  unfold State.signalLog
  try dsimp only
  repeat' (first
    | with_reducible assumption
    | fail_if_no_progress (with_reducible refine Only.fhTo (by apply FaultStOnly.of <;> first | exact .inl (k.bit (by decide)) | exact .inr rfl) ?_)
    | with_reducible apply Only.ite
    | with_reducible refine State.sendVector_only (k.sub (by decide)) ?_)

theorem State.logRecord_only {m : Nat} {r s : State} {x1 : Record} (k : Covers 0x200000000000000000000000000000000000000000000000000000000000000000000000000000000000000000000080000020000000000000500000000000200 m) (h : Only m r s) : Only m r (State.logRecord s x1) := by
  unfold State.logRecord
  try dsimp only
  repeat' (first
    | with_reducible assumption
    | fail_if_no_progress (with_reducible refine Only.fhTo (by apply FaultStOnly.of <;> first | exact .inl (k.bit (by decide)) | exact .inr rfl) ?_)
    | with_reducible refine State.signalLog_only (k.sub (by decide)) ?_
    | with_reducible refine State.wr_only _ _ _ (k.words (by decide)) ?_)

theorem State.raise_only {m : Nat} {r s : State} {x1 : Event} (k : Covers 0x30600000000000000000000000000000000000000000000000000000000000000000000000000000000000000000000080000020000000000000700000000000200 m) (h : Only m r s) : Only m r (State.raise s x1) := by
  unfold State.raise
  try dsimp only
  repeat' (first
    | with_reducible assumption
    | with_reducible refine State.countEvent_only (k.sub (by decide)) ?_
    | with_reducible refine State.setWindow_only (k.sub (by decide)) ?_
    | with_reducible refine State.logRecord_only (k.sub (by decide)) ?_
    | split)

theorem State.refuseWrite_only {m : Nat} {r s : State} {x1 : Nat} {x2 : Nat} (k : Covers 0x30600000000000000000000000000000000000000000000000000000000000000000000000000000000000000000000080000020000000000000700000000000200 m) (h : Only m r s) : Only m r (State.refuseWrite s x1 x2) := by
  unfold State.refuseWrite
  try dsimp only
  repeat' (first
    | with_reducible assumption
    | with_reducible refine State.raise_only (k.sub (by decide)) ?_)

theorem State.portAdd_only {m : Nat} {r s : State} {x1 : Nat} {x2 : Nat} {x3 : Nat} (k : Covers 0x400000000 m) (h : Only m r s) : Only m r (State.portAdd s x1 x2 x3) := by
  unfold State.portAdd
  try dsimp only
  repeat' (first
    | with_reducible assumption
    | fail_if_no_progress (with_reducible refine Only.pcTo (by apply PacketStOnly.of <;> first | exact .inl (k.bit (by decide)) | exact .inr rfl) ?_))

theorem State.setPort_only {m : Nat} {r s : State} {x1 : Nat} {x2 : PortSt} (k : Covers 0x8000000 m) (h : Only m r s) : Only m r (State.setPort s x1 x2) := by
  unfold State.setPort
  try dsimp only
  repeat' (first
    | with_reducible assumption
    | fail_if_no_progress (with_reducible refine Only.pcTo (by apply PacketStOnly.of <;> first | exact .inl (k.bit (by decide)) | exact .inr rfl) ?_))

theorem State.modPort_only {m : Nat} {r s : State} {x1 : Nat} {x2 : PortSt → PortSt} (k : Covers 0x8000000 m) (h : Only m r s) : Only m r (State.modPort s x1 x2) := by
  unfold State.modPort
  try dsimp only
  repeat' (first
    | with_reducible assumption
    | with_reducible refine State.setPort_only (k.sub (by decide)) ?_)

theorem State.queueAdd_only {m : Nat} {r s : State} {x1 : Nat} {x2 : Nat} {x3 : Nat} (k : Covers 0x800000000 m) (h : Only m r s) : Only m r (State.queueAdd s x1 x2 x3) := by
  unfold State.queueAdd
  try dsimp only
  repeat' (first
    | with_reducible assumption
    | fail_if_no_progress (with_reducible refine Only.pcTo (by apply PacketStOnly.of <;> first | exact .inl (k.bit (by decide)) | exact .inr rfl) ?_))

theorem State.setDom_only {m : Nat} {r s : State} {x1 : Nat} {x2 : TimeDom} (k : Covers 0x3000000000000 m) (h : Only m r s) : Only m r (State.setDom s x1 x2) := by
  unfold State.setDom
  try dsimp only
  repeat' (first
    | with_reducible assumption
    | fail_if_no_progress (with_reducible refine Only.tbTo (by apply TimeStOnly.of <;> first | exact .inl (k.bit (by decide)) | exact .inr rfl) ?_)
    | with_reducible apply Only.ite)

theorem State.dropWindow_only {m : Nat} {r s : State} {x1 : Nat} (k : Covers 0x200000000000000 m) (h : Only m r s) : Only m r (State.dropWindow s x1) := by
  unfold State.dropWindow
  try dsimp only
  repeat' (first
    | with_reducible assumption
    | fail_if_no_progress (with_reducible refine Only.fhTo (by apply FaultStOnly.of <;> first | exact .inl (k.bit (by decide)) | exact .inr rfl) ?_))

theorem State.closeWindow_only {m : Nat} {r s : State} {x1 : Nat} (k : Covers 0x200000000000000000000000000000000000000000000000000000000000000000000000000000000000000000000080000020000000000000700000000000200 m) (h : Only m r s) : Only m r (State.closeWindow s x1) := by
  unfold State.closeWindow
  try dsimp only
  repeat' (first
    | with_reducible assumption
    | with_reducible refine State.logRecord_only (k.sub (by decide)) ?_
    | with_reducible refine State.dropWindow_only (k.sub (by decide)) ?_
    | split)

theorem State.meterAdd_only {m : Nat} {r s : State} {x1 : Nat} {x2 : Nat} {x3 : Nat} (k : Covers 0x1000000000 m) (h : Only m r s) : Only m r (State.meterAdd s x1 x2 x3) := by
  unfold State.meterAdd
  try dsimp only
  repeat' (first
    | with_reducible assumption
    | fail_if_no_progress (with_reducible refine Only.pcTo (by apply PacketStOnly.of <;> first | exact .inl (k.bit (by decide)) | exact .inr rfl) ?_))

/-! ### Machine/Flags.lean -/

theorem State.readyBit_only {m : Nat} {r s : State} {x1 : Nat × Nat} {x2 : Bool} {x3 : Nat} {x4 : Nat} (k : Covers 0x30600000000000000000000000000000000000000000000000000000000000000000000000000000000000000c00000080000020000000000000700000000000200 m) (h : Only m r s) : Only m r (State.readyBit s x1 x2 x3 x4) := by
  unfold State.readyBit
  try dsimp only
  repeat' (first
    | with_reducible assumption
    | with_reducible apply Only.ite
    | with_reducible refine State.wr_only _ _ _ (k.words (by decide)) ?_
    | with_reducible refine State.raise_only (k.sub (by decide)) ?_
    | with_reducible refine State.setErr_only _ _ (k.err (by decide) (by decide)) ?_)

theorem State.settleFull_only {m : Nat} {r s : State} (k : Covers 0x30600000000000000000000000000000000000000000000000000000000000000000000000000000000000000c00000080000020000000000800700000000000200 m) (h : Only m r s) : Only m r (State.settleFull s) := by
  unfold State.settleFull
  try dsimp only
  repeat' (first
    | with_reducible assumption
    | fail_if_no_progress (with_reducible refine Only.fhTo (by apply FaultStOnly.of <;> first | exact .inl (k.bit (by decide)) | exact .inr rfl) ?_)
    | with_reducible refine State.readyBit_only (k.sub (by decide)) ?_)

theorem State.fallBit_only {m : Nat} {r s : State} {x1 : Fn} (k : Covers 0x30600000000000000000000000000000000000000000000000000000000000000000000000000000000000000c00000080000020000000000000700000000000200 m) (h : Only m r s) : Only m r (State.fallBit s x1) := by
  unfold State.fallBit
  try dsimp only
  repeat' (first
    | with_reducible assumption
    | with_reducible refine State.readyBit_only (k.sub (by decide)) ?_)

theorem State.fallWith_only {m : Nat} {r s : State} {x1 : Fn} {x2 : Nat} (k : Covers 0x30600000000000000000000000000000000000000000000000000000000000000000000000000000000000000c00000080000020000000000000700000000000200 m) (h : Only m r s) : Only m r (State.fallWith s x1 x2) := by
  induction x2 generalizing s x1 with
  | zero => rw [State.fallWith]; exact State.fallBit_only (k.sub (by decide)) h
  | succ n ih =>
    rw [State.fallWith]
    try dsimp only
    repeat' (first
      | (intro _; try dsimp only)
      | with_reducible assumption
      | with_reducible apply ih
      | with_reducible apply Only.foldl
      | with_reducible apply Only.ite
      | with_reducible refine State.fallBit_only (k.sub (by decide)) ?_)

theorem State.fall_only {m : Nat} {r s : State} {x1 : Fn} (k : Covers 0x30600000000000000000000000000000000000000000000000000000000000000000000000000000000000000c00000080000020000000000800700000000000200 m) (h : Only m r s) : Only m r (State.fall s x1) := by
  unfold State.fall
  try dsimp only
  repeat' (first
    | with_reducible assumption
    | with_reducible refine State.settleFull_only (k.sub (by decide)) ?_
    | with_reducible refine State.fallWith_only (k.sub (by decide)) ?_)

theorem State.riseBit_only {m : Nat} {r s : State} {x1 : Fn} (k : Covers 0x30600000000000000000000000000000000000000000000000000000000000000000000000000000000000000c00000080000020000000000000700000000000200 m) (h : Only m r s) : Only m r (State.riseBit s x1) := by
  unfold State.riseBit
  try dsimp only
  repeat' (first
    | with_reducible assumption
    | with_reducible refine State.readyBit_only (k.sub (by decide)) ?_)

theorem State.rise_only {m : Nat} {r s : State} {x1 : Fn} (k : Covers 0x30600000000000000000000000000000000000000000000000000000000000000000000000000000000000000c00000080000020000000000800700000000000200 m) (h : Only m r s) : Only m r (State.rise s x1) := by
  unfold State.rise
  try dsimp only
  repeat' (first
    | with_reducible assumption
    | with_reducible refine State.settleFull_only (k.sub (by decide)) ?_
    | with_reducible refine State.riseBit_only (k.sub (by decide)) ?_)

theorem State.readCompanion_only {m : Nat} {r s : State} {x1 : Nat} (k : Covers 0xffffffffffffffffffffffffffffffffffffffffffffffffffffffffffffffffffffffffffffffffffffffffffffffffffffffffffffffff00000000000000000000000000000000 m) (h : Only m r s) : Only m r (State.readCompanion s x1).2 := by
  unfold State.readCompanion
  exact State.setWord_only _ _ (owns_all (k.sub (by decide)) _) h

/-! ### Machine/Bridge.lean -/

theorem State.setBridge_only {m : Nat} {r s : State} {x1 : Nat} {x2 : Bridge} (k : Covers 0x80000000000000000 m) (h : Only m r s) : Only m r (State.setBridge s x1 x2) := by
  unfold State.setBridge
  try dsimp only
  repeat' (first
    | with_reducible assumption
    | fail_if_no_progress (with_reducible refine Only.fhTo (by apply FaultStOnly.of <;> first | exact .inl (k.bit (by decide)) | exact .inr rfl) ?_))

theorem State.holdAccess_only {m : Nat} {r s : State} {x1 : Nat} {x2 : Crossing} (k : Covers 0x80000000000000000 m) (h : Only m r s) : Only m r (State.holdAccess s x1 x2) := by
  unfold State.holdAccess
  try dsimp only
  repeat' (first
    | with_reducible assumption
    | with_reducible refine State.setBridge_only (k.sub (by decide)) ?_)

theorem State.acrossTo_only {m : Nat} {r s : State} {x1 : Nat} {x2 : Crossing} {x3 : State → State} (k : Covers 0x80000000000000000 m) (hx3 : ∀ t, Only m r t → Only m r (x3 t)) (h : Only m r s) : Only m r (State.acrossTo s x1 x2 x3) := by
  unfold State.acrossTo
  try dsimp only
  repeat' (first
    | with_reducible apply hx3
    | with_reducible assumption
    | with_reducible refine State.holdAccess_only (k.sub (by decide)) ?_
    | split)

/-! ### Machine/Host.lean -/

theorem State.discardWrite_only {m : Nat} {r s : State} {x1 : Nat} {x2 : Nat} {x3 : Word} (k : Covers 0x30600000000000000000000000000000000000000000000000000000000000000000000000000000000000000000000080000020000000000000700000000000200 m) (h : Only m r s) : Only m r (State.discardWrite s x1 x2 x3) := by
  unfold State.discardWrite
  try dsimp only
  repeat' (first
    | with_reducible assumption
    | with_reducible refine State.raise_only (k.sub (by decide)) ?_)

theorem State.onReadyDie_only {m : Nat} {r s : State} {x1 : Nat} {x2 : Word} {x3 : State → State} (k : Covers 0x30600000000000000000000000000000000000000000000000000000000000000000000000000000000000000000000080000020000000000080700000000000200 m) (hx3 : ∀ t, Only m r t → Only m r (x3 t)) (h : Only m r s) : Only m r (State.onReadyDie s x1 x2 x3) := by
  unfold State.onReadyDie
  try dsimp only
  repeat' (first
    | (intro _; try dsimp only)
    | with_reducible apply hx3
    | with_reducible assumption
    | with_reducible apply Only.ite
    | with_reducible refine State.acrossTo_only (k.sub (by decide)) ?_ ?_
    | with_reducible refine State.discardWrite_only (k.sub (by decide)) ?_)

theorem State.setRing_only {m : Nat} {r s : State} {x1 : Nat} {x2 : Ring} (k : Covers 0x1 m) (h : Only m r s) : Only m r (State.setRing s x1 x2) := by
  unfold State.setRing
  try dsimp only
  repeat' (first
    | with_reducible assumption
    | fail_if_no_progress (with_reducible refine Only.hiTo (by apply HostStOnly.of <;> first | exact .inl (k.bit (by decide)) | exact .inr rfl) ?_))

theorem State.ringInterrupt_only {m : Nat} {r s : State} {x1 : Nat} (k : Covers 0x80000020000000000000000000000000201 m) (h : Only m r s) : Only m r (State.ringInterrupt s x1) := by
  unfold State.ringInterrupt
  try dsimp only
  repeat' (first
    | with_reducible assumption
    | with_reducible refine State.sendVector_only (k.sub (by decide)) ?_
    | with_reducible refine State.setRing_only (k.sub (by decide)) ?_)

theorem State.settleCount_only {m : Nat} {r s : State} {x1 : Nat} (k : Covers 0x80000020000000000000000000000000201 m) (h : Only m r s) : Only m r (State.settleCount s x1) := by
  unfold State.settleCount
  try dsimp only
  repeat' (first
    | with_reducible assumption
    | with_reducible apply Only.ite
    | with_reducible refine State.ringInterrupt_only (k.sub (by decide)) ?_)

theorem State.settleQuiesced_only {m : Nat} {r s : State} {x1 : Nat} (k : Covers 0x10000000000000000000000000000000000 m) (h : Only m r s) : Only m r (State.settleQuiesced s x1) := by
  unfold State.settleQuiesced
  try dsimp only
  repeat' (first
    | with_reducible assumption
    | with_reducible refine State.wr_only _ _ _ (k.words (by decide)) ?_)

theorem State.dropDesc_only {m : Nat} {r s : State} {x1 : Desc} (k : Covers 0x2 m) (h : Only m r s) : Only m r (State.dropDesc s x1) := by
  unfold State.dropDesc
  try dsimp only
  repeat' (first
    | with_reducible assumption
    | fail_if_no_progress (with_reducible refine Only.hiTo (by apply HostStOnly.of <;> first | exact .inl (k.bit (by decide)) | exact .inr rfl) ?_))

theorem State.complete_only {m : Nat} {r s : State} {x1 : Desc} {x2 : Status} {x3 : Nat} {x4 : Nat} (k : Covers 0x90000020000000000000000000000000203 m) (h : Only m r s) : Only m r (State.complete s x1 x2 x3 x4) := by
  unfold State.complete
  try dsimp only
  repeat' (first
    | with_reducible assumption
    | with_reducible apply Only.ite
    | with_reducible refine State.dropDesc_only (k.sub (by decide)) ?_
    | with_reducible refine State.toHost_only (k.sub (by decide)) ?_
    | with_reducible refine State.setRing_only (k.sub (by decide)) ?_
    | with_reducible refine State.settleQuiesced_only (k.sub (by decide)) ?_
    | with_reducible refine State.ringInterrupt_only (k.sub (by decide)) ?_)

theorem State.abortUnstarted_only {m : Nat} {r s : State} {x1 : Nat} (k : Covers 0x90000020000000000000000000000000203 m) (h : Only m r s) : Only m r (State.abortUnstarted s x1) := by
  unfold State.abortUnstarted
  try dsimp only
  repeat' (first
    | (intro _; try dsimp only)
    | with_reducible assumption
    | with_reducible apply Only.foldl
    | with_reducible refine State.complete_only (k.sub (by decide)) ?_)

theorem ringCfgWrite_only {m : Nat} {r s : State} {x0 : Nat} {x1 : Word} (k : Covers 0x30600000000000000000000000000000000000000000000000000000000000000000000000000000000000000000000098000020000000000000700000000000203 m) (h : Only m r s) : Only m r (ringCfgWrite x0 x1 s) := by
  unfold ringCfgWrite
  try dsimp only
  repeat' (first
    | with_reducible assumption
    | with_reducible apply Only.ite
    | with_reducible refine State.plainWrite_only _ _ _ (k.words (by decide)) ?_
    | with_reducible refine State.settleCount_only (k.sub (by decide)) ?_
    | with_reducible refine State.settleQuiesced_only (k.sub (by decide)) ?_
    | with_reducible refine State.wr_only _ _ _ (k.words (by decide)) ?_
    | with_reducible refine State.setRing_only (k.sub (by decide)) ?_
    | with_reducible refine State.raise_only (k.sub (by decide)) ?_
    | with_reducible refine State.setErr_only _ _ (k.err (by decide) (by decide)) ?_
    | with_reducible refine State.abortUnstarted_only (k.sub (by decide)) ?_)

theorem State.descWrite_only {m : Nat} {r s : State} {x1 : Desc} {x2 : Nat} {x3 : List Byte} (k : Covers 0x20000000000000000000000000200 m) (h : Only m r s) : Only m r (State.descWrite s x1 x2 x3) := by
  unfold State.descWrite
  try dsimp only
  repeat' (first
    | with_reducible assumption
    | with_reducible apply Only.ite
    | with_reducible refine State.toHost_only (k.sub (by decide)) ?_)

theorem State.noteChange_only {m : Nat} {r s : State} {x1 : Nat} (k : Covers 0x80000000000 m) (h : Only m r s) : Only m r (State.noteChange s x1) := by
  unfold State.noteChange
  try dsimp only
  repeat' (first
    | with_reducible assumption
    | fail_if_no_progress (with_reducible refine Only.ftTo (by apply TableStOnly.of <;> first | exact .inl (k.bit (by decide)) | exact .inr rfl) ?_))

theorem State.fetchOne_only {m : Nat} {r s : State} {x1 : Nat} {x2 : List Byte} (k : Covers 0x90000020000000000000000000000000207 m) (h : Only m r s) : Only m r (State.fetchOne s x1 x2) := by
  unfold State.fetchOne
  try dsimp only
  repeat' (first
    | with_reducible assumption
    | fail_if_no_progress (with_reducible refine Only.hiTo (by apply HostStOnly.of <;> first | exact .inl (k.bit (by decide)) | exact .inr rfl) ?_)
    | with_reducible refine State.wr_only _ _ _ (k.words (by decide)) ?_
    | with_reducible refine State.complete_only (k.sub (by decide)) ?_
    | split)

theorem State.updateDesc_only {m : Nat} {r s : State} {x1 : Desc} {x2 : Desc} (k : Covers 0x2 m) (h : Only m r s) : Only m r (State.updateDesc s x1 x2) := by
  unfold State.updateDesc
  try dsimp only
  repeat' (first
    | with_reducible assumption
    | fail_if_no_progress (with_reducible refine Only.hiTo (by apply HostStOnly.of <;> first | exact .inl (k.bit (by decide)) | exact .inr rfl) ?_))

theorem cqHead_only {m : Nat} {r s : State} {x0 : Nat} {x1 : Nat} (k : Covers 0x30600000000000000000000000000000000000000000000000000000000000000000000000000000000000000000000090000020000000000000700000000000201 m) (h : Only m r s) : Only m r (cqHead x0 x1 s) := by
  unfold cqHead
  try dsimp only
  repeat' (first
    | with_reducible assumption
    | with_reducible apply Only.ite
    | with_reducible refine State.setRing_only (k.sub (by decide)) ?_
    | with_reducible refine State.ringInterrupt_only (k.sub (by decide)) ?_
    | with_reducible refine State.raise_only (k.sub (by decide)) ?_
    | with_reducible refine State.setErr_only _ _ (k.err (by decide) (by decide)) ?_)

theorem descriptorFetch.fetchFailed_only {m : Nat} {r s : State} {x0 : Nat} (k : Covers 0x30600000000000000000000000000000000000000000000000000000000000000000000000000000000000000000000090000020000000000000700000000000201 m) (h : Only m r s) : Only m r (descriptorFetch.fetchFailed x0 s) := by
  unfold descriptorFetch.fetchFailed
  try dsimp only
  repeat' (first
    | with_reducible assumption
    | with_reducible refine State.raise_only (k.sub (by decide)) ?_
    | with_reducible refine State.setErr_only _ _ (k.err (by decide) (by decide)) ?_
    | with_reducible refine State.setRing_only (k.sub (by decide)) ?_)

theorem descriptorFetch_only {m : Nat} {r s : State} {x0 : Nat} {x1 : HostData} (k : Covers 0x30600000000000000000000000000000000000000000000000000000000000000000000000000000000000000000000090000020000000000000700000000000207 m) (h : Only m r s) : Only m r (descriptorFetch x0 x1 s) := by
  unfold descriptorFetch
  try dsimp only
  repeat' (first
    | (intro _; try dsimp only)
    | with_reducible assumption
    | with_reducible apply Only.foldl
    | with_reducible apply Only.ite
    | with_reducible refine descriptorFetch.fetchFailed_only (k.sub (by decide)) ?_
    | with_reducible refine State.fetchOne_only (k.sub (by decide)) ?_
    | split)

theorem sqTail_only {m : Nat} {r s : State} {x0 : Nat} {x1 : Nat} (k : Covers 0x30600000000000000000000000000000000000000000000000000000000000000000000000000000000000000000000090000020000000000000700000000000201 m) (h : Only m r s) : Only m r (sqTail x0 x1 s) := by
  unfold sqTail
  try dsimp only
  repeat' (first
    | with_reducible assumption
    | with_reducible apply Only.ite
    | with_reducible refine State.setRing_only (k.sub (by decide)) ?_
    | with_reducible refine State.raise_only (k.sub (by decide)) ?_
    | with_reducible refine State.setErr_only _ _ (k.err (by decide) (by decide)) ?_)

theorem doorbellWrite_only {m : Nat} {r s : State} {x0 : Nat} {x1 : Nat} {x2 : Nat} {x3 : Nat} (k : Covers 0x30600000000000000000000000000000000000000000000000000000000000000000000000000000000000000000000090000020000000000000700000000000201 m) (h : Only m r s) : Only m r (doorbellWrite x0 x1 x2 x3 s) := by
  unfold doorbellWrite
  try dsimp only
  repeat' (first
    | with_reducible assumption
    | with_reducible apply Only.ite
    | with_reducible refine sqTail_only (k.sub (by decide)) ?_
    | with_reducible refine cqHead_only (k.sub (by decide)) ?_)

theorem whenLive_only {m : Nat} {r s : State} {x0 : State → State} (k : Covers 0x0 m) (hx0 : ∀ t, Only m r t → Only m r (x0 t)) (h : Only m r s) : OnlyRes m r (whenLive x0 s) := by
  unfold whenLive
  try dsimp only
  repeat' (first
    | with_reducible apply hx0
    | with_reducible assumption
    | with_reducible apply Only.ite
    | with_reducible apply OnlyRes.next)

theorem resumeDesc_only {m : Nat} {r s : State} {x0 : Desc} {x1 : Desc → ImageTest} {x2 : Desc → State → State} (k : Covers 0x90000020000000000000000000000000203 m) (hx2 : ∀ a0 t, Only m r t → Only m r (x2 a0 t)) (h : Only m r s) : Only m r (resumeDesc x0 x1 x2 s) := by
  unfold resumeDesc
  try dsimp only
  repeat' (first
    | with_reducible apply hx2
    | with_reducible assumption
    | with_reducible apply Only.ite
    | with_reducible refine State.updateDesc_only (k.sub (by decide)) ?_
    | with_reducible refine State.complete_only (k.sub (by decide)) ?_
    | split)

theorem startDesc_only {m : Nat} {r s : State} {x0 : Desc} {x1 : Bool} {x2 : Desc → ImageTest} {x3 : Desc → State → State} (k : Covers 0x90000020000000000000000000000000203 m) (hx3 : ∀ a0 t, Only m r t → Only m r (x3 a0 t)) (h : Only m r s) : Only m r (startDesc x0 x1 x2 x3 s) := by
  unfold startDesc
  try dsimp only
  repeat' (first
    | with_reducible apply hx3
    | with_reducible assumption
    | with_reducible apply Only.ite
    | with_reducible refine State.updateDesc_only (k.sub (by decide)) ?_
    | with_reducible refine State.complete_only (k.sub (by decide)) ?_
    | split)

theorem runImage_only {m : Nat} {r s : State} {x0 : Nat} {x1 : Desc → Bool} {x2 : Bool} {x3 : Desc → ImageTest} {x4 : Desc → State → State} (k : Covers 0x90000020000000000000000000000000203 m) (hx4 : ∀ a0 t, Only m r t → Only m r (x4 a0 t)) (h : Only m r s) : Only m r (runImage x0 x1 x2 x3 x4 s) := by
  unfold runImage
  try dsimp only
  repeat' (first
    | (intro _; try dsimp only)
    | with_reducible apply hx4
    | with_reducible assumption
    | with_reducible apply Only.ite
    | with_reducible refine resumeDesc_only (k.sub (by decide)) ?_ ?_
    | with_reducible refine startDesc_only (k.sub (by decide)) ?_ ?_
    | split)

theorem runDesc_only {m : Nat} {r s : State} {x0 : Nat} {x1 : Desc → Bool} {x2 : Bool} {x3 : Desc → State → State} (k : Covers 0x90000020000000000000000000000000203 m) (hx3 : ∀ a0 t, Only m r t → Only m r (x3 a0 t)) (h : Only m r s) : Only m r (runDesc x0 x1 x2 x3 s) := by
  unfold runDesc
  try dsimp only
  repeat' (first
    | (intro _; try dsimp only)
    | with_reducible apply hx3
    | with_reducible assumption
    | with_reducible refine runImage_only (k.sub (by decide)) ?_ ?_)

theorem runOpcode_only {m : Nat} {r s : State} {x0 : Nat} {x1 : Nat} {x2 : Bool} {x3 : Desc → State → State} (k : Covers 0x90000020000000000000000000000000203 m) (hx3 : ∀ a0 t, Only m r t → Only m r (x3 a0 t)) (h : Only m r s) : OnlyRes m r (runOpcode x0 x1 x2 x3 s) := by
  unfold runOpcode
  try dsimp only
  repeat' (first
    | (intro _; try dsimp only)
    | with_reducible apply hx3
    | with_reducible assumption
    | with_reducible refine whenLive_only (k.sub (by decide)) ?_ ?_
    | with_reducible refine runDesc_only (k.sub (by decide)) ?_ ?_)

theorem execNop_only {m : Nat} {r s : State} {x0 : Fin 4096} (k : Covers 0x90000020000000000000000000000000203 m) (h : Only m r s) : OnlyRes m r (execNop x0 s) := by
  unfold execNop
  try dsimp only
  repeat' (first
    | (intro _; try dsimp only)
    | with_reducible assumption
    | with_reducible refine runOpcode_only (k.sub (by decide)) ?_ ?_
    | with_reducible refine State.complete_only (k.sub (by decide)) ?_)

theorem runImageOpcode_only {m : Nat} {r s : State} {x0 : Nat} {x1 : Nat} {x2 : Desc → ImageTest} {x3 : Desc → State → State} (k : Covers 0x90000020000000000000000000000000203 m) (hx3 : ∀ a0 t, Only m r t → Only m r (x3 a0 t)) (h : Only m r s) : OnlyRes m r (runImageOpcode x0 x1 x2 x3 s) := by
  unfold runImageOpcode
  try dsimp only
  repeat' (first
    | (intro _; try dsimp only)
    | with_reducible apply hx3
    | with_reducible assumption
    | with_reducible refine whenLive_only (k.sub (by decide)) ?_ ?_
    | with_reducible refine runImage_only (k.sub (by decide)) ?_ ?_)

theorem whenBar_only {m : Nat} {r s : State} {x0 : State → State} (k : Covers 0x20000000000000000000000000000 m) (hx0 : ∀ t, Only m r t → Only m r (x0 t)) (h : Only m r s) : OnlyRes m r (whenBar x0 s) := by
  unfold whenBar
  try dsimp only
  repeat' (first
    | with_reducible apply hx0
    | with_reducible assumption
    | with_reducible apply Only.ite
    | with_reducible apply OnlyRes.next
    | with_reducible refine State.emit_only _ (k.bit (i := 113) (by decide)) ?_)

theorem execSqTail_only {m : Nat} {r s : State} {x0 : Fin 4096} {x1 : BitVec 32} (k : Covers 0x30600000000000000000000000000000000000000000000000000000000000000000000000000000000000000000000090000020000000000000700000000000201 m) (h : Only m r s) : OnlyRes m r (execSqTail x0 x1 s) := by
  unfold execSqTail
  try dsimp only
  repeat' (first
    | (intro _; try dsimp only)
    | with_reducible assumption
    | with_reducible refine whenBar_only (k.sub (by decide)) ?_ ?_
    | with_reducible refine doorbellWrite_only (k.sub (by decide)) ?_)

theorem execCqHead_only {m : Nat} {r s : State} {x0 : Fin 4096} {x1 : Word} (k : Covers 0x30600000000000000000000000000000000000000000000000000000000000000000000000000000000000000000000090000020000000000000700000000000201 m) (h : Only m r s) : OnlyRes m r (execCqHead x0 x1 s) := by
  unfold execCqHead
  try dsimp only
  repeat' (first
    | (intro _; try dsimp only)
    | with_reducible assumption
    | with_reducible refine whenBar_only (k.sub (by decide)) ?_ ?_
    | with_reducible refine doorbellWrite_only (k.sub (by decide)) ?_)

theorem execDescriptorFetch_only {m : Nat} {r s : State} {x0 : Fin 4096} {x1 : HostData} (k : Covers 0x30600000000000000000000000000000000000000000000000000000000000000000000000000000000000000000000090000020000000000000700000000000207 m) (h : Only m r s) : OnlyRes m r (execDescriptorFetch x0 x1 s) := by
  unfold execDescriptorFetch
  try dsimp only
  repeat' (first
    | (intro _; try dsimp only)
    | with_reducible assumption
    | with_reducible refine whenLive_only (k.sub (by decide)) ?_ ?_
    | with_reducible refine descriptorFetch_only (k.sub (by decide)) ?_)

theorem execCqModerationTimeout_only {m : Nat} {r s : State} {x0 : Fin 4096} (k : Covers 0x80000020000000000000000000000000201 m) (h : Only m r s) : OnlyRes m r (execCqModerationTimeout x0 s) := by
  unfold execCqModerationTimeout
  try dsimp only
  repeat' (first
    | (intro _; try dsimp only)
    | with_reducible assumption
    | with_reducible apply Only.ite
    | with_reducible refine whenLive_only (k.sub (by decide)) ?_ ?_
    | with_reducible refine State.ringInterrupt_only (k.sub (by decide)) ?_)

theorem execRingEnable_only {m : Nat} {r s : State} {x0 : Fin 4096} {x1 : Word} (k : Covers 0x30600000000000000000000000000000000000000000000000000000000000000000000000000000000000000000000098000020000000000000700000000000203 m) (h : Only m r s) : OnlyRes m r (execRingEnable x0 x1 s) := by
  unfold execRingEnable
  try dsimp only
  repeat' (first
    | (intro _; try dsimp only)
    | with_reducible assumption
    | with_reducible refine whenBar_only (k.sub (by decide)) ?_ ?_
    | with_reducible refine ringCfgWrite_only (k.sub (by decide)) ?_)

theorem execRingDisable_only {m : Nat} {r s : State} {x0 : Fin 4096} {x1 : Word} (k : Covers 0x30600000000000000000000000000000000000000000000000000000000000000000000000000000000000000000000098000020000000000000700000000000203 m) (h : Only m r s) : OnlyRes m r (execRingDisable x0 x1 s) := by
  unfold execRingDisable
  try dsimp only
  repeat' (first
    | (intro _; try dsimp only)
    | with_reducible assumption
    | with_reducible refine whenBar_only (k.sub (by decide)) ?_ ?_
    | with_reducible refine ringCfgWrite_only (k.sub (by decide)) ?_)

theorem whenReg_only {m : Nat} {r s : State} {x0 : Nat} {x1 : Word} {x2 : State → State} (k : Covers 0x30600000000000000000000000000000000000000000000000000000000000000000000000000000000000000000000080000020000000000080700000000000200 m) (hx2 : ∀ t, Only m r t → Only m r (x2 t)) (h : Only m r s) : OnlyRes m r (whenReg x0 x1 x2 s) := by
  unfold whenReg
  try dsimp only
  repeat' (first
    | (intro _; try dsimp only)
    | with_reducible apply hx2
    | with_reducible assumption
    | with_reducible refine whenBar_only (k.sub (by decide)) ?_ ?_
    | with_reducible refine State.onReadyDie_only (k.sub (by decide)) ?_ ?_)

/-! ### Machine/Tables.lean -/

theorem State.setSlot_only {m : Nat} {r s : State} {x1 : Nat} {x2 : Nat} {x3 : Nat} {x4 : List Byte} (k : Covers 0x2000000000 m) (h : Only m r s) : Only m r (State.setSlot s x1 x2 x3 x4) := by
  unfold State.setSlot
  try dsimp only
  repeat' (first
    | with_reducible assumption
    | fail_if_no_progress (with_reducible refine Only.ftTo (by apply TableStOnly.of <;> first | exact .inl (k.bit (by decide)) | exact .inr rfl) ?_))

theorem ageCfg_only {m : Nat} {r s : State} {x0 : Word} (k : Covers 0x200000000000000000000000000000000000000000000000000000000 m) (h : Only m r s) : Only m r (ageCfg x0 s) := by
  unfold ageCfg
  try dsimp only
  repeat' (first
    | with_reducible assumption
    | with_reducible apply Only.ite
    | with_reducible refine State.plainWrite_only _ _ _ (k.words (by decide)) ?_)

theorem State.recount_only {m : Nat} {r s : State} {x1 : Nat} (k : Covers 0x10000000000000000000000000000000000000000000000000000000000 m) (h : Only m r s) : Only m r (State.recount s x1) := by
  unfold State.recount
  try dsimp only
  repeat' (first
    | with_reducible assumption
    | with_reducible refine State.wr_only _ _ _ (k.words (by decide)) ?_)

theorem State.clearTable_only {m : Nat} {r s : State} {x1 : Nat} (k : Covers 0x10000000000000000000000000000000000000000000000002000000000 m) (h : Only m r s) : Only m r (State.clearTable s x1) := by
  unfold State.clearTable
  try dsimp only
  repeat' (first
    | with_reducible assumption
    | fail_if_no_progress (with_reducible refine Only.ftTo (by apply TableStOnly.of <;> first | exact .inl (k.bit (by decide)) | exact .inr rfl) ?_)
    | with_reducible refine State.recount_only (k.sub (by decide)) ?_)

theorem pipeCtl_only {m : Nat} {r s : State} {x0 : Nat} {x1 : Word} (k : Covers 0x1c000000000000000000000000000000000000000000000002000000000 m) (h : Only m r s) : Only m r (pipeCtl x0 x1 s) := by
  unfold pipeCtl
  try dsimp only
  repeat' (first
    | with_reducible assumption
    | with_reducible apply Only.ite
    | with_reducible refine State.plainWrite_only _ _ _ (k.words (by decide)) ?_
    | with_reducible refine State.wr_only _ _ _ (k.words (by decide)) ?_
    | with_reducible refine State.clearTable_only (k.sub (by decide)) ?_)

theorem seedWrite_only {m : Nat} {r s : State} {x0 : Reg} {x1 : Nat} {x2 : Word} (k : Covers 0x30600000000000000000000000000000000000000000000000000000000000000000000000000000000000000000000080000020000000000000700000000000200 m) (g0 : Grants m x0) (h : Only m r s) : Only m r (seedWrite x0 x1 x2 s) := by
  unfold seedWrite
  try dsimp only
  repeat' (first
    | with_reducible assumption
    | with_reducible apply Only.ite
    | with_reducible refine State.plainWrite_only _ _ _ (by assumption) ?_
    | with_reducible refine State.refuseWrite_only (k.sub (by decide)) ?_)

theorem learnCfg_only {m : Nat} {r s : State} {x0 : Word} (k : Covers 0x3c00000000000000000000000000000000000000000000000000000000000 m) (h : Only m r s) : Only m r (learnCfg x0 s) := by
  unfold learnCfg
  try dsimp only
  repeat' (first
    | with_reducible assumption
    | with_reducible apply Only.ite
    | with_reducible refine State.plainWrite_only _ _ _ (k.words (by decide)) ?_
    | with_reducible refine State.wr_only _ _ _ (k.words (by decide)) ?_
    | with_reducible refine State.setErr_only _ _ (k.err (by decide) (by decide)) ?_)

theorem learnCons_only {m : Nat} {r s : State} {x0 : Word} (k : Covers 0x30600000000000000000000000000000000000000000000000000000000000000000001000000000000000000000000080000020000000000000700000000000200 m) (h : Only m r s) : Only m r (learnCons x0 s) := by
  unfold learnCons
  try dsimp only
  repeat' (first
    | with_reducible assumption
    | with_reducible apply Only.ite
    | with_reducible refine State.plainWrite_only _ _ _ (k.words (by decide)) ?_
    | with_reducible refine State.refuseWrite_only (k.sub (by decide)) ?_)

theorem State.learnRecord_only {m : Nat} {r s : State} {x1 : Nat} {x2 : Nat} {x3 : Nat} {x4 : Nat} {x5 : Nat} (k : Covers 0x2800000000000000000000000000000020000000000000000000000000200 m) (h : Only m r s) : Only m r (State.learnRecord s x1 x2 x3 x4 x5) := by
  unfold State.learnRecord
  try dsimp only
  repeat' (first
    | with_reducible assumption
    | with_reducible apply Only.ite
    | with_reducible refine State.setErr_only _ _ (k.err (by decide) (by decide)) ?_
    | with_reducible refine State.addWrap_only _ _ _ (k.words (by decide)) ?_
    | with_reducible refine State.toHost_only (k.sub (by decide)) ?_)

theorem State.conflict_only {m : Nat} {r s : State} {x1 : Nat} {x2 : Nat} {x3 : Nat} {x4 : Nat} (k : Covers 0x2800000000000000000000000000000020000000000000000010000000200 m) (h : Only m r s) : Only m r (State.conflict s x1 x2 x3 x4) := by
  unfold State.conflict
  try dsimp only
  repeat' (first
    | with_reducible assumption
    | fail_if_no_progress (with_reducible refine Only.ftTo (by apply TableStOnly.of <;> first | exact .inl (k.bit (by decide)) | exact .inr rfl) ?_)
    | with_reducible apply Only.ite
    | with_reducible refine State.learnRecord_only (k.sub (by decide)) ?_)

theorem State.countChange_only {m : Nat} {r s : State} {x1 : State} {x2 : Nat} (k : Covers 0x80000000000 m) (hx1 : Only m r x1) (h : Only m r s) : Only m r (State.countChange s x1 x2) := by
  unfold State.countChange
  try dsimp only
  repeat' (first
    | with_reducible assumption
    | with_reducible apply Only.ite
    | with_reducible refine State.noteChange_only (k.sub (by decide)) ?_)

theorem State.deleteAll_only {m : Nat} {r s : State} {x1 : List Byte} {x2 : Nat} (k : Covers 0x10000000000000000000000000000000000000000000000082000000000 m) (h : Only m r s) : Only m r (State.deleteAll s x1 x2).2 := by
  unfold State.deleteAll
  refine Only.foldlPair h ?_
  intro acc p h
  try dsimp only
  repeat' (first
    | with_reducible assumption
    | with_reducible apply Only.ite
    | with_reducible refine State.setSlot_only (k.sub (by decide)) ?_
    | with_reducible refine State.recount_only (k.sub (by decide)) ?_
    | with_reducible refine State.noteChange_only (k.sub (by decide)) ?_
    | split)

theorem State.entryRecord_only {m : Nat} {r s : State} {x1 : Nat} {x2 : Nat} {x3 : Nat} {x4 : List Byte} (k : Covers 0x2800000000000000000000000000000020000000000000000000000000200 m) (h : Only m r s) : Only m r (State.entryRecord s x1 x2 x3 x4) := by
  unfold State.entryRecord
  try dsimp only
  repeat' (first
    | with_reducible assumption
    | with_reducible refine State.learnRecord_only (k.sub (by decide)) ?_)

theorem State.touch_only {m : Nat} {r s : State} {x1 : Nat} {x2 : List Byte} (k : Covers 0x2000000000 m) (h : Only m r s) : Only m r (State.touch s x1 x2) := by
  unfold State.touch
  try dsimp only
  repeat' (first
    | with_reducible assumption
    | with_reducible apply Only.ite
    | with_reducible refine State.setSlot_only (k.sub (by decide)) ?_
    | split)

theorem State.shiftPath_only {m : Nat} {r s : State} {x1 : Nat} {x2 : List (Nat × Nat)} (k : Covers 0x2000000000 m) (h : Only m r s) : Only m r (State.shiftPath s x1 x2) := by
  induction x2 with
  | nil => exact h
  | cons a l ih =>
    cases l with
    | nil => exact h
    | cons b l =>
      rw [State.shiftPath]
      exact State.setSlot_only (k.sub (by decide)) (State.setSlot_only (k.sub (by decide)) ih)

theorem State.insertEntry_only {m : Nat} {r s : State} {x1 : Nat} {x2 : List Byte} {x3 : Bool} {x4 : Bool} (k : Covers 0x30600000000000000000000000000000000000000000000000000000000000000000002808000000000000000000000080000020000000000000700002000000200 m) (h : Only m r s) : Only m r (State.insertEntry s x1 x2 x3 x4).2 := by
  unfold State.insertEntry
  try dsimp only
  repeat' (first
    | with_reducible assumption
    | with_reducible refine State.setSlot_only (k.sub (by decide)) ?_
    | with_reducible refine State.shiftPath_only (k.sub (by decide)) ?_
    | with_reducible refine State.entryRecord_only (k.sub (by decide)) ?_
    | with_reducible refine State.setErr_only _ _ (k.err (by decide) (by decide)) ?_
    | with_reducible refine State.raise_only (k.sub (by decide)) ?_
    | split)

theorem State.insertEntry_only_eq {m : Nat} {r s : State} {x1 : Nat} {x2 : List Byte} {x3 : Bool} {x4 : Bool} (k : Covers 0x30600000000000000000000000000000000000000000000000000000000000000000002808000000000000000000000080000020000000000000700002000000200 m) {a} {t : State} (e : State.insertEntry s x1 x2 x3 x4 = (a, t)) (h : Only m r s) : Only m r t := by
  have w : Only m r (State.insertEntry s x1 x2 x3 x4).2 := State.insertEntry_only k h
  rw [e] at w
  exact w

theorem State.insertAll_only {m : Nat} {r s : State} {x1 : List Byte} {x2 : Bool} {x3 : Nat} (k : Covers 0x30600000000000000000000000000000000000000000000000000000000000000000002818000000000000000000000080000020000000000000700082000000200 m) (h : Only m r s) : Only m r (State.insertAll s x1 x2 x3).2 := by
  unfold State.insertAll
  refine Only.foldlPair h ?_
  intro acc p h
  try dsimp only
  repeat' (first
    | with_reducible assumption
    | with_reducible refine State.insertEntry_only_eq (k.sub (by decide)) (by assumption) ?_
    | with_reducible refine State.recount_only (k.sub (by decide)) ?_
    | with_reducible refine State.countChange_only (k.sub (by decide)) ?_ ?_
    | split)

theorem State.recheckLearn_only {m : Nat} {r s : State} (k : Covers 0x2400000000000000000000000000000000000000000000000000000000000 m) (h : Only m r s) : Only m r (State.recheckLearn s) := by
  unfold State.recheckLearn
  try dsimp only
  repeat' (first
    | with_reducible assumption
    | with_reducible apply Only.ite
    | with_reducible refine State.setErr_only _ _ (k.err (by decide) (by decide)) ?_
    | with_reducible refine State.wr_only _ _ _ (k.words (by decide)) ?_)

theorem ageVisit_only {m : Nat} {r s : State} {x0 : Nat} {x1 : Nat} {x2 : Nat} (k : Covers 0x2810000000000000000000000000000020000000000000000002000000200 m) (h : Only m r s) : Only m r (ageVisit x0 x1 x2 s) := by
  unfold ageVisit
  try dsimp only
  repeat' (first
    | with_reducible assumption
    | with_reducible apply Only.ite
    | with_reducible refine State.setSlot_only (k.sub (by decide)) ?_
    | with_reducible refine State.entryRecord_only (k.sub (by decide)) ?_
    | with_reducible refine State.recount_only (k.sub (by decide)) ?_)

theorem execFtInsert_only {m : Nat} {r s : State} {x0 : Fin 4096} {x1 : HostData} (k : Covers 0x30600000000000000000000000000000000000000000000000000000000000000000002818000000000000000000000090000020000000000000700082000000203 m) (h : Only m r s) : OnlyRes m r (execFtInsert x0 x1 s) := by
  unfold execFtInsert
  try dsimp only
  repeat' (first
    | (intro _; try dsimp only)
    | with_reducible assumption
    | with_reducible refine runImageOpcode_only (k.sub (by decide)) ?_ ?_
    | with_reducible refine State.complete_only (k.sub (by decide)) ?_
    | with_reducible refine State.insertAll_only (k.sub (by decide)) ?_
    | split)

theorem execFtDelete_only {m : Nat} {r s : State} {x0 : Fin 4096} {x1 : HostData} (k : Covers 0x10000000000000000000000090000020000000000000000082000000203 m) (h : Only m r s) : OnlyRes m r (execFtDelete x0 x1 s) := by
  unfold execFtDelete
  try dsimp only
  repeat' (first
    | (intro _; try dsimp only)
    | with_reducible assumption
    | with_reducible refine runImageOpcode_only (k.sub (by decide)) ?_ ?_
    | with_reducible refine State.complete_only (k.sub (by decide)) ?_
    | with_reducible refine State.deleteAll_only (k.sub (by decide)) ?_
    | split)

theorem learnOne_only {m : Nat} {r s : State} {x0 : Nat} (k : Covers 0x3060000000000000000000000000000000000000000000000000000000000000000000281800000000000000000000008000002000000000000070001a000000200 m) (h : Only m r s) : Only m r (learnOne x0 s) := by
  unfold learnOne
  try dsimp only
  repeat' (first
    | with_reducible assumption
    | fail_if_no_progress (with_reducible refine Only.ftTo (by apply TableStOnly.of <;> first | exact .inl (k.bit (by decide)) | exact .inr rfl) ?_)
    | with_reducible apply Only.ite
    | with_reducible refine State.learnRecord_only (k.sub (by decide)) ?_
    | with_reducible refine State.setSlot_only (k.sub (by decide)) ?_
    | with_reducible refine State.conflict_only (k.sub (by decide)) ?_
    | with_reducible refine State.insertEntry_only_eq (k.sub (by decide)) (by assumption) ?_
    | with_reducible refine State.recount_only (k.sub (by decide)) ?_
    | with_reducible refine State.setErr_only _ _ (k.err (by decide) (by decide)) ?_
    | split)

theorem execLearn_only {m : Nat} {r s : State} {x0 : Fin 8} (k : Covers 0x3060000000000000000000000000000000000000000000000000000000000000000000281800000000000000000000008000002000000000000070001a000000200 m) (h : Only m r s) : OnlyRes m r (execLearn x0 s) := by
  unfold execLearn
  try dsimp only
  repeat' (first
    | (intro _; try dsimp only)
    | with_reducible assumption
    | with_reducible refine whenLive_only (k.sub (by decide)) ?_ ?_
    | with_reducible refine learnOne_only (k.sub (by decide)) ?_)

theorem execLearnEnable_only {m : Nat} {r s : State} {x0 : Word} (k : Covers 0x30600000000000000000000000000000000000000000000000000000000000000000003c00000000000000000000000080000020000000000080700000000000200 m) (h : Only m r s) : OnlyRes m r (execLearnEnable x0 s) := by
  unfold execLearnEnable
  try dsimp only
  repeat' (first
    | (intro _; try dsimp only)
    | with_reducible assumption
    | with_reducible refine whenReg_only (k.sub (by decide)) ?_ ?_
    | with_reducible refine learnCfg_only (k.sub (by decide)) ?_)

theorem execAgeSweepVisit_only {m : Nat} {r s : State} {x0 : Fin 8} {x1 : Fin 4} {x2 : Fin 1048576} (k : Covers 0x2810000000000000000000000000000020000000000000000002000000200 m) (h : Only m r s) : OnlyRes m r (execAgeSweepVisit x0 x1 x2 s) := by
  unfold execAgeSweepVisit
  try dsimp only
  repeat' (first
    | (intro _; try dsimp only)
    | with_reducible assumption
    | with_reducible refine whenLive_only (k.sub (by decide)) ?_ ?_
    | with_reducible refine ageVisit_only (k.sub (by decide)) ?_)

theorem execTableImageLoadStart_only {m : Nat} {r s : State} {x0 : Fin 8} {x1 : Word} (k : Covers 0x3060000000000000000000000000000000000000000000000000000000000000000000001c000000000000000000000080000020000000000080700002000000200 m) (h : Only m r s) : OnlyRes m r (execTableImageLoadStart x0 x1 s) := by
  unfold execTableImageLoadStart
  try dsimp only
  repeat' (first
    | (intro _; try dsimp only)
    | with_reducible assumption
    | with_reducible refine whenReg_only (k.sub (by decide)) ?_ ?_
    | with_reducible refine pipeCtl_only (k.sub (by decide)) ?_)

theorem execTableImageCheck_only {m : Nat} {r s : State} {x0 : Fin 8} {x1 : Word} (k : Covers 0x3060000000000000000000000000000000000000000000000000000000000000000000001c000000000000000000000080000020000000000080700002000000200 m) (h : Only m r s) : OnlyRes m r (execTableImageCheck x0 x1 s) := by
  unfold execTableImageCheck
  try dsimp only
  repeat' (first
    | (intro _; try dsimp only)
    | with_reducible assumption
    | with_reducible refine whenReg_only (k.sub (by decide)) ?_ ?_
    | with_reducible refine pipeCtl_only (k.sub (by decide)) ?_)

theorem imageDone_only {m : Nat} {r s : State} {x0 : Nat} (k : Covers 0x30600000000000000000000000000000000000000000000000000000000000000000000018000000000000000000000080000020000000000000700002000000200 m) (h : Only m r s) : Only m r (imageDone x0 s) := by
  unfold imageDone
  try dsimp only
  repeat' (first
    | with_reducible assumption
    | fail_if_no_progress (with_reducible refine Only.ftTo (by apply TableStOnly.of <;> first | exact .inl (k.bit (by decide)) | exact .inr rfl) ?_)
    | with_reducible apply Only.ite
    | with_reducible refine State.wr_only _ _ _ (k.words (by decide)) ?_
    | with_reducible refine State.recount_only (k.sub (by decide)) ?_
    | with_reducible refine State.raise_only (k.sub (by decide)) ?_
    | with_reducible refine State.setErr_only _ _ (k.err (by decide) (by decide)) ?_)

theorem execTableImageDone_only {m : Nat} {r s : State} {x0 : Fin 8} (k : Covers 0x30600000000000000000000000000000000000000000000000000000000000000000000018000000000000000000000080000020000000000000700002000000200 m) (h : Only m r s) : OnlyRes m r (execTableImageDone x0 s) := by
  unfold execTableImageDone
  try dsimp only
  repeat' (first
    | (intro _; try dsimp only)
    | with_reducible assumption
    | with_reducible refine whenLive_only (k.sub (by decide)) ?_ ?_
    | with_reducible refine imageDone_only (k.sub (by decide)) ?_)

/-! ### Machine/Lpm.lean -/

theorem State.setLpmUnit_only {m : Nat} {r s : State} {x1 : Nat} {x2 : List Byte} (k : Covers 0x4000000000 m) (h : Only m r s) : Only m r (State.setLpmUnit s x1 x2) := by
  unfold State.setLpmUnit
  try dsimp only
  repeat' (first
    | with_reducible assumption
    | fail_if_no_progress (with_reducible refine Only.ftTo (by apply TableStOnly.of <;> first | exact .inl (k.bit (by decide)) | exact .inr rfl) ?_))

theorem State.countUnits_only {m : Nat} {r s : State} (k : Covers 0x2000000000000000000000000000000000000000000000000000000000 m) (h : Only m r s) : Only m r (State.countUnits s) := by
  unfold State.countUnits
  try dsimp only
  repeat' (first
    | with_reducible assumption
    | with_reducible refine State.wr_only _ _ _ (k.words (by decide)) ?_)

theorem State.clearLpm_only {m : Nat} {r s : State} (k : Covers 0x2000000000000000000000000000000000000000000000004000000000 m) (h : Only m r s) : Only m r (State.clearLpm s) := by
  unfold State.clearLpm
  try dsimp only
  repeat' (first
    | with_reducible assumption
    | fail_if_no_progress (with_reducible refine Only.ftTo (by apply TableStOnly.of <;> first | exact .inl (k.bit (by decide)) | exact .inr rfl) ?_)
    | with_reducible refine State.countUnits_only (k.sub (by decide)) ?_)

theorem lpmCfg_only {m : Nat} {r s : State} {x0 : Word} (k : Covers 0x30600000000000000000000000000000000000000000000000000000000000000000000003000000000000000000000080000020000000000000700004000000200 m) (h : Only m r s) : Only m r (lpmCfg x0 s) := by
  unfold lpmCfg
  try dsimp only
  repeat' (first
    | with_reducible assumption
    | with_reducible apply Only.ite
    | with_reducible refine State.refuseWrite_only (k.sub (by decide)) ?_
    | with_reducible refine State.plainWrite_only _ _ _ (k.words (by decide)) ?_
    | with_reducible refine State.wr_only _ _ _ (k.words (by decide)) ?_
    | with_reducible refine State.clearLpm_only (k.sub (by decide)) ?_)

theorem State.setEntries_only {m : Nat} {r s : State} {x1 : Nat} {x2 : List (List Byte)} (k : Covers 0x2000000000000000000000000000000000000000000000004000000000 m) (h : Only m r s) : Only m r (State.setEntries s x1 x2) := by
  unfold State.setEntries
  try dsimp only
  repeat' (first
    | with_reducible assumption
    | fail_if_no_progress (with_reducible refine Only.ftTo (by apply TableStOnly.of <;> first | exact .inl (k.bit (by decide)) | exact .inr rfl) ?_)
    | with_reducible refine State.countUnits_only (k.sub (by decide)) ?_)

theorem State.lpmDelete_only {m : Nat} {r s : State} {x1 : List Byte} (k : Covers 0x2000000000000000000000000000000000000000000000004000000000 m) (h : Only m r s) : ∀ t, State.lpmDelete s x1 = some t → Only m r t := by
  intro t e
  unfold State.lpmDelete at e
  try dsimp only at e
  repeat' split at e
  all_goals first
    | contradiction
    | (injection e with e; subst e
       try dsimp only
       repeat' (first
         | with_reducible assumption
         | with_reducible refine State.setEntries_only (k.sub (by decide)) ?_))

theorem State.lpmDelete_only_eq {m : Nat} {r s : State} {x1 : List Byte} (k : Covers 0x2000000000000000000000000000000000000000000000004000000000 m) {t : State} (e : State.lpmDelete s x1 = some t) (h : Only m r s) : Only m r t :=
  State.lpmDelete_only k h t e

theorem State.lpmInsert_only {m : Nat} {r s : State} {x1 : List Byte} (k : Covers 0x2000000000000000000000000000000000000000000000004000000000 m) (h : Only m r s) : ∀ p, State.lpmInsert s x1 = some p → Only m r p.2 := by
  intro t e
  unfold State.lpmInsert at e
  try dsimp only at e
  repeat' split at e
  all_goals first
    | contradiction
    | (injection e with e; subst e
       try dsimp only
       repeat' (first
         | with_reducible assumption
         | with_reducible refine State.setEntries_only (k.sub (by decide)) ?_))

theorem State.lpmInsert_only_eq {m : Nat} {r s : State} {x1 : List Byte} (k : Covers 0x2000000000000000000000000000000000000000000000004000000000 m) {a} {t : State} (e : State.lpmInsert s x1 = some (a, t)) (h : Only m r s) : Only m r t :=
  State.lpmInsert_only k h (a, t) e

theorem execLpmInsert_only {m : Nat} {r s : State} {x0 : Fin 4096} {x1 : HostData} (k : Covers 0x2000000000000000000000090000020000000000000000084000000203 m) (h : Only m r s) : OnlyRes m r (execLpmInsert x0 x1 s) := by
  unfold execLpmInsert
  try dsimp only
  repeat' (first
    | (intro _; try dsimp only)
    | with_reducible assumption
    | with_reducible apply Only.ite
    | with_reducible refine runImageOpcode_only (k.sub (by decide)) ?_ ?_
    | with_reducible refine State.complete_only (k.sub (by decide)) ?_
    | with_reducible refine State.lpmInsert_only_eq (k.sub (by decide)) (by assumption) ?_
    | with_reducible refine State.noteChange_only (k.sub (by decide)) ?_
    | split)

theorem execLpmDelete_only {m : Nat} {r s : State} {x0 : Fin 4096} {x1 : HostData} (k : Covers 0x2000000000000000000000090000020000000000000000084000000203 m) (h : Only m r s) : OnlyRes m r (execLpmDelete x0 x1 s) := by
  unfold execLpmDelete
  try dsimp only
  repeat' (first
    | (intro _; try dsimp only)
    | with_reducible assumption
    | with_reducible apply Only.ite
    | with_reducible refine runImageOpcode_only (k.sub (by decide)) ?_ ?_
    | with_reducible refine State.complete_only (k.sub (by decide)) ?_
    | with_reducible refine State.lpmDelete_only_eq (k.sub (by decide)) (by assumption) ?_
    | with_reducible refine State.noteChange_only (k.sub (by decide)) ?_
    | split)

theorem execFtShadowCompare_only {m : Nat} {r s : State} {x0 : Fin 4096} {x1 : Bool} {x2 : Nat} (k : Covers 0x90000020000000000000000000000000203 m) (h : Only m r s) : OnlyRes m r (execFtShadowCompare x0 x1 x2 s) := by
  unfold execFtShadowCompare
  try dsimp only
  repeat' (first
    | (intro _; try dsimp only)
    | with_reducible assumption
    | with_reducible apply Only.ite
    | with_reducible refine runOpcode_only (k.sub (by decide)) ?_ ?_
    | with_reducible refine State.complete_only (k.sub (by decide)) ?_
    | with_reducible refine State.descWrite_only (k.sub (by decide)) ?_)

theorem execLpmImageLoadStart_only {m : Nat} {r s : State} {x0 : Word} (k : Covers 0x30600000000000000000000000000000000000000000000000000000000000000000000003000000000000000000000080000020000000000080700004000000200 m) (h : Only m r s) : OnlyRes m r (execLpmImageLoadStart x0 s) := by
  unfold execLpmImageLoadStart
  try dsimp only
  repeat' (first
    | (intro _; try dsimp only)
    | with_reducible assumption
    | with_reducible refine whenReg_only (k.sub (by decide)) ?_ ?_
    | with_reducible refine lpmCfg_only (k.sub (by decide)) ?_)

theorem execLpmImageCheck_only {m : Nat} {r s : State} {x0 : Word} (k : Covers 0x30600000000000000000000000000000000000000000000000000000000000000000000003000000000000000000000080000020000000000080700004000000200 m) (h : Only m r s) : OnlyRes m r (execLpmImageCheck x0 s) := by
  unfold execLpmImageCheck
  try dsimp only
  repeat' (first
    | (intro _; try dsimp only)
    | with_reducible assumption
    | with_reducible refine whenReg_only (k.sub (by decide)) ?_ ?_
    | with_reducible refine lpmCfg_only (k.sub (by decide)) ?_)

theorem lpmImageDone_only {m : Nat} {r s : State} (k : Covers 0x30600000000000000000000000000000000000000000000000000000000000000000000002000000000000000000000080000020000000000000700004000000200 m) (h : Only m r s) : Only m r (lpmImageDone s) := by
  unfold lpmImageDone
  try dsimp only
  repeat' (first
    | with_reducible assumption
    | with_reducible apply Only.ite
    | with_reducible refine State.wr_only _ _ _ (k.words (by decide)) ?_
    | with_reducible refine State.countUnits_only (k.sub (by decide)) ?_
    | with_reducible refine State.raise_only (k.sub (by decide)) ?_
    | with_reducible refine State.setErr_only _ _ (k.err (by decide) (by decide)) ?_
    | with_reducible refine State.clearLpm_only (k.sub (by decide)) ?_)

theorem execLpmImageDone_only {m : Nat} {r s : State} (k : Covers 0x30600000000000000000000000000000000000000000000000000000000000000000000002000000000000000000000080000020000000000000700004000000200 m) (h : Only m r s) : OnlyRes m r (execLpmImageDone s) := by
  unfold execLpmImageDone
  try dsimp only
  repeat' (first
    | (intro _; try dsimp only)
    | with_reducible assumption
    | with_reducible refine whenLive_only (k.sub (by decide)) ?_ ?_
    | with_reducible refine lpmImageDone_only (k.sub (by decide)) ?_)

/-! ### Machine/Buffer.lean -/

theorem State.countTx_only {m : Nat} {r s : State} {x1 : Nat} {x2 : List Byte} (k : Covers 0x400000000 m) (h : Only m r s) : Only m r (State.countTx s x1 x2) := by
  unfold State.countTx
  try dsimp only
  repeat' (first
    | with_reducible assumption
    | with_reducible refine State.portAdd_only (k.sub (by decide)) ?_)

theorem State.sendPlain_only {m : Nat} {r s : State} {x1 : Nat} {x2 : Option Nat} {x3 : List Byte} (k : Covers 0x20000000000000000000400000000 m) (h : Only m r s) : Only m r (State.sendPlain s x1 x2 x3) := by
  unfold State.sendPlain
  try dsimp only
  repeat' (first
    | with_reducible assumption
    | with_reducible refine State.countTx_only (k.sub (by decide)) ?_
    | with_reducible refine State.emit_only _ (k.bit (i := 113) (by decide)) ?_)

theorem State.settlePfc_only {m : Nat} {r s : State} {x1 : Nat} {x2 : Nat} (k : Covers 0x20000000000000000000408000000 m) (h : Only m r s) : Only m r (State.settlePfc s x1 x2) := by
  unfold State.settlePfc
  try dsimp only
  repeat' (first
    | with_reducible assumption
    | with_reducible apply Only.ite
    | with_reducible refine State.sendPlain_only (k.sub (by decide)) ?_
    | with_reducible refine State.modPort_only (k.sub (by decide)) ?_)

theorem State.settleAllPfc_only {m : Nat} {r s : State} (k : Covers 0x20000000000000000000408000000 m) (h : Only m r s) : Only m r (State.settleAllPfc s) := by
  unfold State.settleAllPfc
  try dsimp only
  repeat' (first
    | (intro _; try dsimp only)
    | with_reducible assumption
    | with_reducible apply Only.foldl
    | with_reducible refine State.settlePfc_only (k.sub (by decide)) ?_)

theorem State.refuseReserve_only {m : Nat} {r s : State} {x1 : State} {x2 : Nat} {x3 : Word} (k : Covers 0x30600000000000000000000000000000000000000000000000000000000000000000000000000000040000000000000080000020000000000000700000000000200 m) (hx1 : Only m r x1) (h : Only m r s) : Only m r (State.refuseReserve s x1 x2 x3) := by
  unfold State.refuseReserve
  try dsimp only
  repeat' (first
    | with_reducible assumption
    | with_reducible apply Only.ite
    | with_reducible refine State.setErr_only _ _ (k.err (by decide) (by decide)) ?_
    | with_reducible refine State.raise_only (k.sub (by decide)) ?_)

theorem reserveWrite_only {m : Nat} {r s : State} {x0 : Reg} {x1 : Nat} {x2 : Word} (k : Covers 0x30600000000000000000000000000000000000000000000000000000000000000000000000000000040000000000000080000020000000000000700000000000200 m) (g0 : Grants m x0) (h : Only m r s) : Only m r (reserveWrite x0 x1 x2 s) := by
  unfold reserveWrite
  try dsimp only
  repeat' (first
    | with_reducible assumption
    | with_reducible apply Only.ite
    | with_reducible refine State.plainWrite_only _ _ _ (by assumption) ?_
    | with_reducible refine State.refuseReserve_only (k.sub (by decide)) ?_ ?_)

theorem State.setFrame_only {m : Nat} {r s : State} {x1 : Nat} {x2 : FrameSt} (k : Covers 0x10000000 m) (h : Only m r s) : Only m r (State.setFrame s x1 x2) := by
  unfold State.setFrame
  try dsimp only
  repeat' (first
    | with_reducible assumption
    | fail_if_no_progress (with_reducible refine Only.pcTo (by apply PacketStOnly.of <;> first | exact .inl (k.bit (by decide)) | exact .inr rfl) ?_))

theorem State.releaseResult_only {m : Nat} {r s : State} {x1 : FrameSt} (k : Covers 0x10000000000000000000000000000000000000000000000000000000000000000 m) (h : Only m r s) : Only m r (State.releaseResult s x1) := by
  unfold State.releaseResult
  try dsimp only
  repeat' (first
    | (intro _; try dsimp only)
    | with_reducible assumption
    | with_reducible apply Only.foldl
    | with_reducible refine State.wr_only _ _ _ (k.words (by decide)) ?_)

theorem State.returnCredit_only {m : Nat} {r s : State} {x1 : Nat} {x2 : Nat} {x3 : Nat} (k : Covers 0x8000000 m) (h : Only m r s) : Only m r (State.returnCredit s x1 x2 x3) := by
  unfold State.returnCredit
  try dsimp only
  repeat' (first
    | with_reducible assumption
    | with_reducible refine State.modPort_only (k.sub (by decide)) ?_)

theorem State.freeCells_only {m : Nat} {r s : State} {x1 : Nat} (k : Covers 0x10000000000000000000000000000000000020000000000000000000418000000 m) (h : Only m r s) : Only m r (State.freeCells s x1) := by
  unfold State.freeCells
  try dsimp only
  repeat' (first
    | with_reducible assumption
    | with_reducible apply Only.ite
    | with_reducible refine State.setFrame_only (k.sub (by decide)) ?_
    | with_reducible refine State.releaseResult_only (k.sub (by decide)) ?_
    | with_reducible refine State.returnCredit_only (k.sub (by decide)) ?_
    | with_reducible refine State.settleAllPfc_only (k.sub (by decide)) ?_
    | split)

theorem State.modFrame_only {m : Nat} {r s : State} {x1 : Nat} {x2 : FrameSt → FrameSt} (k : Covers 0x10000000 m) (h : Only m r s) : Only m r (State.modFrame s x1 x2) := by
  unfold State.modFrame
  try dsimp only
  repeat' (first
    | with_reducible assumption
    | with_reducible refine State.setFrame_only (k.sub (by decide)) ?_
    | split)

theorem State.setFence_only {m : Nat} {r s : State} {x1 : Nat} {x2 : Fence} (k : Covers 0x800000000000 m) (h : Only m r s) : Only m r (State.setFence s x1 x2) := by
  unfold State.setFence
  try dsimp only
  repeat' (first
    | with_reducible assumption
    | fail_if_no_progress (with_reducible refine Only.tqTo (by apply QueueStOnly.of <;> first | exact .inl (k.bit (by decide)) | exact .inr rfl) ?_))

theorem State.completeFence_only {m : Nat} {r s : State} {x1 : Nat} (k : Covers 0x800010000000 m) (h : Only m r s) : Only m r (State.completeFence s x1) := by
  unfold State.completeFence
  try dsimp only
  repeat' (first
    | with_reducible assumption
    | with_reducible apply Only.ite
    | with_reducible refine State.modFrame_only (k.sub (by decide)) ?_
    | with_reducible refine State.setFence_only (k.sub (by decide)) ?_
    | split)

theorem State.delFrame_only {m : Nat} {r s : State} {x1 : Nat} (k : Covers 0x10000000 m) (h : Only m r s) : Only m r (State.delFrame s x1) := by
  unfold State.delFrame
  try dsimp only
  repeat' (first
    | with_reducible assumption
    | fail_if_no_progress (with_reducible refine Only.pcTo (by apply PacketStOnly.of <;> first | exact .inl (k.bit (by decide)) | exact .inr rfl) ?_))

theorem State.settleFrame_only {m : Nat} {r s : State} {x1 : Nat} (k : Covers 0x10000000000000000000000000000000000020000000000000000800418000000 m) (h : Only m r s) : Only m r (State.settleFrame s x1) := by
  unfold State.settleFrame
  try dsimp only
  repeat' (first
    | with_reducible assumption
    | with_reducible apply Only.ite
    | with_reducible refine State.freeCells_only (k.sub (by decide)) ?_
    | with_reducible refine State.completeFence_only (k.sub (by decide)) ?_
    | with_reducible refine State.delFrame_only (k.sub (by decide)) ?_
    | split)

theorem State.setQueue_only {m : Nat} {r s : State} {x1 : Nat} {x2 : List Nat} (k : Covers 0x40000000 m) (h : Only m r s) : Only m r (State.setQueue s x1 x2) := by
  unfold State.setQueue
  try dsimp only
  repeat' (first
    | with_reducible assumption
    | fail_if_no_progress (with_reducible refine Only.pcTo (by apply PacketStOnly.of <;> first | exact .inl (k.bit (by decide)) | exact .inr rfl) ?_))

theorem State.setSlip_only {m : Nat} {r s : State} {x1 : Nat} {x2 : Nat × Nat × Nat} (k : Covers 0x180000000 m) (h : Only m r s) : Only m r (State.setSlip s x1 x2) := by
  unfold State.setSlip
  try dsimp only
  repeat' (first
    | with_reducible assumption
    | fail_if_no_progress (with_reducible refine Only.pcTo (by apply PacketStOnly.of <;> first | exact .inl (k.bit (by decide)) | exact .inr rfl) ?_))

theorem State.slipTake_only {m : Nat} {r s : State} {x1 : Nat} {x2 : Nat} (k : Covers 0x180000000 m) (h : Only m r s) : Only m r (State.slipTake s x1 x2) := by
  unfold State.slipTake
  try dsimp only
  repeat' (first
    | with_reducible assumption
    | with_reducible apply Only.ite
    | with_reducible refine State.setSlip_only (k.sub (by decide)) ?_)

theorem State.endCopy_only {m : Nat} {r s : State} {x1 : Nat} {x2 : Nat} {x3 : Bool} (k : Covers 0x100000000000000000000000000000000000200000000000000008005d8000000 m) (h : Only m r s) : Only m r (State.endCopy s x1 x2 x3) := by
  unfold State.endCopy
  try dsimp only
  repeat' (first
    | with_reducible assumption
    | with_reducible apply Only.ite
    | with_reducible refine State.setQueue_only (k.sub (by decide)) ?_
    | with_reducible refine State.slipTake_only (k.sub (by decide)) ?_
    | with_reducible refine State.modPort_only (k.sub (by decide)) ?_
    | with_reducible refine State.setSlip_only (k.sub (by decide)) ?_
    | with_reducible refine State.settleFrame_only (k.sub (by decide)) ?_
    | with_reducible refine State.modFrame_only (k.sub (by decide)) ?_)

theorem State.ackCopy_only {m : Nat} {r s : State} {x1 : Nat} {x2 : Nat} (k : Covers 0x10000000000000000000000000000000000020000000000000000800418000000 m) (h : Only m r s) : Only m r (State.ackCopy s x1 x2) := by
  unfold State.ackCopy
  try dsimp only
  repeat' (first
    | with_reducible assumption
    | with_reducible refine State.settleFrame_only (k.sub (by decide)) ?_
    | with_reducible refine State.modFrame_only (k.sub (by decide)) ?_)

theorem State.startFence_only {m : Nat} {r s : State} {x1 : Nat} {x2 : Nat} (k : Covers 0x800010000000 m) (h : Only m r s) : Only m r (State.startFence s x1 x2) := by
  unfold State.startFence
  try dsimp only
  repeat' (first
    | with_reducible assumption
    | with_reducible refine State.modFrame_only (k.sub (by decide)) ?_
    | with_reducible refine State.setFence_only (k.sub (by decide)) ?_)

theorem State.admitFence_only {m : Nat} {r s : State} {x1 : Nat} {x2 : Nat} {x3 : Bool} (k : Covers 0x800010000000 m) (h : Only m r s) : Only m r (State.admitFence s x1 x2 x3) := by
  unfold State.admitFence
  try dsimp only
  repeat' (first
    | with_reducible assumption
    | with_reducible apply Only.ite
    | with_reducible refine State.modFrame_only (k.sub (by decide)) ?_
    | with_reducible refine State.setFence_only (k.sub (by decide)) ?_
    | with_reducible refine State.startFence_only (k.sub (by decide)) ?_)

theorem State.sendXoff_only {m : Nat} {r s : State} {x1 : Nat} {x2 : Nat} (k : Covers 0x20000000000000000000408000000 m) (h : Only m r s) : Only m r (State.sendXoff s x1 x2) := by
  unfold State.sendXoff
  try dsimp only
  repeat' (first
    | with_reducible assumption
    | with_reducible refine State.portAdd_only (k.sub (by decide)) ?_
    | with_reducible refine State.sendPlain_only (k.sub (by decide)) ?_
    | with_reducible refine State.modPort_only (k.sub (by decide)) ?_)

theorem State.passFence_only {m : Nat} {r s : State} {x1 : Nat} {x2 : Bool} (k : Covers 0x800020000000 m) (h : Only m r s) : Only m r (State.passFence s x1 x2) := by
  unfold State.passFence
  try dsimp only
  repeat' (first
    | with_reducible assumption
    | fail_if_no_progress (with_reducible refine Only.pcTo (by apply PacketStOnly.of <;> first | exact .inl (k.bit (by decide)) | exact .inr rfl) ?_)
    | with_reducible apply Only.ite
    | with_reducible refine State.setFence_only (k.sub (by decide)) ?_)

theorem State.countRx_only {m : Nat} {r s : State} {x1 : Nat} {x2 : Nat} (k : Covers 0x400000000 m) (h : Only m r s) : Only m r (State.countRx s x1 x2) := by
  unfold State.countRx
  try dsimp only
  repeat' (first
    | with_reducible assumption
    | with_reducible refine State.portAdd_only (k.sub (by decide)) ?_)

theorem State.popFence_only {m : Nat} {r s : State} {x1 : Nat} (k : Covers 0x800010000000 m) (h : Only m r s) : Only m r (State.popFence s x1) := by
  unfold State.popFence
  try dsimp only
  repeat' (first
    | with_reducible assumption
    | with_reducible refine State.setFence_only (k.sub (by decide)) ?_
    | with_reducible refine State.startFence_only (k.sub (by decide)) ?_
    | split)

theorem fenceRelease_only {m : Nat} {r s : State} {x0 : Nat} (k : Covers 0x800010000000 m) (h : Only m r s) : Only m r (fenceRelease x0 s) := by
  unfold fenceRelease
  try dsimp only
  repeat' (first
    | with_reducible assumption
    | with_reducible apply Only.ite
    | with_reducible refine State.popFence_only (k.sub (by decide)) ?_
    | with_reducible refine State.modFrame_only (k.sub (by decide)) ?_
    | split)

/-! ### Machine/Lookup.lean -/

theorem groupCfg_only {m : Nat} {r s : State} {x0 : Nat} {x1 : Word} (k : Covers 0x30600000000000000000000000000000000000000000000000000000000000000000010000000000000000000000000080000020000000000000700020000000200 m) (h : Only m r s) : Only m r (groupCfg x0 x1 s) := by
  unfold groupCfg
  try dsimp only
  repeat' (first
    | with_reducible assumption
    | fail_if_no_progress (with_reducible refine Only.ftTo (by apply TableStOnly.of <;> first | exact .inl (k.bit (by decide)) | exact .inr rfl) ?_)
    | with_reducible apply Only.ite
    | with_reducible refine State.refuseWrite_only (k.sub (by decide)) ?_
    | with_reducible refine State.plainWrite_only _ _ _ (k.words (by decide)) ?_)

theorem State.spray_only {m : Nat} {r s : State} {x1 : Nat} {x2 : Nat} {x3 : Hdr} {x4 : Option Sceca} (k : Covers 0x40000000000 m) (h : Only m r s) : Only m r (State.spray s x1 x2 x3 x4).2 := by
  unfold State.spray
  try dsimp only
  repeat' (first
    | with_reducible assumption
    | fail_if_no_progress (with_reducible refine Only.ftTo (by apply TableStOnly.of <;> first | exact .inl (k.bit (by decide)) | exact .inr rfl) ?_)
    | split)

theorem State.spray_only_eq {m : Nat} {r s : State} {x1 : Nat} {x2 : Nat} {x3 : Hdr} {x4 : Option Sceca} (k : Covers 0x40000000000 m) {a} {t : State} (e : State.spray s x1 x2 x3 x4 = (a, t)) (h : Only m r s) : Only m r t := by
  have w : Only m r (State.spray s x1 x2 x3 x4).2 := State.spray_only k h
  rw [e] at w
  exact w

theorem State.actOn_only {m : Nat} {r s : State} {x1 : Nat} {x2 : List Byte} {x3 : List Byte} {x4 : Hdr} {x5 : Option Sceca} {x6 : Option Nat} (k : Covers 0x40000000000 m) (h : Only m r s) : Only m r (State.actOn s x1 x2 x3 x4 x5 x6).2 := by
  unfold State.actOn
  try dsimp only
  repeat' (first
    | with_reducible assumption
    | with_reducible refine State.spray_only_eq (k.sub (by decide)) (by assumption) ?_
    | split)

theorem State.route_only {m : Nat} {r s : State} {x1 : Nat} {x2 : List Byte} {x3 : Hdr} {x4 : Option Sceca} {x5 : Option Nat} (k : Covers 0x42000000000 m) (h : Only m r s) : Only m r (State.route s x1 x2 x3 x4 x5).2 := by
  unfold State.route
  try dsimp only
  repeat' (first
    | with_reducible assumption
    | with_reducible refine State.touch_only (k.sub (by decide)) ?_
    | with_reducible refine State.actOn_only (k.sub (by decide)) ?_
    | split)

theorem State.touchSource_only {m : Nat} {r s : State} {x1 : Nat} {x2 : Hdr} (k : Covers 0x2000000000 m) (h : Only m r s) : Only m r (State.touchSource s x1 x2) := by
  unfold State.touchSource
  try dsimp only
  repeat' (first
    | with_reducible assumption
    | with_reducible apply Only.ite
    | with_reducible refine State.touch_only (k.sub (by decide)) ?_)

theorem State.lookup_only {m : Nat} {r s : State} {x1 : Nat} {x2 : List Byte} {x3 : Hdr} {x4 : Option Sceca} {x5 : Option Nat} (k : Covers 0x42000000000 m) (h : Only m r s) : Only m r (State.lookup s x1 x2 x3 x4 x5).2 := by
  unfold State.lookup
  try dsimp only
  repeat' (first
    | with_reducible assumption
    | with_reducible refine State.route_only (k.sub (by decide)) ?_
    | with_reducible refine State.touchSource_only (k.sub (by decide)) ?_)

theorem State.lookup_only_eq {m : Nat} {r s : State} {x1 : Nat} {x2 : List Byte} {x3 : Hdr} {x4 : Option Sceca} {x5 : Option Nat} (k : Covers 0x42000000000 m) {a} {t : State} (e : State.lookup s x1 x2 x3 x4 x5 = (a, t)) (h : Only m r s) : Only m r t := by
  have w : Only m r (State.lookup s x1 x2 x3 x4 x5).2 := State.lookup_only k h
  rw [e] at w
  exact w

theorem State.queueLearn_only {m : Nat} {r s : State} {x1 : Nat} {x2 : Nat × Nat} (k : Covers 0x8000000000000000000000000000000000000000000000008000000000 m) (h : Only m r s) : Only m r (State.queueLearn s x1 x2) := by
  unfold State.queueLearn
  try dsimp only
  repeat' (first
    | with_reducible assumption
    | fail_if_no_progress (with_reducible refine Only.ftTo (by apply TableStOnly.of <;> first | exact .inl (k.bit (by decide)) | exact .inr rfl) ?_)
    | with_reducible apply Only.ite
    | with_reducible refine State.setErr_only _ _ (k.err (by decide) (by decide)) ?_)

theorem execSprayGroupCommit_only {m : Nat} {r s : State} {x0 : Fin 4096} {x1 : Word} (k : Covers 0x30600000000000000000000000000000000000000000000000000000000000000000010000000000000000000000000080000020000000000080700020000000200 m) (h : Only m r s) : OnlyRes m r (execSprayGroupCommit x0 x1 s) := by
  unfold execSprayGroupCommit
  try dsimp only
  repeat' (first
    | (intro _; try dsimp only)
    | with_reducible assumption
    | with_reducible refine whenReg_only (k.sub (by decide)) ?_ ?_
    | with_reducible refine groupCfg_only (k.sub (by decide)) ?_)

/-! ### Machine/Meter.lean -/

theorem State.setProfile_only {m : Nat} {r s : State} {x1 : Nat} {x2 : Nat × Nat × Nat} (k : Covers 0x400000000000 m) (h : Only m r s) : Only m r (State.setProfile s x1 x2) := by
  unfold State.setProfile
  try dsimp only
  repeat' (first
    | with_reducible assumption
    | fail_if_no_progress (with_reducible refine Only.tqTo (by apply QueueStOnly.of <;> first | exact .inl (k.bit (by decide)) | exact .inr rfl) ?_))

theorem State.setMeter_only {m : Nat} {r s : State} {x1 : Nat} {x2 : Meter} (k : Covers 0x200000000000 m) (h : Only m r s) : Only m r (State.setMeter s x1 x2) := by
  unfold State.setMeter
  try dsimp only
  repeat' (first
    | with_reducible assumption
    | fail_if_no_progress (with_reducible refine Only.tqTo (by apply QueueStOnly.of <;> first | exact .inl (k.bit (by decide)) | exact .inr rfl) ?_))

theorem State.rebaseMeters_only {m : Nat} {r s : State} {x1 : Nat} {x2 : Nat × Nat × Nat} {x3 : Nat × Nat × Nat} (k : Covers 0x200000000000 m) (h : Only m r s) : Only m r (State.rebaseMeters s x1 x2 x3) := by
  unfold State.rebaseMeters
  try dsimp only
  repeat' (first
    | (intro _; try dsimp only)
    | with_reducible assumption
    | with_reducible apply Only.foldl
    | with_reducible apply Only.ite
    | with_reducible refine State.setMeter_only (k.sub (by decide)) ?_)

theorem profileWrite_only {m : Nat} {r s : State} {x0 : Nat} {x1 : Word} (k : Covers 0x30600000000000000000000000000000000000000000000000000000000000000240000000000000000000000000000080000020000000000000700600000000200 m) (h : Only m r s) : Only m r (profileWrite x0 x1 s) := by
  unfold profileWrite
  try dsimp only
  repeat' (first
    | with_reducible assumption
    | with_reducible apply Only.ite
    | with_reducible refine State.plainWrite_only _ _ _ (k.words (by decide)) ?_
    | with_reducible refine State.refuseWrite_only (k.sub (by decide)) ?_
    | with_reducible refine State.setErr_only _ _ (k.err (by decide) (by decide)) ?_
    | with_reducible refine State.setProfile_only (k.sub (by decide)) ?_
    | with_reducible refine State.rebaseMeters_only (k.sub (by decide)) ?_)

theorem meterMap_only {m : Nat} {r s : State} {x0 : Nat} {x1 : Word} (k : Covers 0x440000000000000000000000000000000000000000000000000000000000000000 m) (h : Only m r s) : Only m r (meterMap x0 x1 s) := by
  unfold meterMap
  try dsimp only
  repeat' (first
    | with_reducible assumption
    | with_reducible apply Only.ite
    | with_reducible refine State.plainWrite_only _ _ _ (k.words (by decide)) ?_
    | with_reducible refine State.setErr_only _ _ (k.err (by decide) (by decide)) ?_)

theorem meterCfg_only {m : Nat} {r s : State} {x0 : Nat} {x1 : Nat} (k : Covers 0x100000000000000000000000000000000000000000000000000000000200000000000 m) (h : Only m r s) : Only m r (meterCfg x0 x1 s) := by
  unfold meterCfg
  try dsimp only
  repeat' (first
    | with_reducible assumption
    | with_reducible refine State.setMeter_only (k.sub (by decide)) ?_
    | with_reducible refine State.plainWrite_only _ _ _ (k.words (by decide)) ?_)

theorem State.meterFrame_only {m : Nat} {r s : State} {x1 : Nat} {x2 : Nat} {x3 : Nat} {x4 : Nat} {x5 : List Byte} (k : Covers 0x201400000000 m) (h : Only m r s) : Only m r (State.meterFrame s x1 x2 x3 x4 x5).2 := by
  unfold State.meterFrame
  try dsimp only
  repeat' (first
    | with_reducible assumption
    | with_reducible refine State.setMeter_only (k.sub (by decide)) ?_
    | with_reducible refine State.meterAdd_only (k.sub (by decide)) ?_
    | with_reducible refine State.portAdd_only (k.sub (by decide)) ?_
    | split)

theorem State.meterFrame_only_eq {m : Nat} {r s : State} {x1 : Nat} {x2 : Nat} {x3 : Nat} {x4 : Nat} {x5 : List Byte} (k : Covers 0x201400000000 m) {a} {t : State} (e : State.meterFrame s x1 x2 x3 x4 x5 = (a, t)) (h : Only m r s) : Only m r t := by
  have w : Only m r (State.meterFrame s x1 x2 x3 x4 x5).2 := State.meterFrame_only k h
  rw [e] at w
  exact w

theorem execMeterRefill_only {m : Nat} {r s : State} {x0 : Fin 65536} {x1 : Nat} (k : Covers 0x200000000000 m) (h : Only m r s) : OnlyRes m r (execMeterRefill x0 x1 s) := by
  unfold execMeterRefill
  try dsimp only
  repeat' (first
    | (intro _; try dsimp only)
    | with_reducible assumption
    | with_reducible refine whenLive_only (k.sub (by decide)) ?_ ?_
    | with_reducible refine State.setMeter_only (k.sub (by decide)) ?_)

theorem execMeterProfileApply_only {m : Nat} {r s : State} {x0 : Fin 256} {x1 : Word} (k : Covers 0x30600000000000000000000000000000000000000000000000000000000000000240000000000000000000000000000080000020000000000080700600000000200 m) (h : Only m r s) : OnlyRes m r (execMeterProfileApply x0 x1 s) := by
  unfold execMeterProfileApply
  try dsimp only
  repeat' (first
    | (intro _; try dsimp only)
    | with_reducible assumption
    | with_reducible refine whenReg_only (k.sub (by decide)) ?_ ?_
    | with_reducible refine profileWrite_only (k.sub (by decide)) ?_)

theorem execMeterRestart_only {m : Nat} {r s : State} {x0 : Fin 65536} {x1 : BitVec 32} (k : Covers 0x30600000000000000000000000000000000000000000000000000000000000100000000000000000000000000000000080000020000000000080700200000000200 m) (h : Only m r s) : OnlyRes m r (execMeterRestart x0 x1 s) := by
  unfold execMeterRestart
  try dsimp only
  repeat' (first
    | (intro _; try dsimp only)
    | with_reducible assumption
    | with_reducible refine whenReg_only (k.sub (by decide)) ?_ ?_
    | with_reducible refine meterCfg_only (k.sub (by decide)) ?_)

end Sys2Proof.Machine
end

