-- ==== Sys2Proof/Laws/OnlyGate.lean ====
section
/-! SUPPORT. Every operation of Machine/Gate.lean to Machine/Link.lean changes only the parts that its mask names: from a state that did so, it answers one
that did so. -/

namespace Sys2Proof.Machine

/-! ### Machine/Gate.lean -/

theorem qlayoutWrite_only {m : Nat} {r s : State} {x0 : Nat} {x1 : Word} (k : Covers 0x306000000000000000000000000000000000000000000000000000000000000000c0000000000000000000000000000080000020000000000000700000000000200 m) (h : Only m r s) : Only m r (qlayoutWrite x0 x1 s) := by
  unfold qlayoutWrite
  try dsimp only
  repeat' (first
    | with_reducible assumption
    | with_reducible apply Only.ite
    | with_reducible refine State.refuseWrite_only (k.sub (by decide)) ?_
    | with_reducible refine State.setErr_only _ _ (k.err (by decide) (by decide)) ?_
    | with_reducible refine State.plainWrite_only _ _ _ (k.words (by decide)) ?_)

theorem portSchedWrite_only {m : Nat} {r s : State} {x0 : Nat} {x1 : Word} (k : Covers 0x30600000000000000000000000000000000000000000000000000000000000000140000000000000000000000000000080000020000000000000700000000000200 m) (h : Only m r s) : Only m r (portSchedWrite x0 x1 s) := by
  unfold portSchedWrite
  try dsimp only
  repeat' (first
    | with_reducible assumption
    | with_reducible apply Only.ite
    | with_reducible refine State.setErr_only _ _ (k.err (by decide) (by decide)) ?_
    | with_reducible refine State.refuseWrite_only (k.sub (by decide)) ?_
    | with_reducible refine State.plainWrite_only _ _ _ (k.words (by decide)) ?_)

theorem classSchedWrite_only {m : Nat} {r s : State} {x0 : Nat} {x1 : Word} (k : Covers 0x30600000000000000000000000000000000000000000000000000000000000000840000000000000000000000000000080000020000000000000700000000000200 m) (h : Only m r s) : Only m r (classSchedWrite x0 x1 s) := by
  unfold classSchedWrite
  try dsimp only
  repeat' (first
    | with_reducible assumption
    | with_reducible apply Only.ite
    | with_reducible refine State.plainWrite_only _ _ _ (k.words (by decide)) ?_
    | with_reducible refine State.refuseWrite_only (k.sub (by decide)) ?_
    | with_reducible refine State.setErr_only _ _ (k.err (by decide) (by decide)) ?_)

theorem State.setGate_only {m : Nat} {r s : State} {x1 : Nat} {x2 : GateSt} (k : Covers 0x100000000000 m) (h : Only m r s) : Only m r (State.setGate s x1 x2) := by
  unfold State.setGate
  try dsimp only
  repeat' (first
    | with_reducible assumption
    | fail_if_no_progress (with_reducible refine Only.tqTo (by apply QueueStOnly.of <;> first | exact .inl (k.bit (by decide)) | exact .inr rfl) ?_))

theorem gateCtl_only {m : Nat} {r s : State} {x0 : Nat} {x1 : Word} (k : Covers 0x30600000000000000000000000000000000000000000000000000000000000038040000000000000000000000000000080000020000000000000700100000000200 m) (h : Only m r s) : Only m r (gateCtl x0 x1 s) := by
  unfold gateCtl
  try dsimp only
  repeat' (first
    | with_reducible assumption
    | with_reducible apply Only.ite
    | with_reducible refine State.plainWrite_only _ _ _ (k.words (by decide)) ?_
    | with_reducible refine State.refuseWrite_only (k.sub (by decide)) ?_
    | with_reducible refine State.setErr_only _ _ (k.err (by decide) (by decide)) ?_
    | (with_reducible refine State.wrs_only _ (by simp only [List.forall_mem_cons, List.not_mem_nil, false_imp_iff, implies_true, and_true]; (repeat' apply And.intro) <;> exact k.words (by decide)) ?_)
    | with_reducible refine State.wr_only _ _ _ (k.words (by decide)) ?_
    | with_reducible refine State.setGate_only (k.sub (by decide)) ?_)

theorem State.showOper_only {m : Nat} {r s : State} {x1 : Nat} {x2 : List (Nat × Nat)} (k : Covers 0x80000000000000000000000000000000000000000000000000000000000000000000 m) (h : Only m r s) : Only m r (State.showOper s x1 x2) := by
  unfold State.showOper
  try dsimp only
  repeat' (first
    | (intro _; try dsimp only)
    | with_reducible assumption
    | with_reducible apply Only.foldl
    | with_reducible refine State.wr_only _ _ _ (k.words (by decide)) ?_)

theorem gateChange_only {m : Nat} {r s : State} {x0 : Nat} (k : Covers 0x90000000000000000000000000000000000000000000000000000000100000000000 m) (h : Only m r s) : Only m r (gateChange x0 s) := by
  unfold gateChange
  try dsimp only
  repeat' (first
    | with_reducible assumption
    | with_reducible apply Only.ite
    | (with_reducible refine State.wrs_only _ (by simp only [List.forall_mem_cons, List.not_mem_nil, false_imp_iff, implies_true, and_true]; (repeat' apply And.intro) <;> exact k.words (by decide)) ?_)
    | with_reducible refine State.showOper_only (k.sub (by decide)) ?_
    | with_reducible refine State.setGate_only (k.sub (by decide)) ?_)

theorem State.gatesDomainLost_only {m : Nat} {r s : State} {x1 : Nat} (k : Covers 0x30600000000000000000000000000000000000000000000000000000000000000040000000000000000000000000000080000020000000000000700100000000200 m) (h : Only m r s) : Only m r (State.gatesDomainLost s x1) := by
  unfold State.gatesDomainLost
  try dsimp only
  repeat' (first
    | (intro _; try dsimp only)
    | with_reducible assumption
    | with_reducible apply Only.foldl
    | with_reducible apply Only.ite
    | with_reducible refine State.raise_only (k.sub (by decide)) ?_
    | with_reducible refine State.setErr_only _ _ (k.err (by decide) (by decide)) ?_
    | with_reducible refine State.setGate_only (k.sub (by decide)) ?_)

theorem execGateCommit_only {m : Nat} {r s : State} {x0 : Fin 128} {x1 : Word} (k : Covers 0x30600000000000000000000000000000000000000000000000000000000000038040000000000000000000000000000080000020000000000080700100000000200 m) (h : Only m r s) : OnlyRes m r (execGateCommit x0 x1 s) := by
  unfold execGateCommit
  try dsimp only
  repeat' (first
    | (intro _; try dsimp only)
    | with_reducible assumption
    | with_reducible refine whenReg_only (k.sub (by decide)) ?_ ?_
    | with_reducible refine gateCtl_only (k.sub (by decide)) ?_)

theorem execGateChange_only {m : Nat} {r s : State} {x0 : Fin 128} (k : Covers 0x90000000000000000000000000000000000000000000000000000000100000000000 m) (h : Only m r s) : OnlyRes m r (execGateChange x0 s) := by
  unfold execGateChange
  try dsimp only
  repeat' (first
    | (intro _; try dsimp only)
    | with_reducible assumption
    | with_reducible refine whenLive_only (k.sub (by decide)) ?_ ?_
    | with_reducible refine gateChange_only (k.sub (by decide)) ?_)

theorem gateCycleStart_only {m : Nat} {r s : State} {x0 : Nat} (k : Covers 0x100000000000 m) (h : Only m r s) : Only m r (gateCycleStart x0 s) := by
  unfold gateCycleStart
  try dsimp only
  repeat' (first
    | with_reducible assumption
    | with_reducible apply Only.ite
    | with_reducible refine State.setGate_only (k.sub (by decide)) ?_)

theorem execGateCycleStart_only {m : Nat} {r s : State} {x0 : Fin 128} (k : Covers 0x100000000000 m) (h : Only m r s) : OnlyRes m r (execGateCycleStart x0 s) := by
  unfold execGateCycleStart
  try dsimp only
  repeat' (first
    | (intro _; try dsimp only)
    | with_reducible assumption
    | with_reducible refine whenLive_only (k.sub (by decide)) ?_ ?_
    | with_reducible refine gateCycleStart_only (k.sub (by decide)) ?_)

theorem gateEntryEnd_only {m : Nat} {r s : State} {x0 : Nat} (k : Covers 0x100000000000 m) (h : Only m r s) : Only m r (gateEntryEnd x0 s) := by
  unfold gateEntryEnd
  try dsimp only
  repeat' (first
    | with_reducible assumption
    | with_reducible apply Only.ite
    | with_reducible refine State.setGate_only (k.sub (by decide)) ?_)

theorem execGateEntryEnd_only {m : Nat} {r s : State} {x0 : Fin 128} (k : Covers 0x100000000000 m) (h : Only m r s) : OnlyRes m r (execGateEntryEnd x0 s) := by
  unfold execGateEntryEnd
  try dsimp only
  repeat' (first
    | (intro _; try dsimp only)
    | with_reducible assumption
    | with_reducible refine whenLive_only (k.sub (by decide)) ?_ ?_
    | with_reducible refine gateEntryEnd_only (k.sub (by decide)) ?_)

/-! ### Machine/Spares.lean -/

theorem State.budgetEvents_only {m : Nat} {r s : State} {x1 : Nat} {x2 : Nat} {x3 : Nat} (k : Covers 0x30600000000000000000000000000000000000000000000000000000000000000000000000000000000000000000000080000020000000000000700000000000200 m) (h : Only m r s) : Only m r (State.budgetEvents s x1 x2 x3) := by
  unfold State.budgetEvents
  try dsimp only
  repeat' (first
    | with_reducible assumption
    | with_reducible apply Only.ite
    | with_reducible refine State.raise_only (k.sub (by decide)) ?_)

theorem State.retireIdleSpare_only {m : Nat} {r s : State} {x1 : Nat} (k : Covers 0x34600000000000000000000000000000000000000000000000000000000000000000000000000000000000000000000080000020000000000001700000000000200 m) (h : Only m r s) : Only m r (State.retireIdleSpare s x1) := by
  unfold State.retireIdleSpare
  try dsimp only
  repeat' (first
    | with_reducible assumption
    | fail_if_no_progress (with_reducible refine Only.fhTo (by apply FaultStOnly.of <;> first | exact .inl (k.bit (by decide)) | exact .inr rfl) ?_)
    | with_reducible refine State.addSat_only _ _ _ (k.words (by decide)) ?_
    | with_reducible refine State.budgetEvents_only (k.sub (by decide)) ?_)

theorem State.showRecovery_only {m : Nat} {r s : State} {x1 : Recovery} (k : Covers 0x8000000000000000000000000000000000000000000000000000000000000000000000000000000000000000000000000000000000000000000000000000000000 m) (h : Only m r s) : Only m r (State.showRecovery s x1) := by
  unfold State.showRecovery
  try dsimp only
  repeat' (first
    | with_reducible assumption
    | (with_reducible refine State.wrs_only _ (by simp only [List.forall_mem_cons, List.not_mem_nil, false_imp_iff, implies_true, and_true]; (repeat' apply And.intro) <;> exact k.words (by decide)) ?_)
    | split)

theorem State.putRecovery_only {m : Nat} {r s : State} {x1 : Recovery} (k : Covers 0x8000000000000000000000000000000000000000000000000000000000000000000000000000000000000000000000000000000000000000010000000000000000 m) (h : Only m r s) : Only m r (State.putRecovery s x1) := by
  unfold State.putRecovery
  try dsimp only
  repeat' (first
    | with_reducible assumption
    | fail_if_no_progress (with_reducible refine Only.fhTo (by apply FaultStOnly.of <;> first | exact .inl (k.bit (by decide)) | exact .inr rfl) ?_)
    | with_reducible refine State.showRecovery_only (k.sub (by decide)) ?_)

theorem State.restartRecovery_only {m : Nat} {r s : State} {x1 : Recovery} (k : Covers 0x38600000000000000000000000000000000000000000000000000000000000000000000000000000000000000000000080000020000000000010700000000000200 m) (h : Only m r s) : Only m r (State.restartRecovery s x1) := by
  unfold State.restartRecovery
  try dsimp only
  repeat' (first
    | with_reducible assumption
    | with_reducible refine State.raise_only (k.sub (by decide)) ?_
    | with_reducible refine State.putRecovery_only (k.sub (by decide)) ?_)

theorem State.queueRecovery_only {m : Nat} {r s : State} {x1 : Nat} {x2 : Nat} {x3 : Nat} {x4 : SpareTest} (k : Covers 0x38600000000000000000000000000000000000000000000000000000000000000000000000000000000000000000000080000020000000000010700000000000200 m) (h : Only m r s) : Only m r (State.queueRecovery s x1 x2 x3 x4) := by
  unfold State.queueRecovery
  try dsimp only
  repeat' (first
    | with_reducible assumption
    | fail_if_no_progress (with_reducible refine Only.fhTo (by apply FaultStOnly.of <;> first | exact .inl (k.bit (by decide)) | exact .inr rfl) ?_)
    | with_reducible apply Only.ite
    | with_reducible refine State.restartRecovery_only (k.sub (by decide)) ?_
    | split)

theorem State.laneFails_only {m : Nat} {r s : State} {x1 : Nat} (k : Covers 0x3c600000000000000000000000000000000000000000000000000000000000000000000000000000000000000000000080000020000000000011700000000000200 m) (h : Only m r s) : Only m r (State.laneFails s x1) := by
  unfold State.laneFails
  try dsimp only
  repeat' (first
    | with_reducible assumption
    | with_reducible apply Only.ite
    | with_reducible refine State.retireIdleSpare_only (k.sub (by decide)) ?_
    | with_reducible refine State.queueRecovery_only (k.sub (by decide)) ?_)

theorem State.retireSpareTile_only {m : Nat} {r s : State} {x1 : Nat} {x2 : Nat} (k : Covers 0x34600000000000000000000000000000000000000000000000000000000000000000000000000000000000000000000080000020000000000000f00000000000200 m) (h : Only m r s) : Only m r (State.retireSpareTile s x1 x2) := by
  unfold State.retireSpareTile
  try dsimp only
  repeat' (first
    | with_reducible assumption
    | fail_if_no_progress (with_reducible refine Only.fhTo (by apply FaultStOnly.of <;> first | exact .inl (k.bit (by decide)) | exact .inr rfl) ?_)
    | with_reducible refine State.addSat_only _ _ _ (k.words (by decide)) ?_
    | with_reducible refine State.budgetEvents_only (k.sub (by decide)) ?_)

theorem State.useSpare_only {m : Nat} {r s : State} {x1 : Nat} {x2 : Nat} (k : Covers 0x34600000000000000000000000000000000000000000000000000000000000000000000000000000000000000000000080000020000000000000700000000000200 m) (h : Only m r s) : Only m r (State.useSpare s x1 x2) := by
  unfold State.useSpare
  try dsimp only
  repeat' (first
    | with_reducible assumption
    | with_reducible refine State.addSat_only _ _ _ (k.words (by decide)) ?_
    | with_reducible refine State.budgetEvents_only (k.sub (by decide)) ?_)

theorem State.spareLane_only {m : Nat} {r s : State} {x1 : Nat} {x2 : Nat} (k : Covers 0x34600000000000000000000000000000000000000000000000000000000000000000000000000001000000000000000080000020000000000001700000000000200 m) (h : Only m r s) : Only m r (State.spareLane s x1 x2) := by
  unfold State.spareLane
  try dsimp only
  repeat' (first
    | with_reducible assumption
    | fail_if_no_progress (with_reducible refine Only.fhTo (by apply FaultStOnly.of <;> first | exact .inl (k.bit (by decide)) | exact .inr rfl) ?_)
    | with_reducible refine State.raise_only (k.sub (by decide)) ?_
    | with_reducible refine State.useSpare_only (k.sub (by decide)) ?_
    | with_reducible refine State.wr_only _ _ _ (k.words (by decide)) ?_)

/-! ### Machine/Mem.lean -/

theorem State.countCombining_only {m : Nat} {r s : State} {x1 : Nat} (k : Covers 0x2000000000000000000000000000000000000000000000000000000000000000000000000000000000000000000000000 m) (h : Only m r s) : Only m r (State.countCombining s x1) := by
  unfold State.countCombining
  try dsimp only
  repeat' (first
    | with_reducible assumption
    | with_reducible refine State.wr_only _ _ _ (k.words (by decide)) ?_)

theorem State.countBad_only {m : Nat} {r s : State} {x1 : Nat} (k : Covers 0x4000000000000000000000000000000000000000000000000000000000000000000000000000000000000000000000000000000000000000000000000000000000 m) (h : Only m r s) : Only m r (State.countBad s x1) := by
  unfold State.countBad
  try dsimp only
  repeat' (first
    | with_reducible assumption
    | with_reducible refine State.wr_only _ _ _ (k.words (by decide)) ?_)

theorem State.leaveBad_only {m : Nat} {r s : State} {x1 : Nat} (k : Covers 0x4000000000000000000000000000002000000000000000000000000000000000000000000000000000000000000000000000000000000030000000000000000000 m) (h : Only m r s) : Only m r (State.leaveBad s x1) := by
  unfold State.leaveBad
  try dsimp only
  repeat' (first
    | with_reducible assumption
    | fail_if_no_progress (with_reducible refine Only.msTo (by apply MemStOnly.of <;> first | exact .inl (k.bit (by decide)) | exact .inr rfl) rfl ?_)
    | with_reducible refine State.countBad_only (k.sub (by decide)) ?_
    | with_reducible refine State.setWord_at_only (k.words (by decide)) ?_
    | split)

theorem State.stackFails_only {m : Nat} {r s : State} {x1 : Nat} (k : Covers 0x30600000000000000000000000000000080000000000000000000000000000000000000000000000000000000c00000080000020000000000800700000000000200 m) (h : Only m r s) : Only m r (State.stackFails s x1) := by
  unfold State.stackFails
  try dsimp only
  repeat' (first
    | with_reducible assumption
    | with_reducible apply Only.ite
    | with_reducible refine State.fall_only (k.sub (by decide)) ?_
    | with_reducible refine State.raise_only (k.sub (by decide)) ?_
    | with_reducible refine State.wr_only _ _ _ (k.words (by decide)) ?_)

theorem State.joinBad_only {m : Nat} {r s : State} {x1 : Nat} (k : Covers 0x34600000000000000000000000000002088000000000000000000000000000000000000000000000000000000c00000080000020000000010800700000000000200 m) (h : Only m r s) : Only m r (State.joinBad s x1) := by
  unfold State.joinBad
  try dsimp only
  repeat' (first
    | with_reducible assumption
    | fail_if_no_progress (with_reducible refine Only.msTo (by apply MemStOnly.of <;> first | exact .inl (k.bit (by decide)) | exact .inr rfl) rfl ?_)
    | with_reducible apply Only.ite
    | with_reducible refine State.countBad_only (k.sub (by decide)) ?_
    | with_reducible refine State.wr_only _ _ _ (k.words (by decide)) ?_
    | with_reducible refine State.budgetEvents_only (k.sub (by decide)) ?_
    | with_reducible refine State.stackFails_only (k.sub (by decide)) ?_
    | with_reducible refine State.setErr_only _ _ (k.err (by decide) (by decide)) ?_
    | split)

theorem State.uncorrectable_only {m : Nat} {r s : State} {x1 : Nat} (k : Covers 0x30600000000000000000000000000000018000000000000000000000000000000000000000000000000000000000000080000020000000000000700000000000200 m) (h : Only m r s) : Only m r (State.uncorrectable s x1) := by
  unfold State.uncorrectable
  try dsimp only
  repeat' (first
    | with_reducible assumption
    | with_reducible refine State.raise_only (k.sub (by decide)) ?_
    | with_reducible refine State.addWrap_only _ _ _ (k.words (by decide)) ?_
    | with_reducible refine State.setErr_only _ _ (k.err (by decide) (by decide)) ?_)

theorem State.stackWrite_only {m : Nat} {r s : State} {x1 : Nat} {x2 : List (Nat × List Byte)} (k : Covers 0x34600000000000000000000000000002098000000000000000000000000000000000000000000000000000000c00000080000020000000031800700000000000200 m) (h : Only m r s) : Only m r (State.stackWrite s x1 x2) := by
  unfold State.stackWrite
  have hu : Only m r { s with ms := { s.ms with hbm := x2.foldl (fun m kb => sstore m (1024 * x1 + 32 * kb.1) kb.2) s.ms.hbm } } :=
    Only.memory h (by apply MemStOnly.of <;> first | exact .inl (k.bit (by decide)) | exact .inr rfl) (swf_foldl (fun m kb w => swf_sstore _ _ w) x2)
  try dsimp only
  repeat' (first
    | with_reducible assumption
    | with_reducible apply Only.ite
    | with_reducible refine State.leaveBad_only (k.sub (by decide)) ?_
    | with_reducible refine State.joinBad_only (k.sub (by decide)) ?_
    | with_reducible refine State.uncorrectable_only (k.sub (by decide)) ?_)

theorem State.writeBack_only {m : Nat} {r s : State} {x1 : Line} (k : Covers 0x34600000000000000000000000000002098000000000000000000000000000000000000000000000000000000c00000080000020000000031800700000000000200 m) (h : Only m r s) : Only m r (State.writeBack s x1) := by
  unfold State.writeBack
  try dsimp only
  repeat' (first
    | with_reducible assumption
    | with_reducible apply Only.ite
    | with_reducible refine State.stackWrite_only (k.sub (by decide)) ?_)

theorem State.flushCombining_only {m : Nat} {r s : State} {x1 : Nat} (k : Covers 0x3460000000000000000000000000000209a000000000000000000000000000000000000000000000000000000c00000080000020000000039800700000000000200 m) (h : Only m r s) : Only m r (State.flushCombining s x1) := by
  unfold State.flushCombining
  try dsimp only
  repeat' (first
    | with_reducible assumption
    | fail_if_no_progress (with_reducible refine Only.msTo (by apply MemStOnly.of <;> first | exact .inl (k.bit (by decide)) | exact .inr rfl) rfl ?_)
    | with_reducible refine State.countCombining_only (k.sub (by decide)) ?_
    | with_reducible refine State.writeBack_only (k.sub (by decide)) ?_
    | split)

theorem State.evict_only {m : Nat} {r s : State} {x1 : Line} (k : Covers 0x34600000000000000000000000000002098000000000000000000000000000000000000000000000000000000c00000080000020000000033800700000000000200 m) (h : Only m r s) : Only m r (State.evict s x1) := by
  unfold State.evict
  try dsimp only
  repeat' (first
    | with_reducible assumption
    | fail_if_no_progress (with_reducible refine Only.msTo (by apply MemStOnly.of <;> first | exact .inl (k.bit (by decide)) | exact .inr rfl) rfl ?_)
    | with_reducible refine State.writeBack_only (k.sub (by decide)) ?_)

theorem State.allocate_only {m : Nat} {r s : State} {x1 : Nat} {x2 : Bool} (k : Covers 0x3460000000000000000000000000000209a000000000000000000000000000000000000000000000000000000c0000008000002000000003b800700000000000200 m) (h : Only m r s) : Only m r (State.allocate s x1 x2) := by
  unfold State.allocate
  try dsimp only
  repeat' (first
    | with_reducible assumption
    | fail_if_no_progress (with_reducible refine Only.msTo (by apply MemStOnly.of <;> first | exact .inl (k.bit (by decide)) | exact .inr rfl) rfl ?_)
    | with_reducible refine State.flushCombining_only (k.sub (by decide)) ?_
    | with_reducible refine State.evict_only (k.sub (by decide)) ?_
    | split)

theorem State.combine_only {m : Nat} {r s : State} {x1 : Nat} {x2 : List (Nat × List Byte)} (k : Covers 0x3460000000000000000000000000000209a000000000000000000000000000000000000000000000000000000c00000080000020000000039800700000000000200 m) (h : Only m r s) : Only m r (State.combine s x1 x2) := by
  unfold State.combine
  try dsimp only
  repeat' (first
    | with_reducible assumption
    | fail_if_no_progress (with_reducible refine Only.msTo (by apply MemStOnly.of <;> first | exact .inl (k.bit (by decide)) | exact .inr rfl) rfl ?_)
    | with_reducible apply Only.ite
    | with_reducible refine State.flushCombining_only (k.sub (by decide)) ?_
    | with_reducible refine State.countCombining_only (k.sub (by decide)) ?_
    | split)

theorem State.writeStripe_only {m : Nat} {r s : State} {x1 : Hint} {x2 : Nat} {x3 : List (Nat × List Byte)} (k : Covers 0x3460000000000000000000000000000209a000000000000000000000000000000000000000000000000000000c0000008000002000000003f800700000000000200 m) (h : Only m r s) : Only m r (State.writeStripe s x1 x2 x3) := by
  unfold State.writeStripe
  try dsimp only
  repeat' (first
    | with_reducible assumption
    | fail_if_no_progress (with_reducible refine Only.msTo (by apply MemStOnly.of <;> first | exact .inl (k.bit (by decide)) | exact .inr rfl) rfl ?_)
    | with_reducible apply Only.ite
    | with_reducible refine State.allocate_only (k.sub (by decide)) ?_
    | with_reducible refine State.combine_only (k.sub (by decide)) ?_
    | split)

theorem State.memWrite_only {m : Nat} {r s : State} {x1 : Hint} {x2 : Nat} {x3 : List Byte} (k : Covers 0x3460000000000000000000000000000209a000000000000000000000000000000000000000000000000000000c0000008000002000000003f800700000000000200 m) (h : Only m r s) : Only m r (State.memWrite s x1 x2 x3) := by
  unfold State.memWrite
  try dsimp only
  repeat' (first
    | (intro _; try dsimp only)
    | with_reducible assumption
    | with_reducible apply Only.foldl
    | with_reducible refine State.writeStripe_only (k.sub (by decide)) ?_)

theorem State.setMooring_only {m : Nat} {r s : State} {x1 : Nat} {x2 : Mooring} (k : Covers 0x40000000000000000000 m) (h : Only m r s) : Only m r (State.setMooring s x1 x2) := by
  unfold State.setMooring
  try dsimp only
  repeat' (first
    | with_reducible assumption
    | fail_if_no_progress (with_reducible refine Only.msTo (by apply MemStOnly.of <;> first | exact .inl (k.bit (by decide)) | exact .inr rfl) rfl ?_))

theorem State.serveWaits_only {m : Nat} {r s : State} {x1 : Nat} {x2 : Nat} (k : Covers 0x90000020000000000000000000000000203 m) (h : Only m r s) : Only m r (State.serveWaits s x1 x2) := by
  unfold State.serveWaits
  try dsimp only
  repeat' (first
    | (intro _; try dsimp only)
    | with_reducible assumption
    | with_reducible apply Only.foldl
    | with_reducible refine State.complete_only (k.sub (by decide)) ?_)

theorem State.updateMooring_only {m : Nat} {r s : State} {x1 : Nat} {x2 : Mooring} (k : Covers 0x90000020000000040000000000000000203 m) (h : Only m r s) : Only m r (State.updateMooring s x1 x2) := by
  unfold State.updateMooring
  try dsimp only
  repeat' (first
    | with_reducible assumption
    | with_reducible refine State.setMooring_only (k.sub (by decide)) ?_
    | with_reducible refine State.serveWaits_only (k.sub (by decide)) ?_)

theorem State.readStripe_only {m : Nat} {r s : State} {x1 : Hint} {x2 : Nat} {x3 : List Nat} (k : Covers 0x3460000000000000000000000000000209a000000000000000000000000000000000000000000000000000000c0000008000002000000003b800700000000000200 m) (h : Only m r s) : Only m r (State.readStripe s x1 x2 x3) := by
  unfold State.readStripe
  try dsimp only
  repeat' (first
    | with_reducible assumption
    | fail_if_no_progress (with_reducible refine Only.msTo (by apply MemStOnly.of <;> first | exact .inl (k.bit (by decide)) | exact .inr rfl) rfl ?_)
    | with_reducible apply Only.ite
    | with_reducible refine State.allocate_only (k.sub (by decide)) ?_
    | split)

theorem State.readRange_only {m : Nat} {r s : State} {x1 : Hint} {x2 : Nat} {x3 : Nat} (k : Covers 0x3460000000000000000000000000000209a000000000000000000000000000000000000000000000000000000c0000008000002000000003b800700000000000200 m) (h : Only m r s) : Only m r (State.readRange s x1 x2 x3) := by
  unfold State.readRange
  try dsimp only
  repeat' (first
    | (intro _; try dsimp only)
    | with_reducible assumption
    | with_reducible apply Only.foldl
    | with_reducible refine State.readStripe_only (k.sub (by decide)) ?_)

theorem State.atomicLine_only {m : Nat} {r s : State} {x1 : Nat} {x2 : List Nat} (k : Covers 0x3460000000000000000000000000000209a000000000000000000000000000000000000000000000000000000c0000008000002000000003d800700000000000200 m) (h : Only m r s) : Only m r (State.atomicLine s x1 x2) := by
  unfold State.atomicLine
  try dsimp only
  repeat' (first
    | with_reducible assumption
    | fail_if_no_progress (with_reducible refine Only.msTo (by apply MemStOnly.of <;> first | exact .inl (k.bit (by decide)) | exact .inr rfl) rfl ?_)
    | with_reducible apply Only.ite
    | with_reducible refine State.flushCombining_only (k.sub (by decide)) ?_
    | with_reducible refine State.writeBack_only (k.sub (by decide)) ?_
    | split)

theorem State.atomicPlace_only {m : Nat} {r s : State} {x1 : Nat} {x2 : Nat} (k : Covers 0x3460000000000000000000000000000209a000000000000000000000000000000000000000000000000000000c0000008000002000000003f800700000000000200 m) (h : Only m r s) : Only m r (State.atomicPlace s x1 x2) := by
  unfold State.atomicPlace
  try dsimp only
  repeat' (first
    | with_reducible assumption
    | fail_if_no_progress (with_reducible refine Only.msTo (by apply MemStOnly.of <;> first | exact .inl (k.bit (by decide)) | exact .inr rfl) rfl ?_)
    | with_reducible apply Only.ite
    | with_reducible refine State.allocate_only (k.sub (by decide)) ?_
    | with_reducible refine State.atomicLine_only (k.sub (by decide)) ?_
    | split)

theorem State.atomicWrite_only {m : Nat} {r s : State} {x1 : Nat} {x2 : List Byte} (k : Covers 0x3460000000000000000000000000000209a000000000000000000000000000000000000000000000000000000c0000008000002000000003f800700000000000200 m) (h : Only m r s) : Only m r (State.atomicWrite s x1 x2) := by
  unfold State.atomicWrite
  try dsimp only
  repeat' (first
    | with_reducible assumption
    | with_reducible refine State.memWrite_only (k.sub (by decide)) ?_
    | with_reducible refine State.atomicPlace_only (k.sub (by decide)) ?_)

theorem State.add32_only {m : Nat} {r s : State} {x1 : Nat} {x2 : Nat} {x3 : List Nat} (k : Covers 0x3460000000000000000000000000000309a000000000000000000000000000000000000000000000000000000c0000008000002000000003f800700000000000200 m) (h : Only m r s) : Only m r (State.add32 s x1 x2 x3) := by
  unfold State.add32
  try dsimp only
  repeat' (first
    | with_reducible assumption
    | with_reducible apply Only.ite
    | with_reducible refine State.memWrite_only (k.sub (by decide)) ?_
    | with_reducible refine State.addWrap_only _ _ _ (k.words (by decide)) ?_
    | with_reducible refine State.uncorrectable_only (k.sub (by decide)) ?_
    | with_reducible refine State.atomicWrite_only (k.sub (by decide)) ?_)

theorem State.correctedRead_only {m : Nat} {r s : State} {x1 : Nat} (k : Covers 0x18000000000000000000000000000000000000000000000000000000000000000000000000000000000000000000000000 m) (h : Only m r s) : Only m r (State.correctedRead s x1) := by
  unfold State.correctedRead
  try dsimp only
  repeat' (first
    | with_reducible assumption
    | with_reducible refine State.addWrap_only _ _ _ (k.words (by decide)) ?_
    | with_reducible refine State.setErr_only _ _ (k.err (by decide) (by decide)) ?_)

theorem State.setFlows_only {m : Nat} {r s : State} {x1 : Nat} {x2 : List (Nat × Flow)} (k : Covers 0x200000000000000000000 m) (h : Only m r s) : Only m r (State.setFlows s x1 x2) := by
  unfold State.setFlows
  try dsimp only
  repeat' (first
    | with_reducible assumption
    | fail_if_no_progress (with_reducible refine Only.msTo (by apply MemStOnly.of <;> first | exact .inl (k.bit (by decide)) | exact .inr rfl) rfl ?_))

theorem State.flushFlow_only {m : Nat} {r s : State} {x1 : Nat} {x2 : Nat} (k : Covers 0x3460000000000000000000000000000309a000000000000000000000000000000000000000000000000000000c0000008000002000000023f800700000000000200 m) (h : Only m r s) : Only m r (State.flushFlow s x1 x2) := by
  unfold State.flushFlow
  try dsimp only
  repeat' (first
    | with_reducible assumption
    | with_reducible apply Only.ite
    | with_reducible refine State.add32_only (k.sub (by decide)) ?_
    | with_reducible refine State.setFlows_only (k.sub (by decide)) ?_
    | split)

theorem State.flowAdd_only {m : Nat} {r s : State} {x1 : Option (Nat × Nat)} {x2 : Flow} (k : Covers 0x3460000000000000000000000000000309a000000000000000000000000000000000000000000000000000000c0000008000002000000023f800700000000000200 m) (h : Only m r s) : Only m r (State.flowAdd s x1 x2) := by
  unfold State.flowAdd
  try dsimp only
  repeat' (first
    | with_reducible assumption
    | with_reducible apply Only.ite
    | with_reducible refine State.setFlows_only (k.sub (by decide)) ?_
    | with_reducible refine State.addWrap_only _ _ _ (k.words (by decide)) ?_
    | with_reducible refine State.flushFlow_only (k.sub (by decide)) ?_
    | split)

theorem State.nearRead_only {m : Nat} {r s : State} {x1 : Nat} {x2 : Sram} (k : Covers 0x3460000000000000000000000000000209a000000000000000000000000000000000000000000000000000000c0000008000002000000001e800700000000000200 m) (h : Only m r s) : Only m r (State.nearRead s x1 x2) := by
  unfold State.nearRead
  try dsimp only
  repeat' (first
    | with_reducible assumption
    | fail_if_no_progress (with_reducible refine Only.msTo (by apply MemStOnly.of <;> first | exact .inl (k.bit (by decide)) | exact .inr rfl) rfl ?_)
    | with_reducible apply Only.ite
    | with_reducible refine State.correctedRead_only (k.sub (by decide)) ?_
    | with_reducible refine State.countCombining_only (k.sub (by decide)) ?_
    | with_reducible refine State.uncorrectable_only (k.sub (by decide)) ?_
    | with_reducible refine State.joinBad_only (k.sub (by decide)) ?_
    | split)

theorem State.sramRead_only {m : Nat} {r s : State} {x1 : Nat} {x2 : Nat} {x3 : Sram} (k : Covers 0x30600000000000000000000000000000018000000000000000000000000000000000000000000000000000000000000080000020000000000000700000000000200 m) (h : Only m r s) : Only m r (State.sramRead s x1 x2 x3) := by
  unfold State.sramRead
  try dsimp only
  repeat' (first
    | with_reducible assumption
    | with_reducible refine State.correctedRead_only (k.sub (by decide)) ?_
    | with_reducible refine State.raise_only (k.sub (by decide)) ?_
    | with_reducible refine State.addWrap_only _ _ _ (k.words (by decide)) ?_
    | with_reducible refine State.setErr_only _ _ (k.err (by decide) (by decide)) ?_
    | split)

/-! ### Machine/Landing.lean -/

theorem State.setTile_only {m : Nat} {r s : State} {x1 : Nat} {x2 : TileSt} (k : Covers 0x400000000000000000000 m) (h : Only m r s) : Only m r (State.setTile s x1 x2) := by
  unfold State.setTile
  try dsimp only
  repeat' (first
    | with_reducible assumption
    | fail_if_no_progress (with_reducible refine Only.reTo (by apply ReduceStOnly.of <;> first | exact .inl (k.bit (by decide)) | exact .inr rfl) ?_))

theorem State.modTile_only {m : Nat} {r s : State} {x1 : Nat} {x2 : TileSt → TileSt} (k : Covers 0x400000000000000000000 m) (h : Only m r s) : Only m r (State.modTile s x1 x2) := by
  unfold State.modTile
  try dsimp only
  repeat' (first
    | with_reducible assumption
    | with_reducible refine State.setTile_only (k.sub (by decide)) ?_)

theorem State.clearInflight_only {m : Nat} {r s : State} {x1 : Nat} (k : Covers 0x80000000000000000000000 m) (h : Only m r s) : Only m r (State.clearInflight s x1) := by
  unfold State.clearInflight
  try dsimp only
  repeat' (first
    | with_reducible assumption
    | fail_if_no_progress (with_reducible refine Only.clTo (by apply CollectiveStOnly.of <;> first | exact .inl (k.bit (by decide)) | exact .inr rfl) ?_))

theorem State.dropFrame_only {m : Nat} {r s : State} {x1 : Nat} (k : Covers 0x10000000000000000000000000000000000020000000000000000800418000000 m) (h : Only m r s) : Only m r (State.dropFrame s x1) := by
  unfold State.dropFrame
  try dsimp only
  repeat' (first
    | with_reducible assumption
    | with_reducible apply Only.ite
    | with_reducible refine State.delFrame_only (k.sub (by decide)) ?_
    | with_reducible refine State.completeFence_only (k.sub (by decide)) ?_
    | with_reducible refine State.freeCells_only (k.sub (by decide)) ?_
    | split)

theorem State.fillFrame_only {m : Nat} {r s : State} {x1 : Nat} {x2 : Nat} {x3 : Landed} {x4 : List Byte} (k : Covers 0x400000000000000000000 m) (h : Only m r s) : Only m r (State.fillFrame s x1 x2 x3 x4) := by
  unfold State.fillFrame
  try dsimp only
  repeat' (first
    | with_reducible assumption
    | with_reducible refine State.modTile_only (k.sub (by decide)) ?_)

theorem State.unwait_only {m : Nat} {r s : State} {x1 : Nat} (k : Covers 0x100000000000000000000000 m) (h : Only m r s) : Only m r (State.unwait s x1) := by
  unfold State.unwait
  try dsimp only
  repeat' (first
    | with_reducible assumption
    | fail_if_no_progress (with_reducible refine Only.clTo (by apply CollectiveStOnly.of <;> first | exact .inl (k.bit (by decide)) | exact .inr rfl) ?_))

theorem State.clDrop_only {m : Nat} {r s : State} {x1 : Nat} {x2 : Option Nat} (k : Covers 0x60000000000000000000000000000000000000000000000000000000000000000000000000000000400000000 m) (h : Only m r s) : Only m r (State.clDrop s x1 x2) := by
  unfold State.clDrop
  try dsimp only
  repeat' (first
    | with_reducible assumption
    | with_reducible apply Only.ite
    | with_reducible refine State.addWrap_only _ _ _ (k.words (by decide)) ?_
    | with_reducible refine State.setErr_only _ _ (k.err (by decide) (by decide)) ?_
    | with_reducible refine State.portAdd_only (k.sub (by decide)) ?_
    | split)

theorem State.setInflight_only {m : Nat} {r s : State} {x1 : Nat} {x2 : Inflight} (k : Covers 0x80000000000000000000000 m) (h : Only m r s) : Only m r (State.setInflight s x1 x2) := by
  unfold State.setInflight
  try dsimp only
  repeat' (first
    | with_reducible assumption
    | fail_if_no_progress (with_reducible refine Only.clTo (by apply CollectiveStOnly.of <;> first | exact .inl (k.bit (by decide)) | exact .inr rfl) ?_))

theorem State.dropWaiting_only {m : Nat} {r s : State} {x1 : Waiting} (k : Covers 0x60000000000000000000000010000000000000000000000000000000000020000180000000000800418000000 m) (h : Only m r s) : Only m r (State.dropWaiting s x1) := by
  unfold State.dropWaiting
  try dsimp only
  repeat' (first
    | with_reducible assumption
    | with_reducible apply Only.ite
    | with_reducible refine State.clDrop_only (k.sub (by decide)) ?_
    | with_reducible refine State.unwait_only (k.sub (by decide)) ?_
    | with_reducible refine State.dropFrame_only (k.sub (by decide)) ?_
    | with_reducible refine State.setInflight_only (k.sub (by decide)) ?_
    | split)

theorem State.dropCopies_only {m : Nat} {r s : State} {x1 : Nat} {x2 : Nat} {x3 : Nat} {x4 : Nat} (k : Covers 0x60000000000000000000000010000000000000000000000000000000000020000180000000000800418000000 m) (h : Only m r s) : Only m r (State.dropCopies s x1 x2 x3 x4) := by
  unfold State.dropCopies
  try dsimp only
  repeat' (first
    | (intro _; try dsimp only)
    | with_reducible assumption
    | with_reducible apply Only.foldl
    | with_reducible refine State.dropWaiting_only (k.sub (by decide)) ?_)

theorem State.setGroup_only {m : Nat} {r s : State} {x1 : Nat} {x2 : GroupSt} (k : Covers 0x20000000000000000000000 m) (h : Only m r s) : Only m r (State.setGroup s x1 x2) := by
  unfold State.setGroup
  try dsimp only
  repeat' (first
    | with_reducible assumption
    | fail_if_no_progress (with_reducible refine Only.clTo (by apply CollectiveStOnly.of <;> first | exact .inl (k.bit (by decide)) | exact .inr rfl) ?_))

theorem State.modGroup_only {m : Nat} {r s : State} {x1 : Nat} {x2 : GroupSt → GroupSt} (k : Covers 0x20000000000000000000000 m) (h : Only m r s) : Only m r (State.modGroup s x1 x2) := by
  unfold State.modGroup
  try dsimp only
  repeat' (first
    | with_reducible assumption
    | with_reducible refine State.setGroup_only (k.sub (by decide)) ?_
    | split)

theorem State.modArmed_only {m : Nat} {r s : State} {x1 : Nat} {x2 : Armed → Armed} (k : Covers 0x20000000000000000000000 m) (h : Only m r s) : Only m r (State.modArmed s x1 x2) := by
  unfold State.modArmed
  try dsimp only
  repeat' (first
    | with_reducible assumption
    | with_reducible refine State.modGroup_only (k.sub (by decide)) ?_)

theorem State.modLeg_only {m : Nat} {r s : State} {x1 : Nat} {x2 : Nat} {x3 : LegSt → LegSt} (k : Covers 0x20000000000000000000000 m) (h : Only m r s) : Only m r (State.modLeg s x1 x2 x3) := by
  unfold State.modLeg
  try dsimp only
  repeat' (first
    | with_reducible assumption
    | with_reducible refine State.modArmed_only (k.sub (by decide)) ?_)

theorem State.halfFull_only {m : Nat} {r s : State} {x1 : Nat} {x2 : Nat} {x3 : Nat} (k : Covers 0x20000000000000000000000 m) (h : Only m r s) : Only m r (State.halfFull s x1 x2 x3) := by
  unfold State.halfFull
  try dsimp only
  repeat' (first
    | with_reducible assumption
    | with_reducible refine State.modLeg_only (k.sub (by decide)) ?_
    | with_reducible refine State.modArmed_only (k.sub (by decide)) ?_
    | split)

theorem State.bumpHalf_only {m : Nat} {r s : State} {x1 : Nat} {x2 : Nat} {x3 : Nat} (k : Covers 0x90000020000020040000000000000000203 m) (h : Only m r s) : Only m r (State.bumpHalf s x1 x2 x3) := by
  unfold State.bumpHalf
  try dsimp only
  repeat' (first
    | with_reducible assumption
    | with_reducible apply Only.ite
    | with_reducible refine State.updateMooring_only (k.sub (by decide)) ?_
    | with_reducible refine State.halfFull_only (k.sub (by decide)) ?_)

theorem State.modOp_only {m : Nat} {r s : State} {x1 : Nat} {x2 : Nat} {x3 : OpSt → OpSt} (k : Covers 0x20000000000000000000000 m) (h : Only m r s) : Only m r (State.modOp s x1 x2 x3) := by
  unfold State.modOp
  try dsimp only
  repeat' (first
    | with_reducible assumption
    | with_reducible refine State.modArmed_only (k.sub (by decide)) ?_)

theorem State.beginOp_only {m : Nat} {r s : State} {x1 : Nat} {x2 : Nat} (k : Covers 0x20000000000000000000000 m) (h : Only m r s) : Only m r (State.beginOp s x1 x2) := by
  unfold State.beginOp
  try dsimp only
  repeat' (first
    | with_reducible assumption
    | with_reducible refine State.modOp_only (k.sub (by decide)) ?_)

theorem State.countFrame_only {m : Nat} {r s : State} {x1 : Nat} {x2 : Nat} {x3 : Nat} {x4 : Nat} {x5 : Nat} (k : Covers 0x90000020000020440000000000000000203 m) (h : Only m r s) : Only m r (State.countFrame s x1 x2 x3 x4 x5) := by
  unfold State.countFrame
  try dsimp only
  repeat' (first
    | with_reducible assumption
    | with_reducible refine State.bumpHalf_only (k.sub (by decide)) ?_
    | with_reducible refine State.beginOp_only (k.sub (by decide)) ?_
    | with_reducible refine State.modTile_only (k.sub (by decide)) ?_
    | split)

theorem State.wakeCopy_only {m : Nat} {r s : State} {x1 : Nat} {x2 : Nat} {x3 : Nat} {x4 : Nat} {x5 : Nat} {x6 : Landed} {x7 : Nat} (k : Covers 0x600000000000000000000000100000000000000000000000000000900000200001a0440000000800418000203 m) (h : Only m r s) : Only m r (State.wakeCopy s x1 x2 x3 x4 x5 x6 x7) := by
  unfold State.wakeCopy
  try dsimp only
  repeat' (first
    | with_reducible assumption
    | with_reducible apply Only.ite
    | with_reducible refine State.fillFrame_only (k.sub (by decide)) ?_
    | with_reducible refine State.unwait_only (k.sub (by decide)) ?_
    | with_reducible refine State.dropFrame_only (k.sub (by decide)) ?_
    | with_reducible refine State.dropCopies_only (k.sub (by decide)) ?_
    | with_reducible refine State.countFrame_only (k.sub (by decide)) ?_
    | with_reducible refine State.setInflight_only (k.sub (by decide)) ?_
    | split)

theorem State.freeFrame_only {m : Nat} {r s : State} {x1 : Nat} {x2 : Nat} (k : Covers 0x400000000000000000000 m) (h : Only m r s) : Only m r (State.freeFrame s x1 x2) := by
  unfold State.freeFrame
  try dsimp only
  repeat' (first
    | with_reducible assumption
    | with_reducible refine State.modTile_only (k.sub (by decide)) ?_)

theorem State.freeEarly_only {m : Nat} {r s : State} {x1 : Nat} {x2 : Nat} {x3 : Nat} (k : Covers 0x20000000000000000000000 m) (h : Only m r s) : Only m r (State.freeEarly s x1 x2 x3) := by
  unfold State.freeEarly
  try dsimp only
  repeat' (first
    | with_reducible assumption
    | with_reducible refine State.modLeg_only (k.sub (by decide)) ?_)

theorem State.undoInflight_only {m : Nat} {r s : State} {x1 : Nat} (k : Covers 0x600000000000000000000000100000000000000000000000000000900000200001a0440000000800418000203 m) (h : Only m r s) : Only m r (State.undoInflight s x1) := by
  unfold State.undoInflight
  try dsimp only
  repeat' (first
    | with_reducible assumption
    | with_reducible apply Only.ite
    | with_reducible refine State.clearInflight_only (k.sub (by decide)) ?_
    | with_reducible refine State.dropFrame_only (k.sub (by decide)) ?_
    | with_reducible refine State.wakeCopy_only (k.sub (by decide)) ?_
    | with_reducible refine State.freeFrame_only (k.sub (by decide)) ?_
    | with_reducible refine State.freeEarly_only (k.sub (by decide)) ?_
    | with_reducible refine State.unwait_only (k.sub (by decide)) ?_
    | split)

theorem State.setMslot_only {m : Nat} {r s : State} {x1 : Nat} {x2 : SlotSt} (k : Covers 0x800000000000000000000 m) (h : Only m r s) : Only m r (State.setMslot s x1 x2) := by
  unfold State.setMslot
  try dsimp only
  repeat' (first
    | with_reducible assumption
    | fail_if_no_progress (with_reducible refine Only.reTo (by apply ReduceStOnly.of <;> first | exact .inl (k.bit (by decide)) | exact .inr rfl) ?_))

theorem State.modMslot_only {m : Nat} {r s : State} {x1 : Nat} {x2 : SlotSt → SlotSt} (k : Covers 0x800000000000000000000 m) (h : Only m r s) : Only m r (State.modMslot s x1 x2) := by
  unfold State.modMslot
  try dsimp only
  repeat' (first
    | with_reducible assumption
    | with_reducible refine State.setMslot_only (k.sub (by decide)) ?_)

theorem State.settleHalf_only {m : Nat} {r s : State} {x1 : Nat} {x2 : Nat} {x3 : Nat} (k : Covers 0x20040000000000000000000 m) (h : Only m r s) : Only m r (State.settleHalf s x1 x2 x3) := by
  unfold State.settleHalf
  try dsimp only
  repeat' (first
    | with_reducible assumption
    | with_reducible apply Only.ite
    | with_reducible refine State.setMooring_only (k.sub (by decide)) ?_
    | with_reducible refine State.halfFull_only (k.sub (by decide)) ?_)

theorem State.clearHalf_only {m : Nat} {r s : State} {x1 : Nat} {x2 : Nat} {x3 : Nat} (k : Covers 0x20040000000000000000000 m) (h : Only m r s) : Only m r (State.clearHalf s x1 x2 x3) := by
  unfold State.clearHalf
  try dsimp only
  repeat' (first
    | with_reducible assumption
    | with_reducible refine State.modLeg_only (k.sub (by decide)) ?_
    | with_reducible refine State.setMooring_only (k.sub (by decide)) ?_)

theorem State.fillEarly_only {m : Nat} {r s : State} {x1 : Nat} {x2 : Nat} {x3 : Nat} {x4 : Nat} {x5 : Landed} {x6 : List Byte} (k : Covers 0x3460000000000000000000000000000209a000000000000000000000000000000000000000000000000000000c0000008000002000002003f800700000000000200 m) (h : Only m r s) : Only m r (State.fillEarly s x1 x2 x3 x4 x5 x6) := by
  unfold State.fillEarly
  try dsimp only
  repeat' (first
    | with_reducible assumption
    | with_reducible refine State.modLeg_only (k.sub (by decide)) ?_
    | with_reducible refine State.memWrite_only (k.sub (by decide)) ?_)

/-! ### Machine/Wire.lean -/

theorem State.dropStore_only {m : Nat} {r s : State} {x1 : Nat} (k : Covers 0x10000000000000000000000000000000000020000000000000000800418000000 m) (h : Only m r s) : Only m r (State.dropStore s x1) := by
  unfold State.dropStore
  try dsimp only
  repeat' (first
    | (intro _; try dsimp only)
    | with_reducible assumption
    | with_reducible apply Only.foldl
    | with_reducible refine State.portAdd_only (k.sub (by decide)) ?_
    | with_reducible refine State.modPort_only (k.sub (by decide)) ?_
    | with_reducible refine State.ackCopy_only (k.sub (by decide)) ?_
    | split)

theorem State.takeSeq_only {m : Nat} {r s : State} {x1 : Nat} {x2 : Nat} {x3 : Nat} (k : Covers 0x8000000 m) (h : Only m r s) : Only m r (State.takeSeq s x1 x2 x3).2 := by
  unfold State.takeSeq
  try dsimp only
  repeat' (first
    | with_reducible assumption
    | with_reducible refine State.setPort_only (k.sub (by decide)) ?_)

theorem State.sendHeld_only {m : Nat} {r s : State} {x1 : Nat} {x2 : Held} (k : Covers 0x20000000000000000000008000000 m) (h : Only m r s) : Only m r (State.sendHeld s x1 x2) := by
  unfold State.sendHeld
  try dsimp only
  repeat' (first
    | with_reducible assumption
    | with_reducible refine State.emit_only _ (k.bit (i := 113) (by decide)) ?_
    | with_reducible refine State.modPort_only (k.sub (by decide)) ?_)

theorem State.flushOwn_only {m : Nat} {r s : State} {x1 : Nat} {x2 : Nat} (k : Covers 0x20000000000000000000408000000 m) (h : Only m r s) : Only m r (State.flushOwn s x1 x2) := by
  induction x2 generalizing s with
  | zero => rw [State.flushOwn]; exact h
  | succ n ih =>
    rw [State.flushOwn]
    try dsimp only
    repeat' (first
      | with_reducible assumption
      | with_reducible apply ih
      | with_reducible apply Only.ite
      | with_reducible refine State.modPort_only (k.sub (by decide)) ?_
      | with_reducible refine State.takeSeq_only (k.sub (by decide)) ?_
      | with_reducible refine State.sendHeld_only (k.sub (by decide)) ?_
      | with_reducible refine State.countTx_only (k.sub (by decide)) ?_
      | split)

theorem State.releaseOwn_only {m : Nat} {r s : State} {x1 : Nat} (k : Covers 0x20000000000000000000408000000 m) (h : Only m r s) : Only m r (State.releaseOwn s x1) := by
  unfold State.releaseOwn
  try dsimp only
  repeat' (first
    | with_reducible assumption
    | with_reducible refine State.flushOwn_only (k.sub (by decide)) ?_)

theorem State.sendOwn_only {m : Nat} {r s : State} {x1 : Nat} {x2 : List Byte} (k : Covers 0x20000000000000000000408000000 m) (h : Only m r s) : Only m r (State.sendOwn s x1 x2) := by
  unfold State.sendOwn
  try dsimp only
  repeat' (first
    | with_reducible assumption
    | with_reducible apply Only.ite
    | with_reducible refine State.releaseOwn_only (k.sub (by decide)) ?_
    | with_reducible refine State.modPort_only (k.sub (by decide)) ?_
    | with_reducible refine State.sendPlain_only (k.sub (by decide)) ?_)

theorem State.sendMarker_only {m : Nat} {r s : State} {x1 : Nat} {x2 : Nat} {x3 : Nat} {x4 : Nat} (k : Covers 0x20000000000000000000408000000 m) (h : Only m r s) : Only m r (State.sendMarker s x1 x2 x3 x4) := by
  unfold State.sendMarker
  try dsimp only
  repeat' (first
    | with_reducible assumption
    | with_reducible refine State.sendOwn_only (k.sub (by decide)) ?_)

theorem State.leave_only {m : Nat} {r s : State} {x1 : Fn} (k : Covers 0x30600000000000000000000000000000000000000000000000000000000000000010000000000000000000000c00000080000020000000000800700800418000200 m) (h : Only m r s) : Only m r (State.leave s x1) := by
  unfold State.leave
  try dsimp only
  repeat' (first
    | (intro _; try dsimp only)
    | with_reducible assumption
    | with_reducible apply Only.foldl
    | with_reducible apply Only.ite
    | with_reducible refine State.fall_only (k.sub (by decide)) ?_
    | with_reducible refine State.dropStore_only (k.sub (by decide)) ?_)

theorem State.ackTo_only {m : Nat} {r s : State} {x1 : Nat} {x2 : Nat} (k : Covers 0x10000000000004000000000000000000000020000000000000000800418000000 m) (h : Only m r s) : Only m r (State.ackTo s x1 x2) := by
  unfold State.ackTo
  try dsimp only
  repeat' (first
    | (intro _; try dsimp only)
    | with_reducible assumption
    | with_reducible apply Only.foldl
    | with_reducible apply Only.ite
    | with_reducible refine State.wr_only _ _ _ (k.words (by decide)) ?_
    | with_reducible refine State.modPort_only (k.sub (by decide)) ?_
    | with_reducible refine State.releaseOwn_only (k.sub (by decide)) ?_
    | with_reducible refine State.ackCopy_only (k.sub (by decide)) ?_
    | split)

theorem State.resend_only {m : Nat} {r s : State} {x1 : Nat} {x2 : Nat} (k : Covers 0x20000000000000000000400000000 m) (h : Only m r s) : Only m r (State.resend s x1 x2) := by
  unfold State.resend
  try dsimp only
  repeat' (first
    | (intro _; try dsimp only)
    | with_reducible assumption
    | with_reducible apply Only.foldl
    | with_reducible refine State.portAdd_only (k.sub (by decide)) ?_
    | with_reducible refine State.emit_only _ (k.bit (i := 113) (by decide)) ?_)

theorem State.sendStatus_only {m : Nat} {r s : State} {x1 : Nat} (k : Covers 0x20000000000000000000400000000 m) (h : Only m r s) : Only m r (State.sendStatus s x1) := by
  unfold State.sendStatus
  try dsimp only
  repeat' (first
    | with_reducible assumption
    | with_reducible apply Only.ite
    | with_reducible refine State.sendPlain_only (k.sub (by decide)) ?_
    | with_reducible refine State.portAdd_only (k.sub (by decide)) ?_)

theorem State.linkTake_only {m : Nat} {r s : State} {x1 : Nat} (k : Covers 0x20000000000000000000408000000 m) (h : Only m r s) : Only m r (State.linkTake s x1) := by
  unfold State.linkTake
  try dsimp only
  repeat' (first
    | with_reducible assumption
    | with_reducible apply Only.ite
    | with_reducible refine State.setPort_only (k.sub (by decide)) ?_
    | with_reducible refine State.sendStatus_only (k.sub (by decide)) ?_)

theorem State.linkDuplicate_only {m : Nat} {r s : State} {x1 : Nat} (k : Covers 0x400000000 m) (h : Only m r s) : Only m r (State.linkDuplicate s x1) := by
  unfold State.linkDuplicate
  try dsimp only
  repeat' (first
    | with_reducible assumption
    | with_reducible refine State.portAdd_only (k.sub (by decide)) ?_)

theorem State.linkReject_only {m : Nat} {r s : State} {x1 : Nat} (k : Covers 0x20000000000000000000408000000 m) (h : Only m r s) : Only m r (State.linkReject s x1) := by
  unfold State.linkReject
  try dsimp only
  repeat' (first
    | with_reducible assumption
    | with_reducible apply Only.ite
    | with_reducible refine State.sendStatus_only (k.sub (by decide)) ?_
    | with_reducible refine State.modPort_only (k.sub (by decide)) ?_)

theorem State.tagReject_only {m : Nat} {r s : State} {x1 : Nat} {x2 : Option (BitVec 48)} (k : Covers 0x20000000000000000000408000000 m) (h : Only m r s) : Only m r (State.tagReject s x1 x2) := by
  unfold State.tagReject
  try dsimp only
  repeat' (first
    | with_reducible assumption
    | with_reducible apply Only.ite
    | with_reducible refine State.linkReject_only (k.sub (by decide)) ?_
    | with_reducible refine State.portAdd_only (k.sub (by decide)) ?_)

theorem State.linkConsume_only {m : Nat} {r s : State} {x1 : Nat} {x2 : Option (BitVec 48)} {x3 : Nat} (k : Covers 0x20000000000000000000408000000 m) (h : Only m r s) : Only m r (State.linkConsume s x1 x2 x3).2 := by
  unfold State.linkConsume
  try dsimp only
  repeat' (first
    | with_reducible assumption
    | with_reducible refine State.countRx_only (k.sub (by decide)) ?_
    | with_reducible refine State.returnCredit_only (k.sub (by decide)) ?_
    | with_reducible refine State.linkTake_only (k.sub (by decide)) ?_
    | with_reducible refine State.linkDuplicate_only (k.sub (by decide)) ?_
    | with_reducible refine State.tagReject_only (k.sub (by decide)) ?_
    | split)

theorem State.linkConsume_only_eq {m : Nat} {r s : State} {x1 : Nat} {x2 : Option (BitVec 48)} {x3 : Nat} (k : Covers 0x20000000000000000000408000000 m) {a} {t : State} (e : State.linkConsume s x1 x2 x3 = (a, t)) (h : Only m r s) : Only m r t := by
  have w : Only m r (State.linkConsume s x1 x2 x3).2 := State.linkConsume_only k h
  rw [e] at w
  exact w

theorem State.sendInit_only {m : Nat} {r s : State} {x1 : Nat} (k : Covers 0x20000000000000000000408000000 m) (h : Only m r s) : Only m r (State.sendInit s x1) := by
  unfold State.sendInit
  try dsimp only
  repeat' (first
    | with_reducible assumption
    | with_reducible refine State.sendPlain_only (k.sub (by decide)) ?_
    | with_reducible refine State.setPort_only (k.sub (by decide)) ?_)

/-! ### Machine/Fibre.lean -/

theorem State.dropMove_only {m : Nat} {r s : State} {x1 : Nat} (k : Covers 0x4000000000000000000000000 m) (h : Only m r s) : Only m r (State.dropMove s x1) := by
  unfold State.dropMove
  try dsimp only
  repeat' (first
    | with_reducible assumption
    | fail_if_no_progress (with_reducible refine Only.ocTo (by apply OpticalStOnly.of <;> first | exact .inl (k.bit (by decide)) | exact .inr rfl) ?_))

theorem State.setEngine_only {m : Nat} {r s : State} {x1 : Nat} {x2 : EngineSt} (k : Covers 0x2000000000000000000000000 m) (h : Only m r s) : Only m r (State.setEngine s x1 x2) := by
  unfold State.setEngine
  try dsimp only
  repeat' (first
    | with_reducible assumption
    | fail_if_no_progress (with_reducible refine Only.ocTo (by apply OpticalStOnly.of <;> first | exact .inl (k.bit (by decide)) | exact .inr rfl) ?_))

theorem State.sendSetting_only {m : Nat} {r s : State} {x1 : Nat} (k : Covers 0x2000000000000000000000000 m) (h : Only m r s) : Only m r (State.sendSetting s x1) := by
  unfold State.sendSetting
  try dsimp only
  repeat' (first
    | with_reducible assumption
    | with_reducible apply Only.ite
    | with_reducible refine State.setEngine_only (k.sub (by decide)) ?_)

theorem State.setMove_only {m : Nat} {r s : State} {x1 : Nat} {x2 : Move} (k : Covers 0x4000000000000000000000000 m) (h : Only m r s) : Only m r (State.setMove s x1 x2) := by
  unfold State.setMove
  try dsimp only
  repeat' (first
    | with_reducible assumption
    | fail_if_no_progress (with_reducible refine Only.ocTo (by apply OpticalStOnly.of <;> first | exact .inl (k.bit (by decide)) | exact .inr rfl) ?_))

theorem State.abandonMove_only {m : Nat} {r s : State} {x1 : Nat} (k : Covers 0x30600000000000000000000000100000000000000000000000000000000000000000000000000000000000000000000080000020006000000000700000000000200 m) (h : Only m r s) : Only m r (State.abandonMove s x1) := by
  unfold State.abandonMove
  try dsimp only
  repeat' (first
    | with_reducible assumption
    | with_reducible refine State.sendSetting_only (k.sub (by decide)) ?_
    | with_reducible refine State.raise_only (k.sub (by decide)) ?_
    | with_reducible refine State.setErr_only _ _ (k.err (by decide) (by decide)) ?_
    | with_reducible refine State.dropMove_only (k.sub (by decide)) ?_)

theorem State.abandonCal_only {m : Nat} {r s : State} {x1 : Nat} (k : Covers 0x30600000000000000000000100100000000000000000000000000000000000000000000000000000000000000000000080000020206000000000700000000000200 m) (h : Only m r s) : Only m r (State.abandonCal s x1) := by
  unfold State.abandonCal
  try dsimp only
  repeat' (first
    | with_reducible assumption
    | fail_if_no_progress (with_reducible refine Only.ocTo (by apply OpticalStOnly.of <;> first | exact .inl (k.bit (by decide)) | exact .inr rfl) ?_)
    | with_reducible apply Only.ite
    | with_reducible refine State.sendSetting_only (k.sub (by decide)) ?_
    | with_reducible refine State.wr_only _ _ _ (k.words (by decide)) ?_
    | with_reducible refine State.setMove_only (k.sub (by decide)) ?_
    | with_reducible refine State.abandonMove_only (k.sub (by decide)) ?_
    | split)

theorem State.plainFibre_only {m : Nat} {r s : State} {x1 : Nat} (k : Covers 0x3060000000000000000000030010000000000000000000000000000000000000000000000000000000000000000000008000002020e000000000700000000000200 m) (h : Only m r s) : Only m r (State.plainFibre s x1) := by
  unfold State.plainFibre
  try dsimp only
  repeat' (first
    | with_reducible assumption
    | fail_if_no_progress (with_reducible refine Only.ocTo (by apply OpticalStOnly.of <;> first | exact .inl (k.bit (by decide)) | exact .inr rfl) ?_)
    | with_reducible apply Only.ite
    | with_reducible refine State.dropMove_only (k.sub (by decide)) ?_
    | with_reducible refine State.abandonCal_only (k.sub (by decide)) ?_
    | with_reducible refine State.sendSetting_only (k.sub (by decide)) ?_
    | (with_reducible refine State.wrs_only _ (by simp only [List.forall_mem_cons, List.not_mem_nil, false_imp_iff, implies_true, and_true]; (repeat' apply And.intro) <;> exact k.words (by decide)) ?_))

theorem State.setRingSt_only {m : Nat} {r s : State} {x1 : Nat} {x2 : RingSt} (k : Covers 0x1000000000000000000000000 m) (h : Only m r s) : Only m r (State.setRingSt s x1 x2) := by
  unfold State.setRingSt
  try dsimp only
  repeat' (first
    | with_reducible assumption
    | fail_if_no_progress (with_reducible refine Only.ocTo (by apply OpticalStOnly.of <;> first | exact .inl (k.bit (by decide)) | exact .inr rfl) ?_))

theorem State.restartRing_only {m : Nat} {r s : State} {x1 : Nat} (k : Covers 0x1000000000000000000000000 m) (h : Only m r s) : Only m r (State.restartRing s x1) := by
  unfold State.restartRing
  try dsimp only
  repeat' (first
    | with_reducible assumption
    | with_reducible refine State.setRingSt_only (k.sub (by decide)) ?_)

theorem State.restartFour_only {m : Nat} {r s : State} {x1 : Nat} {x2 : Nat} (k : Covers 0x1000000000000000000000000 m) (h : Only m r s) : Only m r (State.restartFour s x1 x2) := by
  unfold State.restartFour
  try dsimp only
  repeat' (first
    | (intro _; try dsimp only)
    | with_reducible assumption
    | with_reducible apply Only.foldl
    | with_reducible refine State.restartRing_only (k.sub (by decide)) ?_)

theorem State.fordW_only {m : Nat} {r s : State} {x1 : Nat} {x2 : Nat} (k : Covers 0x300000000000000000000000000000000000000000000000000000000000000000000000000000000002000000000000000000000000 m) (h : Only m r s) : Only m r (State.fordW s x1 x2) := by
  unfold State.fordW
  try dsimp only
  repeat' (first
    | with_reducible assumption
    | with_reducible refine State.sendSetting_only (k.sub (by decide)) ?_
    | with_reducible refine State.wr_only _ _ _ (k.words (by decide)) ?_)

theorem State.setCircuit_only {m : Nat} {r s : State} {x1 : Nat} {x2 : Circuit} (k : Covers 0x80000000000000000000000000 m) (h : Only m r s) : Only m r (State.setCircuit s x1 x2) := by
  unfold State.setCircuit
  try dsimp only
  repeat' (first
    | with_reducible assumption
    | fail_if_no_progress (with_reducible refine Only.ocTo (by apply OpticalStOnly.of <;> first | exact .inl (k.bit (by decide)) | exact .inr rfl) ?_))

theorem State.freeCircuit_only {m : Nat} {r s : State} {x1 : Nat} (k : Covers 0x310000000000000000000000000000000000000000000000000000000000000000000000000000000083000000000000000000000000 m) (h : Only m r s) : Only m r (State.freeCircuit s x1) := by
  unfold State.freeCircuit
  try dsimp only
  repeat' (first
    | with_reducible assumption
    | with_reducible refine State.restartFour_only (k.sub (by decide)) ?_
    | with_reducible refine State.fordW_only (k.sub (by decide)) ?_
    | (with_reducible refine State.wrs_only _ (by simp only [List.forall_mem_cons, List.not_mem_nil, false_imp_iff, implies_true, and_true]; (repeat' apply And.intro) <;> exact k.words (by decide)) ?_)
    | with_reducible refine State.setCircuit_only (k.sub (by decide)) ?_)

theorem State.laneRestored_only {m : Nat} {r s : State} {x1 : Nat} {x2 : Nat} (k : Covers 0x310000000000000000000000000000000000000000000000000000004000000000000000000000000083000000000000000000000000 m) (h : Only m r s) : Only m r (State.laneRestored s x1 x2) := by
  unfold State.laneRestored
  try dsimp only
  repeat' (first
    | with_reducible assumption
    | with_reducible apply Only.ite
    | with_reducible refine State.wr_only _ _ _ (k.words (by decide)) ?_
    | with_reducible refine State.freeCircuit_only (k.sub (by decide)) ?_
    | with_reducible refine State.setCircuit_only (k.sub (by decide)) ?_
    | split)

theorem State.restoreLane_only {m : Nat} {r s : State} {x1 : Nat} {x2 : Nat} (k : Covers 0x310000000000000000000000000000000000000000000000000000004000000000000000000000020083000000000000000408000000 m) (h : Only m r s) : Only m r (State.restoreLane s x1 x2) := by
  unfold State.restoreLane
  try dsimp only
  repeat' (first
    | with_reducible assumption
    | with_reducible apply Only.ite
    | with_reducible refine State.sendMarker_only (k.sub (by decide)) ?_
    | with_reducible refine State.laneRestored_only (k.sub (by decide)) ?_)

theorem State.endCircuit_only {m : Nat} {r s : State} {x1 : Nat} (k : Covers 0x310000000000000000000000000000000000000000000000000000004000000000000000000000020083000000000000000408000000 m) (h : Only m r s) : Only m r (State.endCircuit s x1) := by
  unfold State.endCircuit
  try dsimp only
  repeat' (first
    | with_reducible assumption
    | with_reducible refine State.restoreLane_only (k.sub (by decide)) ?_
    | with_reducible refine State.setCircuit_only (k.sub (by decide)) ?_)

theorem State.releaseSide_only {m : Nat} {r s : State} {x1 : Nat} {x2 : Nat} (k : Covers 0x310000000000000000000000000000000000000000000000000000004000000000000000000000020083000000000000000408000000 m) (h : Only m r s) : Only m r (State.releaseSide s x1 x2) := by
  unfold State.releaseSide
  try dsimp only
  repeat' (first
    | with_reducible assumption
    | with_reducible apply Only.ite
    | with_reducible refine State.laneRestored_only (k.sub (by decide)) ?_
    | with_reducible refine State.setCircuit_only (k.sub (by decide)) ?_
    | with_reducible refine State.endCircuit_only (k.sub (by decide)) ?_)

theorem State.fordMsg_only {m : Nat} {r s : State} {x1 : Nat} {x2 : Nat} {x3 : Nat} {x4 : Nat} {x5 : Nat} (k : Covers 0x20000000000000000000408000000 m) (h : Only m r s) : Only m r (State.fordMsg s x1 x2 x3 x4 x5) := by
  unfold State.fordMsg
  try dsimp only
  repeat' (first
    | with_reducible assumption
    | with_reducible refine State.sendOwn_only (k.sub (by decide)) ?_)

theorem State.withdrawOffer_only {m : Nat} {r s : State} {x1 : Nat} {x2 : List Nat} (k : Covers 0x310000000000000000000000000000000000000000000000000000000000000000000000000000020083000000000000000408000000 m) (h : Only m r s) : Only m r (State.withdrawOffer s x1 x2) := by
  unfold State.withdrawOffer
  try dsimp only
  repeat' (first
    | (intro _; try dsimp only)
    | with_reducible assumption
    | with_reducible apply Only.foldl
    | with_reducible apply Only.ite
    | with_reducible refine State.freeCircuit_only (k.sub (by decide)) ?_
    | with_reducible refine State.fordMsg_only (k.sub (by decide)) ?_)

theorem State.withdrawSide_only {m : Nat} {r s : State} {x1 : Nat} {x2 : Nat} (k : Covers 0x310000000000000000000000000000000000000000000000000000004000000000000000000000020083000000000000000408000000 m) (h : Only m r s) : Only m r (State.withdrawSide s x1 x2) := by
  unfold State.withdrawSide
  try dsimp only
  repeat' (first
    | with_reducible assumption
    | with_reducible apply Only.ite
    | with_reducible refine State.fordMsg_only (k.sub (by decide)) ?_
    | with_reducible refine State.releaseSide_only (k.sub (by decide)) ?_)

theorem State.removeCircuit_only {m : Nat} {r s : State} {x1 : Nat} (k : Covers 0x310000000000000000000000000000000000000000000000000000004000000000000000000000020083000000000000000408000000 m) (h : Only m r s) : Only m r (State.removeCircuit s x1) := by
  unfold State.removeCircuit
  try dsimp only
  repeat' (first
    | with_reducible assumption
    | with_reducible refine State.withdrawOffer_only (k.sub (by decide)) ?_
    | with_reducible refine State.withdrawSide_only (k.sub (by decide)) ?_
    | with_reducible refine State.wr_only _ _ _ (k.words (by decide)) ?_
    | split)

theorem State.opticalPortDown_only {m : Nat} {r s : State} {x1 : Nat} (k : Covers 0x3060000000000000000000031010000000000000000000000000000000000000000000000000000400000000000000008000002008f000000000700000408000200 m) (h : Only m r s) : Only m r (State.opticalPortDown s x1) := by
  unfold State.opticalPortDown
  try dsimp only
  repeat' (first
    | with_reducible assumption
    | fail_if_no_progress (with_reducible refine Only.ocTo (by apply OpticalStOnly.of <;> first | exact .inl (k.bit (by decide)) | exact .inr rfl) ?_)
    | with_reducible apply Only.ite
    | with_reducible refine State.abandonMove_only (k.sub (by decide)) ?_
    | with_reducible refine State.releaseSide_only (k.sub (by decide)) ?_
    | with_reducible refine State.removeCircuit_only (k.sub (by decide)) ?_
    | split)

theorem State.moveMsg_only {m : Nat} {r s : State} {x1 : Nat} {x2 : Nat} {x3 : Nat} {x4 : Nat} {x5 : Nat} {x6 : Nat} {x7 : Nat} (k : Covers 0x20000000000000000000408000000 m) (h : Only m r s) : Only m r (State.moveMsg s x1 x2 x3 x4 x5 x6 x7) := by
  unfold State.moveMsg
  try dsimp only
  repeat' (first
    | with_reducible assumption
    | with_reducible refine State.sendOwn_only (k.sub (by decide)) ?_)

/-! ### Machine/Link.lean -/

theorem State.badFrame_only {m : Nat} {r s : State} {x1 : Nat} {x2 : Nat} (k : Covers 0x100000000000000000000000000000000000200000000000000008005d8000000 m) (h : Only m r s) : Only m r (State.badFrame s x1 x2) := by
  unfold State.badFrame
  try dsimp only
  repeat' (first
    | (intro _; try dsimp only)
    | with_reducible assumption
    | with_reducible apply Only.foldl
    | with_reducible refine State.setFrame_only (k.sub (by decide)) ?_
    | with_reducible refine State.settleFrame_only (k.sub (by decide)) ?_
    | with_reducible refine State.endCopy_only (k.sub (by decide)) ?_
    | split)

theorem State.flushPort_only {m : Nat} {r s : State} {x1 : Nat} (k : Covers 0x10000000000000000000000000000000000020000000000000000800dd8000000 m) (h : Only m r s) : Only m r (State.flushPort s x1) := by
  unfold State.flushPort
  try dsimp only
  repeat' (first
    | (intro _; try dsimp only)
    | with_reducible assumption
    | with_reducible apply Only.foldl
    | with_reducible refine State.emit_only _ (k.bit (i := 113) (by decide)) ?_
    | with_reducible refine State.modPort_only (k.sub (by decide)) ?_
    | with_reducible refine State.queueAdd_only (k.sub (by decide)) ?_
    | with_reducible refine State.portAdd_only (k.sub (by decide)) ?_
    | with_reducible refine State.endCopy_only (k.sub (by decide)) ?_
    | split)

theorem State.portFalls_only {m : Nat} {r s : State} {x1 : Nat} {x2 : Nat} (k : Covers 0x8000000030600000000000000000000310100000000000000060000000000000000000000010000000000004000000000c0000009000002008f1a0440800700800dd8400203 m) (h : Only m r s) : Only m r (State.portFalls s x1 x2) := by
  unfold State.portFalls
  try dsimp only
  repeat' (first
    | with_reducible assumption
    | fail_if_no_progress (with_reducible refine Only.btTo (by apply BootStOnly.of <;> first | exact .inl (k.bit (by decide)) | exact .inr rfl) ?_)
    | with_reducible refine State.badFrame_only (k.sub (by decide)) ?_
    | with_reducible refine State.modPort_only (k.sub (by decide)) ?_
    | with_reducible refine State.dropStore_only (k.sub (by decide)) ?_
    | with_reducible refine State.flushPort_only (k.sub (by decide)) ?_
    | with_reducible refine State.undoInflight_only (k.sub (by decide)) ?_
    | (with_reducible refine State.wrs_only _ (by simp only [List.forall_mem_cons, List.not_mem_nil, false_imp_iff, implies_true, and_true]; (repeat' apply And.intro) <;> exact k.words (by decide)) ?_)
    | with_reducible refine State.opticalPortDown_only (k.sub (by decide)) ?_
    | with_reducible refine State.fall_only (k.sub (by decide)) ?_
    | split)

theorem State.reinit_only {m : Nat} {r s : State} {x1 : Nat} (k : Covers 0x30600000000000000000000310100000000000000000000000000000000000000010000000000024000000000c0000008000002008f000000800700800418000200 m) (h : Only m r s) : Only m r (State.reinit s x1) := by
  unfold State.reinit
  try dsimp only
  repeat' (first
    | with_reducible assumption
    | with_reducible apply Only.ite
    | with_reducible refine State.raise_only (k.sub (by decide)) ?_
    | with_reducible refine State.setErr_only _ _ (k.err (by decide) (by decide)) ?_
    | with_reducible refine State.dropStore_only (k.sub (by decide)) ?_
    | with_reducible refine State.modPort_only (k.sub (by decide)) ?_
    | with_reducible refine State.opticalPortDown_only (k.sub (by decide)) ?_
    | with_reducible refine State.fall_only (k.sub (by decide)) ?_
    | with_reducible refine State.wr_only _ _ _ (k.words (by decide)) ?_)

theorem State.spareWorst_only {m : Nat} {r s : State} {x1 : Nat} (k : Covers 0x3c600000000000000000000000000000000000000000000000000000000000000000000000000000000000000000000080000020000000000011700000000000200 m) (h : Only m r s) : Only m r (State.spareWorst s x1) := by
  unfold State.spareWorst
  try dsimp only
  repeat' (first
    | with_reducible assumption
    | with_reducible refine State.laneFails_only (k.sub (by decide)) ?_
    | split)

theorem State.escalate_only {m : Nat} {r s : State} {x1 : Nat} (k : Covers 0x800000003c600000000000000000000310100000000000000060000000000000000000000010000000000024000000000c0000009000002008f1a0440871700800dd8400203 m) (h : Only m r s) : Only m r (State.escalate s x1) := by
  unfold State.escalate
  try dsimp only
  repeat' (first
    | with_reducible assumption
    | fail_if_no_progress (with_reducible refine Only.fhTo (by apply FaultStOnly.of <;> first | exact .inl (k.bit (by decide)) | exact .inr rfl) ?_)
    | with_reducible apply Only.ite
    | with_reducible refine State.raise_only (k.sub (by decide)) ?_
    | with_reducible refine State.setErr_only _ _ (k.err (by decide) (by decide)) ?_
    | with_reducible refine State.portFalls_only (k.sub (by decide)) ?_
    | with_reducible refine State.reinit_only (k.sub (by decide)) ?_
    | with_reducible refine State.spareWorst_only (k.sub (by decide)) ?_)

theorem State.retransmit_only {m : Nat} {r s : State} {x1 : Nat} {x2 : Nat} (k : Covers 0x800000003c600000000000000000000310100000000000000060000000000000000000000010000000000024000000000c0000009000002008f1a0440871700800dd8400203 m) (h : Only m r s) : Only m r (State.retransmit s x1 x2) := by
  unfold State.retransmit
  try dsimp only
  repeat' (first
    | with_reducible assumption
    | with_reducible apply Only.ite
    | with_reducible refine State.resend_only (k.sub (by decide)) ?_
    | with_reducible refine State.setPort_only (k.sub (by decide)) ?_
    | with_reducible refine State.escalate_only (k.sub (by decide)) ?_)

theorem State.askResend_only {m : Nat} {r s : State} {x1 : Nat} {x2 : Nat} (k : Covers 0x800000003c600000000000000000000310100000000000000060000000000000000000000010000000000024000000000c0000009000002008f1a0440871700800dd8400203 m) (h : Only m r s) : Only m r (State.askResend s x1 x2) := by
  unfold State.askResend
  try dsimp only
  repeat' (first
    | with_reducible assumption
    | with_reducible apply Only.ite
    | with_reducible refine State.modPort_only (k.sub (by decide)) ?_
    | with_reducible refine State.retransmit_only (k.sub (by decide)) ?_)

theorem State.settleLink_only {m : Nat} {r s : State} {x1 : Nat} (k : Covers 0x4000000000000000000000000000000000000000000000000000 m) (h : Only m r s) : Only m r (State.settleLink s x1) := by
  unfold State.settleLink
  try dsimp only
  repeat' (first
    | with_reducible assumption
    | with_reducible apply Only.ite
    | with_reducible refine State.wr_only _ _ _ (k.words (by decide)) ?_)

theorem State.measure_only {m : Nat} {r s : State} {x1 : Nat} {x2 : List Byte} (k : Covers 0x4000000000000000000000000000000000000000000008000000 m) (h : Only m r s) : Only m r (State.measure s x1 x2) := by
  unfold State.measure
  try dsimp only
  repeat' (first
    | with_reducible assumption
    | with_reducible apply Only.ite
    | with_reducible refine State.modPort_only (k.sub (by decide)) ?_
    | with_reducible refine State.wr_only _ _ _ (k.words (by decide)) ?_)

theorem State.settleInit_only {m : Nat} {r s : State} {x1 : Nat} (k : Covers 0x4000000000000000000000000000000000000000000008000000 m) (h : Only m r s) : Only m r (State.settleInit s x1) := by
  unfold State.settleInit
  try dsimp only
  repeat' (first
    | with_reducible assumption
    | with_reducible apply Only.ite
    | with_reducible refine State.settleLink_only (k.sub (by decide)) ?_
    | with_reducible refine State.setPort_only (k.sub (by decide)) ?_)

theorem State.sizePool_only {m : Nat} {r s : State} {x1 : Nat} (k : Covers 0x30600000000000000000000000000000000000000000000000000000000000000000000000000000040000000000000080000020000000000000700000008000200 m) (h : Only m r s) : Only m r (State.sizePool s x1) := by
  unfold State.sizePool
  try dsimp only
  repeat' (first
    | with_reducible assumption
    | with_reducible apply Only.ite
    | with_reducible refine State.modPort_only (k.sub (by decide)) ?_
    | with_reducible refine State.refuseReserve_only (k.sub (by decide)) ?_ ?_)

theorem execPortLinkDown_only {m : Nat} {r s : State} {x0 : Fin 1024} (k : Covers 0x8000000030600000000000000000000310100000000000000060000000000000000000000010000000000004000000000c0000009000002008f1a0440800700800dd8400203 m) (h : Only m r s) : OnlyRes m r (execPortLinkDown x0 s) := by
  unfold execPortLinkDown
  try dsimp only
  repeat' (first
    | (intro _; try dsimp only)
    | with_reducible assumption
    | with_reducible apply Only.ite
    | with_reducible refine whenLive_only (k.sub (by decide)) ?_ ?_
    | with_reducible refine State.portFalls_only (k.sub (by decide)) ?_)

theorem pfcIn_only {m : Nat} {r s : State} {x0 : Nat} {x1 : Nat} {x2 : List (BitVec 16)} (k : Covers 0x408000000 m) (h : Only m r s) : Only m r (pfcIn x0 x1 x2 s) := by
  unfold pfcIn
  try dsimp only
  repeat' (first
    | (intro _; try dsimp only)
    | with_reducible assumption
    | with_reducible apply Only.foldl
    | with_reducible apply Only.ite
    | with_reducible refine State.portAdd_only (k.sub (by decide)) ?_
    | with_reducible refine State.countRx_only (k.sub (by decide)) ?_
    | with_reducible refine State.modPort_only (k.sub (by decide)) ?_)

theorem execPfcFrameReceived_only {m : Nat} {r s : State} {x0 : Fin 1024} {x1 : BitVec 8} {x2 : List (BitVec 16)} (k : Covers 0x408000000 m) (h : Only m r s) : OnlyRes m r (execPfcFrameReceived x0 x1 x2 s) := by
  unfold execPfcFrameReceived
  try dsimp only
  repeat' (first
    | (intro _; try dsimp only)
    | with_reducible assumption
    | with_reducible refine whenLive_only (k.sub (by decide)) ?_ ?_
    | with_reducible refine pfcIn_only (k.sub (by decide)) ?_)

theorem execPfcXoffRefresh_only {m : Nat} {r s : State} {x0 : Fin 1024} {x1 : Fin 8} (k : Covers 0x20000000000000000000408000000 m) (h : Only m r s) : OnlyRes m r (execPfcXoffRefresh x0 x1 s) := by
  unfold execPfcXoffRefresh
  try dsimp only
  repeat' (first
    | (intro _; try dsimp only)
    | with_reducible assumption
    | with_reducible apply Only.ite
    | with_reducible refine whenLive_only (k.sub (by decide)) ?_ ?_
    | with_reducible refine State.sendXoff_only (k.sub (by decide)) ?_)

theorem execPfcQuantaExpiry_only {m : Nat} {r s : State} {x0 : Fin 1024} {x1 : Fin 8} (k : Covers 0x8000000 m) (h : Only m r s) : OnlyRes m r (execPfcQuantaExpiry x0 x1 s) := by
  unfold execPfcQuantaExpiry
  try dsimp only
  repeat' (first
    | (intro _; try dsimp only)
    | with_reducible assumption
    | with_reducible refine whenLive_only (k.sub (by decide)) ?_ ?_
    | with_reducible refine State.modPort_only (k.sub (by decide)) ?_)

theorem execPauseReceived_only {m : Nat} {r s : State} {x0 : Fin 1024} (k : Covers 0x400000000 m) (h : Only m r s) : OnlyRes m r (execPauseReceived x0 s) := by
  unfold execPauseReceived
  try dsimp only
  repeat' (first
    | (intro _; try dsimp only)
    | with_reducible assumption
    | with_reducible refine whenLive_only (k.sub (by decide)) ?_ ?_
    | with_reducible refine State.portAdd_only (k.sub (by decide)) ?_
    | with_reducible refine State.countRx_only (k.sub (by decide)) ?_)

theorem linkInit_only {m : Nat} {r s : State} {x0 : Nat} {x1 : List Byte} (k : Covers 0x30600000000000000000000310100000000000000000000000000000000000000010000000000024040000000c0000008000002008f000000800700800418000200 m) (h : Only m r s) : Only m r (linkInit x0 x1 s) := by
  unfold linkInit
  try dsimp only
  repeat' (first
    | with_reducible assumption
    | with_reducible apply Only.ite
    | with_reducible refine State.reinit_only (k.sub (by decide)) ?_
    | with_reducible refine State.measure_only (k.sub (by decide)) ?_
    | with_reducible refine State.countRx_only (k.sub (by decide)) ?_
    | with_reducible refine State.sizePool_only (k.sub (by decide)) ?_
    | with_reducible refine State.settleInit_only (k.sub (by decide)) ?_
    | with_reducible refine State.modPort_only (k.sub (by decide)) ?_)

theorem execLinkInitReceived_only {m : Nat} {r s : State} {x0 : Fin 1024} {x1 : List Byte} (k : Covers 0x30600000000000000000000310100000000000000000000000000000000000000010000000000024040000000c0000008000002008f000000800700800418000200 m) (h : Only m r s) : OnlyRes m r (execLinkInitReceived x0 x1 s) := by
  unfold execLinkInitReceived
  try dsimp only
  repeat' (first
    | (intro _; try dsimp only)
    | with_reducible assumption
    | with_reducible refine whenLive_only (k.sub (by decide)) ?_ ?_
    | with_reducible refine linkInit_only (k.sub (by decide)) ?_)

theorem execLinkInitTimer_only {m : Nat} {r s : State} {x0 : Fin 1024} (k : Covers 0x4000000000000000000000020000000000000000000408000000 m) (h : Only m r s) : OnlyRes m r (execLinkInitTimer x0 s) := by
  unfold execLinkInitTimer
  try dsimp only
  repeat' (first
    | (intro _; try dsimp only)
    | with_reducible assumption
    | with_reducible apply Only.ite
    | with_reducible refine whenLive_only (k.sub (by decide)) ?_ ?_
    | with_reducible refine State.settleInit_only (k.sub (by decide)) ?_
    | with_reducible refine State.sendInit_only (k.sub (by decide)) ?_)

theorem execInitTimeout_only {m : Nat} {r s : State} {x0 : Fin 1024} (k : Covers 0x30600000000000000000000000000000000000000000000000000000000000000000000000000020000000000000000080000020000000000000700000000000200 m) (h : Only m r s) : OnlyRes m r (execInitTimeout x0 s) := by
  unfold execInitTimeout
  try dsimp only
  repeat' (first
    | (intro _; try dsimp only)
    | with_reducible assumption
    | with_reducible apply Only.ite
    | with_reducible refine whenLive_only (k.sub (by decide)) ?_ ?_
    | with_reducible refine State.raise_only (k.sub (by decide)) ?_
    | with_reducible refine State.setErr_only _ _ (k.err (by decide) (by decide)) ?_)

theorem linkStatus_only {m : Nat} {r s : State} {x0 : Nat} {x1 : List Byte} (k : Covers 0x800000003c600000000000000000000310100000000000000060000000000000000000000010000000000024000000000c0000009000002008f1a0440871700800dd8400203 m) (h : Only m r s) : Only m r (linkStatus x0 x1 s) := by
  unfold linkStatus
  try dsimp only
  repeat' (first
    | with_reducible assumption
    | with_reducible apply Only.ite
    | with_reducible refine State.measure_only (k.sub (by decide)) ?_
    | with_reducible refine State.countRx_only (k.sub (by decide)) ?_
    | with_reducible refine State.releaseOwn_only (k.sub (by decide)) ?_
    | with_reducible refine State.ackTo_only (k.sub (by decide)) ?_
    | with_reducible refine State.modPort_only (k.sub (by decide)) ?_
    | with_reducible refine State.portAdd_only (k.sub (by decide)) ?_
    | with_reducible refine State.askResend_only (k.sub (by decide)) ?_)

theorem execLinkStatusTimer_only {m : Nat} {r s : State} {x0 : Fin 1024} (k : Covers 0x20000000000000000000400000000 m) (h : Only m r s) : OnlyRes m r (execLinkStatusTimer x0 s) := by
  unfold execLinkStatusTimer
  try dsimp only
  repeat' (first
    | (intro _; try dsimp only)
    | with_reducible assumption
    | with_reducible apply Only.ite
    | with_reducible refine whenLive_only (k.sub (by decide)) ?_ ?_
    | with_reducible refine State.sendStatus_only (k.sub (by decide)) ?_)

theorem execLinkRetryTimeout_only {m : Nat} {r s : State} {x0 : Fin 1024} (k : Covers 0x800000003c600000000000000000000310100000000000000060000000000000000000000010000000000024000000000c0000009000002008f1a0440871700800dd8400203 m) (h : Only m r s) : OnlyRes m r (execLinkRetryTimeout x0 s) := by
  unfold execLinkRetryTimeout
  try dsimp only
  repeat' (first
    | (intro _; try dsimp only)
    | with_reducible assumption
    | with_reducible refine whenLive_only (k.sub (by decide)) ?_ ?_
    | with_reducible refine State.askResend_only (k.sub (by decide)) ?_
    | with_reducible refine State.portAdd_only (k.sub (by decide)) ?_
    | split)

end Sys2Proof.Machine
end

