-- ==== Sys2Proof/Laws/OnlyConfigSpace.lean ====
section
/-! SUPPORT. Every operation of Machine/ConfigSpace.lean to Machine/Ingress.lean changes only the parts that its mask names: from a state that did so, it answers one
that did so. -/

namespace Sys2Proof.Machine

/-! ### Machine/ConfigSpace.lean -/

theorem configSpaceReady_only {m : Nat} {r s : State} (k : Covers 0x10000000000000000000000000c00 m) (h : Only m r s) : Only m r (configSpaceReady s) := by
  unfold configSpaceReady
  try dsimp only
  repeat' (first
    | with_reducible assumption
    | fail_if_no_progress (with_reducible refine Only.hiTo (by apply HostStOnly.of <;> first | exact .inl (k.bit (by decide)) | exact .inr rfl) ?_)
    | with_reducible apply Only.ite
    | with_reducible refine State.draw_only (k.bit (i := 112) (by decide)) ?_)

theorem execPowerStateD3hot_only {m : Nat} {r s : State} (k : Covers 0x100 m) (h : Only m r s) : OnlyRes m r (execPowerStateD3hot s) := by
  unfold execPowerStateD3hot
  try dsimp only
  repeat' (first
    | (intro _; try dsimp only)
    | with_reducible assumption
    | fail_if_no_progress (with_reducible refine Only.hiTo (by apply HostStOnly.of <;> first | exact .inl (k.bit (by decide)) | exact .inr rfl) ?_)
    | with_reducible apply Only.ite
    | with_reducible refine whenLive_only (k.sub (by decide)) ?_ ?_)

theorem execPowerStateD0_only {m : Nat} {r s : State} (k : Covers 0x20000000000000000000000000300 m) (h : Only m r s) : OnlyRes m r (execPowerStateD0 s) := by
  unfold execPowerStateD0
  refine whenLive_only (k.sub (by decide)) (fun t ht => ?_) h
  refine Only.whole ht ⟨rfl, List.prefix_append _ _, Nat.le_refl _, id, id⟩ ?_
  intro p hp
  cases p
  all_goals first
    | exact Bool.noConfusion ((k.bit (by decide)).symm.trans hp)
    | rfl
    | exact fun off _ => rfl

theorem execConfigSpaceReady_only {m : Nat} {r s : State} (k : Covers 0x10000000000000000000000000c00 m) (h : Only m r s) : OnlyRes m r (execConfigSpaceReady s) := by
  unfold execConfigSpaceReady
  try dsimp only
  repeat' (first
    | (intro _; try dsimp only)
    | with_reducible assumption
    | with_reducible refine whenLive_only (k.sub (by decide)) ?_ ?_
    | with_reducible refine configSpaceReady_only (k.sub (by decide)) ?_)

/-! ### Machine/Boot.lean -/

theorem State.writeImage_only {m : Nat} {r s : State} {x1 : Nat} {x2 : List Byte} (k : Covers 0xc0000 m) (h : Only m r s) : Only m r (State.writeImage s x1 x2) := by
  unfold State.writeImage
  try dsimp only
  repeat' (first
    | with_reducible assumption
    | fail_if_no_progress (with_reducible refine Only.btTo (by apply BootStOnly.of <;> first | exact .inl (k.bit (by decide)) | exact .inr rfl) ?_)
    | with_reducible apply Only.ite)

theorem State.emptyImage_only {m : Nat} {r s : State} (k : Covers 0xc0000 m) (h : Only m r s) : Only m r (State.emptyImage s) := by
  unfold State.emptyImage
  try dsimp only
  repeat' (first
    | with_reducible assumption
    | fail_if_no_progress (with_reducible refine Only.btTo (by apply BootStOnly.of <;> first | exact .inl (k.bit (by decide)) | exact .inr rfl) ?_))

theorem State.openImage_only {m : Nat} {r s : State} (k : Covers 0x2000000000000000000000000000000000000c0000 m) (h : Only m r s) : Only m r (State.openImage s) := by
  unfold State.openImage
  try dsimp only
  repeat' (first
    | with_reducible assumption
    | with_reducible apply Only.ite
    | with_reducible refine State.wr_only _ _ _ (k.words (by decide)) ?_
    | with_reducible refine State.emptyImage_only (k.sub (by decide)) ?_)

theorem warmReset_only {m : Nat} {r s : State} (k : Covers 0xffffffffffffffffffffffffffffffffffffffffffffffffffffffffffffffffffffffffffffffffffffffffffffffffffffffffffffffff0000ffffffffffff07fffffffe7dc2fb m) (h : Only m r s) : Only m r (warmReset s) := by
  refine Only.whole h (warmReset_keeps (Keeps.refl s)) ?_
  intro p hp
  cases p
  case words b => exact fun off ho => absurd (owns_all (k.sub (by decide)) off b ho) (by simpa [Piece.bit] using hp)
  all_goals first
    | exact Bool.noConfusion ((k.bit (by decide)).symm.trans hp)
    | exact rfl

theorem btReset_only {m : Nat} {r s : State} {x0 : Word} (k : Covers 0xffffffffffffffffffffffffffffffffffffffffffffffffffffffffffffffffffffffffffffffffffffffffffffffffffffffffffffffff0000ffffffffffff07fffffffe7dc2fb m) (h : Only m r s) : Only m r (btReset x0 s) := by
  unfold btReset
  try dsimp only
  repeat' (first
    | with_reducible assumption
    | with_reducible apply Only.ite
    | with_reducible refine warmReset_only (k.sub (by decide)) ?_)

theorem State.closeImageWindow_only {m : Nat} {r s : State} (k : Covers 0x12000000000000000000000000000c0008 m) (h : Only m r s) : Only m r (State.closeImageWindow s) := by
  unfold State.closeImageWindow
  try dsimp only
  repeat' (first
    | (intro _; try dsimp only)
    | with_reducible assumption
    | fail_if_no_progress (with_reducible refine Only.hiTo (by apply HostStOnly.of <;> first | exact .inl (k.bit (by decide)) | exact .inr rfl) ?_)
    | with_reducible apply Only.foldl
    | with_reducible refine State.writeImage_only (k.sub (by decide)) ?_
    | with_reducible refine State.wr_only _ _ _ (k.words (by decide)) ?_
    | split)

theorem fwCtl_only {m : Nat} {r s : State} {x0 : Word} (k : Covers 0x306000000000000000000000000000000000000000000000000000000000000000000000000000000000000002000000812000200000000000007000000000c0208 m) (h : Only m r s) : Only m r (fwCtl x0 s) := by
  unfold fwCtl
  try dsimp only
  repeat' (first
    | with_reducible assumption
    | with_reducible apply Only.ite
    | with_reducible refine State.refuseWrite_only (k.sub (by decide)) ?_
    | with_reducible refine State.wr_only _ _ _ (k.words (by decide)) ?_
    | with_reducible refine State.closeImageWindow_only (k.sub (by decide)) ?_
    | with_reducible refine State.emptyImage_only (k.sub (by decide)) ?_)

theorem quoteCtl_only {m : Nat} {r s : State} {x0 : Word} (k : Covers 0x400000000000000000000000000000000000000000000000000000000000000000000000000000000000000000000000000000000000000000000000000000000000200000 m) (h : Only m r s) : Only m r (quoteCtl x0 s) := by
  unfold quoteCtl
  try dsimp only
  repeat' (first
    | with_reducible assumption
    | fail_if_no_progress (with_reducible refine Only.btTo (by apply BootStOnly.of <;> first | exact .inl (k.bit (by decide)) | exact .inr rfl) ?_)
    | with_reducible apply Only.ite
    | with_reducible refine State.wr_only _ _ _ (k.words (by decide)) ?_)

theorem State.setLaserPos_only {m : Nat} {r s : State} {x1 : Nat} {x2 : Nat} {x3 : LaserPos} (k : Covers 0x20000000000000000000000000 m) (h : Only m r s) : Only m r (State.setLaserPos s x1 x2 x3) := by
  unfold State.setLaserPos
  try dsimp only
  repeat' (first
    | with_reducible assumption
    | fail_if_no_progress (with_reducible refine Only.ocTo (by apply OpticalStOnly.of <;> first | exact .inl (k.bit (by decide)) | exact .inr rfl) ?_))

theorem State.lightModule_only {m : Nat} {r s : State} {x1 : Nat} (k : Covers 0x60000000000000000000000000000000000000000000000000000000000000000000000000000010020000000000000000000000000 m) (h : Only m r s) : Only m r (State.lightModule s x1) := by
  unfold State.lightModule
  try dsimp only
  repeat' (first
    | (intro _; try dsimp only)
    | with_reducible assumption
    | with_reducible apply Only.foldl
    | with_reducible apply Only.ite
    | with_reducible refine State.draw_only (k.bit (i := 112) (by decide)) ?_
    | with_reducible refine State.setLaserPos_only (k.sub (by decide)) ?_
    | with_reducible refine State.wr_only _ _ _ (k.words (by decide)) ?_)

theorem State.attest_only {m : Nat} {r s : State} {x1 : Nat} {x2 : Nat} {x3 : Nat} {x4 : List Byte} (k : Covers 0x40c0000000000000000000000000000000000000000000000000000000000000000000000000000000000000000000000000000000000000000000000000000000000000000 m) (h : Only m r s) : Only m r (State.attest s x1 x2 x3 x4) := by
  unfold State.attest
  try dsimp only
  repeat' (first
    | with_reducible assumption
    | with_reducible refine State.wr_only _ _ _ (k.words (by decide)) ?_
    | with_reducible refine State.putBytes_only _ _ _ (k.words (by decide)) ?_)

theorem State.configEntry_only {m : Nat} {r s : State} (k : Covers 0x40c0000000000000000000000000000000000000000000000000000000000000000000000000000000000000000000000000000000000010000000000000000000000000000 m) (h : Only m r s) : Only m r (State.configEntry s) := by
  unfold State.configEntry
  try dsimp only
  repeat' (first
    | with_reducible assumption
    | with_reducible refine State.draw_only (k.bit (i := 112) (by decide)) ?_
    | with_reducible refine State.attest_only (k.sub (by decide)) ?_)

theorem State.configEntries_only {m : Nat} {r s : State} {x1 : Nat} (k : Covers 0x40c0000000000000000000000000000000000000000000000000000000000000000000000000000000000000000000000000000000000010000000000000000000000000000 m) (h : Only m r s) : Only m r (State.configEntries s x1) := by
  unfold State.configEntries
  try dsimp only
  repeat' (first
    | (intro _; try dsimp only)
    | with_reducible assumption
    | with_reducible apply Only.foldl
    | with_reducible refine State.configEntry_only (k.sub (by decide)) ?_)

theorem State.logTrip_only {m : Nat} {r s : State} {x1 : Event} {x2 : Nat} (k : Covers 0x30600000000000000000000000000000000000000000000000000000000000000000000000000000000000000000000080000020000000000000700000000020200 m) (h : Only m r s) : Only m r (State.logTrip s x1 x2) := by
  unfold State.logTrip
  try dsimp only
  repeat' (first
    | with_reducible assumption
    | fail_if_no_progress (with_reducible refine Only.btTo (by apply BootStOnly.of <;> first | exact .inl (k.bit (by decide)) | exact .inr rfl) ?_)
    | with_reducible refine State.setWindow_only (k.sub (by decide)) ?_
    | with_reducible refine State.logRecord_only (k.sub (by decide)) ?_
    | with_reducible refine State.countEvent_only (k.sub (by decide)) ?_)

theorem startRecords_only {m : Nat} {r s : State} (k : Covers 0x40e0000030600000000000000000000000000000000000000000000000000000000000000000000000000000000000000000000080000030000000000000700000000020200 m) (h : Only m r s) : Only m r (startRecords s) := by
  unfold startRecords
  try dsimp only
  repeat' (first
    | with_reducible assumption
    | with_reducible refine State.draw_only (k.bit (i := 112) (by decide)) ?_
    | with_reducible refine State.attest_only (k.sub (by decide)) ?_
    | with_reducible refine State.wr_only _ _ _ (k.words (by decide)) ?_
    | with_reducible refine State.logTrip_only (k.sub (by decide)) ?_
    | split)

theorem State.lightAll_only {m : Nat} {r s : State} (k : Covers 0x60000000000000000000000000000000000000000000000000000000000000000000000000000010020000000000000000000000000 m) (h : Only m r s) : Only m r (State.lightAll s) := by
  unfold State.lightAll
  try dsimp only
  repeat' (first
    | (intro _; try dsimp only)
    | with_reducible assumption
    | with_reducible apply Only.foldl
    | with_reducible apply Only.ite
    | with_reducible refine State.lightModule_only (k.sub (by decide)) ?_)

theorem State.startPilot_only {m : Nat} {r s : State} {x1 x2 : Nat} (k : Covers 0x40c0000030600000000000000000000060000000000000000000000000000000000000000000000000000000000000000e80000080000030020000000800700000000100200 m) (h : Only m r s) : Only m r (State.startPilot s x1 x2) := by
  unfold State.startPilot
  try dsimp only
  repeat' (first
    | with_reducible assumption
    | fail_if_no_progress (with_reducible refine Only.btTo (by apply BootStOnly.of <;> first | exact .inl (k.bit (by decide)) | exact .inr rfl) ?_)
    | with_reducible refine State.lightAll_only (k.sub (by decide)) ?_
    | with_reducible refine State.configEntries_only (k.sub (by decide)) ?_
    | with_reducible refine State.rise_only (k.sub (by decide)) ?_
    | with_reducible refine State.wr_only _ _ _ (k.words (by decide)) ?_)

theorem coldReset_only {m : Nat} {r s : State} (k : Covers 0xffffffffffffffffffffffffffffffffffffffffffffffffffffffffffffffffffffffffffffffffffffffffffffffffffffffffffffffff0002fffffffffffffffffffffe7dffff m) (h : Only m r s) : Only m r (coldReset s) := by
  refine Only.whole h (coldReset_keeps (Keeps.refl s)) ?_
  intro p hp
  cases p
  case words b => exact fun off ho => absurd (owns_all (k.sub (by decide)) off b ho) (by simpa [Piece.bit] using hp)
  all_goals first
    | exact Bool.noConfusion ((k.bit (by decide)).symm.trans hp)
    | exact rfl

theorem hostPortReset_only {m : Nat} {r s : State} (k : Covers 0xffffffff00000000000000000000000000000f0b m) (h : Only m r s) : Only m r (hostPortReset s) := by
  unfold hostPortReset
  try dsimp only
  have h1 := State.resetHi_only (k.sub (by decide)) h
  have h2 : Only m r ((s.resetRegs 0 0x100000).setWord (HI_PROT_GEN.offset 0) (s.word (HI_PROT_GEN.offset 0))) :=
    State.setWord_only _ _ (k.words (by decide) _) h1
  exact Only.hiTo (by apply HostStOnly.of <;> first | exact .inl (k.bit (by decide)) | exact .inr rfl) h2

theorem execHostPortReset_only {m : Nat} {r s : State} {x0 : PortResetCause} (k : Covers 0xffffffff00000000000000000000000000000f0b m) (h : Only m r s) : OnlyRes m r (execHostPortReset x0 s) := by
  unfold execHostPortReset
  try dsimp only
  repeat' (first
    | (intro _; try dsimp only)
    | with_reducible assumption
    | with_reducible refine whenLive_only (k.sub (by decide)) ?_ ?_
    | with_reducible refine hostPortReset_only (k.sub (by decide)) ?_)

theorem execColdReset_only {m : Nat} {r s : State} (k : Covers 0xffffffffffffffffffffffffffffffffffffffffffffffffffffffffffffffffffffffffffffffffffffffffffffffffffffffffffffffff0002fffffffffffffffffffffe7dffff m) (h : Only m r s) : OnlyRes m r (execColdReset s) := by
  unfold execColdReset
  try dsimp only
  repeat' (first
    | with_reducible assumption
    | with_reducible apply OnlyRes.next
    | with_reducible refine coldReset_only (k.sub (by decide)) ?_)

theorem execPorRelease_only {m : Nat} {r s : State} {x0 : Bool} (k : Covers 0x3000 m) (h : Only m r s) : OnlyRes m r (execPorRelease x0 s) := by
  unfold execPorRelease
  try dsimp only
  repeat' (first
    | with_reducible assumption
    | fail_if_no_progress (with_reducible refine Only.btTo (by apply BootStOnly.of <;> first | exact .inl (k.bit (by decide)) | exact .inr rfl) ?_)
    | with_reducible apply Only.ite
    | with_reducible apply OnlyRes.next)

theorem execWarmReset_only {m : Nat} {r s : State} {x0 : Word} (k : Covers 0xffffffffffffffffffffffffffffffffffffffffffffffffffffffffffffffffffffffffffffffffffffffffffffffffffffffffffffffff0002ffffffffffff07fffffffe7dc2fb m) (h : Only m r s) : OnlyRes m r (execWarmReset x0 s) := by
  unfold execWarmReset
  try dsimp only
  repeat' (first
    | (intro _; try dsimp only)
    | with_reducible assumption
    | with_reducible refine whenBar_only (k.sub (by decide)) ?_ ?_
    | with_reducible refine btReset_only (k.sub (by decide)) ?_)

theorem execLockSet_only {m : Nat} {r s : State} {x0 : Word} (k : Covers 0x80000000000020000000000000000000000000000 m) (h : Only m r s) : OnlyRes m r (execLockSet x0 s) := by
  unfold execLockSet
  try dsimp only
  repeat' (first
    | (intro _; try dsimp only)
    | with_reducible assumption
    | with_reducible refine whenBar_only (k.sub (by decide)) ?_ ?_
    | with_reducible refine State.plainWrite_only _ _ _ (k.words (by decide)) ?_)

theorem execFirmwareStart_only {m : Nat} {r s : State} {x0 : Word} (k : Covers 0x306000000000000000000000000000000000000000000000000000000000000000000000000000000000000002000000812000200000000000007000000000c0208 m) (h : Only m r s) : OnlyRes m r (execFirmwareStart x0 s) := by
  unfold execFirmwareStart
  try dsimp only
  repeat' (first
    | (intro _; try dsimp only)
    | with_reducible assumption
    | with_reducible refine whenBar_only (k.sub (by decide)) ?_ ?_
    | with_reducible refine fwCtl_only (k.sub (by decide)) ?_)

theorem execFirmwareAbandon_only {m : Nat} {r s : State} {x0 : Word} (k : Covers 0x306000000000000000000000000000000000000000000000000000000000000000000000000000000000000002000000812000200000000000007000000000c0208 m) (h : Only m r s) : OnlyRes m r (execFirmwareAbandon x0 s) := by
  unfold execFirmwareAbandon
  try dsimp only
  repeat' (first
    | (intro _; try dsimp only)
    | with_reducible assumption
    | with_reducible refine whenBar_only (k.sub (by decide)) ?_ ?_
    | with_reducible refine fwCtl_only (k.sub (by decide)) ?_)

theorem firmwareChecked_only {m : Nat} {r s : State} (k : Covers 0x40c0000030600000000000000000000060000000000000000000000000000000000000000000000000000000000000000e80000080000030020000000800700000000100200 m) (h : Only m r s) : Only m r (firmwareChecked s) := by
  unfold firmwareChecked
  try dsimp only
  repeat' (first
    | with_reducible assumption
    | with_reducible apply Only.ite
    | with_reducible refine State.wr_only _ _ _ (k.words (by decide)) ?_
    | with_reducible refine State.attest_only (k.sub (by decide)) ?_
    | with_reducible refine State.startPilot_only (k.sub (by decide)) ?_
    | with_reducible refine State.raise_only (k.sub (by decide)) ?_)

theorem execFirmwareCheckDone_only {m : Nat} {r s : State} (k : Covers 0x40c0000030600000000000000000000060000000000000000000000000000000000000000000000000000000000000000e80000080000030020000000800700000000100200 m) (h : Only m r s) : OnlyRes m r (execFirmwareCheckDone s) := by
  unfold execFirmwareCheckDone
  try dsimp only
  repeat' (first
    | (intro _; try dsimp only)
    | with_reducible assumption
    | with_reducible apply Only.ite
    | with_reducible refine whenLive_only (k.sub (by decide)) ?_ ?_
    | with_reducible refine firmwareChecked_only (k.sub (by decide)) ?_)

theorem execQuoteStart_only {m : Nat} {r s : State} {x0 : Word} (k : Covers 0x400000000000000000000000000000000000000000000000000000000000000000000000000000000000000000000000000000000000020000000000000000000000200000 m) (h : Only m r s) : OnlyRes m r (execQuoteStart x0 s) := by
  unfold execQuoteStart
  try dsimp only
  repeat' (first
    | (intro _; try dsimp only)
    | with_reducible assumption
    | with_reducible refine whenBar_only (k.sub (by decide)) ?_ ?_
    | with_reducible refine quoteCtl_only (k.sub (by decide)) ?_)

theorem execQuoteDone_only {m : Nat} {r s : State} (k : Covers 0xc00000000000000000000000000000000000000000000000000000000000000000000000000000000000000000000000000000000000000000000000000000000000000000 m) (h : Only m r s) : OnlyRes m r (execQuoteDone s) := by
  unfold execQuoteDone
  try dsimp only
  repeat' (first
    | (intro _; try dsimp only)
    | with_reducible assumption
    | with_reducible apply Only.ite
    | with_reducible refine whenLive_only (k.sub (by decide)) ?_ ?_
    | with_reducible refine State.wr_only _ _ _ (k.words (by decide)) ?_
    | with_reducible refine State.putBytes_only _ _ _ (k.words (by decide)) ?_)

/-! ### Machine/Evbauth.lean -/

theorem policyWrite_only {m : Nat} {r s : State} {x0 : Nat} {x1 : Word} (k : Covers 0x20000000030600000000000000000000000000000000000000000000000000000000000000000000000000000000000000000000080000020000000000000700000000000200 m) (h : Only m r s) : Only m r (policyWrite x0 x1 s) := by
  unfold policyWrite
  try dsimp only
  repeat' (first
    | with_reducible assumption
    | with_reducible apply Only.ite
    | with_reducible refine State.refuseWrite_only (k.sub (by decide)) ?_
    | with_reducible refine State.plainWrite_only _ _ _ (k.words (by decide)) ?_)

theorem State.setExchange_only {m : Nat} {r s : State} {x1 : Nat} {x2 : Exchange} (k : Covers 0x400000 m) (h : Only m r s) : Only m r (State.setExchange s x1 x2) := by
  unfold State.setExchange
  try dsimp only
  repeat' (first
    | with_reducible assumption
    | fail_if_no_progress (with_reducible refine Only.btTo (by apply BootStOnly.of <;> first | exact .inl (k.bit (by decide)) | exact .inr rfl) ?_))

theorem State.endExchange_only {m : Nat} {r s : State} {x1 : Nat} {x2 : Nat} (k : Covers 0x8000000000000000000000000000000000000000000000000000000000000000000000000000000000000004000000000000000000000000000000000000000000000400000 m) (h : Only m r s) : Only m r (State.endExchange s x1 x2) := by
  unfold State.endExchange
  try dsimp only
  repeat' (first
    | with_reducible assumption
    | with_reducible refine State.settleLink_only (k.sub (by decide)) ?_
    | with_reducible refine State.wr_only _ _ _ (k.words (by decide)) ?_
    | with_reducible refine State.setExchange_only (k.sub (by decide)) ?_)

theorem State.ownId_only {m : Nat} {r s : State} {x1 : Nat} (k : Covers 0x10000000000000000000000400000 m) (h : Only m r s) : Only m r (State.ownId s x1).2 := by
  unfold State.ownId
  try dsimp only
  repeat' (first
    | with_reducible assumption
    | with_reducible refine State.draw_only (k.bit (i := 112) (by decide)) ?_
    | with_reducible refine State.setExchange_only (k.sub (by decide)) ?_
    | split)

theorem State.startExchange_only {m : Nat} {r s : State} {x1 : Nat} (k : Covers 0x8000000000000000000000000000000000000000000000000000000000000000000000000000000000000000000000000000000000000000000000000000000000000400000 m) (h : Only m r s) : Only m r (State.startExchange s x1) := by
  unfold State.startExchange
  try dsimp only
  repeat' (first
    | with_reducible assumption
    | with_reducible refine State.wr_only _ _ _ (k.words (by decide)) ?_
    | with_reducible refine State.addSat_only _ _ _ (k.words (by decide)) ?_
    | with_reducible refine State.setExchange_only (k.sub (by decide)) ?_)

theorem State.reopenExchange_only {m : Nat} {r s : State} {x1 : Nat} (k : Covers 0x8000000030600000000000000000000000000000000000000000000000000000000000000010000000000004000000000c00000080000020000000000800700800418400200 m) (h : Only m r s) : Only m r (State.reopenExchange s x1) := by
  unfold State.reopenExchange
  try dsimp only
  repeat' (first
    | with_reducible assumption
    | with_reducible apply Only.ite
    | with_reducible refine State.leave_only (k.sub (by decide)) ?_
    | with_reducible refine State.startExchange_only (k.sub (by decide)) ?_
    | with_reducible refine State.wr_only _ _ _ (k.words (by decide)) ?_)

theorem idTimer_only {m : Nat} {r s : State} {x0 : Nat} (k : Covers 0x30000000000000000000408400000 m) (h : Only m r s) : Only m r (idTimer x0 s) := by
  unfold idTimer
  try dsimp only
  repeat' (first
    | with_reducible assumption
    | with_reducible apply Only.ite
    | with_reducible refine State.ownId_only (k.sub (by decide)) ?_
    | with_reducible refine State.sendOwn_only (k.sub (by decide)) ?_)

theorem execEvbauthIdTimer_only {m : Nat} {r s : State} {x0 : Fin 1024} (k : Covers 0x30000000000000000000408400000 m) (h : Only m r s) : OnlyRes m r (execEvbauthIdTimer x0 s) := by
  unfold execEvbauthIdTimer
  try dsimp only
  repeat' (first
    | (intro _; try dsimp only)
    | with_reducible assumption
    | with_reducible refine whenLive_only (k.sub (by decide)) ?_ ?_
    | with_reducible refine idTimer_only (k.sub (by decide)) ?_)

theorem onLink_only {m : Nat} {r s : State} {x0 : Nat} {x1 : Option (BitVec 48)} {x2 : Nat} {x3 : State → State} (k : Covers 0x20000000000000000000408000000 m) (hx3 : ∀ t, Only m r t → Only m r (x3 t)) (h : Only m r s) : Only m r (onLink x0 x1 x2 x3 s) := by
  unfold onLink
  try dsimp only
  repeat' (first
    | with_reducible apply hx3
    | with_reducible assumption
    | with_reducible apply Only.ite
    | with_reducible refine State.linkConsume_only_eq (k.sub (by decide)) (by assumption) ?_
    | split)

theorem idReceived_only {m : Nat} {r s : State} {x0 : Nat} {x1 : List Byte} (k : Covers 0x58000000030600000000000000000000000000000000000000000000000000000000000000010000000000004000000000c00000080000030000000000800700800418400200 m) (h : Only m r s) : Only m r (idReceived x0 x1 s) := by
  unfold idReceived
  try dsimp only
  repeat' (first
    | with_reducible assumption
    | with_reducible refine State.reopenExchange_only (k.sub (by decide)) ?_
    | with_reducible refine State.putBytes_only _ _ _ (k.words (by decide)) ?_
    | with_reducible refine State.wr_only _ _ _ (k.words (by decide)) ?_
    | with_reducible refine State.ownId_only (k.sub (by decide)) ?_
    | with_reducible refine State.setExchange_only (k.sub (by decide)) ?_
    | with_reducible refine State.sendOwn_only (k.sub (by decide)) ?_)

theorem execEvbauthIdReceived_only {m : Nat} {r s : State} {x0 : Fin 1024} {x1 : Option (BitVec 48)} {x2 : List Byte} (k : Covers 0x58000000030600000000000000000000000000000000000000000000000000000000000000010000000000004000000000c00000080000030000000000800700800418400200 m) (h : Only m r s) : OnlyRes m r (execEvbauthIdReceived x0 x1 x2 s) := by
  unfold execEvbauthIdReceived
  try dsimp only
  repeat' (first
    | (intro _; try dsimp only)
    | with_reducible assumption
    | with_reducible apply Only.ite
    | with_reducible refine whenLive_only (k.sub (by decide)) ?_ ?_
    | with_reducible refine onLink_only (k.sub (by decide)) ?_ ?_
    | with_reducible refine idReceived_only (k.sub (by decide)) ?_)

theorem proofReceived_only {m : Nat} {r s : State} {x0 : Nat} {x1 : List Byte} (k : Covers 0x8000000030600000000000000000000000000000000000000000000000000000000000000000000000000004000000000000000080000020000000000000700000000400200 m) (h : Only m r s) : Only m r (proofReceived x0 x1 s) := by
  unfold proofReceived
  try dsimp only
  repeat' (first
    | with_reducible assumption
    | with_reducible apply Only.ite
    | with_reducible refine State.raise_only (k.sub (by decide)) ?_
    | with_reducible refine State.endExchange_only (k.sub (by decide)) ?_)

theorem execEvbauthProofReceived_only {m : Nat} {r s : State} {x0 : Fin 1024} {x1 : Option (BitVec 48)} {x2 : List Byte} (k : Covers 0x8000000030600000000000000000000000000000000000000000000000000000000000000000000000000004000000000000000080000020000000000000700000408400200 m) (h : Only m r s) : OnlyRes m r (execEvbauthProofReceived x0 x1 x2 s) := by
  unfold execEvbauthProofReceived
  try dsimp only
  repeat' (first
    | (intro _; try dsimp only)
    | with_reducible assumption
    | with_reducible apply Only.ite
    | with_reducible refine whenLive_only (k.sub (by decide)) ?_ ?_
    | with_reducible refine onLink_only (k.sub (by decide)) ?_ ?_
    | with_reducible refine proofReceived_only (k.sub (by decide)) ?_)

theorem execEvbauthTimeout_only {m : Nat} {r s : State} {x0 : Fin 1024} (k : Covers 0x8000000000000000000000000000000000000000000000000000000000000000000000000000000000000004000000000000000000000000000000000000000000000400000 m) (h : Only m r s) : OnlyRes m r (execEvbauthTimeout x0 s) := by
  unfold execEvbauthTimeout
  try dsimp only
  repeat' (first
    | (intro _; try dsimp only)
    | with_reducible assumption
    | with_reducible apply Only.ite
    | with_reducible refine whenLive_only (k.sub (by decide)) ?_ ?_
    | with_reducible refine State.endExchange_only (k.sub (by decide)) ?_)

/-! ### Machine/Port.lean -/

theorem laneGroup_only {m : Nat} {r s : State} {x0 : Nat} {x1 : Word} (k : Covers 0x30600000000000000000000000000000000000000000000000000000000000000000000000000001000000000c00000080000020000000000800700000000000200 m) (h : Only m r s) : Only m r (laneGroup x0 x1 s) := by
  unfold laneGroup
  try dsimp only
  repeat' (first
    | with_reducible assumption
    | with_reducible apply Only.ite
    | with_reducible refine State.refuseWrite_only (k.sub (by decide)) ?_
    | with_reducible refine State.settleFull_only (k.sub (by decide)) ?_
    | with_reducible refine State.plainWrite_only _ _ _ (k.words (by decide)) ?_)

theorem State.settleStrict_only {m : Nat} {r s : State} {x1 : Nat} (k : Covers 0x30600000000000000000000000000000000000000000000000000000000000000040000000000000000000000000000080000020000000000000700000008000200 m) (h : Only m r s) : Only m r (State.settleStrict s x1) := by
  unfold State.settleStrict
  try dsimp only
  repeat' (first
    | with_reducible assumption
    | with_reducible apply Only.ite
    | with_reducible refine State.raise_only (k.sub (by decide)) ?_
    | with_reducible refine State.setErr_only _ _ (k.err (by decide) (by decide)) ?_
    | with_reducible refine State.modPort_only (k.sub (by decide)) ?_)

theorem portCfg_only {m : Nat} {r s : State} {x0 : Nat} {x1 : Word} (k : Covers 0x8000000030600000000000000000000310100000000000000060000000000000000000000050000000000006040000000c0000009000002028f1a0440860700800dd8400203 m) (h : Only m r s) : Only m r (portCfg x0 x1 s) := by
  unfold portCfg
  try dsimp only
  repeat' (first
    | with_reducible assumption
    | fail_if_no_progress (with_reducible refine Only.fhTo (by apply FaultStOnly.of <;> first | exact .inl (k.bit (by decide)) | exact .inr rfl) ?_)
    | with_reducible apply Only.ite
    | with_reducible refine State.refuseWrite_only (k.sub (by decide)) ?_
    | with_reducible refine State.plainWrite_only _ _ _ (k.words (by decide)) ?_
    | with_reducible refine State.settleFull_only (k.sub (by decide)) ?_
    | with_reducible refine State.plainFibre_only (k.sub (by decide)) ?_
    | with_reducible refine State.wr_only _ _ _ (k.words (by decide)) ?_
    | with_reducible refine State.settleStrict_only (k.sub (by decide)) ?_
    | with_reducible refine State.refuseReserve_only (k.sub (by decide)) ?_ ?_
    | with_reducible refine State.portFalls_only (k.sub (by decide)) ?_)

theorem execPortEnable_only {m : Nat} {r s : State} {x0 : Fin 1024} {x1 : Word} (k : Covers 0x8000000030600000000000000000000310100000000000000060000000000000000000000050000000000006040000000c0000009000002028f1a04408e0700800dd8400203 m) (h : Only m r s) : OnlyRes m r (execPortEnable x0 x1 s) := by
  unfold execPortEnable
  try dsimp only
  repeat' (first
    | (intro _; try dsimp only)
    | with_reducible assumption
    | with_reducible refine whenReg_only (k.sub (by decide)) ?_ ?_
    | with_reducible refine portCfg_only (k.sub (by decide)) ?_)

theorem execPortDisable_only {m : Nat} {r s : State} {x0 : Fin 1024} {x1 : Word} (k : Covers 0x8000000030600000000000000000000310100000000000000060000000000000000000000050000000000006040000000c0000009000002028f1a04408e0700800dd8400203 m) (h : Only m r s) : OnlyRes m r (execPortDisable x0 x1 s) := by
  unfold execPortDisable
  try dsimp only
  repeat' (first
    | (intro _; try dsimp only)
    | with_reducible assumption
    | with_reducible refine whenReg_only (k.sub (by decide)) ?_ ?_
    | with_reducible refine portCfg_only (k.sub (by decide)) ?_)

theorem execLaneLayoutWrite_only {m : Nat} {r s : State} {x0 : Fin 256} {x1 : Word} (k : Covers 0x30600000000000000000000000000000000000000000000000000000000000000000000000000001000000000c00000080000020000000000880700000000000200 m) (h : Only m r s) : OnlyRes m r (execLaneLayoutWrite x0 x1 s) := by
  unfold execLaneLayoutWrite
  try dsimp only
  repeat' (first
    | (intro _; try dsimp only)
    | with_reducible assumption
    | with_reducible refine whenReg_only (k.sub (by decide)) ?_ ?_
    | with_reducible refine laneGroup_only (k.sub (by decide)) ?_)

theorem fecLock_only {m : Nat} {r s : State} {x0 : Nat} (k : Covers 0x8000000030600000000000000000000000000000000000000000000000000000000000000000000000000004040000000000000080000020000000000000700000008400200 m) (h : Only m r s) : Only m r (fecLock x0 s) := by
  unfold fecLock
  try dsimp only
  repeat' (first
    | with_reducible assumption
    | with_reducible apply Only.ite
    | with_reducible refine State.wr_only _ _ _ (k.words (by decide)) ?_
    | with_reducible refine State.sizePool_only (k.sub (by decide)) ?_
    | with_reducible refine State.startExchange_only (k.sub (by decide)) ?_)

theorem execLinkFecLock_only {m : Nat} {r s : State} {x0 : Fin 1024} (k : Covers 0x8000000030600000000000000000000000000000000000000000000000000000000000000000000000000004040000000000000080000020000000000000700000008400200 m) (h : Only m r s) : OnlyRes m r (execLinkFecLock x0 s) := by
  unfold execLinkFecLock
  try dsimp only
  repeat' (first
    | (intro _; try dsimp only)
    | with_reducible assumption
    | with_reducible refine whenLive_only (k.sub (by decide)) ?_ ?_
    | with_reducible refine fecLock_only (k.sub (by decide)) ?_)

theorem laneSwap_only {m : Nat} {r s : State} {x0 : Nat} {x1 : Nat} (k : Covers 0x34600000000000000000000000000000000000000000000000000000000000000000000000000001000000000000000080000020000000000001700000408000200 m) (h : Only m r s) : Only m r (laneSwap x0 x1 s) := by
  unfold laneSwap
  try dsimp only
  repeat' (first
    | with_reducible assumption
    | with_reducible apply Only.ite
    | with_reducible refine State.spareLane_only (k.sub (by decide)) ?_
    | with_reducible refine State.sendMarker_only (k.sub (by decide)) ?_)

theorem execLaneSwap_only {m : Nat} {r s : State} {x0 : Fin 1024} {x1 : Fin 8} (k : Covers 0x34600000000000000000000000000000000000000000000000000000000000000000000000000001000000000000000080000020000000000001700000408000200 m) (h : Only m r s) : OnlyRes m r (execLaneSwap x0 x1 s) := by
  unfold execLaneSwap
  try dsimp only
  repeat' (first
    | (intro _; try dsimp only)
    | with_reducible assumption
    | with_reducible refine whenLive_only (k.sub (by decide)) ?_ ?_
    | with_reducible refine laneSwap_only (k.sub (by decide)) ?_)

/-! ### Machine/Optical.lean -/

theorem State.ocRefuse_only {m : Nat} {r s : State} (k : Covers 0x100000000000000000000000000000000000000000000000000000000000000000000000000000000000000000000000000000000 m) (h : Only m r s) : Only m r (State.ocRefuse s) := by
  unfold State.ocRefuse
  try dsimp only
  repeat' (first
    | with_reducible assumption
    | with_reducible refine State.setErr_only _ _ (k.err (by decide) (by decide)) ?_)

theorem calCfgWrite_only {m : Nat} {r s : State} {x0 : Word} (k : Covers 0x300000000000000000000000000000000000000000000000000000000000000000000000000000000000000000000000000000000 m) (h : Only m r s) : Only m r (calCfgWrite x0 s) := by
  unfold calCfgWrite
  try dsimp only
  repeat' (first
    | with_reducible assumption
    | with_reducible apply Only.ite
    | with_reducible refine State.ocRefuse_only (k.sub (by decide)) ?_
    | with_reducible refine State.plainWrite_only _ _ _ (k.words (by decide)) ?_)

theorem engineEnvWrite_only {m : Nat} {r s : State} {x0 : Nat} {x1 : Word} (k : Covers 0x4100000000000000000000000000000000000000000000000000000000000000000000000000000000000000000000000000000000 m) (h : Only m r s) : Only m r (engineEnvWrite x0 x1 s) := by
  unfold engineEnvWrite
  try dsimp only
  repeat' (first
    | with_reducible assumption
    | with_reducible apply Only.ite
    | with_reducible refine State.ocRefuse_only (k.sub (by decide)) ?_
    | with_reducible refine State.plainWrite_only _ _ _ (k.words (by decide)) ?_)

theorem ffCfgWrite_only {m : Nat} {r s : State} {x0 : Nat} {x1 : Word} (k : Covers 0x8100000000000000000000000000000000000000000000000000000000000000000000000000000000000000000000000000000000 m) (h : Only m r s) : Only m r (ffCfgWrite x0 x1 s) := by
  unfold ffCfgWrite
  try dsimp only
  repeat' (first
    | with_reducible assumption
    | with_reducible apply Only.ite
    | with_reducible refine State.ocRefuse_only (k.sub (by decide)) ?_
    | with_reducible refine State.plainWrite_only _ _ _ (k.words (by decide)) ?_)

theorem fibreMapWrite_only {m : Nat} {r s : State} {x0 : Nat} {x1 : Word} (k : Covers 0x100100000000000000000000000000000000000000000000000000000000000000000000000000000000000000000000000000000000 m) (h : Only m r s) : Only m r (fibreMapWrite x0 x1 s) := by
  unfold fibreMapWrite
  try dsimp only
  repeat' (first
    | with_reducible assumption
    | with_reducible apply Only.ite
    | with_reducible refine State.ocRefuse_only (k.sub (by decide)) ?_
    | with_reducible refine State.plainWrite_only _ _ _ (k.words (by decide)) ?_)

theorem State.wavelengthMoved_only {m : Nat} {r s : State} {x1 : Nat} (k : Covers 0x30600000000000000000000000000000000000000000000000000000000000000000000000000000000000000000000080000020000000000000700000000000200 m) (h : Only m r s) : Only m r (State.wavelengthMoved s x1) := by
  unfold State.wavelengthMoved
  try dsimp only
  repeat' (first
    | with_reducible assumption
    | with_reducible refine State.raise_only (k.sub (by decide)) ?_)

theorem State.loseLane_only {m : Nat} {r s : State} {x1 : Nat} {x2 : Nat} (k : Covers 0x8000000034600000000000000000000310100000000000000060000000000000000000000010000000000004000000000c0000009000002008f1a0440809700800dd8400203 m) (h : Only m r s) : Only m r (State.loseLane s x1 x2) := by
  unfold State.loseLane
  try dsimp only
  repeat' (first
    | with_reducible assumption
    | fail_if_no_progress (with_reducible refine Only.fhTo (by apply FaultStOnly.of <;> first | exact .inl (k.bit (by decide)) | exact .inr rfl) ?_)
    | with_reducible apply Only.ite
    | with_reducible refine State.addSat_only _ _ _ (k.words (by decide)) ?_
    | with_reducible refine State.raise_only (k.sub (by decide)) ?_
    | with_reducible refine State.removeCircuit_only (k.sub (by decide)) ?_
    | with_reducible refine State.wr_only _ _ _ (k.words (by decide)) ?_
    | with_reducible refine State.portFalls_only (k.sub (by decide)) ?_
    | split)

theorem State.startMove_only {m : Nat} {r s : State} {x1 : Nat} {x2 : Nat} {x3 : MoveCause} (k : Covers 0x30004000000000000000408000000 m) (h : Only m r s) : Only m r (State.startMove s x1 x2 x3) := by
  unfold State.startMove
  try dsimp only
  repeat' (first
    | with_reducible assumption
    | with_reducible apply Only.ite
    | with_reducible refine State.draw_only (k.bit (i := 112) (by decide)) ?_
    | with_reducible refine State.moveMsg_only (k.sub (by decide)) ?_
    | with_reducible refine State.setMove_only (k.sub (by decide)) ?_
    | split)

theorem State.putLane_only {m : Nat} {r s : State} {x1 : Nat} {x2 : Nat} {x3 : Nat} (k : Covers 0x100000000000000000000000000000000000000000000000000000000000000000000000000000000000000000000000000000000000 m) (h : Only m r s) : Only m r (State.putLane s x1 x2 x3) := by
  unfold State.putLane
  try dsimp only
  repeat' (first
    | with_reducible assumption
    | with_reducible refine State.wr_only _ _ _ (k.words (by decide)) ?_)

theorem State.wavelengthFails_only {m : Nat} {r s : State} {x1 : Nat} {x2 : Nat} (k : Covers 0x800000003c600000000000000000000310100000000000000060000000000000000000000010000000000004000000000c0000009000003028f1a0440819700800dd8400203 m) (h : Only m r s) : Only m r (State.wavelengthFails s x1 x2) := by
  unfold State.wavelengthFails
  try dsimp only
  repeat' (first
    | with_reducible assumption
    | with_reducible apply Only.ite
    | with_reducible refine State.wavelengthMoved_only (k.sub (by decide)) ?_
    | with_reducible refine State.wr_only _ _ _ (k.words (by decide)) ?_
    | with_reducible refine State.abandonCal_only (k.sub (by decide)) ?_
    | with_reducible refine State.loseLane_only (k.sub (by decide)) ?_
    | with_reducible refine State.queueRecovery_only (k.sub (by decide)) ?_
    | with_reducible refine State.startMove_only (k.sub (by decide)) ?_
    | with_reducible refine State.portFalls_only (k.sub (by decide)) ?_
    | with_reducible refine State.sendSetting_only (k.sub (by decide)) ?_
    | with_reducible refine State.putLane_only (k.sub (by decide)) ?_
    | split)

theorem State.commitMove_only {m : Nat} {r s : State} {x1 : Nat} {x2 : Move} (k : Covers 0x30600000000000000000000100000000000000000000000000000000000000000000000000000000000000000000000080000020206000000000700000000000200 m) (h : Only m r s) : Only m r (State.commitMove s x1 x2) := by
  unfold State.commitMove
  try dsimp only
  repeat' (first
    | with_reducible assumption
    | fail_if_no_progress (with_reducible refine Only.ocTo (by apply OpticalStOnly.of <;> first | exact .inl (k.bit (by decide)) | exact .inr rfl) ?_)
    | with_reducible refine State.sendSetting_only (k.sub (by decide)) ?_
    | with_reducible refine State.putLane_only (k.sub (by decide)) ?_
    | with_reducible refine State.dropMove_only (k.sub (by decide)) ?_
    | with_reducible refine State.wr_only _ _ _ (k.words (by decide)) ?_
    | with_reducible refine State.wavelengthMoved_only (k.sub (by decide)) ?_
    | split)

theorem State.startSweep_only {m : Nat} {r s : State} {x1 : Nat} {x2 : Nat} (k : Covers 0x100000000000000000000000000000000000000000000000000000000000000000000000000000000202000000000000000000000000 m) (h : Only m r s) : Only m r (State.startSweep s x1 x2) := by
  unfold State.startSweep
  try dsimp only
  repeat' (first
    | with_reducible assumption
    | fail_if_no_progress (with_reducible refine Only.ocTo (by apply OpticalStOnly.of <;> first | exact .inl (k.bit (by decide)) | exact .inr rfl) ?_)
    | with_reducible refine State.sendSetting_only (k.sub (by decide)) ?_
    | with_reducible refine State.wr_only _ _ _ (k.words (by decide)) ?_)

theorem State.settleMove_only {m : Nat} {r s : State} {x1 : Nat} (k : Covers 0x30600000000000000000000100000000000000000000000000000000000000000000000000000000000000000000000080000020206000000000700000000000200 m) (h : Only m r s) : Only m r (State.settleMove s x1) := by
  unfold State.settleMove
  try dsimp only
  repeat' (first
    | with_reducible assumption
    | with_reducible apply Only.ite
    | with_reducible refine State.commitMove_only (k.sub (by decide)) ?_
    | split)

theorem State.settleFord_only {m : Nat} {r s : State} {x1 : Nat} (k : Covers 0x10000000000000000000000000000000000000000000000000000004000000000000000000000020003000000000000000408000000 m) (h : Only m r s) : Only m r (State.settleFord s x1) := by
  unfold State.settleFord
  try dsimp only
  repeat' (first
    | with_reducible assumption
    | with_reducible apply Only.ite
    | with_reducible refine State.sendSetting_only (k.sub (by decide)) ?_
    | with_reducible refine State.restartFour_only (k.sub (by decide)) ?_
    | (with_reducible refine State.wrs_only _ (by simp only [List.forall_mem_cons, List.not_mem_nil, false_imp_iff, implies_true, and_true]; (repeat' apply And.intro) <;> exact k.words (by decide)) ?_)
    | with_reducible refine State.fordMsg_only (k.sub (by decide)) ?_)

theorem State.opticalSettle_only {m : Nat} {r s : State} {x1 : Nat} (k : Covers 0x30600000000000000000000110000000000000000000000000000000000000000000000000000004000000000000000080000020207000000000700000408000200 m) (h : Only m r s) : Only m r (State.opticalSettle s x1) := by
  unfold State.opticalSettle
  try dsimp only
  repeat' (first
    | with_reducible assumption
    | with_reducible refine State.settleMove_only (k.sub (by decide)) ?_
    | with_reducible refine State.settleFord_only (k.sub (by decide)) ?_
    | split)

theorem State.recalibrateRx_only {m : Nat} {r s : State} {x1 : Nat} {x2 : Nat} (k : Covers 0x10001000000000000000000000000 m) (h : Only m r s) : Only m r (State.recalibrateRx s x1 x2) := by
  unfold State.recalibrateRx
  try dsimp only
  repeat' (first
    | with_reducible assumption
    | with_reducible refine State.draw_only (k.bit (i := 112) (by decide)) ?_
    | with_reducible refine State.restartRing_only (k.sub (by decide)) ?_
    | with_reducible refine State.setRingSt_only (k.sub (by decide)) ?_)

theorem State.sendSwap_only {m : Nat} {r s : State} {x1 : Move} (k : Covers 0x20000000000000000000408000000 m) (h : Only m r s) : Only m r (State.sendSwap s x1) := by
  unfold State.sendSwap
  try dsimp only
  repeat' (first
    | with_reducible assumption
    | with_reducible refine State.sendOwn_only (k.sub (by decide)) ?_)

theorem State.unbridged_only {m : Nat} {r s : State} {x1 : Nat} {x2 : Move} (k : Covers 0x30600000000000000000000100100000000000000000000000000000000000000000000000000000000000000000000080000020206000000000700000408000200 m) (h : Only m r s) : Only m r (State.unbridged s x1 x2) := by
  unfold State.unbridged
  try dsimp only
  repeat' (first
    | with_reducible assumption
    | with_reducible refine State.commitMove_only (k.sub (by decide)) ?_
    | with_reducible refine State.raise_only (k.sub (by decide)) ?_
    | with_reducible refine State.setErr_only _ _ (k.err (by decide) (by decide)) ?_
    | with_reducible refine State.sendSwap_only (k.sub (by decide)) ?_)

theorem State.refusedMove_only {m : Nat} {r s : State} {x1 : Nat} {x2 : Move} (k : Covers 0x30600000000000000000000100100000000000000000000000000000000000000000000000000000000000000000000080000020206000000000700000408000200 m) (h : Only m r s) : Only m r (State.refusedMove s x1 x2) := by
  unfold State.refusedMove
  try dsimp only
  repeat' (first
    | with_reducible assumption
    | with_reducible apply Only.ite
    | with_reducible refine State.sendSetting_only (k.sub (by decide)) ?_
    | with_reducible refine State.dropMove_only (k.sub (by decide)) ?_
    | with_reducible refine State.unbridged_only (k.sub (by decide)) ?_)

theorem calibrationDone_only {m : Nat} {r s : State} {x0 : Nat} {x1 : Nat} {x2 : Nat} {x3 : Nat} (k : Covers 0x100000000000000000000000000000000000000000000000000000000000000000000000000000000213000000000000000000000000 m) (h : Only m r s) : Only m r (calibrationDone x0 x1 x2 x3 s) := by
  unfold calibrationDone
  try dsimp only
  repeat' (first
    | with_reducible assumption
    | fail_if_no_progress (with_reducible refine Only.ocTo (by apply OpticalStOnly.of <;> first | exact .inl (k.bit (by decide)) | exact .inr rfl) ?_)
    | with_reducible apply Only.ite
    | with_reducible refine State.sendSetting_only (k.sub (by decide)) ?_
    | with_reducible refine State.wr_only _ _ _ (k.words (by decide)) ?_
    | with_reducible refine State.setRingSt_only (k.sub (by decide)) ?_)

theorem calibrationStart_only {m : Nat} {r s : State} {x0 : Nat} (k : Covers 0x100000000000000000000000000000000000000000000000000000000000000000000000000000030206000000000000000408000000 m) (h : Only m r s) : Only m r (calibrationStart x0 s) := by
  unfold calibrationStart
  try dsimp only
  repeat' (first
    | with_reducible assumption
    | with_reducible apply Only.ite
    | with_reducible refine State.startSweep_only (k.sub (by decide)) ?_
    | with_reducible refine State.startMove_only (k.sub (by decide)) ?_
    | split)

theorem execLinkStatusReceived_only {m : Nat} {r s : State} {x0 : Fin 1024} {x1 : List Byte} (k : Covers 0x800000003c600000000000000000000310100000000000000060000000000000000000000010000000000024000000000c0000009000002028f1a0440871700800dd8400203 m) (h : Only m r s) : OnlyRes m r (execLinkStatusReceived x0 x1 s) := by
  unfold execLinkStatusReceived
  try dsimp only
  repeat' (first
    | (intro _; try dsimp only)
    | with_reducible assumption
    | with_reducible refine whenLive_only (k.sub (by decide)) ?_ ?_
    | with_reducible refine State.opticalSettle_only (k.sub (by decide)) ?_
    | with_reducible refine linkStatus_only (k.sub (by decide)) ?_)

theorem marker_only {m : Nat} {r s : State} {x0 : Nat} {x1 : List Byte} (k : Covers 0x3460000000000000000000031000000000000000000000000000000000000000000000000000000500000000000000008000003008b000000001700000408000200 m) (h : Only m r s) : Only m r (marker x0 x1 s) := by
  unfold marker
  try dsimp only
  repeat' (first
    | with_reducible assumption
    | fail_if_no_progress (with_reducible refine Only.ocTo (by apply OpticalStOnly.of <;> first | exact .inl (k.bit (by decide)) | exact .inr rfl) ?_)
    | with_reducible apply Only.ite
    | with_reducible refine State.spareLane_only (k.sub (by decide)) ?_
    | with_reducible refine State.recalibrateRx_only (k.sub (by decide)) ?_
    | with_reducible refine State.sendSetting_only (k.sub (by decide)) ?_
    | (with_reducible refine State.wrs_only _ (by simp only [List.forall_mem_cons, List.not_mem_nil, false_imp_iff, implies_true, and_true]; (repeat' apply And.intro) <;> exact k.words (by decide)) ?_)
    | with_reducible refine State.settleFord_only (k.sub (by decide)) ?_
    | with_reducible refine State.setCircuit_only (k.sub (by decide)) ?_
    | with_reducible refine State.laneRestored_only (k.sub (by decide)) ?_
    | split)

theorem execMarkerReceived_only {m : Nat} {r s : State} {x0 : Fin 1024} {x1 : BitVec 48} {x2 : List Byte} (k : Covers 0x3460000000000000000000031000000000000000000000000000000000000000000000000000000500000000000000008000003008b000000001700000408000200 m) (h : Only m r s) : OnlyRes m r (execMarkerReceived x0 x1 x2 s) := by
  unfold execMarkerReceived
  try dsimp only
  repeat' (first
    | (intro _; try dsimp only)
    | with_reducible assumption
    | with_reducible apply Only.ite
    | with_reducible refine whenLive_only (k.sub (by decide)) ?_ ?_
    | with_reducible refine onLink_only (k.sub (by decide)) ?_ ?_
    | with_reducible refine marker_only (k.sub (by decide)) ?_)

theorem moveRequest_only {m : Nat} {r s : State} {x0 : Nat} {x1 : List Byte} (k : Covers 0x2000a000000000000000408000000 m) (h : Only m r s) : Only m r (moveRequest x0 x1 s) := by
  unfold moveRequest
  try dsimp only
  repeat' (first
    | with_reducible assumption
    | fail_if_no_progress (with_reducible refine Only.ocTo (by apply OpticalStOnly.of <;> first | exact .inl (k.bit (by decide)) | exact .inr rfl) ?_)
    | with_reducible apply Only.ite
    | with_reducible refine State.moveMsg_only (k.sub (by decide)) ?_
    | with_reducible refine State.sendSetting_only (k.sub (by decide)) ?_)

theorem execMoveRequest_only {m : Nat} {r s : State} {x0 : Fin 1024} {x1 : Option (BitVec 48)} {x2 : List Byte} (k : Covers 0x2000a000000000000000408000000 m) (h : Only m r s) : OnlyRes m r (execMoveRequest x0 x1 x2 s) := by
  unfold execMoveRequest
  try dsimp only
  repeat' (first
    | (intro _; try dsimp only)
    | with_reducible assumption
    | with_reducible apply Only.ite
    | with_reducible refine whenLive_only (k.sub (by decide)) ?_ ?_
    | with_reducible refine onLink_only (k.sub (by decide)) ?_ ?_
    | with_reducible refine moveRequest_only (k.sub (by decide)) ?_)

theorem moveGrant_only {m : Nat} {r s : State} {x0 : Nat} {x1 : List Byte} (k : Covers 0x20006000000000000000408000000 m) (h : Only m r s) : Only m r (moveGrant x0 x1 s) := by
  unfold moveGrant
  try dsimp only
  repeat' (first
    | with_reducible assumption
    | with_reducible apply Only.ite
    | with_reducible refine State.sendSwap_only (k.sub (by decide)) ?_
    | with_reducible refine State.sendSetting_only (k.sub (by decide)) ?_
    | with_reducible refine State.setMove_only (k.sub (by decide)) ?_
    | split)

theorem execMoveGrant_only {m : Nat} {r s : State} {x0 : Fin 1024} {x1 : Option (BitVec 48)} {x2 : List Byte} (k : Covers 0x20006000000000000000408000000 m) (h : Only m r s) : OnlyRes m r (execMoveGrant x0 x1 x2 s) := by
  unfold execMoveGrant
  try dsimp only
  repeat' (first
    | (intro _; try dsimp only)
    | with_reducible assumption
    | with_reducible apply Only.ite
    | with_reducible refine whenLive_only (k.sub (by decide)) ?_ ?_
    | with_reducible refine onLink_only (k.sub (by decide)) ?_ ?_
    | with_reducible refine moveGrant_only (k.sub (by decide)) ?_)

theorem moveRefuse_only {m : Nat} {r s : State} {x0 : Nat} {x1 : List Byte} (k : Covers 0x30600000000000000000000100100000000000000000000000000000000000000000000000000000000000000000000080000020206000000000700000408000200 m) (h : Only m r s) : Only m r (moveRefuse x0 x1 s) := by
  unfold moveRefuse
  try dsimp only
  repeat' (first
    | with_reducible assumption
    | with_reducible apply Only.ite
    | with_reducible refine State.refusedMove_only (k.sub (by decide)) ?_
    | split)

theorem execMoveRefuse_only {m : Nat} {r s : State} {x0 : Fin 1024} {x1 : Option (BitVec 48)} {x2 : List Byte} (k : Covers 0x30600000000000000000000100100000000000000000000000000000000000000000000000000000000000000000000080000020206000000000700000408000200 m) (h : Only m r s) : OnlyRes m r (execMoveRefuse x0 x1 x2 s) := by
  unfold execMoveRefuse
  try dsimp only
  repeat' (first
    | (intro _; try dsimp only)
    | with_reducible assumption
    | with_reducible apply Only.ite
    | with_reducible refine whenLive_only (k.sub (by decide)) ?_ ?_
    | with_reducible refine onLink_only (k.sub (by decide)) ?_ ?_
    | with_reducible refine moveRefuse_only (k.sub (by decide)) ?_)

theorem execMoveAnswerTimeout_only {m : Nat} {r s : State} {x0 : Fin 256} (k : Covers 0x30600000000000000000000100100000000000000000000000000000000000000000000000000000000000000000000080000020206000000000700000408000200 m) (h : Only m r s) : OnlyRes m r (execMoveAnswerTimeout x0 s) := by
  unfold execMoveAnswerTimeout
  try dsimp only
  repeat' (first
    | (intro _; try dsimp only)
    | with_reducible assumption
    | with_reducible apply Only.ite
    | with_reducible refine whenLive_only (k.sub (by decide)) ?_ ?_
    | with_reducible refine State.refusedMove_only (k.sub (by decide)) ?_
    | split)

theorem execCalibrationStart_only {m : Nat} {r s : State} {x0 : Fin 256} (k : Covers 0x100000000000000000000000000000000000000000000000000000000000000000000000000000030206000000000000000408000000 m) (h : Only m r s) : OnlyRes m r (execCalibrationStart x0 s) := by
  unfold execCalibrationStart
  try dsimp only
  repeat' (first
    | (intro _; try dsimp only)
    | with_reducible assumption
    | with_reducible refine whenLive_only (k.sub (by decide)) ?_ ?_
    | with_reducible refine calibrationStart_only (k.sub (by decide)) ?_)

theorem execCalibrationDone_only {m : Nat} {r s : State} {x0 : Fin 256} {x1 : BitVec 16} {x2 : BitVec 16} {x3 : BitVec 16} (k : Covers 0x100000000000000000000000000000000000000000000000000000000000000000000000000000000213000000000000000000000000 m) (h : Only m r s) : OnlyRes m r (execCalibrationDone x0 x1 x2 x3 s) := by
  unfold execCalibrationDone
  try dsimp only
  repeat' (first
    | (intro _; try dsimp only)
    | with_reducible assumption
    | with_reducible refine whenLive_only (k.sub (by decide)) ?_ ?_
    | with_reducible refine calibrationDone_only (k.sub (by decide)) ?_)

/-! ### Machine/Ford.lean -/

theorem fordCfgWrite_only {m : Nat} {r s : State} {x0 : Word} (k : Covers 0x500000000000000000000000000000000000000000000000000000000000000000000000000000000000000000000000000000000 m) (h : Only m r s) : Only m r (fordCfgWrite x0 s) := by
  unfold fordCfgWrite
  try dsimp only
  repeat' (first
    | with_reducible assumption
    | with_reducible apply Only.ite
    | with_reducible refine State.ocRefuse_only (k.sub (by decide)) ?_
    | with_reducible refine State.plainWrite_only _ _ _ (k.words (by decide)) ?_)

theorem fordCmd_only {m : Nat} {r s : State} {x0 : Word} (k : Covers 0x310000000000000000000000000000000000000000000000000000004000000000000000000000020083000000000000000408000000 m) (h : Only m r s) : Only m r (fordCmd x0 s) := by
  unfold fordCmd
  try dsimp only
  repeat' (first
    | with_reducible assumption
    | with_reducible apply Only.ite
    | with_reducible refine State.removeCircuit_only (k.sub (by decide)) ?_
    | split)

theorem State.circuitWindow_only {m : Nat} {r s : State} {x1 : Nat} (k : Covers 0x310000000000000000000000000000000000000000000000000000004000000000000000000000020083000000000000000408000000 m) (h : Only m r s) : Only m r (State.circuitWindow s x1) := by
  unfold State.circuitWindow
  try dsimp only
  repeat' (first
    | with_reducible assumption
    | with_reducible apply Only.ite
    | with_reducible refine State.removeCircuit_only (k.sub (by decide)) ?_
    | with_reducible refine State.setCircuit_only (k.sub (by decide)) ?_)

theorem State.fordAdd_only {m : Nat} {r s : State} {x1 : Nat} {x2 : Nat} (k : Covers 0x20080000000000000000408000000 m) (h : Only m r s) : Only m r (State.fordAdd s x1 x2) := by
  unfold State.fordAdd
  try dsimp only
  repeat' (first
    | with_reducible assumption
    | with_reducible refine State.sendOwn_only (k.sub (by decide)) ?_
    | with_reducible refine State.setCircuit_only (k.sub (by decide)) ?_)

theorem State.setPair_only {m : Nat} {r s : State} {x1 : Nat} {x2 : Pair} (k : Covers 0x100000000000000000000000000 m) (h : Only m r s) : Only m r (State.setPair s x1 x2) := by
  unfold State.setPair
  try dsimp only
  repeat' (first
    | with_reducible assumption
    | fail_if_no_progress (with_reducible refine Only.ocTo (by apply OpticalStOnly.of <;> first | exact .inl (k.bit (by decide)) | exact .inr rfl) ?_))

theorem State.noteDemand_only {m : Nat} {r s : State} {x1 : Nat} {x2 : Nat} {x3 : Nat} (k : Covers 0x100000000000000000000000000 m) (h : Only m r s) : Only m r (State.noteDemand s x1 x2 x3) := by
  unfold State.noteDemand
  try dsimp only
  repeat' (first
    | with_reducible assumption
    | with_reducible apply Only.ite
    | with_reducible refine State.setPair_only (k.sub (by decide)) ?_)

theorem State.offer_only {m : Nat} {r s : State} {x1 : Nat} {x2 : Nat} {x3 : Nat} {x4 : Nat} (k : Covers 0x30600000000000000000000310100000000000000000000000000000000000000000000000000000000000000000000080000030286000000000700000408000200 m) (h : Only m r s) : Only m r (State.offer s x1 x2 x3 x4) := by
  unfold State.offer
  try dsimp only
  repeat' (first
    | with_reducible assumption
    | with_reducible refine State.draw_only (k.bit (i := 112) (by decide)) ?_
    | (with_reducible refine State.wrs_only _ (by simp only [List.forall_mem_cons, List.not_mem_nil, false_imp_iff, implies_true, and_true]; (repeat' apply And.intro) <;> exact k.words (by decide)) ?_)
    | with_reducible refine State.setCircuit_only (k.sub (by decide)) ?_
    | with_reducible refine State.fordW_only (k.sub (by decide)) ?_
    | with_reducible refine State.abandonCal_only (k.sub (by decide)) ?_
    | with_reducible refine State.fordMsg_only (k.sub (by decide)) ?_)

theorem State.offerFails_only {m : Nat} {r s : State} {x1 : Nat} {x2 : List Nat} (k : Covers 0x30600000000000000000000310100000000000000000000000000000000000000000000000000000000000000000000080000020183000000000700000408000200 m) (h : Only m r s) : Only m r (State.offerFails s x1 x2) := by
  unfold State.offerFails
  try dsimp only
  repeat' (first
    | with_reducible assumption
    | with_reducible refine State.raise_only (k.sub (by decide)) ?_
    | with_reducible refine State.setErr_only _ _ (k.err (by decide) (by decide)) ?_
    | with_reducible refine State.withdrawOffer_only (k.sub (by decide)) ?_
    | with_reducible refine State.setPair_only (k.sub (by decide)) ?_)

theorem State.pairWindow_only {m : Nat} {r s : State} {x1 : Nat} (k : Covers 0x100000000000000000000000000 m) (h : Only m r s) : Only m r (State.pairWindow s x1) := by
  unfold State.pairWindow
  try dsimp only
  repeat' (first
    | with_reducible assumption
    | with_reducible refine State.setPair_only (k.sub (by decide)) ?_)

theorem State.serveFord_only {m : Nat} {r s : State} {x1 : Nat} (k : Covers 0x30600000000000000000000310100000000000000000000000000000000000000000000000000000000000000000000080000030286000000000700000408000200 m) (h : Only m r s) : Only m r (State.serveFord s x1) := by
  unfold State.serveFord
  try dsimp only
  repeat' (first
    | with_reducible assumption
    | with_reducible apply Only.ite
    | with_reducible refine State.offer_only (k.sub (by decide)) ?_
    | split)

theorem fordWindow_only {m : Nat} {r s : State} {x0 : Nat} (k : Covers 0x30600000000000000000000310100000000000000000000000000000000000000000000000000004000000000000000080000030387000000000700000408000200 m) (h : Only m r s) : Only m r (fordWindow x0 s) := by
  unfold fordWindow
  try dsimp only
  repeat' (first
    | (intro _; try dsimp only)
    | with_reducible assumption
    | with_reducible apply Only.foldl
    | with_reducible refine State.circuitWindow_only (k.sub (by decide)) ?_
    | with_reducible refine State.pairWindow_only (k.sub (by decide)) ?_
    | with_reducible refine State.serveFord_only (k.sub (by decide)) ?_)

theorem execFordWindow_only {m : Nat} {r s : State} {x0 : Fin 16} (k : Covers 0x30600000000000000000000310100000000000000000000000000000000000000000000000000004000000000000000080000030387000000000700000408000200 m) (h : Only m r s) : OnlyRes m r (execFordWindow x0 s) := by
  unfold execFordWindow
  try dsimp only
  repeat' (first
    | (intro _; try dsimp only)
    | with_reducible assumption
    | with_reducible refine whenLive_only (k.sub (by decide)) ?_ ?_
    | with_reducible refine fordWindow_only (k.sub (by decide)) ?_)

theorem fordAccept_only {m : Nat} {r s : State} {x0 : Nat} {x1 : List Byte} (k : Covers 0x10000000000000000000000000000000000000000000000000000000000000000000000000000020080000000000000000408000000 m) (h : Only m r s) : Only m r (fordAccept x0 x1 s) := by
  unfold fordAccept
  try dsimp only
  repeat' (first
    | with_reducible assumption
    | with_reducible apply Only.ite
    | with_reducible refine State.setCircuit_only (k.sub (by decide)) ?_
    | with_reducible refine State.fordAdd_only (k.sub (by decide)) ?_
    | with_reducible refine State.wr_only _ _ _ (k.words (by decide)) ?_
    | split)

theorem execFordAccept_only {m : Nat} {r s : State} {x0 : Fin 1024} {x1 : Option (BitVec 48)} {x2 : List Byte} (k : Covers 0x10000000000000000000000000000000000000000000000000000000000000000000000000000020080000000000000000408000000 m) (h : Only m r s) : OnlyRes m r (execFordAccept x0 x1 x2 s) := by
  unfold execFordAccept
  try dsimp only
  repeat' (first
    | (intro _; try dsimp only)
    | with_reducible assumption
    | with_reducible apply Only.ite
    | with_reducible refine whenLive_only (k.sub (by decide)) ?_ ?_
    | with_reducible refine onLink_only (k.sub (by decide)) ?_ ?_
    | with_reducible refine fordAccept_only (k.sub (by decide)) ?_)

theorem fordDecline_only {m : Nat} {r s : State} {x0 : Nat} {x1 : List Byte} (k : Covers 0x30600000000000000000000310100000000000000000000000000000000000000000000000000000000000000000000080000020183000000000700000408000200 m) (h : Only m r s) : Only m r (fordDecline x0 x1 s) := by
  unfold fordDecline
  try dsimp only
  repeat' (first
    | with_reducible assumption
    | with_reducible apply Only.ite
    | with_reducible refine State.offerFails_only (k.sub (by decide)) ?_
    | split)

theorem execFordDecline_only {m : Nat} {r s : State} {x0 : Fin 1024} {x1 : Option (BitVec 48)} {x2 : List Byte} (k : Covers 0x30600000000000000000000310100000000000000000000000000000000000000000000000000000000000000000000080000020183000000000700000408000200 m) (h : Only m r s) : OnlyRes m r (execFordDecline x0 x1 x2 s) := by
  unfold execFordDecline
  try dsimp only
  repeat' (first
    | (intro _; try dsimp only)
    | with_reducible assumption
    | with_reducible apply Only.ite
    | with_reducible refine whenLive_only (k.sub (by decide)) ?_ ?_
    | with_reducible refine onLink_only (k.sub (by decide)) ?_ ?_
    | with_reducible refine fordDecline_only (k.sub (by decide)) ?_)

theorem execFordAnswerTimeout_only {m : Nat} {r s : State} {x0 : Fin 16} {x1 : Fin 8} (k : Covers 0x30600000000000000000000310100000000000000000000000000000000000000000000000000000000000000000000080000020183000000000700000408000200 m) (h : Only m r s) : OnlyRes m r (execFordAnswerTimeout x0 x1 s) := by
  unfold execFordAnswerTimeout
  try dsimp only
  repeat' (first
    | (intro _; try dsimp only)
    | with_reducible assumption
    | with_reducible apply Only.ite
    | with_reducible refine whenLive_only (k.sub (by decide)) ?_ ?_
    | with_reducible refine State.offerFails_only (k.sub (by decide)) ?_)

theorem fordReleased_only {m : Nat} {r s : State} {x0 : Nat} {x1 : List Byte} (k : Covers 0x310000000000000000000000000000000000000000000000000000004000000000000000000000020083000000000000000408000000 m) (h : Only m r s) : Only m r (fordReleased x0 x1 s) := by
  unfold fordReleased
  try dsimp only
  repeat' (first
    | with_reducible assumption
    | with_reducible apply Only.ite
    | with_reducible refine State.releaseSide_only (k.sub (by decide)) ?_
    | split)

theorem execFordReleased_only {m : Nat} {r s : State} {x0 : Fin 1024} {x1 : Option (BitVec 48)} {x2 : List Byte} (k : Covers 0x310000000000000000000000000000000000000000000000000000004000000000000000000000020083000000000000000408000000 m) (h : Only m r s) : OnlyRes m r (execFordReleased x0 x1 x2 s) := by
  unfold execFordReleased
  try dsimp only
  repeat' (first
    | (intro _; try dsimp only)
    | with_reducible assumption
    | with_reducible apply Only.ite
    | with_reducible refine whenLive_only (k.sub (by decide)) ?_ ?_
    | with_reducible refine onLink_only (k.sub (by decide)) ?_ ?_
    | with_reducible refine fordReleased_only (k.sub (by decide)) ?_)

theorem execFordReleaseTimeout_only {m : Nat} {r s : State} {x0 : Fin 16} {x1 : Fin 8} (k : Covers 0x310000000000000000000000000000000000000000000000000000004000000000000000000000020083000000000000000408000000 m) (h : Only m r s) : OnlyRes m r (execFordReleaseTimeout x0 x1 s) := by
  unfold execFordReleaseTimeout
  try dsimp only
  repeat' (first
    | (intro _; try dsimp only)
    | with_reducible assumption
    | with_reducible apply Only.ite
    | with_reducible refine whenLive_only (k.sub (by decide)) ?_ ?_
    | with_reducible refine State.endCircuit_only (k.sub (by decide)) ?_)

theorem execFordRemoveCmd_only {m : Nat} {r s : State} {x0 : Word} (k : Covers 0x310000000000000000000000000000000000000000000000000000004000000000000000000000020083000000000000000408000000 m) (h : Only m r s) : OnlyRes m r (execFordRemoveCmd x0 s) := by
  unfold execFordRemoveCmd
  try dsimp only
  repeat' (first
    | (intro _; try dsimp only)
    | with_reducible assumption
    | with_reducible refine whenBar_only (k.sub (by decide)) ?_ ?_
    | with_reducible refine fordCmd_only (k.sub (by decide)) ?_)

/-! ### Machine/Ingress.lean -/

theorem State.enqueue_only {m : Nat} {r s : State} {x1 : Nat} {x2 : Target} (k : Covers 0x48000000 m) (h : Only m r s) : Only m r (State.enqueue s x1 x2) := by
  unfold State.enqueue
  try dsimp only
  repeat' (first
    | with_reducible assumption
    | with_reducible refine State.modPort_only (k.sub (by decide)) ?_
    | with_reducible refine State.setQueue_only (k.sub (by decide)) ?_)

theorem State.storeFrame_only {m : Nat} {r s : State} {x1 : FrameSt} {x2 : List Target} (k : Covers 0x78000000 m) (h : Only m r s) : Only m r (State.storeFrame s x1 x2).2 := by
  unfold State.storeFrame
  try dsimp only
  repeat' (first
    | (intro _; try dsimp only)
    | with_reducible assumption
    | fail_if_no_progress (with_reducible refine Only.pcTo (by apply PacketStOnly.of <;> first | exact .inl (k.bit (by decide)) | exact .inr rfl) ?_)
    | with_reducible apply Only.foldl
    | with_reducible refine State.setFrame_only (k.sub (by decide)) ?_
    | with_reducible refine State.enqueue_only (k.sub (by decide)) ?_)

theorem State.dropEgress_only {m : Nat} {r s : State} {x1 : Target} (k : Covers 0xc00000000 m) (h : Only m r s) : Only m r (State.dropEgress s x1) := by
  unfold State.dropEgress
  try dsimp only
  repeat' (first
    | with_reducible assumption
    | with_reducible refine State.queueAdd_only (k.sub (by decide)) ?_
    | with_reducible refine State.portAdd_only (k.sub (by decide)) ?_)

theorem State.noCell_only {m : Nat} {r s : State} {x1 : Nat} {x2 : Charge} {x3 : Nat} (k : Covers 0x30600000000000000000000000000000000000000000000000000000000000000000000000000000040000000000000080000020000000000000700000400000200 m) (h : Only m r s) : Only m r (State.noCell s x1 x2 x3) := by
  unfold State.noCell
  try dsimp only
  repeat' (first
    | with_reducible assumption
    | with_reducible apply Only.ite
    | with_reducible refine State.portAdd_only (k.sub (by decide)) ?_
    | with_reducible refine State.setErr_only _ _ (k.err (by decide) (by decide)) ?_
    | with_reducible refine State.raise_only (k.sub (by decide)) ?_)

theorem State.admitDie_only {m : Nat} {r s : State} {x1 : Nat} {x2 : Nat} {x3 : Nat} {x4 : Nat} {x5 : List Target} (k : Covers 0x30600000000000000000000000000000000000000000000000000000000000000000000000000000040000000000000080000020000000000000700000c08000200 m) (h : Only m r s) : Only m r (State.admitDie s x1 x2 x3 x4 x5).2 := by
  unfold State.admitDie
  try dsimp only
  repeat' (first
    | (intro _; try dsimp only)
    | with_reducible assumption
    | with_reducible apply Only.foldl
    | with_reducible apply Only.ite
    | with_reducible refine State.queueAdd_only (k.sub (by decide)) ?_
    | with_reducible refine State.portAdd_only (k.sub (by decide)) ?_
    | with_reducible refine State.dropEgress_only (k.sub (by decide)) ?_
    | with_reducible refine State.noCell_only (k.sub (by decide)) ?_
    | with_reducible refine State.sendXoff_only (k.sub (by decide)) ?_
    | split)

theorem State.chooseTargets_only {m : Nat} {r s : State} {x1 : Nat} {x2 : Nat} {x3 : Nat} {x4 : Nat} {x5 : Option Nat} {x6 : List Nat} (k : Covers 0x400000000 m) (h : Only m r s) : Only m r (State.chooseTargets s x1 x2 x3 x4 x5 x6).2 := by
  unfold State.chooseTargets
  refine Only.foldlPair h ?_
  intro acc p h
  try dsimp only
  repeat' (first
    | with_reducible assumption
    | with_reducible refine State.portAdd_only (k.sub (by decide)) ?_
    | split)

theorem State.tailDrop_only {m : Nat} {r s : State} {x1 : Nat} {x2 : Nat} {x3 : Nat} {x4 : Nat} (k : Covers 0x100000000000000000000000000000000000200000000000000008005d8000000 m) (h : Only m r s) : Only m r (State.tailDrop s x1 x2 x3 x4) := by
  unfold State.tailDrop
  try dsimp only
  repeat' (first
    | with_reducible assumption
    | with_reducible refine State.badFrame_only (k.sub (by decide)) ?_
    | with_reducible refine State.portAdd_only (k.sub (by decide)) ?_)

theorem State.dropAccepted_only {m : Nat} {r s : State} {x1 : Nat} {x2 : Nat} {x3 : Nat} {x4 : Nat} {x5 : Nat} {x6 : FrameSt} (k : Covers 0x100000000000000000000000000000000000200000000000000008005d8000000 m) (h : Only m r s) : Only m r (State.dropAccepted s x1 x2 x3 x4 x5 x6) := by
  unfold State.dropAccepted
  try dsimp only
  repeat' (first
    | with_reducible assumption
    | with_reducible apply Only.ite
    | with_reducible refine State.returnCredit_only (k.sub (by decide)) ?_
    | with_reducible refine State.tailDrop_only (k.sub (by decide)) ?_
    | with_reducible refine State.setFrame_only (k.sub (by decide)) ?_)

theorem State.dropArriving_only {m : Nat} {r s : State} {x1 : Nat} {x2 : Nat} {x3 : Bool} {x4 : List Byte} {x5 : Option (Nat × Nat)} {x6 : Option (Nat × Nat)} (k : Covers 0x3460000000000000000000000000000309a000000000000000000000000000000000000000000000000000000c0000008000002000000023f800700000078000200 m) (h : Only m r s) : Only m r (State.dropArriving s x1 x2 x3 x4 x5 x6) := by
  unfold State.dropArriving
  try dsimp only
  repeat' (first
    | with_reducible assumption
    | with_reducible refine State.storeFrame_only (k.sub (by decide)) ?_
    | with_reducible refine State.flowAdd_only (k.sub (by decide)) ?_
    | with_reducible refine State.modPort_only (k.sub (by decide)) ?_)

theorem State.forward_only {m : Nat} {r s : State} {x1 : Nat} {x2 : Nat} {x3 : Nat} {x4 : Nat} {x5 : List Byte} {x6 : Hdr} {x7 : Option Sceca} {x8 : List Nat} {x9 : List Byte} {x10 : Option Nat} {x11 : Option (Nat × Nat)} {x12 : Option (Nat × Nat)} (k : Covers 0x3460000000000000000000000000000309a000000000000000000000000000000000000000000000040000000c0000008000002000000023f800700a01c78000200 m) (h : Only m r s) : Only m r (State.forward s x1 x2 x3 x4 x5 x6 x7 x8 x9 x10 x11 x12) := by
  unfold State.forward
  try dsimp only
  repeat' (first
    | with_reducible assumption
    | with_reducible apply Only.ite
    | with_reducible refine State.meterFrame_only_eq (k.sub (by decide)) (by assumption) ?_
    | with_reducible refine State.dropArriving_only (k.sub (by decide)) ?_
    | with_reducible refine State.chooseTargets_only (k.sub (by decide)) ?_
    | with_reducible refine State.admitDie_only (k.sub (by decide)) ?_
    | with_reducible refine State.storeFrame_only (k.sub (by decide)) ?_
    | with_reducible refine State.modPort_only (k.sub (by decide)) ?_
    | with_reducible refine State.admitFence_only (k.sub (by decide)) ?_
    | with_reducible refine State.portAdd_only (k.sub (by decide)) ?_
    | split)

theorem State.headerDrop_only {m : Nat} {r s : State} {x1 : Nat} {x2 : Hdr} {x3 : Option Sceca} {x4 : Bool} (k : Covers 0x400000000 m) (h : Only m r s) : ∀ t, State.headerDrop s x1 x2 x3 x4 = some t → Only m r t := by
  intro t e
  unfold State.headerDrop at e
  try dsimp only at e
  repeat' split at e
  all_goals first
    | contradiction
    | (injection e with e; subst e
       try dsimp only
       repeat' (first
         | with_reducible assumption
         | with_reducible refine State.portAdd_only (k.sub (by decide)) ?_))

theorem State.headerDrop_only_eq {m : Nat} {r s : State} {x1 : Nat} {x2 : Hdr} {x3 : Option Sceca} {x4 : Bool} (k : Covers 0x400000000 m) {t : State} (e : State.headerDrop s x1 x2 x3 x4 = some t) (h : Only m r s) : Only m r t :=
  State.headerDrop_only k h t e

theorem State.headData_only {m : Nat} {r s : State} {x1 : Nat} {x2 : Nat} {x3 : List Byte} (k : Covers 0x3460000000000000000000000000000309a000000000000000000000000000000000000020000000040000000c0000008000002000000023f800700a43c78000200 m) (h : Only m r s) : Only m r (State.headData s x1 x2 x3) := by
  unfold State.headData
  try dsimp only
  repeat' (first
    | with_reducible assumption
    | with_reducible apply Only.ite
    | with_reducible refine State.flowAdd_only (k.sub (by decide)) ?_
    | with_reducible refine State.dropArriving_only (k.sub (by decide)) ?_
    | with_reducible refine State.portAdd_only (k.sub (by decide)) ?_
    | with_reducible refine State.headerDrop_only_eq (k.sub (by decide)) (by assumption) ?_
    | with_reducible refine State.lookup_only_eq (k.sub (by decide)) (by assumption) ?_
    | with_reducible refine State.addWrap_only _ _ _ (k.words (by decide)) ?_
    | with_reducible refine State.forward_only (k.sub (by decide)) ?_
    | split)

theorem State.linkTail_only {m : Nat} {r s : State} {x1 : Nat} {x2 : Bool} (k : Covers 0x20000000000000000000408000000 m) (h : Only m r s) : Only m r (State.linkTail s x1 x2) := by
  unfold State.linkTail
  try dsimp only
  repeat' (first
    | with_reducible assumption
    | with_reducible apply Only.ite
    | with_reducible refine State.linkTake_only (k.sub (by decide)) ?_
    | with_reducible refine State.linkReject_only (k.sub (by decide)) ?_)

theorem State.reportNet_only {m : Nat} {r s : State} {x1 : Nat} {x2 : Bool} (k : Covers 0x20000000000000000000000000000000000000000000400000000 m) (h : Only m r s) : Only m r (State.reportNet s x1 x2) := by
  unfold State.reportNet
  try dsimp only
  repeat' (first
    | with_reducible assumption
    | with_reducible apply Only.ite
    | with_reducible refine State.portAdd_only (k.sub (by decide)) ?_
    | with_reducible refine State.setErr_only _ _ (k.err (by decide) (by decide)) ?_)

theorem State.tailGood_only {m : Nat} {r s : State} {x1 : Nat} {x2 : Nat} {x3 : Nat} {x4 : FrameSt} (k : Covers 0x10000008000020000000000000000000000020100000000000000808dd8000000 m) (h : Only m r s) : Only m r (State.tailGood s x1 x2 x3 x4) := by
  unfold State.tailGood
  try dsimp only
  repeat' (first
    | (intro _; try dsimp only)
    | with_reducible assumption
    | with_reducible apply Only.foldl
    | with_reducible apply Only.ite
    | with_reducible refine State.reportNet_only (k.sub (by decide)) ?_
    | with_reducible refine State.countRx_only (k.sub (by decide)) ?_
    | with_reducible refine State.settleAllPfc_only (k.sub (by decide)) ?_
    | with_reducible refine State.setFrame_only (k.sub (by decide)) ?_
    | with_reducible refine State.returnCredit_only (k.sub (by decide)) ?_
    | with_reducible refine State.queueLearn_only (k.sub (by decide)) ?_
    | with_reducible refine State.noteDemand_only (k.sub (by decide)) ?_
    | with_reducible refine State.settleFrame_only (k.sub (by decide)) ?_
    | with_reducible refine State.endCopy_only (k.sub (by decide)) ?_
    | with_reducible refine State.queueAdd_only (k.sub (by decide)) ?_
    | with_reducible refine State.portAdd_only (k.sub (by decide)) ?_
    | split)

theorem headerArrival_only {m : Nat} {r s : State} {x0 : Nat} {x1 : Option (BitVec 48)} {x2 : List Byte} (k : Covers 0x3460000000000000000000000000000309a000000000000000000000000000000000000020000000040000000c0000008000002000000023f800700a43c78000200 m) (h : Only m r s) : Only m r (headerArrival x0 x1 x2 s) := by
  unfold headerArrival
  try dsimp only
  repeat' (first
    | with_reducible assumption
    | with_reducible apply Only.ite
    | with_reducible refine State.flowAdd_only (k.sub (by decide)) ?_
    | with_reducible refine State.dropArriving_only (k.sub (by decide)) ?_
    | with_reducible refine State.headerDrop_only_eq (k.sub (by decide)) (by assumption) ?_
    | with_reducible refine State.headData_only (k.sub (by decide)) ?_
    | with_reducible refine State.linkDuplicate_only (k.sub (by decide)) ?_
    | with_reducible refine State.tagReject_only (k.sub (by decide)) ?_
    | split)

theorem execFrameHeaderArrival_only {m : Nat} {r s : State} {x0 : Fin 1024} {x1 : Option (BitVec 48)} {x2 : List Byte} (k : Covers 0x3460000000000000000000000000000309a000000000000000000000000000000000000020000000040000000c0000008000002000000023f800700a43c78000200 m) (h : Only m r s) : OnlyRes m r (execFrameHeaderArrival x0 x1 x2 s) := by
  unfold execFrameHeaderArrival
  try dsimp only
  repeat' (first
    | (intro _; try dsimp only)
    | with_reducible assumption
    | with_reducible refine whenLive_only (k.sub (by decide)) ?_ ?_
    | with_reducible refine headerArrival_only (k.sub (by decide)) ?_)

theorem tailArrival_only {m : Nat} {r s : State} {x0 : Nat} {x1 : List Byte} {x2 : Fcs} (k : Covers 0x3460000000000000000000000000000309a000000000000000000000000000000010000008000020000000000c0000008000002010000023f800700808dd8000200 m) (h : Only m r s) : Only m r (tailArrival x0 x1 x2 s) := by
  unfold tailArrival
  try dsimp only
  repeat' (first
    | with_reducible assumption
    | with_reducible apply Only.ite
    | with_reducible refine State.modPort_only (k.sub (by decide)) ?_
    | with_reducible refine State.flowAdd_only (k.sub (by decide)) ?_
    | with_reducible refine State.linkTail_only (k.sub (by decide)) ?_
    | with_reducible refine State.setFrame_only (k.sub (by decide)) ?_
    | with_reducible refine State.settleFrame_only (k.sub (by decide)) ?_
    | with_reducible refine State.tailDrop_only (k.sub (by decide)) ?_
    | with_reducible refine State.dropAccepted_only (k.sub (by decide)) ?_
    | with_reducible refine State.tailGood_only (k.sub (by decide)) ?_
    | split)

theorem execFrameTailArrival_only {m : Nat} {r s : State} {x0 : Fin 1024} {x1 : List Byte} {x2 : Fcs} (k : Covers 0x3460000000000000000000000000000309a000000000000000000000000000000010000008000020000000000c0000008000002010000023f800700808dd8000200 m) (h : Only m r s) : OnlyRes m r (execFrameTailArrival x0 x1 x2 s) := by
  unfold execFrameTailArrival
  try dsimp only
  repeat' (first
    | (intro _; try dsimp only)
    | with_reducible assumption
    | with_reducible refine whenLive_only (k.sub (by decide)) ?_ ?_
    | with_reducible refine tailArrival_only (k.sub (by decide)) ?_)

theorem execFenceRelease_only {m : Nat} {r s : State} {x0 : Fin 65536} (k : Covers 0x800010000000 m) (h : Only m r s) : OnlyRes m r (execFenceRelease x0 s) := by
  unfold execFenceRelease
  try dsimp only
  repeat' (first
    | (intro _; try dsimp only)
    | with_reducible assumption
    | with_reducible refine whenLive_only (k.sub (by decide)) ?_ ?_
    | with_reducible refine fenceRelease_only (k.sub (by decide)) ?_)

end Sys2Proof.Machine
end

