-- ==== Sys2Proof/Laws/OnlyOriginate.lean ====
section
/-! SUPPORT. Every operation of Machine/Originate.lean to Machine/Engine.lean changes only the parts that its mask names: from a state that did so, it answers one
that did so. -/

namespace Sys2Proof.Machine

/-! ### Machine/Originate.lean -/

theorem State.originRoute_only {m : Nat} {r s : State} {x1 : List Byte} {x2 : Hdr} {x3 : Option Sceca} (k : Covers 0x40000000000 m) (h : Only m r s) : Only m r (State.originRoute s x1 x2 x3).2 := by
  unfold State.originRoute
  try dsimp only
  repeat' (first
    | with_reducible assumption
    | with_reducible refine State.actOn_only (k.sub (by decide)) ?_
    | split)

theorem State.originRoute_only_eq {m : Nat} {r s : State} {x1 : List Byte} {x2 : Hdr} {x3 : Option Sceca} (k : Covers 0x40000000000 m) {a} {t : State} (e : State.originRoute s x1 x2 x3 = (a, t)) (h : Only m r s) : Only m r t := by
  have w : Only m r (State.originRoute s x1 x2 x3).2 := State.originRoute_only k h
  rw [e] at w
  exact w

theorem State.takeCharge_only {m : Nat} {r s : State} {x1 : Option Nat} {x2 : Nat} {x3 : Nat} (k : Covers 0x800000000000000000000 m) (h : Only m r s) : Only m r (State.takeCharge s x1 x2 x3).2 := by
  unfold State.takeCharge
  try dsimp only
  repeat' (first
    | with_reducible assumption
    | with_reducible refine State.modMslot_only (k.sub (by decide)) ?_
    | split)

theorem State.originTo_only {m : Nat} {r s : State} {x1 : Option Nat} {x2 : Nat} {x3 : Nat} {x4 : Nat} {x5 : Option Nat} {x6 : Bool} {x7 : Sceca} {x8 : List Byte} (k : Covers 0x40000000000000000000000000000800000000800478000000 m) (h : Only m r s) : Only m r (State.originTo s x1 x2 x3 x4 x5 x6 x7 x8) := by
  unfold State.originTo
  try dsimp only
  repeat' (first
    | with_reducible assumption
    | with_reducible apply Only.ite
    | with_reducible refine State.portAdd_only (k.sub (by decide)) ?_
    | with_reducible refine State.takeCharge_only (k.sub (by decide)) ?_
    | with_reducible refine State.setErr_only _ _ (k.err (by decide) (by decide)) ?_
    | with_reducible refine State.storeFrame_only (k.sub (by decide)) ?_
    | with_reducible refine State.admitFence_only (k.sub (by decide)) ?_
    | split)

theorem State.originate_only {m : Nat} {r s : State} {x1 : Option Nat} {x2 : Bool} {x3 : List Byte} {x4 : Sceca} {x5 : List Byte} (k : Covers 0x20000000040000000000000000000000000000800000000840478000000 m) (h : Only m r s) : Only m r (State.originate s x1 x2 x3 x4 x5) := by
  unfold State.originate
  try dsimp only
  repeat' (first
    | with_reducible assumption
    | with_reducible refine State.originRoute_only_eq (k.sub (by decide)) (by assumption) ?_
    | with_reducible refine State.originTo_only (k.sub (by decide)) ?_
    | with_reducible refine State.addWrap_only _ _ _ (k.words (by decide)) ?_
    | split)

theorem State.hopAck_only {m : Nat} {r s : State} {x1 : Bool} {x2 : Nat} {x3 : Nat} {x4 : Nat} {x5 : Nat} {x6 : Nat} {x7 : List Byte} {x8 : Status} (k : Covers 0x20000000040000000000000000000000000000800000000840478000000 m) (h : Only m r s) : Only m r (State.hopAck s x1 x2 x3 x4 x5 x6 x7 x8) := by
  unfold State.hopAck
  try dsimp only
  repeat' (first
    | with_reducible assumption
    | with_reducible refine State.originate_only (k.sub (by decide)) ?_)

theorem State.groupAck_only {m : Nat} {r s : State} {x1 : Nat} {x2 : Nat} {x3 : Nat} {x4 : List Byte} {x5 : Status} (k : Covers 0x20000000040000000000000000000000000000800000000840478000000 m) (h : Only m r s) : Only m r (State.groupAck s x1 x2 x3 x4 x5) := by
  unfold State.groupAck
  try dsimp only
  repeat' (first
    | with_reducible assumption
    | with_reducible refine State.hopAck_only (k.sub (by decide)) ?_
    | split)

theorem State.sendRecord_only {m : Nat} {r s : State} {x1 : Nat} {x2 : Nat} {x3 : Nat} {x4 : List Byte} (k : Covers 0x20000000040000000000000000000000000000800000000840478000000 m) (h : Only m r s) : Only m r (State.sendRecord s x1 x2 x3 x4) := by
  unfold State.sendRecord
  try dsimp only
  repeat' (first
    | with_reducible assumption
    | with_reducible refine State.originate_only (k.sub (by decide)) ?_
    | split)

theorem State.askReplay_only {m : Nat} {r s : State} {x1 : Nat} {x2 : Nat} {x3 : Nat} {x4 : Nat} (k : Covers 0x20000000040000000000000000000000000020800000000840478000000 m) (h : Only m r s) : Only m r (State.askReplay s x1 x2 x3 x4) := by
  unfold State.askReplay
  try dsimp only
  repeat' (first
    | with_reducible assumption
    | with_reducible refine State.modOp_only (k.sub (by decide)) ?_
    | with_reducible refine State.originate_only (k.sub (by decide)) ?_
    | split)

theorem State.sendResult_only {m : Nat} {r s : State} {x1 : Option Nat} {x2 : Nat} {x3 : OpSt} {x4 : Nat} {x5 : ResultAt} {x6 : Nat} {x7 : Nat} {x8 : List Byte} (k : Covers 0x20000000040000000000000000000000000000800000000840478000000 m) (h : Only m r s) : Only m r (State.sendResult s x1 x2 x3 x4 x5 x6 x7 x8) := by
  unfold State.sendResult
  try dsimp only
  repeat' (first
    | with_reducible assumption
    | with_reducible refine State.originate_only (k.sub (by decide)) ?_
    | split)

/-! ### Machine/Contexts.lean -/

theorem State.showTile_only {m : Nat} {r s : State} {x1 : Nat} (k : Covers 0x4000000000000000000000000000000000000000000000000000000000000000000000000 m) (h : Only m r s) : Only m r (State.showTile s x1) := by
  unfold State.showTile
  try dsimp only
  repeat' (first
    | with_reducible assumption
    | (with_reducible refine State.wrs_only _ (by simp only [List.forall_mem_cons, List.not_mem_nil, false_imp_iff, implies_true, and_true]; (repeat' apply And.intro) <;> exact k.words (by decide)) ?_))

theorem State.showSlot_only {m : Nat} {r s : State} {x1 : Nat} (k : Covers 0x40000000004000000000000000000000000000000000000000000000000000000000000000000000000 m) (h : Only m r s) : Only m r (State.showSlot s x1) := by
  unfold State.showSlot
  try dsimp only
  repeat' (first
    | (intro _; try dsimp only)
    | with_reducible assumption
    | with_reducible apply Only.foldl
    | with_reducible refine State.showTile_only (k.sub (by decide)) ?_
    | with_reducible refine State.wr_only _ _ _ (k.words (by decide)) ?_)

theorem State.releaseLeg_only {m : Nat} {r s : State} {x1 : Nat} {x2 : Nat} (k : Covers 0x200000040000000004000000000000000000000000000000000000000000000000020c00000000000000000000 m) (h : Only m r s) : Only m r (State.releaseLeg s x1 x2) := by
  unfold State.releaseLeg
  try dsimp only
  repeat' (first
    | (intro _; try dsimp only)
    | with_reducible assumption
    | with_reducible apply Only.foldl
    | with_reducible apply Only.ite
    | with_reducible refine State.modTile_only (k.sub (by decide)) ?_
    | with_reducible refine State.showSlot_only (k.sub (by decide)) ?_
    | with_reducible refine State.modMslot_only (k.sub (by decide)) ?_
    | with_reducible refine State.setWord_at_only (k.words (by decide)) ?_
    | with_reducible refine State.modLeg_only (k.sub (by decide)) ?_
    | split)

theorem State.showGroup_only {m : Nat} {r s : State} {x1 : Nat} (k : Covers 0x300000000000000000000000000000000000000000000000000000000000000000000000000000000000000000 m) (h : Only m r s) : Only m r (State.showGroup s x1) := by
  unfold State.showGroup
  try dsimp only
  repeat' (first
    | (intro _; try dsimp only)
    | with_reducible assumption
    | with_reducible apply Only.foldl
    | with_reducible refine State.setWord_at_only (k.words (by decide)) ?_
    | split)

theorem State.releaseContexts_only {m : Nat} {r s : State} {x1 : Nat} (k : Covers 0x300000040000000004000000000000000000000000000000000000000000000000020c00000000000000000000 m) (h : Only m r s) : Only m r (State.releaseContexts s x1) := by
  unfold State.releaseContexts
  try dsimp only
  repeat' (first
    | (intro _; try dsimp only)
    | with_reducible assumption
    | with_reducible apply Only.foldl
    | with_reducible refine State.releaseLeg_only (k.sub (by decide)) ?_
    | with_reducible refine State.showGroup_only (k.sub (by decide)) ?_
    | with_reducible refine State.modGroup_only (k.sub (by decide)) ?_
    | split)

theorem State.settleRelease_only {m : Nat} {r s : State} {x1 : Nat} (k : Covers 0x300000040000000004000000000000000000000000000000000000090000020000020c00000000000000000203 m) (h : Only m r s) : Only m r (State.settleRelease s x1) := by
  unfold State.settleRelease
  try dsimp only
  repeat' (first
    | (intro _; try dsimp only)
    | with_reducible assumption
    | with_reducible apply Only.foldl
    | with_reducible apply Only.ite
    | with_reducible refine State.complete_only (k.sub (by decide)) ?_
    | with_reducible refine State.releaseContexts_only (k.sub (by decide)) ?_
    | split)

theorem State.endLaunches_only {m : Nat} {r s : State} {x1 : Nat} {x2 : Nat} {x3 : Status} {x4 : Nat} (k : Covers 0x90000020000000000000000000000000203 m) (h : Only m r s) : Only m r (State.endLaunches s x1 x2 x3 x4) := by
  unfold State.endLaunches
  try dsimp only
  repeat' (first
    | (intro _; try dsimp only)
    | with_reducible assumption
    | with_reducible apply Only.foldl
    | with_reducible refine State.complete_only (k.sub (by decide)) ?_)

theorem State.tellHost_only {m : Nat} {r s : State} {x1 : Nat} {x2 : OpSt} {x3 : List Byte} (k : Covers 0x90000020000000000000000000000000203 m) (h : Only m r s) : Only m r (State.tellHost s x1 x2 x3) := by
  unfold State.tellHost
  try dsimp only
  repeat' (first
    | with_reducible assumption
    | with_reducible apply Only.ite
    | with_reducible refine State.descWrite_only (k.sub (by decide)) ?_
    | with_reducible refine State.endLaunches_only (k.sub (by decide)) ?_
    | split)

theorem State.askAll_only {m : Nat} {r s : State} {x1 : Nat} {x2 : Nat} (k : Covers 0x20000000040000000000000000000000000020800000000840478000000 m) (h : Only m r s) : Only m r (State.askAll s x1 x2) := by
  unfold State.askAll
  try dsimp only
  repeat' (first
    | (intro _; try dsimp only)
    | with_reducible assumption
    | with_reducible apply Only.foldl
    | with_reducible refine State.askReplay_only (k.sub (by decide)) ?_)

theorem State.discardEarly_only {m : Nat} {r s : State} {x1 : Nat} {x2 : Nat} {x3 : Nat} (k : Covers 0x20000000000000000000000 m) (h : Only m r s) : Only m r (State.discardEarly s x1 x2 x3) := by
  unfold State.discardEarly
  try dsimp only
  repeat' (first
    | with_reducible assumption
    | with_reducible refine State.modLeg_only (k.sub (by decide)) ?_)

theorem State.freeHalf_only {m : Nat} {r s : State} {x1 : Nat} {x2 : Nat} {x3 : Nat} (k : Covers 0x400000000000000000000 m) (h : Only m r s) : Only m r (State.freeHalf s x1 x2 x3) := by
  unfold State.freeHalf
  try dsimp only
  repeat' (first
    | (intro _; try dsimp only)
    | with_reducible assumption
    | with_reducible apply Only.foldl
    | with_reducible refine State.freeFrame_only (k.sub (by decide)) ?_)

theorem State.discardFrames_only {m : Nat} {r s : State} {x1 : Nat} {x2 : Nat} {x3 : Nat} (k : Covers 0x20440000000000000000000 m) (h : Only m r s) : Only m r (State.discardFrames s x1 x2 x3) := by
  unfold State.discardFrames
  try dsimp only
  repeat' (first
    | with_reducible assumption
    | with_reducible refine State.modLeg_only (k.sub (by decide)) ?_
    | with_reducible refine State.clearHalf_only (k.sub (by decide)) ?_
    | with_reducible refine State.freeHalf_only (k.sub (by decide)) ?_)

theorem State.queueRerun_only {m : Nat} {r s : State} {x1 : Nat} {x2 : Nat} {x3 : Nat} (k : Covers 0x20440000000000000000000 m) (h : Only m r s) : Only m r (State.queueRerun s x1 x2 x3) := by
  unfold State.queueRerun
  try dsimp only
  repeat' (first
    | (intro _; try dsimp only)
    | with_reducible assumption
    | with_reducible apply Only.foldl
    | with_reducible apply Only.ite
    | with_reducible refine State.modLeg_only (k.sub (by decide)) ?_
    | with_reducible refine State.discardEarly_only (k.sub (by decide)) ?_
    | with_reducible refine State.discardFrames_only (k.sub (by decide)) ?_
    | with_reducible refine State.settleHalf_only (k.sub (by decide)) ?_)

theorem State.startRerun_only {m : Nat} {r s : State} {x1 : Nat} {x2 : Nat} (k : Covers 0x20000000040000000000000000000000000020c40000000840478000000 m) (h : Only m r s) : Only m r (State.startRerun s x1 x2) := by
  unfold State.startRerun
  try dsimp only
  repeat' (first
    | (intro _; try dsimp only)
    | with_reducible assumption
    | with_reducible apply Only.foldl
    | with_reducible refine State.modOp_only (k.sub (by decide)) ?_
    | with_reducible refine State.askAll_only (k.sub (by decide)) ?_
    | with_reducible refine State.queueRerun_only (k.sub (by decide)) ?_)

theorem State.produce_only {m : Nat} {r s : State} {x1 : Nat} {x2 : Nat} (k : Covers 0x300000040000000004000000000000020000000040000000000000090000020000020c40000000840478000203 m) (h : Only m r s) : Only m r (State.produce s x1 x2) := by
  unfold State.produce
  try dsimp only
  repeat' (first
    | (intro _; try dsimp only)
    | with_reducible assumption
    | with_reducible apply Only.foldl
    | with_reducible apply Only.ite
    | with_reducible refine State.modOp_only (k.sub (by decide)) ?_
    | with_reducible refine State.tellHost_only (k.sub (by decide)) ?_
    | with_reducible refine State.sendRecord_only (k.sub (by decide)) ?_
    | with_reducible refine State.settleRelease_only (k.sub (by decide)) ?_
    | with_reducible refine State.startRerun_only (k.sub (by decide)) ?_
    | split)

theorem State.legDone_only {m : Nat} {r s : State} {x1 : Nat} {x2 : Nat} {x3 : Nat} (k : Covers 0x300000040000000004000000000000020000000040000000000000090000020000020c40000000840478000203 m) (h : Only m r s) : Only m r (State.legDone s x1 x2 x3) := by
  unfold State.legDone
  try dsimp only
  repeat' (first
    | with_reducible assumption
    | with_reducible apply Only.ite
    | with_reducible refine State.modOp_only (k.sub (by decide)) ?_
    | with_reducible refine State.produce_only (k.sub (by decide)) ?_
    | split)

theorem State.advanceLeg_only {m : Nat} {r s : State} {x1 : Nat} {x2 : Nat} {x3 : Nat} (k : Covers 0x300000040000000004000000000000020000000040000000000000090000020000020c40000000840478000203 m) (h : Only m r s) : Only m r (State.advanceLeg s x1 x2 x3) := by
  induction x3 generalizing s with
  | zero => rw [State.advanceLeg]; exact h
  | succ n ih =>
    rw [State.advanceLeg]
    try dsimp only
    repeat' (first
      | with_reducible assumption
      | with_reducible apply ih
      | with_reducible apply Only.ite
      | with_reducible refine State.modOp_only (k.sub (by decide)) ?_
      | with_reducible refine State.modLeg_only (k.sub (by decide)) ?_
      | with_reducible refine State.legDone_only (k.sub (by decide)) ?_
      | split)

theorem State.advance_only {m : Nat} {r s : State} {x1 : Nat} (k : Covers 0x300000040000000004000000000000020000000040000000000000090000020000020c40000000840478000203 m) (h : Only m r s) : Only m r (State.advance s x1) := by
  unfold State.advance
  try dsimp only
  repeat' (first
    | (intro _; try dsimp only)
    | with_reducible assumption
    | with_reducible apply Only.foldl
    | with_reducible refine State.settleHalf_only (k.sub (by decide)) ?_
    | with_reducible refine State.advanceLeg_only (k.sub (by decide)) ?_
    | with_reducible refine State.showGroup_only (k.sub (by decide)) ?_
    | split)

theorem State.acknowledge_only {m : Nat} {r s : State} {x1 : Nat} {x2 : Nat} (k : Covers 0x300000040000000004000000000000020000000040000000000000090000020000020c40000000840478000203 m) (h : Only m r s) : Only m r (State.acknowledge s x1 x2) := by
  unfold State.acknowledge
  try dsimp only
  repeat' (first
    | with_reducible assumption
    | with_reducible apply Only.ite
    | with_reducible refine State.modOp_only (k.sub (by decide)) ?_
    | with_reducible refine State.modArmed_only (k.sub (by decide)) ?_
    | with_reducible refine State.groupAck_only (k.sub (by decide)) ?_
    | with_reducible refine State.advance_only (k.sub (by decide)) ?_)

theorem State.awaitReplay_only {m : Nat} {r s : State} {x1 : Nat} {x2 : Nat} {x3 : Nat} {x4 : Nat} (k : Covers 0x20000000000000000000000 m) (h : Only m r s) : Only m r (State.awaitReplay s x1 x2 x3 x4) := by
  unfold State.awaitReplay
  try dsimp only
  repeat' (first
    | with_reducible assumption
    | with_reducible refine State.modOp_only (k.sub (by decide)) ?_)

theorem State.rerunLeaf_only {m : Nat} {r s : State} {x1 : Nat} {x2 : Nat} {x3 : Nat} (k : Covers 0x20000000040000000000000000000000000020c40000000840478000000 m) (h : Only m r s) : Only m r (State.rerunLeaf s x1 x2 x3) := by
  unfold State.rerunLeaf
  try dsimp only
  repeat' (first
    | (intro _; try dsimp only)
    | with_reducible assumption
    | with_reducible apply Only.foldl
    | with_reducible apply Only.ite
    | with_reducible refine State.modOp_only (k.sub (by decide)) ?_
    | with_reducible refine State.queueRerun_only (k.sub (by decide)) ?_
    | with_reducible refine State.askReplay_only (k.sub (by decide)) ?_
    | split)

theorem State.askSource_only {m : Nat} {r s : State} {x1 : Nat} {x2 : Nat} {x3 : Nat} {x4 : Nat} {x5 : Nat} (k : Covers 0x20000000040000000000000000000000000020c40000000840478000000 m) (h : Only m r s) : Only m r (State.askSource s x1 x2 x3 x4 x5) := by
  unfold State.askSource
  try dsimp only
  repeat' (first
    | with_reducible assumption
    | with_reducible refine State.askReplay_only (k.sub (by decide)) ?_
    | with_reducible refine State.awaitReplay_only (k.sub (by decide)) ?_
    | with_reducible refine State.rerunLeaf_only (k.sub (by decide)) ?_
    | split)

theorem State.askOwed_only {m : Nat} {r s : State} {x1 : Nat} {x2 : Nat} {x3 : Nat} (k : Covers 0x20000000040000000000000000000000000020c40000000840478000000 m) (h : Only m r s) : Only m r (State.askOwed s x1 x2 x3) := by
  unfold State.askOwed
  try dsimp only
  repeat' (first
    | (intro _; try dsimp only)
    | with_reducible assumption
    | with_reducible apply Only.foldl
    | with_reducible apply Only.ite
    | with_reducible refine State.modLeg_only (k.sub (by decide)) ?_
    | with_reducible refine State.askSource_only (k.sub (by decide)) ?_
    | split)

theorem State.loseEarly_only {m : Nat} {r s : State} {x1 : Nat} {x2 : Nat} {x3 : Nat} {x4 : Nat} {x5 : Landed} (k : Covers 0x30600000000000000000000000000000018000000000000000000000000000000000000000000000000000000000000080000020000020000000700000000000200 m) (h : Only m r s) : Only m r (State.loseEarly s x1 x2 x3 x4 x5) := by
  unfold State.loseEarly
  try dsimp only
  repeat' (first
    | with_reducible assumption
    | with_reducible refine State.modLeg_only (k.sub (by decide)) ?_
    | with_reducible refine State.freeEarly_only (k.sub (by decide)) ?_
    | with_reducible refine State.uncorrectable_only (k.sub (by decide)) ?_)

theorem State.moveEarly_only {m : Nat} {r s : State} {x1 : Nat} {x2 : Nat} {x3 : Nat} {x4 : Nat} {x5 : Landed} (k : Covers 0x30600000000000000000000000000000018000000000000000000000000000000000000000000000000000000000000090000020000020440000700000000000203 m) (h : Only m r s) : Only m r (State.moveEarly s x1 x2 x3 x4 x5) := by
  unfold State.moveEarly
  try dsimp only
  repeat' (first
    | with_reducible assumption
    | with_reducible apply Only.ite
    | with_reducible refine State.loseEarly_only (k.sub (by decide)) ?_
    | with_reducible refine State.fillFrame_only (k.sub (by decide)) ?_
    | with_reducible refine State.freeEarly_only (k.sub (by decide)) ?_
    | with_reducible refine State.countFrame_only (k.sub (by decide)) ?_
    | split)

theorem State.moveAllEarly_only {m : Nat} {r s : State} {x1 : Nat} {x2 : Nat} {x3 : Nat} (k : Covers 0x30600000000000000000000000000000018000000000000000000000000000000000000000000000000000000000000090000020000020440000700000000000203 m) (h : Only m r s) : Only m r (State.moveAllEarly s x1 x2 x3) := by
  unfold State.moveAllEarly
  try dsimp only
  repeat' (first
    | (intro _; try dsimp only)
    | with_reducible assumption
    | with_reducible apply Only.foldl
    | with_reducible refine State.moveEarly_only (k.sub (by decide)) ?_
    | split)

theorem State.releaseHalf_only {m : Nat} {r s : State} {x1 : Nat} {x2 : Nat} {x3 : Nat} (k : Covers 0x30600000000000000000000000000000018000000000000000000000000000000000000020000000040000000000000090000020000020c40000700840478000203 m) (h : Only m r s) : Only m r (State.releaseHalf s x1 x2 x3) := by
  unfold State.releaseHalf
  try dsimp only
  repeat' (first
    | with_reducible assumption
    | with_reducible refine State.askOwed_only (k.sub (by decide)) ?_
    | with_reducible refine State.moveAllEarly_only (k.sub (by decide)) ?_
    | with_reducible refine State.settleHalf_only (k.sub (by decide)) ?_
    | with_reducible refine State.clearHalf_only (k.sub (by decide)) ?_
    | with_reducible refine State.freeHalf_only (k.sub (by decide)) ?_)

theorem execResultAck_only {m : Nat} {r s : State} {x0 : Fin 4096} (k : Covers 0x300000040000000004000000000000020000000040000000000000090000020000020c40000000840478000203 m) (h : Only m r s) : OnlyRes m r (execResultAck x0 s) := by
  unfold execResultAck
  try dsimp only
  repeat' (first
    | (intro _; try dsimp only)
    | with_reducible assumption
    | with_reducible apply Only.ite
    | with_reducible refine runOpcode_only (k.sub (by decide)) ?_ ?_
    | with_reducible refine State.complete_only (k.sub (by decide)) ?_
    | with_reducible refine State.acknowledge_only (k.sub (by decide)) ?_
    | split)

/-! ### Machine/Steer.lean -/

theorem State.holdBack_only {m : Nat} {r s : State} {x1 : Nat} {x2 : Nat} {x3 : Hdr} {x4 : List Byte} {x5 : WaitCause} (k : Covers 0x100000000000000410000000 m) (h : Only m r s) : Only m r (State.holdBack s x1 x2 x3 x4 x5).2 := by
  unfold State.holdBack
  try dsimp only
  repeat' (first
    | with_reducible assumption
    | fail_if_no_progress (with_reducible refine Only.clTo (by apply CollectiveStOnly.of <;> first | exact .inl (k.bit (by decide)) | exact .inr rfl) ?_)
    | with_reducible refine State.portAdd_only (k.sub (by decide)) ?_
    | with_reducible refine State.modFrame_only (k.sub (by decide)) ?_
    | split)

theorem State.landIn_only {m : Nat} {r s : State} {x1 : Nat} {x2 : Nat} {x3 : Nat} {x4 : Nat} {x5 : Nat} {x6 : Bool} {x7 : Nat} {x8 : Nat} {x9 : List Byte} (k : Covers 0x3460000000000000000000000000000209a000000000000000000000000000000000000000000000000000000c0000008000002000002043f800700000000000200 m) (h : Only m r s) : Only m r (State.landIn s x1 x2 x3 x4 x5 x6 x7 x8 x9).2 := by
  unfold State.landIn
  try dsimp only
  repeat' (first
    | with_reducible assumption
    | with_reducible refine State.fillEarly_only (k.sub (by decide)) ?_
    | with_reducible refine State.fillFrame_only (k.sub (by decide)) ?_
    | split)

theorem State.landIn_only_eq {m : Nat} {r s : State} {x1 : Nat} {x2 : Nat} {x3 : Nat} {x4 : Nat} {x5 : Nat} {x6 : Bool} {x7 : Nat} {x8 : Nat} {x9 : List Byte} (k : Covers 0x3460000000000000000000000000000209a000000000000000000000000000000000000000000000000000000c0000008000002000002043f800700000000000200 m) {a} {t : State} (e : State.landIn s x1 x2 x3 x4 x5 x6 x7 x8 x9 = (a, t)) (h : Only m r s) : Only m r t := by
  have w : Only m r (State.landIn s x1 x2 x3 x4 x5 x6 x7 x8 x9).2 := State.landIn_only k h
  rw [e] at w
  exact w

theorem State.steerArmed_only {m : Nat} {r s : State} {x1 : Nat} {x2 : Nat} {x3 : Nat} {x4 : Armed} {x5 : List Byte} {x6 : Hdr} {x7 : Sceca} (k : Covers 0x3460000000000000000000000000000209a000000060000000000000000000000000000000000000000000000c0000008000002000012043f800700000410000200 m) (h : Only m r s) : Only m r (State.steerArmed s x1 x2 x3 x4 x5 x6 x7).2 := by
  unfold State.steerArmed
  extract_lets r0 q
  clear_value q
  split
  · (try dsimp only); exact State.clDrop_only (k.sub (by decide)) h
  split
  · (try dsimp only); exact State.clDrop_only (k.sub (by decide)) h
  split
  · split
    · (try dsimp only); exact State.clDrop_only (k.sub (by decide)) h
    · exact h
  split
  split
  · (try dsimp only); exact State.clDrop_only (k.sub (by decide)) h
  split
  · (try dsimp only); exact State.holdBack_only (k.sub (by decide)) h
  split
  · (try dsimp only); exact State.landIn_only (k.sub (by decide)) h
  · (try dsimp only); exact State.landIn_only (k.sub (by decide)) h
  · (try dsimp only); exact State.holdBack_only (k.sub (by decide)) h
  · (try dsimp only); exact State.clDrop_only (k.sub (by decide)) h

theorem State.steer_only {m : Nat} {r s : State} {x1 : Nat} {x2 : Nat} {x3 : List Byte} {x4 : Hdr} {x5 : Sceca} (k : Covers 0x3460000000000000000000000000000209a000000060000000000000000000000000000020000000040000000c00000080000020000120c3f800700840478000200 m) (h : Only m r s) : Only m r (State.steer s x1 x2 x3 x4 x5).2 := by
  unfold State.steer
  try dsimp only
  repeat' (first
    | with_reducible assumption
    | with_reducible apply Only.ite
    | with_reducible refine State.clDrop_only (k.sub (by decide)) ?_
    | with_reducible refine State.hopAck_only (k.sub (by decide)) ?_
    | with_reducible refine State.holdBack_only (k.sub (by decide)) ?_
    | with_reducible refine State.steerArmed_only (k.sub (by decide)) ?_
    | split)

theorem State.steer_only_eq {m : Nat} {r s : State} {x1 : Nat} {x2 : Nat} {x3 : List Byte} {x4 : Hdr} {x5 : Sceca} (k : Covers 0x3460000000000000000000000000000209a000000060000000000000000000000000000020000000040000000c00000080000020000120c3f800700840478000200 m) {a} {t : State} (e : State.steer s x1 x2 x3 x4 x5 = (a, t)) (h : Only m r s) : Only m r t := by
  have w : Only m r (State.steer s x1 x2 x3 x4 x5).2 := State.steer_only k h
  rw [e] at w
  exact w

theorem State.landingFails_only {m : Nat} {r s : State} {x1 : Checked} {x2 : Nat} {x3 : Nat} {x4 : Sceca} (k : Covers 0x30600000000000000000000000000000000000000000000000000000018000000000000020000000040000000000000080000020000020800000700840478000200 m) (h : Only m r s) : Only m r (State.landingFails s x1 x2 x3 x4) := by
  unfold State.landingFails
  try dsimp only
  repeat' (first
    | with_reducible assumption
    | with_reducible apply Only.ite
    | with_reducible refine State.setErr_only _ _ (k.err (by decide) (by decide)) ?_
    | with_reducible refine State.portAdd_only (k.sub (by decide)) ?_
    | with_reducible refine State.raise_only (k.sub (by decide)) ?_
    | with_reducible refine State.addWrap_only _ _ _ (k.words (by decide)) ?_
    | with_reducible refine State.askReplay_only (k.sub (by decide)) ?_
    | with_reducible refine State.awaitReplay_only (k.sub (by decide)) ?_
    | split)

theorem State.settleBarrier_only {m : Nat} {r s : State} {x1 : Nat} {x2 : Nat} (k : Covers 0x300000040000000004000000000000020000000040000000000000090000020000020c40000000840478000203 m) (h : Only m r s) : Only m r (State.settleBarrier s x1 x2) := by
  induction x2 generalizing s with
  | zero => rw [State.settleBarrier]; exact h
  | succ n ih =>
    rw [State.settleBarrier]
    try dsimp only
    repeat' (first
      | with_reducible assumption
      | with_reducible apply ih
      | with_reducible apply Only.ite
      | with_reducible refine State.modOp_only (k.sub (by decide)) ?_
      | with_reducible refine State.modLeg_only (k.sub (by decide)) ?_
      | with_reducible refine State.produce_only (k.sub (by decide)) ?_
      | with_reducible refine State.setMooring_only (k.sub (by decide)) ?_
      | with_reducible refine State.updateMooring_only (k.sub (by decide)) ?_
      | split)

theorem State.arrive_only {m : Nat} {r s : State} {x1 : Nat} {x2 : Nat} {x3 : Sceca} (k : Covers 0x3060000000000000000000000000000000000000036000004000000001c000000000000020000000040000000000000090000020000020c40000700840478000203 m) (h : Only m r s) : Only m r (State.arrive s x1 x2 x3) := by
  unfold State.arrive
  try dsimp only
  repeat' (first
    | with_reducible assumption
    | with_reducible apply Only.ite
    | with_reducible refine State.clDrop_only (k.sub (by decide)) ?_
    | with_reducible refine State.landingFails_only (k.sub (by decide)) ?_
    | with_reducible refine State.showGroup_only (k.sub (by decide)) ?_
    | with_reducible refine State.settleBarrier_only (k.sub (by decide)) ?_
    | with_reducible refine State.modOp_only (k.sub (by decide)) ?_
    | with_reducible refine State.advance_only (k.sub (by decide)) ?_
    | split)

theorem State.keepWaiting_only {m : Nat} {r s : State} {x1 : Nat} (k : Covers 0x100000000000000010000000 m) (h : Only m r s) : Only m r (State.keepWaiting s x1) := by
  unfold State.keepWaiting
  try dsimp only
  repeat' (first
    | with_reducible assumption
    | fail_if_no_progress (with_reducible refine Only.clTo (by apply CollectiveStOnly.of <;> first | exact .inl (k.bit (by decide)) | exact .inr rfl) ?_)
    | with_reducible refine State.modFrame_only (k.sub (by decide)) ?_)

theorem State.finish_only {m : Nat} {r s : State} {x1 : Nat} {x2 : List Byte} {x3 : Place} {x4 : Nat} (k : Covers 0x3060000000000000000000000000000000000000036000004000000001c0000000100000200000000400000000000000900000200001a0c40000700840478000203 m) (h : Only m r s) : Only m r (State.finish s x1 x2 x3 x4) := by
  unfold State.finish
  try dsimp only
  repeat' (first
    | with_reducible assumption
    | with_reducible apply Only.ite
    | with_reducible refine State.dropFrame_only (k.sub (by decide)) ?_
    | with_reducible refine State.dropCopies_only (k.sub (by decide)) ?_
    | with_reducible refine State.countFrame_only (k.sub (by decide)) ?_
    | with_reducible refine State.wakeCopy_only (k.sub (by decide)) ?_
    | with_reducible refine State.landingFails_only (k.sub (by decide)) ?_
    | with_reducible refine State.freeFrame_only (k.sub (by decide)) ?_
    | with_reducible refine State.modLeg_only (k.sub (by decide)) ?_
    | with_reducible refine State.freeEarly_only (k.sub (by decide)) ?_
    | with_reducible refine State.arrive_only (k.sub (by decide)) ?_
    | with_reducible refine State.unwait_only (k.sub (by decide)) ?_
    | with_reducible refine State.keepWaiting_only (k.sub (by decide)) ?_
    | split)

theorem State.noteCe_only {m : Nat} {r s : State} {x1 : Nat} {x2 : Nat} {x3 : Hdr} (k : Covers 0x20000000000000000000000 m) (h : Only m r s) : Only m r (State.noteCe s x1 x2 x3) := by
  unfold State.noteCe
  try dsimp only
  repeat' (first
    | with_reducible assumption
    | with_reducible apply Only.ite
    | with_reducible refine State.modOp_only (k.sub (by decide)) ?_
    | split)

theorem State.noteCeWhole_only {m : Nat} {r s : State} {x1 : List Byte} (k : Covers 0x20000000000000000000000 m) (h : Only m r s) : Only m r (State.noteCeWhole s x1) := by
  unfold State.noteCeWhole
  try dsimp only
  repeat' (first
    | with_reducible assumption
    | with_reducible apply Only.ite
    | with_reducible refine State.noteCe_only (k.sub (by decide)) ?_
    | split)

theorem State.resteer_only {m : Nat} {r s : State} {x1 : Waiting} (k : Covers 0x3460000000000000000000000000000209a00000036000004000000001c000000010000020000000040000000c000000900000200001a0c7f800700840478000203 m) (h : Only m r s) : Only m r (State.resteer s x1) := by
  unfold State.resteer
  try dsimp only
  repeat' (first
    | with_reducible assumption
    | fail_if_no_progress (with_reducible refine Only.clTo (by apply CollectiveStOnly.of <;> first | exact .inl (k.bit (by decide)) | exact .inr rfl) ?_)
    | with_reducible apply Only.ite
    | with_reducible refine State.unwait_only (k.sub (by decide)) ?_
    | with_reducible refine State.steer_only_eq (k.sub (by decide)) (by assumption) ?_
    | with_reducible refine State.finish_only (k.sub (by decide)) ?_
    | with_reducible refine State.noteCeWhole_only (k.sub (by decide)) ?_
    | with_reducible refine State.setInflight_only (k.sub (by decide)) ?_
    | with_reducible refine State.freeCells_only (k.sub (by decide)) ?_
    | split)

theorem State.resteerGroup_only {m : Nat} {r s : State} {x1 : Nat} (k : Covers 0x3460000000000000000000000000000209a00000036000004000000001c000000010000020000000040000000c000000900000200001a0c7f800700840478000203 m) (h : Only m r s) : Only m r (State.resteerGroup s x1) := by
  unfold State.resteerGroup
  try dsimp only
  repeat' (first
    | (intro _; try dsimp only)
    | with_reducible assumption
    | with_reducible apply Only.foldl
    | with_reducible refine State.resteer_only (k.sub (by decide)) ?_)

theorem State.refusedAtHead_only {m : Nat} {r s : State} {x1 : Nat} {x2 : Nat} {x3 : Sceca} (k : Covers 0x20000000000000000000000000000000000000000000400000000 m) (h : Only m r s) : ∀ t, State.refusedAtHead s x1 x2 x3 = some t → Only m r t := by
  intro t e
  unfold State.refusedAtHead at e
  try dsimp only at e
  repeat' split at e
  all_goals try (simp only [Option.some.injEq, reduceCtorEq] at e)
  all_goals first | contradiction | skip
  all_goals try subst e
  all_goals try dsimp only
  all_goals (
    repeat' (first
      | with_reducible assumption
      | with_reducible refine State.portAdd_only (k.sub (by decide)) ?_
      | with_reducible refine State.setErr_only _ _ (k.err (by decide) (by decide)) ?_))

theorem State.refusedAtHead_only_eq {m : Nat} {r s : State} {x1 : Nat} {x2 : Nat} {x3 : Sceca} (k : Covers 0x20000000000000000000000000000000000000000000400000000 m) {t : State} (e : State.refusedAtHead s x1 x2 x3 = some t) (h : Only m r s) : Only m r t :=
  State.refusedAtHead_only k h t e

theorem State.resteerBridge_only {m : Nat} {r s : State} (k : Covers 0x3460000000000000000000000000000209a00000036000004000000001c000000010000020000000040000000c000000900000200001a0c7f800700840478000203 m) (h : Only m r s) : Only m r (State.resteerBridge s) := by
  unfold State.resteerBridge
  try dsimp only
  repeat' (first
    | (intro _; try dsimp only)
    | with_reducible assumption
    | with_reducible apply Only.foldl
    | with_reducible refine State.resteer_only (k.sub (by decide)) ?_)

theorem State.takeContribution_only {m : Nat} {r s : State} {x1 : Nat} {x2 : Nat} {x3 : List Byte} {x4 : Hdr} {x5 : Sceca} (k : Covers 0x3460000000000000000000000000000309a000000060000000000000000000000000000020000020040000000c000000800000200001a0e3f800700840478000200 m) (h : Only m r s) : Only m r (State.takeContribution s x1 x2 x3 x4 x5) := by
  unfold State.takeContribution
  try dsimp only
  repeat' (first
    | with_reducible assumption
    | with_reducible apply Only.ite
    | with_reducible refine State.flowAdd_only (k.sub (by decide)) ?_
    | with_reducible refine State.storeFrame_only (k.sub (by decide)) ?_
    | with_reducible refine State.admitFence_only (k.sub (by decide)) ?_
    | with_reducible refine State.setInflight_only (k.sub (by decide)) ?_
    | with_reducible refine State.refusedAtHead_only_eq (k.sub (by decide)) (by assumption) ?_
    | with_reducible refine State.steer_only (k.sub (by decide)) ?_
    | split)

theorem armWaitExpiry_only {m : Nat} {r s : State} (k : Covers 0x60000000000000000000000010000020000000040000000000000000000020000980800000000840478000000 m) (h : Only m r s) : Only m r (armWaitExpiry s) := by
  unfold armWaitExpiry
  try dsimp only
  repeat' (first
    | with_reducible assumption
    | fail_if_no_progress (with_reducible refine Only.clTo (by apply CollectiveStOnly.of <;> first | exact .inl (k.bit (by decide)) | exact .inr rfl) ?_)
    | with_reducible apply Only.ite
    | with_reducible refine State.dropFrame_only (k.sub (by decide)) ?_
    | with_reducible refine State.unwait_only (k.sub (by decide)) ?_
    | with_reducible refine State.clDrop_only (k.sub (by decide)) ?_
    | with_reducible refine State.setInflight_only (k.sub (by decide)) ?_
    | with_reducible refine State.freeCells_only (k.sub (by decide)) ?_
    | with_reducible refine State.hopAck_only (k.sub (by decide)) ?_
    | split)

theorem contributionCounted_only {m : Nat} {r s : State} {x0 : Nat} {x1 : Fcs} (k : Covers 0x3460000000000000000000000000000309a00000036000004000000001c000000010000020000020040000000c000000900000200001a0e7f800700840478000203 m) (h : Only m r s) : Only m r (contributionCounted x0 x1 s) := by
  unfold contributionCounted
  try dsimp only
  repeat' (first
    | with_reducible assumption
    | with_reducible apply Only.ite
    | with_reducible refine State.linkTail_only (k.sub (by decide)) ?_
    | with_reducible refine State.flowAdd_only (k.sub (by decide)) ?_
    | with_reducible refine State.undoInflight_only (k.sub (by decide)) ?_
    | with_reducible refine State.portAdd_only (k.sub (by decide)) ?_
    | with_reducible refine State.returnCredit_only (k.sub (by decide)) ?_
    | with_reducible refine State.reportNet_only (k.sub (by decide)) ?_
    | with_reducible refine State.countRx_only (k.sub (by decide)) ?_
    | with_reducible refine State.clearInflight_only (k.sub (by decide)) ?_
    | with_reducible refine State.finish_only (k.sub (by decide)) ?_
    | with_reducible refine State.noteCeWhole_only (k.sub (by decide)) ?_
    | split)

theorem contributionReceived_only {m : Nat} {r s : State} {x0 : Nat} {x1 : Option (BitVec 48)} {x2 : List Byte} (k : Covers 0x3460000000000000000000000000000309a000000060000000000000000000000000000020000020040000000c000000800000200001a0e3f800700840478000200 m) (h : Only m r s) : Only m r (contributionReceived x0 x1 x2 s) := by
  unfold contributionReceived
  try dsimp only
  repeat' (first
    | with_reducible assumption
    | with_reducible apply Only.ite
    | with_reducible refine State.takeContribution_only (k.sub (by decide)) ?_
    | with_reducible refine State.linkDuplicate_only (k.sub (by decide)) ?_
    | with_reducible refine State.tagReject_only (k.sub (by decide)) ?_
    | split)

theorem execContributionReceived_only {m : Nat} {r s : State} {x0 : Fin 1024} {x1 : Option (BitVec 48)} {x2 : List Byte} (k : Covers 0x3460000000000000000000000000000309a000000060000000000000000000000000000020000020040000000c000000800000200001a0e3f800700840478000200 m) (h : Only m r s) : OnlyRes m r (execContributionReceived x0 x1 x2 s) := by
  unfold execContributionReceived
  try dsimp only
  repeat' (first
    | (intro _; try dsimp only)
    | with_reducible assumption
    | with_reducible refine whenLive_only (k.sub (by decide)) ?_ ?_
    | with_reducible refine contributionReceived_only (k.sub (by decide)) ?_)

theorem execContributionCounted_only {m : Nat} {r s : State} {x0 : Fin 1024} {x1 : Fcs} (k : Covers 0x3460000000000000000000000000000309a00000036000004000000001c000000010000020000020040000000c000000900000200001a0e7f800700840478000203 m) (h : Only m r s) : OnlyRes m r (execContributionCounted x0 x1 s) := by
  unfold execContributionCounted
  try dsimp only
  repeat' (first
    | (intro _; try dsimp only)
    | with_reducible assumption
    | with_reducible refine whenLive_only (k.sub (by decide)) ?_ ?_
    | with_reducible refine contributionCounted_only (k.sub (by decide)) ?_)

theorem execArmWaitExpiry_only {m : Nat} {r s : State} (k : Covers 0x60000000000000000000000010000020000000040000000000000000000020000980800000000840478000000 m) (h : Only m r s) : OnlyRes m r (execArmWaitExpiry s) := by
  unfold execArmWaitExpiry
  try dsimp only
  repeat' (first
    | (intro _; try dsimp only)
    | with_reducible assumption
    | with_reducible refine whenLive_only (k.sub (by decide)) ?_ ?_
    | with_reducible refine armWaitExpiry_only (k.sub (by decide)) ?_)

/-! ### Machine/Arm.lean -/

theorem State.settleBroadcast_only {m : Nat} {r s : State} {x1 : Nat} (k : Covers 0x300000040000000004000000000000000000000000000000000000090000020000020c00000000000000000203 m) (h : Only m r s) : Only m r (State.settleBroadcast s x1) := by
  unfold State.settleBroadcast
  try dsimp only
  repeat' (first
    | (intro _; try dsimp only)
    | with_reducible assumption
    | with_reducible apply Only.foldl
    | with_reducible apply Only.ite
    | with_reducible refine State.settleRelease_only (k.sub (by decide)) ?_
    | with_reducible refine State.complete_only (k.sub (by decide)) ?_
    | split)

theorem State.openMoorings_only {m : Nat} {r s : State} {x1 : Nat} {x2 : List Byte} (k : Covers 0x20040000000000000000000 m) (h : Only m r s) : Only m r (State.openMoorings s x1 x2) := by
  unfold State.openMoorings
  try dsimp only
  repeat' (first
    | (intro _; try dsimp only)
    | with_reducible assumption
    | with_reducible apply Only.foldl
    | with_reducible apply Only.ite
    | with_reducible refine State.setMooring_only (k.sub (by decide)) ?_
    | with_reducible refine State.settleHalf_only (k.sub (by decide)) ?_
    | with_reducible refine State.clearHalf_only (k.sub (by decide)) ?_)

theorem State.bindSlots_only {m : Nat} {r s : State} {x1 : Nat} {x2 : List Byte} (k : Covers 0x40000000004000000000000000000000000000000000000000000000000000800000000000000000000 m) (h : Only m r s) : Only m r (State.bindSlots s x1 x2) := by
  unfold State.bindSlots
  try dsimp only
  repeat' (first
    | with_reducible assumption
    | with_reducible apply Only.ite
    | with_reducible refine State.showSlot_only (k.sub (by decide)) ?_
    | with_reducible refine State.modMslot_only (k.sub (by decide)) ?_)

theorem State.armGroup_only {m : Nat} {r s : State} {x1 : Nat} {x2 : GroupSt} {x3 : Nat} {x4 : Nat} (k : Covers 0x3460000000000000000000000000000209a00000036000004000000001c000000010000020000000040000000c000000900000200001a0c7f800700840478000203 m) (h : Only m r s) : Only m r (State.armGroup s x1 x2 x3 x4) := by
  unfold State.armGroup
  try dsimp only
  repeat' (first
    | with_reducible assumption
    | with_reducible refine State.setGroup_only (k.sub (by decide)) ?_
    | with_reducible refine State.resteerGroup_only (k.sub (by decide)) ?_
    | with_reducible refine State.showGroup_only (k.sub (by decide)) ?_
    | with_reducible refine State.advance_only (k.sub (by decide)) ?_
    | with_reducible refine State.openMoorings_only (k.sub (by decide)) ?_
    | with_reducible refine State.bindSlots_only (k.sub (by decide)) ?_)

theorem State.discardUnserved_only {m : Nat} {r s : State} {x1 : Nat} {x2 : Nat} (k : Covers 0x20440000000000000000000 m) (h : Only m r s) : Only m r (State.discardUnserved s x1 x2) := by
  unfold State.discardUnserved
  try dsimp only
  repeat' (first
    | (intro _; try dsimp only)
    | with_reducible assumption
    | with_reducible apply Only.foldl
    | with_reducible refine State.freeFrame_only (k.sub (by decide)) ?_
    | with_reducible refine State.setMooring_only (k.sub (by decide)) ?_
    | with_reducible refine State.modLeg_only (k.sub (by decide)) ?_
    | split)

theorem State.beginRelease_only {m : Nat} {r s : State} {x1 : Nat} {x2 : Option Nat} {x3 : Status} (k : Covers 0x300000040000000004000000000000020000000040000000000000090000020000020c40000000840478000203 m) (h : Only m r s) : Only m r (State.beginRelease s x1 x2 x3) := by
  unfold State.beginRelease
  try dsimp only
  repeat' (first
    | (intro _; try dsimp only)
    | with_reducible assumption
    | with_reducible apply Only.foldl
    | with_reducible apply Only.ite
    | with_reducible refine State.modArmed_only (k.sub (by decide)) ?_
    | with_reducible refine State.complete_only (k.sub (by decide)) ?_
    | with_reducible refine State.discardUnserved_only (k.sub (by decide)) ?_
    | with_reducible refine State.showGroup_only (k.sub (by decide)) ?_
    | with_reducible refine State.advance_only (k.sub (by decide)) ?_
    | split)

theorem State.dropGroup_only {m : Nat} {r s : State} {x1 : Nat} (k : Covers 0x300000000000000000000000000000000000000000000000000000000000000000020000000000000000000000 m) (h : Only m r s) : Only m r (State.dropGroup s x1) := by
  unfold State.dropGroup
  try dsimp only
  repeat' (first
    | with_reducible assumption
    | fail_if_no_progress (with_reducible refine Only.clTo (by apply CollectiveStOnly.of <;> first | exact .inl (k.bit (by decide)) | exact .inr rfl) ?_)
    | with_reducible refine State.showGroup_only (k.sub (by decide)) ?_)

theorem State.sendBlock_only {m : Nat} {r s : State} {x1 : Nat} {x2 : Nat} {x3 : Nat} {x4 : Nat} {x5 : Nat} (k : Covers 0x20000000040000000000000000000000000000800000000840478000000 m) (h : Only m r s) : Only m r (State.sendBlock s x1 x2 x3 x4 x5) := by
  unfold State.sendBlock
  try dsimp only
  repeat' (first
    | with_reducible assumption
    | with_reducible refine State.originate_only (k.sub (by decide)) ?_
    | split)

theorem State.sendVersion_only {m : Nat} {r s : State} {x1 : Nat} {x2 : Nat} (k : Covers 0x20000000040000000000000000000000000000800000000840478000000 m) (h : Only m r s) : Only m r (State.sendVersion s x1 x2) := by
  unfold State.sendVersion
  try dsimp only
  repeat' (first
    | (intro _; try dsimp only)
    | with_reducible assumption
    | with_reducible apply Only.foldl
    | with_reducible refine State.sendBlock_only (k.sub (by decide)) ?_
    | split)

theorem State.spreadVersion_only {m : Nat} {r s : State} {x1 : Nat} (k : Covers 0x300000040000000004000000000000020000000040000000000000090000020000020c00000000840478000203 m) (h : Only m r s) : Only m r (State.spreadVersion s x1) := by
  unfold State.spreadVersion
  try dsimp only
  repeat' (first
    | (intro _; try dsimp only)
    | with_reducible assumption
    | with_reducible apply Only.foldl
    | with_reducible refine State.settleBroadcast_only (k.sub (by decide)) ?_
    | with_reducible refine State.sendVersion_only (k.sub (by decide)) ?_
    | split)

theorem State.makeRoom_only {m : Nat} {r s : State} {x1 : Option Nat} {x2 : Nat} {x3 : Nat} (k : Covers 0x300000000000000000000000000000000000000000000000000000000000000000020000000000000000000000 m) (h : Only m r s) : ∀ t, State.makeRoom s x1 x2 x3 = some t → Only m r t := by
  induction x3 generalizing s with
  | zero =>
    intro t e
    rw [State.makeRoom] at e
    split at e
    · cases e; exact h
    · cases e
  | succ n ih =>
    intro t e
    rw [State.makeRoom] at e
    split at e
    · cases e; exact h
    · split at e
      · exact ih (State.dropGroup_only (k.sub (by decide)) h) t e
      · cases e

theorem State.makeRoom_only_eq {m : Nat} {r s : State} {x1 : Option Nat} {x2 : Nat} {x3 : Nat} (k : Covers 0x300000000000000000000000000000000000000000000000000000000000000000020000000000000000000000 m) {t : State} (e : State.makeRoom s x1 x2 x3 = some t) (h : Only m r s) : Only m r t :=
  State.makeRoom_only k h t e

theorem State.newGroup_only {m : Nat} {r s : State} {x1 : Nat} {x2 : List Byte} (k : Covers 0x300000000000000000000000000000000000000000000000000000000000000000060000000000000000000000 m) (h : Only m r s) : Only m r (State.newGroup s x1 x2).2 := by
  unfold State.newGroup
  try dsimp only
  repeat' (first
    | with_reducible assumption
    | fail_if_no_progress (with_reducible refine Only.clTo (by apply CollectiveStOnly.of <;> first | exact .inl (k.bit (by decide)) | exact .inr rfl) ?_)
    | with_reducible refine State.showGroup_only (k.sub (by decide)) ?_
    | with_reducible refine State.setGroup_only (k.sub (by decide)) ?_)

theorem State.replaceGroup_only {m : Nat} {r s : State} {x1 : Nat} {x2 : List Byte} (k : Covers 0x300000040000000004000000000000020000000040000000000000090000020000020c00000000840478000203 m) (h : Only m r s) : Only m r (State.replaceGroup s x1 x2) := by
  unfold State.replaceGroup
  try dsimp only
  repeat' (first
    | with_reducible assumption
    | with_reducible apply Only.ite
    | with_reducible refine State.showGroup_only (k.sub (by decide)) ?_
    | with_reducible refine State.modGroup_only (k.sub (by decide)) ?_
    | with_reducible refine State.spreadVersion_only (k.sub (by decide)) ?_)

theorem State.registerGroup_only {m : Nat} {r s : State} {x1 : Desc} {x2 : List Byte} (k : Covers 0x300000040000000004000000000000020000000040000000000000090000020000060c00000000840478000203 m) (h : Only m r s) : Only m r (State.registerGroup s x1 x2) := by
  unfold State.registerGroup
  try dsimp only
  repeat' (first
    | with_reducible assumption
    | with_reducible refine State.complete_only (k.sub (by decide)) ?_
    | with_reducible refine State.showGroup_only (k.sub (by decide)) ?_
    | with_reducible refine State.setGroup_only (k.sub (by decide)) ?_
    | with_reducible refine State.makeRoom_only_eq (k.sub (by decide)) (by assumption) ?_
    | with_reducible refine State.replaceGroup_only (k.sub (by decide)) ?_
    | with_reducible refine State.newGroup_only (k.sub (by decide)) ?_
    | split)

theorem execGroupRegister_only {m : Nat} {r s : State} {x0 : Fin 4096} {x1 : HostData} (k : Covers 0x300000040000000004000000000000020000000040000000000000090000020000060c00000000840478000203 m) (h : Only m r s) : OnlyRes m r (execGroupRegister x0 x1 s) := by
  unfold execGroupRegister
  try dsimp only
  repeat' (first
    | (intro _; try dsimp only)
    | with_reducible assumption
    | with_reducible refine runOpcode_only (k.sub (by decide)) ?_ ?_
    | with_reducible refine State.complete_only (k.sub (by decide)) ?_
    | with_reducible refine State.registerGroup_only (k.sub (by decide)) ?_
    | split)

theorem execGroupRelease_only {m : Nat} {r s : State} {x0 : Fin 4096} (k : Covers 0x300000000000000000000000000000000000000000000000000000090000020000020000000000000000000203 m) (h : Only m r s) : OnlyRes m r (execGroupRelease x0 s) := by
  unfold execGroupRelease
  try dsimp only
  repeat' (first
    | (intro _; try dsimp only)
    | with_reducible assumption
    | with_reducible apply Only.ite
    | with_reducible refine runOpcode_only (k.sub (by decide)) ?_ ?_
    | with_reducible refine State.complete_only (k.sub (by decide)) ?_
    | with_reducible refine State.dropGroup_only (k.sub (by decide)) ?_
    | split)

theorem execContextArm_only {m : Nat} {r s : State} {x0 : Fin 4096} (k : Covers 0x3460000000000000000000000000000209a00000036000004000000001c000000010000020000000040000000c000000900000200001a0c7f800700840478000203 m) (h : Only m r s) : OnlyRes m r (execContextArm x0 s) := by
  unfold execContextArm
  try dsimp only
  repeat' (first
    | (intro _; try dsimp only)
    | with_reducible assumption
    | with_reducible apply Only.ite
    | with_reducible refine runOpcode_only (k.sub (by decide)) ?_ ?_
    | with_reducible refine State.complete_only (k.sub (by decide)) ?_
    | with_reducible refine State.armGroup_only (k.sub (by decide)) ?_
    | split)

theorem execContextDisarm_only {m : Nat} {r s : State} {x0 : Fin 4096} (k : Covers 0x300000040000000004000000000000020000000040000000000000090000020000020c40000000840478000203 m) (h : Only m r s) : OnlyRes m r (execContextDisarm x0 s) := by
  unfold execContextDisarm
  try dsimp only
  repeat' (first
    | (intro _; try dsimp only)
    | with_reducible assumption
    | with_reducible apply Only.ite
    | with_reducible refine runOpcode_only (k.sub (by decide)) ?_ ?_
    | with_reducible refine State.complete_only (k.sub (by decide)) ?_
    | with_reducible refine State.settleRelease_only (k.sub (by decide)) ?_
    | with_reducible refine State.beginRelease_only (k.sub (by decide)) ?_
    | split)

/-! ### Machine/Sched.lean -/

theorem State.countPtp_only {m : Nat} {r s : State} {x1 : FrameSt} {x2 : Copy} (k : Covers 0x10000000000000000000000000000000000000000000000000000000000000000000000000000000000000000000000000000000000000000000 m) (h : Only m r s) : Only m r (State.countPtp s x1 x2) := by
  unfold State.countPtp
  try dsimp only
  repeat' (first
    | with_reducible assumption
    | with_reducible apply Only.ite
    | with_reducible refine State.addWrap_only _ _ _ (k.words (by decide)) ?_)

theorem State.countSent_only {m : Nat} {r s : State} {x1 : Nat} {x2 : Nat} {x3 : Nat} {x4 : Option Nat} (k : Covers 0xc00000000 m) (h : Only m r s) : Only m r (State.countSent s x1 x2 x3 x4) := by
  unfold State.countSent
  try dsimp only
  repeat' (first
    | with_reducible assumption
    | with_reducible apply Only.ite
    | with_reducible refine State.queueAdd_only (k.sub (by decide)) ?_
    | with_reducible refine State.portAdd_only (k.sub (by decide)) ?_
    | split)

theorem State.countStalls_only {m : Nat} {r s : State} {x1 : Nat} (k : Covers 0x400000000 m) (h : Only m r s) : Only m r (State.countStalls s x1) := by
  unfold State.countStalls
  try dsimp only
  repeat' (first
    | (intro _; try dsimp only)
    | with_reducible assumption
    | with_reducible apply Only.foldl
    | with_reducible refine State.portAdd_only (k.sub (by decide)) ?_)

theorem State.dropUnfit_only {m : Nat} {r s : State} {x1 : Nat} {x2 : Nat} {x3 : Nat} {x4 : Nat} (k : Covers 0x10000000000000000000000000000000000020000000000000000800dd8000000 m) (h : Only m r s) : Only m r (State.dropUnfit s x1 x2 x3 x4) := by
  induction x4 generalizing s with
  | zero => rw [State.dropUnfit]; exact h
  | succ n ih =>
    rw [State.dropUnfit]
    try dsimp only
    repeat' (first
      | with_reducible assumption
      | with_reducible apply ih
      | with_reducible apply Only.ite
      | with_reducible refine State.endCopy_only (k.sub (by decide)) ?_
      | with_reducible refine State.portAdd_only (k.sub (by decide)) ?_
      | with_reducible refine State.queueAdd_only (k.sub (by decide)) ?_
      | split)

theorem State.fillShapers_only {m : Nat} {r s : State} {x1 : Nat} (k : Covers 0x8000000 m) (h : Only m r s) : Only m r (State.fillShapers s x1) := by
  unfold State.fillShapers
  try dsimp only
  repeat' (first
    | (intro _; try dsimp only)
    | with_reducible assumption
    | with_reducible apply Only.foldl
    | with_reducible refine State.modPort_only (k.sub (by decide)) ?_)

theorem State.markDraw_only {m : Nat} {r s : State} {x1 : Nat} {x2 : Nat} {x3 : List Byte} (k : Covers 0x10000000000000000000000000000 m) (h : Only m r s) : Only m r (State.markDraw s x1 x2 x3).2 := by
  unfold State.markDraw
  try dsimp only
  repeat' (first
    | with_reducible assumption
    | with_reducible refine State.draw_only (k.bit (i := 112) (by decide)) ?_
    | split)

theorem State.sendCopy_only {m : Nat} {r s : State} {x1 : Nat} {x2 : Nat} {x3 : FrameSt} {x4 : List Byte} {x5 : Nat} {x6 : Option Nat} (k : Covers 0x20000000000000000000008000000 m) (h : Only m r s) : Only m r (State.sendCopy s x1 x2 x3 x4 x5 x6) := by
  unfold State.sendCopy
  try dsimp only
  repeat' (first
    | with_reducible assumption
    | with_reducible apply Only.ite
    | with_reducible refine State.takeSeq_only (k.sub (by decide)) ?_
    | with_reducible refine State.sendHeld_only (k.sub (by decide)) ?_
    | with_reducible refine State.emit_only _ (k.bit (i := 113) (by decide)) ?_)

theorem State.sendStale_only {m : Nat} {r s : State} {x1 : Nat} {x2 : Nat} {x3 : FrameSt} {x4 : List Byte} {x5 : Option Nat} (k : Covers 0x20000000000000000000408000000 m) (h : Only m r s) : Only m r (State.sendStale s x1 x2 x3 x4 x5) := by
  unfold State.sendStale
  try dsimp only
  repeat' (first
    | with_reducible assumption
    | with_reducible refine State.portAdd_only (k.sub (by decide)) ?_
    | with_reducible refine State.emit_only _ (k.bit (i := 113) (by decide)) ?_
    | with_reducible refine State.modPort_only (k.sub (by decide)) ?_)

theorem State.startFrame_only {m : Nat} {r s : State} {x1 : Nat} {x2 : Nat} {x3 : Nat} {x4 : Nat} {x5 : FrameSt} (k : Covers 0x10000000000000000000c18000000 m) (h : Only m r s) : Only m r (State.startFrame s x1 x2 x3 x4 x5) := by
  unfold State.startFrame
  try dsimp only
  repeat' (first
    | with_reducible assumption
    | with_reducible apply Only.ite
    | with_reducible refine State.markDraw_only (k.sub (by decide)) ?_
    | with_reducible refine State.queueAdd_only (k.sub (by decide)) ?_
    | with_reducible refine State.portAdd_only (k.sub (by decide)) ?_
    | with_reducible refine State.setFrame_only (k.sub (by decide)) ?_
    | with_reducible refine State.modPort_only (k.sub (by decide)) ?_)

theorem State.serve_only {m : Nat} {r s : State} {x1 : Nat} {x2 : Nat} {x3 : Drr} (k : Covers 0x4000000000000000000000010000000000000000000c18000000 m) (h : Only m r s) : Only m r (State.serve s x1 x2 x3) := by
  unfold State.serve
  try dsimp only
  repeat' (first
    | with_reducible assumption
    | with_reducible apply Only.ite
    | with_reducible refine State.wr_only _ _ _ (k.words (by decide)) ?_
    | with_reducible refine State.modPort_only (k.sub (by decide)) ?_
    | with_reducible refine State.startFrame_only (k.sub (by decide)) ?_
    | split)

theorem State.settleCharge_only {m : Nat} {r s : State} {x1 : Nat} {x2 : Nat} {x3 : Nat} {x4 : Nat} (k : Covers 0x8000000 m) (h : Only m r s) : Only m r (State.settleCharge s x1 x2 x3 x4) := by
  unfold State.settleCharge
  try dsimp only
  repeat' (first
    | with_reducible assumption
    | with_reducible apply Only.ite
    | with_reducible refine State.modPort_only (k.sub (by decide)) ?_
    | split)

theorem State.wireFree_only {m : Nat} {r s : State} {x1 : Nat} (k : Covers 0x800000003c600000000000000000000310100000000000000060000000000000000000000010000000000024000000000c0000009000002008f1a0440871700800dd8400203 m) (h : Only m r s) : Only m r (State.wireFree s x1) := by
  unfold State.wireFree
  try dsimp only
  repeat' (first
    | with_reducible assumption
    | with_reducible refine State.modPort_only (k.sub (by decide)) ?_
    | with_reducible refine State.releaseOwn_only (k.sub (by decide)) ?_
    | with_reducible refine State.retransmit_only (k.sub (by decide)) ?_
    | split)

theorem schedulerSelect_only {m : Nat} {r s : State} {x0 : Nat} (k : Covers 0x10000000000004000000000000000000000030000000000000000800dd8000000 m) (h : Only m r s) : Only m r (schedulerSelect x0 s) := by
  unfold schedulerSelect
  try dsimp only
  repeat' (first
    | (intro _; try dsimp only)
    | with_reducible assumption
    | with_reducible apply Only.foldl
    | with_reducible apply Only.ite
    | with_reducible refine State.dropUnfit_only (k.sub (by decide)) ?_
    | with_reducible refine State.countStalls_only (k.sub (by decide)) ?_
    | with_reducible refine State.serve_only (k.sub (by decide)) ?_
    | split)

theorem execSchedulerSelect_only {m : Nat} {r s : State} {x0 : Fin 1024} (k : Covers 0x10000000000004000000000000000000000030000000000000000800dd8000000 m) (h : Only m r s) : OnlyRes m r (execSchedulerSelect x0 s) := by
  unfold execSchedulerSelect
  try dsimp only
  repeat' (first
    | (intro _; try dsimp only)
    | with_reducible assumption
    | with_reducible refine whenLive_only (k.sub (by decide)) ?_ ?_
    | with_reducible refine schedulerSelect_only (k.sub (by decide)) ?_)

theorem frameDeparted_only {m : Nat} {r s : State} {x0 : Nat} {x1 : Sram} (k : Covers 0x800000003c600000000000010000000310100000018000000060000000000000000000000010000000000024000000000c0000009000002008f1a0440871700800dd8400203 m) (h : Only m r s) : Only m r (frameDeparted x0 x1 s) := by
  unfold frameDeparted
  try dsimp only
  repeat' (first
    | with_reducible assumption
    | with_reducible apply Only.ite
    | with_reducible refine State.modPort_only (k.sub (by decide)) ?_
    | with_reducible refine State.countPtp_only (k.sub (by decide)) ?_
    | with_reducible refine State.settleCharge_only (k.sub (by decide)) ?_
    | with_reducible refine State.sramRead_only (k.sub (by decide)) ?_
    | with_reducible refine State.countSent_only (k.sub (by decide)) ?_
    | with_reducible refine State.wireFree_only (k.sub (by decide)) ?_
    | with_reducible refine State.endCopy_only (k.sub (by decide)) ?_
    | with_reducible refine State.sendStale_only (k.sub (by decide)) ?_
    | with_reducible refine State.sendCopy_only (k.sub (by decide)) ?_
    | split)

theorem execFrameDeparted_only {m : Nat} {r s : State} {x0 : Fin 1024} {x1 : Sram} (k : Covers 0x800000003c600000000000010000000310100000018000000060000000000000000000000010000000000024000000000c0000009000002008f1a0440871700800dd8400203 m) (h : Only m r s) : OnlyRes m r (execFrameDeparted x0 x1 s) := by
  unfold execFrameDeparted
  try dsimp only
  repeat' (first
    | (intro _; try dsimp only)
    | with_reducible assumption
    | with_reducible refine whenLive_only (k.sub (by decide)) ?_ ?_
    | with_reducible refine frameDeparted_only (k.sub (by decide)) ?_)

/-! ### Machine/Time.lean -/

theorem State.setLocked_only {m : Nat} {r s : State} {x1 : Nat} {x2 : Bool} (k : Covers 0x10000000000000000000000000000000000000000000000000000000000000000000000000000000000000000000000000000000000000000 m) (h : Only m r s) : Only m r (State.setLocked s x1 x2) := by
  unfold State.setLocked
  try dsimp only
  repeat' (first
    | with_reducible assumption
    | with_reducible apply Only.ite
    | with_reducible refine State.wr_only _ _ _ (k.words (by decide)) ?_)

theorem State.timeEdge_only {m : Nat} {r s : State} (k : Covers 0x3000000000000 m) (h : Only m r s) : Only m r (State.timeEdge s) := by
  unfold State.timeEdge
  try dsimp only
  repeat' (first
    | with_reducible assumption
    | fail_if_no_progress (with_reducible refine Only.tbTo (by apply TimeStOnly.of <;> first | exact .inl (k.bit (by decide)) | exact .inr rfl) ?_))

theorem tick_only {m : Nat} {r s : State} (k : Covers 0x3000008000000 m) (h : Only m r s) : Only m r (tick s) := by
  unfold tick
  try dsimp only
  repeat' (first
    | with_reducible assumption
    | with_reducible apply Only.ite
    | with_reducible refine State.timeEdge_only (k.sub (by decide)) ?_
    | with_reducible refine State.fillShapers_only (k.sub (by decide)) ?_)

/-! ### Machine/Engine.lean -/

theorem State.checkCalTemp_only {m : Nat} {r s : State} {x1 : Nat} {x2 : Nat} (k : Covers 0x30600000000000000000000100100000000000000000000000000000000000000000000000000000000000000000000080000020206000000000700000000000200 m) (h : Only m r s) : Only m r (State.checkCalTemp s x1 x2) := by
  unfold State.checkCalTemp
  try dsimp only
  repeat' (first
    | with_reducible assumption
    | with_reducible apply Only.ite
    | with_reducible refine State.abandonCal_only (k.sub (by decide)) ?_
    | split)

theorem State.tuneRings_only {m : Nat} {r s : State} {x1 : Nat} {x2 : Nat} {x3 : Nat} {x4 : Nat} {x5 : List Nat} (k : Covers 0x1000000000000000000000000 m) (h : Only m r s) : Only m r (State.tuneRings s x1 x2 x3 x4 x5) := by
  unfold State.tuneRings
  try dsimp only
  repeat' (first
    | (intro _; try dsimp only)
    | with_reducible assumption
    | with_reducible apply Only.foldl
    | with_reducible refine State.setRingSt_only (k.sub (by decide)) ?_)

theorem State.ringUnlocked_only {m : Nat} {r s : State} {x1 : Nat} {x2 : Nat} (k : Covers 0x30600000000000000000000310100000000000000000000000000000000000000000000000000004000000000000000080000020087000000000700000408000200 m) (h : Only m r s) : Only m r (State.ringUnlocked s x1 x2) := by
  unfold State.ringUnlocked
  try dsimp only
  repeat' (first
    | with_reducible assumption
    | with_reducible apply Only.ite
    | with_reducible refine State.raise_only (k.sub (by decide)) ?_
    | with_reducible refine State.setErr_only _ _ (k.err (by decide) (by decide)) ?_
    | with_reducible refine State.abandonMove_only (k.sub (by decide)) ?_
    | with_reducible refine State.removeCircuit_only (k.sub (by decide)) ?_
    | split)

theorem State.repairRing_only {m : Nat} {r s : State} {x1 : Nat} {x2 : Nat} (k : Covers 0x800000003c600000000000000000000310100000000000000060000000000000000000000010000000000004000000000c0000009000003028f1a0440819700800dd8400203 m) (h : Only m r s) : Only m r (State.repairRing s x1 x2) := by
  unfold State.repairRing
  try dsimp only
  repeat' (first
    | with_reducible assumption
    | with_reducible apply Only.ite
    | with_reducible refine State.wavelengthFails_only (k.sub (by decide)) ?_
    | with_reducible refine State.startSweep_only (k.sub (by decide)) ?_
    | with_reducible refine State.startMove_only (k.sub (by decide)) ?_
    | split)

theorem State.engineLoop_only {m : Nat} {r s : State} {x1 : Nat} {x2 : Nat} {x3 : Nat} {x4 : Nat} {x5 : List Nat} (k : Covers 0x800000003c600000000000000000000312100000000000000060000000000000000000000010000000000004000000000c0000009000003028f1a0440819700800dd8400203 m) (h : Only m r s) : Only m r (State.engineLoop s x1 x2 x3 x4 x5) := by
  unfold State.engineLoop
  try dsimp only
  repeat' (first
    | (intro _; try dsimp only)
    | with_reducible assumption
    | with_reducible apply Only.foldl
    | with_reducible refine State.setEngine_only (k.sub (by decide)) ?_
    | with_reducible refine State.tuneRings_only (k.sub (by decide)) ?_
    | with_reducible refine State.wr_only _ _ _ (k.words (by decide)) ?_
    | with_reducible refine State.ringUnlocked_only (k.sub (by decide)) ?_
    | with_reducible refine State.repairRing_only (k.sub (by decide)) ?_)

theorem State.startLocking_only {m : Nat} {r s : State} {x1 : Nat} (k : Covers 0x2000000000000000000000000000000000000000000000000000000000000000000000000000010002000000000000000000000000 m) (h : Only m r s) : Only m r (State.startLocking s x1) := by
  unfold State.startLocking
  try dsimp only
  repeat' (first
    | with_reducible assumption
    | with_reducible apply Only.ite
    | with_reducible refine State.draw_only (k.bit (i := 112) (by decide)) ?_
    | with_reducible refine State.wr_only _ _ _ (k.words (by decide)) ?_
    | with_reducible refine State.setEngine_only (k.sub (by decide)) ?_)

theorem engineDown_only {m : Nat} {r s : State} {x0 : Nat} {x1 : Nat} {x2 : Nat} (k : Covers 0x800000003c600000000000000000000312100000000000000060000000000000000000000010000000000004000000000c0000009000003028f1a0440819700800dd8400203 m) (h : Only m r s) : Only m r (engineDown x0 x1 x2 s) := by
  unfold engineDown
  try dsimp only
  repeat' (first
    | with_reducible assumption
    | with_reducible apply Only.ite
    | with_reducible refine State.draw_only (k.bit (i := 112) (by decide)) ?_
    | with_reducible refine State.engineLoop_only (k.sub (by decide)) ?_
    | with_reducible refine State.setEngine_only (k.sub (by decide)) ?_
    | with_reducible refine State.emit_only _ (k.bit (i := 113) (by decide)) ?_)

theorem engineHold_only {m : Nat} {r s : State} {x0 : Nat} (k : Covers 0x30600000000000000000000312100000000000000000000000000000000000000000000000000004000000000000000080000020287000000000700000408000200 m) (h : Only m r s) : Only m r (engineHold x0 s) := by
  unfold engineHold
  try dsimp only
  repeat' (first
    | (intro _; try dsimp only)
    | with_reducible assumption
    | with_reducible apply Only.foldl
    | with_reducible apply Only.ite
    | with_reducible refine State.raise_only (k.sub (by decide)) ?_
    | with_reducible refine State.setErr_only _ _ (k.err (by decide) (by decide)) ?_
    | with_reducible refine State.wr_only _ _ _ (k.words (by decide)) ?_
    | with_reducible refine State.abandonCal_only (k.sub (by decide)) ?_
    | with_reducible refine State.removeCircuit_only (k.sub (by decide)) ?_)

theorem engineUp_only {m : Nat} {r s : State} {x0 : Nat} {x1 : List Byte} (k : Covers 0x30600000000000000000000102100000000000000000000000000000000000000000000000000000000000000000000080000020207000000000700000000000200 m) (h : Only m r s) : Only m r (engineUp x0 x1 s) := by
  unfold engineUp
  try dsimp only
  repeat' (first
    | (intro _; try dsimp only)
    | with_reducible assumption
    | with_reducible apply Only.foldl
    | with_reducible apply Only.ite
    | with_reducible refine State.setRingSt_only (k.sub (by decide)) ?_
    | with_reducible refine State.setEngine_only (k.sub (by decide)) ?_
    | with_reducible refine State.checkCalTemp_only (k.sub (by decide)) ?_
    | with_reducible refine State.wr_only _ _ _ (k.words (by decide)) ?_
    | with_reducible refine State.addSat_only _ _ _ (k.words (by decide)) ?_)

theorem execEngineDownFrame_only {m : Nat} {r s : State} {x0 : Fin 16} {x1 : BitVec 12} {x2 : BitVec 12} (k : Covers 0x800000003c600000000000000000000312100000000000000060000000000000000000000010000000000004000000000c0000009000003028f1a0440819700800dd8400203 m) (h : Only m r s) : OnlyRes m r (execEngineDownFrame x0 x1 x2 s) := by
  unfold execEngineDownFrame
  try dsimp only
  repeat' (first
    | (intro _; try dsimp only)
    | with_reducible assumption
    | with_reducible refine whenLive_only (k.sub (by decide)) ?_ ?_
    | with_reducible refine engineDown_only (k.sub (by decide)) ?_)

theorem execEngineUpFrame_only {m : Nat} {r s : State} {x0 : Fin 16} {x1 : List Byte} (k : Covers 0x30600000000000000000000102100000000000000000000000000000000000000000000000000000000000000000000080000020207000000000700000000000200 m) (h : Only m r s) : OnlyRes m r (execEngineUpFrame x0 x1 s) := by
  unfold execEngineUpFrame
  try dsimp only
  repeat' (first
    | (intro _; try dsimp only)
    | with_reducible assumption
    | with_reducible refine whenLive_only (k.sub (by decide)) ?_ ?_
    | with_reducible refine engineUp_only (k.sub (by decide)) ?_)

theorem execEngineHoldExpiry_only {m : Nat} {r s : State} {x0 : Fin 16} (k : Covers 0x30600000000000000000000000000000000000000000000000000000000000000010000000000000000000000c00000080000020000000000800700800418000200 m) (h : Only m r s) : OnlyRes m r (execEngineHoldExpiry x0 s) := by
  unfold execEngineHoldExpiry
  try dsimp only
  repeat' (first
    | (intro _; try dsimp only)
    | with_reducible assumption
    | with_reducible apply Only.ite
    | with_reducible refine whenLive_only (k.sub (by decide)) ?_ ?_
    | with_reducible refine State.leave_only (k.sub (by decide)) ?_)

theorem execEngineEntersHold_only {m : Nat} {r s : State} {x0 : Fin 16} (k : Covers 0x30600000000000000000000312100000000000000000000000000000000000000000000000000004000000000000000080000020287000000000700000408000200 m) (h : Only m r s) : OnlyRes m r (execEngineEntersHold x0 s) := by
  unfold execEngineEntersHold
  try dsimp only
  repeat' (first
    | (intro _; try dsimp only)
    | with_reducible assumption
    | with_reducible refine whenLive_only (k.sub (by decide)) ?_ ?_
    | with_reducible refine engineHold_only (k.sub (by decide)) ?_)

theorem execEngineLinkRetrained_only {m : Nat} {r s : State} {x0 : Fin 16} (k : Covers 0x2000000000000000000000000000000000000000000000000000000000000000000000000000000000000000000000000000000000 m) (h : Only m r s) : OnlyRes m r (execEngineLinkRetrained x0 s) := by
  unfold execEngineLinkRetrained
  try dsimp only
  repeat' (first
    | (intro _; try dsimp only)
    | with_reducible assumption
    | with_reducible apply Only.ite
    | with_reducible refine whenLive_only (k.sub (by decide)) ?_ ?_
    | with_reducible refine State.wr_only _ _ _ (k.words (by decide)) ?_)

end Sys2Proof.Machine
end

