-- ==== Sys2Proof/Laws/OnlyLaser.lean ====
section
/-! SUPPORT. Every operation of Machine/Laser.lean to Machine/Tile.lean changes only the parts that its mask names: from a state that did so, it answers one
that did so. -/

namespace Sys2Proof.Machine

/-! ### Machine/Laser.lean -/

theorem State.darkModule_only {m : Nat} {r s : State} {x1 : Nat} (k : Covers 0x30600000000000000000000040000000000000000000000000000000000000000010000000000000000000000c00000080000020020000000800700800418000200 m) (h : Only m r s) : Only m r (State.darkModule s x1) := by
  unfold State.darkModule
  try dsimp only
  repeat' (first
    | (intro _; try dsimp only)
    | with_reducible assumption
    | with_reducible apply Only.foldl
    | with_reducible refine State.setLaserPos_only (k.sub (by decide)) ?_
    | with_reducible refine State.leave_only (k.sub (by decide)) ?_
    | with_reducible refine State.wr_only _ _ _ (k.words (by decide)) ?_)

theorem laserCfgWrite_only {m : Nat} {r s : State} {x0 : Nat} {x1 : Word} (k : Covers 0x30600000000000000000000060100000000000000000000000000000000000000010000000000000000000000c00000080000030020000000800700800418000200 m) (h : Only m r s) : Only m r (laserCfgWrite x0 x1 s) := by
  unfold laserCfgWrite
  try dsimp only
  repeat' (first
    | with_reducible assumption
    | with_reducible apply Only.ite
    | with_reducible refine State.ocRefuse_only (k.sub (by decide)) ?_
    | with_reducible refine State.plainWrite_only _ _ _ (k.words (by decide)) ?_
    | with_reducible refine State.lightModule_only (k.sub (by decide)) ?_
    | with_reducible refine State.darkModule_only (k.sub (by decide)) ?_)

theorem State.retireLaser_only {m : Nat} {r s : State} {x1 : Nat} {x2 : Nat} (k : Covers 0x2000000000000000 m) (h : Only m r s) : Only m r (State.retireLaser s x1 x2) := by
  unfold State.retireLaser
  try dsimp only
  repeat' (first
    | with_reducible assumption
    | fail_if_no_progress (with_reducible refine Only.fhTo (by apply FaultStOnly.of <;> first | exact .inl (k.bit (by decide)) | exact .inr rfl) ?_)
    | with_reducible apply Only.ite)

theorem State.settleModule_only {m : Nat} {r s : State} {x1 : Nat} (k : Covers 0x30600000000000000000000000000000000000000000000000000000000000000010000000000000000000000c00000080000020000000000800700800418000200 m) (h : Only m r s) : Only m r (State.settleModule s x1) := by
  unfold State.settleModule
  try dsimp only
  repeat' (first
    | with_reducible assumption
    | with_reducible apply Only.ite
    | with_reducible refine State.leave_only (k.sub (by decide)) ?_)

theorem State.laserFails_only {m : Nat} {r s : State} {x1 : Nat} {x2 : Nat} (k : Covers 0x800000003c600000000000000000000390100000000000000060000000000000000000000010000000000004000000000c000000900000302af1a044081b700800dd8400203 m) (h : Only m r s) : Only m r (State.laserFails s x1 x2) := by
  unfold State.laserFails
  try dsimp only
  repeat' (first
    | (intro _; try dsimp only)
    | with_reducible assumption
    | with_reducible apply Only.foldl
    | with_reducible apply Only.ite
    | with_reducible refine State.raise_only (k.sub (by decide)) ?_
    | with_reducible refine State.setErr_only _ _ (k.err (by decide) (by decide)) ?_
    | with_reducible refine State.retireLaser_only (k.sub (by decide)) ?_
    | with_reducible refine State.wavelengthFails_only (k.sub (by decide)) ?_
    | with_reducible refine State.settleModule_only (k.sub (by decide)) ?_
    | with_reducible refine State.wr_only _ _ _ (k.words (by decide)) ?_
    | with_reducible refine State.setLaserPos_only (k.sub (by decide)) ?_)

theorem State.swapFibre_only {m : Nat} {r s : State} {x1 : Nat} {x2 : Nat} (k : Covers 0x8000000030600000000000000000000310100000000000000060000000000000000000000010000000000004000000000c0000009000003008f1a0440800700800dd8400203 m) (h : Only m r s) : Only m r (State.swapFibre s x1 x2) := by
  unfold State.swapFibre
  try dsimp only
  repeat' (first
    | with_reducible assumption
    | with_reducible apply Only.ite
    | with_reducible refine State.startMove_only (k.sub (by decide)) ?_
    | with_reducible refine State.portFalls_only (k.sub (by decide)) ?_
    | split)

theorem State.startSwap_only {m : Nat} {r s : State} {x1 : Nat} {x2 : Nat} (k : Covers 0x8000000038600000000000000000000390100000000000000060000000000000000000000010000000000004000000000c0000009000003028f1a0440810700800dd8400203 m) (h : Only m r s) : Only m r (State.startSwap s x1 x2) := by
  unfold State.startSwap
  try dsimp only
  repeat' (first
    | (intro _; try dsimp only)
    | with_reducible assumption
    | with_reducible apply Only.foldl
    | with_reducible refine State.queueRecovery_only (k.sub (by decide)) ?_
    | with_reducible refine State.wr_only _ _ _ (k.words (by decide)) ?_
    | with_reducible refine State.abandonCal_only (k.sub (by decide)) ?_
    | with_reducible refine State.swapFibre_only (k.sub (by decide)) ?_)

theorem State.overridden_only {m : Nat} {r s : State} {x1 : Nat} {x2 : Nat} {x3 : Nat} {x4 : Nat} {x5 : Nat} (k : Covers 0x30600000006000000000000000000000000000000000000000000000000000000000000000000000000000000000000080000020000000000000700000000000200 m) (h : Only m r s) : Only m r (State.overridden s x1 x2 x3 x4 x5) := by
  unfold State.overridden
  try dsimp only
  repeat' (first
    | with_reducible assumption
    | (with_reducible refine State.wrs_only _ (by simp only [List.forall_mem_cons, List.not_mem_nil, false_imp_iff, implies_true, and_true]; (repeat' apply And.intro) <;> exact k.words (by decide)) ?_)
    | with_reducible refine State.raise_only (k.sub (by decide)) ?_
    | with_reducible refine State.setErr_only _ _ (k.err (by decide) (by decide)) ?_)

theorem State.cutLaser_only {m : Nat} {r s : State} {x1 : Nat} {x2 : Nat} {x3 : Nat} {x4 : Nat} {x5 : Bool} (k : Covers 0x800000003c600000006000000000000390100000000000000060000000000000000000000010000000000004000000000c000000900000302af1a044081b700800dd8400203 m) (h : Only m r s) : Only m r (State.cutLaser s x1 x2 x3 x4 x5) := by
  unfold State.cutLaser
  try dsimp only
  repeat' (first
    | with_reducible assumption
    | with_reducible apply Only.ite
    | with_reducible refine State.draw_only (k.bit (i := 112) (by decide)) ?_
    | with_reducible refine State.overridden_only (k.sub (by decide)) ?_
    | with_reducible refine State.setErr_only _ _ (k.err (by decide) (by decide)) ?_
    | with_reducible refine State.setLaserPos_only (k.sub (by decide)) ?_
    | with_reducible refine State.laserFails_only (k.sub (by decide)) ?_
    | with_reducible refine State.retireLaser_only (k.sub (by decide)) ?_)

theorem State.goOnFailed_only {m : Nat} {r s : State} {x1 : Nat} {x2 : Nat} (k : Covers 0x800000003c600000000000000000000310100000000000000060000000000000000000000010000000000004000000000c0000009000003028f1a0440819700800dd8400203 m) (h : Only m r s) : Only m r (State.goOnFailed s x1 x2) := by
  unfold State.goOnFailed
  try dsimp only
  repeat' (first
    | (intro _; try dsimp only)
    | with_reducible assumption
    | with_reducible apply Only.foldl
    | with_reducible apply Only.ite
    | with_reducible refine State.wavelengthFails_only (k.sub (by decide)) ?_
    | split)

theorem State.goOnSwap_only {m : Nat} {r s : State} {x1 : Nat} {x2 : Nat} (k : Covers 0x8000000030600000000000000000000310100000000000000060000000000000000000000010000000000004000000000c000000900000300af1a0440800700800dd8400203 m) (h : Only m r s) : Only m r (State.goOnSwap s x1 x2) := by
  unfold State.goOnSwap
  try dsimp only
  repeat' (first
    | (intro _; try dsimp only)
    | with_reducible assumption
    | with_reducible apply Only.foldl
    | with_reducible apply Only.ite
    | with_reducible refine State.swapFibre_only (k.sub (by decide)) ?_
    | with_reducible refine State.draw_only (k.bit (i := 112) (by decide)) ?_
    | with_reducible refine State.setLaserPos_only (k.sub (by decide)) ?_)

theorem State.interlockCut_only {m : Nat} {r s : State} {x1 : Nat} (k : Covers 0x800000003c6000000060000000000003d0100000000000000060000000000000000000000010000000000004000000000c000000900000302af1a044081b700800dd8400203 m) (h : Only m r s) : Only m r (State.interlockCut s x1) := by
  unfold State.interlockCut
  try dsimp only
  repeat' (first
    | (intro _; try dsimp only)
    | with_reducible assumption
    | with_reducible apply Only.foldl
    | with_reducible refine State.overridden_only (k.sub (by decide)) ?_
    | with_reducible refine State.setErr_only _ _ (k.err (by decide) (by decide)) ?_
    | with_reducible refine State.wr_only _ _ _ (k.words (by decide)) ?_
    | with_reducible refine State.laserFails_only (k.sub (by decide)) ?_)

theorem State.judgeLaser_only {m : Nat} {r s : State} {x1 : Nat} {x2 : Nat} (k : Covers 0x800000003c600000000000000000000390100000000000000060000000000000000000000010000000000004000000000c000000900000302af1a044081b700800dd8400203 m) (h : Only m r s) : Only m r (State.judgeLaser s x1 x2) := by
  unfold State.judgeLaser
  try dsimp only
  repeat' (first
    | with_reducible assumption
    | with_reducible apply Only.ite
    | with_reducible refine State.laserFails_only (k.sub (by decide)) ?_
    | with_reducible refine State.startSwap_only (k.sub (by decide)) ?_
    | with_reducible refine State.raise_only (k.sub (by decide)) ?_
    | with_reducible refine State.setErr_only _ _ (k.err (by decide) (by decide)) ?_)

theorem State.readLaser_only {m : Nat} {r s : State} {x1 : Nat} {x2 : Nat} {x3 : List Byte} {x4 : Nat} (k : Covers 0x80000000000000000000000000000000000000000000000000000000000000000000000000000000020000000000000000000000000 m) (h : Only m r s) : Only m r (State.readLaser s x1 x2 x3 x4) := by
  unfold State.readLaser
  try dsimp only
  repeat' (first
    | with_reducible assumption
    | with_reducible refine State.wr_only _ _ _ (k.words (by decide)) ?_
    | with_reducible refine State.setLaserPos_only (k.sub (by decide)) ?_)

theorem State.spareTakes_only {m : Nat} {r s : State} {x1 : Nat} {x2 : Nat} (k : Covers 0x30600000000000000000000080000000000000000000000000000000000000000000000000000000000000000000000080000020020000000002700000000000200 m) (h : Only m r s) : Only m r (State.spareTakes s x1 x2) := by
  unfold State.spareTakes
  try dsimp only
  repeat' (first
    | with_reducible assumption
    | with_reducible refine State.retireLaser_only (k.sub (by decide)) ?_
    | with_reducible refine State.setLaserPos_only (k.sub (by decide)) ?_
    | with_reducible refine State.raise_only (k.sub (by decide)) ?_
    | (with_reducible refine State.wrs_only _ (by simp only [List.forall_mem_cons, List.not_mem_nil, false_imp_iff, implies_true, and_true]; (repeat' apply And.intro) <;> exact k.words (by decide)) ?_))

theorem State.trendLaser_only {m : Nat} {r s : State} {x1 : Nat} {x2 : Nat} (k : Covers 0x80000000000000000000000000000000000000000000000000000000000000000000000000000000020000000000000000000000000 m) (h : Only m r s) : Only m r (State.trendLaser s x1 x2) := by
  unfold State.trendLaser
  try dsimp only
  repeat' (first
    | with_reducible assumption
    | with_reducible apply Only.ite
    | with_reducible refine State.wr_only _ _ _ (k.words (by decide)) ?_
    | with_reducible refine State.setLaserPos_only (k.sub (by decide)) ?_)

theorem laserDown_only {m : Nat} {r s : State} {x0 : Nat} (k : Covers 0x800000003c600000000000000000000310100000000000000060000000000000000000000010000000000004000000000c000000900000302ef1a0440819700800dd8400203 m) (h : Only m r s) : Only m r (laserDown x0 s) := by
  unfold laserDown
  try dsimp only
  repeat' (first
    | (intro _; try dsimp only)
    | with_reducible assumption
    | fail_if_no_progress (with_reducible refine Only.ocTo (by apply OpticalStOnly.of <;> first | exact .inl (k.bit (by decide)) | exact .inr rfl) ?_)
    | with_reducible apply Only.foldl
    | with_reducible refine State.goOnFailed_only (k.sub (by decide)) ?_
    | with_reducible refine State.goOnSwap_only (k.sub (by decide)) ?_
    | with_reducible refine State.emit_only _ (k.bit (i := 113) (by decide)) ?_)

theorem execLaserDownFrame_only {m : Nat} {r s : State} {x0 : Fin 4} (k : Covers 0x800000003c600000000000000000000310100000000000000060000000000000000000000010000000000004000000000c000000900000302ef1a0440819700800dd8400203 m) (h : Only m r s) : OnlyRes m r (execLaserDownFrame x0 s) := by
  unfold execLaserDownFrame
  try dsimp only
  repeat' (first
    | (intro _; try dsimp only)
    | with_reducible assumption
    | with_reducible refine whenLive_only (k.sub (by decide)) ?_ ?_
    | with_reducible refine laserDown_only (k.sub (by decide)) ?_)

theorem laserUp_only {m : Nat} {r s : State} {x0 : Nat} {x1 : List Byte} (k : Covers 0x800000003c6000000000000000000003d0100000000000000060000000000000000000000010000000000004000000000c000000900000302af1a044081b700800dd8400203 m) (h : Only m r s) : Only m r (laserUp x0 x1 s) := by
  unfold laserUp
  try dsimp only
  repeat' (first
    | (intro _; try dsimp only)
    | with_reducible assumption
    | with_reducible apply Only.foldl
    | with_reducible apply Only.ite
    | with_reducible refine State.draw_only (k.bit (i := 112) (by decide)) ?_
    | with_reducible refine State.readLaser_only (k.sub (by decide)) ?_
    | (with_reducible refine State.wrs_only _ (by simp only [List.forall_mem_cons, List.not_mem_nil, false_imp_iff, implies_true, and_true]; (repeat' apply And.intro) <;> exact k.words (by decide)) ?_)
    | with_reducible refine State.judgeLaser_only (k.sub (by decide)) ?_)

theorem execLaserUpFrame_only {m : Nat} {r s : State} {x0 : Fin 4} {x1 : List Byte} (k : Covers 0x800000003c6000000000000000000003d0100000000000000060000000000000000000000010000000000004000000000c000000900000302af1a044081b700800dd8400203 m) (h : Only m r s) : OnlyRes m r (execLaserUpFrame x0 x1 s) := by
  unfold execLaserUpFrame
  try dsimp only
  repeat' (first
    | (intro _; try dsimp only)
    | with_reducible assumption
    | with_reducible refine whenLive_only (k.sub (by decide)) ?_ ?_
    | with_reducible refine laserUp_only (k.sub (by decide)) ?_)

theorem execLaserLinkTimeout_only {m : Nat} {r s : State} {x0 : Fin 4} (k : Covers 0x30600000000000000000000040100000000000000000000000000000000000000010000000000000000000000c00000080000020000000000800700800418000200 m) (h : Only m r s) : OnlyRes m r (execLaserLinkTimeout x0 s) := by
  unfold execLaserLinkTimeout
  try dsimp only
  repeat' (first
    | (intro _; try dsimp only)
    | with_reducible assumption
    | with_reducible apply Only.ite
    | with_reducible refine whenLive_only (k.sub (by decide)) ?_ ?_
    | with_reducible refine State.leave_only (k.sub (by decide)) ?_
    | with_reducible refine State.raise_only (k.sub (by decide)) ?_
    | with_reducible refine State.setErr_only _ _ (k.err (by decide) (by decide)) ?_
    | with_reducible refine State.wr_only _ _ _ (k.words (by decide)) ?_)

theorem laserTrend_only {m : Nat} {r s : State} {x0 : Nat} (k : Covers 0x800000003c600000000000000000000390100000000000000060000000000000000000000010000000000004000000000c000000900000302af1a044081b700800dd8400203 m) (h : Only m r s) : Only m r (laserTrend x0 s) := by
  unfold laserTrend
  try dsimp only
  repeat' (first
    | (intro _; try dsimp only)
    | with_reducible assumption
    | with_reducible apply Only.foldl
    | with_reducible refine State.judgeLaser_only (k.sub (by decide)) ?_
    | with_reducible refine State.trendLaser_only (k.sub (by decide)) ?_)

theorem execLaserTrendSample_only {m : Nat} {r s : State} {x0 : Fin 4} (k : Covers 0x800000003c600000000000000000000390100000000000000060000000000000000000000010000000000004000000000c000000900000302af1a044081b700800dd8400203 m) (h : Only m r s) : OnlyRes m r (execLaserTrendSample x0 s) := by
  unfold execLaserTrendSample
  try dsimp only
  repeat' (first
    | (intro _; try dsimp only)
    | with_reducible assumption
    | with_reducible refine whenLive_only (k.sub (by decide)) ?_ ?_
    | with_reducible refine laserTrend_only (k.sub (by decide)) ?_)

theorem execLaserSpareAtPower_only {m : Nat} {r s : State} {x0 : Fin 4} {x1 : Fin 9} {x2 : Bool} (k : Covers 0x800000003c600000000000000000000390100000000000000060000000000000000000000010000000000004000000000c000000900000302af1a044081b700800dd8400203 m) (h : Only m r s) : OnlyRes m r (execLaserSpareAtPower x0 x1 x2 s) := by
  unfold execLaserSpareAtPower
  try dsimp only
  repeat' (first
    | (intro _; try dsimp only)
    | with_reducible assumption
    | with_reducible apply Only.ite
    | with_reducible refine whenLive_only (k.sub (by decide)) ?_ ?_
    | with_reducible refine State.spareTakes_only (k.sub (by decide)) ?_
    | with_reducible refine State.laserFails_only (k.sub (by decide)) ?_)

theorem execLaserSafetyCut_only {m : Nat} {r s : State} {x0 : Fin 4} {x1 : LaserCut} (k : Covers 0x800000003c6000000060000000000003d0100000000000000060000000000000000000000010000000000004000000000c000000900000302af1a044081b700800dd8400203 m) (h : Only m r s) : OnlyRes m r (execLaserSafetyCut x0 x1 s) := by
  unfold execLaserSafetyCut
  try dsimp only
  repeat' (first
    | (intro _; try dsimp only)
    | with_reducible assumption
    | with_reducible refine whenLive_only (k.sub (by decide)) ?_ ?_
    | with_reducible refine State.cutLaser_only (k.sub (by decide)) ?_
    | with_reducible refine State.interlockCut_only (k.sub (by decide)) ?_
    | split)

/-! ### Machine/Launch.lean -/

theorem State.dropUnfitFrame_only {m : Nat} {r s : State} {x1 : Nat} {x2 : Nat} {x3 : Nat} {x4 : Nat} {x5 : Landed} {x6 : Nat} {x7 : Nat} (k : Covers 0x60000000000000000000000000000000000000000000000000000000000000000000440000000000400000000 m) (h : Only m r s) : Only m r (State.dropUnfitFrame s x1 x2 x3 x4 x5 x6 x7) := by
  unfold State.dropUnfitFrame
  try dsimp only
  repeat' (first
    | with_reducible assumption
    | with_reducible apply Only.ite
    | with_reducible refine State.clDrop_only (k.sub (by decide)) ?_
    | with_reducible refine State.freeFrame_only (k.sub (by decide)) ?_
    | with_reducible refine State.setMooring_only (k.sub (by decide)) ?_)

theorem State.launchHeld_only {m : Nat} {r s : State} {x1 : GroupSt} {x2 : Desc} (k : Covers 0x90000020000000000000000000000000203 m) (h : Only m r s) : Only m r (State.launchHeld s x1 x2) := by
  unfold State.launchHeld
  try dsimp only
  repeat' (first
    | with_reducible assumption
    | with_reducible apply Only.ite
    | with_reducible refine State.complete_only (k.sub (by decide)) ?_)

theorem State.launchVersion_only {m : Nat} {r s : State} {x1 : Nat} {x2 : GroupSt} {x3 : Desc} {x4 : List Byte} (k : Covers 0x3460000000000000000000000000000209a000000300000040000000004000000000000020000000040000000c00000090000020000020c3f800700840478000203 m) (h : Only m r s) : Only m r (State.launchVersion s x1 x2 x3 x4) := by
  unfold State.launchVersion
  try dsimp only
  repeat' (first
    | with_reducible assumption
    | with_reducible refine State.modGroup_only (k.sub (by decide)) ?_
    | with_reducible refine State.memWrite_only (k.sub (by decide)) ?_
    | with_reducible refine State.spreadVersion_only (k.sub (by decide)) ?_
    | with_reducible refine State.modArmed_only (k.sub (by decide)) ?_)

theorem State.recheckLeg_only {m : Nat} {r s : State} {x1 : Nat} {x2 : Nat} {x3 : Nat} {x4 : Nat} (k : Covers 0x60000000000000000000000000000000000000000000000000000000000000000020440000000000400000000 m) (h : Only m r s) : Only m r (State.recheckLeg s x1 x2 x3 x4) := by
  unfold State.recheckLeg
  try dsimp only
  repeat' (first
    | (intro _; try dsimp only)
    | with_reducible assumption
    | with_reducible apply Only.foldl
    | with_reducible refine State.dropUnfitFrame_only (k.sub (by decide)) ?_
    | with_reducible refine State.clDrop_only (k.sub (by decide)) ?_
    | with_reducible refine State.freeEarly_only (k.sub (by decide)) ?_
    | split)

theorem State.recheckWaits_only {m : Nat} {r s : State} {x1 : Nat} {x2 : Nat} {x3 : Nat} {x4 : Nat} (k : Covers 0x60000000000000000000000010000000000000000000000000000000000020000180000000000800418000000 m) (h : Only m r s) : Only m r (State.recheckWaits s x1 x2 x3 x4) := by
  unfold State.recheckWaits
  try dsimp only
  repeat' (first
    | (intro _; try dsimp only)
    | with_reducible assumption
    | with_reducible apply Only.foldl
    | with_reducible apply Only.ite
    | with_reducible refine State.clDrop_only (k.sub (by decide)) ?_
    | with_reducible refine State.unwait_only (k.sub (by decide)) ?_
    | with_reducible refine State.dropFrame_only (k.sub (by decide)) ?_
    | with_reducible refine State.setInflight_only (k.sub (by decide)) ?_
    | split)

theorem State.launchOp_only {m : Nat} {r s : State} {x1 : Nat} {x2 : GroupSt} {x3 : Desc} {x4 : List Byte} (k : Covers 0x3600000400000000040000000100000200000000400000000000000900000200001a0c40000000840478000203 m) (h : Only m r s) : Only m r (State.launchOp s x1 x2 x3 x4) := by
  unfold State.launchOp
  try dsimp only
  repeat' (first
    | (intro _; try dsimp only)
    | with_reducible assumption
    | with_reducible apply Only.foldl
    | with_reducible apply Only.ite
    | with_reducible refine State.modOp_only (k.sub (by decide)) ?_
    | with_reducible refine State.modArmed_only (k.sub (by decide)) ?_
    | with_reducible refine State.showGroup_only (k.sub (by decide)) ?_
    | with_reducible refine State.settleBarrier_only (k.sub (by decide)) ?_
    | with_reducible refine State.recheckLeg_only (k.sub (by decide)) ?_
    | with_reducible refine State.advance_only (k.sub (by decide)) ?_
    | with_reducible refine State.recheckWaits_only (k.sub (by decide)) ?_)

theorem State.launchNext_only {m : Nat} {r s : State} {x1 : Nat} {x2 : GroupSt} {x3 : Armed} {x4 : Desc} {x5 : HostData} (k : Covers 0x3460000000000000000000000000000209a000000360000040000000004000000010000020000000040000000c000000900000200001a0c7f800700840478000203 m) (h : Only m r s) : Only m r (State.launchNext s x1 x2 x3 x4 x5) := by
  unfold State.launchNext
  try dsimp only
  repeat' (first
    | with_reducible assumption
    | with_reducible apply Only.ite
    | with_reducible refine State.complete_only (k.sub (by decide)) ?_
    | with_reducible refine State.launchVersion_only (k.sub (by decide)) ?_
    | with_reducible refine State.launchOp_only (k.sub (by decide)) ?_
    | split)

theorem State.launch_only {m : Nat} {r s : State} {x1 : Desc} {x2 : HostData} (k : Covers 0x3460000000000000000000000000000209a000000360000040000000004000000010000020000000040000000c000000900000200001a0c7f800700840478000203 m) (h : Only m r s) : Only m r (State.launch s x1 x2) := by
  unfold State.launch
  try dsimp only
  repeat' (first
    | with_reducible assumption
    | with_reducible apply Only.ite
    | with_reducible refine State.complete_only (k.sub (by decide)) ?_
    | with_reducible refine State.launchHeld_only (k.sub (by decide)) ?_
    | with_reducible refine State.launchNext_only (k.sub (by decide)) ?_
    | split)

theorem execCollectiveLaunch_only {m : Nat} {r s : State} {x0 : Fin 4096} {x1 : HostData} (k : Covers 0x3460000000000000000000000000000209a000000360000040000000004000000010000020000000040000000c000000900000200001a0c7f800700840478000203 m) (h : Only m r s) : OnlyRes m r (execCollectiveLaunch x0 x1 s) := by
  unfold execCollectiveLaunch
  try dsimp only
  repeat' (first
    | (intro _; try dsimp only)
    | with_reducible assumption
    | with_reducible refine runOpcode_only (k.sub (by decide)) ?_ ?_
    | with_reducible refine State.launch_only (k.sub (by decide)) ?_)

/-! ### Machine/Replies.lean -/

theorem State.ackMembers_only {m : Nat} {r s : State} {x1 : Nat} {x2 : List Nat} {x3 : Sceca} (k : Covers 0x300000040000000004000000000000020000000040000000000000090000020000020c40000000840478000203 m) (h : Only m r s) : Only m r (State.ackMembers s x1 x2 x3) := by
  unfold State.ackMembers
  try dsimp only
  repeat' (first
    | with_reducible assumption
    | with_reducible apply Only.ite
    | with_reducible refine State.settleBroadcast_only (k.sub (by decide)) ?_
    | with_reducible refine State.modGroup_only (k.sub (by decide)) ?_
    | with_reducible refine State.modOp_only (k.sub (by decide)) ?_
    | with_reducible refine State.acknowledge_only (k.sub (by decide)) ?_
    | split)

theorem State.countIn_only {m : Nat} {r s : State} {x1 : Nat} {x2 : Nat} {x3 : List Byte} {x4 : Hdr} {x5 : Sceca} {x6 : Bool} (k : Covers 0x3460000000000000000000000000000309a000000000000000000000000000000000000000000000000000000c0000008000002000000023f800700800428000200 m) (h : Only m r s) : Only m r (State.countIn s x1 x2 x3 x4 x5 x6) := by
  unfold State.countIn
  try dsimp only
  repeat' (first
    | with_reducible assumption
    | with_reducible apply Only.ite
    | with_reducible refine State.flowAdd_only (k.sub (by decide)) ?_
    | with_reducible refine State.returnCredit_only (k.sub (by decide)) ?_
    | with_reducible refine State.linkTake_only (k.sub (by decide)) ?_
    | with_reducible refine State.passFence_only (k.sub (by decide)) ?_
    | with_reducible refine State.countRx_only (k.sub (by decide)) ?_)

theorem State.noteCeOf_only {m : Nat} {r s : State} {x1 : Nat} {x2 : List Byte} {x3 : Sceca} (k : Covers 0x20000000000000000000000 m) (h : Only m r s) : Only m r (State.noteCeOf s x1 x2 x3) := by
  unfold State.noteCeOf
  try dsimp only
  repeat' (first
    | with_reducible assumption
    | with_reducible refine State.noteCe_only (k.sub (by decide)) ?_)

theorem State.refusedIn_only {m : Nat} {r s : State} {x1 : Nat} {x2 : Nat} {x3 : List Byte} {x4 : Sceca} (k : Covers 0x20000000000000000000000000000000000000000000400000000 m) (h : Only m r s) : ∀ t, State.refusedIn s x1 x2 x3 x4 = some t → Only m r t := by
  intro t e
  unfold State.refusedIn at e
  cases w : State.refusedAtHead s x1 x2 x4 with
  | some u =>
    rw [w] at e
    simp only [Option.some_or, Option.some.injEq] at e
    subst e
    exact State.refusedAtHead_only_eq (k.sub (by decide)) w h
  | none =>
    rw [w] at e
    simp only [Option.none_or] at e
    split at e
    · cases e; exact State.portAdd_only (k.sub (by decide)) h
    · split at e
      · cases e
      · cases e; exact State.portAdd_only (k.sub (by decide)) h

theorem State.refusedIn_only_eq {m : Nat} {r s : State} {x1 : Nat} {x2 : Nat} {x3 : List Byte} {x4 : Sceca} (k : Covers 0x20000000000000000000000000000000000000000000400000000 m) {t : State} (e : State.refusedIn s x1 x2 x3 x4 = some t) (h : Only m r s) : Only m r t :=
  State.refusedIn_only k h t e

theorem State.relayResult_only {m : Nat} {r s : State} {x1 : Nat} {x2 : OpSt} {x3 : Nat} {x4 : Sceca} {x5 : List Byte} (k : Covers 0x20000000040000000000000000000000000000800000000840478000000 m) (h : Only m r s) : Only m r (State.relayResult s x1 x2 x3 x4 x5) := by
  unfold State.relayResult
  try dsimp only
  repeat' (first
    | with_reducible assumption
    | with_reducible refine State.originate_only (k.sub (by decide)) ?_
    | split)

theorem State.relayTo_only {m : Nat} {r s : State} {x1 : Nat} {x2 : List Byte} {x3 : OpSt} {x4 : Sceca} {x5 : List Byte} (k : Covers 0x20000000040000000000000000000000000000800000000840478000000 m) (h : Only m r s) : Only m r (State.relayTo s x1 x2 x3 x4 x5) := by
  unfold State.relayTo
  try dsimp only
  repeat' (first
    | (intro _; try dsimp only)
    | with_reducible assumption
    | with_reducible apply Only.foldl
    | with_reducible apply Only.ite
    | with_reducible refine State.sendRecord_only (k.sub (by decide)) ?_
    | with_reducible refine State.relayResult_only (k.sub (by decide)) ?_)

theorem State.requestRound_only {m : Nat} {r s : State} {x1 : Nat} {x2 : Nat} {x3 : Nat} {x4 : Use} {x5 : List (Nat × Nat)} (k : Covers 0x30600000000000000000000000000000000000000020000000000000000000000000000020000000040000000000000080000020000020c40000700840478000200 m) (h : Only m r s) : Only m r (State.requestRound s x1 x2 x3 x4 x5) := by
  unfold State.requestRound
  try dsimp only
  repeat' (first
    | (intro _; try dsimp only)
    | with_reducible assumption
    | with_reducible apply Only.foldl
    | with_reducible apply Only.ite
    | with_reducible refine State.askSource_only (k.sub (by decide)) ?_
    | with_reducible refine State.modLeg_only (k.sub (by decide)) ?_
    | with_reducible refine State.raise_only (k.sub (by decide)) ?_
    | with_reducible refine State.setErr_only _ _ (k.err (by decide) (by decide)) ?_)

theorem State.rerunOp_only {m : Nat} {r s : State} {x1 : Nat} {x2 : List Byte} {x3 : OpSt} (k : Covers 0x300000040000000004000000000000020000000040000000000000090000020000020c40000000840478000203 m) (h : Only m r s) : Only m r (State.rerunOp s x1 x2 x3) := by
  unfold State.rerunOp
  try dsimp only
  repeat' (first
    | with_reducible assumption
    | with_reducible apply Only.ite
    | with_reducible refine State.modOp_only (k.sub (by decide)) ?_
    | with_reducible refine State.produce_only (k.sub (by decide)) ?_
    | with_reducible refine State.advance_only (k.sub (by decide)) ?_
    | with_reducible refine State.startRerun_only (k.sub (by decide)) ?_)

theorem State.resendVersion_only {m : Nat} {r s : State} {x1 : Nat} {x2 : GroupSt} {x3 : Nat} (k : Covers 0x30600000000000000000000000000000000000000020000000000000000000000000000020000000040000000000000080000020000020800000700840478000200 m) (h : Only m r s) : Only m r (State.resendVersion s x1 x2 x3) := by
  unfold State.resendVersion
  try dsimp only
  repeat' (first
    | with_reducible assumption
    | with_reducible apply Only.ite
    | with_reducible refine State.sendVersion_only (k.sub (by decide)) ?_
    | with_reducible refine State.modGroup_only (k.sub (by decide)) ?_
    | with_reducible refine State.raise_only (k.sub (by decide)) ?_
    | with_reducible refine State.setErr_only _ _ (k.err (by decide) (by decide)) ?_)

theorem State.takeControl_only {m : Nat} {r s : State} {x1 : Nat} {x2 : Nat} {x3 : List Byte} {x4 : Hdr} {x5 : Sceca} {x6 : List Byte → Sceca → State → State} (k : Covers 0x3460000000000000000000000000000309a000000000000000000000000000000000000000000020000000000c0000008000002000000023f800700800428000200 m) (hx6 : ∀ a0 a1 t, Only m r t → Only m r (x6 a0 a1 t)) (h : Only m r s) : Only m r (State.takeControl s x1 x2 x3 x4 x5 x6) := by
  unfold State.takeControl
  try dsimp only
  repeat' (first
    | with_reducible apply hx6
    | with_reducible assumption
    | with_reducible refine State.refusedIn_only_eq (k.sub (by decide)) (by assumption) ?_
    | with_reducible refine State.countIn_only (k.sub (by decide)) ?_
    | split)

theorem State.takeVersion_only {m : Nat} {r s : State} {x1 : Nat} {x2 : Nat} {x3 : List Byte} (k : Covers 0x3460000000000000000000000000000209a000000300000040000000004000000000000020000000040000000c00000090000020000020c3f800700840478000203 m) (h : Only m r s) : Only m r (State.takeVersion s x1 x2 x3) := by
  unfold State.takeVersion
  try dsimp only
  repeat' (first
    | with_reducible assumption
    | with_reducible refine State.modGroup_only (k.sub (by decide)) ?_
    | with_reducible refine State.memWrite_only (k.sub (by decide)) ?_
    | with_reducible refine State.spreadVersion_only (k.sub (by decide)) ?_
    | with_reducible refine State.modArmed_only (k.sub (by decide)) ?_)

theorem broadcastIn_only {m : Nat} {r s : State} {x0 : Nat} {x1 : List Byte} {x2 : List Byte} {x3 : List Byte} {x4 : Sceca} (k : Covers 0x3460000000000000000000000000000209a000000360000040000000004000000000000020000000040000000c00000090000020000020c3f800700840478000203 m) (h : Only m r s) : Only m r (broadcastIn x0 x1 x2 x3 x4 s) := by
  unfold broadcastIn
  try dsimp only
  repeat' (first
    | with_reducible assumption
    | with_reducible apply Only.ite
    | with_reducible refine State.clDrop_only (k.sub (by decide)) ?_
    | with_reducible refine State.hopAck_only (k.sub (by decide)) ?_
    | with_reducible refine State.modGroup_only (k.sub (by decide)) ?_
    | with_reducible refine State.takeVersion_only (k.sub (by decide)) ?_
    | split)

theorem broadcastResend_only {m : Nat} {r s : State} {x0 : Nat} (k : Covers 0x30600000000000000000000000000000000000000020000000000000000000000000000020000000040000000000000080000020000020800000700840478000200 m) (h : Only m r s) : Only m r (broadcastResend x0 s) := by
  unfold broadcastResend
  try dsimp only
  repeat' (first
    | (intro _; try dsimp only)
    | with_reducible assumption
    | with_reducible apply Only.foldl
    | with_reducible apply Only.ite
    | with_reducible refine State.resendVersion_only (k.sub (by decide)) ?_
    | split)

theorem controlIn_only {m : Nat} {r s : State} {x0 : Nat} {x1 : Nat} {x2 : Option (BitVec 48)} {x3 : List Byte} {x4 : List Byte → Sceca → State → State} (k : Covers 0x3460000000000000000000000000000309a000000000000000000000000000000000000000000020000000000c0000008000002000000023f800700800428000200 m) (hx4 : ∀ a0 a1 t, Only m r t → Only m r (x4 a0 a1 t)) (h : Only m r s) : Only m r (controlIn x0 x1 x2 x3 x4 s) := by
  unfold controlIn
  try dsimp only
  repeat' (first
    | (intro _; try dsimp only)
    | with_reducible apply hx4
    | with_reducible assumption
    | with_reducible apply Only.ite
    | with_reducible refine State.takeControl_only (k.sub (by decide)) ?_ ?_
    | with_reducible refine State.linkDuplicate_only (k.sub (by decide)) ?_
    | with_reducible refine State.tagReject_only (k.sub (by decide)) ?_
    | split)

theorem replayTimer_only {m : Nat} {r s : State} {x0 : Nat} {x1 : Nat} {x2 : Nat} (k : Covers 0x30600000000000000000000000000000000000000020000000000000000000000000000020000000040000000000000080000020000020c40000700840478000200 m) (h : Only m r s) : Only m r (replayTimer x0 x1 x2 s) := by
  unfold replayTimer
  try dsimp only
  repeat' (first
    | with_reducible assumption
    | with_reducible apply Only.ite
    | with_reducible refine State.requestRound_only (k.sub (by decide)) ?_
    | split)

theorem execReplayTimer_only {m : Nat} {r s : State} {x0 : Fin 32768} {x1 : Fin 33} {x2 : Fin 2} (k : Covers 0x30600000000000000000000000000000000000000020000000000000000000000000000020000000040000000000000080000020000020c40000700840478000200 m) (h : Only m r s) : OnlyRes m r (execReplayTimer x0 x1 x2 s) := by
  unfold execReplayTimer
  try dsimp only
  repeat' (first
    | (intro _; try dsimp only)
    | with_reducible assumption
    | with_reducible refine whenLive_only (k.sub (by decide)) ?_ ?_
    | with_reducible refine replayTimer_only (k.sub (by decide)) ?_)

theorem replayIn_only {m : Nat} {r s : State} {x0 : Nat} {x1 : List Byte} {x2 : List Byte} {x3 : Sceca} (k : Covers 0x360000040000000004000000000000020000000040000000000000090000020000020c40000000840478000203 m) (h : Only m r s) : Only m r (replayIn x0 x1 x2 x3 s) := by
  unfold replayIn
  try dsimp only
  repeat' (first
    | with_reducible assumption
    | with_reducible apply Only.ite
    | with_reducible refine State.clDrop_only (k.sub (by decide)) ?_
    | with_reducible refine State.portAdd_only (k.sub (by decide)) ?_
    | with_reducible refine State.rerunOp_only (k.sub (by decide)) ?_
    | with_reducible refine State.noteCeOf_only (k.sub (by decide)) ?_
    | split)

theorem execReplayRequestReceived_only {m : Nat} {r s : State} {x0 : Fin 1024} {x1 : Option (BitVec 48)} {x2 : List Byte} (k : Covers 0x3460000000000000000000000000000309a000000360000040000000004000000000000020000020040000000c00000090000020000020e7f800700840478000203 m) (h : Only m r s) : OnlyRes m r (execReplayRequestReceived x0 x1 x2 s) := by
  unfold execReplayRequestReceived
  try dsimp only
  repeat' (first
    | (intro _; try dsimp only)
    | with_reducible assumption
    | with_reducible refine whenLive_only (k.sub (by decide)) ?_ ?_
    | with_reducible refine controlIn_only (k.sub (by decide)) ?_ ?_
    | with_reducible refine replayIn_only (k.sub (by decide)) ?_)

theorem hopAckIn_only {m : Nat} {r s : State} {x0 : Nat} {x1 : List Byte} {x2 : List Byte} {x3 : Sceca} (k : Covers 0x360000040000000004000000000000020000000040000000000000090000020000020c40000000840478000203 m) (h : Only m r s) : Only m r (hopAckIn x0 x1 x2 x3 s) := by
  unfold hopAckIn
  try dsimp only
  repeat' (first
    | with_reducible assumption
    | with_reducible apply Only.ite
    | with_reducible refine State.noteCeOf_only (k.sub (by decide)) ?_
    | with_reducible refine State.ackMembers_only (k.sub (by decide)) ?_
    | with_reducible refine State.clDrop_only (k.sub (by decide)) ?_
    | split)

theorem execHopAckReceived_only {m : Nat} {r s : State} {x0 : Fin 1024} {x1 : Option (BitVec 48)} {x2 : List Byte} (k : Covers 0x3460000000000000000000000000000309a000000360000040000000004000000000000020000020040000000c00000090000020000020e7f800700840478000203 m) (h : Only m r s) : OnlyRes m r (execHopAckReceived x0 x1 x2 s) := by
  unfold execHopAckReceived
  try dsimp only
  repeat' (first
    | (intro _; try dsimp only)
    | with_reducible assumption
    | with_reducible refine whenLive_only (k.sub (by decide)) ?_ ?_
    | with_reducible refine controlIn_only (k.sub (by decide)) ?_ ?_
    | with_reducible refine hopAckIn_only (k.sub (by decide)) ?_)

theorem resultIn_only {m : Nat} {r s : State} {x0 : Nat} {x1 : List Byte} {x2 : List Byte} {x3 : Sceca} (k : Covers 0x60000000000000000000000000000020000000040000000000000000000000000020800000000840478000000 m) (h : Only m r s) : Only m r (resultIn x0 x1 x2 x3 s) := by
  unfold resultIn
  try dsimp only
  repeat' (first
    | with_reducible assumption
    | with_reducible apply Only.ite
    | with_reducible refine State.clDrop_only (k.sub (by decide)) ?_
    | with_reducible refine State.relayTo_only (k.sub (by decide)) ?_
    | with_reducible refine State.noteCeOf_only (k.sub (by decide)) ?_
    | split)

theorem execResultWriteReceived_only {m : Nat} {r s : State} {x0 : Fin 1024} {x1 : Option (BitVec 48)} {x2 : List Byte} (k : Covers 0x3460000000000000000000000000000309a000000060000000000000000000000000000020000020040000000c00000080000020000020a3f800700840478000200 m) (h : Only m r s) : OnlyRes m r (execResultWriteReceived x0 x1 x2 s) := by
  unfold execResultWriteReceived
  try dsimp only
  repeat' (first
    | (intro _; try dsimp only)
    | with_reducible assumption
    | with_reducible refine whenLive_only (k.sub (by decide)) ?_ ?_
    | with_reducible refine controlIn_only (k.sub (by decide)) ?_ ?_
    | with_reducible refine resultIn_only (k.sub (by decide)) ?_)

theorem execBroadcastReceived_only {m : Nat} {r s : State} {x0 : Fin 1024} {x1 : Option (BitVec 48)} {x2 : List Byte} (k : Covers 0x3460000000000000000000000000000309a000000360000040000000004000000000000020000020040000000c00000090000020000020e3f800700840478000203 m) (h : Only m r s) : OnlyRes m r (execBroadcastReceived x0 x1 x2 s) := by
  unfold execBroadcastReceived
  try dsimp only
  repeat' (first
    | (intro _; try dsimp only)
    | with_reducible assumption
    | with_reducible refine whenLive_only (k.sub (by decide)) ?_ ?_
    | with_reducible refine controlIn_only (k.sub (by decide)) ?_ ?_
    | with_reducible refine broadcastIn_only (k.sub (by decide)) ?_)

theorem execBroadcastResend_only {m : Nat} {r s : State} {x0 : Fin 32768} (k : Covers 0x30600000000000000000000000000000000000000020000000000000000000000000000020000000040000000000000080000020000020800000700840478000200 m) (h : Only m r s) : OnlyRes m r (execBroadcastResend x0 s) := by
  unfold execBroadcastResend
  try dsimp only
  repeat' (first
    | (intro _; try dsimp only)
    | with_reducible assumption
    | with_reducible refine whenLive_only (k.sub (by decide)) ?_ ?_
    | with_reducible refine broadcastResend_only (k.sub (by decide)) ?_)

/-! ### Machine/Drain.lean -/

theorem State.setPart_only {m : Nat} {r s : State} {x1 : Nat} {x2 : Part} (k : Covers 0x80 m) (h : Only m r s) : Only m r (State.setPart s x1 x2) := by
  unfold State.setPart
  try dsimp only
  repeat' (first
    | with_reducible assumption
    | fail_if_no_progress (with_reducible refine Only.hiTo (by apply HostStOnly.of <;> first | exact .inl (k.bit (by decide)) | exact .inr rfl) ?_))

theorem State.retainGroup_only {m : Nat} {r s : State} {x1 : Nat} {x2 : Nat} (k : Covers 0x300000000000000000000000000000000000000000000000000000000000000000420000000000000000000000 m) (h : Only m r s) : Only m r (State.retainGroup s x1 x2) := by
  unfold State.retainGroup
  try dsimp only
  repeat' (first
    | with_reducible assumption
    | fail_if_no_progress (with_reducible refine Only.clTo (by apply CollectiveStOnly.of <;> first | exact .inl (k.bit (by decide)) | exact .inr rfl) ?_)
    | with_reducible refine State.showGroup_only (k.sub (by decide)) ?_
    | with_reducible refine State.modGroup_only (k.sub (by decide)) ?_)

theorem State.settleRetain_only {m : Nat} {r s : State} {x1 : Nat} (k : Covers 0x300000000000000000000000000000000000000000000000000000000000000000420000000000000000000000 m) (h : Only m r s) : Only m r (State.settleRetain s x1) := by
  unfold State.settleRetain
  try dsimp only
  repeat' (first
    | (intro _; try dsimp only)
    | with_reducible assumption
    | with_reducible apply Only.foldl
    | with_reducible apply Only.ite
    | with_reducible refine State.retainGroup_only (k.sub (by decide)) ?_
    | split)

theorem State.beginDrain_only {m : Nat} {r s : State} {x1 : Nat} (k : Covers 0x3460000000000000000000000000000209a00000036000004000000001c000000010000020000000040000000c000000900000200007a0c7f800700840478000283 m) (h : Only m r s) : Only m r (State.beginDrain s x1) := by
  unfold State.beginDrain
  try dsimp only
  repeat' (first
    | (intro _; try dsimp only)
    | with_reducible assumption
    | fail_if_no_progress (with_reducible refine Only.clTo (by apply CollectiveStOnly.of <;> first | exact .inl (k.bit (by decide)) | exact .inr rfl) ?_)
    | with_reducible apply Only.foldl
    | with_reducible refine State.setPart_only (k.sub (by decide)) ?_
    | with_reducible refine State.complete_only (k.sub (by decide)) ?_
    | with_reducible refine State.beginRelease_only (k.sub (by decide)) ?_
    | with_reducible refine State.resteer_only (k.sub (by decide)) ?_
    | with_reducible refine State.settleRetain_only (k.sub (by decide)) ?_)

theorem State.discardRetained_only {m : Nat} {r s : State} {x1 : Nat} (k : Covers 0x300000000000000000000000000000000000000000000000000000000000000000020000000000000000000000 m) (h : Only m r s) : Only m r (State.discardRetained s x1) := by
  unfold State.discardRetained
  try dsimp only
  repeat' (first
    | (intro _; try dsimp only)
    | with_reducible assumption
    | with_reducible apply Only.foldl
    | with_reducible refine State.dropGroup_only (k.sub (by decide)) ?_)

theorem State.countRelease_only {m : Nat} {r s : State} {x1 : Nat} (k : Covers 0x200000000000000000000000 m) (h : Only m r s) : Only m r (State.countRelease s x1) := by
  unfold State.countRelease
  try dsimp only
  repeat' (first
    | with_reducible assumption
    | fail_if_no_progress (with_reducible refine Only.clTo (by apply CollectiveStOnly.of <;> first | exact .inl (k.bit (by decide)) | exact .inr rfl) ?_))

theorem State.dropVoidParts_only {m : Nat} {r s : State} {x1 : Nat} {x2 : List Nat} (k : Covers 0x800000000000000000000 m) (h : Only m r s) : Only m r (State.dropVoidParts s x1 x2) := by
  unfold State.dropVoidParts
  try dsimp only
  repeat' (first
    | with_reducible assumption
    | with_reducible apply Only.ite
    | with_reducible refine State.modMslot_only (k.sub (by decide)) ?_
    | split)

theorem State.tellLost_only {m : Nat} {r s : State} {x1 : Nat} {x2 : GroupSt} {x3 : Nat} (k : Covers 0x20000000040000000000000090000020000000800000000840478000203 m) (h : Only m r s) : Only m r (State.tellLost s x1 x2 x3) := by
  unfold State.tellLost
  try dsimp only
  repeat' (first
    | (intro _; try dsimp only)
    | with_reducible assumption
    | with_reducible apply Only.foldl
    | with_reducible refine State.hopAck_only (k.sub (by decide)) ?_
    | with_reducible refine State.endLaunches_only (k.sub (by decide)) ?_)

theorem State.loseContexts_only {m : Nat} {r s : State} {x1 : Nat} {x2 : List Nat} (k : Covers 0x30600000000000000000000000000000000000000320000040000000004000000000000020000000040000000000000090000020000020c00000700840478000203 m) (h : Only m r s) : Only m r (State.loseContexts s x1 x2) := by
  unfold State.loseContexts
  try dsimp only
  repeat' (first
    | (intro _; try dsimp only)
    | with_reducible assumption
    | with_reducible apply Only.foldl
    | with_reducible apply Only.ite
    | with_reducible refine State.setErr_only _ _ (k.err (by decide) (by decide)) ?_
    | with_reducible refine State.modArmed_only (k.sub (by decide)) ?_
    | with_reducible refine State.raise_only (k.sub (by decide)) ?_
    | with_reducible refine State.tellLost_only (k.sub (by decide)) ?_
    | with_reducible refine State.settleRelease_only (k.sub (by decide)) ?_
    | with_reducible refine State.showGroup_only (k.sub (by decide)) ?_
    | with_reducible refine State.dropVoidParts_only (k.sub (by decide)) ?_
    | split)

theorem State.loseTile_only {m : Nat} {r s : State} {x1 : Nat} (k : Covers 0x30600000000000000000000000000000000000000320000040000000004000000000000020000000040000000000000090000020000020c00000700840478000203 m) (h : Only m r s) : Only m r (State.loseTile s x1) := by
  unfold State.loseTile
  try dsimp only
  repeat' (first
    | (intro _; try dsimp only)
    | with_reducible assumption
    | with_reducible apply Only.foldl
    | with_reducible apply Only.ite
    | with_reducible refine State.loseContexts_only (k.sub (by decide)) ?_)

theorem State.recheckContexts_only {m : Nat} {r s : State} (k : Covers 0x30600000000000000000000000000000000000000320000040000000004000000000000020000000040000000000000090000020000020c00000700840478000203 m) (h : Only m r s) : Only m r (State.recheckContexts s) := by
  unfold State.recheckContexts
  try dsimp only
  repeat' (first
    | (intro _; try dsimp only)
    | with_reducible assumption
    | with_reducible apply Only.foldl
    | with_reducible refine State.loseContexts_only (k.sub (by decide)) ?_)

theorem contextRelease_only {m : Nat} {r s : State} {x0 : Nat} (k : Covers 0x300000040000000004000000000000000000000000000000000000090000020000620c00000000000000000203 m) (h : Only m r s) : Only m r (contextRelease x0 s) := by
  unfold contextRelease
  try dsimp only
  repeat' (first
    | (intro _; try dsimp only)
    | with_reducible assumption
    | with_reducible apply Only.foldl
    | with_reducible apply Only.ite
    | with_reducible refine State.showGroup_only (k.sub (by decide)) ?_
    | with_reducible refine State.releaseLeg_only (k.sub (by decide)) ?_
    | with_reducible refine State.countRelease_only (k.sub (by decide)) ?_
    | with_reducible refine State.settleRetain_only (k.sub (by decide)) ?_
    | with_reducible refine State.complete_only (k.sub (by decide)) ?_
    | with_reducible refine State.releaseContexts_only (k.sub (by decide)) ?_
    | split)

theorem drainComplete_only {m : Nat} {r s : State} {x0 : Nat} (k : Covers 0x90000020000200000000000000000000283 m) (h : Only m r s) : Only m r (drainComplete x0 s) := by
  unfold drainComplete
  try dsimp only
  repeat' (first
    | (intro _; try dsimp only)
    | with_reducible assumption
    | fail_if_no_progress (with_reducible refine Only.clTo (by apply CollectiveStOnly.of <;> first | exact .inl (k.bit (by decide)) | exact .inr rfl) ?_)
    | with_reducible apply Only.foldl
    | with_reducible apply Only.ite
    | with_reducible refine State.complete_only (k.sub (by decide)) ?_
    | with_reducible refine State.setPart_only (k.sub (by decide)) ?_
    | split)

theorem execPartitionDrain_only {m : Nat} {r s : State} {x0 : Fin 4096} (k : Covers 0x3460000000000000000000000000000209a00000036000004000000001c000000010000020000000040000000c000000900000200007a0c7f800700840478000283 m) (h : Only m r s) : OnlyRes m r (execPartitionDrain x0 s) := by
  unfold execPartitionDrain
  try dsimp only
  repeat' (first
    | (intro _; try dsimp only)
    | with_reducible assumption
    | with_reducible refine runOpcode_only (k.sub (by decide)) ?_ ?_
    | with_reducible refine State.complete_only (k.sub (by decide)) ?_
    | with_reducible refine State.beginDrain_only (k.sub (by decide)) ?_
    | split)

theorem execDrainContextRelease_only {m : Nat} {r s : State} {x0 : Fin 256} (k : Covers 0x300000040000000004000000000000000000000000000000000000090000020000620c00000000000000000203 m) (h : Only m r s) : OnlyRes m r (execDrainContextRelease x0 s) := by
  unfold execDrainContextRelease
  try dsimp only
  repeat' (first
    | (intro _; try dsimp only)
    | with_reducible assumption
    | with_reducible refine whenLive_only (k.sub (by decide)) ?_ ?_
    | with_reducible refine contextRelease_only (k.sub (by decide)) ?_)

theorem execDrainComplete_only {m : Nat} {r s : State} {x0 : Fin 256} (k : Covers 0x90000020000200000000000000000000283 m) (h : Only m r s) : OnlyRes m r (execDrainComplete x0 s) := by
  unfold execDrainComplete
  try dsimp only
  repeat' (first
    | (intro _; try dsimp only)
    | with_reducible assumption
    | with_reducible refine whenLive_only (k.sub (by decide)) ?_ ?_
    | with_reducible refine drainComplete_only (k.sub (by decide)) ?_)

theorem execRetainedGroupExpiry_only {m : Nat} {r s : State} {x0 : Fin 256} (k : Covers 0x300000000000000000000000000000000000000000000000000000000000000000020000000000000000000000 m) (h : Only m r s) : OnlyRes m r (execRetainedGroupExpiry x0 s) := by
  unfold execRetainedGroupExpiry
  try dsimp only
  repeat' (first
    | (intro _; try dsimp only)
    | with_reducible assumption
    | with_reducible apply Only.ite
    | with_reducible refine whenLive_only (k.sub (by decide)) ?_ ?_
    | with_reducible refine State.discardRetained_only (k.sub (by decide)) ?_)

/-! ### Machine/Tile.lean -/

theorem State.modRun_only {m : Nat} {r s : State} {x1 : Nat} {x2 : EpochRun → EpochRun} (k : Covers 0x800000000000000000000 m) (h : Only m r s) : Only m r (State.modRun s x1 x2) := by
  unfold State.modRun
  try dsimp only
  repeat' (first
    | with_reducible assumption
    | with_reducible refine State.modMslot_only (k.sub (by decide)) ?_)

theorem State.releaseCharge_only {m : Nat} {r s : State} {x1 : Nat} (k : Covers 0x10000000000000000000000000000000000020000000800000000000408000000 m) (h : Only m r s) : Only m r (State.releaseCharge s x1) := by
  unfold State.releaseCharge
  try dsimp only
  repeat' (first
    | (intro _; try dsimp only)
    | with_reducible assumption
    | with_reducible apply Only.foldl
    | with_reducible refine State.modRun_only (k.sub (by decide)) ?_
    | with_reducible refine State.settleAllPfc_only (k.sub (by decide)) ?_
    | with_reducible refine State.wr_only _ _ _ (k.words (by decide)) ?_
    | split)

theorem State.voidEpoch_only {m : Nat} {r s : State} {x1 : Nat} (k : Covers 0x30600000000000000000000000000000000000000000000100200000000000000010000000000000000000000000000080000020000020800000700000408000200 m) (h : Only m r s) : Only m r (State.voidEpoch s x1) := by
  unfold State.voidEpoch
  try dsimp only
  repeat' (first
    | (intro _; try dsimp only)
    | with_reducible assumption
    | with_reducible apply Only.foldl
    | with_reducible apply Only.ite
    | with_reducible refine State.modRun_only (k.sub (by decide)) ?_
    | with_reducible refine State.releaseCharge_only (k.sub (by decide)) ?_
    | with_reducible refine State.modOp_only (k.sub (by decide)) ?_
    | with_reducible refine State.raise_only (k.sub (by decide)) ?_
    | with_reducible refine State.addSat_only _ _ _ (k.words (by decide)) ?_
    | with_reducible refine State.setErr_only _ _ (k.err (by decide) (by decide)) ?_
    | split)

theorem State.checkFails_only {m : Nat} {r s : State} {x1 : Issue} {x2 : LiveSlot} {x3 : Fld} {x4 : Nat} (k : Covers 0x38600000000000000000000000000000000000000000000100200000010000000010000000000000000000000000000080000020000020800010700000408000200 m) (g3 : GrantsErr m x3.reg) (h : Only m r s) : Only m r (State.checkFails s x1 x2 x3 x4) := by
  unfold State.checkFails
  try dsimp only
  repeat' (first
    | with_reducible assumption
    | with_reducible refine State.addWrap_only _ _ _ (k.words (by decide)) ?_
    | with_reducible refine State.setErr_only _ _ (by assumption) ?_
    | with_reducible refine State.raise_only (k.sub (by decide)) ?_
    | with_reducible refine State.queueRecovery_only (k.sub (by decide)) ?_
    | with_reducible refine State.voidEpoch_only (k.sub (by decide)) ?_)

theorem State.epochRead_only {m : Nat} {r s : State} {x1 : Bool} {x2 : Nat} {x3 : Nat} {x4 : Nat} (k : Covers 0x3460000000000000000000000000000209a000000000000000000000000000000000000000000000000000000c0000008000002000000003b800700000000000200 m) (h : Only m r s) : ∀ t, State.epochRead s x1 x2 x3 x4 = some t → Only m r t := by
  intro t e
  unfold State.epochRead at e
  try dsimp only at e
  repeat' split at e
  all_goals try (simp only [Option.some.injEq, reduceCtorEq] at e)
  all_goals first | contradiction | skip
  all_goals try subst e
  all_goals try dsimp only
  all_goals (
    repeat' (first
      | with_reducible assumption
      | with_reducible refine State.readRange_only (k.sub (by decide)) ?_))

theorem State.epochRead_only_eq {m : Nat} {r s : State} {x1 : Bool} {x2 : Nat} {x3 : Nat} {x4 : Nat} (k : Covers 0x3460000000000000000000000000000209a000000000000000000000000000000000000000000000000000000c0000008000002000000003b800700000000000200 m) {t : State} (e : State.epochRead s x1 x2 x3 x4 = some t) (h : Only m r s) : Only m r t :=
  State.epochRead_only k h t e

theorem State.sramLost_only {m : Nat} {r s : State} {x1 : Issue} {x2 : LiveSlot} (k : Covers 0x30600000000000000000000000000000000000000000000100200000008000000010000000000000000000000000000080000020000020800000700000408000200 m) (h : Only m r s) : Only m r (State.sramLost s x1 x2) := by
  unfold State.sramLost
  try dsimp only
  repeat' (first
    | with_reducible assumption
    | with_reducible refine State.raise_only (k.sub (by decide)) ?_
    | with_reducible refine State.setErr_only _ _ (k.err (by decide) (by decide)) ?_
    | with_reducible refine State.voidEpoch_only (k.sub (by decide)) ?_)

theorem State.frameLost_only {m : Nat} {r s : State} {x1 : Issue} {x2 : LiveSlot} {x3 : Landed} (k : Covers 0x30600000000000000000000000000000000000000000000100200000008000000010000020000000040000000000000080000020000020c40000700840478000200 m) (h : Only m r s) : Only m r (State.frameLost s x1 x2 x3) := by
  unfold State.frameLost
  try dsimp only
  repeat' (first
    | with_reducible assumption
    | with_reducible refine State.freeFrame_only (k.sub (by decide)) ?_
    | with_reducible refine State.sramLost_only (k.sub (by decide)) ?_
    | with_reducible refine State.setMooring_only (k.sub (by decide)) ?_
    | with_reducible refine State.askSource_only (k.sub (by decide)) ?_
    | with_reducible refine State.modLeg_only (k.sub (by decide)) ?_)

theorem State.scramble_only {m : Nat} {r s : State} {x1 : Nat} (k : Covers 0x10000000400000000000000000000 m) (h : Only m r s) : Only m r (State.scramble s x1) := by
  unfold State.scramble
  try dsimp only
  repeat' (first
    | with_reducible assumption
    | with_reducible refine State.draw_only (k.bit (i := 112) (by decide)) ?_
    | with_reducible refine State.modTile_only (k.sub (by decide)) ?_)

theorem State.modLive_only {m : Nat} {r s : State} {x1 : Nat} {x2 : Nat} {x3 : LiveSlot → LiveSlot} (k : Covers 0x800000000000000000000 m) (h : Only m r s) : Only m r (State.modLive s x1 x2 x3) := by
  unfold State.modLive
  try dsimp only
  repeat' (first
    | with_reducible assumption
    | with_reducible refine State.modRun_only (k.sub (by decide)) ?_)

theorem State.passIssue_only {m : Nat} {r s : State} {x1 : Issue} {x2 : Bool} {x3 : Nat} (k : Covers 0x800000000000000000000 m) (h : Only m r s) : Only m r (State.passIssue s x1 x2 x3) := by
  unfold State.passIssue
  try dsimp only
  repeat' (first
    | with_reducible assumption
    | with_reducible refine State.modRun_only (k.sub (by decide)) ?_)

theorem State.readFails_only {m : Nat} {r s : State} {x1 : Nat} {x2 : Nat} {x3 : Nat} (k : Covers 0x30600000000000000000000000000000018000000000000100200000000000000010000000000000000000000000000080000020000020800000700000408000200 m) (h : Only m r s) : Only m r (State.readFails s x1 x2 x3) := by
  unfold State.readFails
  try dsimp only
  repeat' (first
    | with_reducible assumption
    | with_reducible refine State.voidEpoch_only (k.sub (by decide)) ?_
    | with_reducible refine State.uncorrectable_only (k.sub (by decide)) ?_
    | split)

theorem State.sendDown_only {m : Nat} {r s : State} {x1 : Issue} {x2 : LiveSlot} {x3 : Staging} (k : Covers 0x20000000040000000000000000000000000000800000000840478000000 m) (h : Only m r s) : Only m r (State.sendDown s x1 x2 x3) := by
  unfold State.sendDown
  try dsimp only
  repeat' (first
    | (intro _; try dsimp only)
    | with_reducible assumption
    | with_reducible apply Only.foldl
    | with_reducible apply Only.ite
    | with_reducible refine State.sendResult_only (k.sub (by decide)) ?_
    | with_reducible refine State.modLive_only (k.sub (by decide)) ?_
    | split)

theorem State.sendToParent_only {m : Nat} {r s : State} {x1 : Issue} {x2 : LiveSlot} {x3 : Staging} (k : Covers 0x20000000040000000000000000000000000000800000000840478000000 m) (h : Only m r s) : Only m r (State.sendToParent s x1 x2 x3) := by
  unfold State.sendToParent
  try dsimp only
  repeat' (first
    | with_reducible assumption
    | with_reducible refine State.originate_only (k.sub (by decide)) ?_
    | split)

theorem State.sendToTop_only {m : Nat} {r s : State} {x1 : Issue} {x2 : LiveSlot} {x3 : Staging} (k : Covers 0x3460000000000000000000000000000209a000000060000000000000000000000000000000000000000000000c0000009000002000002047f800700000400000203 m) (h : Only m r s) : Only m r (State.sendToTop s x1 x2 x3) := by
  unfold State.sendToTop
  try dsimp only
  repeat' (first
    | with_reducible assumption
    | with_reducible apply Only.ite
    | with_reducible refine State.clDrop_only (k.sub (by decide)) ?_
    | with_reducible refine State.landIn_only_eq (k.sub (by decide)) (by assumption) ?_
    | with_reducible refine State.countFrame_only (k.sub (by decide)) ?_
    | with_reducible refine State.modLeg_only (k.sub (by decide)) ?_
    | split)

theorem State.sendUp_only {m : Nat} {r s : State} {x1 : Issue} {x2 : LiveSlot} {x3 : Staging} (k : Covers 0x3460000000000000000000000000000209a000000060000000000000000000000000000020000000040000000c00000090000020000020c7f800700840478000203 m) (h : Only m r s) : Only m r (State.sendUp s x1 x2 x3) := by
  unfold State.sendUp
  try dsimp only
  repeat' (first
    | with_reducible assumption
    | with_reducible apply Only.ite
    | with_reducible refine State.sendToTop_only (k.sub (by decide)) ?_
    | with_reducible refine State.modLive_only (k.sub (by decide)) ?_
    | with_reducible refine State.sendToParent_only (k.sub (by decide)) ?_)

theorem State.sramCorrected_only {m : Nat} {r s : State} {x1 : Issue} {x2 : Sram} (k : Covers 0x8000000000000000000000000000000000000000000000000000000000000000000000000 m) (h : Only m r s) : Only m r (State.sramCorrected s x1 x2) := by
  unfold State.sramCorrected
  try dsimp only
  repeat' (first
    | with_reducible assumption
    | with_reducible apply Only.ite
    | with_reducible refine State.setErr_only _ _ (k.err (by decide) (by decide)) ?_)

theorem addAct_only {m : Nat} {r s : State} {x0 : Sram} {x1 : Issue} {x2 : LiveSlot} (k : Covers 0x30600000000000000000000000000000000000000000000100200000008000000010000020000000040000000000000080000020000020c40000700840478000200 m) (h : Only m r s) : Only m r (addAct x0 x1 x2 s) := by
  unfold addAct
  try dsimp only
  repeat' (first
    | with_reducible assumption
    | with_reducible apply Only.ite
    | with_reducible refine State.voidEpoch_only (k.sub (by decide)) ?_
    | with_reducible refine State.frameLost_only (k.sub (by decide)) ?_
    | with_reducible refine State.sramCorrected_only (k.sub (by decide)) ?_
    | with_reducible refine State.modTile_only (k.sub (by decide)) ?_
    | split)

theorem checkAct_only {m : Nat} {r s : State} {x0 : Sram} {x1 : Bool} {x2 : Issue} {x3 : LiveSlot} (k : Covers 0x38600000000000000000000000000000000000000000000100200000018000000010000000000000000000000000000080000020000020800010700000408000200 m) (h : Only m r s) : Only m r (checkAct x0 x1 x2 x3 s) := by
  unfold checkAct
  try dsimp only
  repeat' (first
    | with_reducible assumption
    | with_reducible apply Only.ite
    | with_reducible refine State.sramLost_only (k.sub (by decide)) ?_
    | with_reducible refine State.sramCorrected_only (k.sub (by decide)) ?_
    | with_reducible refine State.modLive_only (k.sub (by decide)) ?_
    | with_reducible refine State.checkFails_only (k.sub (by decide)) (k.err (by decide) (by decide)) ?_)

theorem clearAct_only {m : Nat} {r s : State} {x0 : Issue} {x1 : LiveSlot} (k : Covers 0x400000000000000000000 m) (h : Only m r s) : Only m r (clearAct x0 x1 s) := by
  unfold clearAct
  try dsimp only
  repeat' (first
    | with_reducible assumption
    | with_reducible refine State.modTile_only (k.sub (by decide)) ?_)

theorem clearBuf_only {m : Nat} {r s : State} {x0 : Issue} (k : Covers 0x400000000000000000000 m) (h : Only m r s) : Only m r (clearBuf x0 s) := by
  unfold clearBuf
  try dsimp only
  repeat' (first
    | with_reducible assumption
    | with_reducible refine State.modTile_only (k.sub (by decide)) ?_)

theorem runInstr_only {m : Nat} {r s : State} {x0 : Nat} {x1 : Nat} {x2 : Nat} {x3 : Issue → LiveSlot → State → State} (k : Covers 0x800000000000000000000 m) (hx3 : ∀ a0 a1 t, Only m r t → Only m r (x3 a0 a1 t)) (h : Only m r s) : Only m r (runInstr x0 x1 x2 x3 s) := by
  unfold runInstr
  try dsimp only
  repeat' (first
    | with_reducible apply hx3
    | with_reducible assumption
    | with_reducible apply Only.ite
    | with_reducible refine State.passIssue_only (k.sub (by decide)) ?_
    | split)

theorem tileRes_only {m : Nat} {r s : State} {x0 : Nat} {x1 : Fin 128} {x2 : Fin 176} {x3 : Issue → LiveSlot → State → State} (k : Covers 0x800000000000000000000 m) (hx3 : ∀ a0 a1 t, Only m r t → Only m r (x3 a0 a1 t)) (h : Only m r s) : OnlyRes m r (tileRes x0 x1 x2 x3 s) := by
  unfold tileRes
  try dsimp only
  repeat' (first
    | (intro _; try dsimp only)
    | with_reducible apply hx3
    | with_reducible assumption
    | with_reducible refine whenLive_only (k.sub (by decide)) ?_ ?_
    | with_reducible refine runInstr_only (k.sub (by decide)) ?_ ?_)

theorem execClear_only {m : Nat} {r s : State} {x0 : Fin 128} {x1 : Fin 176} (k : Covers 0xc00000000000000000000 m) (h : Only m r s) : OnlyRes m r (execClear x0 x1 s) := by
  unfold execClear
  try dsimp only
  repeat' (first
    | (intro _; try dsimp only)
    | with_reducible assumption
    | with_reducible refine tileRes_only (k.sub (by decide)) ?_ ?_
    | with_reducible refine clearAct_only (k.sub (by decide)) ?_)

theorem execAdd_only {m : Nat} {r s : State} {x0 : Fin 128} {x1 : Fin 176} {x2 : Sram} (k : Covers 0x30600000000000000000000000000000000000000000000100200000008000000010000020000000040000000000000080000020000020c40000700840478000200 m) (h : Only m r s) : OnlyRes m r (execAdd x0 x1 x2 s) := by
  unfold execAdd
  try dsimp only
  repeat' (first
    | (intro _; try dsimp only)
    | with_reducible assumption
    | with_reducible refine tileRes_only (k.sub (by decide)) ?_ ?_
    | with_reducible refine addAct_only (k.sub (by decide)) ?_)

theorem execCheck_only {m : Nat} {r s : State} {x0 : Fin 128} {x1 : Fin 176} {x2 : Sram} {x3 : Bool} (k : Covers 0x38600000000000000000000000000000000000000000000100200000018000000010000000000000000000000000000080000020000020800010700000408000200 m) (h : Only m r s) : OnlyRes m r (execCheck x0 x1 x2 x3 s) := by
  unfold execCheck
  try dsimp only
  repeat' (first
    | (intro _; try dsimp only)
    | with_reducible assumption
    | with_reducible refine tileRes_only (k.sub (by decide)) ?_ ?_
    | with_reducible refine checkAct_only (k.sub (by decide)) ?_)

theorem roundAct_only {m : Nat} {r s : State} {x0 : Sram} {x1 : Bool} {x2 : Issue} {x3 : LiveSlot} (k : Covers 0x38600000000000000000000000000000000000000000000100200000018000000010000000000000000000000000000080000020000020c00010700000408000200 m) (h : Only m r s) : Only m r (roundAct x0 x1 x2 x3 s) := by
  unfold roundAct
  try dsimp only
  repeat' (first
    | with_reducible assumption
    | with_reducible apply Only.ite
    | with_reducible refine State.sramLost_only (k.sub (by decide)) ?_
    | with_reducible refine State.modTile_only (k.sub (by decide)) ?_
    | with_reducible refine State.sramCorrected_only (k.sub (by decide)) ?_
    | with_reducible refine State.checkFails_only (k.sub (by decide)) (k.err (by decide) (by decide)) ?_
    | with_reducible refine State.modLive_only (k.sub (by decide)) ?_)

theorem roundInstr_only {m : Nat} {r s : State} {x0 : Nat} {x1 : Nat} {x2 : Sram} {x3 : Bool} (k : Covers 0x38600000000000000000000000000000000000000000000100200000018000000010000000000000000000000000000080000020000020c00010700000408000200 m) (h : Only m r s) : Only m r (roundInstr x0 x1 x2 x3 s) := by
  unfold roundInstr
  try dsimp only
  repeat' (first
    | with_reducible assumption
    | with_reducible apply Only.ite
    | with_reducible refine State.passIssue_only (k.sub (by decide)) ?_
    | with_reducible refine clearBuf_only (k.sub (by decide)) ?_
    | with_reducible refine roundAct_only (k.sub (by decide)) ?_
    | split)

theorem execRound_only {m : Nat} {r s : State} {x0 : Fin 128} {x1 : Fin 176} {x2 : Sram} {x3 : Bool} (k : Covers 0x38600000000000000000000000000000000000000000000100200000018000000010000000000000000000000000000080000020000020c00010700000408000200 m) (h : Only m r s) : OnlyRes m r (execRound x0 x1 x2 x3 s) := by
  unfold execRound
  try dsimp only
  repeat' (first
    | (intro _; try dsimp only)
    | with_reducible assumption
    | with_reducible refine whenLive_only (k.sub (by decide)) ?_ ?_
    | with_reducible refine roundInstr_only (k.sub (by decide)) ?_)

theorem sendAct_only {m : Nat} {r s : State} {x0 : Issue} {x1 : LiveSlot} {x2 : Staging} (k : Covers 0x3460000000000000000000000000000209a000000060000000000000000000000000000020000000040000000c00000090000020000020c7f800700840478000203 m) (h : Only m r s) : Only m r (sendAct x0 x1 x2 s) := by
  unfold sendAct
  try dsimp only
  repeat' (first
    | with_reducible assumption
    | with_reducible apply Only.ite
    | with_reducible refine State.sendDown_only (k.sub (by decide)) ?_
    | with_reducible refine State.sendUp_only (k.sub (by decide)) ?_
    | with_reducible refine State.modRun_only (k.sub (by decide)) ?_
    | with_reducible refine State.modLive_only (k.sub (by decide)) ?_
    | with_reducible refine State.modOp_only (k.sub (by decide)) ?_)

theorem sendInstr_only {m : Nat} {r s : State} {x0 : Nat} {x1 : Nat} (k : Covers 0x3460000000000000000000000000000209a000000060000000000000000000000000000020000000040000000c00000090000020000020c7f800700840478000203 m) (h : Only m r s) : Only m r (sendInstr x0 x1 s) := by
  unfold sendInstr
  try dsimp only
  repeat' (first
    | with_reducible assumption
    | with_reducible apply Only.ite
    | with_reducible refine State.passIssue_only (k.sub (by decide)) ?_
    | with_reducible refine sendAct_only (k.sub (by decide)) ?_
    | split)

theorem execSend_only {m : Nat} {r s : State} {x0 : Fin 128} {x1 : Fin 176} (k : Covers 0x3460000000000000000000000000000209a000000060000000000000000000000000000020000000040000000c00000090000020000020c7f800700840478000203 m) (h : Only m r s) : OnlyRes m r (execSend x0 x1 s) := by
  unfold execSend
  try dsimp only
  repeat' (first
    | (intro _; try dsimp only)
    | with_reducible assumption
    | with_reducible refine whenLive_only (k.sub (by decide)) ?_ ?_
    | with_reducible refine sendInstr_only (k.sub (by decide)) ?_)

theorem mloadAct_only {m : Nat} {r s : State} {x0 : Bool} {x1 : Issue} {x2 : LiveSlot} (k : Covers 0x3460000000000000000000000000000209a000000000000100200000000000000010000000000000000000000c00000080000020000020c3b800700000408000200 m) (h : Only m r s) : Only m r (mloadAct x0 x1 x2 s) := by
  unfold mloadAct
  try dsimp only
  repeat' (first
    | with_reducible assumption
    | with_reducible refine State.epochRead_only_eq (k.sub (by decide)) (by assumption) ?_
    | with_reducible refine State.readFails_only (k.sub (by decide)) ?_
    | with_reducible refine State.modTile_only (k.sub (by decide)) ?_
    | split)

theorem execMload_only {m : Nat} {r s : State} {x0 : Fin 128} {x1 : Fin 176} {x2 : Bool} (k : Covers 0x3460000000000000000000000000000209a000000000000100200000000000000010000000000000000000000c00000080000020000020c3b800700000408000200 m) (h : Only m r s) : OnlyRes m r (execMload x0 x1 x2 s) := by
  unfold execMload
  try dsimp only
  repeat' (first
    | (intro _; try dsimp only)
    | with_reducible assumption
    | with_reducible refine tileRes_only (k.sub (by decide)) ?_ ?_
    | with_reducible refine mloadAct_only (k.sub (by decide)) ?_)

theorem projAct_only {m : Nat} {r s : State} {x0 : Issue} {x1 : LiveSlot} (k : Covers 0x30600000000000000000000000000000000000000000000100200000000000000010000000000000000000000000000080000030000020c00000700000408000200 m) (h : Only m r s) : Only m r (projAct x0 x1 s) := by
  unfold projAct
  try dsimp only
  repeat' (first
    | with_reducible assumption
    | with_reducible apply Only.ite
    | with_reducible refine State.voidEpoch_only (k.sub (by decide)) ?_
    | with_reducible refine State.modLive_only (k.sub (by decide)) ?_
    | with_reducible refine State.modTile_only (k.sub (by decide)) ?_
    | with_reducible refine State.draw_only (k.bit (i := 112) (by decide)) ?_
    | split)

theorem execProj_only {m : Nat} {r s : State} {x0 : Fin 128} {x1 : Fin 176} (k : Covers 0x30600000000000000000000000000000000000000000000100200000000000000010000000000000000000000000000080000030000020c00000700000408000200 m) (h : Only m r s) : OnlyRes m r (execProj x0 x1 s) := by
  unfold execProj
  try dsimp only
  repeat' (first
    | (intro _; try dsimp only)
    | with_reducible assumption
    | with_reducible refine tileRes_only (k.sub (by decide)) ?_ ?_
    | with_reducible refine projAct_only (k.sub (by decide)) ?_)

theorem pcheckAct_only {m : Nat} {r s : State} {x0 : Bool} {x1 : Issue} {x2 : LiveSlot} (k : Covers 0x38600000000000000000000000000000000000000000000100200000018000000010000000000000000000000000000080000020000020c00010700000408000200 m) (h : Only m r s) : Only m r (pcheckAct x0 x1 x2 s) := by
  unfold pcheckAct
  try dsimp only
  repeat' (first
    | with_reducible assumption
    | with_reducible apply Only.ite
    | with_reducible refine State.modTile_only (k.sub (by decide)) ?_
    | with_reducible refine State.checkFails_only (k.sub (by decide)) (k.err (by decide) (by decide)) ?_
    | with_reducible refine State.voidEpoch_only (k.sub (by decide)) ?_
    | split)

theorem execPcheck_only {m : Nat} {r s : State} {x0 : Fin 128} {x1 : Fin 176} {x2 : Bool} (k : Covers 0x38600000000000000000000000000000000000000000000100200000018000000010000000000000000000000000000080000020000020c00010700000408000200 m) (h : Only m r s) : OnlyRes m r (execPcheck x0 x1 x2 s) := by
  unfold execPcheck
  try dsimp only
  repeat' (first
    | (intro _; try dsimp only)
    | with_reducible assumption
    | with_reducible refine tileRes_only (k.sub (by decide)) ?_ ?_
    | with_reducible refine pcheckAct_only (k.sub (by decide)) ?_)

theorem spillAct_only {m : Nat} {r s : State} {x0 : Sram} {x1 : Issue} {x2 : LiveSlot} (k : Covers 0x3460000000000000000000000000000209a000000000000100200000008000000010000000000000000000000c0000008000002000002083f800700000408000200 m) (h : Only m r s) : Only m r (spillAct x0 x1 x2 s) := by
  unfold spillAct
  try dsimp only
  repeat' (first
    | with_reducible assumption
    | with_reducible apply Only.ite
    | with_reducible refine State.sramLost_only (k.sub (by decide)) ?_
    | with_reducible refine State.memWrite_only (k.sub (by decide)) ?_
    | with_reducible refine State.sramCorrected_only (k.sub (by decide)) ?_)

theorem execSpill_only {m : Nat} {r s : State} {x0 : Fin 128} {x1 : Fin 176} {x2 : Sram} (k : Covers 0x3460000000000000000000000000000209a000000000000100200000008000000010000000000000000000000c0000008000002000002083f800700000408000200 m) (h : Only m r s) : OnlyRes m r (execSpill x0 x1 x2 s) := by
  unfold execSpill
  try dsimp only
  repeat' (first
    | (intro _; try dsimp only)
    | with_reducible assumption
    | with_reducible refine tileRes_only (k.sub (by decide)) ?_ ?_
    | with_reducible refine spillAct_only (k.sub (by decide)) ?_)

theorem fillAct_only {m : Nat} {r s : State} {x0 : Bool} {x1 : Issue} {x2 : LiveSlot} (k : Covers 0x3460000000000000000000000000000209a000000000000100200000000000000010000000000000000000000c00000080000020000020c3b800700000408000200 m) (h : Only m r s) : Only m r (fillAct x0 x1 x2 s) := by
  unfold fillAct
  try dsimp only
  repeat' (first
    | with_reducible assumption
    | with_reducible refine State.epochRead_only_eq (k.sub (by decide)) (by assumption) ?_
    | with_reducible refine State.readFails_only (k.sub (by decide)) ?_
    | with_reducible refine State.modTile_only (k.sub (by decide)) ?_
    | split)

theorem execFill_only {m : Nat} {r s : State} {x0 : Fin 128} {x1 : Fin 176} {x2 : Bool} (k : Covers 0x3460000000000000000000000000000209a000000000000100200000000000000010000000000000000000000c00000080000020000020c3b800700000408000200 m) (h : Only m r s) : OnlyRes m r (execFill x0 x1 x2 s) := by
  unfold execFill
  try dsimp only
  repeat' (first
    | (intro _; try dsimp only)
    | with_reducible assumption
    | with_reducible refine tileRes_only (k.sub (by decide)) ?_ ?_
    | with_reducible refine fillAct_only (k.sub (by decide)) ?_)

theorem repeatInstr_only {m : Nat} {r s : State} {x0 : Nat} {x1 : Nat} (k : Covers 0x800000000000000000000 m) (h : Only m r s) : Only m r (repeatInstr x0 x1 s) := by
  unfold repeatInstr
  try dsimp only
  repeat' (first
    | with_reducible assumption
    | with_reducible apply Only.ite
    | with_reducible refine State.modRun_only (k.sub (by decide)) ?_
    | split)

theorem execRepeat_only {m : Nat} {r s : State} {x0 : Fin 128} {x1 : Fin 176} (k : Covers 0x800000000000000000000 m) (h : Only m r s) : OnlyRes m r (execRepeat x0 x1 s) := by
  unfold execRepeat
  try dsimp only
  repeat' (first
    | (intro _; try dsimp only)
    | with_reducible assumption
    | with_reducible refine whenLive_only (k.sub (by decide)) ?_ ?_
    | with_reducible refine repeatInstr_only (k.sub (by decide)) ?_)

end Sys2Proof.Machine
end

