-- ==== Sys2Proof/Laws/OnlyManifest.lean ====
section
/-! SUPPORT. Every operation of Machine/Manifest.lean to Machine/Trigger.lean changes only the parts that its mask names: from a state that did so, it answers one
that did so. -/

namespace Sys2Proof.Machine

/-! ### Machine/Manifest.lean -/

theorem State.showGrant_only {m : Nat} {r s : State} {x1 : Nat} (k : Covers 0x4000000000000000000000000000000000000000000000000000000000000000000000000000000000000000000000000 m) (h : Only m r s) : Only m r (State.showGrant s x1) := by
  unfold State.showGrant
  try dsimp only
  repeat' (first
    | with_reducible assumption
    | with_reducible refine State.wr_only _ _ _ (k.words (by decide)) ?_)

theorem State.acceptImage_only {m : Nat} {r s : State} {x1 : Nat} {x2 : List Byte} (k : Covers 0x440100000000000000000000000000000000000000000000000000000000000800000000000000000000 m) (h : Only m r s) : Only m r (State.acceptImage s x1 x2) := by
  unfold State.acceptImage
  try dsimp only
  repeat' (first
    | with_reducible assumption
    | with_reducible refine State.putBytes_only _ _ _ (k.words (by decide)) ?_
    | (with_reducible refine State.wrs_only _ (by simp only [List.forall_mem_cons, List.not_mem_nil, false_imp_iff, implies_true, and_true]; (repeat' apply And.intro) <;> exact k.words (by decide)) ?_)
    | with_reducible refine State.wr_only _ _ _ (k.words (by decide)) ?_
    | with_reducible refine State.setMslot_only (k.sub (by decide)) ?_)

theorem State.loadPrograms_only {m : Nat} {r s : State} {x1 : List Byte} (k : Covers 0x400000000000000000000 m) (h : Only m r s) : Only m r (State.loadPrograms s x1) := by
  unfold State.loadPrograms
  try dsimp only
  repeat' (first
    | (intro _; try dsimp only)
    | with_reducible assumption
    | with_reducible apply Only.foldl
    | with_reducible refine State.modTile_only (k.sub (by decide)) ?_)

theorem State.activateSlot_only {m : Nat} {r s : State} {x1 : Nat} {x2 : List Byte} {x3 : Nat} (k : Covers 0x40000000000003c010000000000000000000000000000000000000000000000000000000000cc00000000000000000000 m) (h : Only m r s) : Only m r (State.activateSlot s x1 x2 x3) := by
  unfold State.activateSlot
  try dsimp only
  repeat' (first
    | with_reducible assumption
    | fail_if_no_progress (with_reducible refine Only.reTo (by apply ReduceStOnly.of <;> first | exact .inl (k.bit (by decide)) | exact .inr rfl) ?_)
    | with_reducible refine State.modMslot_only (k.sub (by decide)) ?_
    | with_reducible refine State.addSat_only _ _ _ (k.words (by decide)) ?_
    | (with_reducible refine State.wrs_only _ (by simp only [List.forall_mem_cons, List.not_mem_nil, false_imp_iff, implies_true, and_true]; (repeat' apply And.intro) <;> exact k.words (by decide)) ?_)
    | with_reducible refine State.loadPrograms_only (k.sub (by decide)) ?_
    | with_reducible refine State.showGrant_only (k.sub (by decide)) ?_)

theorem State.activate_only {m : Nat} {r s : State} {x1 : Desc} (k : Covers 0x40000000000003c010000000000000000000000000000000000000000000009000002000000cc00000000000000000203 m) (h : Only m r s) : Only m r (State.activate s x1) := by
  unfold State.activate
  try dsimp only
  repeat' (first
    | with_reducible assumption
    | with_reducible apply Only.ite
    | with_reducible refine State.complete_only (k.sub (by decide)) ?_
    | with_reducible refine State.activateSlot_only (k.sub (by decide)) ?_
    | split)

theorem State.settleDeactivation_only {m : Nat} {r s : State} {x1 : Nat} (k : Covers 0x4000000000000040100000000000000000000000000000000000000000000090000020000000800000000000000000203 m) (h : Only m r s) : Only m r (State.settleDeactivation s x1) := by
  unfold State.settleDeactivation
  try dsimp only
  repeat' (first
    | (intro _; try dsimp only)
    | with_reducible assumption
    | with_reducible apply Only.foldl
    | with_reducible apply Only.ite
    | with_reducible refine State.wr_only _ _ _ (k.words (by decide)) ?_
    | with_reducible refine State.showGrant_only (k.sub (by decide)) ?_
    | with_reducible refine State.modMslot_only (k.sub (by decide)) ?_
    | with_reducible refine State.complete_only (k.sub (by decide)) ?_)

theorem State.deactivate_only {m : Nat} {r s : State} {x1 : Desc} (k : Covers 0x4000000000000040100000000000000000000000000000000000000000000090000020000000800000000000000000203 m) (h : Only m r s) : Only m r (State.deactivate s x1) := by
  unfold State.deactivate
  try dsimp only
  repeat' (first
    | with_reducible assumption
    | with_reducible apply Only.ite
    | with_reducible refine State.complete_only (k.sub (by decide)) ?_
    | with_reducible refine State.wr_only _ _ _ (k.words (by decide)) ?_
    | with_reducible refine State.settleDeactivation_only (k.sub (by decide)) ?_
    | with_reducible refine State.modMslot_only (k.sub (by decide)) ?_)

theorem State.emptySlot_only {m : Nat} {r s : State} {x1 : Nat} (k : Covers 0x440100000000000000000000000000000000000000000000000000000000000800000000000000000000 m) (h : Only m r s) : Only m r (State.emptySlot s x1) := by
  unfold State.emptySlot
  try dsimp only
  repeat' (first
    | with_reducible assumption
    | with_reducible refine State.wr_only _ _ _ (k.words (by decide)) ?_
    | with_reducible refine State.putBytes_only _ _ _ (k.words (by decide)) ?_
    | with_reducible refine State.setWord_at_only (k.words (by decide)) ?_
    | with_reducible refine State.setMslot_only (k.sub (by decide)) ?_)

theorem State.loadManifest_only {m : Nat} {r s : State} {x1 : Desc} {x2 : HostData} (k : Covers 0x40c0000000000000000000000000000000000000000000000000000440100000000000000000000000000000000000000000000090000020000000800000000000000000203 m) (h : Only m r s) : Only m r (State.loadManifest s x1 x2) := by
  unfold State.loadManifest
  try dsimp only
  repeat' (first
    | with_reducible assumption
    | with_reducible apply Only.ite
    | with_reducible refine State.complete_only (k.sub (by decide)) ?_
    | with_reducible refine State.attest_only (k.sub (by decide)) ?_
    | with_reducible refine State.acceptImage_only (k.sub (by decide)) ?_
    | split)

theorem State.unload_only {m : Nat} {r s : State} {x1 : Desc} (k : Covers 0x440100000000000000000000000000000000000000000000090000020000000800000000000000000203 m) (h : Only m r s) : Only m r (State.unload s x1) := by
  unfold State.unload
  try dsimp only
  repeat' (first
    | with_reducible assumption
    | with_reducible apply Only.ite
    | with_reducible refine State.complete_only (k.sub (by decide)) ?_
    | with_reducible refine State.emptySlot_only (k.sub (by decide)) ?_)

theorem manifestLoad_only {m : Nat} {r s : State} {x0 : Nat} {x1 : HostData} (k : Covers 0x40c0000000000000000000000000000000000000000000000000000440100000000000000000000000000000000000000000000090000020000000800000000000000000203 m) (h : Only m r s) : Only m r (manifestLoad x0 x1 s) := by
  unfold manifestLoad
  try dsimp only
  repeat' (first
    | (intro _; try dsimp only)
    | with_reducible assumption
    | with_reducible apply Only.ite
    | with_reducible refine resumeDesc_only (k.sub (by decide)) ?_ ?_
    | with_reducible refine State.loadManifest_only (k.sub (by decide)) ?_
    | with_reducible refine runDesc_only (k.sub (by decide)) ?_ ?_
    | split)

theorem execManifestLoad_only {m : Nat} {r s : State} {x0 : Fin 4096} {x1 : HostData} (k : Covers 0x40c0000000000000000000000000000000000000000000000000000440100000000000000000000000000000000000000000000090000020000000800000000000000000203 m) (h : Only m r s) : OnlyRes m r (execManifestLoad x0 x1 s) := by
  unfold execManifestLoad
  try dsimp only
  repeat' (first
    | (intro _; try dsimp only)
    | with_reducible assumption
    | with_reducible refine whenLive_only (k.sub (by decide)) ?_ ?_
    | with_reducible refine manifestLoad_only (k.sub (by decide)) ?_)

theorem runManifest_only {m : Nat} {r s : State} {x0 : Nat} {x1 : Desc → Bool} {x2 : Desc → State → State} (k : Covers 0x90000020000000000000000000000000203 m) (hx2 : ∀ a0 t, Only m r t → Only m r (x2 a0 t)) (h : Only m r s) : OnlyRes m r (runManifest x0 x1 x2 s) := by
  unfold runManifest
  try dsimp only
  repeat' (first
    | (intro _; try dsimp only)
    | with_reducible apply hx2
    | with_reducible assumption
    | with_reducible refine whenLive_only (k.sub (by decide)) ?_ ?_
    | with_reducible refine runDesc_only (k.sub (by decide)) ?_ ?_)

theorem execManifestActivate_only {m : Nat} {r s : State} {x0 : Fin 4096} (k : Covers 0x40000000000003c010000000000000000000000000000000000000000000009000002000000cc00000000000000000203 m) (h : Only m r s) : OnlyRes m r (execManifestActivate x0 s) := by
  unfold execManifestActivate
  try dsimp only
  repeat' (first
    | (intro _; try dsimp only)
    | with_reducible assumption
    | with_reducible refine runManifest_only (k.sub (by decide)) ?_ ?_
    | with_reducible refine State.activate_only (k.sub (by decide)) ?_)

theorem execManifestDeactivate_only {m : Nat} {r s : State} {x0 : Fin 4096} (k : Covers 0x4000000000000040100000000000000000000000000000000000000000000090000020000000800000000000000000203 m) (h : Only m r s) : OnlyRes m r (execManifestDeactivate x0 s) := by
  unfold execManifestDeactivate
  try dsimp only
  repeat' (first
    | (intro _; try dsimp only)
    | with_reducible assumption
    | with_reducible refine runManifest_only (k.sub (by decide)) ?_ ?_
    | with_reducible refine State.deactivate_only (k.sub (by decide)) ?_)

theorem execManifestUnload_only {m : Nat} {r s : State} {x0 : Fin 4096} (k : Covers 0x440100000000000000000000000000000000000000000000090000020000000800000000000000000203 m) (h : Only m r s) : OnlyRes m r (execManifestUnload x0 s) := by
  unfold execManifestUnload
  try dsimp only
  repeat' (first
    | (intro _; try dsimp only)
    | with_reducible assumption
    | with_reducible refine runManifest_only (k.sub (by decide)) ?_ ?_
    | with_reducible refine State.unload_only (k.sub (by decide)) ?_)

/-! ### Machine/Lockstep.lean -/

theorem lsCfgWrite_only {m : Nat} {r s : State} {x0 : Word} (k : Covers 0x3060000000000000000000000000000000000000000000000600000000000000000000000000000000000000000000008000002000000c000000700000000000200 m) (h : Only m r s) : Only m r (lsCfgWrite x0 s) := by
  unfold lsCfgWrite
  try dsimp only
  repeat' (first
    | with_reducible assumption
    | fail_if_no_progress (with_reducible refine Only.reTo (by apply ReduceStOnly.of <;> first | exact .inl (k.bit (by decide)) | exact .inr rfl) ?_)
    | with_reducible apply Only.ite
    | with_reducible refine State.refuseWrite_only (k.sub (by decide)) ?_
    | with_reducible refine State.plainWrite_only _ _ _ (k.words (by decide)) ?_
    | with_reducible refine State.setErr_only _ _ (k.err (by decide) (by decide)) ?_
    | with_reducible refine State.wr_only _ _ _ (k.words (by decide)) ?_)

theorem State.recordMismatch_only {m : Nat} {r s : State} {x1 : Digest} {x2 : Nat} (k : Covers 0x2c000000000000000000000000000000000000000000000000000000000000000000000000000000000 m) (h : Only m r s) : Only m r (State.recordMismatch s x1 x2) := by
  unfold State.recordMismatch
  try dsimp only
  repeat' (first
    | with_reducible assumption
    | with_reducible apply Only.ite
    | (with_reducible refine State.wrs_only _ (by simp only [List.forall_mem_cons, List.not_mem_nil, false_imp_iff, implies_true, and_true]; (repeat' apply And.intro) <;> exact k.words (by decide)) ?_)
    | with_reducible refine State.wr_only _ _ _ (k.words (by decide)) ?_
    | with_reducible refine State.putBytes_only _ _ _ (k.words (by decide)) ?_)

theorem State.compareDigests_only {m : Nat} {r s : State} {x1 : Digest} {x2 : Digest} (k : Covers 0x3060000000000000000000000000000000000000000000002c000000000000000000000000000000000000000000000080000020000000000000700000000000200 m) (h : Only m r s) : Only m r (State.compareDigests s x1 x2) := by
  unfold State.compareDigests
  try dsimp only
  repeat' (first
    | with_reducible assumption
    | with_reducible apply Only.ite
    | with_reducible refine State.raise_only (k.sub (by decide)) ?_
    | with_reducible refine State.setErr_only _ _ (k.err (by decide) (by decide)) ?_
    | with_reducible refine State.recordMismatch_only (k.sub (by decide)) ?_)

theorem State.matchDigests_only {m : Nat} {r s : State} {x1 : Nat} {x2 : Nat} (k : Covers 0x3060000000000000000000000000000000000000000000002c00000000000000000000000000000000000000000000008000002000000c000000700000000000200 m) (h : Only m r s) : Only m r (State.matchDigests s x1 x2) := by
  unfold State.matchDigests
  try dsimp only
  repeat' (first
    | with_reducible assumption
    | fail_if_no_progress (with_reducible refine Only.reTo (by apply ReduceStOnly.of <;> first | exact .inl (k.bit (by decide)) | exact .inr rfl) ?_)
    | with_reducible refine State.compareDigests_only (k.sub (by decide)) ?_
    | split)

theorem State.keepOwn_only {m : Nat} {r s : State} {x1 : Digest} (k : Covers 0x3060000000000000000000000000000000000000000000002c00000000000000000000000000000000000000000000008000002000000c000000700000000000200 m) (h : Only m r s) : Only m r (State.keepOwn s x1) := by
  unfold State.keepOwn
  try dsimp only
  repeat' (first
    | with_reducible assumption
    | fail_if_no_progress (with_reducible refine Only.reTo (by apply ReduceStOnly.of <;> first | exact .inl (k.bit (by decide)) | exact .inr rfl) ?_)
    | with_reducible refine State.matchDigests_only (k.sub (by decide)) ?_)

theorem State.peerLate_only {m : Nat} {r s : State} {x1 : Nat} {x2 : Nat} (k : Covers 0x30600000000000000000000000000000000000000000000004000000000000000000000000000000000000000000000080000020000000000000700000000000200 m) (h : Only m r s) : Only m r (State.peerLate s x1 x2) := by
  unfold State.peerLate
  try dsimp only
  repeat' (first
    | with_reducible assumption
    | with_reducible refine State.raise_only (k.sub (by decide)) ?_
    | with_reducible refine State.setErr_only _ _ (k.err (by decide) (by decide)) ?_)

theorem State.keepPeer_only {m : Nat} {r s : State} {x1 : Digest} (k : Covers 0x3060000000000000000000000000000000000000000000002c00000000000000000000000000000000000000000000008000002000000c000000700000000000200 m) (h : Only m r s) : Only m r (State.keepPeer s x1) := by
  unfold State.keepPeer
  try dsimp only
  repeat' (first
    | with_reducible assumption
    | fail_if_no_progress (with_reducible refine Only.reTo (by apply ReduceStOnly.of <;> first | exact .inl (k.bit (by decide)) | exact .inr rfl) ?_)
    | with_reducible apply Only.ite
    | with_reducible refine State.peerLate_only (k.sub (by decide)) ?_
    | with_reducible refine State.matchDigests_only (k.sub (by decide)) ?_)

theorem execLockstepEnable_only {m : Nat} {r s : State} {x0 : Word} (k : Covers 0x3060000000000000000000000000000000000000000000000600000000000000000000000000000000000000000000008000002000000c000080700000000000200 m) (h : Only m r s) : OnlyRes m r (execLockstepEnable x0 s) := by
  unfold execLockstepEnable
  try dsimp only
  repeat' (first
    | (intro _; try dsimp only)
    | with_reducible assumption
    | with_reducible refine whenReg_only (k.sub (by decide)) ?_ ?_
    | with_reducible refine lsCfgWrite_only (k.sub (by decide)) ?_)

theorem lockstepIn_only {m : Nat} {r s : State} {x0 : Nat} {x1 : Option (BitVec 48)} {x2 : List Byte} (k : Covers 0x3060000000000000000000000000000000000000000000002c00000000000000000000000000000000000000000000008000002000000c000000700000408000200 m) (h : Only m r s) : Only m r (lockstepIn x0 x1 x2 s) := by
  unfold lockstepIn
  try dsimp only
  repeat' (first
    | with_reducible assumption
    | with_reducible apply Only.ite
    | with_reducible refine State.linkConsume_only (k.sub (by decide)) ?_
    | with_reducible refine State.portAdd_only (k.sub (by decide)) ?_
    | with_reducible refine State.keepPeer_only (k.sub (by decide)) ?_)

theorem execLockstepDigestReceived_only {m : Nat} {r s : State} {x0 : Fin 1024} {x1 : Option (BitVec 48)} {x2 : List Byte} (k : Covers 0x3060000000000000000000000000000000000000000000002c00000000000000000000000000000000000000000000008000002000000c000000700000408000200 m) (h : Only m r s) : OnlyRes m r (execLockstepDigestReceived x0 x1 x2 s) := by
  unfold execLockstepDigestReceived
  try dsimp only
  repeat' (first
    | (intro _; try dsimp only)
    | with_reducible assumption
    | with_reducible refine whenLive_only (k.sub (by decide)) ?_ ?_
    | with_reducible refine lockstepIn_only (k.sub (by decide)) ?_)

theorem peerTimeout_only {m : Nat} {r s : State} {x0 : Nat} (k : Covers 0x30600000000000000000000000000000000000000000000004000000000000000000000000000000000000000000000080000020000004000000700000000000200 m) (h : Only m r s) : Only m r (peerTimeout x0 s) := by
  unfold peerTimeout
  try dsimp only
  repeat' (first
    | with_reducible assumption
    | fail_if_no_progress (with_reducible refine Only.reTo (by apply ReduceStOnly.of <;> first | exact .inl (k.bit (by decide)) | exact .inr rfl) ?_)
    | with_reducible refine State.peerLate_only (k.sub (by decide)) ?_
    | split)

theorem execLockstepPeerTimeout_only {m : Nat} {r s : State} {x0 : Fin 128} (k : Covers 0x30600000000000000000000000000000000000000000000004000000000000000000000000000000000000000000000080000020000004000000700000000000200 m) (h : Only m r s) : OnlyRes m r (execLockstepPeerTimeout x0 s) := by
  unfold execLockstepPeerTimeout
  try dsimp only
  repeat' (first
    | (intro _; try dsimp only)
    | with_reducible assumption
    | with_reducible refine whenLive_only (k.sub (by decide)) ?_ ?_
    | with_reducible refine peerTimeout_only (k.sub (by decide)) ?_)

theorem execLockstepMismatchClear_only {m : Nat} {r s : State} {x0 : Word} (k : Covers 0x30600000000000000000000000000000000000000000000004000000000000000000000000000000000000000000000080000020000000000080700000000000200 m) (h : Only m r s) : OnlyRes m r (execLockstepMismatchClear x0 s) := by
  unfold execLockstepMismatchClear
  try dsimp only
  repeat' (first
    | (intro _; try dsimp only)
    | with_reducible assumption
    | with_reducible refine whenReg_only (k.sub (by decide)) ?_ ?_
    | with_reducible refine State.plainWrite_only _ _ _ (k.words (by decide)) ?_)

/-! ### Machine/Epoch.lean -/

theorem State.countLate_only {m : Nat} {r s : State} {x1 : Nat} {x2 : Nat} (k : Covers 0x300000000000000000000000000000000000000000000000000000000000000800000000000000000000 m) (h : Only m r s) : Only m r (State.countLate s x1 x2) := by
  unfold State.countLate
  try dsimp only
  repeat' (first
    | with_reducible assumption
    | with_reducible apply Only.ite
    | with_reducible refine State.wr_only _ _ _ (k.words (by decide)) ?_
    | with_reducible refine State.modMslot_only (k.sub (by decide)) ?_
    | with_reducible refine State.addSat_only _ _ _ (k.words (by decide)) ?_)

theorem State.freshTiles_only {m : Nat} {r s : State} {x1 : List Byte} (k : Covers 0x400000000000000000000 m) (h : Only m r s) : Only m r (State.freshTiles s x1) := by
  unfold State.freshTiles
  try dsimp only
  repeat' (first
    | (intro _; try dsimp only)
    | with_reducible assumption
    | with_reducible apply Only.foldl
    | with_reducible refine State.modTile_only (k.sub (by decide)) ?_)

theorem State.leaveOut_only {m : Nat} {r s : State} {x1 : Nat} {x2 : EpochRun} (k : Covers 0x800000000000000000000 m) (h : Only m r s) : Only m r (State.leaveOut s x1 x2) := by
  unfold State.leaveOut
  try dsimp only
  repeat' (first
    | with_reducible assumption
    | with_reducible apply Only.ite
    | with_reducible refine State.modMslot_only (k.sub (by decide)) ?_)

theorem State.legEnd_only {m : Nat} {r s : State} {x1 : LiveSlot} (k : Covers 0x30600000000000000000000000000000018000000300000040000000004000000000000020000000040000000000000090000020000020c40000700840478000203 m) (h : Only m r s) : Only m r (State.legEnd s x1) := by
  unfold State.legEnd
  try dsimp only
  repeat' (first
    | with_reducible assumption
    | with_reducible apply Only.ite
    | with_reducible refine State.releaseHalf_only (k.sub (by decide)) ?_
    | with_reducible refine State.modLeg_only (k.sub (by decide)) ?_
    | with_reducible refine State.settleRelease_only (k.sub (by decide)) ?_
    | with_reducible refine State.advance_only (k.sub (by decide)) ?_
    | with_reducible refine State.legDone_only (k.sub (by decide)) ?_
    | split)

theorem State.makeCharge_only {m : Nat} {r s : State} {x1 : List Byte} (k : Covers 0x10000000000000000000000000000000000000000000000000000000000000000 m) (h : Only m r s) : Only m r (State.makeCharge s x1) := by
  unfold State.makeCharge
  try dsimp only
  repeat' (first
    | (intro _; try dsimp only)
    | with_reducible assumption
    | with_reducible apply Only.foldl
    | with_reducible refine State.wr_only _ _ _ (k.words (by decide)) ?_)

theorem State.noteEnd_only {m : Nat} {r s : State} {x1 : Nat} {x2 : EpochRun} (k : Covers 0x2000000800000000000000000000 m) (h : Only m r s) : Only m r (State.noteEnd s x1 x2) := by
  unfold State.noteEnd
  try dsimp only
  repeat' (first
    | with_reducible assumption
    | fail_if_no_progress (with_reducible refine Only.pmTo (by apply PowerStOnly.of <;> first | exact .inl (k.bit (by decide)) | exact .inr rfl) ?_)
    | with_reducible refine State.modMslot_only (k.sub (by decide)) ?_)

theorem State.partEnd_only {m : Nat} {r s : State} {x1 : EpochRun} {x2 : LiveSlot} (k : Covers 0x30600000000000000000000000000000018000000300000040000000004000000000000020000000040000000000000090000020000020c40000700840478000203 m) (h : Only m r s) : Only m r (State.partEnd s x1 x2) := by
  unfold State.partEnd
  try dsimp only
  repeat' (first
    | with_reducible assumption
    | with_reducible refine State.legEnd_only (k.sub (by decide)) ?_
    | with_reducible refine State.modOp_only (k.sub (by decide)) ?_)

theorem State.restartEpoch_only {m : Nat} {r s : State} {x1 : Nat} {x2 : List Byte} {x3 : EpochRun} (k : Covers 0x10000000000000000000000000000000000000000020c00000000000000000000 m) (h : Only m r s) : Only m r (State.restartEpoch s x1 x2 x3) := by
  unfold State.restartEpoch
  try dsimp only
  repeat' (first
    | (intro _; try dsimp only)
    | with_reducible assumption
    | with_reducible apply Only.foldl
    | with_reducible refine State.modMslot_only (k.sub (by decide)) ?_
    | with_reducible refine State.makeCharge_only (k.sub (by decide)) ?_
    | with_reducible refine State.modOp_only (k.sub (by decide)) ?_
    | with_reducible refine State.freshTiles_only (k.sub (by decide)) ?_)

theorem State.sentinelFail_only {m : Nat} {r s : State} {x1 : Nat} {x2 : Nat} {x3 : Nat} (k : Covers 0x3c600000000000000000000000000000000000000000000000a00000000000000000000000000000000000000000000080000020000000000010f00000000000200 m) (h : Only m r s) : Only m r (State.sentinelFail s x1 x2 x3) := by
  unfold State.sentinelFail
  try dsimp only
  repeat' (first
    | with_reducible assumption
    | (with_reducible refine State.wrs_only _ (by simp only [List.forall_mem_cons, List.not_mem_nil, false_imp_iff, implies_true, and_true]; (repeat' apply And.intro) <;> exact k.words (by decide)) ?_)
    | with_reducible refine State.addSat_only _ _ _ (k.words (by decide)) ?_
    | with_reducible refine State.setErr_only _ _ (k.err (by decide) (by decide)) ?_
    | with_reducible refine State.raise_only (k.sub (by decide)) ?_
    | with_reducible refine State.queueRecovery_only (k.sub (by decide)) ?_
    | with_reducible refine State.retireSpareTile_only (k.sub (by decide)) ?_
    | split)

theorem State.sentinelPass_only {m : Nat} {r s : State} {x1 : Nat} {x2 : Nat} {x3 : Nat} (k : Covers 0x800000000000000000000000000000000000000000000000000000000002000000000000000000000 m) (h : Only m r s) : Only m r (State.sentinelPass s x1 x2 x3) := by
  unfold State.sentinelPass
  try dsimp only
  repeat' (first
    | with_reducible assumption
    | fail_if_no_progress (with_reducible refine Only.reTo (by apply ReduceStOnly.of <;> first | exact .inl (k.bit (by decide)) | exact .inr rfl) ?_)
    | with_reducible refine State.addWrap_only _ _ _ (k.words (by decide)) ?_)

theorem State.skipInstant_only {m : Nat} {r s : State} {x1 : Nat} (k : Covers 0x100200000000000000000000000000000000000000000000000000000000000000000000000000000000 m) (h : Only m r s) : Only m r (State.skipInstant s x1) := by
  unfold State.skipInstant
  try dsimp only
  repeat' (first
    | with_reducible assumption
    | with_reducible refine State.setErr_only _ _ (k.err (by decide) (by decide)) ?_
    | with_reducible refine State.addSat_only _ _ _ (k.words (by decide)) ?_)

theorem State.startEpoch_only {m : Nat} {r s : State} {x1 : Nat} {x2 : List Byte} {x3 : List LiveSlot} (k : Covers 0x80000000000000000010000000000000000000000000000000000000000020c00000000000000000000 m) (h : Only m r s) : Only m r (State.startEpoch s x1 x2 x3) := by
  unfold State.startEpoch
  try dsimp only
  repeat' (first
    | (intro _; try dsimp only)
    | with_reducible assumption
    | with_reducible apply Only.foldl
    | with_reducible refine State.addSat_only _ _ _ (k.words (by decide)) ?_
    | with_reducible refine State.modMslot_only (k.sub (by decide)) ?_
    | with_reducible refine State.makeCharge_only (k.sub (by decide)) ?_
    | with_reducible refine State.beginOp_only (k.sub (by decide)) ?_
    | with_reducible refine State.freshTiles_only (k.sub (by decide)) ?_)

theorem State.swapDigests_only {m : Nat} {r s : State} {x1 : Nat} {x2 : List Byte} {x3 : EpochRun} (k : Covers 0x3060000000000000000000000000000000000000000000002c00000000000000000000000000000000000000000000008000002000000c000000700000408000200 m) (h : Only m r s) : Only m r (State.swapDigests s x1 x2 x3) := by
  unfold State.swapDigests
  try dsimp only
  repeat' (first
    | with_reducible assumption
    | with_reducible apply Only.ite
    | with_reducible refine State.keepOwn_only (k.sub (by decide)) ?_
    | with_reducible refine State.sendOwn_only (k.sub (by decide)) ?_)

theorem epochEnd_only {m : Nat} {r s : State} {x0 : Nat} (k : Covers 0x3060000000000000000000000000000001c00000032000006c10000000400000001000002000000004000000000000009000002200002cc40000700840478000203 m) (h : Only m r s) : Only m r (epochEnd x0 s) := by
  unfold epochEnd
  try dsimp only
  repeat' (first
    | (intro _; try dsimp only)
    | with_reducible assumption
    | with_reducible apply Only.foldl
    | with_reducible apply Only.ite
    | with_reducible refine State.settleDeactivation_only (k.sub (by decide)) ?_
    | with_reducible refine State.noteEnd_only (k.sub (by decide)) ?_
    | with_reducible refine State.recheckContexts_only (k.sub (by decide)) ?_
    | with_reducible refine State.modRun_only (k.sub (by decide)) ?_
    | with_reducible refine State.swapDigests_only (k.sub (by decide)) ?_
    | with_reducible refine State.releaseCharge_only (k.sub (by decide)) ?_
    | with_reducible refine State.partEnd_only (k.sub (by decide)) ?_
    | split)

theorem epochRerun_only {m : Nat} {r s : State} {x0 : Nat} (k : Covers 0x300000040000000004000000010000000000000000000000000000090000020000020c00000000000000000203 m) (h : Only m r s) : Only m r (epochRerun x0 s) := by
  unfold epochRerun
  try dsimp only
  repeat' (first
    | (intro _; try dsimp only)
    | with_reducible assumption
    | with_reducible apply Only.foldl
    | with_reducible apply Only.ite
    | with_reducible refine State.settleRelease_only (k.sub (by decide)) ?_
    | with_reducible refine State.leaveOut_only (k.sub (by decide)) ?_
    | with_reducible refine State.restartEpoch_only (k.sub (by decide)) ?_
    | split)

theorem epochStart_only {m : Nat} {r s : State} {x0 : Nat} (k : Covers 0x380000000000000000010000000000000000000000000000000000000000020c00000000000000000000 m) (h : Only m r s) : Only m r (epochStart x0 s) := by
  unfold epochStart
  try dsimp only
  repeat' (first
    | with_reducible assumption
    | with_reducible apply Only.ite
    | with_reducible refine State.startEpoch_only (k.sub (by decide)) ?_
    | with_reducible refine State.countLate_only (k.sub (by decide)) ?_
    | split)

theorem triggerInstant_only {m : Nat} {r s : State} {x0 : Nat} (k : Covers 0x100200000000000000000000000000000000000000000000000000000000000800000000000000000000 m) (h : Only m r s) : Only m r (triggerInstant x0 s) := by
  unfold triggerInstant
  try dsimp only
  repeat' (first
    | with_reducible assumption
    | with_reducible apply Only.ite
    | with_reducible refine State.skipInstant_only (k.sub (by decide)) ?_
    | with_reducible refine State.modMslot_only (k.sub (by decide)) ?_)

theorem execTriggerInstant_only {m : Nat} {r s : State} {x0 : Fin 128} (k : Covers 0x100200000000000000000000000000000000000000000000000000000000000800000000000000000000 m) (h : Only m r s) : OnlyRes m r (execTriggerInstant x0 s) := by
  unfold execTriggerInstant
  try dsimp only
  repeat' (first
    | (intro _; try dsimp only)
    | with_reducible assumption
    | with_reducible refine whenLive_only (k.sub (by decide)) ?_ ?_
    | with_reducible refine triggerInstant_only (k.sub (by decide)) ?_)

theorem execEpochStart_only {m : Nat} {r s : State} {x0 : Fin 128} (k : Covers 0x380000000000000000010000000000000000000000000000000000000000020c00000000000000000000 m) (h : Only m r s) : OnlyRes m r (execEpochStart x0 s) := by
  unfold execEpochStart
  try dsimp only
  repeat' (first
    | (intro _; try dsimp only)
    | with_reducible assumption
    | with_reducible refine whenLive_only (k.sub (by decide)) ?_ ?_
    | with_reducible refine epochStart_only (k.sub (by decide)) ?_)

theorem execEpochEnd_only {m : Nat} {r s : State} {x0 : Fin 128} (k : Covers 0x3060000000000000000000000000000001c00000032000006c10000000400000001000002000000004000000000000009000002200002cc40000700840478000203 m) (h : Only m r s) : OnlyRes m r (execEpochEnd x0 s) := by
  unfold execEpochEnd
  try dsimp only
  repeat' (first
    | (intro _; try dsimp only)
    | with_reducible assumption
    | with_reducible refine whenLive_only (k.sub (by decide)) ?_ ?_
    | with_reducible refine epochEnd_only (k.sub (by decide)) ?_)

theorem execEpochRerun_only {m : Nat} {r s : State} {x0 : Fin 128} (k : Covers 0x300000040000000004000000010000000000000000000000000000090000020000020c00000000000000000203 m) (h : Only m r s) : OnlyRes m r (execEpochRerun x0 s) := by
  unfold execEpochRerun
  try dsimp only
  repeat' (first
    | (intro _; try dsimp only)
    | with_reducible assumption
    | with_reducible refine whenLive_only (k.sub (by decide)) ?_ ?_
    | with_reducible refine epochRerun_only (k.sub (by decide)) ?_)

theorem genInstr_only {m : Nat} {r s : State} {x0 : Nat} {x1 : Nat} (k : Covers 0x10000000400000000000000000000 m) (h : Only m r s) : Only m r (genInstr x0 x1 s) := by
  unfold genInstr
  try dsimp only
  repeat' (first
    | with_reducible assumption
    | with_reducible apply Only.ite
    | with_reducible refine State.scramble_only (k.sub (by decide)) ?_
    | split)

theorem execGen_only {m : Nat} {r s : State} {x0 : Fin 2} {x1 : Fin 96} (k : Covers 0x10000000400000000000000000000 m) (h : Only m r s) : OnlyRes m r (execGen x0 x1 s) := by
  unfold execGen
  try dsimp only
  repeat' (first
    | (intro _; try dsimp only)
    | with_reducible assumption
    | with_reducible refine whenLive_only (k.sub (by decide)) ?_ ?_
    | with_reducible refine genInstr_only (k.sub (by decide)) ?_)

theorem sentinelRun_only {m : Nat} {r s : State} {x0 : Nat} {x1 : Nat} {x2 : Nat} {x3 : Bool} (k : Covers 0x3c600000000000000000000000000000000000000000000000a00000000000000000000000000000000000000000000080000030000002400010f00000000000200 m) (h : Only m r s) : Only m r (sentinelRun x0 x1 x2 x3 s) := by
  unfold sentinelRun
  try dsimp only
  repeat' (first
    | with_reducible assumption
    | with_reducible apply Only.ite
    | with_reducible refine State.scramble_only (k.sub (by decide)) ?_
    | with_reducible refine State.sentinelPass_only (k.sub (by decide)) ?_
    | with_reducible refine State.sentinelFail_only (k.sub (by decide)) ?_
    | split)

theorem execSentinelRun_only {m : Nat} {r s : State} {x0 : Fin 2} {x1 : Fin 96} {x2 : Fin 64} {x3 : Bool} (k : Covers 0x3c600000000000000000000000000000000000000000000000a00000000000000000000000000000000000000000000080000030000002400010f00000000000200 m) (h : Only m r s) : OnlyRes m r (execSentinelRun x0 x1 x2 x3 s) := by
  unfold execSentinelRun
  try dsimp only
  repeat' (first
    | (intro _; try dsimp only)
    | with_reducible assumption
    | with_reducible refine whenLive_only (k.sub (by decide)) ?_ ?_
    | with_reducible refine sentinelRun_only (k.sub (by decide)) ?_)

/-! ### Machine/Tideline.lean -/

theorem pkgCfgWrite_only {m : Nat} {r s : State} {x0 : Word} (k : Covers 0x3000000000000000000000000000000000000000000000000000000000000000000000000000000000000000000000000000000000000000000000000 m) (h : Only m r s) : Only m r (pkgCfgWrite x0 s) := by
  unfold pkgCfgWrite
  try dsimp only
  repeat' (first
    | with_reducible assumption
    | with_reducible apply Only.ite
    | with_reducible refine State.setErr_only _ _ (k.err (by decide) (by decide)) ?_
    | with_reducible refine State.plainWrite_only _ _ _ (k.words (by decide)) ?_)

theorem redEnvWrite_only {m : Nat} {r s : State} {x0 : Nat} {x1 : Word} (k : Covers 0x12000000000000000000000000000000000000000000000000000000000000000000000000000000000000000000000000000000000000000000000000 m) (h : Only m r s) : Only m r (redEnvWrite x0 x1 s) := by
  unfold redEnvWrite
  try dsimp only
  repeat' (first
    | with_reducible assumption
    | with_reducible apply Only.ite
    | with_reducible refine State.setErr_only _ _ (k.err (by decide) (by decide)) ?_
    | with_reducible refine State.plainWrite_only _ _ _ (k.words (by decide)) ?_)

theorem State.countDwell_only {m : Nat} {r s : State} {x1 : Nat} {x2 : ℤ} {x3 : Nat} (k : Covers 0x800000000000000000000000000 m) (h : Only m r s) : Only m r (State.countDwell s x1 x2 x3) := by
  unfold State.countDwell
  try dsimp only
  repeat' (first
    | with_reducible assumption
    | fail_if_no_progress (with_reducible refine Only.pmTo (by apply PowerStOnly.of <;> first | exact .inl (k.bit (by decide)) | exact .inr rfl) ?_))

theorem State.countEnergy_only {m : Nat} {r s : State} {x1 : Nat} (k : Covers 0x8000000000000000000000000000000000000000000000000000000000000000000000000000000000000000000004000000000000000000000000000 m) (h : Only m r s) : Only m r (State.countEnergy s x1) := by
  unfold State.countEnergy
  try dsimp only
  repeat' (first
    | with_reducible assumption
    | fail_if_no_progress (with_reducible refine Only.pmTo (by apply PowerStOnly.of <;> first | exact .inl (k.bit (by decide)) | exact .inr rfl) ?_)
    | with_reducible refine State.addWrap_only _ _ _ (k.words (by decide)) ?_)

theorem State.requestVariant_only {m : Nat} {r s : State} {x1 : Nat} {x2 : Nat} (k : Covers 0x20000000000000000000000000000000000000000100000000000000000000000000000000000000000000000000000400000000000000000000000000 m) (h : Only m r s) : Only m r (State.requestVariant s x1 x2) := by
  unfold State.requestVariant
  try dsimp only
  repeat' (first
    | with_reducible assumption
    | fail_if_no_progress (with_reducible refine Only.pmTo (by apply PowerStOnly.of <;> first | exact .inl (k.bit (by decide)) | exact .inr rfl) ?_)
    | with_reducible apply Only.ite
    | with_reducible refine State.wr_only _ _ _ (k.words (by decide)) ?_)

theorem State.limitActs_only {m : Nat} {r s : State} {x1 : Nat} {x2 : Nat} {x3 : Nat} (k : Covers 0x30600000066000000000000000000000000000000000000000100000000000000000000000000000000000000000000080000020400000000000700000000000200 m) (h : Only m r s) : Only m r (State.limitActs s x1 x2 x3) := by
  unfold State.limitActs
  try dsimp only
  repeat' (first
    | with_reducible assumption
    | with_reducible apply Only.ite
    | with_reducible refine State.overridden_only (k.sub (by decide)) ?_
    | with_reducible refine State.wr_only _ _ _ (k.words (by decide)) ?_
    | with_reducible refine State.requestVariant_only (k.sub (by decide)) ?_)

theorem State.enterLimit_only {m : Nat} {r s : State} {x1 : Nat} {x2 : Nat} {x3 : Nat} (k : Covers 0x30600000066000000000000000000000000000000000000000100000000000000000000000000000000000000000000080000021400000000000700000000000200 m) (h : Only m r s) : Only m r (State.enterLimit s x1 x2 x3) := by
  unfold State.enterLimit
  try dsimp only
  repeat' (first
    | (intro _; try dsimp only)
    | with_reducible assumption
    | fail_if_no_progress (with_reducible refine Only.pmTo (by apply PowerStOnly.of <;> first | exact .inl (k.bit (by decide)) | exact .inr rfl) ?_)
    | with_reducible apply Only.foldl
    | with_reducible apply Only.ite
    | with_reducible refine State.limitActs_only (k.sub (by decide)) ?_)

theorem State.settleUnmet_only {m : Nat} {r s : State} {x1 : Nat} (k : Covers 0x30600000022000000000000000000000000000000000000000000000000000000000000000000000000000000000000080000020000000000000700000000000200 m) (h : Only m r s) : Only m r (State.settleUnmet s x1) := by
  unfold State.settleUnmet
  try dsimp only
  repeat' (first
    | with_reducible assumption
    | with_reducible apply Only.ite
    | with_reducible refine State.wr_only _ _ _ (k.words (by decide)) ?_
    | with_reducible refine State.raise_only (k.sub (by decide)) ?_
    | with_reducible refine State.setErr_only _ _ (k.err (by decide) (by decide)) ?_)

theorem State.evaluateDie_only {m : Nat} {r s : State} {x1 : Nat} {x2 : ℤ} {x3 : Nat} (k : Covers 0x30600000066000000000000000000000000000000000000000100000000000000000000000000000000000000000000080000021c00000000000700000000000200 m) (h : Only m r s) : Only m r (State.evaluateDie s x1 x2 x3) := by
  unfold State.evaluateDie
  try dsimp only
  repeat' (first
    | with_reducible assumption
    | with_reducible apply Only.ite
    | with_reducible refine State.countDwell_only (k.sub (by decide)) ?_
    | with_reducible refine State.settleUnmet_only (k.sub (by decide)) ?_
    | with_reducible refine State.enterLimit_only (k.sub (by decide)) ?_
    | with_reducible refine State.requestVariant_only (k.sub (by decide)) ?_)

theorem State.settleStretch_only {m : Nat} {r s : State} {x1 : Nat} (k : Covers 0x40000000000000000000000000000000000000000000000000000000000000000000000000000000000000000000000000000000000000000000000000 m) (h : Only m r s) : Only m r (State.settleStretch s x1) := by
  unfold State.settleStretch
  try dsimp only
  repeat' (first
    | with_reducible assumption
    | with_reducible refine State.wr_only _ _ _ (k.words (by decide)) ?_)

theorem State.stepBudget_only {m : Nat} {r s : State} {x1 : Nat} (k : Covers 0x8000000000000000000000000000 m) (h : Only m r s) : Only m r (State.stepBudget s x1) := by
  unfold State.stepBudget
  try dsimp only
  repeat' (first
    | with_reducible assumption
    | fail_if_no_progress (with_reducible refine Only.pmTo (by apply PowerStOnly.of <;> first | exact .inl (k.bit (by decide)) | exact .inr rfl) ?_))

theorem State.telemetry_only {m : Nat} {r s : State} {x1 : List (BitVec 12 × BitVec 12)} (k : Covers 0x40000000000000000000000000000000000000000000000000000000000000000000000000000000000000000000000000000000000000000000000000 m) (h : Only m r s) : Only m r (State.telemetry s x1) := by
  unfold State.telemetry
  try dsimp only
  repeat' (first
    | (intro _; try dsimp only)
    | with_reducible assumption
    | with_reducible apply Only.foldl
    | (with_reducible refine State.wrs_only _ (by simp only [List.forall_mem_cons, List.not_mem_nil, false_imp_iff, implies_true, and_true]; (repeat' apply And.intro) <;> exact k.words (by decide)) ?_))

theorem tideline_only {m : Nat} {r s : State} {x0 : Nat} {x1 : List (BitVec 12 × BitVec 12)} {x2 : ℤ} {x3 : Nat} (k : Covers 0x3060000006e00000000000000000000000000000000000000010000000000000000000000000000000000000000000008000002dc00000000000700000000000200 m) (h : Only m r s) : Only m r (tideline x0 x1 x2 x3 s) := by
  unfold tideline
  try dsimp only
  repeat' (first
    | (intro _; try dsimp only)
    | with_reducible assumption
    | with_reducible apply Only.foldl
    | with_reducible apply Only.ite
    | with_reducible refine State.telemetry_only (k.sub (by decide)) ?_
    | with_reducible refine State.evaluateDie_only (k.sub (by decide)) ?_
    | with_reducible refine State.settleStretch_only (k.sub (by decide)) ?_
    | with_reducible refine State.stepBudget_only (k.sub (by decide)) ?_
    | with_reducible refine State.countEnergy_only (k.sub (by decide)) ?_)

theorem execTidelineEvaluation_only {m : Nat} {r s : State} {x0 : Fin 2} {x1 : List (BitVec 12 × BitVec 12)} {x2 : ℤ} {x3 : BitVec 12} (k : Covers 0x3060000006e00000000000000000000000000000000000000010000000000000000000000000000000000000000000008000002dc00000000000700000000000200 m) (h : Only m r s) : OnlyRes m r (execTidelineEvaluation x0 x1 x2 x3 s) := by
  unfold execTidelineEvaluation
  try dsimp only
  repeat' (first
    | (intro _; try dsimp only)
    | with_reducible assumption
    | with_reducible refine whenLive_only (k.sub (by decide)) ?_ ?_
    | with_reducible refine tideline_only (k.sub (by decide)) ?_)

theorem voltageUp_only {m : Nat} {r s : State} {x0 : Nat} (k : Covers 0x100000000000000000000000000000000000000000000000000000400000000000000000000000000 m) (h : Only m r s) : Only m r (voltageUp x0 s) := by
  unfold voltageUp
  try dsimp only
  repeat' (first
    | with_reducible assumption
    | fail_if_no_progress (with_reducible refine Only.pmTo (by apply PowerStOnly.of <;> first | exact .inl (k.bit (by decide)) | exact .inr rfl) ?_)
    | with_reducible apply Only.ite
    | with_reducible refine State.wr_only _ _ _ (k.words (by decide)) ?_)

theorem execVoltageRampDone_only {m : Nat} {r s : State} {x0 : Fin 2} (k : Covers 0x100000000000000000000000000000000000000000000000000000400000000000000000000000000 m) (h : Only m r s) : OnlyRes m r (execVoltageRampDone x0 s) := by
  unfold execVoltageRampDone
  try dsimp only
  repeat' (first
    | (intro _; try dsimp only)
    | with_reducible assumption
    | with_reducible refine whenLive_only (k.sub (by decide)) ?_ ?_
    | with_reducible refine voltageUp_only (k.sub (by decide)) ?_)

theorem variantChange_only {m : Nat} {r s : State} {x0 : Nat} (k : Covers 0x20000000000000000000000000000000000000000100000000000000000000000000000000000000000000000000000000000000000000000000000000 m) (h : Only m r s) : Only m r (variantChange x0 s) := by
  unfold variantChange
  try dsimp only
  repeat' (first
    | with_reducible assumption
    | with_reducible apply Only.ite
    | with_reducible refine State.wr_only _ _ _ (k.words (by decide)) ?_
    | with_reducible refine State.addSat_only _ _ _ (k.words (by decide)) ?_)

theorem execVariantChange_only {m : Nat} {r s : State} {x0 : Fin 2} (k : Covers 0x20000000000000000000000000000000000000000100000000000000000000000000000000000000000000000000000000000000000000000000000000 m) (h : Only m r s) : OnlyRes m r (execVariantChange x0 s) := by
  unfold execVariantChange
  try dsimp only
  repeat' (first
    | (intro _; try dsimp only)
    | with_reducible assumption
    | with_reducible refine whenLive_only (k.sub (by decide)) ?_ ?_
    | with_reducible refine variantChange_only (k.sub (by decide)) ?_)

theorem tempEmergency_only {m : Nat} {r s : State} {x0 : Nat} {x1 : Nat} (k : Covers 0x30600000066000000000000000000000000000000000000000100000000000000000000000000000000000000000000080000021400000000000700000000000200 m) (h : Only m r s) : Only m r (tempEmergency x0 x1 s) := by
  unfold tempEmergency
  try dsimp only
  repeat' (first
    | with_reducible assumption
    | with_reducible apply Only.ite
    | with_reducible refine State.raise_only (k.sub (by decide)) ?_
    | with_reducible refine State.setErr_only _ _ (k.err (by decide) (by decide)) ?_
    | with_reducible refine State.wr_only _ _ _ (k.words (by decide)) ?_
    | with_reducible refine State.enterLimit_only (k.sub (by decide)) ?_)

theorem execTempEmergency_only {m : Nat} {r s : State} {x0 : Fin 9} {x1 : BitVec 12} (k : Covers 0x30600000066000000000000000000000000000000000000000100000000000000000000000000000000000000000000080000021400000000000700000000000200 m) (h : Only m r s) : OnlyRes m r (execTempEmergency x0 x1 s) := by
  unfold execTempEmergency
  try dsimp only
  repeat' (first
    | (intro _; try dsimp only)
    | with_reducible assumption
    | with_reducible refine whenLive_only (k.sub (by decide)) ?_ ?_
    | with_reducible refine tempEmergency_only (k.sub (by decide)) ?_)

theorem execRailCurrentLimit_only {m : Nat} {r s : State} {x0 : Rail} {x1 : BitVec 16} (k : Covers 0x30600000066000000000000000000000000000000000000000100000000000000000000000000000000000000000000080000021400000000000700000000000200 m) (h : Only m r s) : OnlyRes m r (execRailCurrentLimit x0 x1 s) := by
  unfold execRailCurrentLimit
  try dsimp only
  repeat' (first
    | (intro _; try dsimp only)
    | with_reducible assumption
    | with_reducible refine whenLive_only (k.sub (by decide)) ?_ ?_
    | with_reducible refine State.enterLimit_only (k.sub (by decide)) ?_)

theorem safetyRelease_only {m : Nat} {r s : State} {x0 : Limit} (k : Covers 0x20000000000000000000000000000000000000000000000000000000000000000000000000000000000000000000001000000000000000000000000000 m) (h : Only m r s) : Only m r (safetyRelease x0 s) := by
  unfold safetyRelease
  try dsimp only
  repeat' (first
    | (intro _; try dsimp only)
    | with_reducible assumption
    | fail_if_no_progress (with_reducible refine Only.pmTo (by apply PowerStOnly.of <;> first | exact .inl (k.bit (by decide)) | exact .inr rfl) ?_)
    | with_reducible apply Only.foldl
    | with_reducible apply Only.ite
    | with_reducible refine State.wr_only _ _ _ (k.words (by decide)) ?_
    | split)

theorem execSafetyRelease_only {m : Nat} {r s : State} {x0 : Limit} (k : Covers 0x20000000000000000000000000000000000000000000000000000000000000000000000000000000000000000000001000000000000000000000000000 m) (h : Only m r s) : OnlyRes m r (execSafetyRelease x0 s) := by
  unfold execSafetyRelease
  try dsimp only
  repeat' (first
    | (intro _; try dsimp only)
    | with_reducible assumption
    | with_reducible refine whenLive_only (k.sub (by decide)) ?_ ?_
    | with_reducible refine safetyRelease_only (k.sub (by decide)) ?_)

/-! ### Machine/TimeCmd.lean -/

theorem State.tbRefuse_only {m : Nat} {r s : State} (k : Covers 0x20000000000000000000000000000000000000000000000000000000000000000000000000000000000000000000000000000000000000000 m) (h : Only m r s) : Only m r (State.tbRefuse s) := by
  unfold State.tbRefuse
  try dsimp only
  repeat' (first
    | with_reducible assumption
    | with_reducible refine State.setErr_only _ _ (k.err (by decide) (by decide)) ?_)

theorem tbCfgWrite_only {m : Nat} {r s : State} {x0 : Word} (k : Covers 0x60000000000000000000000000000000000000000000000000000000000000000000000000000000000000000000000000000000000000000 m) (h : Only m r s) : Only m r (tbCfgWrite x0 s) := by
  unfold tbCfgWrite
  try dsimp only
  repeat' (first
    | with_reducible assumption
    | with_reducible apply Only.ite
    | with_reducible refine State.tbRefuse_only (k.sub (by decide)) ?_
    | with_reducible refine State.plainWrite_only _ _ _ (k.words (by decide)) ?_)

theorem snapCtl_only {m : Nat} {r s : State} {x0 : Word} (k : Covers 0x6000000000000000000000000000000000000000000000000000000000000000000000000000000000000000000000000000000000000000000 m) (h : Only m r s) : Only m r (snapCtl x0 s) := by
  unfold snapCtl
  try dsimp only
  repeat' (first
    | (intro _; try dsimp only)
    | with_reducible assumption
    | with_reducible apply Only.foldl
    | with_reducible apply Only.ite
    | (with_reducible refine State.wrs_only _ (by simp only [List.forall_mem_cons, List.not_mem_nil, false_imp_iff, implies_true, and_true]; (repeat' apply And.intro) <;> exact k.words (by decide)) ?_))

theorem State.unfollow_only {m : Nat} {r s : State} {x1 : Nat} (k : Covers 0x210000000000000000000000000000000000000000000000000000000000000000000000000000000000000000000000000003000000000000 m) (h : Only m r s) : Only m r (State.unfollow s x1) := by
  unfold State.unfollow
  try dsimp only
  repeat' (first
    | with_reducible assumption
    | with_reducible refine State.setLocked_only (k.sub (by decide)) ?_
    | with_reducible refine State.wr_only _ _ _ (k.words (by decide)) ?_
    | with_reducible refine State.setDom_only (k.sub (by decide)) ?_)

theorem State.gateResumes_only {m : Nat} {r s : State} {x1 : Nat} (k : Covers 0x90000000000000000000000000000000000000000000000000000000100000000000 m) (h : Only m r s) : Only m r (State.gateResumes s x1) := by
  unfold State.gateResumes
  try dsimp only
  repeat' (first
    | with_reducible assumption
    | with_reducible apply Only.ite
    | with_reducible refine gateChange_only (k.sub (by decide)) ?_
    | with_reducible refine State.setGate_only (k.sub (by decide)) ?_)

theorem State.slotResumes_only {m : Nat} {r s : State} {x1 : Nat} {x2 : Nat} (k : Covers 0x100200000000000000000000000000000000000000000000000000000000000800000000000000000000 m) (h : Only m r s) : Only m r (State.slotResumes s x1 x2) := by
  unfold State.slotResumes
  try dsimp only
  repeat' (first
    | with_reducible assumption
    | with_reducible apply Only.ite
    | with_reducible refine State.modMslot_only (k.sub (by decide)) ?_
    | with_reducible refine State.setErr_only _ _ (k.err (by decide) (by decide)) ?_
    | with_reducible refine State.addSat_only _ _ _ (k.words (by decide)) ?_)

theorem State.domainRises_only {m : Nat} {r s : State} {x1 : Nat} (k : Covers 0x30600000000000000000000000000000000000000000000100200000000000090000000000000000000000000c00000080000020000000800800700100000000200 m) (h : Only m r s) : Only m r (State.domainRises s x1) := by
  unfold State.domainRises
  try dsimp only
  repeat' (first
    | (intro _; try dsimp only)
    | with_reducible assumption
    | with_reducible apply Only.foldl
    | with_reducible apply Only.ite
    | with_reducible refine State.rise_only (k.sub (by decide)) ?_
    | with_reducible refine State.gateResumes_only (k.sub (by decide)) ?_
    | with_reducible refine State.slotResumes_only (k.sub (by decide)) ?_)

theorem State.enableDomain_only {m : Nat} {r s : State} {x1 : Nat} (k : Covers 0x30600000000000000200000000000000000000000000000100200000000000090000000000000000000000000c00000080000020000000800800703100000000200 m) (h : Only m r s) : Only m r (State.enableDomain s x1) := by
  unfold State.enableDomain
  try dsimp only
  repeat' (first
    | with_reducible assumption
    | with_reducible apply Only.ite
    | with_reducible refine State.wr_only _ _ _ (k.words (by decide)) ?_
    | with_reducible refine State.setDom_only (k.sub (by decide)) ?_
    | with_reducible refine State.domainRises_only (k.sub (by decide)) ?_)

theorem State.forgetArrivals_only {m : Nat} {r s : State} (k : Covers 0x10000000 m) (h : Only m r s) : Only m r (State.forgetArrivals s) := by
  unfold State.forgetArrivals
  try dsimp only
  repeat' (first
    | with_reducible assumption
    | fail_if_no_progress (with_reducible refine Only.pcTo (by apply PacketStOnly.of <;> first | exact .inl (k.bit (by decide)) | exact .inr rfl) ?_))

theorem State.domainFalls_only {m : Nat} {r s : State} {x1 : Nat} (k : Covers 0x30600000000000000010000000000000000000000000000000200000000000000040000000000000000000000c00000080000020000000000800700100010000200 m) (h : Only m r s) : Only m r (State.domainFalls s x1) := by
  unfold State.domainFalls
  try dsimp only
  repeat' (first
    | (intro _; try dsimp only)
    | with_reducible assumption
    | with_reducible apply Only.foldl
    | with_reducible apply Only.ite
    | with_reducible refine State.setLocked_only (k.sub (by decide)) ?_
    | with_reducible refine State.gatesDomainLost_only (k.sub (by decide)) ?_
    | with_reducible refine State.fall_only (k.sub (by decide)) ?_
    | with_reducible refine State.setErr_only _ _ (k.err (by decide) (by decide)) ?_
    | with_reducible refine State.forgetArrivals_only (k.sub (by decide)) ?_)

theorem State.disableDomain_only {m : Nat} {r s : State} {x1 : Nat} (k : Covers 0x30600000000000000010000000000000000000000000000000200000000000000040000000000000000000000c00000080000020000000000800703100010000200 m) (h : Only m r s) : Only m r (State.disableDomain s x1) := by
  unfold State.disableDomain
  try dsimp only
  repeat' (first
    | with_reducible assumption
    | with_reducible refine State.domainFalls_only (k.sub (by decide)) ?_
    | with_reducible refine State.setDom_only (k.sub (by decide)) ?_)

theorem State.stepDomain_only {m : Nat} {r s : State} {x1 : Nat} (k : Covers 0x30600000000000000010000000000000000000000000000000200000000000000040000000000000000000000c00000080000020000000000800703100010000200 m) (h : Only m r s) : Only m r (State.stepDomain s x1) := by
  unfold State.stepDomain
  try dsimp only
  repeat' (first
    | with_reducible assumption
    | with_reducible refine State.setDom_only (k.sub (by decide)) ?_
    | with_reducible refine State.domainFalls_only (k.sub (by decide)) ?_)

theorem domCtl_only {m : Nat} {r s : State} {x0 : Nat} {x1 : Word} (k : Covers 0x30600000000000000330000000000000000000000000000100200000000000090040000000000000000000000c00000080000020000000800800703100010000200 m) (h : Only m r s) : Only m r (domCtl x0 x1 s) := by
  unfold domCtl
  try dsimp only
  repeat' (first
    | with_reducible assumption
    | with_reducible apply Only.ite
    | with_reducible refine State.tbRefuse_only (k.sub (by decide)) ?_
    | with_reducible refine State.plainWrite_only _ _ _ (k.words (by decide)) ?_
    | with_reducible refine State.unfollow_only (k.sub (by decide)) ?_
    | with_reducible refine State.enableDomain_only (k.sub (by decide)) ?_
    | with_reducible refine State.disableDomain_only (k.sub (by decide)) ?_
    | with_reducible refine State.stepDomain_only (k.sub (by decide)) ?_)

theorem incrWrite_only {m : Nat} {r s : State} {x0 : Nat} {x1 : Word} (k : Covers 0x220000000000000000000000000000000000000000000000000000000000000000000000000000000000000000000000000000000000000000 m) (h : Only m r s) : Only m r (incrWrite x0 x1 s) := by
  unfold incrWrite
  try dsimp only
  repeat' (first
    | with_reducible assumption
    | with_reducible apply Only.ite
    | with_reducible refine State.tbRefuse_only (k.sub (by decide)) ?_
    | with_reducible refine State.plainWrite_only _ _ _ (k.words (by decide)) ?_)

theorem adjWrite_only {m : Nat} {r s : State} {x0 : Nat} {x1 : Word} (k : Covers 0x20000000000000000000000000000000000000000000000000000000000000000000000000000000000000000000000000003000000000000 m) (h : Only m r s) : Only m r (adjWrite x0 x1 s) := by
  unfold adjWrite
  try dsimp only
  repeat' (first
    | with_reducible assumption
    | with_reducible apply Only.ite
    | with_reducible refine State.tbRefuse_only (k.sub (by decide)) ?_
    | with_reducible refine State.setDom_only (k.sub (by decide)) ?_)

theorem tcCfgWrite_only {m : Nat} {r s : State} {x0 : Word} (k : Covers 0x8000000000000000000000000000000000000000000000000000000000000000000000000000000000000000000000000000000000010000000 m) (h : Only m r s) : Only m r (tcCfgWrite x0 s) := by
  unfold tcCfgWrite
  try dsimp only
  repeat' (first
    | with_reducible assumption
    | with_reducible apply Only.ite
    | with_reducible refine State.plainWrite_only _ _ _ (k.words (by decide)) ?_
    | with_reducible refine State.forgetArrivals_only (k.sub (by decide)) ?_)

theorem State.setReplica_only {m : Nat} {r s : State} {x1 : Nat} {x2 : ℤ} (k : Covers 0x80000000000000 m) (h : Only m r s) : Only m r (State.setReplica s x1 x2) := by
  unfold State.setReplica
  try dsimp only
  repeat' (first
    | with_reducible assumption
    | fail_if_no_progress (with_reducible refine Only.tbTo (by apply TimeStOnly.of <;> first | exact .inl (k.bit (by decide)) | exact .inr rfl) ?_))

theorem State.alignReplica_only {m : Nat} {r s : State} {x1 : Nat} (k : Covers 0x4000000000000000000000000000000000000000000000000000000000000000000000000000000000000000000000000000000080000000000000 m) (h : Only m r s) : Only m r (State.alignReplica s x1) := by
  unfold State.alignReplica
  try dsimp only
  repeat' (first
    | with_reducible assumption
    | with_reducible refine State.wr_only _ _ _ (k.words (by decide)) ?_
    | with_reducible refine State.setReplica_only (k.sub (by decide)) ?_)

theorem State.driftReplica_only {m : Nat} {r s : State} {x1 : Nat} {x2 : ℤ} (k : Covers 0x80000000000000 m) (h : Only m r s) : Only m r (State.driftReplica s x1 x2) := by
  unfold State.driftReplica
  try dsimp only
  repeat' (first
    | with_reducible assumption
    | with_reducible refine State.setReplica_only (k.sub (by decide)) ?_)

theorem State.realign_only {m : Nat} {r s : State} {x1 : Nat} (k : Covers 0x30600000000004000020000000000000000000000000000000000000000000000000000000000000000000000000000080000020000000000000780000000000200 m) (h : Only m r s) : Only m r (State.realign s x1) := by
  unfold State.realign
  try dsimp only
  repeat' (first
    | with_reducible assumption
    | with_reducible apply Only.ite
    | with_reducible refine State.raise_only (k.sub (by decide)) ?_
    | with_reducible refine State.setErr_only _ _ (k.err (by decide) (by decide)) ?_
    | with_reducible refine State.alignReplica_only (k.sub (by decide)) ?_
    | with_reducible refine State.addSat_only _ _ _ (k.words (by decide)) ?_)

theorem execTimeAdjust_only {m : Nat} {r s : State} {x0 : Fin 2} {x1 : Word} (k : Covers 0x20000000000000000000000000000000000000000000000000000000000000000000000000000000000020000000000000003000000000000 m) (h : Only m r s) : OnlyRes m r (execTimeAdjust x0 x1 s) := by
  unfold execTimeAdjust
  try dsimp only
  repeat' (first
    | (intro _; try dsimp only)
    | with_reducible assumption
    | with_reducible refine whenBar_only (k.sub (by decide)) ?_ ?_
    | with_reducible refine adjWrite_only (k.sub (by decide)) ?_)

theorem execTimeStep_only {m : Nat} {r s : State} {x0 : Fin 2} {x1 : Word} (k : Covers 0x30600000000000000330000000000000000000000000000100200000000000090040000000000000000000000c00000080000020000000800800703100010000200 m) (h : Only m r s) : OnlyRes m r (execTimeStep x0 x1 s) := by
  unfold execTimeStep
  try dsimp only
  repeat' (first
    | (intro _; try dsimp only)
    | with_reducible assumption
    | with_reducible refine whenBar_only (k.sub (by decide)) ?_ ?_
    | with_reducible refine domCtl_only (k.sub (by decide)) ?_)

theorem stepSettled_only {m : Nat} {r s : State} {x0 : Nat} (k : Covers 0x30600000000000000000000000000000000000000000000100200000000000090000000000000000000000000c00000080000020000000800800703100000000200 m) (h : Only m r s) : Only m r (stepSettled x0 s) := by
  unfold stepSettled
  try dsimp only
  repeat' (first
    | with_reducible assumption
    | with_reducible apply Only.ite
    | with_reducible refine State.setDom_only (k.sub (by decide)) ?_
    | with_reducible refine State.domainRises_only (k.sub (by decide)) ?_)

theorem execTimeStepSettled_only {m : Nat} {r s : State} {x0 : Fin 2} (k : Covers 0x30600000000000000000000000000000000000000000000100200000000000090000000000000000000000000c00000080000020000000800800703100000000200 m) (h : Only m r s) : OnlyRes m r (execTimeStepSettled x0 s) := by
  unfold execTimeStepSettled
  try dsimp only
  repeat' (first
    | (intro _; try dsimp only)
    | with_reducible assumption
    | with_reducible refine whenLive_only (k.sub (by decide)) ?_ ?_
    | with_reducible refine stepSettled_only (k.sub (by decide)) ?_)

theorem execDomainEnable_only {m : Nat} {r s : State} {x0 : Fin 2} {x1 : Word} (k : Covers 0x30600000000000000330000000000000000000000000000100200000000000090040000000000000000000000c00000080000020000000800800703100010000200 m) (h : Only m r s) : OnlyRes m r (execDomainEnable x0 x1 s) := by
  unfold execDomainEnable
  try dsimp only
  repeat' (first
    | (intro _; try dsimp only)
    | with_reducible assumption
    | with_reducible refine whenBar_only (k.sub (by decide)) ?_ ?_
    | with_reducible refine domCtl_only (k.sub (by decide)) ?_)

theorem execDomainFollow_only {m : Nat} {r s : State} {x0 : Fin 2} {x1 : Word} (k : Covers 0x30600000000000000330000000000000000000000000000100200000000000090040000000000000000000000c00000080000020000000800800703100010000200 m) (h : Only m r s) : OnlyRes m r (execDomainFollow x0 x1 s) := by
  unfold execDomainFollow
  try dsimp only
  repeat' (first
    | (intro _; try dsimp only)
    | with_reducible assumption
    | with_reducible refine whenBar_only (k.sub (by decide)) ?_ ?_
    | with_reducible refine domCtl_only (k.sub (by decide)) ?_)

theorem tclkLost_only {m : Nat} {r s : State} (k : Covers 0x30600000000000000030000000000000000000000000000000000000000000000000000000000000000000000000000080000020000000000000700000000000200 m) (h : Only m r s) : Only m r (tclkLost s) := by
  unfold tclkLost
  try dsimp only
  repeat' (first
    | with_reducible assumption
    | with_reducible apply Only.ite
    | with_reducible refine State.raise_only (k.sub (by decide)) ?_
    | with_reducible refine State.setErr_only _ _ (k.err (by decide) (by decide)) ?_
    | (with_reducible refine State.wrs_only _ (by simp only [List.forall_mem_cons, List.not_mem_nil, false_imp_iff, implies_true, and_true]; (repeat' apply And.intro) <;> exact k.words (by decide)) ?_))

theorem execTclkLost_only {m : Nat} {r s : State} (k : Covers 0x30600000000000000030000000000000000000000000000000000000000000000000000000000000000000000000000080000020000000000000700000000000200 m) (h : Only m r s) : OnlyRes m r (execTclkLost s) := by
  unfold execTclkLost
  try dsimp only
  repeat' (first
    | (intro _; try dsimp only)
    | with_reducible assumption
    | with_reducible refine whenLive_only (k.sub (by decide)) ?_ ?_
    | with_reducible refine tclkLost_only (k.sub (by decide)) ?_)

theorem holdoverExpiry_only {m : Nat} {r s : State} (k : Covers 0x30600000000000000030000000000000000000000000000000200000000000000040000000000000000000000c00000080000020000000000800740100010000200 m) (h : Only m r s) : Only m r (holdoverExpiry s) := by
  unfold holdoverExpiry
  try dsimp only
  repeat' (first
    | with_reducible assumption
    | fail_if_no_progress (with_reducible refine Only.tbTo (by apply TimeStOnly.of <;> first | exact .inl (k.bit (by decide)) | exact .inr rfl) ?_)
    | with_reducible apply Only.ite
    | with_reducible refine State.raise_only (k.sub (by decide)) ?_
    | with_reducible refine State.setErr_only _ _ (k.err (by decide) (by decide)) ?_
    | with_reducible refine State.domainFalls_only (k.sub (by decide)) ?_)

theorem execHoldoverExpiry_only {m : Nat} {r s : State} (k : Covers 0x30600000000000000030000000000000000000000000000000200000000000000040000000000000000000000c00000080000020000000000800740100010000200 m) (h : Only m r s) : OnlyRes m r (execHoldoverExpiry s) := by
  unfold execHoldoverExpiry
  try dsimp only
  repeat' (first
    | (intro _; try dsimp only)
    | with_reducible assumption
    | with_reducible refine whenLive_only (k.sub (by decide)) ?_ ?_
    | with_reducible refine holdoverExpiry_only (k.sub (by decide)) ?_)

theorem tclkRelock_only {m : Nat} {r s : State} (k : Covers 0x30600000000000000010000000000000000000000000000100200000000000090000000000000000000000000c00000080000020000000800800740100000000200 m) (h : Only m r s) : Only m r (tclkRelock s) := by
  unfold tclkRelock
  try dsimp only
  repeat' (first
    | with_reducible assumption
    | fail_if_no_progress (with_reducible refine Only.tbTo (by apply TimeStOnly.of <;> first | exact .inl (k.bit (by decide)) | exact .inr rfl) ?_)
    | with_reducible apply Only.ite
    | (with_reducible refine State.wrs_only _ (by simp only [List.forall_mem_cons, List.not_mem_nil, false_imp_iff, implies_true, and_true]; (repeat' apply And.intro) <;> exact k.words (by decide)) ?_)
    | with_reducible refine State.domainRises_only (k.sub (by decide)) ?_)

theorem execTclkRelock_only {m : Nat} {r s : State} (k : Covers 0x30600000000000000010000000000000000000000000000100200000000000090000000000000000000000000c00000080000020000000800800740100000000200 m) (h : Only m r s) : OnlyRes m r (execTclkRelock s) := by
  unfold execTclkRelock
  try dsimp only
  repeat' (first
    | (intro _; try dsimp only)
    | with_reducible assumption
    | with_reducible refine whenLive_only (k.sub (by decide)) ?_ ?_
    | with_reducible refine tclkRelock_only (k.sub (by decide)) ?_)

theorem replicaCheck_only {m : Nat} {r s : State} {x0 : List (Nat × ℤ)} (k : Covers 0x30600000000004000020000000000000000000000000000000000000000000000000000000000000000000000000000080000020000000000000780000000000200 m) (h : Only m r s) : Only m r (replicaCheck x0 s) := by
  unfold replicaCheck
  try dsimp only
  repeat' (first
    | (intro _; try dsimp only)
    | with_reducible assumption
    | with_reducible apply Only.foldl
    | with_reducible refine State.realign_only (k.sub (by decide)) ?_
    | with_reducible refine State.driftReplica_only (k.sub (by decide)) ?_)

theorem execReplicaCheck_only {m : Nat} {r s : State} {x0 : List (Fin 9 × ℤ)} (k : Covers 0x30600000000004000020000000000000000000000000000000000000000000000000000000000000000000000000000080000020000000000000780000000000200 m) (h : Only m r s) : OnlyRes m r (execReplicaCheck x0 s) := by
  unfold execReplicaCheck
  try dsimp only
  repeat' (first
    | (intro _; try dsimp only)
    | with_reducible assumption
    | with_reducible refine whenLive_only (k.sub (by decide)) ?_ ?_
    | with_reducible refine replicaCheck_only (k.sub (by decide)) ?_)

theorem execTimeSnapshot_only {m : Nat} {r s : State} {x0 : Word} (k : Covers 0x6000000000000000000000000000000000000000000000000000000000000000000000000000000000000020000000000000000000000000000 m) (h : Only m r s) : OnlyRes m r (execTimeSnapshot x0 s) := by
  unfold execTimeSnapshot
  try dsimp only
  repeat' (first
    | (intro _; try dsimp only)
    | with_reducible assumption
    | with_reducible refine whenBar_only (k.sub (by decide)) ?_ ?_
    | with_reducible refine snapCtl_only (k.sub (by decide)) ?_)

theorem execDomainLocked_only {m : Nat} {r s : State} {x0 : Fin 2} (k : Covers 0x10000000000000000000000000000000000000000000000000000000000000000000000000000000000000000000000000000000000000000 m) (h : Only m r s) : OnlyRes m r (execDomainLocked x0 s) := by
  unfold execDomainLocked
  try dsimp only
  repeat' (first
    | (intro _; try dsimp only)
    | with_reducible assumption
    | with_reducible apply Only.ite
    | with_reducible refine whenLive_only (k.sub (by decide)) ?_ ?_
    | with_reducible refine State.setLocked_only (k.sub (by decide)) ?_)

/-! ### Machine/Trigger.lean -/

theorem ppsCfgWrite_only {m : Nat} {r s : State} {x0 : Word} (k : Covers 0x20020000000000000000000000000000000000000000000000000000000000000000000000000000000000000000000000000000000000000000 m) (h : Only m r s) : Only m r (ppsCfgWrite x0 s) := by
  unfold ppsCfgWrite
  try dsimp only
  repeat' (first
    | with_reducible assumption
    | with_reducible apply Only.ite
    | with_reducible refine State.tbRefuse_only (k.sub (by decide)) ?_
    | with_reducible refine State.plainWrite_only _ _ _ (k.words (by decide)) ?_)

theorem State.drivePin_only {m : Nat} {r s : State} {x1 : Nat} {x2 : Bool} (k : Covers 0x20000000000000010000000000000 m) (h : Only m r s) : Only m r (State.drivePin s x1 x2) := by
  unfold State.drivePin
  try dsimp only
  repeat' (first
    | with_reducible assumption
    | fail_if_no_progress (with_reducible refine Only.tbTo (by apply TimeStOnly.of <;> first | exact .inl (k.bit (by decide)) | exact .inr rfl) ?_)
    | with_reducible apply Only.ite
    | with_reducible refine State.emit_only _ (k.bit (i := 113) (by decide)) ?_)

theorem triggerWrite_only {m : Nat} {r s : State} {x0 : Nat} {x1 : Nat} {x2 : Word} (k : Covers 0x3c0020000000000000000000000000000000000000000000000000000000000000000000000000000000000020000000000000010000000000000 m) (h : Only m r s) : Only m r (triggerWrite x0 x1 x2 s) := by
  unfold triggerWrite
  have ht : Only m r (s.plainWrite (triggerReg x1) x0 x2) := by
    unfold triggerReg
    split
    all_goals exact State.plainWrite_only _ _ _ (k.words (by decide)) h
  try dsimp only
  repeat' (first
    | with_reducible assumption
    | with_reducible apply Only.ite
    | with_reducible refine State.drivePin_only (k.sub (by decide)) ?_
    | with_reducible refine State.tbRefuse_only (k.sub (by decide)) ?_)

theorem capCtl_only {m : Nat} {r s : State} {x0 : Nat} {x1 : Word} (k : Covers 0x2000020000000000000000000000000000000000000000000000000000000000000000000000000000000000000000000000000004000000000000 m) (h : Only m r s) : Only m r (capCtl x0 x1 s) := by
  unfold capCtl
  try dsimp only
  repeat' (first
    | with_reducible assumption
    | fail_if_no_progress (with_reducible refine Only.tbTo (by apply TimeStOnly.of <;> first | exact .inl (k.bit (by decide)) | exact .inr rfl) ?_)
    | with_reducible apply Only.ite
    | with_reducible refine State.tbRefuse_only (k.sub (by decide)) ?_
    | with_reducible refine State.plainWrite_only _ _ _ (k.words (by decide)) ?_)

theorem captureEdge_only {m : Nat} {r s : State} {x0 : Nat} {x1 : Bool} (k : Covers 0x2000000000000000000000000000000000000000000000000000000000000000000000000000000000000000000000000000c000000000000 m) (h : Only m r s) : Only m r (captureEdge x0 x1 s) := by
  unfold captureEdge
  try dsimp only
  repeat' (first
    | with_reducible assumption
    | fail_if_no_progress (with_reducible refine Only.tbTo (by apply TimeStOnly.of <;> first | exact .inl (k.bit (by decide)) | exact .inr rfl) ?_)
    | with_reducible apply Only.ite
    | with_reducible refine State.setErr_only _ _ (k.err (by decide) (by decide)) ?_)

theorem execTriggerConfigWrite_only {m : Nat} {r s : State} {x0 : Fin 8} {x1 : Fin 4} {x2 : Word} (k : Covers 0x3c0020000000000000000000000000000000000000000000000000000000000000000000000000000000000020000000000000010000000000000 m) (h : Only m r s) : OnlyRes m r (execTriggerConfigWrite x0 x1 x2 s) := by
  unfold execTriggerConfigWrite
  try dsimp only
  repeat' (first
    | (intro _; try dsimp only)
    | with_reducible assumption
    | with_reducible refine whenBar_only (k.sub (by decide)) ?_ ?_
    | with_reducible refine triggerWrite_only (k.sub (by decide)) ?_)

theorem triggerOutput_only {m : Nat} {r s : State} {x0 : Nat} {x1 : Bool} (k : Covers 0x20000000000000010000000000000 m) (h : Only m r s) : Only m r (triggerOutput x0 x1 s) := by
  unfold triggerOutput
  try dsimp only
  repeat' (first
    | with_reducible assumption
    | with_reducible apply Only.ite
    | with_reducible refine State.drivePin_only (k.sub (by decide)) ?_)

theorem execTriggerOutputChange_only {m : Nat} {r s : State} {x0 : Fin 8} {x1 : Bool} (k : Covers 0x20000000000000010000000000000 m) (h : Only m r s) : OnlyRes m r (execTriggerOutputChange x0 x1 s) := by
  unfold execTriggerOutputChange
  try dsimp only
  repeat' (first
    | (intro _; try dsimp only)
    | with_reducible assumption
    | with_reducible refine whenLive_only (k.sub (by decide)) ?_ ?_
    | with_reducible refine triggerOutput_only (k.sub (by decide)) ?_)

theorem ppsPulse_only {m : Nat} {r s : State} {x0 : Bool} (k : Covers 0x20000000000000020000000000000 m) (h : Only m r s) : Only m r (ppsPulse x0 s) := by
  unfold ppsPulse
  try dsimp only
  repeat' (first
    | with_reducible assumption
    | fail_if_no_progress (with_reducible refine Only.tbTo (by apply TimeStOnly.of <;> first | exact .inl (k.bit (by decide)) | exact .inr rfl) ?_)
    | with_reducible apply Only.ite
    | with_reducible refine State.emit_only _ (k.bit (i := 113) (by decide)) ?_)

theorem execPpsOutputPulse_only {m : Nat} {r s : State} {x0 : Bool} (k : Covers 0x20000000000000020000000000000 m) (h : Only m r s) : OnlyRes m r (execPpsOutputPulse x0 s) := by
  unfold execPpsOutputPulse
  try dsimp only
  repeat' (first
    | (intro _; try dsimp only)
    | with_reducible assumption
    | with_reducible refine whenLive_only (k.sub (by decide)) ?_ ?_
    | with_reducible refine ppsPulse_only (k.sub (by decide)) ?_)

theorem execCaptureEdge_only {m : Nat} {r s : State} {x0 : Fin 5} {x1 : Bool} (k : Covers 0x2000000000000000000000000000000000000000000000000000000000000000000000000000000000000000000000000000c000000000000 m) (h : Only m r s) : OnlyRes m r (execCaptureEdge x0 x1 s) := by
  unfold execCaptureEdge
  try dsimp only
  repeat' (first
    | (intro _; try dsimp only)
    | with_reducible assumption
    | with_reducible refine whenLive_only (k.sub (by decide)) ?_ ?_
    | with_reducible refine captureEdge_only (k.sub (by decide)) ?_)

theorem execCapturePop_only {m : Nat} {r s : State} {x0 : Fin 5} {x1 : Word} (k : Covers 0x2000020000000000000000000000000000000000000000000000000000000000000000000000000000000000020000000000000004000000000000 m) (h : Only m r s) : OnlyRes m r (execCapturePop x0 x1 s) := by
  unfold execCapturePop
  try dsimp only
  repeat' (first
    | (intro _; try dsimp only)
    | with_reducible assumption
    | with_reducible refine whenBar_only (k.sub (by decide)) ?_ ?_
    | with_reducible refine capCtl_only (k.sub (by decide)) ?_)

end Sys2Proof.Machine
end

