-- ==== Sys2Proof/Laws/OnlySlipway.lean ====
section
/-! SUPPORT. Every operation of Machine/Slipway.lean to Machine/Recovery.lean changes only the parts that its mask names: from a state that did so, it answers one
that did so. -/

namespace Sys2Proof.Machine

/-! ### Machine/Slipway.lean -/

theorem slipRegion_only {m : Nat} {r s : State} {x0 : Reg} {x1 : Nat} {x2 : Word} (k : Covers 0x30600000000000000000000000000000000000000000000000000000000000000000000000000000000000000000000080000020000000000000700000000000200 m) (g0 : Grants m x0) (h : Only m r s) : Only m r (slipRegion x0 x1 x2 s) := by
  unfold slipRegion
  try dsimp only
  repeat' (first
    | with_reducible assumption
    | with_reducible apply Only.ite
    | with_reducible refine State.refuseWrite_only (k.sub (by decide)) ?_
    | with_reducible refine State.plainWrite_only _ _ _ (by assumption) ?_)

theorem State.lastUse_only {m : Nat} {r s : State} {x1 : Nat} {x2 : Nat} (k : Covers 0x2000000000000000000 m) (h : Only m r s) : Only m r (State.lastUse s x1 x2) := by
  unfold State.lastUse
  try dsimp only
  repeat' (first
    | (intro _; try dsimp only)
    | with_reducible assumption
    | fail_if_no_progress (with_reducible refine Only.msTo (by apply MemStOnly.of <;> first | exact .inl (k.bit (by decide)) | exact .inr rfl) rfl ?_)
    | with_reducible apply Only.foldl)

theorem State.putSlip_only {m : Nat} {r s : State} {x1 : Nat} {x2 : Nat} {x3 : Nat} {x4 : Nat} (k : Covers 0x180000000 m) (h : Only m r s) : Only m r (State.putSlip s x1 x2 x3 x4) := by
  unfold State.putSlip
  try dsimp only
  repeat' (first
    | with_reducible assumption
    | with_reducible refine State.setSlip_only (k.sub (by decide)) ?_)

theorem State.losePage_only {m : Nat} {r s : State} {x1 : Nat} (k : Covers 0x10000000000000000000000000000000000020000000000000000800dd8000000 m) (h : Only m r s) : Only m r (State.losePage s x1) := by
  unfold State.losePage
  try dsimp only
  repeat' (first
    | (intro _; try dsimp only)
    | with_reducible assumption
    | with_reducible apply Only.foldl
    | with_reducible apply Only.ite
    | with_reducible refine State.modFrame_only (k.sub (by decide)) ?_
    | with_reducible refine State.queueAdd_only (k.sub (by decide)) ?_
    | with_reducible refine State.portAdd_only (k.sub (by decide)) ?_
    | with_reducible refine State.endCopy_only (k.sub (by decide)) ?_
    | with_reducible refine State.putSlip_only (k.sub (by decide)) ?_)

theorem State.takePage_only {m : Nat} {r s : State} {x1 : Nat} {x2 : Nat} {x3 : List Byte} (k : Covers 0x10000000 m) (h : Only m r s) : Only m r (State.takePage s x1 x2 x3) := by
  unfold State.takePage
  try dsimp only
  repeat' (first
    | (intro _; try dsimp only)
    | with_reducible assumption
    | with_reducible apply Only.foldl
    | with_reducible refine State.modFrame_only (k.sub (by decide)) ?_)

theorem execCounterSnapshot_only {m : Nat} {r s : State} {x0 : Fin 4096} {x1 : Bool} (k : Covers 0x90000020000000000000000000000000203 m) (h : Only m r s) : OnlyRes m r (execCounterSnapshot x0 x1 s) := by
  unfold execCounterSnapshot
  try dsimp only
  repeat' (first
    | (intro _; try dsimp only)
    | with_reducible assumption
    | with_reducible apply Only.ite
    | with_reducible refine runOpcode_only (k.sub (by decide)) ?_ ?_
    | with_reducible refine State.complete_only (k.sub (by decide)) ?_
    | with_reducible refine State.descWrite_only (k.sub (by decide)) ?_)

theorem slipwaySpill_only {m : Nat} {r s : State} {x0 : Nat} (k : Covers 0x3460000000000000000000000000000209a000000000000000000000000000000000000000000000000000000c0000008000002000000003f800700000788000200 m) (h : Only m r s) : Only m r (slipwaySpill x0 s) := by
  unfold slipwaySpill
  try dsimp only
  repeat' (first
    | with_reducible assumption
    | fail_if_no_progress (with_reducible refine Only.pcTo (by apply PacketStOnly.of <;> first | exact .inl (k.bit (by decide)) | exact .inr rfl) ?_)
    | with_reducible apply Only.ite
    | with_reducible refine State.setSlip_only (k.sub (by decide)) ?_
    | with_reducible refine State.settleAllPfc_only (k.sub (by decide)) ?_
    | with_reducible refine State.memWrite_only (k.sub (by decide)) ?_
    | split)

theorem execSlipwaySpill_only {m : Nat} {r s : State} {x0 : Fin 2} (k : Covers 0x3460000000000000000000000000000209a000000000000000000000000000000000000000000000000000000c0000008000002000000003f800700000788000200 m) (h : Only m r s) : OnlyRes m r (execSlipwaySpill x0 s) := by
  unfold execSlipwaySpill
  try dsimp only
  repeat' (first
    | (intro _; try dsimp only)
    | with_reducible assumption
    | with_reducible refine whenLive_only (k.sub (by decide)) ?_ ?_
    | with_reducible refine slipwaySpill_only (k.sub (by decide)) ?_)

theorem pageFetch_only {m : Nat} {r s : State} {x0 : Nat} (k : Covers 0x180000000 m) (h : Only m r s) : Only m r (pageFetch x0 s) := by
  unfold pageFetch
  try dsimp only
  repeat' (first
    | with_reducible assumption
    | with_reducible apply Only.ite
    | with_reducible refine State.setSlip_only (k.sub (by decide)) ?_)

theorem execSlipwayPageFetch_only {m : Nat} {r s : State} {x0 : Fin 1048576} (k : Covers 0x180000000 m) (h : Only m r s) : OnlyRes m r (execSlipwayPageFetch x0 s) := by
  unfold execSlipwayPageFetch
  try dsimp only
  repeat' (first
    | (intro _; try dsimp only)
    | with_reducible assumption
    | with_reducible refine whenLive_only (k.sub (by decide)) ?_ ?_
    | with_reducible refine pageFetch_only (k.sub (by decide)) ?_)

theorem fetchDone_only {m : Nat} {r s : State} {x0 : Nat} {x1 : Bool} (k : Covers 0x30600000000000000000000000000000018000000000000000000000000000000010000000000000000000000000000080000020000000002000700800dd8000200 m) (h : Only m r s) : Only m r (fetchDone x0 x1 s) := by
  unfold fetchDone
  try dsimp only
  repeat' (first
    | with_reducible assumption
    | with_reducible apply Only.ite
    | with_reducible refine State.putSlip_only (k.sub (by decide)) ?_
    | with_reducible refine State.lastUse_only (k.sub (by decide)) ?_
    | with_reducible refine State.takePage_only (k.sub (by decide)) ?_
    | with_reducible refine State.losePage_only (k.sub (by decide)) ?_
    | with_reducible refine State.uncorrectable_only (k.sub (by decide)) ?_)

theorem execSlipwayFetchDone_only {m : Nat} {r s : State} {x0 : Fin 1048576} {x1 : Bool} (k : Covers 0x30600000000000000000000000000000018000000000000000000000000000000010000000000000000000000000000080000020000000002000700800dd8000200 m) (h : Only m r s) : OnlyRes m r (execSlipwayFetchDone x0 x1 s) := by
  unfold execSlipwayFetchDone
  try dsimp only
  repeat' (first
    | (intro _; try dsimp only)
    | with_reducible assumption
    | with_reducible refine whenLive_only (k.sub (by decide)) ?_ ?_
    | with_reducible refine fetchDone_only (k.sub (by decide)) ?_)

/-! ### Machine/Hbm.lean -/

theorem slipCfgWrite_only {m : Nat} {r s : State} {x0 : Nat} {x1 : Word} (k : Covers 0x3060000000000000000000000000000000c000000000000000000000000000000000000000000000080000000000000080000020000000000000700000000000200 m) (h : Only m r s) : Only m r (slipCfgWrite x0 x1 s) := by
  unfold slipCfgWrite
  try dsimp only
  repeat' (first
    | with_reducible assumption
    | with_reducible apply Only.ite
    | with_reducible refine State.wr_only _ _ _ (k.words (by decide)) ?_
    | with_reducible refine State.raise_only (k.sub (by decide)) ?_
    | with_reducible refine State.setErr_only _ _ (k.err (by decide) (by decide)) ?_
    | with_reducible refine State.plainWrite_only _ _ _ (k.words (by decide)) ?_
    | with_reducible refine State.showGrant_only (k.sub (by decide)) ?_)

theorem State.emptyShare_only {m : Nat} {r s : State} {x1 : Nat} (k : Covers 0x34600000000000000000000000000002098000000000000000000000000000000000000000000000000000000c00000080000020000000033800700000000000200 m) (h : Only m r s) : Only m r (State.emptyShare s x1) := by
  unfold State.emptyShare
  try dsimp only
  repeat' (first
    | (intro _; try dsimp only)
    | with_reducible assumption
    | with_reducible apply Only.foldl
    | with_reducible refine State.evict_only (k.sub (by decide)) ?_)

theorem cacheCfgWrite_only {m : Nat} {r s : State} {x0 : Nat} {x1 : Word} (k : Covers 0x3460000000000000000000000000000209b000000000000000000000000000000000000000000000040000000c00000080000020000000033800700000000000200 m) (h : Only m r s) : Only m r (cacheCfgWrite x0 x1 s) := by
  unfold cacheCfgWrite
  try dsimp only
  repeat' (first
    | with_reducible assumption
    | with_reducible apply Only.ite
    | with_reducible refine State.plainWrite_only _ _ _ (k.words (by decide)) ?_
    | with_reducible refine State.refuseWrite_only (k.sub (by decide)) ?_
    | with_reducible refine State.setErr_only _ _ (k.err (by decide) (by decide)) ?_
    | with_reducible refine State.refuseReserve_only (k.sub (by decide)) ?_ ?_
    | with_reducible refine State.wr_only _ _ _ (k.words (by decide)) ?_
    | with_reducible refine State.emptyShare_only (k.sub (by decide)) ?_)

theorem hintWrite_only {m : Nat} {r s : State} {x0 : Nat} {x1 : Nat} {x2 : Word} (k : Covers 0x28000000000000000000000000000000000000000000000000000000000000000000000000000000000000000000000000 m) (h : Only m r s) : Only m r (hintWrite x0 x1 x2 s) := by
  unfold hintWrite
  try dsimp only
  repeat' (first
    | with_reducible assumption
    | with_reducible apply Only.ite
    | with_reducible refine State.plainWrite_only _ _ _ (k.words (by decide)) ?_
    | with_reducible refine State.setErr_only _ _ (k.err (by decide) (by decide)) ?_
    | with_reducible refine State.setWord_at_only (k.words (by decide)) ?_)

theorem State.modStack_only {m : Nat} {r s : State} {x1 : Nat} {x2 : Stack → Stack} (k : Covers 0x100000000000000000000 m) (h : Only m r s) : Only m r (State.modStack s x1 x2) := by
  unfold State.modStack
  try dsimp only
  repeat' (first
    | with_reducible assumption
    | fail_if_no_progress (with_reducible refine Only.msTo (by apply MemStOnly.of <;> first | exact .inl (k.bit (by decide)) | exact .inr rfl) rfl ?_))

theorem State.queueRetrain_only {m : Nat} {r s : State} {x1 : Nat} {x2 : Nat} (k : Covers 0x100000000000000000000 m) (h : Only m r s) : Only m r (State.queueRetrain s x1 x2) := by
  unfold State.queueRetrain
  try dsimp only
  repeat' (first
    | with_reducible assumption
    | with_reducible refine State.modStack_only (k.sub (by decide)) ?_)

theorem State.enterTest_only {m : Nat} {r s : State} {x1 : Nat} {x2 : Word} (k : Covers 0x306000000000000000000000000000000c0000000000000000000000000000000000000000000000000000000c00000080000020000000000800700000000000200 m) (h : Only m r s) : Only m r (State.enterTest s x1 x2) := by
  unfold State.enterTest
  try dsimp only
  repeat' (first
    | with_reducible assumption
    | with_reducible refine State.fall_only (k.sub (by decide)) ?_
    | with_reducible refine State.wr_only _ _ _ (k.words (by decide)) ?_
    | with_reducible refine State.plainWrite_only _ _ _ (k.words (by decide)) ?_)

theorem State.zeroStack_only {m : Nat} {r s : State} {x1 : Nat} (k : Covers 0x400000000000000000000000000000200200000000000000000000000000000000000000000000000000000000000000000000000000003f000000000000000000 m) (h : Only m r s) : Only m r (State.zeroStack s x1) := by
  unfold State.zeroStack
  have hu : Only m r { s with ms := { s.ms with
      hbm := sclear (fun a => stripeStack (a / 1024) == x1) s.ms.hbm,
      lines := s.ms.lines.filter (fun x => !(stripeStack x.stripe == x1)),
      atomic := s.ms.atomic.filter (fun x => !(stripeStack x.stripe == x1)),
      combining := s.ms.combining.filter (fun x => !(stripeStack x.stripe == x1)),
      unreadable := s.ms.unreadable.filter (fun t => !(stripeStack t == x1)),
      reread := s.ms.reread.filter (fun t => !(stripeStack t == x1)) } } :=
    Only.memory h (by apply MemStOnly.of <;> first | exact .inl (k.bit (by decide)) | exact .inr rfl) (fun w => by dsimp only; exact swf_sclear _ w)
  try dsimp only
  repeat' (first
    | (intro _; try dsimp only)
    | with_reducible assumption
    | with_reducible apply Only.foldl
    | with_reducible refine State.countCombining_only (k.sub (by decide)) ?_
    | with_reducible refine State.countBad_only (k.sub (by decide)) ?_
    | with_reducible refine State.setWord_at_only (k.words (by decide)) ?_)

theorem State.exitTest_only {m : Nat} {r s : State} {x1 : Nat} {x2 : Word} (k : Covers 0x40000000000000000000000000000020c200000000000000000000000000000000000000000000000000000000000000000000000000003f000000000000000000 m) (h : Only m r s) : Only m r (State.exitTest s x1 x2) := by
  unfold State.exitTest
  try dsimp only
  repeat' (first
    | with_reducible assumption
    | with_reducible refine State.zeroStack_only (k.sub (by decide)) ?_
    | with_reducible refine State.wr_only _ _ _ (k.words (by decide)) ?_
    | with_reducible refine State.plainWrite_only _ _ _ (k.words (by decide)) ?_)

theorem hbmCtl_only {m : Nat} {r s : State} {x0 : Nat} {x1 : Word} (k : Covers 0x346000000000000000000000000000020c2000000000000000000000000000000000000000000000000000000c0000008000002000000013f800700000000000200 m) (h : Only m r s) : Only m r (hbmCtl x0 x1 s) := by
  unfold hbmCtl
  try dsimp only
  repeat' (first
    | with_reducible assumption
    | with_reducible apply Only.ite
    | with_reducible refine State.plainWrite_only _ _ _ (k.words (by decide)) ?_
    | with_reducible refine State.queueRetrain_only (k.sub (by decide)) ?_
    | with_reducible refine State.refuseWrite_only (k.sub (by decide)) ?_
    | with_reducible refine State.modStack_only (k.sub (by decide)) ?_
    | with_reducible refine State.enterTest_only (k.sub (by decide)) ?_
    | with_reducible refine State.exitTest_only (k.sub (by decide)) ?_)

theorem testCmd_only {m : Nat} {r s : State} {x0 : Nat} {x1 : Word} (k : Covers 0x30600000000000000000000000000000100000000000000000000000000000000000000000000000000000000000000080000020000000000000700000000000200 m) (h : Only m r s) : Only m r (testCmd x0 x1 s) := by
  unfold testCmd
  try dsimp only
  repeat' (first
    | with_reducible assumption
    | with_reducible apply Only.ite
    | with_reducible refine State.plainWrite_only _ _ _ (k.words (by decide)) ?_
    | with_reducible refine State.refuseWrite_only (k.sub (by decide)) ?_
    | with_reducible refine State.emit_only _ (k.bit (i := 113) (by decide)) ?_
    | with_reducible refine State.wr_only _ _ _ (k.words (by decide)) ?_)

theorem State.refuseFlow_only {m : Nat} {r s : State} {x1 : Nat} (k : Covers 0x408000000000000000000000000000000000000000000000000000000000000000000000000000000000000000000000000 m) (h : Only m r s) : Only m r (State.refuseFlow s x1) := by
  unfold State.refuseFlow
  try dsimp only
  repeat' (first
    | with_reducible assumption
    | with_reducible refine State.setErr_only _ _ (k.err (by decide) (by decide)) ?_
    | with_reducible refine State.wr_only _ _ _ (k.words (by decide)) ?_)

theorem flowCfgWrite_only {m : Nat} {r s : State} {x0 : Nat} {x1 : Word} (k : Covers 0x30600000000000000000000000000000408000000000000000000000000000000000000000000000000000000000000080000020000000000000700000000000200 m) (h : Only m r s) : Only m r (flowCfgWrite x0 x1 s) := by
  unfold flowCfgWrite
  try dsimp only
  repeat' (first
    | with_reducible assumption
    | with_reducible apply Only.ite
    | with_reducible refine State.refuseWrite_only (k.sub (by decide)) ?_
    | with_reducible refine State.plainWrite_only _ _ _ (k.words (by decide)) ?_
    | with_reducible refine State.refuseFlow_only (k.sub (by decide)) ?_)

theorem State.endRetrain_only {m : Nat} {r s : State} {x1 : Nat} (k : Covers 0x346000000000000000000000000000020c2000000000000000000000000000000000000000000000000000000c0000008000002000000013f800700000000000200 m) (h : Only m r s) : Only m r (State.endRetrain s x1) := by
  unfold State.endRetrain
  try dsimp only
  repeat' (first
    | with_reducible assumption
    | with_reducible refine State.wr_only _ _ _ (k.words (by decide)) ?_
    | with_reducible refine State.modStack_only (k.sub (by decide)) ?_
    | with_reducible refine hbmCtl_only (k.sub (by decide)) ?_
    | split)

theorem State.eraseChannel_only {m : Nat} {r s : State} {x1 : Nat} {x2 : Nat} (k : Covers 0x346000000000000000000000000000020c2000000000000000000000000000000000000000000000000000000c0000008000002000000013f804700000000000200 m) (h : Only m r s) : Only m r (State.eraseChannel s x1 x2) := by
  unfold State.eraseChannel
  try dsimp only
  repeat' (first
    | with_reducible assumption
    | fail_if_no_progress (with_reducible refine Only.fhTo (by apply FaultStOnly.of <;> first | exact .inl (k.bit (by decide)) | exact .inr rfl) ?_)
    | with_reducible apply Only.ite
    | with_reducible refine State.endRetrain_only (k.sub (by decide)) ?_
    | with_reducible refine State.stackFails_only (k.sub (by decide)) ?_
    | with_reducible refine State.raise_only (k.sub (by decide)) ?_
    | with_reducible refine State.useSpare_only (k.sub (by decide)) ?_
    | (with_reducible refine State.wrs_only _ (by simp only [List.forall_mem_cons, List.not_mem_nil, false_imp_iff, implies_true, and_true]; (repeat' apply And.intro) <;> exact k.words (by decide)) ?_))

theorem State.hostAtomic_only {m : Nat} {r s : State} {x1 : Desc} {x2 : Sram} {x3 : Nat → Status × Option Nat} (k : Covers 0x3460000000000000000000000000000209a000000000000000000000000000000000000000000000000000000c0000009000002000000003f800700000000000203 m) (h : Only m r s) : Only m r (State.hostAtomic s x1 x2 x3) := by
  unfold State.hostAtomic
  try dsimp only
  repeat' (first
    | with_reducible assumption
    | with_reducible refine State.nearRead_only (k.sub (by decide)) ?_
    | with_reducible refine State.complete_only (k.sub (by decide)) ?_
    | with_reducible refine State.uncorrectable_only (k.sub (by decide)) ?_
    | with_reducible refine State.atomicWrite_only (k.sub (by decide)) ?_
    | with_reducible refine State.atomicPlace_only (k.sub (by decide)) ?_
    | split)

theorem State.keepDiffs_only {m : Nat} {r s : State} {x1 : Nat} {x2 : StripeRead} {x3 : List Nat} {x4 : List (Nat × Nat × Nat)} (k : Covers 0x1000000000000000000 m) (h : Only m r s) : Only m r (State.keepDiffs s x1 x2 x3 x4) := by
  unfold State.keepDiffs
  exact Only.memory h (by apply MemStOnly.of <;> first | exact .inl (k.bit (by decide)) | exact .inr rfl) (swf_foldl (fun m x w => swf_sset (d := fun _ => (0 : Byte)) _ _ w) _)

theorem State.readable_only {m : Nat} {r s : State} {x1 : Nat} (k : Covers 0x30000000000000000000 m) (h : Only m r s) : Only m r (State.readable s x1) := by
  unfold State.readable
  try dsimp only
  repeat' (first
    | with_reducible assumption
    | fail_if_no_progress (with_reducible refine Only.msTo (by apply MemStOnly.of <;> first | exact .inl (k.bit (by decide)) | exact .inr rfl) rfl ?_))

theorem State.loseStripe_only {m : Nat} {r s : State} {x1 : Nat} (k : Covers 0x34600000000000000000000000000002098000000000000000000000000000000000000000000000000000000c00000080000020000000030800700000000000200 m) (h : Only m r s) : Only m r (State.loseStripe s x1) := by
  unfold State.loseStripe
  try dsimp only
  repeat' (first
    | with_reducible assumption
    | fail_if_no_progress (with_reducible refine Only.msTo (by apply MemStOnly.of <;> first | exact .inl (k.bit (by decide)) | exact .inr rfl) rfl ?_)
    | with_reducible apply Only.ite
    | with_reducible refine State.readable_only (k.sub (by decide)) ?_
    | with_reducible refine State.uncorrectable_only (k.sub (by decide)) ?_
    | with_reducible refine State.joinBad_only (k.sub (by decide)) ?_)

theorem State.triggerRetrain_only {m : Nat} {r s : State} {x1 : Nat} {x2 : Nat} (k : Covers 0x100000000000000000000 m) (h : Only m r s) : Only m r (State.triggerRetrain s x1 x2) := by
  unfold State.triggerRetrain
  try dsimp only
  repeat' (first
    | with_reducible assumption
    | with_reducible apply Only.ite
    | with_reducible refine State.queueRetrain_only (k.sub (by decide)) ?_)

theorem State.queueRow_only {m : Nat} {r s : State} {x1 : Nat} {x2 : Nat × Nat} (k : Covers 0x100000000000000000000 m) (h : Only m r s) : Only m r (State.queueRow s x1 x2) := by
  unfold State.queueRow
  try dsimp only
  repeat' (first
    | with_reducible assumption
    | with_reducible apply Only.ite
    | with_reducible refine State.triggerRetrain_only (k.sub (by decide)) ?_
    | with_reducible refine State.modStack_only (k.sub (by decide)) ?_)

theorem State.noteUncorrected_only {m : Nat} {r s : State} {x1 : Nat} {x2 : StripeRead} (k : Covers 0x100000000000000000000 m) (h : Only m r s) : Only m r (State.noteUncorrected s x1 x2) := by
  unfold State.noteUncorrected
  try dsimp only
  repeat' (first
    | (intro _; try dsimp only)
    | with_reducible assumption
    | with_reducible apply Only.foldl
    | with_reducible refine State.queueRow_only (k.sub (by decide)) ?_)

theorem State.queueWarm_only {m : Nat} {r s : State} {x1 : Nat} (k : Covers 0x100000000000000000000 m) (h : Only m r s) : Only m r (State.queueWarm s x1) := by
  unfold State.queueWarm
  try dsimp only
  repeat' (first
    | (intro _; try dsimp only)
    | with_reducible assumption
    | with_reducible apply Only.foldl
    | with_reducible refine State.triggerRetrain_only (k.sub (by decide)) ?_)

theorem State.recheckFlows_only {m : Nat} {r s : State} (k : Covers 0x408000000000000000000000000000000000000000000000000000000000000000000000000000000000000000000000000 m) (h : Only m r s) : Only m r (State.recheckFlows s) := by
  unfold State.recheckFlows
  try dsimp only
  repeat' (first
    | (intro _; try dsimp only)
    | with_reducible assumption
    | with_reducible apply Only.foldl
    | with_reducible apply Only.ite
    | with_reducible refine State.refuseFlow_only (k.sub (by decide)) ?_)

theorem State.repairRow_only {m : Nat} {r s : State} {x1 : Nat} {x2 : Nat} (k : Covers 0x30600000000000000000000000000000080000000000000000000000000000000000000000000000000000000000000080000020000000000000700000000000200 m) (h : Only m r s) : Only m r (State.repairRow s x1 x2) := by
  unfold State.repairRow
  try dsimp only
  repeat' (first
    | with_reducible assumption
    | with_reducible refine State.raise_only (k.sub (by decide)) ?_
    | with_reducible refine State.addSat_only _ _ _ (k.words (by decide)) ?_)

theorem State.repairRows_only {m : Nat} {r s : State} {x1 : Nat} {x2 : Nat} {x3 : Nat} (k : Covers 0x30600000000000000000000000000000080000000000000000000000000000000000000000000000000000000000000080000020000000100000700000000000200 m) (h : Only m r s) : Only m r (State.repairRows s x1 x2 x3) := by
  unfold State.repairRows
  try dsimp only
  repeat' (first
    | (intro _; try dsimp only)
    | with_reducible assumption
    | with_reducible apply Only.foldl
    | with_reducible refine State.modStack_only (k.sub (by decide)) ?_
    | with_reducible refine State.repairRow_only (k.sub (by decide)) ?_)

theorem State.retrainTrigger_only {m : Nat} {r s : State} {x1 : Nat} {x2 : RetrainCause} (k : Covers 0x80000000000000000000000000000000000000000000000000000000000000000000000000000100000000000000000000 m) (h : Only m r s) : Only m r (State.retrainTrigger s x1 x2) := by
  unfold State.retrainTrigger
  try dsimp only
  repeat' (first
    | with_reducible assumption
    | with_reducible apply Only.ite
    | with_reducible refine State.triggerRetrain_only (k.sub (by decide)) ?_
    | with_reducible refine State.modStack_only (k.sub (by decide)) ?_
    | with_reducible refine State.wr_only _ _ _ (k.words (by decide)) ?_
    | with_reducible refine State.queueWarm_only (k.sub (by decide)) ?_
    | with_reducible refine State.queueRow_only (k.sub (by decide)) ?_
    | split)

theorem State.setMooringBy_only {m : Nat} {r s : State} {x1 : Desc} (k : Covers 0x90000020000000040000000000000000203 m) (h : Only m r s) : Only m r (State.setMooringBy s x1) := by
  unfold State.setMooringBy
  try dsimp only
  repeat' (first
    | with_reducible assumption
    | with_reducible apply Only.ite
    | with_reducible refine State.complete_only (k.sub (by decide)) ?_
    | with_reducible refine State.updateMooring_only (k.sub (by decide)) ?_)

theorem State.waitMooring_only {m : Nat} {r s : State} {x1 : Desc} (k : Covers 0x90000020000000000000000000000000203 m) (h : Only m r s) : Only m r (State.waitMooring s x1) := by
  unfold State.waitMooring
  try dsimp only
  repeat' (first
    | with_reducible assumption
    | with_reducible apply Only.ite
    | with_reducible refine State.complete_only (k.sub (by decide)) ?_)

theorem execMooringSet_only {m : Nat} {r s : State} {x0 : Fin 4096} (k : Covers 0x90000020000000040000000000000000203 m) (h : Only m r s) : OnlyRes m r (execMooringSet x0 s) := by
  unfold execMooringSet
  try dsimp only
  repeat' (first
    | (intro _; try dsimp only)
    | with_reducible assumption
    | with_reducible refine runOpcode_only (k.sub (by decide)) ?_ ?_
    | with_reducible refine State.setMooringBy_only (k.sub (by decide)) ?_)

theorem execMooringWait_only {m : Nat} {r s : State} {x0 : Fin 4096} (k : Covers 0x90000020000000000000000000000000203 m) (h : Only m r s) : OnlyRes m r (execMooringWait x0 s) := by
  unfold execMooringWait
  try dsimp only
  repeat' (first
    | (intro _; try dsimp only)
    | with_reducible assumption
    | with_reducible refine runOpcode_only (k.sub (by decide)) ?_ ?_
    | with_reducible refine State.waitMooring_only (k.sub (by decide)) ?_)

theorem execAtomicCas_only {m : Nat} {r s : State} {x0 : Fin 4096} {x1 : Sram} (k : Covers 0x3460000000000000000000000000000209a000000000000000000000000000000000000000000000000000000c0000009000002000000003f800700000000000203 m) (h : Only m r s) : OnlyRes m r (execAtomicCas x0 x1 s) := by
  unfold execAtomicCas
  try dsimp only
  repeat' (first
    | (intro _; try dsimp only)
    | with_reducible assumption
    | with_reducible refine runOpcode_only (k.sub (by decide)) ?_ ?_
    | with_reducible refine State.hostAtomic_only (k.sub (by decide)) ?_)

theorem execAtomicAdd_only {m : Nat} {r s : State} {x0 : Fin 4096} {x1 : Sram} (k : Covers 0x3460000000000000000000000000000209a000000000000000000000000000000000000000000000000000000c0000009000002000000003f800700000000000203 m) (h : Only m r s) : OnlyRes m r (execAtomicAdd x0 x1 s) := by
  unfold execAtomicAdd
  try dsimp only
  repeat' (first
    | (intro _; try dsimp only)
    | with_reducible assumption
    | with_reducible refine runOpcode_only (k.sub (by decide)) ?_ ?_
    | with_reducible refine State.hostAtomic_only (k.sub (by decide)) ?_)

theorem mooringCheckpoint_only {m : Nat} {r s : State} {x0 : Nat} (k : Covers 0x80000000000000000000 m) (h : Only m r s) : Only m r (mooringCheckpoint x0 s) := by
  unfold mooringCheckpoint
  try dsimp only
  repeat' (first
    | with_reducible assumption
    | fail_if_no_progress (with_reducible refine Only.msTo (by apply MemStOnly.of <;> first | exact .inl (k.bit (by decide)) | exact .inr rfl) rfl ?_)
    | with_reducible apply Only.ite)

theorem execMooringCheckpoint_only {m : Nat} {r s : State} {x0 : Fin 2} (k : Covers 0x80000000000000000000 m) (h : Only m r s) : OnlyRes m r (execMooringCheckpoint x0 s) := by
  unfold execMooringCheckpoint
  try dsimp only
  repeat' (first
    | (intro _; try dsimp only)
    | with_reducible assumption
    | with_reducible refine whenLive_only (k.sub (by decide)) ?_ ?_
    | with_reducible refine mooringCheckpoint_only (k.sub (by decide)) ?_)

theorem execCacheResize_only {m : Nat} {r s : State} {x0 : Fin 2} {x1 : Word} (k : Covers 0x3460000000000000000000000000000209b000000000000000000000000000000000000000000000040000000c00000080000020000000033880700000000000200 m) (h : Only m r s) : OnlyRes m r (execCacheResize x0 x1 s) := by
  unfold execCacheResize
  try dsimp only
  repeat' (first
    | (intro _; try dsimp only)
    | with_reducible assumption
    | with_reducible refine whenReg_only (k.sub (by decide)) ?_ ?_
    | with_reducible refine cacheCfgWrite_only (k.sub (by decide)) ?_)

theorem execCacheResizeDone_only {m : Nat} {r s : State} {x0 : Fin 2} (k : Covers 0x2000000000000000000000000000000000000000000000000000000000000000000000000000000000000000000000000 m) (h : Only m r s) : OnlyRes m r (execCacheResizeDone x0 s) := by
  unfold execCacheResizeDone
  try dsimp only
  repeat' (first
    | (intro _; try dsimp only)
    | with_reducible assumption
    | with_reducible refine whenLive_only (k.sub (by decide)) ?_ ?_
    | with_reducible refine State.wr_only _ _ _ (k.words (by decide)) ?_)

theorem execHintRangeSet_only {m : Nat} {r s : State} {x0 : Fin 2} {x1 : Fin 16} {x2 : Word} (k : Covers 0x30600000000000000000000000000000028000000000000000000000000000000000000000000000000000000000000080000020000000000080700000000000200 m) (h : Only m r s) : OnlyRes m r (execHintRangeSet x0 x1 x2 s) := by
  unfold execHintRangeSet
  try dsimp only
  repeat' (first
    | (intro _; try dsimp only)
    | with_reducible assumption
    | with_reducible refine whenReg_only (k.sub (by decide)) ?_ ?_
    | with_reducible refine hintWrite_only (k.sub (by decide)) ?_)

theorem wcbFlush_only {m : Nat} {r s : State} {x0 : Nat} {x1 : Sram} (k : Covers 0x3460000000000000000000000000000209a000000000000000000000000000000000000000000000000000000c0000008000002000000003f800700000000000200 m) (h : Only m r s) : Only m r (wcbFlush x0 x1 s) := by
  unfold wcbFlush
  try dsimp only
  repeat' (first
    | with_reducible assumption
    | with_reducible apply Only.ite
    | with_reducible refine State.uncorrectable_only (k.sub (by decide)) ?_
    | with_reducible refine State.nearRead_only (k.sub (by decide)) ?_
    | with_reducible refine State.flushCombining_only (k.sub (by decide)) ?_
    | split)

theorem execWcbFlush_only {m : Nat} {r s : State} {x0 : Fin 536870912} {x1 : Sram} (k : Covers 0x3460000000000000000000000000000209a000000000000000000000000000000000000000000000000000000c0000008000002000000003f800700000000000200 m) (h : Only m r s) : OnlyRes m r (execWcbFlush x0 x1 s) := by
  unfold execWcbFlush
  try dsimp only
  repeat' (first
    | (intro _; try dsimp only)
    | with_reducible assumption
    | with_reducible refine whenLive_only (k.sub (by decide)) ?_ ?_
    | with_reducible refine wcbFlush_only (k.sub (by decide)) ?_)

theorem stripeRead_only {m : Nat} {r s : State} {x0 : Nat} {x1 : StripeRead} (k : Covers 0x34600000000000000000000000000002098000000000000000000000000000000000000000000000000000000c00000080000020000000131800700000000000200 m) (h : Only m r s) : Only m r (stripeRead x0 x1 s) := by
  unfold stripeRead
  try dsimp only
  repeat' (first
    | with_reducible assumption
    | fail_if_no_progress (with_reducible refine Only.msTo (by apply MemStOnly.of <;> first | exact .inl (k.bit (by decide)) | exact .inr rfl) rfl ?_)
    | with_reducible apply Only.ite
    | with_reducible refine State.noteUncorrected_only (k.sub (by decide)) ?_
    | with_reducible refine State.loseStripe_only (k.sub (by decide)) ?_
    | with_reducible refine State.keepDiffs_only (k.sub (by decide)) ?_
    | with_reducible refine State.readable_only (k.sub (by decide)) ?_
    | with_reducible refine State.correctedRead_only (k.sub (by decide)) ?_
    | with_reducible refine State.raise_only (k.sub (by decide)) ?_
    | with_reducible refine State.setErr_only _ _ (k.err (by decide) (by decide)) ?_
    | split)

theorem execHbmReadComplete_only {m : Nat} {r s : State} {x0 : Fin 536870912} {x1 : StripeRead} (k : Covers 0x34600000000000000000000000000002098000000000000000000000000000000000000000000000000000000c00000080000020000000131800700000000000200 m) (h : Only m r s) : OnlyRes m r (execHbmReadComplete x0 x1 s) := by
  unfold execHbmReadComplete
  try dsimp only
  repeat' (first
    | (intro _; try dsimp only)
    | with_reducible assumption
    | with_reducible apply Only.ite
    | with_reducible refine whenLive_only (k.sub (by decide)) ?_ ?_
    | with_reducible refine stripeRead_only (k.sub (by decide)) ?_)

theorem patrolScrub_only {m : Nat} {r s : State} {x0 : Nat} {x1 : StripeRead} (k : Covers 0x34600000000000000000000000000002098000000000000000000000000000000000000000000000000000000c00000080000020000000131800700000000000200 m) (h : Only m r s) : Only m r (patrolScrub x0 x1 s) := by
  unfold patrolScrub
  try dsimp only
  repeat' (first
    | with_reducible assumption
    | with_reducible apply Only.ite
    | with_reducible refine stripeRead_only (k.sub (by decide)) ?_
    | with_reducible refine State.modStack_only (k.sub (by decide)) ?_)

theorem execPatrolScrub_only {m : Nat} {r s : State} {x0 : Fin 12} {x1 : StripeRead} (k : Covers 0x34600000000000000000000000000002098000000000000000000000000000000000000000000000000000000c00000080000020000000131800700000000000200 m) (h : Only m r s) : OnlyRes m r (execPatrolScrub x0 x1 s) := by
  unfold execPatrolScrub
  try dsimp only
  repeat' (first
    | (intro _; try dsimp only)
    | with_reducible assumption
    | with_reducible refine whenLive_only (k.sub (by decide)) ?_ ?_
    | with_reducible refine patrolScrub_only (k.sub (by decide)) ?_)

theorem execHbmRetrainRequest_only {m : Nat} {r s : State} {x0 : Fin 12} {x1 : RetrainCause} (k : Covers 0x346000000000000000000000000000020c2000000000000000000000000000000000000000000000000000000c0000008000002000000013f880700000000000200 m) (h : Only m r s) : OnlyRes m r (execHbmRetrainRequest x0 x1 s) := by
  unfold execHbmRetrainRequest
  try dsimp only
  repeat' (first
    | (intro _; try dsimp only)
    | with_reducible assumption
    | with_reducible apply Only.ite
    | with_reducible refine whenReg_only (k.sub (by decide)) ?_ ?_
    | with_reducible refine hbmCtl_only (k.sub (by decide)) ?_
    | with_reducible refine whenLive_only (k.sub (by decide)) ?_ ?_
    | with_reducible refine State.retrainTrigger_only (k.sub (by decide)) ?_
    | split)

theorem retrainStart_only {m : Nat} {r s : State} {x0 : Nat} (k : Covers 0x80000000000000000000000000000000000000000000000000000000000000000000000000000100000000000000000000 m) (h : Only m r s) : Only m r (retrainStart x0 s) := by
  unfold retrainStart
  try dsimp only
  repeat' (first
    | with_reducible assumption
    | with_reducible apply Only.ite
    | (with_reducible refine State.wrs_only _ (by simp only [List.forall_mem_cons, List.not_mem_nil, false_imp_iff, implies_true, and_true]; (repeat' apply And.intro) <;> exact k.words (by decide)) ?_)
    | with_reducible refine State.modStack_only (k.sub (by decide)) ?_
    | split)

theorem execHbmRetrainStart_only {m : Nat} {r s : State} {x0 : Fin 12} (k : Covers 0x80000000000000000000000000000000000000000000000000000000000000000000000000000100000000000000000000 m) (h : Only m r s) : OnlyRes m r (execHbmRetrainStart x0 s) := by
  unfold execHbmRetrainStart
  try dsimp only
  repeat' (first
    | (intro _; try dsimp only)
    | with_reducible assumption
    | with_reducible refine whenLive_only (k.sub (by decide)) ?_ ?_
    | with_reducible refine retrainStart_only (k.sub (by decide)) ?_)

theorem phyRetrainDone_only {m : Nat} {r s : State} {x0 : Nat} {x1 : Bool} {x2 : Nat} (k : Covers 0x346000000000000000000000000000020c2000000000000000000000000000000000000000000000000000000c0000008000002000000013f804700000000000200 m) (h : Only m r s) : Only m r (phyRetrainDone x0 x1 x2 s) := by
  unfold phyRetrainDone
  try dsimp only
  repeat' (first
    | with_reducible assumption
    | with_reducible apply Only.ite
    | with_reducible refine State.repairRows_only (k.sub (by decide)) ?_
    | with_reducible refine State.modStack_only (k.sub (by decide)) ?_
    | with_reducible refine State.eraseChannel_only (k.sub (by decide)) ?_
    | split)

theorem execHbmPhyRetrainDone_only {m : Nat} {r s : State} {x0 : Fin 12} {x1 : Bool} {x2 : BitVec 8} (k : Covers 0x346000000000000000000000000000020c2000000000000000000000000000000000000000000000000000000c0000008000002000000013f804700000000000200 m) (h : Only m r s) : OnlyRes m r (execHbmPhyRetrainDone x0 x1 x2 s) := by
  unfold execHbmPhyRetrainDone
  try dsimp only
  repeat' (first
    | (intro _; try dsimp only)
    | with_reducible assumption
    | with_reducible refine whenLive_only (k.sub (by decide)) ?_ ?_
    | with_reducible refine phyRetrainDone_only (k.sub (by decide)) ?_)

theorem retrainDone_only {m : Nat} {r s : State} {x0 : Nat} (k : Covers 0x346000000000000000000000000000020c2000000000000000000000000000000000000000000000000000000c0000008000002000000013f800700000000000200 m) (h : Only m r s) : Only m r (retrainDone x0 s) := by
  unfold retrainDone
  try dsimp only
  repeat' (first
    | with_reducible assumption
    | with_reducible apply Only.ite
    | with_reducible refine State.endRetrain_only (k.sub (by decide)) ?_
    | with_reducible refine State.queueWarm_only (k.sub (by decide)) ?_
    | with_reducible refine State.addSat_only _ _ _ (k.words (by decide)) ?_
    | split)

theorem execHbmRetrainDone_only {m : Nat} {r s : State} {x0 : Fin 12} (k : Covers 0x346000000000000000000000000000020c2000000000000000000000000000000000000000000000000000000c0000008000002000000013f800700000000000200 m) (h : Only m r s) : OnlyRes m r (execHbmRetrainDone x0 s) := by
  unfold execHbmRetrainDone
  try dsimp only
  repeat' (first
    | (intro _; try dsimp only)
    | with_reducible assumption
    | with_reducible refine whenLive_only (k.sub (by decide)) ?_ ?_
    | with_reducible refine retrainDone_only (k.sub (by decide)) ?_)

theorem execHbmTestEnter_only {m : Nat} {r s : State} {x0 : Fin 12} {x1 : Word} (k : Covers 0x346000000000000000000000000000020c2000000000000000000000000000000000000000000000000000000c0000008000002000000013f880700000000000200 m) (h : Only m r s) : OnlyRes m r (execHbmTestEnter x0 x1 s) := by
  unfold execHbmTestEnter
  try dsimp only
  repeat' (first
    | (intro _; try dsimp only)
    | with_reducible assumption
    | with_reducible refine whenReg_only (k.sub (by decide)) ?_ ?_
    | with_reducible refine hbmCtl_only (k.sub (by decide)) ?_)

theorem execHbmTestShift_only {m : Nat} {r s : State} {x0 : Fin 12} {x1 : Word} (k : Covers 0x30600000000000000000000000000000100000000000000000000000000000000000000000000000000000000000000080000020000000000080700000000000200 m) (h : Only m r s) : OnlyRes m r (execHbmTestShift x0 x1 s) := by
  unfold execHbmTestShift
  try dsimp only
  repeat' (first
    | (intro _; try dsimp only)
    | with_reducible assumption
    | with_reducible refine whenReg_only (k.sub (by decide)) ?_ ?_
    | with_reducible refine testCmd_only (k.sub (by decide)) ?_)

theorem testShiftDone_only {m : Nat} {r s : State} {x0 : Nat} {x1 : List Byte} (k : Covers 0x300000000000000000000000000000000000000000000000000000000000000000000000000000000000000000000000000 m) (h : Only m r s) : Only m r (testShiftDone x0 x1 s) := by
  unfold testShiftDone
  try dsimp only
  repeat' (first
    | with_reducible assumption
    | with_reducible apply Only.ite
    | with_reducible refine State.wr_only _ _ _ (k.words (by decide)) ?_
    | with_reducible refine State.putBytes_only _ _ _ (k.words (by decide)) ?_)

theorem execHbmTestShiftDone_only {m : Nat} {r s : State} {x0 : Fin 12} {x1 : List Byte} (k : Covers 0x300000000000000000000000000000000000000000000000000000000000000000000000000000000000000000000000000 m) (h : Only m r s) : OnlyRes m r (execHbmTestShiftDone x0 x1 s) := by
  unfold execHbmTestShiftDone
  try dsimp only
  repeat' (first
    | (intro _; try dsimp only)
    | with_reducible assumption
    | with_reducible refine whenLive_only (k.sub (by decide)) ?_ ?_
    | with_reducible refine testShiftDone_only (k.sub (by decide)) ?_)

theorem execHbmTestExit_only {m : Nat} {r s : State} {x0 : Fin 12} {x1 : Word} (k : Covers 0x346000000000000000000000000000020c2000000000000000000000000000000000000000000000000000000c0000008000002000000013f880700000000000200 m) (h : Only m r s) : OnlyRes m r (execHbmTestExit x0 x1 s) := by
  unfold execHbmTestExit
  try dsimp only
  repeat' (first
    | (intro _; try dsimp only)
    | with_reducible assumption
    | with_reducible refine whenReg_only (k.sub (by decide)) ?_ ?_
    | with_reducible refine hbmCtl_only (k.sub (by decide)) ?_)

theorem execFlowEnable_only {m : Nat} {r s : State} {x0 : Fin 8} {x1 : Word} (k : Covers 0x30600000000000000000000000000000408000000000000000000000000000000000000000000000000000000000000080000020000000000080700000000000200 m) (h : Only m r s) : OnlyRes m r (execFlowEnable x0 x1 s) := by
  unfold execFlowEnable
  try dsimp only
  repeat' (first
    | (intro _; try dsimp only)
    | with_reducible assumption
    | with_reducible refine whenReg_only (k.sub (by decide)) ?_ ?_
    | with_reducible refine flowCfgWrite_only (k.sub (by decide)) ?_)

theorem execFlowEntryFlush_only {m : Nat} {r s : State} {x0 : Fin 8} {x1 : Fin 16777216} (k : Covers 0x3460000000000000000000000000000309a000000000000000000000000000000000000000000000000000000c0000008000002000000023f800700000000000200 m) (h : Only m r s) : OnlyRes m r (execFlowEntryFlush x0 x1 s) := by
  unfold execFlowEntryFlush
  try dsimp only
  repeat' (first
    | (intro _; try dsimp only)
    | with_reducible assumption
    | with_reducible refine whenLive_only (k.sub (by decide)) ?_ ?_
    | with_reducible refine State.flushFlow_only (k.sub (by decide)) ?_)

/-! ### Machine/Targets.lean -/

theorem State.hostStore_only {m : Nat} {r s : State} {x1 : Nat} {x2 : List Byte} (k : Covers 0x3460000000000000000000000000000209a000000000000000000000000000000000000000000000000000000c0000008000002000000003f800700000000000200 m) (h : Only m r s) : Only m r (State.hostStore s x1 x2) := by
  unfold State.hostStore
  try dsimp only
  repeat' (first
    | (intro _; try dsimp only)
    | with_reducible assumption
    | with_reducible apply Only.foldl
    | with_reducible refine State.memWrite_only (k.sub (by decide)) ?_)

theorem State.targetWrite_only {m : Nat} {r s : State} {x1 : Nat} {x2 : Nat} {x3 : Nat} {x4 : List Byte} (k : Covers 0x3460000000000000000000000000000209a000000000000000000000000000000000000000000000000000000c0000008000002000000143f8007000060000c0200 m) (h : Only m r s) : Only m r (State.targetWrite s x1 x2 x3 x4) := by
  unfold State.targetWrite
  try dsimp only
  repeat' (first
    | (intro _; try dsimp only)
    | with_reducible assumption
    | fail_if_no_progress (with_reducible refine Only.reTo (by apply ReduceStOnly.of <;> first | exact .inl (k.bit (by decide)) | exact .inr rfl) ?_)
    | with_reducible apply Only.foldl
    | with_reducible refine State.setSlot_only (k.sub (by decide)) ?_
    | with_reducible refine State.setLpmUnit_only (k.sub (by decide)) ?_
    | with_reducible refine State.hostStore_only (k.sub (by decide)) ?_
    | with_reducible refine State.modTile_only (k.sub (by decide)) ?_
    | with_reducible refine State.writeImage_only (k.sub (by decide)) ?_
    | split)

theorem State.hostFetch_only {m : Nat} {r s : State} {x1 : Nat} {x2 : Nat} (k : Covers 0x3460000000000000000000000000000209a000000000000000000000000000000000000000000000000000000c0000008000002000000003b800700000000000200 m) (h : Only m r s) : Only m r (State.hostFetch s x1 x2) := by
  unfold State.hostFetch
  try dsimp only
  repeat' (first
    | (intro _; try dsimp only)
    | with_reducible assumption
    | with_reducible apply Only.foldl
    | with_reducible refine State.readRange_only (k.sub (by decide)) ?_)

theorem State.targetRead_only {m : Nat} {r s : State} {x1 : Nat} {x2 : Nat} {x3 : Nat} (k : Covers 0x3460000000000000000000000000000209a000000000000000000000000000000000000000000000000000000c0000008000002000000003b800700000000000200 m) (h : Only m r s) : Only m r (State.targetRead s x1 x2 x3) := by
  unfold State.targetRead
  try dsimp only
  repeat' (first
    | with_reducible assumption
    | with_reducible apply Only.ite
    | with_reducible refine State.hostFetch_only (k.sub (by decide)) ?_)

theorem State.dmaIn_only {m : Nat} {r s : State} {x1 : Desc} {x2 : List Byte} (k : Covers 0x3460000000000000000000000000000209a000000000000000000000000000000000000000000000000000000e0000009000002000000143f8007000060000c0203 m) (h : Only m r s) : Only m r (State.dmaIn s x1 x2) := by
  unfold State.dmaIn
  try dsimp only
  repeat' (first
    | with_reducible assumption
    | with_reducible apply Only.ite
    | with_reducible refine State.openImage_only (k.sub (by decide)) ?_
    | with_reducible refine State.complete_only (k.sub (by decide)) ?_
    | with_reducible refine State.targetWrite_only (k.sub (by decide)) ?_)

theorem State.dmaOut_only {m : Nat} {r s : State} {x1 : Desc} (k : Covers 0x3460000000000000000000000000000209a000000000000000000000000000000000000000000000000000000c0000009000003000000003b800700000000000203 m) (h : Only m r s) : Only m r (State.dmaOut s x1) := by
  unfold State.dmaOut
  try dsimp only
  repeat' (first
    | with_reducible assumption
    | with_reducible apply Only.ite
    | with_reducible refine State.draw_only (k.bit (i := 112) (by decide)) ?_
    | with_reducible refine State.descWrite_only (k.sub (by decide)) ?_
    | with_reducible refine State.complete_only (k.sub (by decide)) ?_
    | with_reducible refine State.uncorrectable_only (k.sub (by decide)) ?_
    | with_reducible refine State.targetRead_only (k.sub (by decide)) ?_
    | split)

theorem execDmaToDevice_only {m : Nat} {r s : State} {x0 : Fin 4096} {x1 : HostData} (k : Covers 0x3460000000000000000000000000000209a000000000000000000000000000000000000000000000000000000e0000009000002000000143f8007000060000c0203 m) (h : Only m r s) : OnlyRes m r (execDmaToDevice x0 x1 s) := by
  unfold execDmaToDevice
  try dsimp only
  repeat' (first
    | (intro _; try dsimp only)
    | with_reducible assumption
    | with_reducible refine runOpcode_only (k.sub (by decide)) ?_ ?_
    | with_reducible refine State.complete_only (k.sub (by decide)) ?_
    | with_reducible refine State.dmaIn_only (k.sub (by decide)) ?_
    | split)

theorem execDmaFromDevice_only {m : Nat} {r s : State} {x0 : Fin 4096} {x1 : Bool} (k : Covers 0x3460000000000000000000000000000209a000000000000000000000000000000000000000000000000000000c0000009000003000000003b800700000000000203 m) (h : Only m r s) : OnlyRes m r (execDmaFromDevice x0 x1 s) := by
  unfold execDmaFromDevice
  try dsimp only
  repeat' (first
    | (intro _; try dsimp only)
    | with_reducible assumption
    | with_reducible apply Only.ite
    | with_reducible refine runOpcode_only (k.sub (by decide)) ?_ ?_
    | with_reducible refine State.dmaOut_only (k.sub (by decide)) ?_
    | with_reducible refine State.complete_only (k.sub (by decide)) ?_)

/-! ### Machine/Gangway.lean -/

theorem State.refuseWindow_only {m : Nat} {r s : State} {x1 : Nat} {x2 : Nat} {x3 : Nat} (k : Covers 0x30600000000000000000000000000000000000000000000000000000000000000000000000000000000000000000000081000020000000000000700000000000200 m) (h : Only m r s) : Only m r (State.refuseWindow s x1 x2 x3) := by
  unfold State.refuseWindow
  try dsimp only
  repeat' (first
    | with_reducible assumption
    | with_reducible refine State.raise_only (k.sub (by decide)) ?_
    | with_reducible refine State.setErr_only _ _ (k.err (by decide) (by decide)) ?_)

theorem State.setHeldBytes_only {m : Nat} {r s : State} {x1 : Nat} {x2 : List (Nat × Byte × List Nat)} (k : Covers 0x1000000000000000000000000000000008 m) (h : Only m r s) : Only m r (State.setHeldBytes s x1 x2) := by
  unfold State.setHeldBytes
  try dsimp only
  repeat' (first
    | with_reducible assumption
    | fail_if_no_progress (with_reducible refine Only.hiTo (by apply HostStOnly.of <;> first | exact .inl (k.bit (by decide)) | exact .inr rfl) ?_)
    | with_reducible refine State.wr_only _ _ _ (k.words (by decide)) ?_)

theorem State.discardWrites_only {m : Nat} {r s : State} {x1 : Nat} {x2 : List Nat} (k : Covers 0x1000000000000000000000000000000008 m) (h : Only m r s) : Only m r (State.discardWrites s x1 x2) := by
  unfold State.discardWrites
  try dsimp only
  repeat' (first
    | (intro _; try dsimp only)
    | with_reducible assumption
    | with_reducible apply Only.foldl
    | with_reducible refine State.setErr_only _ _ (k.err (by decide) (by decide)) ?_
    | with_reducible refine State.setHeldBytes_only (k.sub (by decide)) ?_)

theorem State.commitCells_only {m : Nat} {r s : State} {x1 : Nat} {x2 : List (Nat × Byte × List Nat)} (k : Covers 0x3460000000000000000000000000000209a000000000000000000000000000000000000000000000000000000c0000008100002000000143f8007000060000c0208 m) (h : Only m r s) : Only m r (State.commitCells s x1 x2) := by
  unfold State.commitCells
  try dsimp only
  repeat' (first
    | (intro _; try dsimp only)
    | with_reducible assumption
    | with_reducible apply Only.foldl
    | with_reducible apply Only.ite
    | with_reducible refine State.targetWrite_only (k.sub (by decide)) ?_
    | with_reducible refine State.discardWrites_only (k.sub (by decide)) ?_)

theorem State.commitGranule_only {m : Nat} {r s : State} {x1 : Nat} {x2 : Nat} (k : Covers 0x3460000000000000000000000000000209a000000000000000000000000000000000000000000000000000000c0000008100002000000143f8007000060000c0208 m) (h : Only m r s) : Only m r (State.commitGranule s x1 x2) := by
  unfold State.commitGranule
  try dsimp only
  repeat' (first
    | with_reducible assumption
    | with_reducible refine State.commitCells_only (k.sub (by decide)) ?_
    | with_reducible refine State.setHeldBytes_only (k.sub (by decide)) ?_)

theorem State.flushWindow_only {m : Nat} {r s : State} {x1 : Nat} (k : Covers 0x3460000000000000000000000000000209a000000000000000000000000000000000000000000000000000000c0000008100002000000143f8007000060000c0208 m) (h : Only m r s) : Only m r (State.flushWindow s x1) := by
  unfold State.flushWindow
  try dsimp only
  repeat' (first
    | (intro _; try dsimp only)
    | with_reducible assumption
    | with_reducible apply Only.foldl
    | with_reducible refine State.commitGranule_only (k.sub (by decide)) ?_)

theorem State.openWindow_only {m : Nat} {r s : State} {x1 : Nat} (k : Covers 0x2000000012000000000000000000000000000c0008 m) (h : Only m r s) : Only m r (State.openWindow s x1) := by
  unfold State.openWindow
  try dsimp only
  repeat' (first
    | with_reducible assumption
    | with_reducible apply Only.ite
    | with_reducible refine State.openImage_only (k.sub (by decide)) ?_
    | with_reducible refine State.wr_only _ _ _ (k.words (by decide)) ?_
    | with_reducible refine State.setHeldBytes_only (k.sub (by decide)) ?_)

theorem gangwayTarget_only {m : Nat} {r s : State} {x0 : Nat} {x1 : Word} (k : Covers 0x3460000000000000000000000000000209a000000000000000000000000000000000000000000000000000000e0000008120002000000143f8007000060000c0208 m) (h : Only m r s) : Only m r (gangwayTarget x0 x1 s) := by
  unfold gangwayTarget
  try dsimp only
  repeat' (first
    | with_reducible assumption
    | with_reducible apply Only.ite
    | with_reducible refine State.plainWrite_only _ _ _ (k.words (by decide)) ?_
    | with_reducible refine State.refuseWindow_only (k.sub (by decide)) ?_
    | with_reducible refine State.flushWindow_only (k.sub (by decide)) ?_
    | with_reducible refine State.wr_only _ _ _ (k.words (by decide)) ?_
    | with_reducible refine State.openWindow_only (k.sub (by decide)) ?_)

theorem gangwayRange_only {m : Nat} {r s : State} {x0 : Reg} {x1 : Nat} {x2 : Word} (k : Covers 0x30600000000000000000000000000000000000000000000000000000000000000000000000000000000000000000000081000020000000000000700000000000200 m) (g0 : Grants m x0) (h : Only m r s) : Only m r (gangwayRange x0 x1 x2 s) := by
  unfold gangwayRange
  try dsimp only
  repeat' (first
    | with_reducible assumption
    | with_reducible apply Only.ite
    | with_reducible refine State.refuseWindow_only (k.sub (by decide)) ?_
    | with_reducible refine State.plainWrite_only _ _ _ (by assumption) ?_)

theorem State.windowAccess_only {m : Nat} {r s : State} {x1 : Nat} {x2 : Crossing} {x3 : State → State} (k : Covers 0x80000000000000000 m) (hx3 : ∀ t, Only m r t → Only m r (x3 t)) (h : Only m r s) : Only m r (State.windowAccess s x1 x2 x3) := by
  unfold State.windowAccess
  try dsimp only
  repeat' (first
    | (intro _; try dsimp only)
    | with_reducible apply hx3
    | with_reducible assumption
    | with_reducible apply Only.ite
    | with_reducible refine State.acrossTo_only (k.sub (by decide)) ?_ ?_)

theorem State.takeBytes_only {m : Nat} {r s : State} {x1 : Nat} {x2 : Nat} {x3 : List (Option Byte)} (k : Covers 0x3460000000000000000000000000000209a000000000000000000000000000000000000000000000000000000c0000008100002000000143f8007000060000c0218 m) (h : Only m r s) : Only m r (State.takeBytes s x1 x2 x3) := by
  unfold State.takeBytes
  try dsimp only
  repeat' (first
    | (intro _; try dsimp only)
    | with_reducible assumption
    | fail_if_no_progress (with_reducible refine Only.hiTo (by apply HostStOnly.of <;> first | exact .inl (k.bit (by decide)) | exact .inr rfl) ?_)
    | with_reducible apply Only.foldl
    | with_reducible apply Only.ite
    | with_reducible refine State.setHeldBytes_only (k.sub (by decide)) ?_
    | with_reducible refine State.commitGranule_only (k.sub (by decide)) ?_)

theorem State.overrun_only {m : Nat} {r s : State} {x1 : Nat} {x2 : Nat} {x3 : Nat} {x4 : Nat} (k : Covers 0x30600000000000000000000000000000000000000000000000000000000000000000000000000000000000000000000081000020000000000000700000000000200 m) (h : Only m r s) : Only m r (State.overrun s x1 x2 x3 x4) := by
  unfold State.overrun
  try dsimp only
  repeat' (first
    | with_reducible assumption
    | with_reducible apply Only.ite
    | with_reducible refine State.raise_only (k.sub (by decide)) ?_
    | with_reducible refine State.setErr_only _ _ (k.err (by decide) (by decide)) ?_)

theorem gangwayWrite_only {m : Nat} {r s : State} {x0 : Nat} {x1 : Nat} {x2 : List (Option Byte)} (k : Covers 0x3460000000000000000000000000000209a000000000000000000000000000000000000000000000000000000c0000008100002000000143f8007000060000c0218 m) (h : Only m r s) : Only m r (gangwayWrite x0 x1 x2 s) := by
  unfold gangwayWrite
  try dsimp only
  repeat' (first
    | with_reducible assumption
    | with_reducible apply Only.ite
    | with_reducible refine State.setErr_only _ _ (k.err (by decide) (by decide)) ?_
    | with_reducible refine State.addSat_only _ _ _ (k.words (by decide)) ?_
    | with_reducible refine State.takeBytes_only (k.sub (by decide)) ?_
    | with_reducible refine State.overrun_only (k.sub (by decide)) ?_)

theorem State.windowWrite_only {m : Nat} {r s : State} {x1 : Nat} {x2 : Nat} {x3 : List (Option Byte)} (k : Covers 0x3460000000000000000000000000000209a000000000000000000000000000000000000000000000000000000c0000008100002000000143f8807000060000c0218 m) (h : Only m r s) : Only m r (State.windowWrite s x1 x2 x3) := by
  unfold State.windowWrite
  try dsimp only
  repeat' (first
    | (intro _; try dsimp only)
    | with_reducible assumption
    | with_reducible refine State.windowAccess_only (k.sub (by decide)) ?_ ?_
    | with_reducible refine gangwayWrite_only (k.sub (by decide)) ?_)

theorem gangwayRead_only {m : Nat} {r s : State} {x0 : Nat} {x1 : Nat} {x2 : Nat} (k : Covers 0x3460000000000000000000000000000209a000000000000000000000000000000000000000000000000000000c0000008000002000000003b800700000000000200 m) (h : Only m r s) : Only m r (gangwayRead x0 x1 x2 s) := by
  unfold gangwayRead
  try dsimp only
  repeat' (first
    | with_reducible assumption
    | with_reducible refine State.emit_only _ (k.bit (i := 113) (by decide)) ?_
    | with_reducible refine State.uncorrectable_only (k.sub (by decide)) ?_
    | with_reducible refine State.targetRead_only (k.sub (by decide)) ?_
    | split)

theorem State.windowRead_only {m : Nat} {r s : State} {x1 : Nat} {x2 : Nat} {x3 : Nat} (k : Covers 0x3460000000000000000000000000000209a000000000000000000000000000000000000000000000000000000c0000008000002000000003b880700000000000200 m) (h : Only m r s) : Only m r (State.windowRead s x1 x2 x3) := by
  unfold State.windowRead
  try dsimp only
  repeat' (first
    | (intro _; try dsimp only)
    | with_reducible assumption
    | with_reducible refine State.windowAccess_only (k.sub (by decide)) ?_ ?_
    | with_reducible refine gangwayRead_only (k.sub (by decide)) ?_)

theorem gangwayStatusRead_only {m : Nat} {r s : State} {x0 : Nat} (k : Covers 0x3460000000000000000000000000000209a000000000000000000000000000000000000000000000000000000c0000008100002000000143f8007000060000c0208 m) (h : Only m r s) : Only m r (gangwayStatusRead x0 s) := by
  unfold gangwayStatusRead
  try dsimp only
  repeat' (first
    | with_reducible assumption
    | with_reducible refine State.flushWindow_only (k.sub (by decide)) ?_
    | with_reducible refine State.emit_only _ (k.bit (i := 113) (by decide)) ?_)

theorem State.windowStatus_only {m : Nat} {r s : State} {x1 : Nat} (k : Covers 0x3460000000000000000000000000000209a000000000000000000000000000000000000000000000000000000c0000008100002000000143f8807000060000c0208 m) (h : Only m r s) : Only m r (State.windowStatus s x1) := by
  unfold State.windowStatus
  try dsimp only
  repeat' (first
    | (intro _; try dsimp only)
    | with_reducible assumption
    | with_reducible refine State.windowAccess_only (k.sub (by decide)) ?_ ?_
    | with_reducible refine gangwayStatusRead_only (k.sub (by decide)) ?_)

theorem execGangwayEnable_only {m : Nat} {r s : State} {x0 : Fin 16} {x1 : Word} (k : Covers 0x3460000000000000000000000000000209a000000000000000000000000000000000000000000000000000000e0000008120002000000143f8007000060000c0208 m) (h : Only m r s) : OnlyRes m r (execGangwayEnable x0 x1 s) := by
  unfold execGangwayEnable
  try dsimp only
  repeat' (first
    | (intro _; try dsimp only)
    | with_reducible assumption
    | with_reducible refine whenBar_only (k.sub (by decide)) ?_ ?_
    | with_reducible refine gangwayTarget_only (k.sub (by decide)) ?_)

theorem execGangwayClose_only {m : Nat} {r s : State} {x0 : Fin 16} {x1 : Word} (k : Covers 0x3460000000000000000000000000000209a000000000000000000000000000000000000000000000000000000e0000008120002000000143f8007000060000c0208 m) (h : Only m r s) : OnlyRes m r (execGangwayClose x0 x1 s) := by
  unfold execGangwayClose
  try dsimp only
  repeat' (first
    | (intro _; try dsimp only)
    | with_reducible assumption
    | with_reducible refine whenBar_only (k.sub (by decide)) ?_ ?_
    | with_reducible refine gangwayTarget_only (k.sub (by decide)) ?_)

theorem execGangwayWrite_only {m : Nat} {r s : State} {x0 : Fin 16} {x1 : Nat} {x2 : List (Option Byte)} (k : Covers 0x3460000000000000000000000000000209a000000000000000000000000000000000000000000000000000000c0000008100002000000143f8807000060000c0218 m) (h : Only m r s) : OnlyRes m r (execGangwayWrite x0 x1 x2 s) := by
  unfold execGangwayWrite
  try dsimp only
  repeat' (first
    | (intro _; try dsimp only)
    | with_reducible assumption
    | with_reducible apply OnlyRes.fault
    | with_reducible apply OnlyRes.ite
    | with_reducible refine whenBar_only (k.sub (by decide)) ?_ ?_
    | with_reducible refine State.windowWrite_only (k.sub (by decide)) ?_)

theorem execGangwayRead_only {m : Nat} {r s : State} {x0 : Fin 16} {x1 : Nat} {x2 : Nat} (k : Covers 0x3460000000000000000000000000000209a000000000000000000000000000000000000000000000000000000c0000008000002000000003b880700000000000200 m) (h : Only m r s) : OnlyRes m r (execGangwayRead x0 x1 x2 s) := by
  unfold execGangwayRead
  try dsimp only
  repeat' (first
    | (intro _; try dsimp only)
    | with_reducible assumption
    | with_reducible apply OnlyRes.fault
    | with_reducible apply OnlyRes.ite
    | with_reducible refine whenBar_only (k.sub (by decide)) ?_ ?_
    | with_reducible refine State.windowRead_only (k.sub (by decide)) ?_)

theorem execGangwayStatusRead_only {m : Nat} {r s : State} {x0 : Fin 16} (k : Covers 0x3460000000000000000000000000000209a000000000000000000000000000000000000000000000000000000c0000008100002000000143f8807000060000c0208 m) (h : Only m r s) : OnlyRes m r (execGangwayStatusRead x0 s) := by
  unfold execGangwayStatusRead
  try dsimp only
  repeat' (first
    | (intro _; try dsimp only)
    | with_reducible assumption
    | with_reducible refine whenBar_only (k.sub (by decide)) ?_ ?_
    | with_reducible refine State.windowStatus_only (k.sub (by decide)) ?_)

theorem execGangwayGranuleTimeout_only {m : Nat} {r s : State} {x0 : Fin 16} (k : Covers 0x3460000000000000000000000000000209a000000000000000000000000000000000000000000000000000000c0000008100002000000143f8007000060000c0208 m) (h : Only m r s) : OnlyRes m r (execGangwayGranuleTimeout x0 s) := by
  unfold execGangwayGranuleTimeout
  try dsimp only
  repeat' (first
    | (intro _; try dsimp only)
    | with_reducible assumption
    | with_reducible refine whenLive_only (k.sub (by decide)) ?_ ?_
    | with_reducible refine State.flushWindow_only (k.sub (by decide)) ?_)

/-! ### Machine/Prot.lean -/

theorem State.bumpPartitions_only {m : Nat} {r s : State} {x1 : List (Nat × ProtEntry)} (k : Covers 0x380000000000000000000000000000000000000000000000000000000000000000020000000000000000000000 m) (h : Only m r s) : Only m r (State.bumpPartitions s x1) := by
  unfold State.bumpPartitions
  try dsimp only
  repeat' (first
    | (intro _; try dsimp only)
    | with_reducible assumption
    | with_reducible apply Only.foldl
    | with_reducible apply Only.ite
    | with_reducible refine State.discardRetained_only (k.sub (by decide)) ?_
    | with_reducible refine State.addWrap_only _ _ _ (k.words (by decide)) ?_)

theorem State.newTable_only {m : Nat} {r s : State} (k : Covers 0x40c0000000000000000000000000000000000000000000000000000000000000000000000000000000000000000000000000000000100000000000000000000000000000020 m) (h : Only m r s) : Only m r (State.newTable s) := by
  unfold State.newTable
  try dsimp only
  repeat' (first
    | with_reducible assumption
    | fail_if_no_progress (with_reducible refine Only.hiTo (by apply HostStOnly.of <;> first | exact .inl (k.bit (by decide)) | exact .inr rfl) ?_)
    | with_reducible refine State.wr_only _ _ _ (k.words (by decide)) ?_
    | with_reducible refine State.attest_only (k.sub (by decide)) ?_)

theorem State.protUpdate_only {m : Nat} {r s : State} {x1 : Desc} {x2 : List Byte} (k : Covers 0x90000020000000000000000000000000243 m) (h : Only m r s) : Only m r (State.protUpdate s x1 x2) := by
  unfold State.protUpdate
  try dsimp only
  repeat' (first
    | with_reducible assumption
    | fail_if_no_progress (with_reducible refine Only.hiTo (by apply HostStOnly.of <;> first | exact .inl (k.bit (by decide)) | exact .inr rfl) ?_)
    | with_reducible refine State.complete_only (k.sub (by decide)) ?_
    | split)

theorem State.recheckWaiting_only {m : Nat} {r s : State} (k : Covers 0x90000020000000000000000000000000203 m) (h : Only m r s) : Only m r (State.recheckWaiting s) := by
  unfold State.recheckWaiting
  try dsimp only
  repeat' (first
    | (intro _; try dsimp only)
    | with_reducible assumption
    | with_reducible apply Only.foldl
    | with_reducible apply Only.ite
    | with_reducible refine State.updateDesc_only (k.sub (by decide)) ?_
    | with_reducible refine State.complete_only (k.sub (by decide)) ?_)

theorem State.setPartition_only {m : Nat} {r s : State} {x1 : Desc} (k : Covers 0x90000020000000000000000000000000283 m) (h : Only m r s) : Only m r (State.setPartition s x1) := by
  unfold State.setPartition
  try dsimp only
  repeat' (first
    | with_reducible assumption
    | fail_if_no_progress (with_reducible refine Only.hiTo (by apply HostStOnly.of <;> first | exact .inl (k.bit (by decide)) | exact .inr rfl) ?_)
    | with_reducible apply Only.ite
    | with_reducible refine State.complete_only (k.sub (by decide)) ?_)

theorem execProtUpdate_only {m : Nat} {r s : State} {x0 : Fin 4096} {x1 : HostData} (k : Covers 0x90000020000000000000000000000000243 m) (h : Only m r s) : OnlyRes m r (execProtUpdate x0 x1 s) := by
  unfold execProtUpdate
  try dsimp only
  repeat' (first
    | (intro _; try dsimp only)
    | with_reducible assumption
    | with_reducible apply OnlyRes.next
    | with_reducible apply OnlyRes.ite
    | with_reducible refine runOpcode_only (k.sub (by decide)) ?_ ?_
    | with_reducible refine State.complete_only (k.sub (by decide)) ?_
    | with_reducible refine State.protUpdate_only (k.sub (by decide)) ?_
    | split)

theorem execProtCommit_only {m : Nat} {r s : State} {x0 : Fin 4096} (k : Covers 0x90000020000000000000000000000000203 m) (h : Only m r s) : OnlyRes m r (execProtCommit x0 s) := by
  unfold execProtCommit
  try dsimp only
  repeat' (first
    | (intro _; try dsimp only)
    | with_reducible assumption
    | with_reducible refine runOpcode_only (k.sub (by decide)) ?_ ?_)

theorem generationBoundary_only {m : Nat} {r s : State} (k : Covers 0x40c00000306000000000000000000000000000004080000003a0000040000000004000000000002420000000040000000000000090100020000020c00000700840478000223 m) (h : Only m r s) : Only m r (generationBoundary s) := by
  unfold generationBoundary
  try dsimp only
  repeat' (first
    | with_reducible assumption
    | with_reducible apply Only.ite
    | with_reducible refine State.complete_only (k.sub (by decide)) ?_
    | with_reducible refine State.newTable_only (k.sub (by decide)) ?_
    | with_reducible refine State.recheckContexts_only (k.sub (by decide)) ?_
    | with_reducible refine State.recheckFlows_only (k.sub (by decide)) ?_
    | with_reducible refine State.recheckLearn_only (k.sub (by decide)) ?_
    | with_reducible refine State.bumpPartitions_only (k.sub (by decide)) ?_
    | with_reducible refine State.recheckWaiting_only (k.sub (by decide)) ?_
    | split)

theorem execProtGenerationBoundary_only {m : Nat} {r s : State} (k : Covers 0x40c00000306000000000000000000000000000004080000003a0000040000000004000000000002420000000040000000000000090100020000020c00000700840478000223 m) (h : Only m r s) : OnlyRes m r (execProtGenerationBoundary s) := by
  unfold execProtGenerationBoundary
  try dsimp only
  repeat' (first
    | (intro _; try dsimp only)
    | with_reducible assumption
    | with_reducible refine whenLive_only (k.sub (by decide)) ?_ ?_
    | with_reducible refine generationBoundary_only (k.sub (by decide)) ?_)

theorem execPartitionSet_only {m : Nat} {r s : State} {x0 : Fin 4096} (k : Covers 0x90000020000000000000000000000000283 m) (h : Only m r s) : OnlyRes m r (execPartitionSet x0 s) := by
  unfold execPartitionSet
  try dsimp only
  repeat' (first
    | (intro _; try dsimp only)
    | with_reducible assumption
    | with_reducible refine runOpcode_only (k.sub (by decide)) ?_ ?_
    | with_reducible refine State.setPartition_only (k.sub (by decide)) ?_)

/-! ### Machine/Recovery.lean -/

theorem fhCfgWrite_only {m : Nat} {r s : State} {x0 : Word} (k : Covers 0x30700000000000000000000000000000000000000000000000000000000000000000000000000000000000000000000080000020000000000000700000000000200 m) (h : Only m r s) : Only m r (fhCfgWrite x0 s) := by
  unfold fhCfgWrite
  try dsimp only
  repeat' (first
    | with_reducible assumption
    | with_reducible apply Only.ite
    | with_reducible refine State.refuseWrite_only (k.sub (by decide)) ?_
    | with_reducible refine State.plainWrite_only _ _ _ (k.words (by decide)) ?_)

theorem logAck_only {m : Nat} {r s : State} {x0 : Word} (k : Covers 0x800000000000000000000000000000000000000000000000000000000000000000000000000000000000000000000080000020000000000000400000000000200 m) (h : Only m r s) : Only m r (logAck x0 s) := by
  unfold logAck
  try dsimp only
  repeat' (first
    | with_reducible assumption
    | fail_if_no_progress (with_reducible refine Only.fhTo (by apply FaultStOnly.of <;> first | exact .inl (k.bit (by decide)) | exact .inr rfl) ?_)
    | with_reducible refine State.plainWrite_only _ _ _ (k.words (by decide)) ?_
    | with_reducible refine State.signalLog_only (k.sub (by decide)) ?_)

theorem State.retireTileReq_only {m : Nat} {r s : State} {x1 : Nat} {x2 : Nat} (k : Covers 0x3c600000000000000000000000000000000000000000000000000000000000000000000000000000000000000000000080000020000000000010f00000000000200 m) (h : Only m r s) : Only m r (State.retireTileReq s x1 x2) := by
  unfold State.retireTileReq
  try dsimp only
  repeat' (first
    | with_reducible assumption
    | with_reducible apply Only.ite
    | with_reducible refine State.queueRecovery_only (k.sub (by decide)) ?_
    | with_reducible refine State.retireSpareTile_only (k.sub (by decide)) ?_
    | split)

theorem State.retireLaserReq_only {m : Nat} {r s : State} {x1 : Nat} {x2 : Nat} (k : Covers 0x800000003c600000000000000000000390100000000000000060000000000000000000000010000000000004000000000c000000900000302af1a044081b700800dd8400203 m) (h : Only m r s) : Only m r (State.retireLaserReq s x1 x2) := by
  unfold State.retireLaserReq
  try dsimp only
  repeat' (first
    | with_reducible assumption
    | with_reducible apply Only.ite
    | with_reducible refine State.laserFails_only (k.sub (by decide)) ?_
    | with_reducible refine State.startSwap_only (k.sub (by decide)) ?_)

theorem retireRequest_only {m : Nat} {r s : State} {x0 : Word} (k : Covers 0x800000003c600000000000000000000390100000000000000060000000000000000000000010000000000004000000000c000000900000302af1a044081bf00800dd8400203 m) (h : Only m r s) : Only m r (retireRequest x0 s) := by
  unfold retireRequest
  try dsimp only
  repeat' (first
    | with_reducible assumption
    | with_reducible apply Only.ite
    | with_reducible refine State.refuseWrite_only (k.sub (by decide)) ?_
    | with_reducible refine State.laneFails_only (k.sub (by decide)) ?_
    | with_reducible refine State.retireTileReq_only (k.sub (by decide)) ?_
    | with_reducible refine State.retireLaserReq_only (k.sub (by decide)) ?_)

theorem State.dropRecovery_only {m : Nat} {r s : State} {x1 : Recovery} (k : Covers 0x8000000000000000000000000000000000000000000000000000000000000000000000000000000000000000000000000000000000000000010000000000000000 m) (h : Only m r s) : Only m r (State.dropRecovery s x1) := by
  unfold State.dropRecovery
  try dsimp only
  repeat' (first
    | with_reducible assumption
    | fail_if_no_progress (with_reducible refine Only.fhTo (by apply FaultStOnly.of <;> first | exact .inl (k.bit (by decide)) | exact .inr rfl) ?_)
    | with_reducible refine State.setWord_at_only (k.words (by decide)) ?_
    | split)

theorem State.frameGone_only {m : Nat} {r s : State} {x1 : Nat} {x2 : Nat} (k : Covers 0x20000000040000000000000000000000000020c40000000840478000000 m) (h : Only m r s) : Only m r (State.frameGone s x1 x2) := by
  unfold State.frameGone
  try dsimp only
  repeat' (first
    | with_reducible assumption
    | with_reducible refine State.freeFrame_only (k.sub (by decide)) ?_
    | with_reducible refine State.setMooring_only (k.sub (by decide)) ?_
    | with_reducible refine State.askSource_only (k.sub (by decide)) ?_
    | with_reducible refine State.modLeg_only (k.sub (by decide)) ?_
    | split)

theorem State.retireTile_only {m : Nat} {r s : State} {x1 : Nat} {x2 : Nat} (k : Covers 0x4000000000000000000000000000000000000000000000000000000000000000000000000000000000000000000000000000000000000000000800000000000000 m) (h : Only m r s) : Only m r (State.retireTile s x1 x2) := by
  unfold State.retireTile
  try dsimp only
  repeat' (first
    | with_reducible assumption
    | fail_if_no_progress (with_reducible refine Only.fhTo (by apply FaultStOnly.of <;> first | exact .inl (k.bit (by decide)) | exact .inr rfl) ?_)
    | with_reducible apply Only.ite
    | with_reducible refine State.addSat_only _ _ _ (k.words (by decide)) ?_)

theorem State.reloadTile_only {m : Nat} {r s : State} {x1 : Nat} (k : Covers 0x400000000000000000000 m) (h : Only m r s) : Only m r (State.reloadTile s x1) := by
  unfold State.reloadTile
  try dsimp only
  repeat' (first
    | (intro _; try dsimp only)
    | with_reducible assumption
    | with_reducible apply Only.foldl
    | with_reducible apply Only.ite
    | with_reducible refine State.modTile_only (k.sub (by decide)) ?_)

theorem State.mapTile_only {m : Nat} {r s : State} {x1 : Recovery} {x2 : Nat} (k : Covers 0x3c600000000000000000000000000000000000000000000000000000003000000000000000000000000000000000000080000030000000400010f00000000000200 m) (h : Only m r s) : Only m r (State.mapTile s x1 x2) := by
  unfold State.mapTile
  try dsimp only
  repeat' (first
    | with_reducible assumption
    | (with_reducible refine State.wrs_only _ (by simp only [List.forall_mem_cons, List.not_mem_nil, false_imp_iff, implies_true, and_true]; (repeat' apply And.intro) <;> exact k.words (by decide)) ?_)
    | with_reducible refine State.addSat_only _ _ _ (k.words (by decide)) ?_
    | with_reducible refine State.retireTile_only (k.sub (by decide)) ?_
    | with_reducible refine State.reloadTile_only (k.sub (by decide)) ?_
    | with_reducible refine State.scramble_only (k.sub (by decide)) ?_
    | with_reducible refine State.addWrap_only _ _ _ (k.words (by decide)) ?_
    | with_reducible refine State.raise_only (k.sub (by decide)) ?_
    | with_reducible refine State.putRecovery_only (k.sub (by decide)) ?_
    | with_reducible refine State.budgetEvents_only (k.sub (by decide)) ?_)

theorem State.quiesceTile_only {m : Nat} {r s : State} {x1 : Nat} (k : Covers 0x30600000000000000000000000000000000000000000000100200000004000000010000000000000000000000000000080000020000020800000700000408000200 m) (h : Only m r s) : Only m r (State.quiesceTile s x1) := by
  unfold State.quiesceTile
  try dsimp only
  repeat' (first
    | (intro _; try dsimp only)
    | with_reducible assumption
    | with_reducible apply Only.foldl
    | with_reducible apply Only.ite
    | with_reducible refine State.voidEpoch_only (k.sub (by decide)) ?_
    | with_reducible refine State.wr_only _ _ _ (k.words (by decide)) ?_
    | split)

theorem State.quiesce_only {m : Nat} {r s : State} {x1 : Recovery} (k : Covers 0x30600000000000000000000000000000000000000000000100200000004000000010000000000000000000000000000080000020000020800000700000408000200 m) (h : Only m r s) : Only m r (State.quiesce s x1) := by
  unfold State.quiesce
  try dsimp only
  repeat' (first
    | with_reducible assumption
    | with_reducible apply Only.ite
    | with_reducible refine State.quiesceTile_only (k.sub (by decide)) ?_)

theorem State.recountHalf_only {m : Nat} {r s : State} {x1 : Nat} {x2 : Nat} {x3 : Nat} (k : Covers 0x40000000000000000000 m) (h : Only m r s) : Only m r (State.recountHalf s x1 x2 x3) := by
  unfold State.recountHalf
  try dsimp only
  repeat' (first
    | with_reducible assumption
    | with_reducible refine State.setMooring_only (k.sub (by decide)) ?_)

theorem State.rebuildTile_only {m : Nat} {r s : State} {x1 : Recovery} {x2 : List Nat} (k : Covers 0x38600000000000000000000000000000000000000000000000000000008000000000000020000000040000000000000080000020000020c40010700840478000200 m) (h : Only m r s) : Only m r (State.rebuildTile s x1 x2) := by
  unfold State.rebuildTile
  try dsimp only
  repeat' (first
    | (intro _; try dsimp only)
    | with_reducible assumption
    | with_reducible apply Only.foldl
    | with_reducible apply Only.ite
    | with_reducible refine State.putRecovery_only (k.sub (by decide)) ?_
    | with_reducible refine State.recountHalf_only (k.sub (by decide)) ?_
    | with_reducible refine State.raise_only (k.sub (by decide)) ?_
    | with_reducible refine State.setErr_only _ _ (k.err (by decide) (by decide)) ?_
    | with_reducible refine State.restartRecovery_only (k.sub (by decide)) ?_
    | with_reducible refine State.frameGone_only (k.sub (by decide)) ?_)

theorem State.withdrawTile_only {m : Nat} {r s : State} {x1 : Recovery} (k : Covers 0x3c600000000000000000000000000000000000000320000040000000007000000000000020000000040000000c00000090000020000020c00818f00840478000203 m) (h : Only m r s) : Only m r (State.withdrawTile s x1) := by
  unfold State.withdrawTile
  try dsimp only
  repeat' (first
    | with_reducible assumption
    | fail_if_no_progress (with_reducible refine Only.fhTo (by apply FaultStOnly.of <;> first | exact .inl (k.bit (by decide)) | exact .inr rfl) ?_)
    | with_reducible refine State.dropRecovery_only (k.sub (by decide)) ?_
    | with_reducible refine State.addSat_only _ _ _ (k.words (by decide)) ?_
    | with_reducible refine State.retireTile_only (k.sub (by decide)) ?_
    | with_reducible refine State.addWrap_only _ _ _ (k.words (by decide)) ?_
    | (with_reducible refine State.wrs_only _ (by simp only [List.forall_mem_cons, List.not_mem_nil, false_imp_iff, implies_true, and_true]; (repeat' apply And.intro) <;> exact k.words (by decide)) ?_)
    | with_reducible refine State.raise_only (k.sub (by decide)) ?_
    | with_reducible refine State.loseTile_only (k.sub (by decide)) ?_
    | with_reducible refine State.fall_only (k.sub (by decide)) ?_)

theorem State.repairTile_only {m : Nat} {r s : State} {x1 : Recovery} (k : Covers 0x3c600000000000000000000000000000000000000320000040000000007000000000000020000000040000000c00000090000030000020c00818f00840478000203 m) (h : Only m r s) : Only m r (State.repairTile s x1) := by
  unfold State.repairTile
  try dsimp only
  repeat' (first
    | with_reducible assumption
    | with_reducible apply Only.ite
    | with_reducible refine State.putRecovery_only (k.sub (by decide)) ?_
    | with_reducible refine State.mapTile_only (k.sub (by decide)) ?_
    | with_reducible refine State.withdrawTile_only (k.sub (by decide)) ?_
    | split)

theorem State.repairLane_only {m : Nat} {r s : State} {x1 : Recovery} (k : Covers 0x800000003c600000000000000000000310100000000000000060000000000000000000000010000000000005000000000c0000009000002008f1a0440819700800dd8400203 m) (h : Only m r s) : Only m r (State.repairLane s x1) := by
  unfold State.repairLane
  try dsimp only
  repeat' (first
    | with_reducible assumption
    | with_reducible apply Only.ite
    | with_reducible refine State.putRecovery_only (k.sub (by decide)) ?_
    | with_reducible refine State.loseLane_only (k.sub (by decide)) ?_
    | with_reducible refine State.spareLane_only (k.sub (by decide)) ?_
    | with_reducible refine State.sendMarker_only (k.sub (by decide)) ?_
    | with_reducible refine State.portFalls_only (k.sub (by decide)) ?_
    | split)

theorem State.repair_only {m : Nat} {r s : State} {x1 : Recovery} (k : Covers 0x800000003c600000000000000000000310100000000000000360000040000000007000000010000020000005040000000c0000009000003008f1a0c40819f00840df8400203 m) (h : Only m r s) : Only m r (State.repair s x1) := by
  unfold State.repair
  try dsimp only
  repeat' (first
    | with_reducible assumption
    | with_reducible apply Only.ite
    | with_reducible refine State.repairTile_only (k.sub (by decide)) ?_
    | with_reducible refine State.repairLane_only (k.sub (by decide)) ?_
    | with_reducible refine State.putRecovery_only (k.sub (by decide)) ?_)

theorem State.resume_only {m : Nat} {r s : State} {x1 : Recovery} (k : Covers 0x38600000000000000000000000000000000000000000000000000000004000000000000000000000000000000000000080000020000000000010700000000000200 m) (h : Only m r s) : Only m r (State.resume s x1) := by
  unfold State.resume
  try dsimp only
  repeat' (first
    | with_reducible assumption
    | with_reducible apply Only.ite
    | with_reducible refine State.dropRecovery_only (k.sub (by decide)) ?_
    | with_reducible refine State.showTile_only (k.sub (by decide)) ?_
    | with_reducible refine State.wr_only _ _ _ (k.words (by decide)) ?_
    | with_reducible refine State.raise_only (k.sub (by decide)) ?_)

theorem execFaultLogRead_only {m : Nat} {r s : State} {x0 : Fin 4096} {x1 : Bool} (k : Covers 0x90000020000000000000000000000000203 m) (h : Only m r s) : OnlyRes m r (execFaultLogRead x0 x1 s) := by
  unfold execFaultLogRead
  try dsimp only
  repeat' (first
    | (intro _; try dsimp only)
    | with_reducible assumption
    | with_reducible apply Only.ite
    | with_reducible refine runOpcode_only (k.sub (by decide)) ?_ ?_
    | with_reducible refine State.complete_only (k.sub (by decide)) ?_
    | with_reducible refine State.descWrite_only (k.sub (by decide)) ?_)

theorem laneErrorCheck_only {m : Nat} {r s : State} {x0 : Nat} {x1 : Nat} {x2 : Nat} {x3 : Nat} (k : Covers 0x3c600000000000000000000000000000000000000000000000000000000000000000000000000000000000000000000080000020000000000611700000000000200 m) (h : Only m r s) : Only m r (laneErrorCheck x0 x1 x2 x3 s) := by
  unfold laneErrorCheck
  try dsimp only
  repeat' (first
    | with_reducible assumption
    | fail_if_no_progress (with_reducible refine Only.fhTo (by apply FaultStOnly.of <;> first | exact .inl (k.bit (by decide)) | exact .inr rfl) ?_)
    | with_reducible apply Only.ite
    | with_reducible refine State.laneFails_only (k.sub (by decide)) ?_)

theorem execLaneErrorCheck_only {m : Nat} {r s : State} {x0 : Fin 2304} {x1 : BitVec 64} {x2 : BitVec 64} {x3 : Fin 4} (k : Covers 0x3c600000000000000000000000000000000000000000000000000000000000000000000000000000000000000000000080000020000000000611700000000000200 m) (h : Only m r s) : OnlyRes m r (execLaneErrorCheck x0 x1 x2 x3 s) := by
  unfold execLaneErrorCheck
  try dsimp only
  repeat' (first
    | (intro _; try dsimp only)
    | with_reducible assumption
    | with_reducible refine whenLive_only (k.sub (by decide)) ?_ ?_
    | with_reducible refine laneErrorCheck_only (k.sub (by decide)) ?_)

theorem recoveryStart_only {m : Nat} {r s : State} {x0 : Nat} {x1 : Nat} (k : Covers 0x38600000000000000000000000000000000000000000000100200000004000000010000000000000000000000000000080000020000020800010700000408000200 m) (h : Only m r s) : Only m r (recoveryStart x0 x1 s) := by
  unfold recoveryStart
  try dsimp only
  repeat' (first
    | with_reducible assumption
    | with_reducible apply Only.ite
    | with_reducible refine State.quiesce_only (k.sub (by decide)) ?_
    | with_reducible refine State.raise_only (k.sub (by decide)) ?_
    | with_reducible refine State.putRecovery_only (k.sub (by decide)) ?_
    | split)

theorem execRecoveryStart_only {m : Nat} {r s : State} {x0 : Fin 16} {x1 : BitVec 32} (k : Covers 0x38600000000000000000000000000000000000000000000100200000004000000010000000000000000000000000000080000020000020800010700000408000200 m) (h : Only m r s) : OnlyRes m r (execRecoveryStart x0 x1 s) := by
  unfold execRecoveryStart
  try dsimp only
  repeat' (first
    | (intro _; try dsimp only)
    | with_reducible assumption
    | with_reducible refine whenLive_only (k.sub (by decide)) ?_ ?_
    | with_reducible refine recoveryStart_only (k.sub (by decide)) ?_)

theorem recoveryStateDone_only {m : Nat} {r s : State} {x0 : Nat} {x1 : List Nat} (k : Covers 0x800000003c60000000000000000000031010000000000000036000004000000000f000000010000020000005040000000c0000009000003008f1a0c40819f00840df8400203 m) (h : Only m r s) : Only m r (recoveryStateDone x0 x1 s) := by
  unfold recoveryStateDone
  try dsimp only
  repeat' (first
    | with_reducible assumption
    | with_reducible apply Only.ite
    | with_reducible refine State.putRecovery_only (k.sub (by decide)) ?_
    | with_reducible refine State.repair_only (k.sub (by decide)) ?_
    | with_reducible refine State.rebuildTile_only (k.sub (by decide)) ?_
    | with_reducible refine State.resume_only (k.sub (by decide)) ?_
    | split)

theorem execRecoveryStateDone_only {m : Nat} {r s : State} {x0 : Fin 16} {x1 : List (Fin 256)} (k : Covers 0x800000003c60000000000000000000031010000000000000036000004000000000f000000010000020000005040000000c0000009000003008f1a0c40819f00840df8400203 m) (h : Only m r s) : OnlyRes m r (execRecoveryStateDone x0 x1 s) := by
  unfold execRecoveryStateDone
  try dsimp only
  repeat' (first
    | (intro _; try dsimp only)
    | with_reducible assumption
    | with_reducible refine whenLive_only (k.sub (by decide)) ?_ ?_
    | with_reducible refine recoveryStateDone_only (k.sub (by decide)) ?_)

theorem execRetireRequest_only {m : Nat} {r s : State} {x0 : Word} (k : Covers 0x800000003c600000000000000000000390100000000000000060000000000000000000000010000000000004000000000c000000900000302af1a044081bf00800dd8400203 m) (h : Only m r s) : OnlyRes m r (execRetireRequest x0 s) := by
  unfold execRetireRequest
  try dsimp only
  repeat' (first
    | (intro _; try dsimp only)
    | with_reducible assumption
    | with_reducible refine whenBar_only (k.sub (by decide)) ?_ ?_
    | with_reducible refine retireRequest_only (k.sub (by decide)) ?_)

theorem execMergeWindowExpiry_only {m : Nat} {r s : State} {x0 : BitVec 16} {x1 : BitVec 32} (k : Covers 0x200000000000000000000000000000000000000000000000000000000000000000000000000000000000000000000080000020000000000000700000000000200 m) (h : Only m r s) : OnlyRes m r (execMergeWindowExpiry x0 x1 s) := by
  unfold execMergeWindowExpiry
  try dsimp only
  repeat' (first
    | (intro _; try dsimp only)
    | with_reducible assumption
    | with_reducible refine whenLive_only (k.sub (by decide)) ?_ ?_
    | with_reducible refine State.closeWindow_only (k.sub (by decide)) ?_)

theorem execLogAck_only {m : Nat} {r s : State} {x0 : Word} (k : Covers 0x800000000000000000000000000000000000000000000000000000000000000000000000000000000000000000000080000020000000000000400000000000200 m) (h : Only m r s) : OnlyRes m r (execLogAck x0 s) := by
  unfold execLogAck
  try dsimp only
  repeat' (first
    | (intro _; try dsimp only)
    | with_reducible assumption
    | with_reducible refine whenBar_only (k.sub (by decide)) ?_ ?_
    | with_reducible refine logAck_only (k.sub (by decide)) ?_)

theorem progressTick_only {m : Nat} {r s : State} (k : Covers 0x2000000000000000000000000000000000000000000000000000000000000000000000000000000000000000000000000000000000000000000000000000000000 m) (h : Only m r s) : Only m r (progressTick s) := by
  unfold progressTick
  try dsimp only
  repeat' (first
    | with_reducible assumption
    | with_reducible apply Only.ite
    | with_reducible refine State.addSat_only _ _ _ (k.words (by decide)) ?_)

theorem execProgressTick_only {m : Nat} {r s : State} (k : Covers 0x2000000000000000000000000000000000000000000000000000000000000000000000000000000000000000000000000000000000000000000000000000000000 m) (h : Only m r s) : OnlyRes m r (execProgressTick s) := by
  unfold execProgressTick
  try dsimp only
  repeat' (first
    | (intro _; try dsimp only)
    | with_reducible assumption
    | with_reducible refine whenLive_only (k.sub (by decide)) ?_ ?_
    | with_reducible refine progressTick_only (k.sub (by decide)) ?_)

end Sys2Proof.Machine
end

