-- ==== Sys2Proof/Laws/OnlySupply.lean ====
section
/-! SUPPORT. Every operation of Machine/Supply.lean to Machine/Dispatch.lean changes only the parts that its mask names: from a state that did so, it answers one
that did so. -/

namespace Sys2Proof.Machine

/-! ### Machine/Supply.lean -/

theorem State.areaLost_only {m : Nat} {r s : State} {x1 : Nat} {x2 : Nat} {x3 : Nat} (k : Covers 0x30600000000000000000000000000000018000000000000000000000000000000000000000000000000000000000000080000020000000000000700000000000200 m) (h : Only m r s) : Only m r (State.areaLost s x1 x2 x3) := by
  unfold State.areaLost
  try dsimp only
  repeat' (first
    | with_reducible assumption
    | with_reducible refine State.raise_only (k.sub (by decide)) ?_
    | with_reducible refine State.addWrap_only _ _ _ (k.words (by decide)) ?_
    | with_reducible refine State.setErr_only _ _ (k.err (by decide) (by decide)) ?_)

theorem State.clearDieLines_only {m : Nat} {r s : State} {x1 : Nat} (k : Covers 0x4e000000000000000000 m) (h : Only m r s) : Only m r (State.clearDieLines s x1) := by
  unfold State.clearDieLines
  try dsimp only
  repeat' (first
    | with_reducible assumption
    | fail_if_no_progress (with_reducible refine Only.msTo (by apply MemStOnly.of <;> first | exact .inl (k.bit (by decide)) | exact .inr rfl) rfl ?_))

theorem State.diePortsFall_only {m : Nat} {r s : State} {x1 : Nat} (k : Covers 0x8000000030600000000000000000000310100000000000000060000000000000000000000010000000000004000000000c0000009000002008f1a0440800700800dd8400203 m) (h : Only m r s) : Only m r (State.diePortsFall s x1) := by
  unfold State.diePortsFall
  try dsimp only
  repeat' (first
    | (intro _; try dsimp only)
    | with_reducible assumption
    | with_reducible apply Only.foldl
    | with_reducible apply Only.ite
    | with_reducible refine State.portFalls_only (k.sub (by decide)) ?_)

theorem State.dieRegs_only {m : Nat} {r s : State} {x1 : Nat} (k : Covers 0xffffffffffffffffffffffffffffffffffffffffffffffffffffffffffffffffffffffffffffffffffffffffffffffffffffffffffffffff00000000000000000000000000000000 m) (h : Only m r s) : Only m r (State.dieRegs s x1) := by
  unfold State.dieRegs
  exact Only.regsTo (k.sub (by decide)) h (fun x => swf_rebuild _ (dieWord_key x1) x)

theorem State.clearPortDie_only {m : Nat} {r s : State} {x1 : Nat} (k : Covers 0xffffffffffffffffffffffffffffffffffffffffffffffffffffffffffffffffffffffffffffffffffffffffffffffffffffffffffffffff0002008f1a0640800700a5bdd8400203 m) (h : Only m r s) : Only m r (State.clearPortDie s x1) := by
  unfold State.clearPortDie
  try dsimp only
  repeat' (first
    | with_reducible assumption
    | fail_if_no_progress (with_reducible refine Only.parts ?_ (HostStOnly.refl _) (BootStOnly.refl _) (by apply PacketStOnly.of <;> first | exact .inl (k.bit (by decide)) | exact .inr rfl) (by apply TableStOnly.of <;> first | exact .inl (k.bit (by decide)) | exact .inr rfl) (by apply QueueStOnly.of <;> first | exact .inl (k.bit (by decide)) | exact .inr rfl) (TimeStOnly.refl _) (FaultStOnly.refl _) (by apply MemStOnly.of <;> first | exact .inl (k.bit (by decide)) | exact .inr rfl) (ReduceStOnly.refl _) (CollectiveStOnly.refl _) (OpticalStOnly.refl _) (PowerStOnly.refl _) rfl)
    | with_reducible refine State.diePortsFall_only (k.sub (by decide)) ?_
    | with_reducible refine State.dieRegs_only (k.sub (by decide)) ?_
    | with_reducible refine State.recount_only (k.sub (by decide)) ?_)

theorem State.emptyLegs_only {m : Nat} {r s : State} {x1 : Nat} (k : Covers 0x20440000000000000000000 m) (h : Only m r s) : Only m r (State.emptyLegs s x1) := by
  unfold State.emptyLegs
  try dsimp only
  repeat' (first
    | (intro _; try dsimp only)
    | with_reducible assumption
    | with_reducible apply Only.foldl
    | with_reducible refine State.discardFrames_only (k.sub (by decide)) ?_)

theorem State.dropLanding_only {m : Nat} {r s : State} {x1 : Nat} (k : Covers 0x80000000000000000000000 m) (h : Only m r s) : Only m r (State.dropLanding s x1) := by
  unfold State.dropLanding
  try dsimp only
  repeat' (first
    | with_reducible assumption
    | fail_if_no_progress (with_reducible refine Only.clTo (by apply CollectiveStOnly.of <;> first | exact .inl (k.bit (by decide)) | exact .inr rfl) ?_))

theorem State.clearReductionDie_only {m : Nat} {r s : State} {x1 : Nat} (k : Covers 0xffffffffffffffffffffffffffffffffffffffffffffffffffffffffffffffffffffffffffffffffffffffffffffffffffffffffffffffff00020c000b1c40000700000408000200 m) (h : Only m r s) : Only m r (State.clearReductionDie s x1) := by
  unfold State.clearReductionDie
  try dsimp only
  repeat' (first
    | (intro _; try dsimp only)
    | with_reducible assumption
    | fail_if_no_progress (with_reducible refine Only.parts ?_ (HostStOnly.refl _) (BootStOnly.refl _) (PacketStOnly.refl _) (TableStOnly.refl _) (QueueStOnly.refl _) (TimeStOnly.refl _) (FaultStOnly.refl _) (MemStOnly.refl _) (by apply ReduceStOnly.of <;> first | exact .inl (k.bit (by decide)) | exact .inr rfl) (CollectiveStOnly.refl _) (OpticalStOnly.refl _) (by apply PowerStOnly.of <;> first | exact .inl (k.bit (by decide)) | exact .inr rfl) rfl)
    | with_reducible apply Only.foldl
    | with_reducible apply Only.ite
    | with_reducible refine State.voidEpoch_only (k.sub (by decide)) ?_
    | with_reducible refine State.emptyLegs_only (k.sub (by decide)) ?_
    | with_reducible refine State.dropLanding_only (k.sub (by decide)) ?_
    | with_reducible refine State.wr_only _ _ _ (k.words (by decide)) ?_
    | with_reducible refine State.dieRegs_only (k.sub (by decide)) ?_
    | (with_reducible refine State.wrs_only _ (by simp only [List.forall_mem_cons, List.not_mem_nil, false_imp_iff, implies_true, and_true]; (repeat' apply And.intro) <;> exact k.words (by decide)) ?_))

theorem State.zeroDieQueues_only {m : Nat} {r s : State} {x1 : Nat} (k : Covers 0x800000000 m) (h : Only m r s) : Only m r (State.zeroDieQueues s x1) := by
  unfold State.zeroDieQueues
  try dsimp only
  repeat' (first
    | with_reducible assumption
    | fail_if_no_progress (with_reducible refine Only.pcTo (by apply PacketStOnly.of <;> first | exact .inl (k.bit (by decide)) | exact .inr rfl) ?_))

theorem State.requeueRetrains_only {m : Nat} {r s : State} {x1 : Nat} (k : Covers 0x80000000000000000000000000000000000000000000000000000000000000000000000000000100000000000000000000 m) (h : Only m r s) : Only m r (State.requeueRetrains s x1) := by
  unfold State.requeueRetrains
  try dsimp only
  repeat' (first
    | (intro _; try dsimp only)
    | with_reducible assumption
    | with_reducible apply Only.foldl
    | with_reducible refine State.wr_only _ _ _ (k.words (by decide)) ?_
    | with_reducible refine State.modStack_only (k.sub (by decide)) ?_
    | split)

theorem State.loseCharges_only {m : Nat} {r s : State} {x1 : Nat} (k : Covers 0x800000000000000000000 m) (h : Only m r s) : Only m r (State.loseCharges s x1) := by
  unfold State.loseCharges
  try dsimp only
  repeat' (first
    | with_reducible assumption
    | fail_if_no_progress (with_reducible refine Only.reTo (by apply ReduceStOnly.of <;> first | exact .inl (k.bit (by decide)) | exact .inr rfl) ?_))

theorem State.loseWaiting_only {m : Nat} {r s : State} {x1 : Waiting} (k : Covers 0x10000000000000000000000000000000000020000180000000000800418000000 m) (h : Only m r s) : Only m r (State.loseWaiting s x1) := by
  unfold State.loseWaiting
  try dsimp only
  repeat' (first
    | with_reducible assumption
    | with_reducible apply Only.ite
    | with_reducible refine State.unwait_only (k.sub (by decide)) ?_
    | with_reducible refine State.dropFrame_only (k.sub (by decide)) ?_
    | with_reducible refine State.setInflight_only (k.sub (by decide)) ?_
    | split)

theorem State.loseDieWaiting_only {m : Nat} {r s : State} {x1 : Nat} (k : Covers 0x10000000000000000000000000000000000020000180000000000800418000000 m) (h : Only m r s) : Only m r (State.loseDieWaiting s x1) := by
  unfold State.loseDieWaiting
  try dsimp only
  repeat' (first
    | (intro _; try dsimp only)
    | with_reducible assumption
    | with_reducible apply Only.foldl
    | with_reducible refine State.loseWaiting_only (k.sub (by decide)) ?_)

theorem State.flushDiePorts_only {m : Nat} {r s : State} {x1 : Nat} (k : Covers 0x10000000000000000000000000000000000020000000000000000800dd8000000 m) (h : Only m r s) : Only m r (State.flushDiePorts s x1) := by
  unfold State.flushDiePorts
  try dsimp only
  repeat' (first
    | (intro _; try dsimp only)
    | with_reducible assumption
    | with_reducible apply Only.foldl
    | with_reducible apply Only.ite
    | with_reducible refine State.flushPort_only (k.sub (by decide)) ?_)

theorem State.clearSwitchDie_only {m : Nat} {r s : State} {x1 : Nat} (k : Covers 0xffffffffffffffffffffffffffffffffffffffffffffffffffffffffffffffffffffffffffffffffffffffffffffffffffffffffffffffff0002000018094e000000800dd8000000 m) (h : Only m r s) : Only m r (State.clearSwitchDie s x1) := by
  unfold State.clearSwitchDie
  try dsimp only
  repeat' (first
    | with_reducible assumption
    | with_reducible refine State.dieRegs_only (k.sub (by decide)) ?_
    | with_reducible refine State.zeroDieQueues_only (k.sub (by decide)) ?_
    | with_reducible refine State.requeueRetrains_only (k.sub (by decide)) ?_
    | with_reducible refine State.countCombining_only (k.sub (by decide)) ?_
    | with_reducible refine State.clearDieLines_only (k.sub (by decide)) ?_
    | with_reducible refine State.loseCharges_only (k.sub (by decide)) ?_
    | with_reducible refine State.loseDieWaiting_only (k.sub (by decide)) ?_
    | with_reducible refine State.flushDiePorts_only (k.sub (by decide)) ?_)

theorem State.lasersOff_only {m : Nat} {r s : State} (k : Covers 0x20060000000000000000000000000 m) (h : Only m r s) : Only m r (State.lasersOff s) := by
  unfold State.lasersOff
  try dsimp only
  repeat' (first
    | (intro _; try dsimp only)
    | with_reducible assumption
    | fail_if_no_progress (with_reducible refine Only.ocTo (by apply OpticalStOnly.of <;> first | exact .inl (k.bit (by decide)) | exact .inr rfl) ?_)
    | with_reducible apply Only.foldl
    | with_reducible refine State.setLaserPos_only (k.sub (by decide)) ?_
    | with_reducible refine State.emit_only _ (k.bit (i := 113) (by decide)) ?_)

theorem State.resetDie_only {m : Nat} {r s : State} {x1 : Nat} (k : Covers 0xffffffffffffffffffffffffffffffffffffffffffffffffffffffffffffffffffffffffffffffffffffffffffffffffffffffffffffffff00020c8f1b1f4e910780a5bdd8400203 m) (h : Only m r s) : Only m r (State.resetDie s x1) := by
  unfold State.resetDie
  try dsimp only
  repeat' (first
    | with_reducible assumption
    | fail_if_no_progress (with_reducible refine Only.fhTo (by apply FaultStOnly.of <;> first | exact .inl (k.bit (by decide)) | exact .inr rfl) ?_)
    | with_reducible apply Only.ite
    | with_reducible refine State.raise_only (k.sub (by decide)) ?_
    | with_reducible refine State.queueRecovery_only (k.sub (by decide)) ?_
    | with_reducible refine State.leave_only (k.sub (by decide)) ?_
    | with_reducible refine State.setReplica_only (k.sub (by decide)) ?_
    | with_reducible refine State.clearPortDie_only (k.sub (by decide)) ?_
    | with_reducible refine State.clearSwitchDie_only (k.sub (by decide)) ?_
    | with_reducible refine State.clearReductionDie_only (k.sub (by decide)) ?_)

theorem State.resetHalf_only {m : Nat} {r s : State} {x1 : Nat} {x2 : Nat} {x3 : Nat} (k : Covers 0x20040000000000000000000 m) (h : Only m r s) : Only m r (State.resetHalf s x1 x2 x3) := by
  unfold State.resetHalf
  try dsimp only
  repeat' (first
    | with_reducible assumption
    | with_reducible refine State.settleHalf_only (k.sub (by decide)) ?_
    | with_reducible refine State.recountHalf_only (k.sub (by decide)) ?_)

theorem State.restoreGroup_only {m : Nat} {r s : State} {x1 : Nat} (k : Covers 0x300000040000000004000000000000020000000040000000000000090000020000020c40000000840478000203 m) (h : Only m r s) : Only m r (State.restoreGroup s x1) := by
  unfold State.restoreGroup
  try dsimp only
  repeat' (first
    | (intro _; try dsimp only)
    | with_reducible assumption
    | with_reducible apply Only.foldl
    | with_reducible refine State.askOwed_only (k.sub (by decide)) ?_
    | with_reducible refine State.settleHalf_only (k.sub (by decide)) ?_
    | with_reducible refine State.advance_only (k.sub (by decide)) ?_
    | with_reducible refine State.startRerun_only (k.sub (by decide)) ?_)

theorem State.restoreSlot_only {m : Nat} {r s : State} {x1 : Nat} {x2 : Bool} (k : Covers 0x30600000000000000000000000000000018000000000000440100000000000000000000000000000000000000000000080000020000000c00000700000000000200 m) (h : Only m r s) : Only m r (State.restoreSlot s x1 x2) := by
  unfold State.restoreSlot
  try dsimp only
  repeat' (first
    | with_reducible assumption
    | with_reducible apply Only.ite
    | with_reducible refine State.areaLost_only (k.sub (by decide)) ?_
    | with_reducible refine State.emptySlot_only (k.sub (by decide)) ?_
    | with_reducible refine State.wr_only _ _ _ (k.words (by decide)) ?_
    | with_reducible refine State.modMslot_only (k.sub (by decide)) ?_
    | with_reducible refine State.loadPrograms_only (k.sub (by decide)) ?_)

theorem State.restoreSlots_only {m : Nat} {r s : State} {x1 : Nat} {x2 : List Nat} (k : Covers 0x30600000000000000000000000000000018000000000000440100000000000000000000000000000000000000000000080000020000000c00000700000000000200 m) (h : Only m r s) : Only m r (State.restoreSlots s x1 x2) := by
  unfold State.restoreSlots
  try dsimp only
  repeat' (first
    | (intro _; try dsimp only)
    | with_reducible assumption
    | with_reducible apply Only.foldl
    | with_reducible refine State.restoreSlot_only (k.sub (by decide)) ?_)

theorem State.settleWaits_only {m : Nat} {r s : State} (k : Covers 0x90000020000000000000000000000000203 m) (h : Only m r s) : Only m r (State.settleWaits s) := by
  unfold State.settleWaits
  try dsimp only
  repeat' (first
    | (intro _; try dsimp only)
    | with_reducible assumption
    | with_reducible apply Only.foldl
    | with_reducible apply Only.ite
    | with_reducible refine State.complete_only (k.sub (by decide)) ?_)

theorem State.restoreSwitchDie_only {m : Nat} {r s : State} {x1 : Nat} {x2 : Nat} (k : Covers 0x30600000000000000000000000000000018000000000000000000000000000000000000000000000000000000000000090000020000020040000700000000000203 m) (h : Only m r s) : Only m r (State.restoreSwitchDie s x1 x2) := by
  unfold State.restoreSwitchDie
  try dsimp only
  repeat' (first
    | (intro _; try dsimp only)
    | with_reducible assumption
    | fail_if_no_progress (with_reducible refine Only.msTo (by apply MemStOnly.of <;> first | exact .inl (k.bit (by decide)) | exact .inr rfl) rfl ?_)
    | with_reducible apply Only.foldl
    | with_reducible refine State.areaLost_only (k.sub (by decide)) ?_
    | with_reducible refine State.resetHalf_only (k.sub (by decide)) ?_
    | with_reducible refine State.settleWaits_only (k.sub (by decide)) ?_)

theorem State.stopDevice_only {m : Nat} {r s : State} (k : Covers 0x20060000000000000000000010000 m) (h : Only m r s) : Only m r (State.stopDevice s) := by
  unfold State.stopDevice
  try dsimp only
  repeat' (first
    | with_reducible assumption
    | fail_if_no_progress (with_reducible refine Only.btTo (by apply BootStOnly.of <;> first | exact .inl (k.bit (by decide)) | exact .inr rfl) ?_)
    | with_reducible refine State.lasersOff_only (k.sub (by decide)) ?_)

theorem State.stopFault_only {m : Nat} {r s : State} (k : Covers 0x20060000000000000000002010000 m) (h : Only m r s) : Only m r (State.stopFault s) := by
  unfold State.stopFault
  try dsimp only
  repeat' (first
    | with_reducible assumption
    | fail_if_no_progress (with_reducible refine Only.btTo (by apply BootStOnly.of <;> first | exact .inl (k.bit (by decide)) | exact .inr rfl) ?_)
    | with_reducible refine State.emit_only _ (k.bit (i := 113) (by decide)) ?_
    | with_reducible refine State.stopDevice_only (k.sub (by decide)) ?_)

theorem dieResetDone_only {m : Nat} {r s : State} {x0 : Nat} {x1 : List Nat} {x2 : Nat} (k : Covers 0x3460000000000000000000000000000209a00000036000044010000001c000000010000020000000040000000c000000900000200001a0c7f900700840478000203 m) (h : Only m r s) : Only m r (dieResetDone x0 x1 x2 s) := by
  unfold dieResetDone
  try dsimp only
  repeat' (first
    | (intro _; try dsimp only)
    | with_reducible assumption
    | fail_if_no_progress (with_reducible refine Only.fhTo (by apply FaultStOnly.of <;> first | exact .inl (k.bit (by decide)) | exact .inr rfl) ?_)
    | with_reducible apply Only.foldl
    | with_reducible apply Only.ite
    | with_reducible refine State.resteerBridge_only (k.sub (by decide)) ?_
    | with_reducible refine State.restoreSwitchDie_only (k.sub (by decide)) ?_
    | with_reducible refine State.restoreSlots_only (k.sub (by decide)) ?_
    | with_reducible refine State.restoreGroup_only (k.sub (by decide)) ?_)

theorem thermalTrip_only {m : Nat} {r s : State} {x0 : Nat} {x1 : Nat} {x2 : Nat} (k : Covers 0x20060000000000000000004030000 m) (h : Only m r s) : Only m r (thermalTrip x0 x1 x2 s) := by
  unfold thermalTrip
  try dsimp only
  repeat' (first
    | with_reducible assumption
    | fail_if_no_progress (with_reducible refine Only.btTo (by apply BootStOnly.of <;> first | exact .inl (k.bit (by decide)) | exact .inr rfl) ?_)
    | with_reducible apply Only.ite
    | with_reducible refine State.stopDevice_only (k.sub (by decide)) ?_
    | with_reducible refine State.emit_only _ (k.bit (i := 113) (by decide)) ?_)

theorem execThermalTrip_only {m : Nat} {r s : State} {x0 : Fin 9} {x1 : BitVec 5} {x2 : BitVec 12} (k : Covers 0x20060000000000000000004030000 m) (h : Only m r s) : OnlyRes m r (execThermalTrip x0 x1 x2 s) := by
  unfold execThermalTrip
  try dsimp only
  repeat' (first
    | (intro _; try dsimp only)
    | with_reducible assumption
    | with_reducible refine whenLive_only (k.sub (by decide)) ?_ ?_
    | with_reducible refine thermalTrip_only (k.sub (by decide)) ?_)

theorem railFault_only {m : Nat} {r s : State} {x0 : Rail} (k : Covers 0x20060000000000000000002038000 m) (h : Only m r s) : Only m r (railFault x0 s) := by
  unfold railFault
  try dsimp only
  repeat' (first
    | with_reducible assumption
    | fail_if_no_progress (with_reducible refine Only.btTo (by apply BootStOnly.of <;> first | exact .inl (k.bit (by decide)) | exact .inr rfl) ?_)
    | with_reducible apply Only.ite
    | with_reducible refine State.stopFault_only (k.sub (by decide)) ?_
    | split)

theorem execRailFault_only {m : Nat} {r s : State} {x0 : Rail} (k : Covers 0x20060000000000000000002038000 m) (h : Only m r s) : OnlyRes m r (execRailFault x0 s) := by
  unfold execRailFault
  try dsimp only
  repeat' (first
    | with_reducible assumption
    | with_reducible apply Only.ite
    | with_reducible apply OnlyRes.next
    | with_reducible refine railFault_only (k.sub (by decide)) ?_)

theorem execCoreRefclkLost_only {m : Nat} {r s : State} (k : Covers 0x20060000000000000000002810000 m) (h : Only m r s) : OnlyRes m r (execCoreRefclkLost s) := by
  unfold execCoreRefclkLost
  try dsimp only
  repeat' (first
    | with_reducible assumption
    | fail_if_no_progress (with_reducible refine Only.btTo (by apply BootStOnly.of <;> first | exact .inl (k.bit (by decide)) | exact .inr rfl) ?_)
    | with_reducible apply Only.ite
    | with_reducible apply OnlyRes.next
    | with_reducible refine State.stopFault_only (k.sub (by decide)) ?_)

theorem execSerdesRefclkLost_only {m : Nat} {r s : State} {x0 : Fin 4} (k : Covers 0x8000000030600000000000000000000310100000000000000060000000000000000000000010000000000004000000000c0000009000002008f1a0440800700800dd9400203 m) (h : Only m r s) : OnlyRes m r (execSerdesRefclkLost x0 s) := by
  unfold execSerdesRefclkLost
  try dsimp only
  repeat' (first
    | with_reducible assumption
    | fail_if_no_progress (with_reducible refine Only.btTo (by apply BootStOnly.of <;> first | exact .inl (k.bit (by decide)) | exact .inr rfl) ?_)
    | with_reducible apply Only.ite
    | with_reducible apply OnlyRes.next
    | with_reducible refine State.diePortsFall_only (k.sub (by decide)) ?_)

theorem execSerdesRefclkRestored_only {m : Nat} {r s : State} {x0 : Fin 4} (k : Covers 0x1000000 m) (h : Only m r s) : OnlyRes m r (execSerdesRefclkRestored x0 s) := by
  unfold execSerdesRefclkRestored
  try dsimp only
  repeat' (first
    | with_reducible assumption
    | fail_if_no_progress (with_reducible refine Only.btTo (by apply BootStOnly.of <;> first | exact .inl (k.bit (by decide)) | exact .inr rfl) ?_)
    | with_reducible apply OnlyRes.next)

theorem execDieReset_only {m : Nat} {r s : State} {x0 : Fin 8} (k : Covers 0xffffffffffffffffffffffffffffffffffffffffffffffffffffffffffffffffffffffffffffffffffffffffffffffffffffffffffffffff00020c8f1b1f4e910780a5bdd8400203 m) (h : Only m r s) : OnlyRes m r (execDieReset x0 s) := by
  unfold execDieReset
  try dsimp only
  repeat' (first
    | (intro _; try dsimp only)
    | with_reducible assumption
    | with_reducible refine whenLive_only (k.sub (by decide)) ?_ ?_
    | with_reducible refine State.resetDie_only (k.sub (by decide)) ?_)

theorem execDieResetDone_only {m : Nat} {r s : State} {x0 : Fin 8} {x1 : List (Fin 64)} {x2 : Fin 3} (k : Covers 0x3460000000000000000000000000000209a00000036000044010000001c000000010000020000000040000000c000000900000200001a0c7f900700840478000203 m) (h : Only m r s) : OnlyRes m r (execDieResetDone x0 x1 x2 s) := by
  unfold execDieResetDone
  try dsimp only
  repeat' (first
    | (intro _; try dsimp only)
    | with_reducible assumption
    | with_reducible refine whenLive_only (k.sub (by decide)) ?_ ?_
    | with_reducible refine dieResetDone_only (k.sub (by decide)) ?_)

theorem execCoreRefclkRestored_only {m : Nat} {r s : State} (k : Covers 0x800000 m) (h : Only m r s) : OnlyRes m r (execCoreRefclkRestored s) := by
  unfold execCoreRefclkRestored
  try dsimp only
  repeat' (first
    | with_reducible assumption
    | fail_if_no_progress (with_reducible refine Only.btTo (by apply BootStOnly.of <;> first | exact .inl (k.bit (by decide)) | exact .inr rfl) ?_)
    | with_reducible apply OnlyRes.next)

/-! ### Machine/Ready.lean -/

theorem State.functionRises_only {m : Nat} {r s : State} {x1 : Fn} (k : Covers 0x40e0000030600000000004000010000042000000080000000000000100200000005000090000000000000000000000000c00000080000030002010900800781100000020200 m) (h : Only m r s) : Only m r (State.functionRises s x1) := by
  unfold State.functionRises
  try dsimp only
  repeat' (first
    | (intro _; try dsimp only)
    | with_reducible assumption
    | fail_if_no_progress (with_reducible refine Only.parts ?_ (HostStOnly.refl _) (BootStOnly.refl _) (PacketStOnly.refl _) (TableStOnly.refl _) (QueueStOnly.refl _) (by apply TimeStOnly.of <;> first | exact .inl (k.bit (by decide)) | exact .inr rfl) (FaultStOnly.refl _) (MemStOnly.refl _) (by apply ReduceStOnly.of <;> first | exact .inl (k.bit (by decide)) | exact .inr rfl) (CollectiveStOnly.refl _) (OpticalStOnly.refl _) (PowerStOnly.refl _) rfl)
    | with_reducible apply Only.foldl
    | with_reducible apply Only.ite
    | with_reducible refine State.rise_only (k.sub (by decide)) ?_
    | with_reducible refine startRecords_only (k.sub (by decide)) ?_
    | with_reducible refine State.alignReplica_only (k.sub (by decide)) ?_
    | with_reducible refine State.modStack_only (k.sub (by decide)) ?_
    | with_reducible refine State.wr_only _ _ _ (k.words (by decide)) ?_
    | with_reducible refine State.domainRises_only (k.sub (by decide)) ?_
    | with_reducible refine State.startLocking_only (k.sub (by decide)) ?_
    | with_reducible refine State.showTile_only (k.sub (by decide)) ?_
    | split)

theorem functionReady_only {m : Nat} {r s : State} {x0 : Fn} (k : Covers 0x40e0000030600000000004000010000042000000080000000000000100200000005000090000000000000000000000000c00000080000030002010900800781100000020200 m) (h : Only m r s) : Only m r (functionReady x0 s) := by
  unfold functionReady
  try dsimp only
  repeat' (first
    | with_reducible assumption
    | with_reducible apply Only.ite
    | with_reducible refine State.functionRises_only (k.sub (by decide)) ?_)

theorem execFunctionReady_only {m : Nat} {r s : State} {x0 : Fn} (k : Covers 0x40e0000030600000000004000010000042000000080000000000000100200000005000090000000000000000000000000c00000080000030002010900800781100000020200 m) (h : Only m r s) : OnlyRes m r (execFunctionReady x0 s) := by
  unfold execFunctionReady
  try dsimp only
  repeat' (first
    | (intro _; try dsimp only)
    | with_reducible assumption
    | with_reducible refine whenLive_only (k.sub (by decide)) ?_ ?_
    | with_reducible refine functionReady_only (k.sub (by decide)) ?_)

theorem functionLeaves_only {m : Nat} {r s : State} {x0 : Fn} (k : Covers 0x30600000000000000010000000000000000000000000000000200000000000000050000000000000000000000c00000080000020000000000800700900418000200 m) (h : Only m r s) : Only m r (functionLeaves x0 s) := by
  unfold functionLeaves
  try dsimp only
  repeat' (first
    | with_reducible assumption
    | with_reducible apply Only.ite
    | with_reducible refine State.domainFalls_only (k.sub (by decide)) ?_
    | with_reducible refine State.leave_only (k.sub (by decide)) ?_
    | split)

theorem execFunctionLeavesService_only {m : Nat} {r s : State} {x0 : Fn} (k : Covers 0x30600000000000000010000000000000000000000000000000200000000000000050000000000000000000000c00000080000020000000000800700900418000200 m) (h : Only m r s) : OnlyRes m r (execFunctionLeavesService x0 s) := by
  unfold execFunctionLeavesService
  try dsimp only
  repeat' (first
    | (intro _; try dsimp only)
    | with_reducible assumption
    | with_reducible refine whenLive_only (k.sub (by decide)) ?_ ?_
    | with_reducible refine functionLeaves_only (k.sub (by decide)) ?_)

/-! ### Machine/RegWrite.lean -/

theorem msixCtlWrite_only {m : Nat} {r s : State} {x0 : Nat} {x1 : Word} (k : Covers 0xc0000020000000000000000000000000200 m) (h : Only m r s) : Only m r (msixCtlWrite x0 x1 s) := by
  unfold msixCtlWrite
  try dsimp only
  repeat' (first
    | with_reducible assumption
    | with_reducible apply Only.ite
    | with_reducible refine State.plainWrite_only _ _ _ (k.words (by decide)) ?_
    | with_reducible refine State.sendVector_only (k.sub (by decide)) ?_
    | with_reducible refine State.wr_only _ _ _ (k.words (by decide)) ?_)

theorem accountWrite_only {m : Nat} {r s : State} {x0 : Reg} {x1 : Nat} {x2 : Word} (k : Covers 0x30600000000000000000000000000000000000000000000000000000000000000000000000000000040000000000000080000020000000000000700000408000200 m) (g0 : Grants m x0) (h : Only m r s) : Only m r (accountWrite x0 x1 x2 s) := by
  unfold accountWrite
  try dsimp only
  repeat' (first
    | with_reducible assumption
    | with_reducible refine State.settleAllPfc_only (k.sub (by decide)) ?_
    | with_reducible refine reserveWrite_only (k.sub (by decide)) (by first | exact k.words (by decide) | assumption) ?_)

theorem classModeWrite_only {m : Nat} {r s : State} {x0 : Nat} {x1 : Word} (k : Covers 0x8000000000000000000000020000000000000000000408000000 m) (h : Only m r s) : Only m r (classModeWrite x0 x1 s) := by
  unfold classModeWrite
  try dsimp only
  repeat' (first
    | with_reducible assumption
    | with_reducible refine State.settleAllPfc_only (k.sub (by decide)) ?_
    | with_reducible refine State.plainWrite_only _ _ _ (k.words (by decide)) ?_)

theorem sprayEnvWrite_only {m : Nat} {r s : State} {x0 : Nat} {x1 : Word} (k : Covers 0x800000000000000000000000000000000000000000000000000000000 m) (h : Only m r s) : Only m r (sprayEnvWrite x0 x1 s) := by
  unfold sprayEnvWrite
  try dsimp only
  repeat' (first
    | with_reducible assumption
    | with_reducible apply Only.ite
    | with_reducible refine State.plainWrite_only _ _ _ (k.words (by decide)) ?_)

theorem sentinelCfgWrite_only {m : Nat} {r s : State} {x0 : Word} (k : Covers 0x400000000000000000000000000000000000000000000000000000000000000000000000000000000 m) (h : Only m r s) : Only m r (sentinelCfgWrite x0 s) := by
  unfold sentinelCfgWrite
  try dsimp only
  repeat' (first
    | with_reducible assumption
    | with_reducible apply Only.ite
    | with_reducible refine State.plainWrite_only _ _ _ (k.words (by decide)) ?_)

theorem clCfgWrite_only {m : Nat} {r s : State} {x0 : Word} (k : Covers 0x30600000000000000000000000000000000000000010000000000000000000000000000000000000000000000000000080000020000000000000700000000000200 m) (h : Only m r s) : Only m r (clCfgWrite x0 s) := by
  unfold clCfgWrite
  try dsimp only
  repeat' (first
    | with_reducible assumption
    | with_reducible apply Only.ite
    | with_reducible refine State.refuseWrite_only (k.sub (by decide)) ?_
    | with_reducible refine State.plainWrite_only _ _ _ (k.words (by decide)) ?_)

theorem hintWordWrite_only {m : Nat} {r s : State} {x0 : Nat} {x1 : Word} (k : Covers 0x28000000000000000000000000000000000000000000000000000000000000000000000000000000000000000000000000 m) (h : Only m r s) : Only m r (hintWordWrite x0 x1 s) := by
  unfold hintWordWrite
  try dsimp only
  repeat' (first
    | with_reducible assumption
    | with_reducible apply Only.ite
    | with_reducible refine hintWrite_only (k.sub (by decide)) ?_
    | with_reducible refine State.plainWrite_only _ _ _ (k.words (by decide)) ?_)

theorem regWrite_only {m : Nat} {r s : State} {x0 : Reg} {x1 : Nat} {x2 : Word} (k : Covers 0xffffffffffffffffffffffffffffffffffffffffffffffffffffffffffffffffffffffffffffffffffffffffffffffffffffffffffffffff0003ffffffffffffbffffffffe7dc2fb m) (g0 : Grants m x0) (h : Only m r s) : Only m r (regWrite x0 x1 x2 s) := by
  have all : ∀ e ∈ effects, ∀ i v (s : State), Only m r s → Only m r (e.2 i v s) := by
    simp only [effects, hostEffects, packetEffects, queueEffects, reduceEffects, controlEffects, List.cons_append, List.nil_append,
      List.forall_mem_cons, List.not_mem_nil, false_imp_iff, implies_true, and_true]
    repeat' apply And.intro
    all_goals intro i v s h
    all_goals (
    repeat' (first
      | with_reducible assumption
      | with_reducible refine gangwayTarget_only (k.sub (by decide)) ?_
      | with_reducible refine gangwayRange_only (k.sub (by decide)) (by first | exact k.words (by decide) | assumption) ?_
      | with_reducible refine ringCfgWrite_only (k.sub (by decide)) ?_
      | with_reducible refine msixCtlWrite_only (k.sub (by decide)) ?_
      | with_reducible refine btReset_only (k.sub (by decide)) ?_
      | with_reducible refine fwCtl_only (k.sub (by decide)) ?_
      | with_reducible refine quoteCtl_only (k.sub (by decide)) ?_
      | with_reducible refine policyWrite_only (k.sub (by decide)) ?_
      | with_reducible refine accountWrite_only (k.sub (by decide)) (by first | exact k.words (by decide) | assumption) ?_
      | with_reducible refine slipCfgWrite_only (k.sub (by decide)) ?_
      | with_reducible refine slipRegion_only (k.sub (by decide)) (by first | exact k.words (by decide) | assumption) ?_
      | with_reducible refine laneGroup_only (k.sub (by decide)) ?_
      | with_reducible refine portCfg_only (k.sub (by decide)) ?_
      | with_reducible refine classModeWrite_only (k.sub (by decide)) ?_
      | with_reducible refine ageCfg_only (k.sub (by decide)) ?_
      | with_reducible refine lpmCfg_only (k.sub (by decide)) ?_
      | with_reducible refine pipeCtl_only (k.sub (by decide)) ?_
      | with_reducible refine seedWrite_only (k.sub (by decide)) (by first | exact k.words (by decide) | assumption) ?_
      | with_reducible refine learnCfg_only (k.sub (by decide)) ?_
      | with_reducible refine learnCons_only (k.sub (by decide)) ?_
      | with_reducible refine groupCfg_only (k.sub (by decide)) ?_
      | with_reducible refine sprayEnvWrite_only (k.sub (by decide)) ?_
      | with_reducible refine qlayoutWrite_only (k.sub (by decide)) ?_
      | with_reducible refine portSchedWrite_only (k.sub (by decide)) ?_
      | with_reducible refine classSchedWrite_only (k.sub (by decide)) ?_
      | with_reducible refine profileWrite_only (k.sub (by decide)) ?_
      | with_reducible refine meterMap_only (k.sub (by decide)) ?_
      | with_reducible refine meterCfg_only (k.sub (by decide)) ?_
      | with_reducible refine gateCtl_only (k.sub (by decide)) ?_
      | with_reducible refine sentinelCfgWrite_only (k.sub (by decide)) ?_
      | with_reducible refine lsCfgWrite_only (k.sub (by decide)) ?_
      | with_reducible refine clCfgWrite_only (k.sub (by decide)) ?_
      | with_reducible refine cacheCfgWrite_only (k.sub (by decide)) ?_
      | with_reducible refine hintWordWrite_only (k.sub (by decide)) ?_
      | with_reducible refine hbmCtl_only (k.sub (by decide)) ?_
      | with_reducible refine testCmd_only (k.sub (by decide)) ?_
      | with_reducible refine flowCfgWrite_only (k.sub (by decide)) ?_
      | with_reducible refine calCfgWrite_only (k.sub (by decide)) ?_
      | with_reducible refine fordCfgWrite_only (k.sub (by decide)) ?_
      | with_reducible refine fordCmd_only (k.sub (by decide)) ?_
      | with_reducible refine engineEnvWrite_only (k.sub (by decide)) ?_
      | with_reducible refine ffCfgWrite_only (k.sub (by decide)) ?_
      | with_reducible refine laserCfgWrite_only (k.sub (by decide)) ?_
      | with_reducible refine fibreMapWrite_only (k.sub (by decide)) ?_
      | with_reducible refine tbCfgWrite_only (k.sub (by decide)) ?_
      | with_reducible refine snapCtl_only (k.sub (by decide)) ?_
      | with_reducible refine domCtl_only (k.sub (by decide)) ?_
      | with_reducible refine incrWrite_only (k.sub (by decide)) ?_
      | with_reducible refine adjWrite_only (k.sub (by decide)) ?_
      | with_reducible refine tcCfgWrite_only (k.sub (by decide)) ?_
      | with_reducible refine ppsCfgWrite_only (k.sub (by decide)) ?_
      | with_reducible refine triggerWrite_only (k.sub (by decide)) ?_
      | with_reducible refine capCtl_only (k.sub (by decide)) ?_
      | with_reducible refine pkgCfgWrite_only (k.sub (by decide)) ?_
      | with_reducible refine redEnvWrite_only (k.sub (by decide)) ?_
      | with_reducible refine fhCfgWrite_only (k.sub (by decide)) ?_
      | with_reducible refine logAck_only (k.sub (by decide)) ?_
      | with_reducible refine retireRequest_only (k.sub (by decide)) ?_))
  unfold regWrite
  split
  · next e he => exact all e (List.mem_of_find?_eq_some he) _ _ _ h
  · exact State.plainWrite_only _ _ _ g0 h

theorem barWrite_only {m : Nat} {r s : State} {x0 : Nat} {x1 : Word} (k : Covers 0xffffffffffffffffffffffffffffffffffffffffffffffffffffffffffffffffffffffffffffffffffffffffffffffffffffffffffffffff0003ffffffffffffbffffffffe7dc2fb m) (h : Only m r s) : Only m r (barWrite x0 x1 s) := by
  have g : ∀ x : Reg, (∃ o i, registerAt o = some (x, i)) → Grants m x := fun x ⟨o, i, e⟩ =>
    grants_listed (k.sub (by decide)) e
  unfold barWrite
  split
  · next x i e =>
    have gx := g x ⟨_, _, e⟩
    refine State.onReadyDie_only (k.sub (by decide)) (fun t ht => ?_) h
    split
    · exact regWrite_only (k.sub (by decide)) gx (regWrite_only (k.sub (by decide)) gx ht)
    · exact regWrite_only (k.sub (by decide)) gx ht
  · split
    · split
      · exact h
      · exact State.discardWrite_only (k.sub (by decide)) h
    · exact h

theorem State.barRead_only {m : Nat} {r s : State} {x1 : Nat} (k : Covers 0xffffffffffffffffffffffffffffffffffffffffffffffffffffffffffffffffffffffffffffffffffffffffffffffffffffffffffffffff0002000000143f8007000060000c0208 m) (h : Only m r s) : Only m r (State.barRead s x1).2 := by
  unfold State.barRead
  try dsimp only
  repeat' (first
    | with_reducible assumption
    | with_reducible refine State.flushWindow_only (k.sub (by decide)) ?_
    | with_reducible refine State.readCompanion_only (k.sub (by decide)) ?_
    | split)

theorem State.countRead_only {m : Nat} {r s : State} {x1 : Nat} (k : Covers 0xffffffffffffffffffffffffffffffffffffffffffffffffffffffffffffffffffffffffffffffffffffffffffffffffffffffffffffffff0002000000143f8807000060000c0208 m) (h : Only m r s) : Only m r (State.countRead s x1) := by
  unfold State.countRead
  try dsimp only
  repeat' (first
    | (intro _; try dsimp only)
    | with_reducible assumption
    | with_reducible refine State.acrossTo_only (k.sub (by decide)) ?_ ?_
    | with_reducible refine State.emit_only _ (k.bit (i := 113) (by decide)) ?_
    | with_reducible refine State.barRead_only (k.sub (by decide)) ?_)

theorem State.completeIfHeld_only {m : Nat} {r s : State} {x1 : Desc} {x2 : Nat} (k : Covers 0x90000020000000000000000000000000203 m) (h : Only m r s) : Only m r (State.completeIfHeld s x1 x2) := by
  unfold State.completeIfHeld
  try dsimp only
  repeat' (first
    | with_reducible assumption
    | with_reducible apply Only.ite
    | with_reducible refine State.complete_only (k.sub (by decide)) ?_)

theorem State.readRegs_only {m : Nat} {r s : State} {x1 : Nat} {x2 : Nat} (k : Covers 0xffffffffffffffffffffffffffffffffffffffffffffffffffffffffffffffffffffffffffffffffffffffffffffffffffffffffffffffff0002000000143f8007000060000c0208 m) (h : Only m r s) : Only m r (State.readRegs s x1 x2).2 := by
  induction x2 generalizing s x1 with
  | zero => rw [State.readRegs]; exact h
  | succ n ih =>
    rw [State.readRegs]
    try dsimp only
    repeat' (first
      | with_reducible assumption
      | with_reducible apply ih
      | with_reducible refine State.barRead_only (k.sub (by decide)) ?_)

theorem execRegRead_only {m : Nat} {r s : State} {x0 : Fin 4096} {x1 : Bool} (k : Covers 0xffffffffffffffffffffffffffffffffffffffffffffffffffffffffffffffffffffffffffffffffffffffffffffffffffffffffffffffff0002000000143f8007000060000c020b m) (h : Only m r s) : OnlyRes m r (execRegRead x0 x1 s) := by
  unfold execRegRead
  try dsimp only
  repeat' (first
    | (intro _; try dsimp only)
    | with_reducible assumption
    | with_reducible apply Only.ite
    | with_reducible refine runOpcode_only (k.sub (by decide)) ?_ ?_
    | with_reducible refine State.readRegs_only (k.sub (by decide)) ?_
    | with_reducible refine State.complete_only (k.sub (by decide)) ?_
    | with_reducible refine State.descWrite_only (k.sub (by decide)) ?_)

theorem writeRegs_only {m : Nat} {r s : State} {x0 : Nat} {x1 : List Nat} (k : Covers 0xffffffffffffffffffffffffffffffffffffffffffffffffffffffffffffffffffffffffffffffffffffffffffffffffffffffffffffffff0003ffffffffffffbffffffffe7dc2fb m) (h : Only m r s) : Only m r (writeRegs x0 x1 s) := by
  unfold writeRegs
  try dsimp only
  repeat' (first
    | (intro _; try dsimp only)
    | with_reducible assumption
    | with_reducible apply Only.foldl
    | with_reducible refine barWrite_only (k.sub (by decide)) ?_)

theorem execRegWrite_only {m : Nat} {r s : State} {x0 : Fin 4096} {x1 : HostData} (k : Covers 0xffffffffffffffffffffffffffffffffffffffffffffffffffffffffffffffffffffffffffffffffffffffffffffffffffffffffffffffff0003ffffffffffffbffffffffe7dc2fb m) (h : Only m r s) : OnlyRes m r (execRegWrite x0 x1 s) := by
  unfold execRegWrite
  try dsimp only
  repeat' (first
    | (intro _; try dsimp only)
    | with_reducible assumption
    | with_reducible refine runOpcode_only (k.sub (by decide)) ?_ ?_
    | with_reducible refine State.complete_only (k.sub (by decide)) ?_
    | with_reducible refine State.completeIfHeld_only (k.sub (by decide)) ?_
    | with_reducible refine writeRegs_only (k.sub (by decide)) ?_
    | split)

theorem execRegisterWrite_only {m : Nat} {r s : State} {x0 : Nat} {x1 : Word} (k : Covers 0xffffffffffffffffffffffffffffffffffffffffffffffffffffffffffffffffffffffffffffffffffffffffffffffffffffffffffffffff0003ffffffffffffbffffffffe7dc2fb m) (h : Only m r s) : OnlyRes m r (execRegisterWrite x0 x1 s) := by
  unfold execRegisterWrite
  try dsimp only
  repeat' (first
    | (intro _; try dsimp only)
    | with_reducible assumption
    | with_reducible apply Only.ite
    | with_reducible apply OnlyRes.fault
    | with_reducible apply OnlyRes.ite
    | with_reducible refine whenBar_only (k.sub (by decide)) ?_ ?_
    | with_reducible refine barWrite_only (k.sub (by decide)) ?_)

theorem execCompanionCountRead_only {m : Nat} {r s : State} {x0 : Nat} (k : Covers 0xffffffffffffffffffffffffffffffffffffffffffffffffffffffffffffffffffffffffffffffffffffffffffffffffffffffffffffffff0002000000143f8807000060000c0208 m) (h : Only m r s) : OnlyRes m r (execCompanionCountRead x0 s) := by
  unfold execCompanionCountRead
  try dsimp only
  repeat' (first
    | (intro _; try dsimp only)
    | with_reducible assumption
    | with_reducible apply Only.ite
    | with_reducible apply OnlyRes.fault
    | with_reducible apply OnlyRes.ite
    | with_reducible refine whenBar_only (k.sub (by decide)) ?_ ?_
    | with_reducible refine State.countRead_only (k.sub (by decide)) ?_
    | with_reducible refine State.emit_only _ (k.bit (i := 113) (by decide)) ?_)

/-! ### Machine/Bridges.lean -/

theorem Crossing.deliver_only {m : Nat} {r s : State} {x1 : Crossing} (k : Covers 0xffffffffffffffffffffffffffffffffffffffffffffffffffffffffffffffffffffffffffffffffffffffffffffffffffffffffffffffff0003ffffffffffffbffffffffe7dc2fb m) (h : Only m r s) : Only m r (Crossing.deliver s x1) := by
  unfold Crossing.deliver
  try dsimp only
  repeat' (first
    | with_reducible assumption
    | with_reducible refine barWrite_only (k.sub (by decide)) ?_
    | with_reducible refine State.countRead_only (k.sub (by decide)) ?_
    | with_reducible refine State.windowWrite_only (k.sub (by decide)) ?_
    | with_reducible refine State.windowRead_only (k.sub (by decide)) ?_
    | with_reducible refine State.windowStatus_only (k.sub (by decide)) ?_
    | split)

theorem State.noteRetrain_only {m : Nat} {r s : State} {x1 : Nat} (k : Covers 0x30600000000000000000000000000000000000000000000000000000000000000000000000000000000000000000000080000020000000000000700000000000200 m) (h : Only m r s) : Only m r (State.noteRetrain s x1) := by
  unfold State.noteRetrain
  try dsimp only
  repeat' (first
    | with_reducible assumption
    | with_reducible refine State.raise_only (k.sub (by decide)) ?_)

theorem State.releaseBridge_only {m : Nat} {r s : State} {x1 : Nat} {x2 : Bool} (k : Covers 0xffffffffffffffffffffffffffffffffffffffffffffffffffffffffffffffffffffffffffffffffffffffffffffffffffffffffffffffff0003ffffffffffffbffffffffe7dc2fb m) (h : Only m r s) : Only m r (State.releaseBridge s x1 x2) := by
  unfold State.releaseBridge
  try dsimp only
  repeat' (first
    | (intro _; try dsimp only)
    | with_reducible assumption
    | with_reducible apply Only.foldl
    | with_reducible refine State.setBridge_only (k.sub (by decide)) ?_
    | with_reducible refine State.resteerBridge_only (k.sub (by decide)) ?_
    | with_reducible refine Crossing.deliver_only (k.sub (by decide)) ?_)

theorem State.withdrawDie_only {m : Nat} {r s : State} {x1 : Nat} (k : Covers 0x30600000000000000000000000000000000000000000000000000000000000000010000000000000000000000c00000080000020000000000808700800418000200 m) (h : Only m r s) : Only m r (State.withdrawDie s x1) := by
  unfold State.withdrawDie
  try dsimp only
  repeat' (first
    | with_reducible assumption
    | fail_if_no_progress (with_reducible refine Only.fhTo (by apply FaultStOnly.of <;> first | exact .inl (k.bit (by decide)) | exact .inr rfl) ?_)
    | with_reducible refine State.leave_only (k.sub (by decide)) ?_
    | with_reducible refine State.raise_only (k.sub (by decide)) ?_)

theorem bridgeReplay_only {m : Nat} {r s : State} {x0 : Nat} {x1 : Nat} (k : Covers 0x20000000000080000000000000000 m) (h : Only m r s) : Only m r (bridgeReplay x0 x1 s) := by
  unfold bridgeReplay
  try dsimp only
  repeat' (first
    | with_reducible assumption
    | with_reducible apply Only.ite
    | with_reducible refine State.emit_only _ (k.bit (i := 113) (by decide)) ?_
    | with_reducible refine State.setBridge_only (k.sub (by decide)) ?_)

theorem bridgeRetrain_only {m : Nat} {r s : State} {x0 : Nat} (k : Covers 0x30600000000000000000000000000000000000000000000000000000000000000000000000000000000000000000000080000020000000000080700000000000200 m) (h : Only m r s) : Only m r (bridgeRetrain x0 s) := by
  unfold bridgeRetrain
  try dsimp only
  repeat' (first
    | with_reducible assumption
    | with_reducible apply Only.ite
    | with_reducible refine State.noteRetrain_only (k.sub (by decide)) ?_
    | with_reducible refine State.setBridge_only (k.sub (by decide)) ?_)

theorem bridgeRetrainDone_only {m : Nat} {r s : State} {x0 : Nat} {x1 : Bool} (k : Covers 0xffffffffffffffffffffffffffffffffffffffffffffffffffffffffffffffffffffffffffffffffffffffffffffffffffffffffffffffff0003ffffffffffffbffffffffe7dc2fb m) (h : Only m r s) : Only m r (bridgeRetrainDone x0 x1 s) := by
  unfold bridgeRetrainDone
  try dsimp only
  repeat' (first
    | with_reducible assumption
    | with_reducible apply Only.ite
    | with_reducible refine State.releaseBridge_only (k.sub (by decide)) ?_
    | with_reducible refine State.withdrawDie_only (k.sub (by decide)) ?_
    | with_reducible refine State.noteRetrain_only (k.sub (by decide)) ?_
    | with_reducible refine State.setBridge_only (k.sub (by decide)) ?_
    | with_reducible refine State.raise_only (k.sub (by decide)) ?_
    | with_reducible refine State.queueRecovery_only (k.sub (by decide)) ?_
    | with_reducible refine State.resetDie_only (k.sub (by decide)) ?_)

theorem execBridgeReplay_only {m : Nat} {r s : State} {x0 : Fin 9} {x1 : BitVec 16} (k : Covers 0x20000000000080000000000000000 m) (h : Only m r s) : OnlyRes m r (execBridgeReplay x0 x1 s) := by
  unfold execBridgeReplay
  try dsimp only
  repeat' (first
    | (intro _; try dsimp only)
    | with_reducible assumption
    | with_reducible refine whenLive_only (k.sub (by decide)) ?_ ?_
    | with_reducible refine bridgeReplay_only (k.sub (by decide)) ?_)

theorem execBridgeRetrain_only {m : Nat} {r s : State} {x0 : Fin 9} (k : Covers 0x30600000000000000000000000000000000000000000000000000000000000000000000000000000000000000000000080000020000000000080700000000000200 m) (h : Only m r s) : OnlyRes m r (execBridgeRetrain x0 s) := by
  unfold execBridgeRetrain
  try dsimp only
  repeat' (first
    | (intro _; try dsimp only)
    | with_reducible assumption
    | with_reducible refine whenLive_only (k.sub (by decide)) ?_ ?_
    | with_reducible refine bridgeRetrain_only (k.sub (by decide)) ?_)

theorem execBridgeRetrainDone_only {m : Nat} {r s : State} {x0 : Fin 9} {x1 : Bool} (k : Covers 0xffffffffffffffffffffffffffffffffffffffffffffffffffffffffffffffffffffffffffffffffffffffffffffffffffffffffffffffff0003ffffffffffffbffffffffe7dc2fb m) (h : Only m r s) : OnlyRes m r (execBridgeRetrainDone x0 x1 s) := by
  unfold execBridgeRetrainDone
  try dsimp only
  repeat' (first
    | (intro _; try dsimp only)
    | with_reducible assumption
    | with_reducible refine whenLive_only (k.sub (by decide)) ?_ ?_
    | with_reducible refine bridgeRetrainDone_only (k.sub (by decide)) ?_)

/-! ### Machine/Dispatch.lean -/

theorem exec_only {m : Nat} {r s : State} {x0 : Instr} (k : Covers 0xffffffffffffffffffffffffffffffffffffffffffffffffffffffffffffffffffffffffffffffffffffffffffffffffffffffffffffffff0003ffffffffffffffffffffffffffff m) (h : Only m r s) : OnlyRes m r (exec x0 s) := by
  unfold exec
  try dsimp only
  repeat' (first
    | with_reducible assumption
    | with_reducible refine execNop_only (k.sub (by decide)) ?_
    | with_reducible refine execRegRead_only (k.sub (by decide)) ?_
    | with_reducible refine execRegWrite_only (k.sub (by decide)) ?_
    | with_reducible refine execDmaToDevice_only (k.sub (by decide)) ?_
    | with_reducible refine execDmaFromDevice_only (k.sub (by decide)) ?_
    | with_reducible refine execProtUpdate_only (k.sub (by decide)) ?_
    | with_reducible refine execProtCommit_only (k.sub (by decide)) ?_
    | with_reducible refine execProtGenerationBoundary_only (k.sub (by decide)) ?_
    | with_reducible refine execPartitionSet_only (k.sub (by decide)) ?_
    | with_reducible refine execPartitionDrain_only (k.sub (by decide)) ?_
    | with_reducible refine execDrainContextRelease_only (k.sub (by decide)) ?_
    | with_reducible refine execDrainComplete_only (k.sub (by decide)) ?_
    | with_reducible refine execFtInsert_only (k.sub (by decide)) ?_
    | with_reducible refine execFtDelete_only (k.sub (by decide)) ?_
    | with_reducible refine execLpmInsert_only (k.sub (by decide)) ?_
    | with_reducible refine execLpmDelete_only (k.sub (by decide)) ?_
    | with_reducible refine execFtShadowCompare_only (k.sub (by decide)) ?_
    | with_reducible refine execGroupRegister_only (k.sub (by decide)) ?_
    | with_reducible refine execGroupRelease_only (k.sub (by decide)) ?_
    | with_reducible refine execContextArm_only (k.sub (by decide)) ?_
    | with_reducible refine execContextDisarm_only (k.sub (by decide)) ?_
    | with_reducible refine execCollectiveLaunch_only (k.sub (by decide)) ?_
    | with_reducible refine execResultAck_only (k.sub (by decide)) ?_
    | with_reducible refine execMooringSet_only (k.sub (by decide)) ?_
    | with_reducible refine execMooringWait_only (k.sub (by decide)) ?_
    | with_reducible refine execAtomicCas_only (k.sub (by decide)) ?_
    | with_reducible refine execAtomicAdd_only (k.sub (by decide)) ?_
    | with_reducible refine execManifestLoad_only (k.sub (by decide)) ?_
    | with_reducible refine execManifestActivate_only (k.sub (by decide)) ?_
    | with_reducible refine execManifestDeactivate_only (k.sub (by decide)) ?_
    | with_reducible refine execManifestUnload_only (k.sub (by decide)) ?_
    | with_reducible refine execCounterSnapshot_only (k.sub (by decide)) ?_
    | with_reducible refine execFaultLogRead_only (k.sub (by decide)) ?_
    | with_reducible refine execSqTail_only (k.sub (by decide)) ?_
    | with_reducible refine execCqHead_only (k.sub (by decide)) ?_
    | with_reducible refine execDescriptorFetch_only (k.sub (by decide)) ?_
    | with_reducible refine execCqModerationTimeout_only (k.sub (by decide)) ?_
    | with_reducible refine execRingEnable_only (k.sub (by decide)) ?_
    | with_reducible refine execRingDisable_only (k.sub (by decide)) ?_
    | with_reducible refine execGangwayEnable_only (k.sub (by decide)) ?_
    | with_reducible refine execGangwayClose_only (k.sub (by decide)) ?_
    | with_reducible refine execGangwayWrite_only (k.sub (by decide)) ?_
    | with_reducible refine execGangwayRead_only (k.sub (by decide)) ?_
    | with_reducible refine execGangwayStatusRead_only (k.sub (by decide)) ?_
    | with_reducible refine execGangwayGranuleTimeout_only (k.sub (by decide)) ?_
    | with_reducible refine execPowerStateD3hot_only (k.sub (by decide)) ?_
    | with_reducible refine execPowerStateD0_only (k.sub (by decide)) ?_
    | with_reducible refine execHostPortReset_only (k.sub (by decide)) ?_
    | with_reducible refine execConfigSpaceReady_only (k.sub (by decide)) ?_
    | with_reducible refine execRegisterWrite_only (k.sub (by decide)) ?_
    | with_reducible refine execCompanionCountRead_only (k.sub (by decide)) ?_
    | with_reducible refine execColdReset_only (k.sub (by decide)) ?_
    | with_reducible refine execPorRelease_only (k.sub (by decide)) ?_
    | with_reducible refine execWarmReset_only (k.sub (by decide)) ?_
    | with_reducible refine execLockSet_only (k.sub (by decide)) ?_
    | with_reducible refine execFirmwareStart_only (k.sub (by decide)) ?_
    | with_reducible refine execFirmwareAbandon_only (k.sub (by decide)) ?_
    | with_reducible refine execFirmwareCheckDone_only (k.sub (by decide)) ?_
    | with_reducible refine execFunctionReady_only (k.sub (by decide)) ?_
    | with_reducible refine execFunctionLeavesService_only (k.sub (by decide)) ?_
    | with_reducible refine execQuoteStart_only (k.sub (by decide)) ?_
    | with_reducible refine execQuoteDone_only (k.sub (by decide)) ?_
    | with_reducible refine execEvbauthIdTimer_only (k.sub (by decide)) ?_
    | with_reducible refine execEvbauthIdReceived_only (k.sub (by decide)) ?_
    | with_reducible refine execEvbauthProofReceived_only (k.sub (by decide)) ?_
    | with_reducible refine execEvbauthTimeout_only (k.sub (by decide)) ?_
    | with_reducible refine execPortEnable_only (k.sub (by decide)) ?_
    | with_reducible refine execPortDisable_only (k.sub (by decide)) ?_
    | with_reducible refine execLaneLayoutWrite_only (k.sub (by decide)) ?_
    | with_reducible refine execLinkFecLock_only (k.sub (by decide)) ?_
    | with_reducible refine execPortLinkDown_only (k.sub (by decide)) ?_
    | with_reducible refine execFrameHeaderArrival_only (k.sub (by decide)) ?_
    | with_reducible refine execFrameTailArrival_only (k.sub (by decide)) ?_
    | with_reducible refine execSchedulerSelect_only (k.sub (by decide)) ?_
    | with_reducible refine execFrameDeparted_only (k.sub (by decide)) ?_
    | with_reducible refine execPfcFrameReceived_only (k.sub (by decide)) ?_
    | with_reducible refine execPfcXoffRefresh_only (k.sub (by decide)) ?_
    | with_reducible refine execPfcQuantaExpiry_only (k.sub (by decide)) ?_
    | with_reducible refine execPauseReceived_only (k.sub (by decide)) ?_
    | with_reducible refine execLinkInitReceived_only (k.sub (by decide)) ?_
    | with_reducible refine execLinkInitTimer_only (k.sub (by decide)) ?_
    | with_reducible refine execInitTimeout_only (k.sub (by decide)) ?_
    | with_reducible refine execLinkStatusReceived_only (k.sub (by decide)) ?_
    | with_reducible refine execLinkStatusTimer_only (k.sub (by decide)) ?_
    | with_reducible refine execLinkRetryTimeout_only (k.sub (by decide)) ?_
    | with_reducible refine execMarkerReceived_only (k.sub (by decide)) ?_
    | with_reducible refine execLaneSwap_only (k.sub (by decide)) ?_
    | with_reducible refine execSlipwaySpill_only (k.sub (by decide)) ?_
    | with_reducible refine execSlipwayPageFetch_only (k.sub (by decide)) ?_
    | with_reducible refine execSlipwayFetchDone_only (k.sub (by decide)) ?_
    | with_reducible refine execFenceRelease_only (k.sub (by decide)) ?_
    | with_reducible refine execLearn_only (k.sub (by decide)) ?_
    | with_reducible refine execLearnEnable_only (k.sub (by decide)) ?_
    | with_reducible refine execAgeSweepVisit_only (k.sub (by decide)) ?_
    | with_reducible refine execTableImageLoadStart_only (k.sub (by decide)) ?_
    | with_reducible refine execTableImageCheck_only (k.sub (by decide)) ?_
    | with_reducible refine execTableImageDone_only (k.sub (by decide)) ?_
    | with_reducible refine execLpmImageLoadStart_only (k.sub (by decide)) ?_
    | with_reducible refine execLpmImageCheck_only (k.sub (by decide)) ?_
    | with_reducible refine execSprayGroupCommit_only (k.sub (by decide)) ?_
    | with_reducible refine execGateCommit_only (k.sub (by decide)) ?_
    | with_reducible refine execGateChange_only (k.sub (by decide)) ?_
    | with_reducible refine execGateCycleStart_only (k.sub (by decide)) ?_
    | with_reducible refine execGateEntryEnd_only (k.sub (by decide)) ?_
    | with_reducible refine execMeterRefill_only (k.sub (by decide)) ?_
    | with_reducible refine execMeterProfileApply_only (k.sub (by decide)) ?_
    | with_reducible refine execMeterRestart_only (k.sub (by decide)) ?_
    | with_reducible refine execContributionReceived_only (k.sub (by decide)) ?_
    | with_reducible refine execContributionCounted_only (k.sub (by decide)) ?_
    | with_reducible refine execArmWaitExpiry_only (k.sub (by decide)) ?_
    | with_reducible refine execTriggerInstant_only (k.sub (by decide)) ?_
    | with_reducible refine execEpochStart_only (k.sub (by decide)) ?_
    | with_reducible refine execEpochEnd_only (k.sub (by decide)) ?_
    | with_reducible refine execEpochRerun_only (k.sub (by decide)) ?_
    | with_reducible refine execClear_only (k.sub (by decide)) ?_
    | with_reducible refine execAdd_only (k.sub (by decide)) ?_
    | with_reducible refine execCheck_only (k.sub (by decide)) ?_
    | with_reducible refine execRound_only (k.sub (by decide)) ?_
    | with_reducible refine execSend_only (k.sub (by decide)) ?_
    | with_reducible refine execMload_only (k.sub (by decide)) ?_
    | with_reducible refine execProj_only (k.sub (by decide)) ?_
    | with_reducible refine execPcheck_only (k.sub (by decide)) ?_
    | with_reducible refine execSpill_only (k.sub (by decide)) ?_
    | with_reducible refine execFill_only (k.sub (by decide)) ?_
    | with_reducible refine execRepeat_only (k.sub (by decide)) ?_
    | with_reducible refine execGen_only (k.sub (by decide)) ?_
    | with_reducible refine execTidelineEvaluation_only (k.sub (by decide)) ?_
    | with_reducible refine execVoltageRampDone_only (k.sub (by decide)) ?_
    | with_reducible refine execVariantChange_only (k.sub (by decide)) ?_
    | with_reducible refine execSentinelRun_only (k.sub (by decide)) ?_
    | with_reducible refine execLockstepEnable_only (k.sub (by decide)) ?_
    | with_reducible refine execLockstepDigestReceived_only (k.sub (by decide)) ?_
    | with_reducible refine execLockstepPeerTimeout_only (k.sub (by decide)) ?_
    | with_reducible refine execLockstepMismatchClear_only (k.sub (by decide)) ?_
    | with_reducible refine execReplayTimer_only (k.sub (by decide)) ?_
    | with_reducible refine execReplayRequestReceived_only (k.sub (by decide)) ?_
    | with_reducible refine execHopAckReceived_only (k.sub (by decide)) ?_
    | with_reducible refine execResultWriteReceived_only (k.sub (by decide)) ?_
    | with_reducible refine execBroadcastReceived_only (k.sub (by decide)) ?_
    | with_reducible refine execBroadcastResend_only (k.sub (by decide)) ?_
    | with_reducible refine execRetainedGroupExpiry_only (k.sub (by decide)) ?_
    | with_reducible refine execMooringCheckpoint_only (k.sub (by decide)) ?_
    | with_reducible refine execCacheResize_only (k.sub (by decide)) ?_
    | with_reducible refine execCacheResizeDone_only (k.sub (by decide)) ?_
    | with_reducible refine execHintRangeSet_only (k.sub (by decide)) ?_
    | with_reducible refine execWcbFlush_only (k.sub (by decide)) ?_
    | with_reducible refine execHbmReadComplete_only (k.sub (by decide)) ?_
    | with_reducible refine execPatrolScrub_only (k.sub (by decide)) ?_
    | with_reducible refine execHbmRetrainRequest_only (k.sub (by decide)) ?_
    | with_reducible refine execHbmRetrainStart_only (k.sub (by decide)) ?_
    | with_reducible refine execHbmPhyRetrainDone_only (k.sub (by decide)) ?_
    | with_reducible refine execHbmRetrainDone_only (k.sub (by decide)) ?_
    | with_reducible refine execHbmTestEnter_only (k.sub (by decide)) ?_
    | with_reducible refine execHbmTestShift_only (k.sub (by decide)) ?_
    | with_reducible refine execHbmTestShiftDone_only (k.sub (by decide)) ?_
    | with_reducible refine execHbmTestExit_only (k.sub (by decide)) ?_
    | with_reducible refine execFlowEnable_only (k.sub (by decide)) ?_
    | with_reducible refine execFlowEntryFlush_only (k.sub (by decide)) ?_
    | with_reducible refine execEngineDownFrame_only (k.sub (by decide)) ?_
    | with_reducible refine execEngineUpFrame_only (k.sub (by decide)) ?_
    | with_reducible refine execEngineHoldExpiry_only (k.sub (by decide)) ?_
    | with_reducible refine execLaserDownFrame_only (k.sub (by decide)) ?_
    | with_reducible refine execLaserUpFrame_only (k.sub (by decide)) ?_
    | with_reducible refine execLaserLinkTimeout_only (k.sub (by decide)) ?_
    | with_reducible refine execLaserTrendSample_only (k.sub (by decide)) ?_
    | with_reducible refine execLaserSpareAtPower_only (k.sub (by decide)) ?_
    | with_reducible refine execLaserSafetyCut_only (k.sub (by decide)) ?_
    | with_reducible refine execMoveRequest_only (k.sub (by decide)) ?_
    | with_reducible refine execMoveGrant_only (k.sub (by decide)) ?_
    | with_reducible refine execMoveRefuse_only (k.sub (by decide)) ?_
    | with_reducible refine execMoveAnswerTimeout_only (k.sub (by decide)) ?_
    | with_reducible refine execCalibrationStart_only (k.sub (by decide)) ?_
    | with_reducible refine execCalibrationDone_only (k.sub (by decide)) ?_
    | with_reducible refine execFordWindow_only (k.sub (by decide)) ?_
    | with_reducible refine execFordAccept_only (k.sub (by decide)) ?_
    | with_reducible refine execFordDecline_only (k.sub (by decide)) ?_
    | with_reducible refine execFordAnswerTimeout_only (k.sub (by decide)) ?_
    | with_reducible refine execFordReleased_only (k.sub (by decide)) ?_
    | with_reducible refine execFordReleaseTimeout_only (k.sub (by decide)) ?_
    | with_reducible refine execFordRemoveCmd_only (k.sub (by decide)) ?_
    | with_reducible refine execTimeAdjust_only (k.sub (by decide)) ?_
    | with_reducible refine execTimeStep_only (k.sub (by decide)) ?_
    | with_reducible refine execTimeStepSettled_only (k.sub (by decide)) ?_
    | with_reducible refine execDomainEnable_only (k.sub (by decide)) ?_
    | with_reducible refine execDomainFollow_only (k.sub (by decide)) ?_
    | with_reducible refine execTclkLost_only (k.sub (by decide)) ?_
    | with_reducible refine execHoldoverExpiry_only (k.sub (by decide)) ?_
    | with_reducible refine execTclkRelock_only (k.sub (by decide)) ?_
    | with_reducible refine execReplicaCheck_only (k.sub (by decide)) ?_
    | with_reducible refine execTimeSnapshot_only (k.sub (by decide)) ?_
    | with_reducible refine execTriggerConfigWrite_only (k.sub (by decide)) ?_
    | with_reducible refine execTriggerOutputChange_only (k.sub (by decide)) ?_
    | with_reducible refine execPpsOutputPulse_only (k.sub (by decide)) ?_
    | with_reducible refine execCaptureEdge_only (k.sub (by decide)) ?_
    | with_reducible refine execCapturePop_only (k.sub (by decide)) ?_
    | with_reducible refine execTempEmergency_only (k.sub (by decide)) ?_
    | with_reducible refine execRailCurrentLimit_only (k.sub (by decide)) ?_
    | with_reducible refine execSafetyRelease_only (k.sub (by decide)) ?_
    | with_reducible refine execThermalTrip_only (k.sub (by decide)) ?_
    | with_reducible refine execRailFault_only (k.sub (by decide)) ?_
    | with_reducible refine execCoreRefclkLost_only (k.sub (by decide)) ?_
    | with_reducible refine execSerdesRefclkLost_only (k.sub (by decide)) ?_
    | with_reducible refine execSerdesRefclkRestored_only (k.sub (by decide)) ?_
    | with_reducible refine execBridgeReplay_only (k.sub (by decide)) ?_
    | with_reducible refine execBridgeRetrain_only (k.sub (by decide)) ?_
    | with_reducible refine execBridgeRetrainDone_only (k.sub (by decide)) ?_
    | with_reducible refine execDieReset_only (k.sub (by decide)) ?_
    | with_reducible refine execDieResetDone_only (k.sub (by decide)) ?_
    | with_reducible refine execLaneErrorCheck_only (k.sub (by decide)) ?_
    | with_reducible refine execRecoveryStart_only (k.sub (by decide)) ?_
    | with_reducible refine execRecoveryStateDone_only (k.sub (by decide)) ?_
    | with_reducible refine execRetireRequest_only (k.sub (by decide)) ?_
    | with_reducible refine execMergeWindowExpiry_only (k.sub (by decide)) ?_
    | with_reducible refine execLogAck_only (k.sub (by decide)) ?_
    | with_reducible refine execProgressTick_only (k.sub (by decide)) ?_
    | with_reducible refine execLpmImageDone_only (k.sub (by decide)) ?_
    | with_reducible refine execEngineEntersHold_only (k.sub (by decide)) ?_
    | with_reducible refine execEngineLinkRetrained_only (k.sub (by decide)) ?_
    | with_reducible refine execDomainLocked_only (k.sub (by decide)) ?_
    | with_reducible refine execCoreRefclkRestored_only (k.sub (by decide)) ?_
    | split)

end Sys2Proof.Machine
end

