-- ==== Sys2Proof/Laws/Ops.lean ====
section
/-! SUPPORT. What the register operations of Machine/Ops.lean do: a field written reads back, every other field, element and
register reads as before. -/

namespace Sys2Proof.Machine

/-! ### Bits -/

theorem bitsOf_lt (n hi lo : Nat) : bitsOf n hi lo < 2 ^ (hi + 1 - lo) := Nat.mod_lt _ (Nat.two_pow_pos _)

theorem bitsOf_testBit (n hi lo k : Nat) : (bitsOf n hi lo).testBit k = (decide (k < hi + 1 - lo) && n.testBit (lo + k)) := by
  unfold bitsOf
  rw [Nat.testBit_mod_two_pow, Nat.testBit_shiftRight]

/-- The bits of a number with a field replaced. -/
theorem withBits_testBit (n : Nat) {hi lo : Nat} (h : lo ≤ hi) (v k : Nat) :
    (withBits n hi lo v).testBit k = if lo ≤ k ∧ k ≤ hi then v.testBit (k - lo) else n.testBit k := by
  have e1 : n = n % 2 ^ lo + bitsOf n hi lo * 2 ^ lo + n / 2 ^ (hi + 1) * 2 ^ (hi + 1) := by
    unfold bitsOf
    rw [Nat.shiftRight_eq_div_pow]
    have a := Nat.mod_add_div n (2 ^ lo)
    have b := Nat.mod_add_div (n / 2 ^ lo) (2 ^ (hi + 1 - lo))
    have c : n / 2 ^ lo / 2 ^ (hi + 1 - lo) = n / 2 ^ (hi + 1) := by
      rw [Nat.div_div_eq_div_mul, ← Nat.pow_add, Nat.add_sub_cancel' (by omega)]
    have d : 2 ^ (hi + 1) = 2 ^ lo * 2 ^ (hi + 1 - lo) := by rw [← Nat.pow_add, Nat.add_sub_cancel' (by omega)]
    rw [c] at b
    calc n = n % 2 ^ lo + 2 ^ lo * (n / 2 ^ lo) := a.symm
      _ = n % 2 ^ lo + 2 ^ lo * (n / 2 ^ lo % 2 ^ (hi + 1 - lo) + 2 ^ (hi + 1 - lo) * (n / 2 ^ (hi + 1))) := by rw [b]
      _ = _ := by rw [d]; ring
  have hb := bitsOf_lt n hi lo
  have e2 : withBits n hi lo v = n % 2 ^ lo + v % 2 ^ (hi + 1 - lo) * 2 ^ lo + n / 2 ^ (hi + 1) * 2 ^ (hi + 1) := by
    unfold withBits
    generalize hA : bitsOf n hi lo * 2 ^ lo = A at *
    generalize hB : n / 2 ^ (hi + 1) * 2 ^ (hi + 1) = B at *
    omega
  have e3 : withBits n hi lo v = 2 ^ (hi + 1) * (n / 2 ^ (hi + 1)) + (2 ^ lo * (v % 2 ^ (hi + 1 - lo)) + n % 2 ^ lo) := by
    rw [e2]; ring
  have l1 : n % 2 ^ lo < 2 ^ lo := Nat.mod_lt _ (Nat.two_pow_pos _)
  have l2 : 2 ^ lo * (v % 2 ^ (hi + 1 - lo)) + n % 2 ^ lo < 2 ^ (hi + 1) := by
    have d : 2 ^ (hi + 1) = 2 ^ lo * 2 ^ (hi + 1 - lo) := by rw [← Nat.pow_add, Nat.add_sub_cancel' (by omega)]
    have l3 : v % 2 ^ (hi + 1 - lo) < 2 ^ (hi + 1 - lo) := Nat.mod_lt _ (Nat.two_pow_pos _)
    calc _ < 2 ^ lo * (v % 2 ^ (hi + 1 - lo)) + 2 ^ lo := by omega
      _ = 2 ^ lo * (v % 2 ^ (hi + 1 - lo) + 1) := by ring
      _ ≤ 2 ^ lo * 2 ^ (hi + 1 - lo) := Nat.mul_le_mul_left _ l3
      _ = _ := d.symm
  rw [e3, Nat.testBit_two_pow_mul_add _ l2, Nat.testBit_two_pow_mul_add _ l1]
  by_cases h1 : k < hi + 1
  · by_cases h2 : k < lo
    · rw [if_pos h1, if_pos h2, if_neg (by omega), Nat.testBit_mod_two_pow]
      simp [h2]
    · rw [if_pos h1, if_neg h2, if_pos (by omega), Nat.testBit_mod_two_pow]
      have : k - lo < hi + 1 - lo := by omega
      simp [this]
  · rw [if_neg h1, if_neg (by omega), Nat.testBit_div_two_pow, Nat.sub_add_cancel (by omega)]

theorem bitsOf_withBits (n : Nat) {hi lo : Nat} (h : lo ≤ hi) (v : Nat) : bitsOf (withBits n hi lo v) hi lo = v % 2 ^ (hi + 1 - lo) := by
  apply Nat.eq_of_testBit_eq
  intro k
  rw [bitsOf_testBit, withBits_testBit _ h, Nat.testBit_mod_two_pow]
  by_cases hk : k < hi + 1 - lo
  · rw [if_pos ⟨by omega, by omega⟩]
    simp [hk]
  · simp [hk]

theorem bitsOf_withBits_other (n : Nat) {hi lo : Nat} (h : lo ≤ hi) (v : Nat) {hi' lo' : Nat} (d : hi < lo' ∨ hi' < lo) :
    bitsOf (withBits n hi lo v) hi' lo' = bitsOf n hi' lo' := by
  apply Nat.eq_of_testBit_eq
  intro k
  rw [bitsOf_testBit, bitsOf_testBit, withBits_testBit _ h]
  by_cases hk : k < hi' + 1 - lo'
  · rw [if_neg (by omega)]
  · simp [hk]

theorem withBits_lt {n w hi lo : Nat} (h : lo ≤ hi) (v : Nat) (hw : hi < w) (hn : n < 2 ^ w) : withBits n hi lo v < 2 ^ w := by
  apply Nat.lt_pow_two_of_testBit
  intro k hk
  rw [withBits_testBit _ h, if_neg (by omega)]
  exact Nat.testBit_lt_two_pow (lt_of_lt_of_le hn (Nat.pow_le_pow_right (by omega) hk))

/-! ### Words and fields -/

variable {s : State}

@[simp] theorem State.word_setWord_same (off : Nat) (w : Word) : (s.setWord off w).word off = w := sget_sset_same _ _ _ _

theorem State.word_setWord_other {off o : Nat} (w : Word) (h : off ≠ o) : (s.setWord off w).word o = s.word o := sget_sset_other _ _ h _ _

/-- A field that lies within a 64-bit word. -/
def Fld.fits (f : Fld) : Bool := decide (f.lo ≤ f.hi ∧ f.hi < 64)

/-- The array is one of the register map's. -/
def Reg.listed (x : Reg) : Bool := (blockRegisters (x.base / 0x100000)).any (fun y =>
  x.base == y.base && x.stride == y.stride && x.block == y.block && x.used == y.used && x.count == y.count && (x.w1c == 0 || y.w1c != 0))

theorem Reg.listed_mem {x : Reg} (h : x.listed = true) : ∃ y ∈ blockRegisters (y.base / 0x100000), y.base = x.base ∧
    (∀ i, x.offset i = y.offset i) ∧ (x.w1c ≠ 0 → y.w1c ≠ 0) := by
  simp only [Reg.listed, List.any_eq_true, Bool.and_eq_true, beq_iff_eq, Bool.or_eq_true, bne_iff_ne] at h
  obtain ⟨y, hy, ⟨⟨⟨⟨hb, hs⟩, hk⟩, hu⟩, hc⟩, hw⟩ := h
  refine ⟨y, hb ▸ hy, hb.symm, fun i => ?_, fun n => hw.resolve_left n⟩
  unfold Reg.offset Reg.slot
  rw [hb, hs, hk, hu, hc]

theorem Reg.listed_owner {x : Reg} (h : x.listed = true) (i : Nat) : ownerOf (x.offset i) = some x.base := by
  obtain ⟨y, hy, hb, ho, -⟩ := Reg.listed_mem h
  rw [ho, ownerOf_offset hy, hb]

theorem Reg.listed_companion {x : Reg} (h : x.listed = true) (w : x.w1c ≠ 0) (i : Nat) : ownerOf (companionOf (x.offset i)) = some x.base := by
  obtain ⟨y, hy, hb, ho, hw⟩ := Reg.listed_mem h
  rw [ho, ownerOf_companion hy (hw w), hb]

theorem Reg.offset_ne {x y : Reg} (hx : x.listed = true) (hy : y.listed = true) (h : x.base ≠ y.base) (i j : Nat) : x.offset i ≠ y.offset j := by
  intro e
  have := Reg.listed_owner hx i
  rw [e, Reg.listed_owner hy j] at this
  exact h (Option.some.inj this).symm

theorem Reg.offset_inj {x : Reg} (h : x.listed = true) {i j : Nat} (e : x.offset i = x.offset j) : x.slot i = x.slot j := by
  obtain ⟨y, hy, -⟩ : ∃ y ∈ blockRegisters (x.base / 0x100000), x.stride = y.stride := by
    simp only [Reg.listed, List.any_eq_true, Bool.and_eq_true, beq_iff_eq] at h
    obtain ⟨y, hy, ⟨⟨⟨⟨-, hs⟩, -⟩, -⟩, -⟩, -⟩ := h
    exact ⟨y, hy, hs⟩
  have hs : 0 < x.stride := by
    simp only [Reg.listed, List.any_eq_true, Bool.and_eq_true, beq_iff_eq] at h
    obtain ⟨y, hy, ⟨⟨⟨⟨-, hs⟩, -⟩, -⟩, -⟩, -⟩ := h
    rw [hs]
    exact (Reg.laid_iff.1 (laid_of_mem hy)).1
  unfold Reg.offset at e
  exact Nat.eq_of_mul_eq_mul_left hs (Nat.add_left_cancel e)

theorem State.word_wr_same (f : Fld) (i v : Nat) :
    (s.wr f i v).word (f.reg.offset i) = BitVec.ofNat 64 (withBits (s.word (f.reg.offset i)).toNat f.hi f.lo v) := by
  unfold State.wr
  exact State.word_setWord_same _ _

/-- A field written reads back, cut to its width. -/
theorem State.rd_wr_same {f : Fld} (h : f.fits = true) (i v : Nat) : (s.wr f i v).rd f i = v % 2 ^ (f.hi + 1 - f.lo) := by
  obtain ⟨h1, h2⟩ := of_decide_eq_true h
  unfold State.rd
  rw [State.word_wr_same, BitVec.toNat_ofNat, Nat.mod_eq_of_lt (withBits_lt h1 v h2 (s.word _).isLt), bitsOf_withBits _ h1]

/-- Another field of the same word reads as before. -/
theorem State.rd_wr_field {f g : Fld} (h : f.fits = true) (d : f.hi < g.lo ∨ g.hi < f.lo) (i j v : Nat) : (s.wr f i v).rd g j = s.rd g j := by
  obtain ⟨h1, h2⟩ := of_decide_eq_true h
  unfold State.rd
  by_cases e : f.reg.offset i = g.reg.offset j
  · rw [← e, State.word_wr_same, BitVec.toNat_ofNat, Nat.mod_eq_of_lt (withBits_lt h1 v h2 (s.word _).isLt), bitsOf_withBits_other _ h1 _ d]
  · unfold State.wr
    rw [State.word_setWord_other _ e]

/-- A field of another register reads as before. -/
theorem State.rd_wr_reg {f g : Fld} (hf : f.reg.listed = true) (hg : g.reg.listed = true) (r : f.reg.base ≠ g.reg.base) (i j v : Nat) :
    (s.wr f i v).rd g j = s.rd g j := by
  unfold State.rd State.wr
  rw [State.word_setWord_other _ (Reg.offset_ne hf hg r i j)]

/-- A field of another element of the same register reads as before. -/
theorem State.rd_wr_index {f g : Fld} (hf : f.reg.listed = true) (r : g.reg = f.reg) {i j : Nat} (d : f.reg.slot i ≠ f.reg.slot j) (v : Nat) :
    (s.wr f i v).rd g j = s.rd g j := by
  unfold State.rd State.wr
  rw [r, State.word_setWord_other _ (fun e => d (Reg.offset_inj hf e))]

/-- A word of another register, or of another element, is as before. -/
theorem State.word_wr_other {f : Fld} {i o : Nat} (v : Nat) (h : f.reg.offset i ≠ o) : (s.wr f i v).word o = s.word o := by
  unfold State.wr
  exact State.word_setWord_other _ h

/-- An element's place is its index, for every index the array has. -/
theorem Reg.slot_simple {x : Reg} (hb : x.block = 1) (hu : x.used = 1) {i : Nat} (h : i < x.count) : x.slot i = i := by
  unfold Reg.slot
  rw [hb, hu, Nat.mod_eq_of_lt h, Nat.div_one, Nat.mul_one, Nat.mod_one, Nat.add_zero]

/-- R104: an error bit set by hardware is set. -/
theorem State.rd_setErr_same {f : Fld} (h : f.fits = true) (w : f.hi = f.lo) (i : Nat) : (s.setErr f i).rd f i = 1 := by
  unfold State.setErr
  rw [State.rd_wr_same h, w]
  simp

/-- What a register operation leaves alone. -/
theorem Only.rd {m : Nat} {t : State} (h : Only m s t) {f : Fld} (l : f.reg.listed = true) (k : m.testBit (arrayBit f.reg.base) = false) (i : Nat) :
    t.rd f i = s.rd f i := by
  unfold State.rd
  rw [show t.word (f.reg.offset i) = s.word (f.reg.offset i) from h.same (.words f.reg.base) k _ (Reg.listed_owner l i)]

end Sys2Proof.Machine
end

