-- ==== Sys2Proof/Laws/Answers.lean ====
section
/-! SUPPORT. A descriptor that is admitted runs its command's body, and a body that ends in a completion answers it: the rules for
statements about commands of the rings. -/

namespace Sys2Proof.Machine
variable {image : ImageTest}

theorem onReadyDie_performs {s : State} {off : Nat} {v : Word} {f : State → State} (h : s.performs off = true) : s.onReadyDie off v f = f s := by
  unfold State.performs at h
  rw [Bool.and_eq_true, List.isEmpty_iff] at h
  unfold State.onReadyDie State.acrossTo
  rw [if_pos h.1, h.2]


theorem runImage_admitted {s : State} {n op : Nat} {reads : Bool} {d : Desc} {im : Desc → ImageTest} (h : AdmittedWith s n op reads (im (d.begun s)) d)
    (body : Desc → State → State) :
    whenLive (runImage n (fun e => e.opcode == op) reads im body) s = .next (body (d.begun s) (s.startDesc d)) := by
  have hf : (d.fence && s.earlierPending d) = false := by
    cases hd : d.fence
    · rfl
    · rw [h.fence hd]; rfl
  have hr : (reads && s.hi.d3hot) = false := by
    cases hd : reads
    · rfl
    · rw [h.awake hd]; rfl
  have hp := h.passes
  have hm : (d.begun s).movesNothing = false := h.moves
  unfold State.startDesc Desc.begun at hp
  unfold Desc.begun at hm
  unfold whenLive
  rw [if_pos h.live]
  unfold runImage
  rw [h.fresh, h.next]
  simp only [h.op, hf, h.reached, beq_self_eq_true, Bool.not_true, Bool.or_self, Bool.false_eq_true, if_false]
  unfold Sys2Proof.Machine.startDesc
  simp only [hr, Bool.false_eq_true, if_false]
  rw [hp]
  simp only [hm, Bool.false_eq_true, if_false]
  rfl

theorem runImage_refused {s : State} {n op detail : Nat} {reads : Bool} {d : Desc} {st : Status} {im : Desc → ImageTest}
    (h : RefusedWith s n op (im (d.begun s)) d st detail) (body : Desc → State → State) :
    whenLive (runImage n (fun e => e.opcode == op) reads im body) s = .next ((s.startDesc d).complete (d.begun s) st 0 detail) := by
  have hf : (d.fence && s.earlierPending d) = false := by
    cases hd : d.fence
    · rfl
    · rw [h.fence hd]; rfl
  have hp := h.fails
  unfold State.startDesc Desc.begun at hp
  unfold whenLive
  rw [if_pos h.live]
  unfold runImage
  rw [h.fresh, h.next]
  simp only [h.op, hf, h.reached, beq_self_eq_true, Bool.not_true, Bool.or_self, Bool.false_eq_true, if_false]
  unfold Sys2Proof.Machine.startDesc
  simp only [h.awake, Bool.and_false, Bool.false_eq_true, if_false]
  rw [hp]
  rfl

theorem runOpcode_admitted {s : State} {n op : Nat} {reads : Bool} {d : Desc} (h : Admitted s n op reads d) (body : Desc → State → State) :
    runOpcode n op reads body s = .next (body (d.begun s) (s.startDesc d)) :=
  runImage_admitted (im := fun _ => ImageTest.clean) h body

theorem runImageOpcode_admitted {s : State} {n op : Nat} {d : Desc} {im : Desc → ImageTest} (h : AdmittedWith s n op true (im (d.begun s)) d)
    (body : Desc → State → State) : runImageOpcode n op im body s = .next (body (d.begun s) (s.startDesc d)) :=
  runImage_admitted h body

theorem AdmittedWith.silent {s : State} {n op : Nat} {reads : Bool} {d : Desc} (h : AdmittedWith s n op reads image d) : d.silent = false := by
  have := h.next
  unfold State.nextDesc State.outstanding at this
  have := List.mem_of_find?_eq_some this
  simp at this
  exact this.2.2

theorem AdmittedWith.ring {s : State} {n op : Nat} {reads : Bool} {d : Desc} (h : AdmittedWith s n op reads image d) : d.ring = n := by
  have := h.next
  unfold State.nextDesc State.outstanding at this
  have := List.mem_of_find?_eq_some this
  simp at this
  exact this.2.1

theorem leNat_natLe (k n : Nat) : leNat (natLe k n) = n % 256 ^ k := by
  induction k generalizing n with
  | zero => simp [natLe, leNat, Nat.mod_one]
  | succ k ih =>
    rw [natLe, leNat, ih, BitVec.toNat_ofNat, pow_succ' 256 k, Nat.mod_mul]

theorem natLe_length (k n : Nat) : (natLe k n).length = k := by
  induction k generalizing n with
  | zero => rfl
  | succ k ih => rw [natLe, List.length_cons, ih]

theorem slice_left {a b : List Byte} {o n : Nat} (h : o + n ≤ a.length) : slice (a ++ b) o n = slice a o n := by
  unfold slice
  rw [List.drop_append_of_le_length (by omega), List.take_append_of_le_length (by rw [List.length_drop]; omega)]

theorem slice_right {a b : List Byte} {o n : Nat} (h : a.length ≤ o) : slice (a ++ b) o n = slice b (o - a.length) n := by
  unfold slice
  rw [List.drop_append, List.drop_eq_nil_of_le h, List.nil_append]

theorem slice_natLe (k n : Nat) : slice (natLe k n) 0 k = natLe k n := by
  unfold slice
  rw [List.drop_zero, List.take_of_length_le (by rw [natLe_length])]

/-- R81: what stands where in the 32 bytes of a completion. -/
theorem Completion.bytes_fields (c : Completion) : c.bytes.length = 32 ∧ le c.bytes 0 4 = c.tag % 2 ^ 32 ∧ le c.bytes 4 2 = c.status % 2 ^ 16 ∧
    le c.bytes 6 1 = 0 ∧ le c.bytes 7 1 = 128 * bit c.phase ∧ le c.bytes 8 4 = c.sqHead % 2 ^ 32 ∧
    le c.bytes 12 4 = c.index % 2 ^ 32 ∧ le c.bytes 16 8 = c.result % 2 ^ 64 ∧ le c.bytes 24 4 = c.generation % 2 ^ 32 ∧
    le c.bytes 28 4 = c.detail % 2 ^ 32 := by
  have hb : bit c.phase < 2 := by unfold bit; split <;> omega
  refine ⟨by simp [Completion.bytes, natLe_length], ?_, ?_, ?_, ?_, ?_, ?_, ?_, ?_, ?_⟩
  all_goals
    unfold Completion.bytes le
    repeat' (first | rw [slice_left (by simp only [List.length_append, natLe_length]; omega)] | rw [slice_right (by simp only [List.length_append, natLe_length]; omega)])
    simp only [List.length_append, natLe_length, Nat.reduceAdd, Nat.reduceSub, slice_natLe, leNat_natLe]
    first | rfl | omega

theorem emitted_of_prefix {s t u : State} {o : Out} (h : s.out <+: t.out) (k : Emitted t u o) : Emitted s u o := by
  obtain ⟨l, hl⟩ := h
  unfold Emitted at *
  rw [← hl] at k
  simp only [List.length_append] at k
  rw [← List.drop_drop] at k
  exact List.mem_of_mem_drop k

theorem toHost_sent (s : State) (o : Out) : SentHost s (s.toHost o) o := by
  unfold SentHost State.toHost
  split
  · simp
  · simp [Emitted, State.emit]


theorem settleQuiesced_out (s : State) (n : Nat) : (s.settleQuiesced n).out = s.out ∧ (s.settleQuiesced n).hi = s.hi := ⟨rfl, rfl⟩

theorem toHost_descs (s : State) (o : Out) : (s.toHost o).hi.descs = s.hi.descs := by
  unfold State.toHost
  split <;> rfl

theorem sendVector_descs (s : State) (v : Nat) : (s.sendVector v).hi.descs = s.hi.descs := by
  unfold State.sendVector
  split
  · rfl
  · split
    · rfl
    · exact toHost_descs _ _

theorem sent_congr {s t u : State} {o : Out} (ho : u.out = t.out) (hh : u.hi = t.hi) (h : SentHost s t o) : SentHost s u o := by
  unfold SentHost Emitted at *
  rw [ho, hh]; exact h

theorem toHost_grows (s : State) (o : Out) : s.out <+: (s.toHost o).out ∧ s.hi.held <+: (s.toHost o).hi.held ∧ (s.toHost o).hi.d3hot = s.hi.d3hot := by
  unfold State.toHost
  split <;> simp [State.emit]

theorem sendVector_grows (s : State) (v : Nat) : s.out <+: (s.sendVector v).out ∧ s.hi.held <+: (s.sendVector v).hi.held ∧ (s.sendVector v).hi.d3hot = s.hi.d3hot := by
  unfold State.sendVector
  split
  · simp
  · split
    · exact ⟨List.prefix_refl _, List.prefix_refl _, rfl⟩
    · exact toHost_grows _ _

theorem sent_grows {s t u : State} {o : Out} (h : SentHost s t o) (k : t.out <+: u.out ∧ t.hi.held <+: u.hi.held) : SentHost s u o := by
  unfold SentHost Emitted at *
  split
  · rename_i c
    rw [if_pos c] at h
    exact k.2.subset h
  · rename_i c
    rw [if_neg c] at h
    exact (k.1.drop _).subset h

theorem setRing_same (s : State) (n : Nat) (r : Ring) : (s.setRing n r).out = s.out ∧ (s.setRing n r).hi.held = s.hi.held ∧ (s.setRing n r).hi.descs = s.hi.descs :=
  ⟨rfl, rfl, rfl⟩

theorem ringInterrupt_grows (s : State) (n : Nat) : (s.out <+: (s.ringInterrupt n).out ∧ s.hi.held <+: (s.ringInterrupt n).hi.held) ∧
    (s.ringInterrupt n).hi.descs = s.hi.descs := by
  unfold State.ringInterrupt
  obtain ⟨e1, e2, e3⟩ := setRing_same s n { s.ring n with armed := false }
  obtain ⟨f1, f2, -⟩ := sendVector_grows (s.setRing n { s.ring n with armed := false }) (s.rd HI_RING_CFG_VECTOR n)
  rw [sendVector_descs, e3]
  rw [e1] at f1
  rw [e2] at f2
  exact ⟨⟨f1, f2⟩, rfl⟩

theorem statusCode_lt (st : Status) : statusCode st < 2 ^ 16 := by cases st <;> decide

theorem leNat_lt (bs : List Byte) : leNat bs < 256 ^ bs.length := by
  induction bs with
  | nil => simp [leNat]
  | cons b bs ih =>
    simp only [leNat, List.length_cons, Nat.pow_succ]
    have := b.isLt
    omega

theorem le_lt (bs : List Byte) (o n : Nat) : le bs o n < 256 ^ n := by
  unfold le
  refine lt_of_lt_of_le (leNat_lt _) (Nat.pow_le_pow_right (by norm_num) ?_)
  unfold slice
  simp

theorem completionOf_fields (s : State) (d : Desc) (st : Status) (result detail : Nat) :
    let b := (completionOf s d st result detail).bytes
    b.length = 32 ∧ le b 0 4 = d.tag ∧ le b 4 2 = statusCode st ∧ le b 12 4 = d.index % 2 ^ 32 ∧ le b 16 8 = result % 2 ^ 64 := by
  intro b
  obtain ⟨h0, h1, h2, -, -, -, h3, h4, -⟩ := Completion.bytes_fields (completionOf s d st result detail)
  refine ⟨h0, ?_, ?_, h3, ?_⟩
  · rw [h1]; exact Nat.mod_eq_of_lt (le_lt d.raw 4 4)
  · rw [h2]; exact Nat.mod_eq_of_lt (statusCode_lt st)
  · rw [h4]; exact Nat.mod_eq_of_lt (Nat.mod_lt _ (by norm_num))

theorem State.complete_answered {s t : State} {d : Desc} (hs : d.silent = false) (ho : s.out <+: t.out) (hd : t.hi.d3hot = s.hi.d3hot)
    (st : Status) (result detail : Nat) : Answered s (t.complete d st result detail) d st (result % 2 ^ 64) := by
  unfold State.complete
  rw [hs]
  simp only [Bool.false_eq_true, if_false]
  set c := (completionOf t d st result detail).bytes with hc
  set k := (t.ring d.ring).written % t.cqSize d.ring with hk
  set o := Out.completion d.ring k (t.cqSlotAddress d.ring k) c with hO
  set t1 := (t.dropDesc d).toHost o with h1
  have a1 : SentHost s t1 o := by
    have := toHost_sent (t.dropDesc d) o
    rw [← h1] at this
    unfold SentHost at *
    rw [← hd]
    split
    · rename_i e
      have e' : (t.dropDesc d).hi.d3hot = true := e
      rw [if_pos e'] at this
      exact this
    · rename_i e
      have e' : ¬ (t.dropDesc d).hi.d3hot = true := e
      rw [if_neg e'] at this
      exact emitted_of_prefix ho this
  have d1 : ∀ e ∈ t1.hi.descs, e.id ≠ d.id := by
    have : t1.hi.descs = removeDesc d t.hi.descs := by
      rw [h1]; unfold State.toHost; split <;> rfl
    rw [this]; unfold removeDesc
    intro e he
    simp at he
    exact he.2
  set u := t1.setRing d.ring { t.ring d.ring with written := wrapAdd 32 (t.ring d.ring).written 1 } with hu
  have key : ∀ w : State, u.out <+: w.out ∧ u.hi.held <+: w.hi.held → w.hi.descs = u.hi.descs →
      Answered s (w.settleQuiesced d.ring) d st (result % 2 ^ 64) := by
    intro w hw hx
    obtain ⟨f0, f1, f2, f3, f4⟩ := completionOf_fields t d st result detail
    refine ⟨⟨k, t.cqSlotAddress d.ring k, c, f0, f1, f2, f3, f4, ?_⟩, ?_⟩
    · obtain ⟨e1, e2⟩ := settleQuiesced_out w d.ring
      exact sent_congr e1 e2 (sent_grows a1 hw)
    · rw [(settleQuiesced_out w d.ring).2, hx]; exact d1
  split
  · apply key
    · exact (ringInterrupt_grows u d.ring).1
    · exact (ringInterrupt_grows u d.ring).2
  · exact key u ⟨List.prefix_refl _, List.prefix_refl _⟩ rfl

/-- A body that ends in a completion answers the descriptor. -/
theorem answered_of_only {s t : State} {d : Desc} {m : Nat} (h : Only m s t) (hm : m.testBit 8 = false) (hs : d.silent = false)
    (st : Status) (result detail : Nat) : Answered s (t.complete d st result detail) d st (result % 2 ^ 64) :=
  State.complete_answered hs h.keeps.out (h.same .hiD3hot hm) st result detail

theorem complete_grows (s : State) (d : Desc) (st : Status) (r x : Nat) : s.out <+: (s.complete d st r x).out ∧ s.hi.held <+: (s.complete d st r x).hi.held := by
  unfold State.complete
  split
  · exact ⟨List.prefix_refl _, List.prefix_refl _⟩
  · dsimp only
    obtain ⟨a1, a2, -⟩ := toHost_grows (s.dropDesc d) (.completion d.ring ((s.ring d.ring).written % s.cqSize d.ring) (s.cqSlotAddress d.ring ((s.ring d.ring).written % s.cqSize d.ring)) (completionOf s d st r x).bytes)
    set u := ((s.dropDesc d).toHost (.completion d.ring ((s.ring d.ring).written % s.cqSize d.ring) (s.cqSlotAddress d.ring ((s.ring d.ring).written % s.cqSize d.ring)) (completionOf s d st r x).bytes))
    set v := u.setRing d.ring { s.ring d.ring with written := wrapAdd 32 (s.ring d.ring).written 1 } with hv
    have b : s.out <+: v.out ∧ s.hi.held <+: v.hi.held := ⟨a1, a2⟩
    split
    · obtain ⟨e1, e2⟩ := settleQuiesced_out (v.ringInterrupt d.ring) d.ring
      rw [e1, e2]
      exact ⟨b.1.trans (ringInterrupt_grows v d.ring).1.1, b.2.trans (ringInterrupt_grows v d.ring).1.2⟩
    · obtain ⟨e1, e2⟩ := settleQuiesced_out v d.ring
      rw [e1, e2]
      exact b

theorem descWrite_sent (s : State) (d : Desc) (a : Nat) (bs : List Byte) (h : d.silent = false) (hb : bs ≠ []) : SentHost s (s.descWrite d a bs) (.hostWrite a bs true) := by
  unfold State.descWrite
  have : bs.isEmpty = false := by cases bs <;> simp_all
  rw [h, this]
  exact toHost_sent s _

theorem sentHost_of {s t u : State} {o : Out} (ho : s.out <+: t.out) (hd : t.hi.d3hot = s.hi.d3hot) (h : SentHost t u o) : SentHost s u o := by
  unfold SentHost at *
  rw [hd] at h
  split
  · rename_i c; rw [if_pos c] at h; exact h
  · rename_i c; rw [if_neg c] at h; exact emitted_of_prefix ho h

theorem checks_form {s : State} {d : Desc} {x : ImageTest} (h : s.checks d x = none) : ∃ f, opForm d = some f ∧ check2 d f = none ∧ x.fault = none := by
  unfold State.checks at h
  split at h
  · cases h
  · rename_i f hf
    refine ⟨f, hf, ?_⟩
    split at h
    · cases h
    · rename_i hn
      simpa using hn

theorem check2_field {d : Desc} {f : OpForm} (h : check2 d f = none) : ∀ x ∈ f.fields, x.2.2 = true := by
  unfold check2 at h
  simp only [List.min?_eq_none_iff, List.append_eq_nil_iff, List.map_eq_nil_iff, List.filter_eq_nil_iff] at h
  obtain ⟨⟨⟨-, h⟩, -⟩, -⟩ := h
  intro x hx
  simpa using h x hx

theorem check2_len {d : Desc} {f : OpForm} (h : check2 d f = none) : lengthFaults d f.len = [] := by
  unfold check2 at h
  simp only [List.min?_eq_none_iff, List.append_eq_nil_iff, List.map_eq_nil_iff, List.filter_eq_nil_iff] at h
  exact h.1.1.1.2

theorem checks_len {s : State} {d : Desc} {x : ImageTest} (h : s.checks d x = none) : d.length ≠ allOnesLength := by
  obtain ⟨f, hf, h2, h3⟩ := checks_form h
  unfold State.checks at h
  rw [hf] at h
  simp only [h2, h3, Option.or] at h
  repeat' (split at h <;> try (first | (cases h; done)))
  all_goals first
    | (intro e; simp_all; done)
    | skip
end Sys2Proof.Machine
namespace Sys2Proof.Machine

theorem Desc.length_lt (d : Desc) : d.length < 2 ^ 64 := lt_trans (le_lt d.raw 16 5) (by norm_num)

theorem AdmittedWith.answers {s t : State} {n op : Nat} {reads : Bool} {d : Desc} (h : AdmittedWith s n op reads image d)
    (ho : (s.startDesc d).out <+: t.out) (hd : t.hi.d3hot = (s.startDesc d).hi.d3hot) (st : Status) {r : Nat} (hr : r < 2 ^ 64) (x : Nat) :
    Answered s (t.complete (d.begun s) st r x) d st r := by
  have := State.complete_answered (s := s) (t := t) (d := d.begun s) h.silent ho hd st r x
  rw [Nat.mod_eq_of_lt hr] at this
  exact this

theorem AdmittedWith.answersOnly {s t : State} {m n op : Nat} {reads : Bool} {d : Desc} (h : AdmittedWith s n op reads image d)
    (k : Only m (s.startDesc d) t) (hm : m.testBit 8 = false) (st : Status) {r : Nat} (hr : r < 2 ^ 64) (x : Nat) :
    Answered s (t.complete (d.begun s) st r x) d st r := h.answers k.keeps.out (k.same .hiD3hot hm) st hr x

theorem AdmittedWith.answersNow {s : State} {n op : Nat} {reads : Bool} {d : Desc} (h : AdmittedWith s n op reads image d)
    (st : Status) {r : Nat} (hr : r < 2 ^ 64) (x : Nat) :
    Answered s ((s.startDesc d).complete (d.begun s) st r x) d st r := h.answers (List.prefix_refl _) rfl st hr x

theorem AdmittedWith.held {s : State} {n op : Nat} {reads : Bool} {d : Desc} (h : AdmittedWith s n op reads image d) :
    (s.startDesc d).hi.descs.any (fun e => e.id == (d.begun s).id) = true := by
  have := h.next
  unfold State.nextDesc State.outstanding at this
  have := List.mem_of_find?_eq_some this
  have hm := (List.mem_filter.1 this).1
  unfold State.startDesc State.updateDesc
  simp only [List.any_map, List.any_eq_true]
  exact ⟨d, hm, by simp⟩

theorem natLe_ne {n k : Nat} (h : 1 ≤ n) : natLe n k ≠ [] := by
  cases n with
  | zero => omega
  | succ n => simp [natLe]
end Sys2Proof.Machine
namespace Sys2Proof.Machine
/-- The host interface's rings, descriptors and outputs may differ, and nothing else. -/
structure HostOnly (s t : State) : Prop where
  ft : t.ft = s.ft
  ms : t.ms = s.ms
  re : t.re = s.re
  bt : t.bt = s.bt
  cl : t.cl = s.cl
  pc : t.pc = s.pc
  tq : t.tq = s.tq
  tb : t.tb = s.tb
  oc : t.oc = s.oc
  pm : t.pm = s.pm
  fh : t.fh = s.fh
  parts : t.hi.parts = s.hi.parts
  prot : t.hi.prot = s.hi.prot
  staging : t.hi.staging = s.hi.staging
  granules : t.hi.granules = s.hi.granules
  free : t.free = s.free

theorem HostOnly.refl (s : State) : HostOnly s s := ⟨rfl, rfl, rfl, rfl, rfl, rfl, rfl, rfl, rfl, rfl, rfl, rfl, rfl, rfl, rfl, rfl⟩
theorem HostOnly.trans {s t u : State} (h : HostOnly s t) (k : HostOnly t u) : HostOnly s u :=
  ⟨k.ft.trans h.ft, k.ms.trans h.ms, k.re.trans h.re, k.bt.trans h.bt, k.cl.trans h.cl, k.pc.trans h.pc, k.tq.trans h.tq, k.tb.trans h.tb, k.oc.trans h.oc,
   k.pm.trans h.pm, k.fh.trans h.fh, k.parts.trans h.parts, k.prot.trans h.prot, k.staging.trans h.staging, k.granules.trans h.granules, k.free.trans h.free⟩
theorem setRing_hostOnly (s : State) (n : Nat) (r : Ring) : HostOnly s (s.setRing n r) :=
  ⟨rfl, rfl, rfl, rfl, rfl, rfl, rfl, rfl, rfl, rfl, rfl, rfl, rfl, rfl, rfl, rfl⟩
theorem dropDesc_hostOnly (s : State) (d : Desc) : HostOnly s (s.dropDesc d) :=
  ⟨rfl, rfl, rfl, rfl, rfl, rfl, rfl, rfl, rfl, rfl, rfl, rfl, rfl, rfl, rfl, rfl⟩
theorem updateDesc_hostOnly (s : State) (d e : Desc) : HostOnly s (s.updateDesc d e) :=
  ⟨rfl, rfl, rfl, rfl, rfl, rfl, rfl, rfl, rfl, rfl, rfl, rfl, rfl, rfl, rfl, rfl⟩
theorem wr_hostOnly (s : State) (f : Fld) (i v : Nat) : HostOnly s (s.wr f i v) :=
  ⟨rfl, rfl, rfl, rfl, rfl, rfl, rfl, rfl, rfl, rfl, rfl, rfl, rfl, rfl, rfl, rfl⟩
theorem toHost_hostOnly (s : State) (o : Out) : HostOnly s (s.toHost o) := by
  unfold State.toHost
  split <;> exact ⟨rfl, rfl, rfl, rfl, rfl, rfl, rfl, rfl, rfl, rfl, rfl, rfl, rfl, rfl, rfl, rfl⟩
theorem sendVector_hostOnly (s : State) (v : Nat) : HostOnly s (s.sendVector v) := by
  unfold State.sendVector
  split
  · exact HostOnly.refl _
  · split
    · exact ⟨rfl, rfl, rfl, rfl, rfl, rfl, rfl, rfl, rfl, rfl, rfl, rfl, rfl, rfl, rfl, rfl⟩
    · exact toHost_hostOnly _ _
theorem settleQuiesced_hostOnly (s : State) (n : Nat) : HostOnly s (s.settleQuiesced n) :=
  ⟨rfl, rfl, rfl, rfl, rfl, rfl, rfl, rfl, rfl, rfl, rfl, rfl, rfl, rfl, rfl, rfl⟩
theorem descWrite_hostOnly (s : State) (d : Desc) (a : Nat) (b : List Byte) : HostOnly s (s.descWrite d a b) := by
  unfold State.descWrite
  split
  · exact HostOnly.refl _
  · exact toHost_hostOnly _ _

/-- What a completion leaves alone. -/
theorem complete_hostOnly (s : State) (d : Desc) (st : Status) (r x : Nat) : HostOnly s (s.complete d st r x) := by
  unfold State.complete
  split
  · exact dropDesc_hostOnly _ _
  · refine HostOnly.trans ?_ (settleQuiesced_hostOnly _ _)
    have a : ∀ o r', HostOnly s (((s.dropDesc d).toHost o).setRing d.ring r') := fun o r' =>
      ((dropDesc_hostOnly s d).trans (toHost_hostOnly _ _)).trans (setRing_hostOnly _ _ _)
    split
    · unfold State.ringInterrupt
      exact (a _ _).trans ((setRing_hostOnly _ _ _).trans (sendVector_hostOnly _ _))
    · exact a _ _

theorem startDesc_hostOnly (s : State) (d : Desc) : HostOnly s (s.startDesc d) := updateDesc_hostOnly _ _ _

end Sys2Proof.Machine
end

