-- ==== Sys2Proof/Laws/State.lean ====
section
/-! SUPPORT. What the updates of one part of the state leave of the other parts: one lemma for each field of `State` and each update. -/

namespace Sys2Proof.Machine

@[simp] theorem State.setLaserPos_regs (s : State) (m k : Nat) (p : LaserPos) : (State.setLaserPos s m k p).regs = s.regs := rfl
@[simp] theorem State.setLaserPos_hi (s : State) (m k : Nat) (p : LaserPos) : (State.setLaserPos s m k p).hi = s.hi := rfl
@[simp] theorem State.setLaserPos_bt (s : State) (m k : Nat) (p : LaserPos) : (State.setLaserPos s m k p).bt = s.bt := rfl
@[simp] theorem State.setLaserPos_pc (s : State) (m k : Nat) (p : LaserPos) : (State.setLaserPos s m k p).pc = s.pc := rfl
@[simp] theorem State.setLaserPos_ft (s : State) (m k : Nat) (p : LaserPos) : (State.setLaserPos s m k p).ft = s.ft := rfl
@[simp] theorem State.setLaserPos_tq (s : State) (m k : Nat) (p : LaserPos) : (State.setLaserPos s m k p).tq = s.tq := rfl
@[simp] theorem State.setLaserPos_tb (s : State) (m k : Nat) (p : LaserPos) : (State.setLaserPos s m k p).tb = s.tb := rfl
@[simp] theorem State.setLaserPos_fh (s : State) (m k : Nat) (p : LaserPos) : (State.setLaserPos s m k p).fh = s.fh := rfl
@[simp] theorem State.setLaserPos_ms (s : State) (m k : Nat) (p : LaserPos) : (State.setLaserPos s m k p).ms = s.ms := rfl
@[simp] theorem State.setLaserPos_re (s : State) (m k : Nat) (p : LaserPos) : (State.setLaserPos s m k p).re = s.re := rfl
@[simp] theorem State.setLaserPos_cl (s : State) (m k : Nat) (p : LaserPos) : (State.setLaserPos s m k p).cl = s.cl := rfl
@[simp] theorem State.setLaserPos_pm (s : State) (m k : Nat) (p : LaserPos) : (State.setLaserPos s m k p).pm = s.pm := rfl
@[simp] theorem State.setLaserPos_free (s : State) (m k : Nat) (p : LaserPos) : (State.setLaserPos s m k p).free = s.free := rfl
@[simp] theorem State.setLaserPos_out (s : State) (m k : Nat) (p : LaserPos) : (State.setLaserPos s m k p).out = s.out := rfl
@[simp] theorem State.setLaserPos_pending (s : State) (m k : Nat) (p : LaserPos) : (State.setLaserPos s m k p).pending = s.pending := rfl

@[simp] theorem State.emptyImage_regs (s : State) : (State.emptyImage s).regs = s.regs := rfl
@[simp] theorem State.emptyImage_hi (s : State) : (State.emptyImage s).hi = s.hi := rfl
@[simp] theorem State.emptyImage_pc (s : State) : (State.emptyImage s).pc = s.pc := rfl
@[simp] theorem State.emptyImage_ft (s : State) : (State.emptyImage s).ft = s.ft := rfl
@[simp] theorem State.emptyImage_tq (s : State) : (State.emptyImage s).tq = s.tq := rfl
@[simp] theorem State.emptyImage_tb (s : State) : (State.emptyImage s).tb = s.tb := rfl
@[simp] theorem State.emptyImage_fh (s : State) : (State.emptyImage s).fh = s.fh := rfl
@[simp] theorem State.emptyImage_ms (s : State) : (State.emptyImage s).ms = s.ms := rfl
@[simp] theorem State.emptyImage_re (s : State) : (State.emptyImage s).re = s.re := rfl
@[simp] theorem State.emptyImage_cl (s : State) : (State.emptyImage s).cl = s.cl := rfl
@[simp] theorem State.emptyImage_oc (s : State) : (State.emptyImage s).oc = s.oc := rfl
@[simp] theorem State.emptyImage_pm (s : State) : (State.emptyImage s).pm = s.pm := rfl
@[simp] theorem State.emptyImage_free (s : State) : (State.emptyImage s).free = s.free := rfl
@[simp] theorem State.emptyImage_out (s : State) : (State.emptyImage s).out = s.out := rfl
@[simp] theorem State.emptyImage_pending (s : State) : (State.emptyImage s).pending = s.pending := rfl

@[simp] theorem State.setBridge_regs (s : State) (b : Nat) (x : Bridge) : (State.setBridge s b x).regs = s.regs := rfl
@[simp] theorem State.setBridge_hi (s : State) (b : Nat) (x : Bridge) : (State.setBridge s b x).hi = s.hi := rfl
@[simp] theorem State.setBridge_bt (s : State) (b : Nat) (x : Bridge) : (State.setBridge s b x).bt = s.bt := rfl
@[simp] theorem State.setBridge_pc (s : State) (b : Nat) (x : Bridge) : (State.setBridge s b x).pc = s.pc := rfl
@[simp] theorem State.setBridge_ft (s : State) (b : Nat) (x : Bridge) : (State.setBridge s b x).ft = s.ft := rfl
@[simp] theorem State.setBridge_tq (s : State) (b : Nat) (x : Bridge) : (State.setBridge s b x).tq = s.tq := rfl
@[simp] theorem State.setBridge_tb (s : State) (b : Nat) (x : Bridge) : (State.setBridge s b x).tb = s.tb := rfl
@[simp] theorem State.setBridge_ms (s : State) (b : Nat) (x : Bridge) : (State.setBridge s b x).ms = s.ms := rfl
@[simp] theorem State.setBridge_re (s : State) (b : Nat) (x : Bridge) : (State.setBridge s b x).re = s.re := rfl
@[simp] theorem State.setBridge_cl (s : State) (b : Nat) (x : Bridge) : (State.setBridge s b x).cl = s.cl := rfl
@[simp] theorem State.setBridge_oc (s : State) (b : Nat) (x : Bridge) : (State.setBridge s b x).oc = s.oc := rfl
@[simp] theorem State.setBridge_pm (s : State) (b : Nat) (x : Bridge) : (State.setBridge s b x).pm = s.pm := rfl
@[simp] theorem State.setBridge_free (s : State) (b : Nat) (x : Bridge) : (State.setBridge s b x).free = s.free := rfl
@[simp] theorem State.setBridge_out (s : State) (b : Nat) (x : Bridge) : (State.setBridge s b x).out = s.out := rfl
@[simp] theorem State.setBridge_pending (s : State) (b : Nat) (x : Bridge) : (State.setBridge s b x).pending = s.pending := rfl

@[simp] theorem State.setFrame_regs (s : State) (f : Nat) (x : FrameSt) : (State.setFrame s f x).regs = s.regs := rfl
@[simp] theorem State.setFrame_hi (s : State) (f : Nat) (x : FrameSt) : (State.setFrame s f x).hi = s.hi := rfl
@[simp] theorem State.setFrame_bt (s : State) (f : Nat) (x : FrameSt) : (State.setFrame s f x).bt = s.bt := rfl
@[simp] theorem State.setFrame_ft (s : State) (f : Nat) (x : FrameSt) : (State.setFrame s f x).ft = s.ft := rfl
@[simp] theorem State.setFrame_tq (s : State) (f : Nat) (x : FrameSt) : (State.setFrame s f x).tq = s.tq := rfl
@[simp] theorem State.setFrame_tb (s : State) (f : Nat) (x : FrameSt) : (State.setFrame s f x).tb = s.tb := rfl
@[simp] theorem State.setFrame_fh (s : State) (f : Nat) (x : FrameSt) : (State.setFrame s f x).fh = s.fh := rfl
@[simp] theorem State.setFrame_ms (s : State) (f : Nat) (x : FrameSt) : (State.setFrame s f x).ms = s.ms := rfl
@[simp] theorem State.setFrame_re (s : State) (f : Nat) (x : FrameSt) : (State.setFrame s f x).re = s.re := rfl
@[simp] theorem State.setFrame_cl (s : State) (f : Nat) (x : FrameSt) : (State.setFrame s f x).cl = s.cl := rfl
@[simp] theorem State.setFrame_oc (s : State) (f : Nat) (x : FrameSt) : (State.setFrame s f x).oc = s.oc := rfl
@[simp] theorem State.setFrame_pm (s : State) (f : Nat) (x : FrameSt) : (State.setFrame s f x).pm = s.pm := rfl
@[simp] theorem State.setFrame_free (s : State) (f : Nat) (x : FrameSt) : (State.setFrame s f x).free = s.free := rfl
@[simp] theorem State.setFrame_out (s : State) (f : Nat) (x : FrameSt) : (State.setFrame s f x).out = s.out := rfl
@[simp] theorem State.setFrame_pending (s : State) (f : Nat) (x : FrameSt) : (State.setFrame s f x).pending = s.pending := rfl

@[simp] theorem State.delFrame_regs (s : State) (f : Nat) : (State.delFrame s f).regs = s.regs := rfl
@[simp] theorem State.delFrame_hi (s : State) (f : Nat) : (State.delFrame s f).hi = s.hi := rfl
@[simp] theorem State.delFrame_bt (s : State) (f : Nat) : (State.delFrame s f).bt = s.bt := rfl
@[simp] theorem State.delFrame_ft (s : State) (f : Nat) : (State.delFrame s f).ft = s.ft := rfl
@[simp] theorem State.delFrame_tq (s : State) (f : Nat) : (State.delFrame s f).tq = s.tq := rfl
@[simp] theorem State.delFrame_tb (s : State) (f : Nat) : (State.delFrame s f).tb = s.tb := rfl
@[simp] theorem State.delFrame_fh (s : State) (f : Nat) : (State.delFrame s f).fh = s.fh := rfl
@[simp] theorem State.delFrame_ms (s : State) (f : Nat) : (State.delFrame s f).ms = s.ms := rfl
@[simp] theorem State.delFrame_re (s : State) (f : Nat) : (State.delFrame s f).re = s.re := rfl
@[simp] theorem State.delFrame_cl (s : State) (f : Nat) : (State.delFrame s f).cl = s.cl := rfl
@[simp] theorem State.delFrame_oc (s : State) (f : Nat) : (State.delFrame s f).oc = s.oc := rfl
@[simp] theorem State.delFrame_pm (s : State) (f : Nat) : (State.delFrame s f).pm = s.pm := rfl
@[simp] theorem State.delFrame_free (s : State) (f : Nat) : (State.delFrame s f).free = s.free := rfl
@[simp] theorem State.delFrame_out (s : State) (f : Nat) : (State.delFrame s f).out = s.out := rfl
@[simp] theorem State.delFrame_pending (s : State) (f : Nat) : (State.delFrame s f).pending = s.pending := rfl

@[simp] theorem State.setQueue_regs (s : State) (q : Nat) (l : List Nat) : (State.setQueue s q l).regs = s.regs := rfl
@[simp] theorem State.setQueue_hi (s : State) (q : Nat) (l : List Nat) : (State.setQueue s q l).hi = s.hi := rfl
@[simp] theorem State.setQueue_bt (s : State) (q : Nat) (l : List Nat) : (State.setQueue s q l).bt = s.bt := rfl
@[simp] theorem State.setQueue_ft (s : State) (q : Nat) (l : List Nat) : (State.setQueue s q l).ft = s.ft := rfl
@[simp] theorem State.setQueue_tq (s : State) (q : Nat) (l : List Nat) : (State.setQueue s q l).tq = s.tq := rfl
@[simp] theorem State.setQueue_tb (s : State) (q : Nat) (l : List Nat) : (State.setQueue s q l).tb = s.tb := rfl
@[simp] theorem State.setQueue_fh (s : State) (q : Nat) (l : List Nat) : (State.setQueue s q l).fh = s.fh := rfl
@[simp] theorem State.setQueue_ms (s : State) (q : Nat) (l : List Nat) : (State.setQueue s q l).ms = s.ms := rfl
@[simp] theorem State.setQueue_re (s : State) (q : Nat) (l : List Nat) : (State.setQueue s q l).re = s.re := rfl
@[simp] theorem State.setQueue_cl (s : State) (q : Nat) (l : List Nat) : (State.setQueue s q l).cl = s.cl := rfl
@[simp] theorem State.setQueue_oc (s : State) (q : Nat) (l : List Nat) : (State.setQueue s q l).oc = s.oc := rfl
@[simp] theorem State.setQueue_pm (s : State) (q : Nat) (l : List Nat) : (State.setQueue s q l).pm = s.pm := rfl
@[simp] theorem State.setQueue_free (s : State) (q : Nat) (l : List Nat) : (State.setQueue s q l).free = s.free := rfl
@[simp] theorem State.setQueue_out (s : State) (q : Nat) (l : List Nat) : (State.setQueue s q l).out = s.out := rfl
@[simp] theorem State.setQueue_pending (s : State) (q : Nat) (l : List Nat) : (State.setQueue s q l).pending = s.pending := rfl

@[simp] theorem State.setSlip_regs (s : State) (q : Nat) (v : Nat × Nat × Nat) : (State.setSlip s q v).regs = s.regs := rfl
@[simp] theorem State.setSlip_hi (s : State) (q : Nat) (v : Nat × Nat × Nat) : (State.setSlip s q v).hi = s.hi := rfl
@[simp] theorem State.setSlip_bt (s : State) (q : Nat) (v : Nat × Nat × Nat) : (State.setSlip s q v).bt = s.bt := rfl
@[simp] theorem State.setSlip_ft (s : State) (q : Nat) (v : Nat × Nat × Nat) : (State.setSlip s q v).ft = s.ft := rfl
@[simp] theorem State.setSlip_tq (s : State) (q : Nat) (v : Nat × Nat × Nat) : (State.setSlip s q v).tq = s.tq := rfl
@[simp] theorem State.setSlip_tb (s : State) (q : Nat) (v : Nat × Nat × Nat) : (State.setSlip s q v).tb = s.tb := rfl
@[simp] theorem State.setSlip_fh (s : State) (q : Nat) (v : Nat × Nat × Nat) : (State.setSlip s q v).fh = s.fh := rfl
@[simp] theorem State.setSlip_ms (s : State) (q : Nat) (v : Nat × Nat × Nat) : (State.setSlip s q v).ms = s.ms := rfl
@[simp] theorem State.setSlip_re (s : State) (q : Nat) (v : Nat × Nat × Nat) : (State.setSlip s q v).re = s.re := rfl
@[simp] theorem State.setSlip_cl (s : State) (q : Nat) (v : Nat × Nat × Nat) : (State.setSlip s q v).cl = s.cl := rfl
@[simp] theorem State.setSlip_oc (s : State) (q : Nat) (v : Nat × Nat × Nat) : (State.setSlip s q v).oc = s.oc := rfl
@[simp] theorem State.setSlip_pm (s : State) (q : Nat) (v : Nat × Nat × Nat) : (State.setSlip s q v).pm = s.pm := rfl
@[simp] theorem State.setSlip_free (s : State) (q : Nat) (v : Nat × Nat × Nat) : (State.setSlip s q v).free = s.free := rfl
@[simp] theorem State.setSlip_out (s : State) (q : Nat) (v : Nat × Nat × Nat) : (State.setSlip s q v).out = s.out := rfl
@[simp] theorem State.setSlip_pending (s : State) (q : Nat) (v : Nat × Nat × Nat) : (State.setSlip s q v).pending = s.pending := rfl

@[simp] theorem State.setFence_regs (s : State) (k : Nat) (v : Fence) : (State.setFence s k v).regs = s.regs := rfl
@[simp] theorem State.setFence_hi (s : State) (k : Nat) (v : Fence) : (State.setFence s k v).hi = s.hi := rfl
@[simp] theorem State.setFence_bt (s : State) (k : Nat) (v : Fence) : (State.setFence s k v).bt = s.bt := rfl
@[simp] theorem State.setFence_pc (s : State) (k : Nat) (v : Fence) : (State.setFence s k v).pc = s.pc := rfl
@[simp] theorem State.setFence_ft (s : State) (k : Nat) (v : Fence) : (State.setFence s k v).ft = s.ft := rfl
@[simp] theorem State.setFence_tb (s : State) (k : Nat) (v : Fence) : (State.setFence s k v).tb = s.tb := rfl
@[simp] theorem State.setFence_fh (s : State) (k : Nat) (v : Fence) : (State.setFence s k v).fh = s.fh := rfl
@[simp] theorem State.setFence_ms (s : State) (k : Nat) (v : Fence) : (State.setFence s k v).ms = s.ms := rfl
@[simp] theorem State.setFence_re (s : State) (k : Nat) (v : Fence) : (State.setFence s k v).re = s.re := rfl
@[simp] theorem State.setFence_cl (s : State) (k : Nat) (v : Fence) : (State.setFence s k v).cl = s.cl := rfl
@[simp] theorem State.setFence_oc (s : State) (k : Nat) (v : Fence) : (State.setFence s k v).oc = s.oc := rfl
@[simp] theorem State.setFence_pm (s : State) (k : Nat) (v : Fence) : (State.setFence s k v).pm = s.pm := rfl
@[simp] theorem State.setFence_free (s : State) (k : Nat) (v : Fence) : (State.setFence s k v).free = s.free := rfl
@[simp] theorem State.setFence_out (s : State) (k : Nat) (v : Fence) : (State.setFence s k v).out = s.out := rfl
@[simp] theorem State.setFence_pending (s : State) (k : Nat) (v : Fence) : (State.setFence s k v).pending = s.pending := rfl

@[simp] theorem State.setPart_regs (s : State) (p : Nat) (v : Part) : (State.setPart s p v).regs = s.regs := rfl
@[simp] theorem State.setPart_bt (s : State) (p : Nat) (v : Part) : (State.setPart s p v).bt = s.bt := rfl
@[simp] theorem State.setPart_pc (s : State) (p : Nat) (v : Part) : (State.setPart s p v).pc = s.pc := rfl
@[simp] theorem State.setPart_ft (s : State) (p : Nat) (v : Part) : (State.setPart s p v).ft = s.ft := rfl
@[simp] theorem State.setPart_tq (s : State) (p : Nat) (v : Part) : (State.setPart s p v).tq = s.tq := rfl
@[simp] theorem State.setPart_tb (s : State) (p : Nat) (v : Part) : (State.setPart s p v).tb = s.tb := rfl
@[simp] theorem State.setPart_fh (s : State) (p : Nat) (v : Part) : (State.setPart s p v).fh = s.fh := rfl
@[simp] theorem State.setPart_ms (s : State) (p : Nat) (v : Part) : (State.setPart s p v).ms = s.ms := rfl
@[simp] theorem State.setPart_re (s : State) (p : Nat) (v : Part) : (State.setPart s p v).re = s.re := rfl
@[simp] theorem State.setPart_cl (s : State) (p : Nat) (v : Part) : (State.setPart s p v).cl = s.cl := rfl
@[simp] theorem State.setPart_oc (s : State) (p : Nat) (v : Part) : (State.setPart s p v).oc = s.oc := rfl
@[simp] theorem State.setPart_pm (s : State) (p : Nat) (v : Part) : (State.setPart s p v).pm = s.pm := rfl
@[simp] theorem State.setPart_free (s : State) (p : Nat) (v : Part) : (State.setPart s p v).free = s.free := rfl
@[simp] theorem State.setPart_out (s : State) (p : Nat) (v : Part) : (State.setPart s p v).out = s.out := rfl
@[simp] theorem State.setPart_pending (s : State) (p : Nat) (v : Part) : (State.setPart s p v).pending = s.pending := rfl

@[simp] theorem State.setExchange_regs (s : State) (n : Nat) (x : Exchange) : (State.setExchange s n x).regs = s.regs := rfl
@[simp] theorem State.setExchange_hi (s : State) (n : Nat) (x : Exchange) : (State.setExchange s n x).hi = s.hi := rfl
@[simp] theorem State.setExchange_pc (s : State) (n : Nat) (x : Exchange) : (State.setExchange s n x).pc = s.pc := rfl
@[simp] theorem State.setExchange_ft (s : State) (n : Nat) (x : Exchange) : (State.setExchange s n x).ft = s.ft := rfl
@[simp] theorem State.setExchange_tq (s : State) (n : Nat) (x : Exchange) : (State.setExchange s n x).tq = s.tq := rfl
@[simp] theorem State.setExchange_tb (s : State) (n : Nat) (x : Exchange) : (State.setExchange s n x).tb = s.tb := rfl
@[simp] theorem State.setExchange_fh (s : State) (n : Nat) (x : Exchange) : (State.setExchange s n x).fh = s.fh := rfl
@[simp] theorem State.setExchange_ms (s : State) (n : Nat) (x : Exchange) : (State.setExchange s n x).ms = s.ms := rfl
@[simp] theorem State.setExchange_re (s : State) (n : Nat) (x : Exchange) : (State.setExchange s n x).re = s.re := rfl
@[simp] theorem State.setExchange_cl (s : State) (n : Nat) (x : Exchange) : (State.setExchange s n x).cl = s.cl := rfl
@[simp] theorem State.setExchange_oc (s : State) (n : Nat) (x : Exchange) : (State.setExchange s n x).oc = s.oc := rfl
@[simp] theorem State.setExchange_pm (s : State) (n : Nat) (x : Exchange) : (State.setExchange s n x).pm = s.pm := rfl
@[simp] theorem State.setExchange_free (s : State) (n : Nat) (x : Exchange) : (State.setExchange s n x).free = s.free := rfl
@[simp] theorem State.setExchange_out (s : State) (n : Nat) (x : Exchange) : (State.setExchange s n x).out = s.out := rfl
@[simp] theorem State.setExchange_pending (s : State) (n : Nat) (x : Exchange) : (State.setExchange s n x).pending = s.pending := rfl

@[simp] theorem State.setEngine_regs (s : State) (e : Nat) (x : EngineSt) : (State.setEngine s e x).regs = s.regs := rfl
@[simp] theorem State.setEngine_hi (s : State) (e : Nat) (x : EngineSt) : (State.setEngine s e x).hi = s.hi := rfl
@[simp] theorem State.setEngine_bt (s : State) (e : Nat) (x : EngineSt) : (State.setEngine s e x).bt = s.bt := rfl
@[simp] theorem State.setEngine_pc (s : State) (e : Nat) (x : EngineSt) : (State.setEngine s e x).pc = s.pc := rfl
@[simp] theorem State.setEngine_ft (s : State) (e : Nat) (x : EngineSt) : (State.setEngine s e x).ft = s.ft := rfl
@[simp] theorem State.setEngine_tq (s : State) (e : Nat) (x : EngineSt) : (State.setEngine s e x).tq = s.tq := rfl
@[simp] theorem State.setEngine_tb (s : State) (e : Nat) (x : EngineSt) : (State.setEngine s e x).tb = s.tb := rfl
@[simp] theorem State.setEngine_fh (s : State) (e : Nat) (x : EngineSt) : (State.setEngine s e x).fh = s.fh := rfl
@[simp] theorem State.setEngine_ms (s : State) (e : Nat) (x : EngineSt) : (State.setEngine s e x).ms = s.ms := rfl
@[simp] theorem State.setEngine_re (s : State) (e : Nat) (x : EngineSt) : (State.setEngine s e x).re = s.re := rfl
@[simp] theorem State.setEngine_cl (s : State) (e : Nat) (x : EngineSt) : (State.setEngine s e x).cl = s.cl := rfl
@[simp] theorem State.setEngine_pm (s : State) (e : Nat) (x : EngineSt) : (State.setEngine s e x).pm = s.pm := rfl
@[simp] theorem State.setEngine_free (s : State) (e : Nat) (x : EngineSt) : (State.setEngine s e x).free = s.free := rfl
@[simp] theorem State.setEngine_out (s : State) (e : Nat) (x : EngineSt) : (State.setEngine s e x).out = s.out := rfl
@[simp] theorem State.setEngine_pending (s : State) (e : Nat) (x : EngineSt) : (State.setEngine s e x).pending = s.pending := rfl

@[simp] theorem State.setRingSt_regs (s : State) (k : Nat) (r : RingSt) : (State.setRingSt s k r).regs = s.regs := rfl
@[simp] theorem State.setRingSt_hi (s : State) (k : Nat) (r : RingSt) : (State.setRingSt s k r).hi = s.hi := rfl
@[simp] theorem State.setRingSt_bt (s : State) (k : Nat) (r : RingSt) : (State.setRingSt s k r).bt = s.bt := rfl
@[simp] theorem State.setRingSt_pc (s : State) (k : Nat) (r : RingSt) : (State.setRingSt s k r).pc = s.pc := rfl
@[simp] theorem State.setRingSt_ft (s : State) (k : Nat) (r : RingSt) : (State.setRingSt s k r).ft = s.ft := rfl
@[simp] theorem State.setRingSt_tq (s : State) (k : Nat) (r : RingSt) : (State.setRingSt s k r).tq = s.tq := rfl
@[simp] theorem State.setRingSt_tb (s : State) (k : Nat) (r : RingSt) : (State.setRingSt s k r).tb = s.tb := rfl
@[simp] theorem State.setRingSt_fh (s : State) (k : Nat) (r : RingSt) : (State.setRingSt s k r).fh = s.fh := rfl
@[simp] theorem State.setRingSt_ms (s : State) (k : Nat) (r : RingSt) : (State.setRingSt s k r).ms = s.ms := rfl
@[simp] theorem State.setRingSt_re (s : State) (k : Nat) (r : RingSt) : (State.setRingSt s k r).re = s.re := rfl
@[simp] theorem State.setRingSt_cl (s : State) (k : Nat) (r : RingSt) : (State.setRingSt s k r).cl = s.cl := rfl
@[simp] theorem State.setRingSt_pm (s : State) (k : Nat) (r : RingSt) : (State.setRingSt s k r).pm = s.pm := rfl
@[simp] theorem State.setRingSt_free (s : State) (k : Nat) (r : RingSt) : (State.setRingSt s k r).free = s.free := rfl
@[simp] theorem State.setRingSt_out (s : State) (k : Nat) (r : RingSt) : (State.setRingSt s k r).out = s.out := rfl
@[simp] theorem State.setRingSt_pending (s : State) (k : Nat) (r : RingSt) : (State.setRingSt s k r).pending = s.pending := rfl

@[simp] theorem State.setMove_regs (s : State) (f : Nat) (m : Move) : (State.setMove s f m).regs = s.regs := rfl
@[simp] theorem State.setMove_hi (s : State) (f : Nat) (m : Move) : (State.setMove s f m).hi = s.hi := rfl
@[simp] theorem State.setMove_bt (s : State) (f : Nat) (m : Move) : (State.setMove s f m).bt = s.bt := rfl
@[simp] theorem State.setMove_pc (s : State) (f : Nat) (m : Move) : (State.setMove s f m).pc = s.pc := rfl
@[simp] theorem State.setMove_ft (s : State) (f : Nat) (m : Move) : (State.setMove s f m).ft = s.ft := rfl
@[simp] theorem State.setMove_tq (s : State) (f : Nat) (m : Move) : (State.setMove s f m).tq = s.tq := rfl
@[simp] theorem State.setMove_tb (s : State) (f : Nat) (m : Move) : (State.setMove s f m).tb = s.tb := rfl
@[simp] theorem State.setMove_fh (s : State) (f : Nat) (m : Move) : (State.setMove s f m).fh = s.fh := rfl
@[simp] theorem State.setMove_ms (s : State) (f : Nat) (m : Move) : (State.setMove s f m).ms = s.ms := rfl
@[simp] theorem State.setMove_re (s : State) (f : Nat) (m : Move) : (State.setMove s f m).re = s.re := rfl
@[simp] theorem State.setMove_cl (s : State) (f : Nat) (m : Move) : (State.setMove s f m).cl = s.cl := rfl
@[simp] theorem State.setMove_pm (s : State) (f : Nat) (m : Move) : (State.setMove s f m).pm = s.pm := rfl
@[simp] theorem State.setMove_free (s : State) (f : Nat) (m : Move) : (State.setMove s f m).free = s.free := rfl
@[simp] theorem State.setMove_out (s : State) (f : Nat) (m : Move) : (State.setMove s f m).out = s.out := rfl
@[simp] theorem State.setMove_pending (s : State) (f : Nat) (m : Move) : (State.setMove s f m).pending = s.pending := rfl

@[simp] theorem State.dropMove_regs (s : State) (f : Nat) : (State.dropMove s f).regs = s.regs := rfl
@[simp] theorem State.dropMove_hi (s : State) (f : Nat) : (State.dropMove s f).hi = s.hi := rfl
@[simp] theorem State.dropMove_bt (s : State) (f : Nat) : (State.dropMove s f).bt = s.bt := rfl
@[simp] theorem State.dropMove_pc (s : State) (f : Nat) : (State.dropMove s f).pc = s.pc := rfl
@[simp] theorem State.dropMove_ft (s : State) (f : Nat) : (State.dropMove s f).ft = s.ft := rfl
@[simp] theorem State.dropMove_tq (s : State) (f : Nat) : (State.dropMove s f).tq = s.tq := rfl
@[simp] theorem State.dropMove_tb (s : State) (f : Nat) : (State.dropMove s f).tb = s.tb := rfl
@[simp] theorem State.dropMove_fh (s : State) (f : Nat) : (State.dropMove s f).fh = s.fh := rfl
@[simp] theorem State.dropMove_ms (s : State) (f : Nat) : (State.dropMove s f).ms = s.ms := rfl
@[simp] theorem State.dropMove_re (s : State) (f : Nat) : (State.dropMove s f).re = s.re := rfl
@[simp] theorem State.dropMove_cl (s : State) (f : Nat) : (State.dropMove s f).cl = s.cl := rfl
@[simp] theorem State.dropMove_pm (s : State) (f : Nat) : (State.dropMove s f).pm = s.pm := rfl
@[simp] theorem State.dropMove_free (s : State) (f : Nat) : (State.dropMove s f).free = s.free := rfl
@[simp] theorem State.dropMove_out (s : State) (f : Nat) : (State.dropMove s f).out = s.out := rfl
@[simp] theorem State.dropMove_pending (s : State) (f : Nat) : (State.dropMove s f).pending = s.pending := rfl

@[simp] theorem State.setCircuit_regs (s : State) (k : Nat) (c : Circuit) : (State.setCircuit s k c).regs = s.regs := rfl
@[simp] theorem State.setCircuit_hi (s : State) (k : Nat) (c : Circuit) : (State.setCircuit s k c).hi = s.hi := rfl
@[simp] theorem State.setCircuit_bt (s : State) (k : Nat) (c : Circuit) : (State.setCircuit s k c).bt = s.bt := rfl
@[simp] theorem State.setCircuit_pc (s : State) (k : Nat) (c : Circuit) : (State.setCircuit s k c).pc = s.pc := rfl
@[simp] theorem State.setCircuit_ft (s : State) (k : Nat) (c : Circuit) : (State.setCircuit s k c).ft = s.ft := rfl
@[simp] theorem State.setCircuit_tq (s : State) (k : Nat) (c : Circuit) : (State.setCircuit s k c).tq = s.tq := rfl
@[simp] theorem State.setCircuit_tb (s : State) (k : Nat) (c : Circuit) : (State.setCircuit s k c).tb = s.tb := rfl
@[simp] theorem State.setCircuit_fh (s : State) (k : Nat) (c : Circuit) : (State.setCircuit s k c).fh = s.fh := rfl
@[simp] theorem State.setCircuit_ms (s : State) (k : Nat) (c : Circuit) : (State.setCircuit s k c).ms = s.ms := rfl
@[simp] theorem State.setCircuit_re (s : State) (k : Nat) (c : Circuit) : (State.setCircuit s k c).re = s.re := rfl
@[simp] theorem State.setCircuit_cl (s : State) (k : Nat) (c : Circuit) : (State.setCircuit s k c).cl = s.cl := rfl
@[simp] theorem State.setCircuit_pm (s : State) (k : Nat) (c : Circuit) : (State.setCircuit s k c).pm = s.pm := rfl
@[simp] theorem State.setCircuit_free (s : State) (k : Nat) (c : Circuit) : (State.setCircuit s k c).free = s.free := rfl
@[simp] theorem State.setCircuit_out (s : State) (k : Nat) (c : Circuit) : (State.setCircuit s k c).out = s.out := rfl
@[simp] theorem State.setCircuit_pending (s : State) (k : Nat) (c : Circuit) : (State.setCircuit s k c).pending = s.pending := rfl

@[simp] theorem State.setPair_regs (s : State) (k : Nat) (p : Pair) : (State.setPair s k p).regs = s.regs := rfl
@[simp] theorem State.setPair_hi (s : State) (k : Nat) (p : Pair) : (State.setPair s k p).hi = s.hi := rfl
@[simp] theorem State.setPair_bt (s : State) (k : Nat) (p : Pair) : (State.setPair s k p).bt = s.bt := rfl
@[simp] theorem State.setPair_pc (s : State) (k : Nat) (p : Pair) : (State.setPair s k p).pc = s.pc := rfl
@[simp] theorem State.setPair_ft (s : State) (k : Nat) (p : Pair) : (State.setPair s k p).ft = s.ft := rfl
@[simp] theorem State.setPair_tq (s : State) (k : Nat) (p : Pair) : (State.setPair s k p).tq = s.tq := rfl
@[simp] theorem State.setPair_tb (s : State) (k : Nat) (p : Pair) : (State.setPair s k p).tb = s.tb := rfl
@[simp] theorem State.setPair_fh (s : State) (k : Nat) (p : Pair) : (State.setPair s k p).fh = s.fh := rfl
@[simp] theorem State.setPair_ms (s : State) (k : Nat) (p : Pair) : (State.setPair s k p).ms = s.ms := rfl
@[simp] theorem State.setPair_re (s : State) (k : Nat) (p : Pair) : (State.setPair s k p).re = s.re := rfl
@[simp] theorem State.setPair_cl (s : State) (k : Nat) (p : Pair) : (State.setPair s k p).cl = s.cl := rfl
@[simp] theorem State.setPair_pm (s : State) (k : Nat) (p : Pair) : (State.setPair s k p).pm = s.pm := rfl
@[simp] theorem State.setPair_free (s : State) (k : Nat) (p : Pair) : (State.setPair s k p).free = s.free := rfl
@[simp] theorem State.setPair_out (s : State) (k : Nat) (p : Pair) : (State.setPair s k p).out = s.out := rfl
@[simp] theorem State.setPair_pending (s : State) (k : Nat) (p : Pair) : (State.setPair s k p).pending = s.pending := rfl

@[simp] theorem State.setGate_regs (s : State) (k : Nat) (g : GateSt) : (State.setGate s k g).regs = s.regs := rfl
@[simp] theorem State.setGate_hi (s : State) (k : Nat) (g : GateSt) : (State.setGate s k g).hi = s.hi := rfl
@[simp] theorem State.setGate_bt (s : State) (k : Nat) (g : GateSt) : (State.setGate s k g).bt = s.bt := rfl
@[simp] theorem State.setGate_pc (s : State) (k : Nat) (g : GateSt) : (State.setGate s k g).pc = s.pc := rfl
@[simp] theorem State.setGate_ft (s : State) (k : Nat) (g : GateSt) : (State.setGate s k g).ft = s.ft := rfl
@[simp] theorem State.setGate_tb (s : State) (k : Nat) (g : GateSt) : (State.setGate s k g).tb = s.tb := rfl
@[simp] theorem State.setGate_fh (s : State) (k : Nat) (g : GateSt) : (State.setGate s k g).fh = s.fh := rfl
@[simp] theorem State.setGate_ms (s : State) (k : Nat) (g : GateSt) : (State.setGate s k g).ms = s.ms := rfl
@[simp] theorem State.setGate_re (s : State) (k : Nat) (g : GateSt) : (State.setGate s k g).re = s.re := rfl
@[simp] theorem State.setGate_cl (s : State) (k : Nat) (g : GateSt) : (State.setGate s k g).cl = s.cl := rfl
@[simp] theorem State.setGate_oc (s : State) (k : Nat) (g : GateSt) : (State.setGate s k g).oc = s.oc := rfl
@[simp] theorem State.setGate_pm (s : State) (k : Nat) (g : GateSt) : (State.setGate s k g).pm = s.pm := rfl
@[simp] theorem State.setGate_free (s : State) (k : Nat) (g : GateSt) : (State.setGate s k g).free = s.free := rfl
@[simp] theorem State.setGate_out (s : State) (k : Nat) (g : GateSt) : (State.setGate s k g).out = s.out := rfl
@[simp] theorem State.setGate_pending (s : State) (k : Nat) (g : GateSt) : (State.setGate s k g).pending = s.pending := rfl

@[simp] theorem State.modStack_regs (s : State) (h : Nat) (f : Stack → Stack) : (State.modStack s h f).regs = s.regs := rfl
@[simp] theorem State.modStack_hi (s : State) (h : Nat) (f : Stack → Stack) : (State.modStack s h f).hi = s.hi := rfl
@[simp] theorem State.modStack_bt (s : State) (h : Nat) (f : Stack → Stack) : (State.modStack s h f).bt = s.bt := rfl
@[simp] theorem State.modStack_pc (s : State) (h : Nat) (f : Stack → Stack) : (State.modStack s h f).pc = s.pc := rfl
@[simp] theorem State.modStack_ft (s : State) (h : Nat) (f : Stack → Stack) : (State.modStack s h f).ft = s.ft := rfl
@[simp] theorem State.modStack_tq (s : State) (h : Nat) (f : Stack → Stack) : (State.modStack s h f).tq = s.tq := rfl
@[simp] theorem State.modStack_tb (s : State) (h : Nat) (f : Stack → Stack) : (State.modStack s h f).tb = s.tb := rfl
@[simp] theorem State.modStack_fh (s : State) (h : Nat) (f : Stack → Stack) : (State.modStack s h f).fh = s.fh := rfl
@[simp] theorem State.modStack_re (s : State) (h : Nat) (f : Stack → Stack) : (State.modStack s h f).re = s.re := rfl
@[simp] theorem State.modStack_cl (s : State) (h : Nat) (f : Stack → Stack) : (State.modStack s h f).cl = s.cl := rfl
@[simp] theorem State.modStack_oc (s : State) (h : Nat) (f : Stack → Stack) : (State.modStack s h f).oc = s.oc := rfl
@[simp] theorem State.modStack_pm (s : State) (h : Nat) (f : Stack → Stack) : (State.modStack s h f).pm = s.pm := rfl
@[simp] theorem State.modStack_free (s : State) (h : Nat) (f : Stack → Stack) : (State.modStack s h f).free = s.free := rfl
@[simp] theorem State.modStack_out (s : State) (h : Nat) (f : Stack → Stack) : (State.modStack s h f).out = s.out := rfl
@[simp] theorem State.modStack_pending (s : State) (h : Nat) (f : Stack → Stack) : (State.modStack s h f).pending = s.pending := rfl

@[simp] theorem State.readable_regs (s : State) (t : Nat) : (State.readable s t).regs = s.regs := rfl
@[simp] theorem State.readable_hi (s : State) (t : Nat) : (State.readable s t).hi = s.hi := rfl
@[simp] theorem State.readable_bt (s : State) (t : Nat) : (State.readable s t).bt = s.bt := rfl
@[simp] theorem State.readable_pc (s : State) (t : Nat) : (State.readable s t).pc = s.pc := rfl
@[simp] theorem State.readable_ft (s : State) (t : Nat) : (State.readable s t).ft = s.ft := rfl
@[simp] theorem State.readable_tq (s : State) (t : Nat) : (State.readable s t).tq = s.tq := rfl
@[simp] theorem State.readable_tb (s : State) (t : Nat) : (State.readable s t).tb = s.tb := rfl
@[simp] theorem State.readable_fh (s : State) (t : Nat) : (State.readable s t).fh = s.fh := rfl
@[simp] theorem State.readable_re (s : State) (t : Nat) : (State.readable s t).re = s.re := rfl
@[simp] theorem State.readable_cl (s : State) (t : Nat) : (State.readable s t).cl = s.cl := rfl
@[simp] theorem State.readable_oc (s : State) (t : Nat) : (State.readable s t).oc = s.oc := rfl
@[simp] theorem State.readable_pm (s : State) (t : Nat) : (State.readable s t).pm = s.pm := rfl
@[simp] theorem State.readable_free (s : State) (t : Nat) : (State.readable s t).free = s.free := rfl
@[simp] theorem State.readable_out (s : State) (t : Nat) : (State.readable s t).out = s.out := rfl
@[simp] theorem State.readable_pending (s : State) (t : Nat) : (State.readable s t).pending = s.pending := rfl

@[simp] theorem State.setRing_regs (s : State) (n : Nat) (r : Ring) : (State.setRing s n r).regs = s.regs := rfl
@[simp] theorem State.setRing_bt (s : State) (n : Nat) (r : Ring) : (State.setRing s n r).bt = s.bt := rfl
@[simp] theorem State.setRing_pc (s : State) (n : Nat) (r : Ring) : (State.setRing s n r).pc = s.pc := rfl
@[simp] theorem State.setRing_ft (s : State) (n : Nat) (r : Ring) : (State.setRing s n r).ft = s.ft := rfl
@[simp] theorem State.setRing_tq (s : State) (n : Nat) (r : Ring) : (State.setRing s n r).tq = s.tq := rfl
@[simp] theorem State.setRing_tb (s : State) (n : Nat) (r : Ring) : (State.setRing s n r).tb = s.tb := rfl
@[simp] theorem State.setRing_fh (s : State) (n : Nat) (r : Ring) : (State.setRing s n r).fh = s.fh := rfl
@[simp] theorem State.setRing_ms (s : State) (n : Nat) (r : Ring) : (State.setRing s n r).ms = s.ms := rfl
@[simp] theorem State.setRing_re (s : State) (n : Nat) (r : Ring) : (State.setRing s n r).re = s.re := rfl
@[simp] theorem State.setRing_cl (s : State) (n : Nat) (r : Ring) : (State.setRing s n r).cl = s.cl := rfl
@[simp] theorem State.setRing_oc (s : State) (n : Nat) (r : Ring) : (State.setRing s n r).oc = s.oc := rfl
@[simp] theorem State.setRing_pm (s : State) (n : Nat) (r : Ring) : (State.setRing s n r).pm = s.pm := rfl
@[simp] theorem State.setRing_free (s : State) (n : Nat) (r : Ring) : (State.setRing s n r).free = s.free := rfl
@[simp] theorem State.setRing_out (s : State) (n : Nat) (r : Ring) : (State.setRing s n r).out = s.out := rfl
@[simp] theorem State.setRing_pending (s : State) (n : Nat) (r : Ring) : (State.setRing s n r).pending = s.pending := rfl

@[simp] theorem State.dropDesc_regs (s : State) (d : Desc) : (State.dropDesc s d).regs = s.regs := rfl
@[simp] theorem State.dropDesc_bt (s : State) (d : Desc) : (State.dropDesc s d).bt = s.bt := rfl
@[simp] theorem State.dropDesc_pc (s : State) (d : Desc) : (State.dropDesc s d).pc = s.pc := rfl
@[simp] theorem State.dropDesc_ft (s : State) (d : Desc) : (State.dropDesc s d).ft = s.ft := rfl
@[simp] theorem State.dropDesc_tq (s : State) (d : Desc) : (State.dropDesc s d).tq = s.tq := rfl
@[simp] theorem State.dropDesc_tb (s : State) (d : Desc) : (State.dropDesc s d).tb = s.tb := rfl
@[simp] theorem State.dropDesc_fh (s : State) (d : Desc) : (State.dropDesc s d).fh = s.fh := rfl
@[simp] theorem State.dropDesc_ms (s : State) (d : Desc) : (State.dropDesc s d).ms = s.ms := rfl
@[simp] theorem State.dropDesc_re (s : State) (d : Desc) : (State.dropDesc s d).re = s.re := rfl
@[simp] theorem State.dropDesc_cl (s : State) (d : Desc) : (State.dropDesc s d).cl = s.cl := rfl
@[simp] theorem State.dropDesc_oc (s : State) (d : Desc) : (State.dropDesc s d).oc = s.oc := rfl
@[simp] theorem State.dropDesc_pm (s : State) (d : Desc) : (State.dropDesc s d).pm = s.pm := rfl
@[simp] theorem State.dropDesc_free (s : State) (d : Desc) : (State.dropDesc s d).free = s.free := rfl
@[simp] theorem State.dropDesc_out (s : State) (d : Desc) : (State.dropDesc s d).out = s.out := rfl
@[simp] theorem State.dropDesc_pending (s : State) (d : Desc) : (State.dropDesc s d).pending = s.pending := rfl

@[simp] theorem State.noteChange_regs (s : State) (sel : Nat) : (State.noteChange s sel).regs = s.regs := rfl
@[simp] theorem State.noteChange_hi (s : State) (sel : Nat) : (State.noteChange s sel).hi = s.hi := rfl
@[simp] theorem State.noteChange_bt (s : State) (sel : Nat) : (State.noteChange s sel).bt = s.bt := rfl
@[simp] theorem State.noteChange_pc (s : State) (sel : Nat) : (State.noteChange s sel).pc = s.pc := rfl
@[simp] theorem State.noteChange_tq (s : State) (sel : Nat) : (State.noteChange s sel).tq = s.tq := rfl
@[simp] theorem State.noteChange_tb (s : State) (sel : Nat) : (State.noteChange s sel).tb = s.tb := rfl
@[simp] theorem State.noteChange_fh (s : State) (sel : Nat) : (State.noteChange s sel).fh = s.fh := rfl
@[simp] theorem State.noteChange_ms (s : State) (sel : Nat) : (State.noteChange s sel).ms = s.ms := rfl
@[simp] theorem State.noteChange_re (s : State) (sel : Nat) : (State.noteChange s sel).re = s.re := rfl
@[simp] theorem State.noteChange_cl (s : State) (sel : Nat) : (State.noteChange s sel).cl = s.cl := rfl
@[simp] theorem State.noteChange_oc (s : State) (sel : Nat) : (State.noteChange s sel).oc = s.oc := rfl
@[simp] theorem State.noteChange_pm (s : State) (sel : Nat) : (State.noteChange s sel).pm = s.pm := rfl
@[simp] theorem State.noteChange_free (s : State) (sel : Nat) : (State.noteChange s sel).free = s.free := rfl
@[simp] theorem State.noteChange_out (s : State) (sel : Nat) : (State.noteChange s sel).out = s.out := rfl
@[simp] theorem State.noteChange_pending (s : State) (sel : Nat) : (State.noteChange s sel).pending = s.pending := rfl

@[simp] theorem State.setTile_regs (s : State) (t : Nat) (x : TileSt) : (State.setTile s t x).regs = s.regs := rfl
@[simp] theorem State.setTile_hi (s : State) (t : Nat) (x : TileSt) : (State.setTile s t x).hi = s.hi := rfl
@[simp] theorem State.setTile_bt (s : State) (t : Nat) (x : TileSt) : (State.setTile s t x).bt = s.bt := rfl
@[simp] theorem State.setTile_pc (s : State) (t : Nat) (x : TileSt) : (State.setTile s t x).pc = s.pc := rfl
@[simp] theorem State.setTile_ft (s : State) (t : Nat) (x : TileSt) : (State.setTile s t x).ft = s.ft := rfl
@[simp] theorem State.setTile_tq (s : State) (t : Nat) (x : TileSt) : (State.setTile s t x).tq = s.tq := rfl
@[simp] theorem State.setTile_tb (s : State) (t : Nat) (x : TileSt) : (State.setTile s t x).tb = s.tb := rfl
@[simp] theorem State.setTile_fh (s : State) (t : Nat) (x : TileSt) : (State.setTile s t x).fh = s.fh := rfl
@[simp] theorem State.setTile_ms (s : State) (t : Nat) (x : TileSt) : (State.setTile s t x).ms = s.ms := rfl
@[simp] theorem State.setTile_cl (s : State) (t : Nat) (x : TileSt) : (State.setTile s t x).cl = s.cl := rfl
@[simp] theorem State.setTile_oc (s : State) (t : Nat) (x : TileSt) : (State.setTile s t x).oc = s.oc := rfl
@[simp] theorem State.setTile_pm (s : State) (t : Nat) (x : TileSt) : (State.setTile s t x).pm = s.pm := rfl
@[simp] theorem State.setTile_free (s : State) (t : Nat) (x : TileSt) : (State.setTile s t x).free = s.free := rfl
@[simp] theorem State.setTile_out (s : State) (t : Nat) (x : TileSt) : (State.setTile s t x).out = s.out := rfl
@[simp] theorem State.setTile_pending (s : State) (t : Nat) (x : TileSt) : (State.setTile s t x).pending = s.pending := rfl

@[simp] theorem State.setMslot_regs (s : State) (k : Nat) (x : SlotSt) : (State.setMslot s k x).regs = s.regs := rfl
@[simp] theorem State.setMslot_hi (s : State) (k : Nat) (x : SlotSt) : (State.setMslot s k x).hi = s.hi := rfl
@[simp] theorem State.setMslot_bt (s : State) (k : Nat) (x : SlotSt) : (State.setMslot s k x).bt = s.bt := rfl
@[simp] theorem State.setMslot_pc (s : State) (k : Nat) (x : SlotSt) : (State.setMslot s k x).pc = s.pc := rfl
@[simp] theorem State.setMslot_ft (s : State) (k : Nat) (x : SlotSt) : (State.setMslot s k x).ft = s.ft := rfl
@[simp] theorem State.setMslot_tq (s : State) (k : Nat) (x : SlotSt) : (State.setMslot s k x).tq = s.tq := rfl
@[simp] theorem State.setMslot_tb (s : State) (k : Nat) (x : SlotSt) : (State.setMslot s k x).tb = s.tb := rfl
@[simp] theorem State.setMslot_fh (s : State) (k : Nat) (x : SlotSt) : (State.setMslot s k x).fh = s.fh := rfl
@[simp] theorem State.setMslot_ms (s : State) (k : Nat) (x : SlotSt) : (State.setMslot s k x).ms = s.ms := rfl
@[simp] theorem State.setMslot_cl (s : State) (k : Nat) (x : SlotSt) : (State.setMslot s k x).cl = s.cl := rfl
@[simp] theorem State.setMslot_oc (s : State) (k : Nat) (x : SlotSt) : (State.setMslot s k x).oc = s.oc := rfl
@[simp] theorem State.setMslot_pm (s : State) (k : Nat) (x : SlotSt) : (State.setMslot s k x).pm = s.pm := rfl
@[simp] theorem State.setMslot_free (s : State) (k : Nat) (x : SlotSt) : (State.setMslot s k x).free = s.free := rfl
@[simp] theorem State.setMslot_out (s : State) (k : Nat) (x : SlotSt) : (State.setMslot s k x).out = s.out := rfl
@[simp] theorem State.setMslot_pending (s : State) (k : Nat) (x : SlotSt) : (State.setMslot s k x).pending = s.pending := rfl

@[simp] theorem State.setGroup_regs (s : State) (i : Nat) (g : GroupSt) : (State.setGroup s i g).regs = s.regs := rfl
@[simp] theorem State.setGroup_hi (s : State) (i : Nat) (g : GroupSt) : (State.setGroup s i g).hi = s.hi := rfl
@[simp] theorem State.setGroup_bt (s : State) (i : Nat) (g : GroupSt) : (State.setGroup s i g).bt = s.bt := rfl
@[simp] theorem State.setGroup_pc (s : State) (i : Nat) (g : GroupSt) : (State.setGroup s i g).pc = s.pc := rfl
@[simp] theorem State.setGroup_ft (s : State) (i : Nat) (g : GroupSt) : (State.setGroup s i g).ft = s.ft := rfl
@[simp] theorem State.setGroup_tq (s : State) (i : Nat) (g : GroupSt) : (State.setGroup s i g).tq = s.tq := rfl
@[simp] theorem State.setGroup_tb (s : State) (i : Nat) (g : GroupSt) : (State.setGroup s i g).tb = s.tb := rfl
@[simp] theorem State.setGroup_fh (s : State) (i : Nat) (g : GroupSt) : (State.setGroup s i g).fh = s.fh := rfl
@[simp] theorem State.setGroup_ms (s : State) (i : Nat) (g : GroupSt) : (State.setGroup s i g).ms = s.ms := rfl
@[simp] theorem State.setGroup_re (s : State) (i : Nat) (g : GroupSt) : (State.setGroup s i g).re = s.re := rfl
@[simp] theorem State.setGroup_oc (s : State) (i : Nat) (g : GroupSt) : (State.setGroup s i g).oc = s.oc := rfl
@[simp] theorem State.setGroup_pm (s : State) (i : Nat) (g : GroupSt) : (State.setGroup s i g).pm = s.pm := rfl
@[simp] theorem State.setGroup_free (s : State) (i : Nat) (g : GroupSt) : (State.setGroup s i g).free = s.free := rfl
@[simp] theorem State.setGroup_out (s : State) (i : Nat) (g : GroupSt) : (State.setGroup s i g).out = s.out := rfl
@[simp] theorem State.setGroup_pending (s : State) (i : Nat) (g : GroupSt) : (State.setGroup s i g).pending = s.pending := rfl

@[simp] theorem State.setInflight_regs (s : State) (n : Nat) (x : Inflight) : (State.setInflight s n x).regs = s.regs := rfl
@[simp] theorem State.setInflight_hi (s : State) (n : Nat) (x : Inflight) : (State.setInflight s n x).hi = s.hi := rfl
@[simp] theorem State.setInflight_bt (s : State) (n : Nat) (x : Inflight) : (State.setInflight s n x).bt = s.bt := rfl
@[simp] theorem State.setInflight_pc (s : State) (n : Nat) (x : Inflight) : (State.setInflight s n x).pc = s.pc := rfl
@[simp] theorem State.setInflight_ft (s : State) (n : Nat) (x : Inflight) : (State.setInflight s n x).ft = s.ft := rfl
@[simp] theorem State.setInflight_tq (s : State) (n : Nat) (x : Inflight) : (State.setInflight s n x).tq = s.tq := rfl
@[simp] theorem State.setInflight_tb (s : State) (n : Nat) (x : Inflight) : (State.setInflight s n x).tb = s.tb := rfl
@[simp] theorem State.setInflight_fh (s : State) (n : Nat) (x : Inflight) : (State.setInflight s n x).fh = s.fh := rfl
@[simp] theorem State.setInflight_ms (s : State) (n : Nat) (x : Inflight) : (State.setInflight s n x).ms = s.ms := rfl
@[simp] theorem State.setInflight_re (s : State) (n : Nat) (x : Inflight) : (State.setInflight s n x).re = s.re := rfl
@[simp] theorem State.setInflight_oc (s : State) (n : Nat) (x : Inflight) : (State.setInflight s n x).oc = s.oc := rfl
@[simp] theorem State.setInflight_pm (s : State) (n : Nat) (x : Inflight) : (State.setInflight s n x).pm = s.pm := rfl
@[simp] theorem State.setInflight_free (s : State) (n : Nat) (x : Inflight) : (State.setInflight s n x).free = s.free := rfl
@[simp] theorem State.setInflight_out (s : State) (n : Nat) (x : Inflight) : (State.setInflight s n x).out = s.out := rfl
@[simp] theorem State.setInflight_pending (s : State) (n : Nat) (x : Inflight) : (State.setInflight s n x).pending = s.pending := rfl

@[simp] theorem State.clearInflight_regs (s : State) (n : Nat) : (State.clearInflight s n).regs = s.regs := rfl
@[simp] theorem State.clearInflight_hi (s : State) (n : Nat) : (State.clearInflight s n).hi = s.hi := rfl
@[simp] theorem State.clearInflight_bt (s : State) (n : Nat) : (State.clearInflight s n).bt = s.bt := rfl
@[simp] theorem State.clearInflight_pc (s : State) (n : Nat) : (State.clearInflight s n).pc = s.pc := rfl
@[simp] theorem State.clearInflight_ft (s : State) (n : Nat) : (State.clearInflight s n).ft = s.ft := rfl
@[simp] theorem State.clearInflight_tq (s : State) (n : Nat) : (State.clearInflight s n).tq = s.tq := rfl
@[simp] theorem State.clearInflight_tb (s : State) (n : Nat) : (State.clearInflight s n).tb = s.tb := rfl
@[simp] theorem State.clearInflight_fh (s : State) (n : Nat) : (State.clearInflight s n).fh = s.fh := rfl
@[simp] theorem State.clearInflight_ms (s : State) (n : Nat) : (State.clearInflight s n).ms = s.ms := rfl
@[simp] theorem State.clearInflight_re (s : State) (n : Nat) : (State.clearInflight s n).re = s.re := rfl
@[simp] theorem State.clearInflight_oc (s : State) (n : Nat) : (State.clearInflight s n).oc = s.oc := rfl
@[simp] theorem State.clearInflight_pm (s : State) (n : Nat) : (State.clearInflight s n).pm = s.pm := rfl
@[simp] theorem State.clearInflight_free (s : State) (n : Nat) : (State.clearInflight s n).free = s.free := rfl
@[simp] theorem State.clearInflight_out (s : State) (n : Nat) : (State.clearInflight s n).out = s.out := rfl
@[simp] theorem State.clearInflight_pending (s : State) (n : Nat) : (State.clearInflight s n).pending = s.pending := rfl

@[simp] theorem State.setLpmUnit_regs (s : State) (u : Nat) (img : List Byte) : (State.setLpmUnit s u img).regs = s.regs := rfl
@[simp] theorem State.setLpmUnit_hi (s : State) (u : Nat) (img : List Byte) : (State.setLpmUnit s u img).hi = s.hi := rfl
@[simp] theorem State.setLpmUnit_bt (s : State) (u : Nat) (img : List Byte) : (State.setLpmUnit s u img).bt = s.bt := rfl
@[simp] theorem State.setLpmUnit_pc (s : State) (u : Nat) (img : List Byte) : (State.setLpmUnit s u img).pc = s.pc := rfl
@[simp] theorem State.setLpmUnit_tq (s : State) (u : Nat) (img : List Byte) : (State.setLpmUnit s u img).tq = s.tq := rfl
@[simp] theorem State.setLpmUnit_tb (s : State) (u : Nat) (img : List Byte) : (State.setLpmUnit s u img).tb = s.tb := rfl
@[simp] theorem State.setLpmUnit_fh (s : State) (u : Nat) (img : List Byte) : (State.setLpmUnit s u img).fh = s.fh := rfl
@[simp] theorem State.setLpmUnit_ms (s : State) (u : Nat) (img : List Byte) : (State.setLpmUnit s u img).ms = s.ms := rfl
@[simp] theorem State.setLpmUnit_re (s : State) (u : Nat) (img : List Byte) : (State.setLpmUnit s u img).re = s.re := rfl
@[simp] theorem State.setLpmUnit_cl (s : State) (u : Nat) (img : List Byte) : (State.setLpmUnit s u img).cl = s.cl := rfl
@[simp] theorem State.setLpmUnit_oc (s : State) (u : Nat) (img : List Byte) : (State.setLpmUnit s u img).oc = s.oc := rfl
@[simp] theorem State.setLpmUnit_pm (s : State) (u : Nat) (img : List Byte) : (State.setLpmUnit s u img).pm = s.pm := rfl
@[simp] theorem State.setLpmUnit_free (s : State) (u : Nat) (img : List Byte) : (State.setLpmUnit s u img).free = s.free := rfl
@[simp] theorem State.setLpmUnit_out (s : State) (u : Nat) (img : List Byte) : (State.setLpmUnit s u img).out = s.out := rfl
@[simp] theorem State.setLpmUnit_pending (s : State) (u : Nat) (img : List Byte) : (State.setLpmUnit s u img).pending = s.pending := rfl

@[simp] theorem State.setFlows_regs (s : State) (p : Nat) (l : List (Nat × Flow)) : (State.setFlows s p l).regs = s.regs := rfl
@[simp] theorem State.setFlows_hi (s : State) (p : Nat) (l : List (Nat × Flow)) : (State.setFlows s p l).hi = s.hi := rfl
@[simp] theorem State.setFlows_bt (s : State) (p : Nat) (l : List (Nat × Flow)) : (State.setFlows s p l).bt = s.bt := rfl
@[simp] theorem State.setFlows_pc (s : State) (p : Nat) (l : List (Nat × Flow)) : (State.setFlows s p l).pc = s.pc := rfl
@[simp] theorem State.setFlows_ft (s : State) (p : Nat) (l : List (Nat × Flow)) : (State.setFlows s p l).ft = s.ft := rfl
@[simp] theorem State.setFlows_tq (s : State) (p : Nat) (l : List (Nat × Flow)) : (State.setFlows s p l).tq = s.tq := rfl
@[simp] theorem State.setFlows_tb (s : State) (p : Nat) (l : List (Nat × Flow)) : (State.setFlows s p l).tb = s.tb := rfl
@[simp] theorem State.setFlows_fh (s : State) (p : Nat) (l : List (Nat × Flow)) : (State.setFlows s p l).fh = s.fh := rfl
@[simp] theorem State.setFlows_re (s : State) (p : Nat) (l : List (Nat × Flow)) : (State.setFlows s p l).re = s.re := rfl
@[simp] theorem State.setFlows_cl (s : State) (p : Nat) (l : List (Nat × Flow)) : (State.setFlows s p l).cl = s.cl := rfl
@[simp] theorem State.setFlows_oc (s : State) (p : Nat) (l : List (Nat × Flow)) : (State.setFlows s p l).oc = s.oc := rfl
@[simp] theorem State.setFlows_pm (s : State) (p : Nat) (l : List (Nat × Flow)) : (State.setFlows s p l).pm = s.pm := rfl
@[simp] theorem State.setFlows_free (s : State) (p : Nat) (l : List (Nat × Flow)) : (State.setFlows s p l).free = s.free := rfl
@[simp] theorem State.setFlows_out (s : State) (p : Nat) (l : List (Nat × Flow)) : (State.setFlows s p l).out = s.out := rfl
@[simp] theorem State.setFlows_pending (s : State) (p : Nat) (l : List (Nat × Flow)) : (State.setFlows s p l).pending = s.pending := rfl

@[simp] theorem State.setMooring_regs (s : State) (m : Nat) (v : Mooring) : (State.setMooring s m v).regs = s.regs := rfl
@[simp] theorem State.setMooring_hi (s : State) (m : Nat) (v : Mooring) : (State.setMooring s m v).hi = s.hi := rfl
@[simp] theorem State.setMooring_bt (s : State) (m : Nat) (v : Mooring) : (State.setMooring s m v).bt = s.bt := rfl
@[simp] theorem State.setMooring_pc (s : State) (m : Nat) (v : Mooring) : (State.setMooring s m v).pc = s.pc := rfl
@[simp] theorem State.setMooring_ft (s : State) (m : Nat) (v : Mooring) : (State.setMooring s m v).ft = s.ft := rfl
@[simp] theorem State.setMooring_tq (s : State) (m : Nat) (v : Mooring) : (State.setMooring s m v).tq = s.tq := rfl
@[simp] theorem State.setMooring_tb (s : State) (m : Nat) (v : Mooring) : (State.setMooring s m v).tb = s.tb := rfl
@[simp] theorem State.setMooring_fh (s : State) (m : Nat) (v : Mooring) : (State.setMooring s m v).fh = s.fh := rfl
@[simp] theorem State.setMooring_re (s : State) (m : Nat) (v : Mooring) : (State.setMooring s m v).re = s.re := rfl
@[simp] theorem State.setMooring_cl (s : State) (m : Nat) (v : Mooring) : (State.setMooring s m v).cl = s.cl := rfl
@[simp] theorem State.setMooring_oc (s : State) (m : Nat) (v : Mooring) : (State.setMooring s m v).oc = s.oc := rfl
@[simp] theorem State.setMooring_pm (s : State) (m : Nat) (v : Mooring) : (State.setMooring s m v).pm = s.pm := rfl
@[simp] theorem State.setMooring_free (s : State) (m : Nat) (v : Mooring) : (State.setMooring s m v).free = s.free := rfl
@[simp] theorem State.setMooring_out (s : State) (m : Nat) (v : Mooring) : (State.setMooring s m v).out = s.out := rfl
@[simp] theorem State.setMooring_pending (s : State) (m : Nat) (v : Mooring) : (State.setMooring s m v).pending = s.pending := rfl

@[simp] theorem State.setMeter_regs (s : State) (m : Nat) (v : Meter) : (State.setMeter s m v).regs = s.regs := rfl
@[simp] theorem State.setMeter_hi (s : State) (m : Nat) (v : Meter) : (State.setMeter s m v).hi = s.hi := rfl
@[simp] theorem State.setMeter_bt (s : State) (m : Nat) (v : Meter) : (State.setMeter s m v).bt = s.bt := rfl
@[simp] theorem State.setMeter_pc (s : State) (m : Nat) (v : Meter) : (State.setMeter s m v).pc = s.pc := rfl
@[simp] theorem State.setMeter_ft (s : State) (m : Nat) (v : Meter) : (State.setMeter s m v).ft = s.ft := rfl
@[simp] theorem State.setMeter_tb (s : State) (m : Nat) (v : Meter) : (State.setMeter s m v).tb = s.tb := rfl
@[simp] theorem State.setMeter_fh (s : State) (m : Nat) (v : Meter) : (State.setMeter s m v).fh = s.fh := rfl
@[simp] theorem State.setMeter_ms (s : State) (m : Nat) (v : Meter) : (State.setMeter s m v).ms = s.ms := rfl
@[simp] theorem State.setMeter_re (s : State) (m : Nat) (v : Meter) : (State.setMeter s m v).re = s.re := rfl
@[simp] theorem State.setMeter_cl (s : State) (m : Nat) (v : Meter) : (State.setMeter s m v).cl = s.cl := rfl
@[simp] theorem State.setMeter_oc (s : State) (m : Nat) (v : Meter) : (State.setMeter s m v).oc = s.oc := rfl
@[simp] theorem State.setMeter_pm (s : State) (m : Nat) (v : Meter) : (State.setMeter s m v).pm = s.pm := rfl
@[simp] theorem State.setMeter_free (s : State) (m : Nat) (v : Meter) : (State.setMeter s m v).free = s.free := rfl
@[simp] theorem State.setMeter_out (s : State) (m : Nat) (v : Meter) : (State.setMeter s m v).out = s.out := rfl
@[simp] theorem State.setMeter_pending (s : State) (m : Nat) (v : Meter) : (State.setMeter s m v).pending = s.pending := rfl

@[simp] theorem State.setProfile_regs (s : State) (r : Nat) (p : Nat × Nat × Nat) : (State.setProfile s r p).regs = s.regs := rfl
@[simp] theorem State.setProfile_hi (s : State) (r : Nat) (p : Nat × Nat × Nat) : (State.setProfile s r p).hi = s.hi := rfl
@[simp] theorem State.setProfile_bt (s : State) (r : Nat) (p : Nat × Nat × Nat) : (State.setProfile s r p).bt = s.bt := rfl
@[simp] theorem State.setProfile_pc (s : State) (r : Nat) (p : Nat × Nat × Nat) : (State.setProfile s r p).pc = s.pc := rfl
@[simp] theorem State.setProfile_ft (s : State) (r : Nat) (p : Nat × Nat × Nat) : (State.setProfile s r p).ft = s.ft := rfl
@[simp] theorem State.setProfile_tb (s : State) (r : Nat) (p : Nat × Nat × Nat) : (State.setProfile s r p).tb = s.tb := rfl
@[simp] theorem State.setProfile_fh (s : State) (r : Nat) (p : Nat × Nat × Nat) : (State.setProfile s r p).fh = s.fh := rfl
@[simp] theorem State.setProfile_ms (s : State) (r : Nat) (p : Nat × Nat × Nat) : (State.setProfile s r p).ms = s.ms := rfl
@[simp] theorem State.setProfile_re (s : State) (r : Nat) (p : Nat × Nat × Nat) : (State.setProfile s r p).re = s.re := rfl
@[simp] theorem State.setProfile_cl (s : State) (r : Nat) (p : Nat × Nat × Nat) : (State.setProfile s r p).cl = s.cl := rfl
@[simp] theorem State.setProfile_oc (s : State) (r : Nat) (p : Nat × Nat × Nat) : (State.setProfile s r p).oc = s.oc := rfl
@[simp] theorem State.setProfile_pm (s : State) (r : Nat) (p : Nat × Nat × Nat) : (State.setProfile s r p).pm = s.pm := rfl
@[simp] theorem State.setProfile_free (s : State) (r : Nat) (p : Nat × Nat × Nat) : (State.setProfile s r p).free = s.free := rfl
@[simp] theorem State.setProfile_out (s : State) (r : Nat) (p : Nat × Nat × Nat) : (State.setProfile s r p).out = s.out := rfl
@[simp] theorem State.setProfile_pending (s : State) (r : Nat) (p : Nat × Nat × Nat) : (State.setProfile s r p).pending = s.pending := rfl

@[simp] theorem State.setWord_hi (s : State) (off : Nat) (w : Word) : (State.setWord s off w).hi = s.hi := rfl
@[simp] theorem State.setWord_bt (s : State) (off : Nat) (w : Word) : (State.setWord s off w).bt = s.bt := rfl
@[simp] theorem State.setWord_pc (s : State) (off : Nat) (w : Word) : (State.setWord s off w).pc = s.pc := rfl
@[simp] theorem State.setWord_ft (s : State) (off : Nat) (w : Word) : (State.setWord s off w).ft = s.ft := rfl
@[simp] theorem State.setWord_tq (s : State) (off : Nat) (w : Word) : (State.setWord s off w).tq = s.tq := rfl
@[simp] theorem State.setWord_tb (s : State) (off : Nat) (w : Word) : (State.setWord s off w).tb = s.tb := rfl
@[simp] theorem State.setWord_fh (s : State) (off : Nat) (w : Word) : (State.setWord s off w).fh = s.fh := rfl
@[simp] theorem State.setWord_ms (s : State) (off : Nat) (w : Word) : (State.setWord s off w).ms = s.ms := rfl
@[simp] theorem State.setWord_re (s : State) (off : Nat) (w : Word) : (State.setWord s off w).re = s.re := rfl
@[simp] theorem State.setWord_cl (s : State) (off : Nat) (w : Word) : (State.setWord s off w).cl = s.cl := rfl
@[simp] theorem State.setWord_oc (s : State) (off : Nat) (w : Word) : (State.setWord s off w).oc = s.oc := rfl
@[simp] theorem State.setWord_pm (s : State) (off : Nat) (w : Word) : (State.setWord s off w).pm = s.pm := rfl
@[simp] theorem State.setWord_free (s : State) (off : Nat) (w : Word) : (State.setWord s off w).free = s.free := rfl
@[simp] theorem State.setWord_out (s : State) (off : Nat) (w : Word) : (State.setWord s off w).out = s.out := rfl
@[simp] theorem State.setWord_pending (s : State) (off : Nat) (w : Word) : (State.setWord s off w).pending = s.pending := rfl

@[simp] theorem State.resetRegs_hi (s : State) (lo hi : Nat) : (State.resetRegs s lo hi).hi = s.hi := rfl
@[simp] theorem State.resetRegs_bt (s : State) (lo hi : Nat) : (State.resetRegs s lo hi).bt = s.bt := rfl
@[simp] theorem State.resetRegs_pc (s : State) (lo hi : Nat) : (State.resetRegs s lo hi).pc = s.pc := rfl
@[simp] theorem State.resetRegs_ft (s : State) (lo hi : Nat) : (State.resetRegs s lo hi).ft = s.ft := rfl
@[simp] theorem State.resetRegs_tq (s : State) (lo hi : Nat) : (State.resetRegs s lo hi).tq = s.tq := rfl
@[simp] theorem State.resetRegs_tb (s : State) (lo hi : Nat) : (State.resetRegs s lo hi).tb = s.tb := rfl
@[simp] theorem State.resetRegs_fh (s : State) (lo hi : Nat) : (State.resetRegs s lo hi).fh = s.fh := rfl
@[simp] theorem State.resetRegs_ms (s : State) (lo hi : Nat) : (State.resetRegs s lo hi).ms = s.ms := rfl
@[simp] theorem State.resetRegs_re (s : State) (lo hi : Nat) : (State.resetRegs s lo hi).re = s.re := rfl
@[simp] theorem State.resetRegs_cl (s : State) (lo hi : Nat) : (State.resetRegs s lo hi).cl = s.cl := rfl
@[simp] theorem State.resetRegs_oc (s : State) (lo hi : Nat) : (State.resetRegs s lo hi).oc = s.oc := rfl
@[simp] theorem State.resetRegs_pm (s : State) (lo hi : Nat) : (State.resetRegs s lo hi).pm = s.pm := rfl
@[simp] theorem State.resetRegs_free (s : State) (lo hi : Nat) : (State.resetRegs s lo hi).free = s.free := rfl
@[simp] theorem State.resetRegs_out (s : State) (lo hi : Nat) : (State.resetRegs s lo hi).out = s.out := rfl
@[simp] theorem State.resetRegs_pending (s : State) (lo hi : Nat) : (State.resetRegs s lo hi).pending = s.pending := rfl

@[simp] theorem State.emit_regs (s : State) (o : Out) : (State.emit s o).regs = s.regs := rfl
@[simp] theorem State.emit_hi (s : State) (o : Out) : (State.emit s o).hi = s.hi := rfl
@[simp] theorem State.emit_bt (s : State) (o : Out) : (State.emit s o).bt = s.bt := rfl
@[simp] theorem State.emit_pc (s : State) (o : Out) : (State.emit s o).pc = s.pc := rfl
@[simp] theorem State.emit_ft (s : State) (o : Out) : (State.emit s o).ft = s.ft := rfl
@[simp] theorem State.emit_tq (s : State) (o : Out) : (State.emit s o).tq = s.tq := rfl
@[simp] theorem State.emit_tb (s : State) (o : Out) : (State.emit s o).tb = s.tb := rfl
@[simp] theorem State.emit_fh (s : State) (o : Out) : (State.emit s o).fh = s.fh := rfl
@[simp] theorem State.emit_ms (s : State) (o : Out) : (State.emit s o).ms = s.ms := rfl
@[simp] theorem State.emit_re (s : State) (o : Out) : (State.emit s o).re = s.re := rfl
@[simp] theorem State.emit_cl (s : State) (o : Out) : (State.emit s o).cl = s.cl := rfl
@[simp] theorem State.emit_oc (s : State) (o : Out) : (State.emit s o).oc = s.oc := rfl
@[simp] theorem State.emit_pm (s : State) (o : Out) : (State.emit s o).pm = s.pm := rfl
@[simp] theorem State.emit_free (s : State) (o : Out) : (State.emit s o).free = s.free := rfl
@[simp] theorem State.emit_pending (s : State) (o : Out) : (State.emit s o).pending = s.pending := rfl

@[simp] theorem State.setWindow_regs (s : State) (key : Nat) (w : Nat × Option Event) : (State.setWindow s key w).regs = s.regs := rfl
@[simp] theorem State.setWindow_hi (s : State) (key : Nat) (w : Nat × Option Event) : (State.setWindow s key w).hi = s.hi := rfl
@[simp] theorem State.setWindow_bt (s : State) (key : Nat) (w : Nat × Option Event) : (State.setWindow s key w).bt = s.bt := rfl
@[simp] theorem State.setWindow_pc (s : State) (key : Nat) (w : Nat × Option Event) : (State.setWindow s key w).pc = s.pc := rfl
@[simp] theorem State.setWindow_ft (s : State) (key : Nat) (w : Nat × Option Event) : (State.setWindow s key w).ft = s.ft := rfl
@[simp] theorem State.setWindow_tq (s : State) (key : Nat) (w : Nat × Option Event) : (State.setWindow s key w).tq = s.tq := rfl
@[simp] theorem State.setWindow_tb (s : State) (key : Nat) (w : Nat × Option Event) : (State.setWindow s key w).tb = s.tb := rfl
@[simp] theorem State.setWindow_ms (s : State) (key : Nat) (w : Nat × Option Event) : (State.setWindow s key w).ms = s.ms := rfl
@[simp] theorem State.setWindow_re (s : State) (key : Nat) (w : Nat × Option Event) : (State.setWindow s key w).re = s.re := rfl
@[simp] theorem State.setWindow_cl (s : State) (key : Nat) (w : Nat × Option Event) : (State.setWindow s key w).cl = s.cl := rfl
@[simp] theorem State.setWindow_oc (s : State) (key : Nat) (w : Nat × Option Event) : (State.setWindow s key w).oc = s.oc := rfl
@[simp] theorem State.setWindow_pm (s : State) (key : Nat) (w : Nat × Option Event) : (State.setWindow s key w).pm = s.pm := rfl
@[simp] theorem State.setWindow_free (s : State) (key : Nat) (w : Nat × Option Event) : (State.setWindow s key w).free = s.free := rfl
@[simp] theorem State.setWindow_out (s : State) (key : Nat) (w : Nat × Option Event) : (State.setWindow s key w).out = s.out := rfl
@[simp] theorem State.setWindow_pending (s : State) (key : Nat) (w : Nat × Option Event) : (State.setWindow s key w).pending = s.pending := rfl

@[simp] theorem State.dropWindow_regs (s : State) (key : Nat) : (State.dropWindow s key).regs = s.regs := rfl
@[simp] theorem State.dropWindow_hi (s : State) (key : Nat) : (State.dropWindow s key).hi = s.hi := rfl
@[simp] theorem State.dropWindow_bt (s : State) (key : Nat) : (State.dropWindow s key).bt = s.bt := rfl
@[simp] theorem State.dropWindow_pc (s : State) (key : Nat) : (State.dropWindow s key).pc = s.pc := rfl
@[simp] theorem State.dropWindow_ft (s : State) (key : Nat) : (State.dropWindow s key).ft = s.ft := rfl
@[simp] theorem State.dropWindow_tq (s : State) (key : Nat) : (State.dropWindow s key).tq = s.tq := rfl
@[simp] theorem State.dropWindow_tb (s : State) (key : Nat) : (State.dropWindow s key).tb = s.tb := rfl
@[simp] theorem State.dropWindow_ms (s : State) (key : Nat) : (State.dropWindow s key).ms = s.ms := rfl
@[simp] theorem State.dropWindow_re (s : State) (key : Nat) : (State.dropWindow s key).re = s.re := rfl
@[simp] theorem State.dropWindow_cl (s : State) (key : Nat) : (State.dropWindow s key).cl = s.cl := rfl
@[simp] theorem State.dropWindow_oc (s : State) (key : Nat) : (State.dropWindow s key).oc = s.oc := rfl
@[simp] theorem State.dropWindow_pm (s : State) (key : Nat) : (State.dropWindow s key).pm = s.pm := rfl
@[simp] theorem State.dropWindow_free (s : State) (key : Nat) : (State.dropWindow s key).free = s.free := rfl
@[simp] theorem State.dropWindow_out (s : State) (key : Nat) : (State.dropWindow s key).out = s.out := rfl
@[simp] theorem State.dropWindow_pending (s : State) (key : Nat) : (State.dropWindow s key).pending = s.pending := rfl

@[simp] theorem State.portAdd_regs (s : State) (n k v : Nat) : (State.portAdd s n k v).regs = s.regs := rfl
@[simp] theorem State.portAdd_hi (s : State) (n k v : Nat) : (State.portAdd s n k v).hi = s.hi := rfl
@[simp] theorem State.portAdd_bt (s : State) (n k v : Nat) : (State.portAdd s n k v).bt = s.bt := rfl
@[simp] theorem State.portAdd_ft (s : State) (n k v : Nat) : (State.portAdd s n k v).ft = s.ft := rfl
@[simp] theorem State.portAdd_tq (s : State) (n k v : Nat) : (State.portAdd s n k v).tq = s.tq := rfl
@[simp] theorem State.portAdd_tb (s : State) (n k v : Nat) : (State.portAdd s n k v).tb = s.tb := rfl
@[simp] theorem State.portAdd_fh (s : State) (n k v : Nat) : (State.portAdd s n k v).fh = s.fh := rfl
@[simp] theorem State.portAdd_ms (s : State) (n k v : Nat) : (State.portAdd s n k v).ms = s.ms := rfl
@[simp] theorem State.portAdd_re (s : State) (n k v : Nat) : (State.portAdd s n k v).re = s.re := rfl
@[simp] theorem State.portAdd_cl (s : State) (n k v : Nat) : (State.portAdd s n k v).cl = s.cl := rfl
@[simp] theorem State.portAdd_oc (s : State) (n k v : Nat) : (State.portAdd s n k v).oc = s.oc := rfl
@[simp] theorem State.portAdd_pm (s : State) (n k v : Nat) : (State.portAdd s n k v).pm = s.pm := rfl
@[simp] theorem State.portAdd_free (s : State) (n k v : Nat) : (State.portAdd s n k v).free = s.free := rfl
@[simp] theorem State.portAdd_out (s : State) (n k v : Nat) : (State.portAdd s n k v).out = s.out := rfl
@[simp] theorem State.portAdd_pending (s : State) (n k v : Nat) : (State.portAdd s n k v).pending = s.pending := rfl

@[simp] theorem State.queueAdd_regs (s : State) (q k v : Nat) : (State.queueAdd s q k v).regs = s.regs := rfl
@[simp] theorem State.queueAdd_hi (s : State) (q k v : Nat) : (State.queueAdd s q k v).hi = s.hi := rfl
@[simp] theorem State.queueAdd_bt (s : State) (q k v : Nat) : (State.queueAdd s q k v).bt = s.bt := rfl
@[simp] theorem State.queueAdd_ft (s : State) (q k v : Nat) : (State.queueAdd s q k v).ft = s.ft := rfl
@[simp] theorem State.queueAdd_tq (s : State) (q k v : Nat) : (State.queueAdd s q k v).tq = s.tq := rfl
@[simp] theorem State.queueAdd_tb (s : State) (q k v : Nat) : (State.queueAdd s q k v).tb = s.tb := rfl
@[simp] theorem State.queueAdd_fh (s : State) (q k v : Nat) : (State.queueAdd s q k v).fh = s.fh := rfl
@[simp] theorem State.queueAdd_ms (s : State) (q k v : Nat) : (State.queueAdd s q k v).ms = s.ms := rfl
@[simp] theorem State.queueAdd_re (s : State) (q k v : Nat) : (State.queueAdd s q k v).re = s.re := rfl
@[simp] theorem State.queueAdd_cl (s : State) (q k v : Nat) : (State.queueAdd s q k v).cl = s.cl := rfl
@[simp] theorem State.queueAdd_oc (s : State) (q k v : Nat) : (State.queueAdd s q k v).oc = s.oc := rfl
@[simp] theorem State.queueAdd_pm (s : State) (q k v : Nat) : (State.queueAdd s q k v).pm = s.pm := rfl
@[simp] theorem State.queueAdd_free (s : State) (q k v : Nat) : (State.queueAdd s q k v).free = s.free := rfl
@[simp] theorem State.queueAdd_out (s : State) (q k v : Nat) : (State.queueAdd s q k v).out = s.out := rfl
@[simp] theorem State.queueAdd_pending (s : State) (q k v : Nat) : (State.queueAdd s q k v).pending = s.pending := rfl

@[simp] theorem State.meterAdd_regs (s : State) (m k v : Nat) : (State.meterAdd s m k v).regs = s.regs := rfl
@[simp] theorem State.meterAdd_hi (s : State) (m k v : Nat) : (State.meterAdd s m k v).hi = s.hi := rfl
@[simp] theorem State.meterAdd_bt (s : State) (m k v : Nat) : (State.meterAdd s m k v).bt = s.bt := rfl
@[simp] theorem State.meterAdd_ft (s : State) (m k v : Nat) : (State.meterAdd s m k v).ft = s.ft := rfl
@[simp] theorem State.meterAdd_tq (s : State) (m k v : Nat) : (State.meterAdd s m k v).tq = s.tq := rfl
@[simp] theorem State.meterAdd_tb (s : State) (m k v : Nat) : (State.meterAdd s m k v).tb = s.tb := rfl
@[simp] theorem State.meterAdd_fh (s : State) (m k v : Nat) : (State.meterAdd s m k v).fh = s.fh := rfl
@[simp] theorem State.meterAdd_ms (s : State) (m k v : Nat) : (State.meterAdd s m k v).ms = s.ms := rfl
@[simp] theorem State.meterAdd_re (s : State) (m k v : Nat) : (State.meterAdd s m k v).re = s.re := rfl
@[simp] theorem State.meterAdd_cl (s : State) (m k v : Nat) : (State.meterAdd s m k v).cl = s.cl := rfl
@[simp] theorem State.meterAdd_oc (s : State) (m k v : Nat) : (State.meterAdd s m k v).oc = s.oc := rfl
@[simp] theorem State.meterAdd_pm (s : State) (m k v : Nat) : (State.meterAdd s m k v).pm = s.pm := rfl
@[simp] theorem State.meterAdd_free (s : State) (m k v : Nat) : (State.meterAdd s m k v).free = s.free := rfl
@[simp] theorem State.meterAdd_out (s : State) (m k v : Nat) : (State.meterAdd s m k v).out = s.out := rfl
@[simp] theorem State.meterAdd_pending (s : State) (m k v : Nat) : (State.meterAdd s m k v).pending = s.pending := rfl

@[simp] theorem State.setPort_regs (s : State) (n : Nat) (p : PortSt) : (State.setPort s n p).regs = s.regs := rfl
@[simp] theorem State.setPort_hi (s : State) (n : Nat) (p : PortSt) : (State.setPort s n p).hi = s.hi := rfl
@[simp] theorem State.setPort_bt (s : State) (n : Nat) (p : PortSt) : (State.setPort s n p).bt = s.bt := rfl
@[simp] theorem State.setPort_ft (s : State) (n : Nat) (p : PortSt) : (State.setPort s n p).ft = s.ft := rfl
@[simp] theorem State.setPort_tq (s : State) (n : Nat) (p : PortSt) : (State.setPort s n p).tq = s.tq := rfl
@[simp] theorem State.setPort_tb (s : State) (n : Nat) (p : PortSt) : (State.setPort s n p).tb = s.tb := rfl
@[simp] theorem State.setPort_fh (s : State) (n : Nat) (p : PortSt) : (State.setPort s n p).fh = s.fh := rfl
@[simp] theorem State.setPort_ms (s : State) (n : Nat) (p : PortSt) : (State.setPort s n p).ms = s.ms := rfl
@[simp] theorem State.setPort_re (s : State) (n : Nat) (p : PortSt) : (State.setPort s n p).re = s.re := rfl
@[simp] theorem State.setPort_cl (s : State) (n : Nat) (p : PortSt) : (State.setPort s n p).cl = s.cl := rfl
@[simp] theorem State.setPort_oc (s : State) (n : Nat) (p : PortSt) : (State.setPort s n p).oc = s.oc := rfl
@[simp] theorem State.setPort_pm (s : State) (n : Nat) (p : PortSt) : (State.setPort s n p).pm = s.pm := rfl
@[simp] theorem State.setPort_free (s : State) (n : Nat) (p : PortSt) : (State.setPort s n p).free = s.free := rfl
@[simp] theorem State.setPort_out (s : State) (n : Nat) (p : PortSt) : (State.setPort s n p).out = s.out := rfl
@[simp] theorem State.setPort_pending (s : State) (n : Nat) (p : PortSt) : (State.setPort s n p).pending = s.pending := rfl

@[simp] theorem State.dieRegs_hi (s : State) (d : Nat) : (State.dieRegs s d).hi = s.hi := rfl
@[simp] theorem State.dieRegs_bt (s : State) (d : Nat) : (State.dieRegs s d).bt = s.bt := rfl
@[simp] theorem State.dieRegs_pc (s : State) (d : Nat) : (State.dieRegs s d).pc = s.pc := rfl
@[simp] theorem State.dieRegs_ft (s : State) (d : Nat) : (State.dieRegs s d).ft = s.ft := rfl
@[simp] theorem State.dieRegs_tq (s : State) (d : Nat) : (State.dieRegs s d).tq = s.tq := rfl
@[simp] theorem State.dieRegs_tb (s : State) (d : Nat) : (State.dieRegs s d).tb = s.tb := rfl
@[simp] theorem State.dieRegs_fh (s : State) (d : Nat) : (State.dieRegs s d).fh = s.fh := rfl
@[simp] theorem State.dieRegs_ms (s : State) (d : Nat) : (State.dieRegs s d).ms = s.ms := rfl
@[simp] theorem State.dieRegs_re (s : State) (d : Nat) : (State.dieRegs s d).re = s.re := rfl
@[simp] theorem State.dieRegs_cl (s : State) (d : Nat) : (State.dieRegs s d).cl = s.cl := rfl
@[simp] theorem State.dieRegs_oc (s : State) (d : Nat) : (State.dieRegs s d).oc = s.oc := rfl
@[simp] theorem State.dieRegs_pm (s : State) (d : Nat) : (State.dieRegs s d).pm = s.pm := rfl
@[simp] theorem State.dieRegs_free (s : State) (d : Nat) : (State.dieRegs s d).free = s.free := rfl
@[simp] theorem State.dieRegs_out (s : State) (d : Nat) : (State.dieRegs s d).out = s.out := rfl
@[simp] theorem State.dieRegs_pending (s : State) (d : Nat) : (State.dieRegs s d).pending = s.pending := rfl

@[simp] theorem State.zeroDieQueues_regs (s : State) (k : Nat) : (State.zeroDieQueues s k).regs = s.regs := rfl
@[simp] theorem State.zeroDieQueues_hi (s : State) (k : Nat) : (State.zeroDieQueues s k).hi = s.hi := rfl
@[simp] theorem State.zeroDieQueues_bt (s : State) (k : Nat) : (State.zeroDieQueues s k).bt = s.bt := rfl
@[simp] theorem State.zeroDieQueues_ft (s : State) (k : Nat) : (State.zeroDieQueues s k).ft = s.ft := rfl
@[simp] theorem State.zeroDieQueues_tq (s : State) (k : Nat) : (State.zeroDieQueues s k).tq = s.tq := rfl
@[simp] theorem State.zeroDieQueues_tb (s : State) (k : Nat) : (State.zeroDieQueues s k).tb = s.tb := rfl
@[simp] theorem State.zeroDieQueues_fh (s : State) (k : Nat) : (State.zeroDieQueues s k).fh = s.fh := rfl
@[simp] theorem State.zeroDieQueues_ms (s : State) (k : Nat) : (State.zeroDieQueues s k).ms = s.ms := rfl
@[simp] theorem State.zeroDieQueues_re (s : State) (k : Nat) : (State.zeroDieQueues s k).re = s.re := rfl
@[simp] theorem State.zeroDieQueues_cl (s : State) (k : Nat) : (State.zeroDieQueues s k).cl = s.cl := rfl
@[simp] theorem State.zeroDieQueues_oc (s : State) (k : Nat) : (State.zeroDieQueues s k).oc = s.oc := rfl
@[simp] theorem State.zeroDieQueues_pm (s : State) (k : Nat) : (State.zeroDieQueues s k).pm = s.pm := rfl
@[simp] theorem State.zeroDieQueues_free (s : State) (k : Nat) : (State.zeroDieQueues s k).free = s.free := rfl
@[simp] theorem State.zeroDieQueues_out (s : State) (k : Nat) : (State.zeroDieQueues s k).out = s.out := rfl
@[simp] theorem State.zeroDieQueues_pending (s : State) (k : Nat) : (State.zeroDieQueues s k).pending = s.pending := rfl

@[simp] theorem State.loseCharges_regs (s : State) (k : Nat) : (State.loseCharges s k).regs = s.regs := rfl
@[simp] theorem State.loseCharges_hi (s : State) (k : Nat) : (State.loseCharges s k).hi = s.hi := rfl
@[simp] theorem State.loseCharges_bt (s : State) (k : Nat) : (State.loseCharges s k).bt = s.bt := rfl
@[simp] theorem State.loseCharges_pc (s : State) (k : Nat) : (State.loseCharges s k).pc = s.pc := rfl
@[simp] theorem State.loseCharges_ft (s : State) (k : Nat) : (State.loseCharges s k).ft = s.ft := rfl
@[simp] theorem State.loseCharges_tq (s : State) (k : Nat) : (State.loseCharges s k).tq = s.tq := rfl
@[simp] theorem State.loseCharges_tb (s : State) (k : Nat) : (State.loseCharges s k).tb = s.tb := rfl
@[simp] theorem State.loseCharges_fh (s : State) (k : Nat) : (State.loseCharges s k).fh = s.fh := rfl
@[simp] theorem State.loseCharges_ms (s : State) (k : Nat) : (State.loseCharges s k).ms = s.ms := rfl
@[simp] theorem State.loseCharges_cl (s : State) (k : Nat) : (State.loseCharges s k).cl = s.cl := rfl
@[simp] theorem State.loseCharges_oc (s : State) (k : Nat) : (State.loseCharges s k).oc = s.oc := rfl
@[simp] theorem State.loseCharges_pm (s : State) (k : Nat) : (State.loseCharges s k).pm = s.pm := rfl
@[simp] theorem State.loseCharges_free (s : State) (k : Nat) : (State.loseCharges s k).free = s.free := rfl
@[simp] theorem State.loseCharges_out (s : State) (k : Nat) : (State.loseCharges s k).out = s.out := rfl
@[simp] theorem State.loseCharges_pending (s : State) (k : Nat) : (State.loseCharges s k).pending = s.pending := rfl

@[simp] theorem State.dropLanding_regs (s : State) (k : Nat) : (State.dropLanding s k).regs = s.regs := rfl
@[simp] theorem State.dropLanding_hi (s : State) (k : Nat) : (State.dropLanding s k).hi = s.hi := rfl
@[simp] theorem State.dropLanding_bt (s : State) (k : Nat) : (State.dropLanding s k).bt = s.bt := rfl
@[simp] theorem State.dropLanding_pc (s : State) (k : Nat) : (State.dropLanding s k).pc = s.pc := rfl
@[simp] theorem State.dropLanding_ft (s : State) (k : Nat) : (State.dropLanding s k).ft = s.ft := rfl
@[simp] theorem State.dropLanding_tq (s : State) (k : Nat) : (State.dropLanding s k).tq = s.tq := rfl
@[simp] theorem State.dropLanding_tb (s : State) (k : Nat) : (State.dropLanding s k).tb = s.tb := rfl
@[simp] theorem State.dropLanding_fh (s : State) (k : Nat) : (State.dropLanding s k).fh = s.fh := rfl
@[simp] theorem State.dropLanding_ms (s : State) (k : Nat) : (State.dropLanding s k).ms = s.ms := rfl
@[simp] theorem State.dropLanding_re (s : State) (k : Nat) : (State.dropLanding s k).re = s.re := rfl
@[simp] theorem State.dropLanding_oc (s : State) (k : Nat) : (State.dropLanding s k).oc = s.oc := rfl
@[simp] theorem State.dropLanding_pm (s : State) (k : Nat) : (State.dropLanding s k).pm = s.pm := rfl
@[simp] theorem State.dropLanding_free (s : State) (k : Nat) : (State.dropLanding s k).free = s.free := rfl
@[simp] theorem State.dropLanding_out (s : State) (k : Nat) : (State.dropLanding s k).out = s.out := rfl
@[simp] theorem State.dropLanding_pending (s : State) (k : Nat) : (State.dropLanding s k).pending = s.pending := rfl

@[simp] theorem State.setSlot_regs (s : State) (p w i : Nat) (img : List Byte) : (State.setSlot s p w i img).regs = s.regs := rfl
@[simp] theorem State.setSlot_hi (s : State) (p w i : Nat) (img : List Byte) : (State.setSlot s p w i img).hi = s.hi := rfl
@[simp] theorem State.setSlot_bt (s : State) (p w i : Nat) (img : List Byte) : (State.setSlot s p w i img).bt = s.bt := rfl
@[simp] theorem State.setSlot_pc (s : State) (p w i : Nat) (img : List Byte) : (State.setSlot s p w i img).pc = s.pc := rfl
@[simp] theorem State.setSlot_tq (s : State) (p w i : Nat) (img : List Byte) : (State.setSlot s p w i img).tq = s.tq := rfl
@[simp] theorem State.setSlot_tb (s : State) (p w i : Nat) (img : List Byte) : (State.setSlot s p w i img).tb = s.tb := rfl
@[simp] theorem State.setSlot_fh (s : State) (p w i : Nat) (img : List Byte) : (State.setSlot s p w i img).fh = s.fh := rfl
@[simp] theorem State.setSlot_ms (s : State) (p w i : Nat) (img : List Byte) : (State.setSlot s p w i img).ms = s.ms := rfl
@[simp] theorem State.setSlot_re (s : State) (p w i : Nat) (img : List Byte) : (State.setSlot s p w i img).re = s.re := rfl
@[simp] theorem State.setSlot_cl (s : State) (p w i : Nat) (img : List Byte) : (State.setSlot s p w i img).cl = s.cl := rfl
@[simp] theorem State.setSlot_oc (s : State) (p w i : Nat) (img : List Byte) : (State.setSlot s p w i img).oc = s.oc := rfl
@[simp] theorem State.setSlot_pm (s : State) (p w i : Nat) (img : List Byte) : (State.setSlot s p w i img).pm = s.pm := rfl
@[simp] theorem State.setSlot_free (s : State) (p w i : Nat) (img : List Byte) : (State.setSlot s p w i img).free = s.free := rfl
@[simp] theorem State.setSlot_out (s : State) (p w i : Nat) (img : List Byte) : (State.setSlot s p w i img).out = s.out := rfl
@[simp] theorem State.setSlot_pending (s : State) (p w i : Nat) (img : List Byte) : (State.setSlot s p w i img).pending = s.pending := rfl

@[simp] theorem State.forgetArrivals_regs (s : State) : (State.forgetArrivals s).regs = s.regs := rfl
@[simp] theorem State.forgetArrivals_hi (s : State) : (State.forgetArrivals s).hi = s.hi := rfl
@[simp] theorem State.forgetArrivals_bt (s : State) : (State.forgetArrivals s).bt = s.bt := rfl
@[simp] theorem State.forgetArrivals_ft (s : State) : (State.forgetArrivals s).ft = s.ft := rfl
@[simp] theorem State.forgetArrivals_tq (s : State) : (State.forgetArrivals s).tq = s.tq := rfl
@[simp] theorem State.forgetArrivals_tb (s : State) : (State.forgetArrivals s).tb = s.tb := rfl
@[simp] theorem State.forgetArrivals_fh (s : State) : (State.forgetArrivals s).fh = s.fh := rfl
@[simp] theorem State.forgetArrivals_ms (s : State) : (State.forgetArrivals s).ms = s.ms := rfl
@[simp] theorem State.forgetArrivals_re (s : State) : (State.forgetArrivals s).re = s.re := rfl
@[simp] theorem State.forgetArrivals_cl (s : State) : (State.forgetArrivals s).cl = s.cl := rfl
@[simp] theorem State.forgetArrivals_oc (s : State) : (State.forgetArrivals s).oc = s.oc := rfl
@[simp] theorem State.forgetArrivals_pm (s : State) : (State.forgetArrivals s).pm = s.pm := rfl
@[simp] theorem State.forgetArrivals_free (s : State) : (State.forgetArrivals s).free = s.free := rfl
@[simp] theorem State.forgetArrivals_out (s : State) : (State.forgetArrivals s).out = s.out := rfl
@[simp] theorem State.forgetArrivals_pending (s : State) : (State.forgetArrivals s).pending = s.pending := rfl

@[simp] theorem State.setReplica_regs (s : State) (g : Nat) (x : Int) : (State.setReplica s g x).regs = s.regs := rfl
@[simp] theorem State.setReplica_hi (s : State) (g : Nat) (x : Int) : (State.setReplica s g x).hi = s.hi := rfl
@[simp] theorem State.setReplica_bt (s : State) (g : Nat) (x : Int) : (State.setReplica s g x).bt = s.bt := rfl
@[simp] theorem State.setReplica_pc (s : State) (g : Nat) (x : Int) : (State.setReplica s g x).pc = s.pc := rfl
@[simp] theorem State.setReplica_ft (s : State) (g : Nat) (x : Int) : (State.setReplica s g x).ft = s.ft := rfl
@[simp] theorem State.setReplica_tq (s : State) (g : Nat) (x : Int) : (State.setReplica s g x).tq = s.tq := rfl
@[simp] theorem State.setReplica_fh (s : State) (g : Nat) (x : Int) : (State.setReplica s g x).fh = s.fh := rfl
@[simp] theorem State.setReplica_ms (s : State) (g : Nat) (x : Int) : (State.setReplica s g x).ms = s.ms := rfl
@[simp] theorem State.setReplica_re (s : State) (g : Nat) (x : Int) : (State.setReplica s g x).re = s.re := rfl
@[simp] theorem State.setReplica_cl (s : State) (g : Nat) (x : Int) : (State.setReplica s g x).cl = s.cl := rfl
@[simp] theorem State.setReplica_oc (s : State) (g : Nat) (x : Int) : (State.setReplica s g x).oc = s.oc := rfl
@[simp] theorem State.setReplica_pm (s : State) (g : Nat) (x : Int) : (State.setReplica s g x).pm = s.pm := rfl
@[simp] theorem State.setReplica_free (s : State) (g : Nat) (x : Int) : (State.setReplica s g x).free = s.free := rfl
@[simp] theorem State.setReplica_out (s : State) (g : Nat) (x : Int) : (State.setReplica s g x).out = s.out := rfl
@[simp] theorem State.setReplica_pending (s : State) (g : Nat) (x : Int) : (State.setReplica s g x).pending = s.pending := rfl

/-! ### A store read back -/

@[simp] theorem State.ring_setRing (s : State) (n : Nat) (v : Ring) : (s.setRing n v).ring n = v := by
  unfold State.ring State.setRing
  exact sget_sset_same _ _ _ _

@[simp] theorem State.mooring_setMooring (s : State) (n : Nat) (v : Mooring) : (s.setMooring n v).mooring n = v := by
  unfold State.mooring State.setMooring
  exact sget_sset_same _ _ _ _

@[simp] theorem State.tile_setTile (s : State) (n : Nat) (v : TileSt) : (s.setTile n v).tile n = v := by
  unfold State.tile State.setTile
  exact sget_sset_same _ _ _ _

@[simp] theorem State.port_setPort (s : State) (n : Nat) (v : PortSt) : (s.setPort n v).port n = v := by
  unfold State.port State.setPort
  exact sget_sset_same _ _ _ _

@[simp] theorem State.queue_setQueue (s : State) (n : Nat) (v : List Nat) : (s.setQueue n v).queue n = v := by
  unfold State.queue State.setQueue
  exact sget_sset_same _ _ _ _

@[simp] theorem State.gate_setGate (s : State) (n : Nat) (v : GateSt) : (s.setGate n v).gate n = v := by
  unfold State.gate State.setGate
  exact sget_sset_same _ _ _ _

@[simp] theorem State.fence_setFence (s : State) (n : Nat) (v : Fence) : (s.setFence n v).fence n = v := by
  unfold State.fence State.setFence
  exact sget_sset_same _ _ _ _

@[simp] theorem State.mslot_setMslot (s : State) (n : Nat) (v : SlotSt) : (s.setMslot n v).mslot n = v := by
  unfold State.mslot State.setMslot
  exact sget_sset_same _ _ _ _

@[simp] theorem State.engine_setEngine (s : State) (n : Nat) (v : EngineSt) : (s.setEngine n v).engine n = v := by
  unfold State.engine State.setEngine
  exact sget_sset_same _ _ _ _

@[simp] theorem State.circuit_setCircuit (s : State) (n : Nat) (v : Circuit) : (s.setCircuit n v).circuit n = v := by
  unfold State.circuit State.setCircuit
  exact sget_sset_same _ _ _ _

@[simp] theorem State.pair_setPair (s : State) (n : Nat) (v : Pair) : (s.setPair n v).pair n = v := by
  unfold State.pair State.setPair
  exact sget_sset_same _ _ _ _

@[simp] theorem State.exchange_setExchange (s : State) (n : Nat) (v : Exchange) : (s.setExchange n v).exchange n = v := by
  unfold State.exchange State.setExchange
  exact sget_sset_same _ _ _ _

@[simp] theorem State.part_setPart (s : State) (n : Nat) (v : Part) : (s.setPart n v).part n = v := by
  unfold State.part State.setPart
  exact sget_sset_same _ _ _ _

@[simp] theorem State.bridge_setBridge (s : State) (n : Nat) (v : Bridge) : (s.setBridge n v).bridge n = v := by
  unfold State.bridge State.setBridge
  exact sget_sset_same _ _ _ _

@[simp] theorem State.meter_setMeter (s : State) (n : Nat) (v : Meter) : (s.setMeter n v).meter n = v := by
  unfold State.meter State.setMeter
  exact sget_sset_same _ _ _ _

@[simp] theorem State.profile_setProfile (s : State) (n : Nat) (v : Nat × Nat × Nat) : (s.setProfile n v).profile n = v := by
  unfold State.profile State.setProfile
  exact sget_sset_same _ _ _ _

end Sys2Proof.Machine
end

