-- ==== Sys2Proof/Laws/Touches.lean ====
section
/-! SUPPORT. From the mask that an operation's lemma names to a list of parts: what is outside the list is unchanged. -/

namespace Sys2Proof.Machine

variable {m : Nat} {s t : State}

/-- Every part there is. -/
def everyPart : List Piece := everyField ++ everyRegister

theorem everyPart_bits : (everyPart.map Piece.bit).Nodup := by decide +kernel

theorem maskOf_testBit (l : List Piece) (i : Nat) : (maskOf l).testBit i = l.any (fun p => p.bit == i) := by
  suffices ∀ m, (l.foldl (fun (m : Nat) (p : Piece) => m ||| 2 ^ p.bit) m).testBit i = (m.testBit i || l.any (fun p => p.bit == i)) by
    have := this 0
    simp only [Nat.zero_testBit, Bool.false_or] at this
    exact this
  induction l with
  | nil => intro m; simp
  | cons p l ih =>
    intro m
    simp only [List.foldl_cons, ih, List.any_cons, Nat.testBit_or, Nat.testBit_two_pow, Bool.or_assoc]
    rfl

/-- A part that a list of parts does not name has no bit of the list's mask. -/
theorem mask_misses {l : List Piece} (hl : ∀ p ∈ l, p ∈ everyPart) {p : Piece} (hp : p ∈ everyPart) (h : p ∉ l) :
    (maskOf l).testBit p.bit = false := by
  rw [maskOf_testBit]
  by_contra hc
  simp only [Bool.not_eq_false, List.any_eq_true, beq_iff_eq] at hc
  obtain ⟨q, hq, e⟩ := hc
  exact h (List.inj_on_of_nodup_map everyPart_bits (hl q hq) hp e ▸ hq)

theorem mem_everyPart {p : Piece} (h : ∀ b, p ≠ .words b) : p ∈ everyPart := by
  refine List.mem_append_left _ ?_
  cases p
  case words b => exact absurd rfl (h b)
  all_goals decide +kernel

theorem words_mem_everyPart {off b : Nat} (h : ownerOf off = some b) : Piece.words b ∈ everyPart := by
  obtain ⟨o, r, i, g, rfl⟩ : ∃ o r i, registerAt o = some (r, i) ∧ r.base = b := by
    unfold ownerOf at h
    split at h
    · rename_i r i e
      exact ⟨off, r, i, e, by simpa using h⟩
    · split at h
      · cases e : registerAt (off - 0x80000) with
        | none => rw [e] at h; cases h
        | some x => rw [e] at h; exact ⟨_, x.1, x.2, e, by simpa using h⟩
      · cases h
  unfold registerAt at g
  obtain ⟨z, hz, e⟩ := List.exists_of_findSome?_eq_some g
  have hr : r ∈ blockRegisters (o / 0x100000) := by
    cases ez : z.indexAt o with
    | none => rw [ez] at e; cases e
    | some j => rw [ez] at e; cases e; exact hz
  have hb : o / 0x100000 < 14 := by
    by_contra hb
    match o / 0x100000, hb, hr with
    | k + 14, _, hr => simp [blockRegisters] at hr
  refine List.mem_append_right _ (List.mem_flatMap.2 ⟨o / 0x100000, List.mem_range.2 hb, List.mem_map.2 ⟨r, hr, rfl⟩⟩)

/-- A part that there is: a field, or the words of a register of the map. -/
def Piece.real : Piece → Bool
  | .words b => (blockRegisters (b / 0x100000)).any (fun r => r.base == b)
  | _ => true

theorem mem_everyPart_of_real {p : Piece} (h : p.real = true) : p ∈ everyPart := by
  cases p with
  | words b =>
    obtain ⟨r, hr, e⟩ := List.any_eq_true.1 h
    have e' : r.base = b := by simpa using e
    have hb : b / 0x100000 < 14 := by
      by_contra hb
      match b / 0x100000, hb, hr with
      | k + 14, _, hr => simp [blockRegisters] at hr
    exact List.mem_append_right _ (List.mem_flatMap.2 ⟨_, List.mem_range.2 hb, List.mem_map.2 ⟨r, hr, by rw [e']⟩⟩)
  | _ => exact mem_everyPart (by intro b; exact Piece.noConfusion)

/-- The mask of every part there is. -/
def partMask : Nat := 0xffff000003ff0000007f007fffff00003fff00003fff0000003f00007fff0000001f0001ffff003fffff0007ffff000000ff00000fff0003ffffffffffffffffffffffffffff

theorem maskOf_everyPart : maskOf everyPart = partMask := by decide +kernel

/-- What changed only parts of a mask changed only parts of a list whose mask holds it, on the parts there are. -/
theorem Only.unchanged {l : List Piece} (h : Only m s t) (hr : l.all Piece.real = true)
    (hm : (m &&& partMask) ||| maskOf l = maskOf l) : Unchanged l s t := by
  have hl : ∀ p ∈ l, p ∈ everyPart := fun p hp => mem_everyPart_of_real (List.all_eq_true.1 hr p hp)
  have key : ∀ p ∈ everyPart, p ∉ l → p.same s t := by
    intro p hp hn
    refine h.same p ?_
    by_contra hc
    rw [Bool.not_eq_false] at hc
    have hl' := mask_misses hl hp hn
    have he : (maskOf everyPart).testBit p.bit = true := by
      rw [maskOf_testBit]
      exact List.any_eq_true.2 ⟨p, hp, by simp⟩
    rw [maskOf_everyPart] at he
    rw [← hm, Nat.testBit_or, Nat.testBit_and, hc, he] at hl'
    cases hl'
  intro p hn
  cases p with
  | words b =>
    intro off ho
    exact key (.words b) (words_mem_everyPart ho) hn off ho
  | _ => exact key _ (mem_everyPart (by intro b; exact Piece.noConfusion)) hn

end Sys2Proof.Machine
end

