-- ==== Sys2Proof/Tests/Slice0.lean ====
section
/-! SUPPORT. Tests: words of the opcode table that decode to their commands, commands that are ill formed, and for every statement a
state and operands that meet the conditions of its clauses. -/

namespace Sys2Proof.Tests
open Sys2Proof Sys2Proof.Machine
set_option Elab.async false

/-! ### States to test on -/

/-- Every function is ready: the words of BT_READY_MAP. -/
def readyWords : List (Nat × Word) := (List.range 20).map (fun i => (BT_READY_MAP.base + 8 * i, 0xFFFFFFFFFFFFFFFF#64))

/-- The device in service, with the BARs set. -/
def work : State :=
  { State.reset with
    regs := readyWords,
    hi := { HostSt.reset with answering := true, config := { ConfigSt.reset with memory := true } },
    bt := { BootSt.reset with por := true } }

/-- 64 bytes with an opcode and fields: offset, value. -/
def raw (op : Nat) (fields : List (Nat × Nat)) : List Byte := natLe 64 (fields.foldl (fun n x => n + x.2 * 2 ^ (8 * x.1)) op)

/-- A fetched descriptor of ring 0. -/
def desc (op : Nat) (fields : List (Nat × Nat)) : Desc := ⟨0, 0, 0, raw op fields, false, false, 0, false, []⟩

/-- The device in service with one descriptor that waits. -/
def waiting (d : Desc) : State := { work with hi := { work.hi with descs := [d] } }

/-- What `AdmittedWith` says, as a test. -/
def admits (s : State) (n op : Nat) (reads : Bool) (image : ImageTest) (d : Desc) : Bool :=
  s.live && s.readingDesc n (fun e => e.opcode == op) == none && s.nextDesc n == some d && d.opcode == op && (!d.fence || !s.earlierPending d) &&
  !s.descHeld d && (!reads || !s.hi.d3hot) && (s.startDesc d).checks (d.begun s) image == none && !d.movesNothing

theorem admits_spec {s : State} {n op : Nat} {reads : Bool} {image : ImageTest} {d : Desc} (h : admits s n op reads image d = true) :
    AdmittedWith s n op reads image d := by
  simp only [admits, Bool.and_eq_true, Bool.or_eq_true, Bool.not_eq_true', beq_iff_eq] at h
  obtain ⟨⟨⟨⟨⟨⟨⟨⟨a, b⟩, c⟩, e⟩, f⟩, g⟩, i⟩, j⟩, k⟩ := h
  refine ⟨a, b, c, e, fun hf => ?_, g, fun hr => ?_, j, k⟩
  · rcases f with f | f
    · rw [f] at hf; exact absurd hf (by decide)
    · exact f
  · rcases i with i | i
    · rw [i] at hr; exact absurd hr (by decide)
    · exact i

/-! ### Conditions that can be met: the rings and the windows -/

theorem witness_StepsTakeTheFront :
    (∃ (s : State) (d : Fin 2), s.bt.por = true ∧ s.bt.held = false ∧ (s.dom d).running = true ∧ s.follows d = false ∧
      (s.dom d).frac < 2 ^ 32 ∧ (s.dom d).ns < 10 ^ 9 ∧ (s.dom d).sec + 1 < 2 ^ 48 ∧ (s.freeIncr d).1 ≤ 10 ^ 9 * 2 ^ 32 ∧ (s.dom d).remaining = 0) ∧
    ∃ (s : State) (d : Fin 2), (s.dom d).running = false :=
  ⟨⟨{ work with tb := { TimeSt.reset with dom0 := { TimeDom.reset with running := true, sec := 2 ^ 48 - 2, ns := 10 ^ 9 - 1, frac := 2 ^ 32 - 1 } } }, 0, by decide +kernel⟩,
    State.reset, 1, rfl⟩

theorem witness_EveryStepKeepsTheForms : ∃ s t : State, step s = .next t ∧ s.Canonical ∧ s.QueueOk ∧ s.pending ≠ [] :=
  ⟨{ work with pending := [Instr.nop 4095] }, _, rfl, ⟨by unfold RegsOk; decide +kernel, by unfold HbmOk; decide +kernel⟩,
    by intro c h; rw [List.mem_singleton.mp h]; decide +kernel, by decide⟩

theorem witness_WhatIsFixedStands : ∃ s t : State, step s = .next t ∧ s.protEntry 1 0 = ⟨0, 0xFFFF, 0, 0⟩ ∧
    sget (ProtEntry.reset (protKey 1 0)) s.hi.staging (protKey 1 0) = ⟨0, 0xFFFF, 0, 0⟩ ∧
    ∀ r ∈ [BT_DEVICE_ID, BT_DEVICE_SERIAL], s.word r.base = resetWord r.base :=
  ⟨State.reset, _, rfl, by decide +kernel, by decide +kernel, fun _ _ => rfl⟩

theorem witness_CommandsTouchOnlyTheirState : ∃ (c : Instr) (s t : State), exec c s = .next t ∧ Unchanged (touches c) s t :=
  ⟨.nop 0, State.reset, State.reset, rfl, fun p _ => by cases p <;> simp [Piece.same]⟩

/-- No line is anywhere. -/
theorem coherent_of_empty {s : State} (h : s.ms.lines ++ s.ms.atomic ++ s.ms.combining = []) : s.Coherent := by
  have a : s.ms.lines = [] := (List.append_eq_nil_iff.mp (List.append_eq_nil_iff.mp h).1).1
  have b : s.ms.atomic = [] := (List.append_eq_nil_iff.mp (List.append_eq_nil_iff.mp h).1).2
  have c : s.ms.combining = [] := (List.append_eq_nil_iff.mp h).2
  refine ⟨?_, ?_, ?_, ?_, ?_⟩ <;> simp [a, b, c]

/-- A descriptor of partition 3 that moves `n` bytes of HBM from address `a`. -/
def move (op n a : Nat) : Desc := desc op [(2, 3), (4, 0x77), (8, 0x1000), (16, n), (24, 4), (32, a)]

/-- Partition 3 is ACTIVE, with quotas. -/
def serving (d : Desc) : State :=
  { waiting d with hi := { (waiting d).hi with parts := [(3, ⟨.active, 16, 16, 16, 16⟩)], prot := [(protKey 5 0, ⟨1, 3, 0, 0xFFFFF⟩)] } }

/-- A stripe of empty HBM can be read. -/
theorem readable_work : (serving (move 4 3 1021)).firstLost 1021 3 = none := by decide +kernel

theorem witness_MemoryHoldsWhatIsWritten :
    (∃ (s : State) (n : Fin 4096) (d : Desc) (bs : List Byte), s.Coherent ∧ Admitted s n 0x03 true d ∧ bs.length = d.length ∧ d.u8 24 = 4) ∧
    ∃ (s : State) (n : Fin 4096) (d : Desc), s.Coherent ∧ Admitted s n 0x04 false d ∧ d.u8 24 = 4 ∧ s.firstLost (d.u64 32) d.length = none :=
  ⟨⟨serving (move 3 3 1023), 0, move 3 3 1023, zeros 3, coherent_of_empty rfl, admits_spec (by decide +kernel), by decide +kernel, by decide +kernel⟩,
    serving (move 4 3 1021), 0, move 4 3 1021, coherent_of_empty rfl, admits_spec (by decide +kernel), by decide +kernel, readable_work⟩

theorem witness_CompletionTakesNextSlot : ∃ d : Desc, d.silent = false := ⟨desc 0 [], rfl⟩

/-- A REG_WRITE of one register, and the register that it names. -/
def regWriteDesc : Desc := desc 0x02 [(2, 0xFFFF), (8, 0x2000), (16, 8), (24, HI_RING_CQ_BASE.offset 4095), (28, 1)]

theorem witness_NopRegReadRegWriteComplete :
    Admitted (waiting (desc 0 [(2, 0xFFFF)])) 0 0x00 false (desc 0 [(2, 0xFFFF)]) ∧
    (∃ d : Desc, Admitted (waiting d) 0 0x01 false d ∧ d.u16 28 = 512) ∧
    ∃ (s : State) (d : Desc) (bs : List Byte) (r : Reg) (i : Nat), Admitted s 0 0x02 true d ∧ d.u16 28 = 1 ∧ bs.length = d.length ∧
      registerAt (d.u32 24) = some (r, i) ∧ r.stride ≠ 4 ∧ s.performs (d.u32 24) = true ∧
      (effects.find? (fun e => e.1.base == r.base)).isNone = true ∧ r.base ≠ HI_RING_STATUS.base ∧ r.base ≠ HI_MSIX_PBA.base :=
  ⟨admits_spec (by decide +kernel),
    ⟨desc 0x01 [(2, 0xFFFF), (8, 0x2000), (16, 4096), (24, 0x3FFF000), (28, 512)], admits_spec (by decide +kernel), by decide +kernel⟩,
    waiting regWriteDesc, regWriteDesc, zeros 8, HI_RING_CQ_BASE, 4095, admits_spec (by decide +kernel), by decide +kernel, by decide +kernel, rfl,
    by decide +kernel, by decide +kernel, by decide +kernel, by decide +kernel, by decide +kernel⟩

/-- A DMA of partition 0xFFFF: target kind, unit, bytes, address. -/
def dma (op kind unit n a : Nat) : Desc := desc op [(2, 0xFFFF), (8, 0x1000), (16, n), (24, kind), (26, unit), (32, a)]

/-- The stripe at address 0 cannot be read. -/
def spoilt (s : State) : State := { s with ms := { s.ms with unreadable := [0] } }

theorem witness_DmaCompletes :
    (∃ (d : Desc) (bs : List Byte), Admitted (waiting d) 0 0x03 true d ∧ bs.length = d.length ∧ d.u8 24 ≠ 7 ∧
      (waiting d).targetOpen (d.u8 24) (d.u16 26) = false) ∧
    (∃ (s : State) (d : Desc) (bs : List Byte), Admitted s 0 0x03 true d ∧ bs.length = d.length ∧ d.u8 24 ≠ 7 ∧
      s.targetOpen (d.u8 24) (d.u16 26) = true) ∧
    (∃ (d : Desc) (bs : List Byte), Admitted (waiting d) 0 0x03 true d ∧ bs.length = d.length ∧ d.u8 24 = 7 ∧ (waiting d).imageClosed = false) ∧
    (∃ d : Desc, Admitted (serving d) 0 0x04 false d ∧ d.u8 24 = 4 ∧ (serving d).firstLost (d.u64 32) d.length = none) ∧
    (∃ d : Desc, Admitted (waiting d) 0 0x04 false d ∧ d.u8 24 ≠ 4) ∧
    ∃ d : Desc, Admitted (spoilt (serving d)) 0 0x04 false d ∧ d.u8 24 = 4 ∧ (spoilt (serving d)).firstLost (d.u64 32) d.length = some 0 :=
  ⟨⟨dma 3 3 0 32 0, zeros 32, admits_spec (by decide +kernel), by decide +kernel, by decide +kernel, by decide +kernel⟩,
    ⟨serving (move 3 1024 0), move 3 1024 0, zeros 1024, admits_spec (by decide +kernel), by decide +kernel, by decide +kernel, by decide +kernel⟩,
    ⟨dma 3 7 0 1 0, zeros 1, admits_spec (by decide +kernel), by decide +kernel, by decide +kernel, by decide +kernel⟩,
    ⟨move 4 3 1021, admits_spec (by decide +kernel), by decide +kernel, readable_work⟩,
    ⟨dma 4 2 7 32 0, admits_spec (by decide +kernel), by decide +kernel⟩,
    move 4 1 1023, admits_spec (by decide +kernel), by decide +kernel, by decide +kernel⟩

/-- The device in service with some of its own state: register fields, descriptors, partitions. -/
def set (fs : List (Fld × Nat × Nat)) : State := work.wrs fs

/-- What an entry of a protection array says: its 32 bytes, of a kind and an index. -/
def protImage (kind index : Nat) : List Byte := natLe 32 (kind + index * 2 ^ 32)

/-- A descriptor that has started. -/
def begun (d : Desc) : Desc := { d with started := true }

/-- A partition drains, with one context of a group armed. -/
def draining (d : Desc) : State :=
  { waiting d with hi := { (waiting d).hi with parts := [(255, ⟨.draining, 1, 1, 1, 1⟩)] }, cl := { CollectiveSt.reset with drains := [⟨255, 0, 0, 0, 0⟩] } }

/-- An armed group of partition 255 with one leg that serves nothing. -/
def idleArmed : Armed := ⟨0, 1, 0, 0, [⟨0, none, 0, [], ⟨none, 0⟩, ⟨none, 0⟩, [], []⟩], [], [], none⟩

/-- An armed group of the partition is left. -/
def releasing : State :=
  { draining (desc 0 []) with cl := { (draining (desc 0 [])).cl with groups := [(9, ⟨0, zeros 256, 255, some idleArmed, Bcast.reset, none⟩)] } }

theorem witness_ProtectionAndPartitionsChange :
    (∃ (d : Desc) (bs : List Byte), Admitted (waiting d) 0 0x10 true d ∧ (waiting d).commitWaits 0 = false ∧ bs.length = d.length ∧
      (arrayFault 0 ((List.range (bs.length / 32)).map (fun i => slice bs (32 * i) 32))).isNone = true) ∧
    (∃ (d : Desc) (bs : List Byte), Admitted (waiting d) 0 0x10 true d ∧ (waiting d).commitWaits 0 = false ∧ bs.length = d.length ∧
      arrayFault 0 ((List.range (bs.length / 32)).map (fun i => slice bs (32 * i) 32)) = some .ringZero) ∧
    (∃ s : State, s.commitWaits 0 = true) ∧
    (∃ d : Desc, Admitted (waiting d) 0 0x11 false d) ∧
    (∃ (s : State) (d : Desc), s.live = true ∧ s.hi.d3hot = false ∧ d.silent = false ∧
      s.hi.descs.find? (fun x => x.started && x.opcode == 0x11) = some d ∧ s.oldDraining = false) ∧
    (∃ d : Desc, Admitted (waiting d) 0 0x12 false d ∧ (waiting d).quotasFit (d.u16 24) ⟨.active, d.u32 28, d.u32 32, d.u32 36, d.u32 40⟩ = true ∧
      (waiting d).quotaHolds (d.u16 24) ⟨.active, d.u32 28, d.u32 32, d.u32 36, d.u32 40⟩ = true) ∧
    (∃ d : Desc, Admitted (waiting d) 0 0x12 false d ∧ (waiting d).quotasFit (d.u16 24) ⟨.active, d.u32 28, d.u32 32, d.u32 36, d.u32 40⟩ = false) ∧
    (∃ d : Desc, Admitted (draining d) 0 0x12 false d ∧ ((draining d).part (d.u16 24)).state = .draining) ∧
    (∃ d : Desc, Admitted (waiting d) 0 0x13 false d ∧ ((waiting d).part (d.u16 24)).state = .free) ∧
    (∃ d : Desc, Admitted (serving d) 0 0x13 false d ∧ ((serving d).part (d.u16 24)).state = .active) ∧
    (∃ (s : State) (p : Fin 256) (d : Drain), s.live = true ∧ s.drainOf p = some d ∧ s.drainFull d = false ∧ s.nextRelease p = some (9, 0)) ∧
    (∃ (s : State) (p : Fin 256) (d : Drain), s.live = true ∧ s.drainOf p = some d ∧
      (s.groupsOf p).any (fun kv => kv.2.armed.isSome) = false ∧ s.inFlight d = false) ∧
    ∃ (s : State) (p : Fin 256), s.live = true ∧ (s.part p).state = .active := by
  refine ⟨⟨desc 0x10 [(2, 0xFFFF), (8, 0x1000), (16, 32)], protImage 1 4095, admits_spec (by decide +kernel), by decide +kernel, by decide +kernel, by decide +kernel⟩,
    ⟨desc 0x10 [(2, 0xFFFF), (8, 0x1000), (16, 32)], protImage 1 0, admits_spec (by decide +kernel), by decide +kernel, by decide +kernel, by decide +kernel⟩,
    ⟨waiting (begun (desc 0x11 [])), by decide +kernel⟩,
    ⟨desc 0x11 [(2, 0xFFFF)], admits_spec (by decide +kernel)⟩,
    ⟨waiting (begun (desc 0x11 [])), begun (desc 0x11 []), by decide +kernel, rfl, rfl, by decide +kernel, by decide +kernel⟩,
    ⟨desc 0x12 [(2, 0xFFFF), (24, 255), (28, 1), (32, 1), (36, 1), (40, 1)], admits_spec (by decide +kernel), by decide +kernel, by decide +kernel⟩,
    ⟨desc 0x12 [(2, 0xFFFF), (24, 255), (28, 2 ^ 32 - 1)], admits_spec (by decide +kernel), by decide +kernel⟩,
    ⟨desc 0x12 [(2, 0xFFFF), (24, 255)], admits_spec (by decide +kernel), by decide +kernel⟩,
    ⟨desc 0x13 [(2, 0xFFFF), (24, 0)], admits_spec (by decide +kernel), by decide +kernel⟩,
    ⟨desc 0x13 [(2, 0xFFFF), (24, 3)], admits_spec (by decide +kernel), by decide +kernel⟩,
    ⟨releasing, 255, ⟨255, 0, 0, 0, 0⟩, by decide +kernel⟩,
    ⟨draining (desc 0 []), 255, ⟨255, 0, 0, 0, 0⟩, by decide +kernel, by decide +kernel, by decide +kernel, by decide +kernel⟩,
    serving (desc 0 []), 3, by decide +kernel, by decide +kernel⟩

/-- Ring 7 enabled with 64 entries, at P0, and armed. -/
def ringUp (w : Ring) : State :=
  let s := set [(HI_RING_CFG_ENABLE, 7, 1), (HI_RING_CFG_SQ_LOG2, 7, 6), (HI_RING_CFG_CQ_LOG2, 7, 6), (HI_RING_CFG_VECTOR, 7, 2047), (HI_RING_CFG_MOD_TIME, 7, 1), (HI_MSIX_CTL_MASK, 2047, 0)]
  { s with hi := { s.hi with rings := [(7, w)], prot := [(protKey 1 7, ⟨0, 0xFFFF, 0, 0⟩)] } }

theorem witness_DoorbellsAndFetchesAct :
    (∃ (s : State) (n : Fin 4096) (v : BitVec 32), s.barOpen = true ∧ s.ringEnabled n = true ∧ (s.ring n).stopped = false ∧
      wrapSub 32 v.toNat (s.rd HI_RING_STATUS_SQ_HEAD n) = 2 ^ s.rd HI_RING_CFG_SQ_LOG2 n ∧
      wrapSub 32 v.toNat (s.ring n).tail ≤ 2 ^ s.rd HI_RING_CFG_SQ_LOG2 n) ∧
    (∃ (s : State) (n : Fin 4096) (v : BitVec 32), s.barOpen = true ∧ s.ringEnabled n = true ∧ (s.ring n).stopped = false ∧
      2 ^ s.rd HI_RING_CFG_SQ_LOG2 n < wrapSub 32 v.toNat (s.rd HI_RING_STATUS_SQ_HEAD n)) ∧
    (∃ (s : State) (n : Fin 4096) (v : Word), s.barOpen = true ∧ s.ringEnabled n = true ∧
      wrapSub 32 (v.toNat % 2 ^ 32) (s.ring n).consumed ≤ (s.ring n).unconsumed ∧ v.toNat.testBit 32 = true ∧
      wrapSub 32 (s.ring n).written (v.toNat % 2 ^ 32) ≠ 0 ∧ s.flag HI_MSIX_CTL_MASK (s.rd HI_RING_CFG_VECTOR n) = false) ∧
    (∃ (s : State) (n : Fin 4096), s.barOpen = true ∧ s.ringEnabled n = false) ∧
    (∃ (s : State) (n : Fin 4096) (bs : List Byte), s.live = true ∧ 0 < s.fetchable n ∧ 64 ≤ bs.length) ∧
    ∃ (s : State) (n : Fin 4096), s.live = true ∧ (s.ring n).armed = true ∧ 0 < (s.ring n).unconsumed ∧ 0 < s.rd HI_RING_CFG_MOD_TIME n ∧
      s.hi.answering = true ∧ s.flag HI_MSIX_CTL_MASK (s.rd HI_RING_CFG_VECTOR n) = false :=
  ⟨⟨ringUp ⟨0, 0, 0, true, false⟩, 7, 64, by decide +kernel⟩, ⟨ringUp ⟨0, 0, 0, true, false⟩, 7, 65, by decide +kernel⟩,
    ⟨ringUp ⟨9, 9, 0, true, false⟩, 7, 0x100000008, by decide +kernel⟩, ⟨work, 4095, by decide +kernel⟩,
    ⟨ringUp ⟨1, 0, 0, true, false⟩, 7, zeros 64, by decide +kernel⟩, ringUp ⟨9, 1, 0, true, false⟩, 7, by decide +kernel⟩

theorem witness_RingsEnableAndDisable :
    (∃ (s : State) (n : Fin 4096) (v : Word), s.barOpen = true ∧ s.ringEnabled n = false ∧ HI_RING_CFG_ENABLE.isSet v = true ∧
      HI_RING_CFG_SQ_LOG2.of v = 16 ∧ HI_RING_CFG_CQ_LOG2.of v = 16 ∧ HI_RING_CFG_VECTOR.of v = 2047 ∧ s.ringLevel n ≠ 3 ∧
      s.rd HI_RING_SQ_BASE_ADDR n % 4096 = 0 ∧ s.rd HI_RING_CQ_BASE_ADDR n % 4096 = 0) ∧
    (∃ (s : State) (n : Fin 4096) (v : Word), s.barOpen = true ∧ s.ringEnabled n = false ∧ HI_RING_CFG_ENABLE.isSet v = true ∧ HI_RING_CFG_SQ_LOG2.of v = 0) ∧
    ∃ (s : State) (n : Fin 4096) (v : Word), s.barOpen = true ∧ s.ringEnabled n = true ∧ HI_RING_CFG_ENABLE.isSet v = false :=
  ⟨⟨work, 0, BitVec.ofNat 64 (((set [(HI_RING_CFG_ENABLE, 0, 1), (HI_RING_CFG_SQ_LOG2, 0, 16), (HI_RING_CFG_CQ_LOG2, 0, 16), (HI_RING_CFG_VECTOR, 0, 2047)]).word
      (HI_RING_CFG.offset 0)).toNat), by decide +kernel⟩,
    ⟨work, 0, (set [(HI_RING_CFG_ENABLE, 0, 1), (HI_RING_CFG_SQ_LOG2, 0, 0)]).word (HI_RING_CFG.offset 0), by decide +kernel⟩,
    ringUp Ring.reset, 7, 0, by decide +kernel⟩

/-- Window 3 open on the endpoint tables of pipeline 7, to a limit of 1,024 bytes; in STREAM mode where `stream` is 1. -/
def windowUp (stream : Nat) : State :=
  set [(HI_GW_TARGET_ENABLE, 3, 1), (HI_GW_TARGET_TARGET_KIND, 3, 2), (HI_GW_TARGET_TARGET_UNIT, 3, 7), (HI_GW_TARGET_PARTITION, 3, 0xFFFF),
    (HI_GW_TARGET_MODE, 3, stream), (HI_GW_LIMIT_LIMIT, 3, 1024)]

theorem witness_GangwayWindowsServe :
    (∃ (s : State) (k : Fin 16) (v : Word), s.barOpen = true ∧ s.flag HI_GW_TARGET_ENABLE k = false ∧ HI_GW_TARGET_ENABLE.isSet v = true ∧
      ((s.plainWrite HI_GW_TARGET k v).wr HI_GW_TARGET_ENABLE k 0).windowOk k = true) ∧
    (∃ (s : State) (k : Fin 16) (v : Word), s.barOpen = true ∧ s.flag HI_GW_TARGET_ENABLE k = true ∧ HI_GW_TARGET_ENABLE.isSet v = false) ∧
    (∃ (s : State) (k : Fin 16) (b : Byte), s.barOpen = true ∧ s.flag HI_GW_TARGET_ENABLE k = true ∧ s.flag HI_GW_TARGET_MODE k = false ∧
      1023 < s.rd HI_GW_LIMIT_LIMIT k ∧ s.windowReached k ∧
      ((bringByte (s.hi.gangwayWrites + 1) (s.heldBytes k) (s.rd HI_GW_BASE_BASE k + 1023) b).filter
        (fun x => x.1 / 64 == (s.rd HI_GW_BASE_BASE k + 1023) / 64)).length ≠ 64) ∧
    (∃ (s : State) (k : Fin 16) (data : List (Option Byte)), s.barOpen = true ∧ data ≠ [] ∧ 0xFFFFFF + data.length ≤ 0x1000000 ∧
      s.flag HI_GW_TARGET_ENABLE k = false) ∧
    (∃ (s : State) (k : Fin 16) (data : List (Option Byte)), s.barOpen = true ∧ data ≠ [] ∧ 0 + data.length ≤ 0x1000000 ∧
      s.flag HI_GW_TARGET_ENABLE k = true ∧ s.flag HI_GW_TARGET_MODE k = true ∧ s.windowReached k) ∧
    (∃ (s : State) (k : Fin 16), s.live = true ∧ s.barOpen = true ∧ s.windowReached k ∧ s.rd HI_GW_TARGET_TARGET_KIND k = 2 ∧
      s.targetOpen 2 (s.rd HI_GW_TARGET_TARGET_UNIT k) = true) ∧
    ∃ (s : State) (k : Fin 16), s.rd HI_GW_TARGET_TARGET_KIND k = 4 ∧ s.firstLost 0 1 = some 0 :=
  ⟨⟨set [(HI_GW_LIMIT_LIMIT, 3, 1024)], 3, (windowUp 1).word (HI_GW_TARGET.offset 3), by decide +kernel⟩,
    ⟨windowUp 0, 3, 0, by decide +kernel⟩,
    ⟨windowUp 0, 3, 0, by decide +kernel, by decide +kernel, by decide +kernel, by decide +kernel, fun _ => by decide +kernel, by decide +kernel⟩,
    ⟨work, 15, [none], by decide +kernel⟩,
    ⟨windowUp 1, 3, [some 1, none], by decide +kernel, by decide +kernel, by decide +kernel, by decide +kernel, by decide +kernel, fun _ => by decide +kernel⟩,
    ⟨(windowUp 0).wr FT_PIPE_CTL_IMAGE_LOAD 7 1, 3, by decide +kernel, by decide +kernel, fun _ => by decide +kernel, by decide +kernel, by decide +kernel⟩,
    spoilt (set [(HI_GW_TARGET_TARGET_KIND, 3, 4)]), 3, by decide +kernel, by decide +kernel⟩

/-! ### Conditions that can be met: registers, start-up and identity -/

/-- Bridge 5, to RD0, retrains; or its die is not ready. -/
def cutOff : State := { work with fh := { FaultSt.reset with bridges := [(5, { Bridge.reset with retraining := true })] } }

theorem witness_RegistersAnswer :
    (∃ (s : State) (off i : Nat) (r : Reg), s.barOpen = true ∧ off < bar0Size ∧ off % 8 = 0 ∧ registerAt off = some (r, i) ∧ r.stride ≠ 4 ∧
      (∀ e ∈ effects, e.1.base ≠ r.base) ∧ s.performs off = true) ∧
    (∃ (s : State) (off i : Nat) (r : Reg), s.barOpen = true ∧ off < bar0Size ∧ off % 8 = 0 ∧ registerAt off = some (r, i) ∧ s.performs off = false) ∧
    (∃ (s : State) (off : Nat), s.barOpen = true ∧ off < bar0Size ∧ off % 8 = 0 ∧ registerAt off = none ∧ companionTarget off = none) ∧
    (∃ (s : State) (off : Nat), s.barOpen = true ∧ off < bar0Size ∧ off % 8 ≠ 0) ∧
    (∃ (s : State) (off : Nat), s.barOpen = false ∧ s.barsSet = true ∧ off < bar0Size) ∧
    (∃ off : Nat, bar0Size ≤ off) ∧
    (∃ (s : State) (off o : Nat), s.barOpen = true ∧ off < bar0Size ∧ off % 8 = 0 ∧ registerAt off = none ∧ companionTarget off = some o ∧
      s.performs o = true) ∧
    (∃ (s : State) (off : Nat) (r : Reg) (i : Nat), s.barOpen = true ∧ off < bar0Size ∧ off % 8 = 0 ∧ registerAt off = some (r, i) ∧
      s.performs off = true ∧ r.stride ≠ 4 ∧ r.base = HI_GW_STATUS.base) ∧
    (∃ (s : State) (off : Nat) (r : Reg) (i : Nat), s.barOpen = true ∧ off < bar0Size ∧ off % 8 = 0 ∧ registerAt off = some (r, i) ∧
      s.performs off = true ∧ r.stride = 4) ∧
    (∃ (s : State) (off b : Nat) (rest : List Nat), s.barOpen = true ∧ off < bar0Size ∧ off % 8 = 0 ∧
      s.closedOn (routeOf 8 (dieOf ((companionTarget off).getD off))) = b :: rest) ∧
    ∃ (s : State) (off : Nat), s.barOpen = true ∧ off < bar0Size ∧ off % 8 = 0 ∧
      s.closedOn (routeOf 8 (dieOf ((companionTarget off).getD off))) = [] ∧ (registerAt off).isSome = true ∧ s.atReach ((companionTarget off).getD off) = false :=
  ⟨⟨work, HI_RING_CQ_BASE.offset 4095, 4095, HI_RING_CQ_BASE, by decide +kernel, by decide +kernel, by decide +kernel, rfl, by decide +kernel, by decide +kernel,
      by decide +kernel⟩,
    ⟨cutOff, RE_TILE_STATUS.base, 0, RE_TILE_STATUS, by decide +kernel, by decide +kernel, by decide +kernel, rfl, by decide +kernel⟩,
    ⟨work, 0x3FFFFF8, by decide +kernel⟩,
    ⟨work, 0x3FFFFFF, by decide +kernel⟩,
    ⟨{ work with hi := { work.hi with d3hot := true } }, 0, by decide +kernel⟩,
    ⟨bar0Size, le_refl _⟩,
    ⟨work, companionOf (BT_READY_CHANGE.offset 0), BT_READY_CHANGE.offset 0, by decide +kernel⟩,
    ⟨work, HI_GW_STATUS.offset 15, HI_GW_STATUS, 15, by decide +kernel, by decide +kernel, by decide +kernel, rfl, by decide +kernel, by decide +kernel, rfl⟩,
    ⟨work, TQ_METER_CFG.base, TQ_METER_CFG, 0, by decide +kernel, by decide +kernel, by decide +kernel, rfl, by decide +kernel, by decide +kernel⟩,
    ⟨cutOff, RE_TILE_STATUS.base, 5, [], by decide +kernel⟩,
    work.wr BT_READY_MAP_BITS 0 (2 ^ 64 - 1 - 2 ^ 6), RE_TILE_STATUS.base, by decide +kernel⟩

theorem witness_ResetsClear :
    (∃ s : State, s.bt.por = false) ∧
    (∃ (s : State) (v : Word), s.barOpen = true ∧ BT_RESET_WARM.isSet v = true ∧ BT_RESET_KEY.of v = 0x57A4) ∧
    (∃ (s : State) (v : Word), s.barOpen = true ∧ BT_RESET_WARM.isSet v = true ∧ BT_RESET_KEY.of v ≠ 0x57A4) ∧
    ∃ s : State, s.live = true ∧ (s.hi.descs.filter (fun d => d.started && !d.atRead)) ≠ [] :=
  ⟨⟨State.reset, rfl⟩,
    ⟨work, (set [(BT_RESET_WARM, 0, 1), (BT_RESET_KEY, 0, 0x57A4)]).word (BT_RESET.offset 0), by decide +kernel⟩,
    ⟨work, (set [(BT_RESET_WARM, 0, 1), (BT_RESET_KEY, 0, 0x57A5)]).word (BT_RESET.offset 0), by decide +kernel⟩,
    waiting (begun (desc 3 [])), by decide +kernel⟩

/-- The device in D3hot. -/
def asleep (s : State) : State := { s with hi := { s.hi with d3hot := true } }

theorem witness_PowerStatesAndLocks :
    (∃ s : State, s.live = true ∧ s.hi.answering = true ∧ s.dieReady 8 = true ∧ s.barOpen = true) ∧
    (∃ (s : State) (d : Desc), s.live = true ∧ s.hi.d3hot = true ∧ s.readingDesc 0 (fun e => e.opcode == 0x03) = none ∧ s.nextDesc 0 = some d ∧
      d.opcode = 0x03 ∧ d.fence = false ∧ s.descHeld d = false ∧ (s.startDesc d).preChecks (d.begun s) = none ∧ d.movesNothing = false) ∧
    ∃ (s : State) (d : Desc), s.live = true ∧ s.hi.d3hot = false ∧ d.silent = false ∧ d.ring = 0 ∧ s.readingDesc 0 (fun e => e.opcode == 0x03) = some d :=
  ⟨⟨work, by decide +kernel⟩, ⟨asleep (serving (move 3 3 1023)), move 3 3 1023, by decide +kernel⟩,
    waiting { begun (desc 3 []) with atRead := true }, { begun (desc 3 []) with atRead := true }, by decide +kernel⟩

theorem witness_FirmwareLoads :
    (∃ (s : State) (v : Word), s.barOpen = true ∧ BT_FW_CTL_START.isSet v = true ∧ BT_FW_CTL_ABANDON.isSet v = false ∧ s.fwState = fwLoading) ∧
    (∃ (s : State) (v : Word), s.barOpen = true ∧ BT_FW_CTL_ABANDON.isSet v = true ∧ BT_FW_CTL_START.isSet v = false ∧ s.fwState = fwRefused) ∧
    (∃ (s : State) (v : Word), s.barOpen = true ∧ BT_FW_CTL_START.isSet v = true ∧ BT_FW_CTL_ABANDON.isSet v = true) ∧
    (∃ s : State, s.live = true ∧ s.fwState = fwChecking) ∧ ∃ s : State, s.live = true ∧ s.fwState ≠ fwChecking :=
  ⟨⟨set [(BT_FW_STATUS_STATE, 0, 1)], (set [(BT_FW_CTL_START, 0, 1)]).word (BT_FW_CTL.offset 0), by decide +kernel⟩,
    ⟨set [(BT_FW_STATUS_STATE, 0, 4)], (set [(BT_FW_CTL_ABANDON, 0, 1)]).word (BT_FW_CTL.offset 0), by decide +kernel⟩,
    ⟨work, (set [(BT_FW_CTL_START, 0, 1), (BT_FW_CTL_ABANDON, 0, 1)]).word (BT_FW_CTL.offset 0), by decide +kernel⟩,
    ⟨set [(BT_FW_STATUS_STATE, 0, 2)], by decide +kernel⟩, work, by decide +kernel⟩

theorem witness_QuotesAreSigned :
    (∃ (s : State) (v : Word), s.barOpen = true ∧ EV_QUOTE_CTL_START.isSet v = true ∧ s.rd EV_QUOTE_STATUS_STATE 0 = 1) ∧
    (∃ (s : State) (v : Word), s.barOpen = true ∧ EV_QUOTE_CTL_START.isSet v = true ∧ s.rd EV_QUOTE_STATUS_STATE 0 ≠ 1) ∧
    ∃ s : State, s.live = true ∧ s.rd EV_QUOTE_STATUS_STATE 0 = 1 ∧ s.bt.quoteNonce.length = 32 :=
  ⟨⟨set [(EV_QUOTE_STATUS_STATE, 0, 1)], (set [(EV_QUOTE_CTL_START, 0, 1)]).word (EV_QUOTE_CTL.offset 0), by decide +kernel⟩,
    ⟨work, (set [(EV_QUOTE_CTL_START, 0, 1)]).word (EV_QUOTE_CTL.offset 0), by decide +kernel⟩,
    { set [(EV_QUOTE_STATUS_STATE, 0, 1)] with bt := { work.bt with quoteNonce := zeros 32 } }, by decide +kernel⟩

theorem witness_FunctionsRiseAndFall :
    (∃ (s : State) (f : Fn), s.live = true ∧ s.bt.coreRefLost = false ∧ s.ready f = false ∧ (needs f).all s.readyAt = true ∧ s.functionMay f = true) ∧
    (∃ (s : State) (f : Fn), s.live = true ∧ s.ready f = true ∧ dependents f ≠ []) ∧
    ∃ (s : State) (f : Fn), s.live = true ∧ s.ready f = false ∧ s.functionMay f = false :=
  ⟨⟨set [(BT_READY_MAP_BITS, 0, 2 ^ 64 - 1 - 2 ^ 35)], .hbm 11, by decide +kernel⟩, ⟨work, .laser 3, by decide +kernel⟩,
    set [(BT_READY_MAP_BITS, 16, 2 ^ 63 - 1)], .port 1023, by decide +kernel⟩

/-- Port `n` enabled, of a kind, with its link in a state, and what the port holds. -/
def portAt (n kind link : Nat) (p : PortSt) : State :=
  let s := set [(PC_PORT_CFG_ENABLE, n, 1), (PC_PORT_CFG_KIND, n, kind), (PC_PORT_STATUS_LINK, n, link)]
  { s with pc := { s.pc with ports := [(n, p)] } }

/-- A fabric port whose link is initialised. -/
def linked : PortSt := { PortSt.reset with complete := true, peerMin := [100, 100, 100, 100, 100] }

/-- An identity exchange that runs. -/
def exchanging (s : State) (n : Nat) : State := { s with bt := { s.bt with exchanges := [(n, { Exchange.reset with running := true })] } }

/-- An Evbauth message of a type. -/
def evb (type : Nat) : List Byte := natBe 1 1 ++ natBe 1 type ++ natBe 2 112 ++ zeros 108

theorem witness_IdentityExchanges :
    (∃ (s : State) (n : Fin 1024), s.live = true ∧ (s.exchange n).running = true ∧ (s.exchange n).ownId = []) ∧
    (∃ (s : State) (n : Fin 1024), s.live = true ∧ (s.exchange n).running = false) ∧
    (∃ (s : State) (n : Fin 1024) (tag : Option (BitVec 48)) (p : List Byte), s.live = true ∧ 2 ≤ s.link n ∧
      (s.linkConsume n tag (p.length + 18)).1 = true ∧ evbGood 1 p = true ∧ (s.exchange n).running = false) ∧
    (∃ (s : State) (n : Fin 1024) (tag : Option (BitVec 48)) (p : List Byte), s.live = true ∧ 2 ≤ s.link n ∧
      (s.linkConsume n tag (p.length + 18)).1 = true ∧ evbGood 2 p = true ∧ (s.exchange n).running = true) :=
  ⟨⟨exchanging (portAt 1023 0 2 PortSt.reset) 1023, 1023, by decide +kernel⟩, ⟨work, 0, by decide +kernel⟩,
    ⟨portAt 4 1 3 linked, 4, some (BitVec.ofNat 48 (makeTag 0 true 0)), evb 1, by decide +kernel⟩,
    exchanging (portAt 1023 0 2 PortSt.reset) 1023, 1023, none, evb 2, by decide +kernel⟩

theorem witness_PortsComeAndGo :
    (∃ (s : State) (n : Fin 1024) (v : Word), s.barOpen = true ∧ s.performs (PC_PORT_CFG.offset n) = true ∧ s.portEnabled n = false ∧
      PC_PORT_CFG_ENABLE.isSet v = true ∧ s.portRate n ≠ 0 ∧ 1518 ≤ PC_PORT_CFG_MAX_FRAME.of v ∧ PC_PORT_CFG_MAX_FRAME.of v = 9216 ∧
      (s.plainWrite PC_PORT_CFG n v).poolsFit = true) ∧
    (∃ (s : State) (n : Fin 1024) (v : Word), s.barOpen = true ∧ s.performs (PC_PORT_CFG.offset n) = true ∧ s.portEnabled n = true ∧
      PC_PORT_CFG_ENABLE.isSet v = false ∧ PC_PORT_CFG_KIND.of v = s.rd PC_PORT_CFG_KIND n ∧
      PC_PORT_CFG_MAX_FRAME.of v = s.rd PC_PORT_CFG_MAX_FRAME n ∧ 1518 ≤ PC_PORT_CFG_MAX_FRAME.of v ∧ PC_PORT_CFG_MAX_FRAME.of v ≤ 9216) ∧
    (∃ (s : State) (g : Fin 256) (v : Word), s.barOpen = true ∧ s.performs (PC_LANE_GROUP.offset g) = true ∧ PC_LANE_GROUP_LAYOUT.of v = 4) ∧
    (∃ (s : State) (n : Fin 1024), s.live = true ∧ s.canLock n = true) ∧
    (∃ (s : State) (n : Fin 1024), s.live = true ∧ s.link n ≠ 0) ∧
    ∃ (s : State) (n : Fin 1024) (j : Fin 8), s.live = true ∧ s.laneSpareFree (n / 4) = true ∧ s.laneOf n j = true ∧ s.portEnabled n = true ∧
      s.isFabric n = true ∧ s.link n = 3 ∧ (s.port n).complete = true ∧ s.fibreChanging (n / 4) = false :=
  ⟨⟨work, 1020, (set [(PC_PORT_CFG_ENABLE, 0, 1), (PC_PORT_CFG_MAX_FRAME, 0, 9216)]).word (PC_PORT_CFG.offset 0), by decide +kernel⟩,
    ⟨portAt 4 0 3 PortSt.reset, 4, (portAt 4 0 3 PortSt.reset).word (PC_PORT_CFG.offset 4) &&& 0x7FFFFFFFFFFFFFFF, by decide +kernel⟩,
    ⟨work, 255, 4, by decide +kernel⟩,
    ⟨portAt 4 0 1 PortSt.reset, 4, by decide +kernel⟩, ⟨portAt 4 1 3 linked, 4, by decide +kernel⟩,
    portAt 4 1 3 linked, 4, 0, by decide +kernel⟩

/-! ### Conditions that can be met: links and frames -/

/-- A frame in a replay store. -/
def heldFrame (seq : Nat) : Held := ⟨seq, 1, 3, zeros 60, none, none⟩

/-- An acknowledgement of link number `a`, with NAK where `nak` is 1. -/
def statusWord (a nak : Nat) : List Byte := natBe 2 0x8801 ++ natBe 2 a ++ natBe 2 (nak * 256) ++ zeros 40

theorem witness_LinkLayerRuns :
    (∃ (s : State) (n : Fin 1024), s.live = true ∧ s.isFabric n = true ∧ 2 ≤ s.link n ∧ (s.port n).complete = true) ∧
    (∃ (s : State) (n : Fin 1024), s.live = true ∧ s.isFabric n = true ∧ 2 ≤ s.link n ∧ (s.port n).complete = false ∧ (s.port n).ackSent = true ∧
      (s.port n).ackSeen = true) ∧
    (∃ (s : State) (n : Fin 1024), s.live = true ∧ s.isFabric n = true ∧ 2 ≤ s.link n ∧ (s.port n).complete = false ∧
      ((s.port n).initSeen && (s.port n).ackSent) = false ∧ (s.port n).initSeen = true) ∧
    (∃ (s : State) (n : Fin 1024), s.live = true ∧ s.isFabric n = true ∧ s.link n = 2 ∧ (s.port n).complete = false) ∧
    (∃ (s : State) (n : Fin 1024) (p : List Byte), s.live = true ∧ s.isFabric n = true ∧ (s.port n).complete = true ∧ 2 ≤ s.link n ∧
      (s.port n).own = [] ∧ (be p 4 1).testBit 0 = false ∧ be p 2 2 = 0) ∧
    (∃ (s : State) (n : Fin 1024) (p : List Byte), s.live = true ∧ s.isFabric n = true ∧ (s.port n).complete = true ∧ 2 ≤ s.link n ∧
      (s.port n).own = [] ∧ (be p 4 1).testBit 0 = true ∧ (s.port n).rtxFrom = none ∧
      (((s.port n).store.drop (wrapSub 16 (be p 2 2) 0xFFFF)).any (fun e => e.seq == be p 2 2)) = true) ∧
    (∃ (s : State) (n : Fin 1024) (e : Held), s.live = true ∧ (s.port n).store.head? = some e) ∧
    (∃ (s : State) (n : Fin 1024) (tag : BitVec 48) (p : List Byte), s.live = true ∧ s.isFabric n = true ∧ (s.port n).complete = true ∧
      2 ≤ s.link n ∧ (s.linkConsume n (some tag) (p.length + 18)).1 = true ∧ be p 1 1 = 2 ∧ be p 4 1 = 1 ∧ s.laneSpareFree (n / 4) = true ∧
      s.laneOf n (be p 5 1) = true) ∧
    (∃ (s : State) (n : Fin 1024) (tag : BitVec 48) (p : List Byte), s.live = true ∧ s.isFabric n = true ∧ (s.port n).complete = true ∧
      2 ≤ s.link n ∧ (s.linkConsume n (some tag) (p.length + 18)).1 = false) :=
  ⟨⟨portAt 1020 1 3 linked, 1020, by decide +kernel⟩,
    ⟨portAt 1020 1 2 { PortSt.reset with ackSent := true, ackSeen := true }, 1020, by decide +kernel⟩,
    ⟨portAt 1020 1 2 { PortSt.reset with initSeen := true }, 1020, by decide +kernel⟩,
    ⟨portAt 1020 1 2 PortSt.reset, 1020, by decide +kernel⟩,
    ⟨portAt 1020 1 3 linked, 1020, statusWord 0 0, by decide +kernel⟩,
    ⟨portAt 1020 1 3 { linked with store := [heldFrame 0xFFFF, heldFrame 0] }, 1020, statusWord 0 1, by decide +kernel⟩,
    ⟨portAt 1020 1 3 { linked with store := [heldFrame 0xFFFF] }, 1020, heldFrame 0xFFFF, by decide +kernel⟩,
    ⟨portAt 1020 1 3 linked, 1020, BitVec.ofNat 48 (makeTag 0 true 0), natBe 2 2 ++ zeros 2 ++ natBe 1 1 ++ zeros 41, by decide +kernel⟩,
    portAt 1020 1 3 linked, 1020, BitVec.ofNat 48 (makeTag 1 true 0), zeros 46, by decide +kernel⟩

theorem witness_FlowControlFrames :
    (∃ (s : State) (n : Fin 1024), s.live = true ∧ s.isFabric n = false) ∧ (∃ (s : State) (n : Fin 1024), s.live = true ∧ s.isFabric n = true) ∧
    (∃ (s : State) (n : Fin 1024) (c : Fin 8), s.live = true ∧ (s.port n).xoffSent.testBit c = true) ∧
    ∃ (s : State) (n : Fin 1024) (c : Fin 8), s.live = true ∧ (s.port n).xoffSent.testBit c = false ∧ (s.port n).paused.testBit c = true :=
  ⟨⟨work, 1023, by decide +kernel⟩, ⟨portAt 0 1 3 linked, 0, by decide +kernel⟩, ⟨portAt 0 0 3 { PortSt.reset with xoffSent := 128 }, 0, 7, by decide +kernel⟩,
    portAt 0 0 3 { PortSt.reset with paused := 128 }, 0, 7, by decide +kernel⟩

/-- A checked frame of 60 bytes from nowhere, with one copy in a queue of a port. -/
def frameTo (port queue : Nat) (started : Bool) : FrameSt :=
  ⟨none, zeros 60, 0, 3, 3, false, true, true, none, [], [⟨port, queue, started, false, false, false, none, 0⟩], 64, [], false, none, none, none, none, none, []⟩

/-- A port whose round serves queue 0 of class 0. -/
def inRound : PortSt := { PortSt.reset with clsDrr := ⟨[0], [], false⟩, queueDrr := [(0, ⟨[0], [], false⟩)] }

/-- Port 0 up with that frame, number 5, in its queue 0. -/
def queued (kind : Nat) (p : PortSt) (started ended : Bool) : State :=
  let s := portAt 0 kind 3 p
  { s with pc := { s.pc with frames := [(5, { frameTo 0 0 started with checked := ended, ingress := if ended then none else some 9 })],
                             queues := [(0, [5])] } }

theorem witness_FramesArrive :
    (∃ (s : State) (n : Fin 1024) (tag : Option (BitVec 48)) (head : List Byte), s.live = true ∧ s.link n = 3 ∧ (s.port n).arriving = none ∧
      s.inflight n = none ∧ s.ownRow n (tagVn (tag.getD 0).toNat) head = false ∧ s.isFabric n = false) ∧
    (∃ (s : State) (n : Fin 1024) (tag : Option (BitVec 48)) (head : List Byte), s.live = true ∧ s.link n = 3 ∧ (s.port n).arriving = none ∧
      s.inflight n = none ∧ s.ownRow n (tagVn (tag.getD 0).toNat) head = false ∧ s.isFabric n = true ∧ s.tagVerdict n tag = .accept) ∧
    (∃ (s : State) (n : Fin 1024) (tag : Option (BitVec 48)) (head : List Byte), s.live = true ∧ s.link n = 3 ∧ (s.port n).arriving = none ∧
      s.inflight n = none ∧ s.ownRow n (tagVn (tag.getD 0).toNat) head = false ∧ s.isFabric n = true ∧ s.tagVerdict n tag = .duplicate) ∧
    (∃ (s : State) (n : Fin 1024) (tag : Option (BitVec 48)) (head : List Byte), s.live = true ∧ s.link n = 3 ∧ (s.port n).arriving = none ∧
      s.inflight n = none ∧ s.ownRow n (tagVn (tag.getD 0).toNat) head = false ∧ s.isFabric n = true ∧ s.tagVerdict n tag = .reject) ∧
    ∃ (s : State) (n : Fin 1024) (f : Nat) (x : FrameSt), s.live = true ∧ (s.port n).arriving = some f ∧ s.frame f = some x ∧ x.copies ≠ [] :=
  ⟨⟨portAt 1020 0 3 PortSt.reset, 1020, none, zeros 14, by decide +kernel⟩,
    ⟨portAt 1020 1 3 linked, 1020, some (BitVec.ofNat 48 (makeTag 0 true 3)), zeros 14, by decide +kernel⟩,
    ⟨portAt 1020 1 3 linked, 1020, some (BitVec.ofNat 48 (makeTag 0x8000 true 3)), zeros 14, by decide +kernel⟩,
    ⟨portAt 1020 1 3 linked, 1020, some (BitVec.ofNat 48 (makeTag 1 true 3)), zeros 14, by decide +kernel⟩,
    queued 0 { PortSt.reset with arriving := some 5 } false false, 0, 5, _, by decide +kernel, by decide +kernel, rfl, by decide +kernel⟩

theorem witness_FramesLeave :
    (∃ (s : State) (n : Fin 1024) (c q f : Nat) (x : FrameSt) (a b : Drr), s.live = true ∧ s.link n = 3 ∧ (s.port n).sending = none ∧
      (∀ r ∈ s.portQueues n, s.headInSram r = true ∧ ∀ k g y, (s.port n).classOf r = some k → (s.queue r).head? = some g → s.frame g = some y →
        s.neverFits n k y.length = false) ∧
      s.pickClass n = some (c, a) ∧ s.peekClass n c = some (q, b) ∧ s.eligibleHead n q = some (f, x)) ∧
    (∃ (s : State) (n : Fin 1024), s.live = true ∧ s.link n ≠ 3) ∧ (∃ (s : State) (n : Fin 1024), s.live = true ∧ (s.port n).sending.isSome = true) ∧
    (∃ (s : State) (n : Fin 1024) (f : Nat) (x : FrameSt) (k : Copy), s.live = true ∧ (s.port n).sending = some f ∧ s.frame f = some x ∧
      x.copies.find? (fun k => k.port == n.val && k.started && !k.done) = some k ∧ x.ended = false) ∧
    (∃ (s : State) (n : Fin 1024) (f : Nat) (x : FrameSt) (k : Copy), s.live = true ∧ (s.port n).sending = some f ∧ s.frame f = some x ∧
      x.copies.find? (fun k => k.port == n.val && k.started && !k.done) = some k ∧ x.ended = true ∧ (s.port n).stale = none ∧ s.isFabric n = true ∧
      (s.port n).rtxDue = none ∧ (s.port n).own = []) :=
  ⟨⟨queued 0 inRound false true, 0, 0, 0, 5, frameTo 0 0 false, _, _, by decide +kernel, by decide +kernel, by decide +kernel,
      fun r hr => ⟨by rw [List.mem_singleton.mp hr]; decide +kernel, fun k g y _ _ _ => by
        have h : (queued 0 inRound false true).gatesHold ((0 : Fin 1024) : Nat) = false := by decide +kernel
        unfold State.neverFits; rw [h]; rfl⟩, rfl, rfl, rfl⟩,
    ⟨work, 1023, by decide +kernel⟩, ⟨queued 0 { PortSt.reset with sending := some 5 } true true, 0, by decide +kernel⟩,
    ⟨queued 0 { PortSt.reset with sending := some 5 } true false, 0, 5, _, _, by decide +kernel, by decide +kernel, rfl, rfl, by decide +kernel⟩,
    queued 1 { linked with sending := some 5 } true true, 0, 5, _, _, by decide +kernel, by decide +kernel, rfl, rfl, by decide +kernel⟩

/-- Queue 0 of port 0 with cells at its head, pages and pages in flight; die 0 may spill. -/
def spilled (h p g : Nat) : State :=
  let s := (queued 0 PortSt.reset false true).wrs [(PC_SLIP_CFG_ENABLE, 0, 1), (PC_SLIP_SIZE_SIZE, 0, 2 ^ 20), (PC_SLIP_CFG_HEAD_CELLS, 0, 64)]
  { s with pc := { s.pc with slip := [(0, (h, p, g))] } }

/-- Slot 65535 holds frame 5, with `n` packets of the phase before outstanding. -/
def fenced (n : Nat) : State := { queued 0 PortSt.reset false true with tq := { QueueSt.reset with fences := [(65535, ⟨0, n, 0, [5]⟩)] } }

theorem witness_SlipwayAndFencesMove :
    (∃ (s : State) (die : Fin 2), s.live = true ∧ s.flag PC_SLIP_CFG_ENABLE die = false) ∧
    (∃ (s : State) (die : Fin 2), s.live = true ∧ s.flag PC_SLIP_CFG_ENABLE die = true ∧ s.slipFull die = false ∧ s.spillChoice die true = none) ∧
    (∃ (s : State) (q : Nat), s.live = true ∧ s.slipOf q = (63, 2, 0) ∧ 63 + 16 * 0 < s.rd PC_SLIP_CFG_HEAD_CELLS (homeDie (q / 1024))) ∧
    (∃ (s : State) (q : Nat), s.live = true ∧ s.slipOf q = (64, 2, 0)) ∧
    (∃ (s : State) (q : Nat), s.live = true ∧ s.slipOf q = (0, 0, 1)) ∧
    (∃ (s : State) (k : Fin 65536) (f : Nat) (rest : List Nat) (x : FrameSt), s.live = true ∧ (s.fence k).held = f :: rest ∧ s.frame f = some x ∧
      f ∉ rest ∧ (s.fence k).count (1 - (s.fence k).phase) = 0) ∧
    (∃ (s : State) (k : Fin 65536) (f : Nat) (rest : List Nat) (x : FrameSt), s.live = true ∧ (s.fence k).held = f :: rest ∧ s.frame f = some x ∧
      f ∉ rest ∧ (s.fence k).count (1 - (s.fence k).phase) ≠ 0) ∧
    ∃ (s : State) (k : Fin 65536), s.live = true ∧ (s.fence k).held = [] :=
  ⟨⟨work, 1, by decide +kernel⟩, ⟨spilled 0 0 0, 0, by decide +kernel⟩, ⟨spilled 63 2 0, 0, by decide +kernel⟩, ⟨spilled 64 2 0, 0, by decide +kernel⟩,
    ⟨spilled 0 0 1, 0, by decide +kernel⟩, ⟨fenced 0, 65535, 5, [], frameTo 0 0 false, by decide +kernel, by decide +kernel, rfl, by decide, by decide +kernel⟩,
    ⟨fenced 1, 65535, 5, [], frameTo 0 0 false, by decide +kernel, by decide +kernel, rfl, by decide, by decide +kernel⟩, work, 0, by decide +kernel⟩

/-! ### Conditions that can be met: tables and queues -/

/-- Bytes with values at their offsets. -/
def bytesOf (len : Nat) (fields : List (Nat × Nat)) : List Byte := natLe len (fields.foldl (fun n x => n + x.2 * 2 ^ (8 * x.1)) 0)

/-- An L2 entry of VID 4095 and a MAC toward port 1023. -/
def l2Image (mac : Nat) : List Byte := bytesOf 64 [(0, 1), (2, 0xFFF), (21, mac), (33, 1), (34, 1023)]

/-- A descriptor of an endpoint image for the pipelines of a mask. -/
def tableDesc (op mask : Nat) : Desc := desc op [(2, 0xFFFF), (8, 0x1000), (16, 64), (24, mask)]

/-- An IPv4 prefix of 32 bits toward port 0. -/
def v4Image : List Byte := bytesOf 64 [(0, 4), (1, 32), (16, 0x0100000A), (33, 1), (36, 0x77)]

/-- A descriptor of an LPM image of family 4 and length 32. -/
def lpmDesc (op : Nat) : Desc := desc op [(2, 0xFFFF), (8, 0x1000), (16, 64), (24, 4), (25, 32)]

/-- What `RefusedWith` says, as a test. -/
def refuses (s : State) (n op : Nat) (image : ImageTest) (d : Desc) (st : Status) (x : Nat) : Bool :=
  s.live && s.readingDesc n (fun e => e.opcode == op) == none && s.nextDesc n == some d && d.opcode == op && (!d.fence || !s.earlierPending d) &&
  !s.descHeld d && !s.hi.d3hot && (s.startDesc d).checks (d.begun s) image == some (st, x)

theorem refuses_spec {s : State} {n op : Nat} {image : ImageTest} {d : Desc} {st : Status} {x : Nat} (h : refuses s n op image d st x = true) :
    RefusedWith s n op image d st x := by
  simp only [refuses, Bool.and_eq_true, Bool.or_eq_true, Bool.not_eq_true', beq_iff_eq] at h
  obtain ⟨⟨⟨⟨⟨⟨⟨a, b⟩, c⟩, e⟩, f⟩, g⟩, i⟩, j⟩ := h
  refine ⟨a, b, c, e, fun hf => ?_, g, i, j⟩
  rcases f with f | f
  · rw [f] at hf; exact absurd hf (by decide)
  · exact f

/-- Pipeline 7 holds an entry in way 3, slot 0xFFFFF. -/
def oneEntry (s : State) (img : List Byte) : State := { s with ft := { s.ft with endpoints := [(4 * 7 * 0x100000 + 3 * 0x100000 + 0xFFFFF, img)] } }

theorem witness_EndpointEntriesInsertAndDelete :
    (∃ (d : Desc) (bs : List Byte), bs.length = d.length ∧ AdmittedWith (waiting d) 0 0x20 true (insertTest (some bs) (d.begun (waiting d))) d ∧
      (d.u8 24).testBit 7 = true ∧ (waiting d).flag FT_PIPE_CTL_IMAGE_LOAD 7 = false ∧ (waiting d).findKey 7 (imgKey bs) = none) ∧
    (∃ (s : State) (d : Desc) (bs : List Byte), bs.length = d.length ∧ AdmittedWith s 0 0x20 true (insertTest (some bs) (d.begun s)) d ∧
      (d.u8 24).testBit 7 = true ∧ s.flag FT_PIPE_CTL_IMAGE_LOAD 7 = true) ∧
    (∃ (d : Desc) (bs : List Byte), bs.length = d.length ∧ AdmittedWith (waiting d) 0 0x21 true (deleteTest (some bs) (d.begun (waiting d))) d ∧
      (waiting d).findKey 7 (imgKey bs) = none) ∧
    (∃ (d : Desc) (bs : List Byte) (st : Status) (x : Nat), bs.length = d.length ∧ RefusedWith (waiting d) 0 0x20 (insertTest (some bs) (d.begun (waiting d))) d st x) ∧
    (∃ (d : Desc) (bs : List Byte) (st : Status) (x : Nat), bs.length = d.length ∧ RefusedWith (waiting d) 0 0x21 (deleteTest (some bs) (d.begun (waiting d))) d st x) ∧
    (∃ d : Desc, Admitted (waiting d) 0 0x20 true d) ∧ ∃ d : Desc, Admitted (waiting d) 0 0x21 true d :=
  ⟨⟨tableDesc 0x20 255, l2Image 1, by decide +kernel, admits_spec (by decide +kernel), by decide +kernel, by decide +kernel, by decide +kernel⟩,
    ⟨(waiting (tableDesc 0x20 128)).wr FT_PIPE_CTL_IMAGE_LOAD 7 1, tableDesc 0x20 128, l2Image 1, by decide +kernel, admits_spec (by decide +kernel), by decide +kernel,
      by decide +kernel⟩,
    ⟨tableDesc 0x21 255, bytesOf 64 [(0, 1), (21, 1)], by decide +kernel, admits_spec (by decide +kernel), by decide +kernel⟩,
    ⟨tableDesc 0x20 1, zeros 64, .badField, 0, by decide +kernel, refuses_spec (by decide +kernel)⟩,
    ⟨tableDesc 0x21 1, l2Image 1, .badField, 33, by decide +kernel, refuses_spec (by decide +kernel)⟩,
    ⟨tableDesc 0x20 1, admits_spec (by decide +kernel)⟩, tableDesc 0x21 1, admits_spec (by decide +kernel)⟩

theorem witness_PrefixesInsertAndDelete :
    (∃ (d : Desc) (bs : List Byte), AdmittedWith (waiting d) 0 0x22 true (lpmInsertTest (some bs) (d.begun (waiting d))) d ∧ bs.length = d.length ∧
      (waiting d).lpmOpen = true ∧ lpmWidth (lpmFamily bs) * ((waiting d).lpmEntries (lpmFamily bs)).length ≤ (waiting d).lpmUnits (lpmFamily bs)) ∧
    (∃ (d : Desc) (bs : List Byte), AdmittedWith (waiting d) 0 0x23 true (lpmDeleteTest (some bs) (d.begun (waiting d))) d ∧ bs.length = d.length ∧
      (waiting d).lpmOpen = true ∧ lpmWidth (lpmFamily bs) * ((waiting d).lpmEntries (lpmFamily bs)).length ≤ (waiting d).lpmUnits (lpmFamily bs)) ∧
    (∃ (s : State) (d : Desc) (bs : List Byte), bs.length = d.length ∧ s.lpmOpen = false ∧
      AdmittedWith s 0 0x22 true (lpmInsertTest (some bs) (d.begun s)) d) ∧
    ∃ (s : State) (d : Desc) (bs : List Byte), bs.length = d.length ∧ s.lpmOpen = false ∧
      AdmittedWith s 0 0x23 true (lpmDeleteTest (some bs) (d.begun s)) d :=
  ⟨⟨lpmDesc 0x22, v4Image, admits_spec (by decide +kernel), by decide +kernel, by decide +kernel, by decide +kernel⟩,
    ⟨lpmDesc 0x23, v4Image.take 32 ++ zeros 32, admits_spec (by decide +kernel), by decide +kernel, by decide +kernel, by decide +kernel⟩,
    ⟨(waiting (lpmDesc 0x22)).wr FT_LPM_CFG_IMAGE_LOAD 0 1, lpmDesc 0x22, v4Image, by decide +kernel, by decide +kernel, admits_spec (by decide +kernel)⟩,
    (waiting (lpmDesc 0x23)).wr FT_LPM_STATUS_IMAGE_BUSY 0 1, lpmDesc 0x23, v4Image.take 32 ++ zeros 32, by decide +kernel, by decide +kernel,
      admits_spec (by decide +kernel)⟩

theorem witness_TableImagesLoad :
    (∃ (s : State) (p : Fin 8) (v : Word), s.barOpen = true ∧ s.performs (FT_PIPE_CTL.offset p) = true ∧ FT_PIPE_CTL_SPRAY_MODE.of v ≠ 3 ∧
      FT_PIPE_CTL_IMAGE_LOAD.isSet v = true ∧ s.flag FT_PIPE_CTL_IMAGE_LOAD p = false) ∧
    (∃ (s : State) (p : Fin 8) (v : Word), s.barOpen = true ∧ s.performs (FT_PIPE_CTL.offset p) = true ∧ FT_PIPE_CTL_SPRAY_MODE.of v ≠ 3 ∧
      FT_PIPE_CTL_IMAGE_LOAD.isSet v = false ∧ s.flag FT_PIPE_CTL_IMAGE_LOAD p = true) ∧
    (∃ (s : State) (p : Fin 8), s.live = true ∧ (s.ft.endpoints.map (fun kv => kv.1)).Nodup ∧ s.flag FT_PIPE_STATUS_IMAGE_BUSY p = true ∧
      s.slot p 3 0xFFFFF ≠ []) ∧
    (∃ (s : State) (v : Word), s.barOpen = true ∧ s.performs (FT_LPM_CFG.offset 0) = true ∧ s.ft.lpm = [] ∧ FT_LPM_CFG_V4_UNITS.of v % 4 = 0 ∧
      FT_LPM_CFG_V4_UNITS.of v = 0x80000 ∧ FT_LPM_CFG_IMAGE_LOAD.isSet v = true ∧ s.flag FT_LPM_CFG_IMAGE_LOAD 0 = false) ∧
    (∃ (s : State) (v : Word), s.barOpen = true ∧ s.performs (FT_LPM_CFG.offset 0) = true ∧ FT_LPM_CFG_V4_UNITS.of v = s.rd FT_LPM_CFG_V4_UNITS 0 ∧
      FT_LPM_CFG_IMAGE_LOAD.isSet v = false ∧ s.flag FT_LPM_CFG_IMAGE_LOAD 0 = true) ∧
    (∃ s : State, s.live = true ∧ s.flag FT_LPM_STATUS_IMAGE_BUSY 0 = true ∧ s.flag FT_LPM_CFG_IMAGE_LOAD 0 = false) ∧
    (∃ (s : State) (g : Fin 4096) (v : Word), s.barOpen = true ∧ s.performs (FT_GROUP_CFG.offset g) = true ∧ FT_GROUP_CFG_VALID.isSet v = true ∧
      FT_GROUP_CFG_COUNT.of v = 32) ∧
    ∃ (s : State) (g : Fin 4096) (v : Word), s.barOpen = true ∧ s.performs (FT_GROUP_CFG.offset g) = true ∧ FT_GROUP_CFG_VALID.isSet v = true ∧
      FT_GROUP_CFG_COUNT.of v = 33 :=
  ⟨⟨work, 7, (work.wr FT_PIPE_CTL_IMAGE_LOAD 7 1).word (FT_PIPE_CTL.offset 7), by decide +kernel⟩,
    ⟨work.wr FT_PIPE_CTL_IMAGE_LOAD 7 1, 7, work.word (FT_PIPE_CTL.offset 7), by decide +kernel⟩,
    ⟨oneEntry (work.wr FT_PIPE_STATUS_IMAGE_BUSY 7 1) (l2Image 1), 7, by decide +kernel⟩,
    ⟨work, (set [(FT_LPM_CFG_IMAGE_LOAD, 0, 1), (FT_LPM_CFG_V4_UNITS, 0, 0x80000)]).word (FT_LPM_CFG.offset 0), by decide +kernel⟩,
    ⟨work.wr FT_LPM_CFG_IMAGE_LOAD 0 1, work.word (FT_LPM_CFG.offset 0), by decide +kernel⟩,
    ⟨work.wr FT_LPM_STATUS_IMAGE_BUSY 0 1, by decide +kernel⟩,
    ⟨work, 4095, (set [(FT_GROUP_CFG_VALID, 0, 1), (FT_GROUP_CFG_COUNT, 0, 32)]).word (FT_GROUP_CFG.offset 0), by decide +kernel⟩,
    work, 4095, (set [(FT_GROUP_CFG_VALID, 0, 1), (FT_GROUP_CFG_COUNT, 0, 33)]).word (FT_GROUP_CFG.offset 0), by decide +kernel⟩

/-- Pipeline 7 has a learn queued; its own fields. -/
def learning (fs : List (Fld × Nat × Nat)) : State := let s := set fs; { s with ft := { s.ft with learns := [(7, [(4095, 2 ^ 41, 1023)])] } }

theorem witness_LearningAgingAndCompare :
    (∃ (s : State) (p : Fin 8) (vid mac port : Nat) (rest : List (Nat × Nat × Nat)), s.live = true ∧ sget [] s.ft.learns p = (vid, mac, port) :: rest ∧
      s.flag FT_PIPE_CTL_IMAGE_LOAD p = false ∧ s.flag FT_PIPE_CTL_LEARN p = true ∧ s.flag FT_PIPE_STATUS_IMAGE_BUSY p = false) ∧
    (∃ (s : State) (p : Fin 8) (vid mac port : Nat) (rest : List (Nat × Nat × Nat)), s.live = true ∧ sget [] s.ft.learns p = (vid, mac, port) :: rest ∧
      s.flag FT_PIPE_CTL_LEARN p = false) ∧
    (∃ (s : State) (v : Word), s.barOpen = true ∧ s.performs (FT_LEARN_CFG.offset 0) = true ∧ FT_LEARN_CFG_ENABLE.isSet v = true ∧
      s.flag FT_LEARN_CFG_ENABLE 0 = false ∧ FT_LEARN_CFG_LOG2.of v = 20) ∧
    (∃ (s : State) (v : Word), s.barOpen = true ∧ s.performs (FT_LEARN_CFG.offset 0) = true ∧ FT_LEARN_CFG_ENABLE.isSet v = true ∧
      s.flag FT_LEARN_CFG_ENABLE 0 = false ∧ FT_LEARN_CFG_LOG2.of v = 21) ∧
    (∃ (s : State) (p : Fin 8) (w : Fin 4) (i : Fin 1048576), s.live = true ∧ s.flag FT_AGE_CFG_ENABLE 0 = true ∧ s.tableOpen p = true ∧
      s.slot p w i ≠ [] ∧ (imgFlags (s.slot p w i)).testBit 6 = true ∧ (imgFlags (s.slot p w i)).testBit 5 = false ∧
      (imgFlags (s.slot p w i)).testBit 4 = true) ∧
    (∃ (s : State) (d : Desc), Admitted s 0 0x24 false d ∧ d.u8 24 < 8 ∧ s.flag FT_PIPE_CTL_IMAGE_LOAD (d.u8 24) = true) ∧
    ∃ (s : State) (d : Desc), Admitted s 0 0x24 false d ∧ ¬(d.u8 24 < 8 ∧ s.flag FT_PIPE_CTL_IMAGE_LOAD (d.u8 24) = true) ∧ d.u8 24 = 0x13 ∧
      d.u32 28 + d.u32 32 = 128 :=
  let one := desc 0x24 [(2, 0xFFFF), (8, 0x1000), (16, 32), (24, 7), (28, 1023), (32, 1)]
  ⟨⟨learning [(FT_PIPE_CTL_LEARN, 7, 1)], 7, 4095, 2 ^ 41, 1023, [], by decide +kernel⟩,
    ⟨learning [(FT_PIPE_CTL_LEARN, 7, 0)], 7, 4095, 2 ^ 41, 1023, [], by decide +kernel⟩,
    ⟨work, (set [(FT_LEARN_CFG_ENABLE, 0, 1), (FT_LEARN_CFG_LOG2, 0, 20)]).word (FT_LEARN_CFG.offset 0), by decide +kernel⟩,
    ⟨work, (set [(FT_LEARN_CFG_ENABLE, 0, 1), (FT_LEARN_CFG_LOG2, 0, 21)]).word (FT_LEARN_CFG.offset 0), by decide +kernel⟩,
    ⟨oneEntry (work.wr FT_AGE_CFG_ENABLE 0 1) (imgWithFlags (l2Image 1) 0x50), 7, 3, 0xFFFFF, by decide +kernel⟩,
    ⟨(waiting one).wr FT_PIPE_CTL_IMAGE_LOAD 7 1, one, admits_spec (by decide +kernel), by decide +kernel⟩,
    waiting (desc 0x24 [(2, 0xFFFF), (8, 0x1000), (16, 4096), (24, 0x13), (32, 128)]), desc 0x24 [(2, 0xFFFF), (8, 0x1000), (16, 4096), (24, 0x13), (32, 128)],
      admits_spec (by decide +kernel), by decide +kernel⟩

/-- Schedule 127 with register fields and its gate lists. -/
def gated (fs : List (Fld × Nat × Nat)) (g : GateSt) : State := let s := set fs; { s with tq := { s.tq with gates := [(127, g)] } }

theorem witness_GatesRun :
    (∃ (s : State) (k : Fin 128) (v : Word), s.barOpen = true ∧ s.performs (TQ_GATE_CTL.offset k) = true ∧ TQ_GATE_CTL_COMMIT.isSet v = true ∧
      (s.plainWrite TQ_GATE_CTL k v).commitOk k = true) ∧
    (∃ (s : State) (k : Fin 128) (v : Word), s.barOpen = true ∧ s.performs (TQ_GATE_CTL.offset k) = true ∧ TQ_GATE_CTL_COMMIT.isSet v = true ∧
      (s.plainWrite TQ_GATE_CTL k v).commitOk k = false) ∧
    (∃ (s : State) (k : Fin 128), s.live = true ∧ s.flag TQ_GATE_STATUS_PENDING k = true) ∧
    (∃ (s : State) (k : Fin 128), s.live = true ∧ s.flag TQ_GATE_STATUS_PENDING k = false) ∧
    (∃ (s : State) (k : Fin 128), s.live = true ∧ s.flag TQ_GATE_STATUS_OPER_VALID k = true ∧ s.gateExtends k = false) ∧
    ∃ (s : State) (k : Fin 128), s.live = true ∧ s.flag TQ_GATE_STATUS_OPER_VALID k = true ∧ (s.gate k).entry + 1 < (s.gate k).oper.length :=
  ⟨⟨set [(TQ_GATE_ADMIN_INTERVAL_NS, 64 * 127, 1000000), (TQ_GATE_CYCLE_CYCLE_NS, 127, 1000000)], 127,
      (set [(TQ_GATE_CTL_COMMIT, 0, 1), (TQ_GATE_CTL_LIST_LEN, 0, 1)]).word (TQ_GATE_CTL.offset 0), by decide +kernel⟩,
    ⟨work, 127, (set [(TQ_GATE_CTL_COMMIT, 0, 1)]).word (TQ_GATE_CTL.offset 0), by decide +kernel⟩,
    ⟨gated [(TQ_GATE_STATUS_PENDING, 127, 1)] { GateSt.reset with pending := [(255, 1000000)] }, 127, by decide +kernel⟩, ⟨work, 0, by decide +kernel⟩,
    ⟨gated [(TQ_GATE_STATUS_OPER_VALID, 127, 1)] { GateSt.reset with oper := [(255, 1000000)], operCycle := 1000000 }, 127, by decide +kernel⟩,
    gated [(TQ_GATE_STATUS_OPER_VALID, 127, 1)] { GateSt.reset with oper := [(255, 500000), (1, 500000)], operCycle := 1000000 }, 127, by decide +kernel⟩

theorem witness_MetersRun :
    (∃ (s : State) (r : Fin 256), s.barOpen = true ∧ s.performs (TQ_METER_PROFILE.offset (4 * r)) = true ∧
      s.rd TQ_METER_PROFILE_WORD (4 * r + 2) % 2 ^ 32 = 9216) ∧
    (∃ (s : State) (r : Fin 256), s.barOpen = true ∧ s.performs (TQ_METER_PROFILE.offset (4 * r)) = true ∧
      s.rd TQ_METER_PROFILE_WORD (4 * r + 2) % 2 ^ 32 = 9215) ∧
    (∃ (s : State) (m : Fin 65536), s.barOpen = true ∧ s.performs (TQ_METER_CFG.offset m) = true) ∧ ∃ s : State, s.live = true :=
  ⟨⟨set [(TQ_METER_PROFILE_WORD, 1022, 9216)], 255, by decide +kernel⟩, ⟨set [(TQ_METER_PROFILE_WORD, 1022, 9215)], 255, by decide +kernel⟩,
    ⟨work, 65535, by decide +kernel⟩, work, by decide +kernel⟩

/-! ### Conditions that can be met: groups, moorings and manifests -/

/-- The record of a BARRIER group of one member, launched by the host, with mooring 65535 and a flag byte. -/
def barrier (flags group : Nat) : List Byte :=
  bytesOf 160 [(0, 6), (4, 1), (6, flags), (12, 1), (20, group), (24, 65535), (28, 0xFFFF), (40, 64), (56, 1), (60, 1)]

/-- The record of a JOB_BROADCAST group of one member. -/
def broadcast : List Byte := bytesOf 160 [(0, 7), (4, 1), (12, 1), (28, 0xFFFF), (40, 64), (56, 1), (60, 1)]

/-- The record of a BARRIER group that its member launches. -/
def implicit : List Byte := bytesOf 160 [(0, 6), (12, 1), (24, 65535), (28, 0xFFFF), (40, 64), (56, 1), (60, 1)]

/-- A group of partition 3 under tag 1. -/
def groupOf (record : List Byte) (armed : Option Armed) : GroupSt := ⟨1, record, 3, armed, Bcast.reset, none⟩

/-- Partition 3 holds the moorings and HBM, and has group 9. -/
def holding (d : Desc) (g : List (Nat × GroupSt)) : State :=
  let s := serving d
  { s with
    regs := (PC_SCECA_ADDR.base, 1#64) :: readyWords,
    hi := { s.hi with prot := [(protKey 3 0, ⟨1, 3, 0, 65535⟩), (protKey 4 0, ⟨1, 3, 0, 0xFFFFF⟩), (protKey 5 0, ⟨1, 3, 0, 0xFFFFF⟩)] },
    cl := { CollectiveSt.reset with groups := g, tags := [(0, 0xFFFF)] } }

/-- A descriptor of partition 3 with a record of 160 bytes at HOST_ADDR. -/
def recordDesc : Desc := desc 0x30 [(2, 3), (8, 0x1000), (16, 160)]

/-- The handle of group 9. -/
def handle : Nat := 65536 + 9

/-- A command of partition 3 about group 9. -/
def groupDesc (op seq n : Nat) : Desc := desc op [(2, 3), (24, handle), (28, seq), (32, n)]

/-- A launch of group 9 with a record of `len` bytes. -/
def launchDesc (seq n len : Nat) : Desc := desc 0x34 [(2, 3), (8, 0x1000), (16, len), (24, handle), (28, seq), (32, n)]

/-- An armed set-up: the oldest sequence and the next one, and its operations. -/
def armedAt (oldest next : Nat) (ops : List OpSt) : Armed := ⟨oldest, 0, oldest, next, [freshLeg 0 0], ops, [], none⟩

/-- An operation that was launched; its record stands where `produced`. -/
def opAt (seq n : Nat) (produced : Bool) : OpSt :=
  ⟨seq, n, true, 0, 0, [], [], produced, false, [], [], [], false, true, false, false, false, false, false, none, false, 0, 0, 0, 0, 7, 0, 0, [], 0, 0⟩

theorem witness_GroupsRegisterAndRelease :
    (∃ (s : State) (d : Desc) (bs : List Byte), Admitted s 0 0x30 true d ∧ bs.length = d.length ∧ grReplace bs = false ∧
      s.restorable d.partition bs = none ∧ s.recordRefused d.partition bs none = none ∧ s.groupRoom none (grMembers bs) = true ∧ sget 0 s.cl.tags 0 = 0xFFFF) ∧
    (∃ (s : State) (d : Desc) (bs : List Byte) (i : Nat) (g : GroupSt) (st : Status) (x : Nat), Admitted s 0 0x30 true d ∧ bs.length = d.length ∧
      s.restorable d.partition bs = none ∧ grReplace bs = true ∧ s.groupFor d (grGroup bs) = some (i, g) ∧
      s.recordRefused d.partition bs (some (i, g)) = some (st, x)) ∧
    (∃ (s : State) (d : Desc) (bs : List Byte) (i : Nat) (g : GroupSt), Admitted s 0 0x30 true d ∧ bs.length = d.length ∧
      s.restorable d.partition bs = none ∧ grReplace bs = true ∧ s.groupFor d (grGroup bs) = some (i, g) ∧
      s.recordRefused d.partition bs (some (i, g)) = none ∧ g.armed = none ∧ s.groupRoom (some i) (grMembers bs) = true) ∧
    (∃ (s : State) (d : Desc) (bs : List Byte) (st : Status) (x : Nat), Admitted s 0 0x30 true d ∧ bs.length = d.length ∧
      s.restorable d.partition bs = none ∧ grReplace bs = false ∧ s.recordRefused d.partition bs none = some (st, x)) ∧
    (∃ (s : State) (d : Desc) (bs : List Byte) (i : Nat) (g : GroupSt), Admitted s 0 0x30 true d ∧ bs.length = d.length ∧
      s.restorable d.partition bs = some (i, g)) ∧
    (∃ (s : State) (d : Desc), Admitted s 0 0x31 false d ∧ s.groupFor d (d.u32 24) = none) ∧
    (∃ (s : State) (d : Desc) (g : GroupSt), Admitted s 0 0x31 false d ∧ s.groupFor d (d.u32 24) = some (9, g) ∧ g.armed.isSome = true) ∧
    ∃ (s : State) (d : Desc) (g : GroupSt), Admitted s 0 0x31 false d ∧ s.groupFor d (d.u32 24) = some (9, g) ∧ g.armed.isSome = false :=
  let release := groupDesc 0x31 0 0
  ⟨⟨holding recordDesc [], recordDesc, barrier 0 0, admits_spec (by decide +kernel), by decide +kernel⟩,
    ⟨holding recordDesc [(9, groupOf (barrier 0 0) (some (armedAt 0 0 [])))], recordDesc, barrier 1 handle, 9, groupOf (barrier 0 0) (some (armedAt 0 0 [])), .busy, 0,
      admits_spec (by decide +kernel), by decide +kernel⟩,
    ⟨holding recordDesc [(9, groupOf (barrier 0 0) none)], recordDesc, barrier 1 handle, 9, groupOf (barrier 0 0) none, admits_spec (by decide +kernel), by decide +kernel⟩,
    ⟨holding recordDesc [], recordDesc, zeros 160, .badField, 0, admits_spec (by decide +kernel), by decide +kernel⟩,
    ⟨holding recordDesc [(9, { groupOf (barrier 0 0) none with retained := some (0, 0) })], recordDesc, barrier 0 0, 9,
      { groupOf (barrier 0 0) none with retained := some (0, 0) }, admits_spec (by decide +kernel), by decide +kernel⟩,
    ⟨holding release [], release, admits_spec (by decide +kernel), by decide +kernel⟩,
    ⟨holding release [(9, groupOf (barrier 0 0) (some (armedAt 0 0 [])))], release, groupOf (barrier 0 0) (some (armedAt 0 0 [])), admits_spec (by decide +kernel),
      by decide +kernel⟩,
    holding release [(9, groupOf (barrier 0 0) none)], release, groupOf (barrier 0 0) none, admits_spec (by decide +kernel), by decide +kernel⟩

theorem witness_ContextsArmAndDisarm :
    (∃ (s : State) (d : Desc), Admitted s 0 0x32 false d ∧ s.groupFor d (d.u32 24) = none) ∧
    (∃ (s : State) (d : Desc) (g : GroupSt) (a : Armed), Admitted s 0 0x32 false d ∧ s.groupFor d (d.u32 24) = some (9, g) ∧ g.armed = some a ∧
      a.first = d.u32 28 ∧ a.count = d.u32 32 ∧ a.disarm = none) ∧
    (∃ (s : State) (d : Desc) (g : GroupSt), Admitted s 0 0x32 false d ∧ s.groupFor d (d.u32 24) = some (9, g) ∧ g.armed = none ∧
      s.armRefused g.record d.partition (d.u32 32) = some (.badField, 32)) ∧
    (∃ (s : State) (d : Desc) (g : GroupSt), Admitted s 0 0x32 false d ∧ s.groupFor d (d.u32 24) = some (9, g) ∧ g.armed = none ∧
      s.armRefused g.record d.partition (d.u32 32) = none ∧ grOp g.record = 6 ∧ grLegs g.record = 0 ∧ s.cl.waits = [] ∧ d.u32 28 = 0xFFFFFFFF) ∧
    (∃ (s : State) (d : Desc), Admitted s 0 0x33 false d ∧ s.groupFor d (d.u32 24) = none) ∧
    (∃ (s : State) (d : Desc) (g : GroupSt), Admitted s 0 0x33 false d ∧ s.groupFor d (d.u32 24) = some (9, g) ∧ g.armed = none) ∧
    ∃ (s : State) (d : Desc) (g : GroupSt) (a : Armed), Admitted s 0 0x33 false d ∧ s.groupFor d (d.u32 24) = some (9, g) ∧ g.armed = some a ∧
      grOp g.record = 6 ∧ grLegs g.record = 0 ∧ a.ops = [] ∧ ∀ e ∈ s.hi.descs, e.id = d.id → e = d :=
  let arm := groupDesc 0x32 0xFFFFFFFF 0
  let last := groupDesc 0x33 0xFFFFFFFF 0
  ⟨⟨holding arm [], arm, admits_spec (by decide +kernel), by decide +kernel⟩,
    ⟨holding arm [(9, groupOf (barrier 0 0) (some (armedAt 0xFFFFFFFF 0 [])))], arm, groupOf (barrier 0 0) (some (armedAt 0xFFFFFFFF 0 [])),
      armedAt 0xFFFFFFFF 0 [], admits_spec (by decide +kernel), by decide +kernel⟩,
    ⟨holding (groupDesc 0x32 0 1) [(9, groupOf (barrier 0 0) none)], groupDesc 0x32 0 1, groupOf (barrier 0 0) none, admits_spec (by decide +kernel), by decide +kernel⟩,
    ⟨holding arm [(9, groupOf (barrier 0 0) none)], arm, groupOf (barrier 0 0) none, admits_spec (by decide +kernel), by decide +kernel⟩,
    ⟨holding last [], last, admits_spec (by decide +kernel), by decide +kernel⟩,
    ⟨holding last [(9, groupOf (barrier 0 0) none)], last, groupOf (barrier 0 0) none, admits_spec (by decide +kernel), by decide +kernel⟩,
    holding last [(9, groupOf (barrier 0 0) (some (armedAt 0 0 [])))], last, groupOf (barrier 0 0) (some (armedAt 0 0 [])), armedAt 0 0 [],
      admits_spec (by decide +kernel), by decide +kernel, by decide +kernel, by decide +kernel, by decide +kernel, by decide +kernel,
      fun e h _ => List.mem_singleton.mp h⟩

/-- The launch admitted for group 9 of a record, armed or not. -/
def launching (d : Desc) (record : List Byte) (a : Option Armed) : State := holding d [(9, groupOf record a)]

theorem witness_OperationsLaunchAndAcknowledge :
    (∃ (s : State) (d : Desc), Admitted s 0 0x34 true d ∧ s.groupFor d (d.u32 24) = none) ∧
    (∃ (s : State) (d : Desc) (g : GroupSt), Admitted s 0 0x34 true d ∧ s.groupFor d (d.u32 24) = some (9, g) ∧ grHost g.record = false) ∧
    (∃ (s : State) (d : Desc) (g : GroupSt), Admitted s 0 0x34 true d ∧ s.groupFor d (d.u32 24) = some (9, g) ∧ grHost g.record = true ∧ g.armed = none) ∧
    (∃ (s : State) (d : Desc) (g : GroupSt) (a : Armed), Admitted s 0 0x34 true d ∧ s.groupFor d (d.u32 24) = some (9, g) ∧ grHost g.record = true ∧
      g.armed = some a ∧ grOp g.record ≠ 7 ∧ seqBefore (d.u32 28) a.oldest = true) ∧
    (∃ (s : State) (d : Desc) (g : GroupSt) (a : Armed) (o : OpSt), Admitted s 0 0x34 true d ∧ s.groupFor d (d.u32 24) = some (9, g) ∧
      grHost g.record = true ∧ g.armed = some a ∧ grOp g.record ≠ 7 ∧ seqBefore (d.u32 28) a.oldest = false ∧ a.op (d.u32 28) = some o ∧
      o.launched = true ∧ o.count ≠ d.u32 32) ∧
    (∃ (s : State) (d : Desc) (g : GroupSt) (a : Armed) (o : OpSt), Admitted s 0 0x34 true d ∧ s.groupFor d (d.u32 24) = some (9, g) ∧
      grHost g.record = true ∧ g.armed = some a ∧ grOp g.record ≠ 7 ∧ seqBefore (d.u32 28) a.oldest = false ∧ a.op (d.u32 28) = some o ∧
      o.launched = true ∧ o.count = d.u32 32 ∧ o.produced = true ∧ o.rerun = false ∧ o.replayed = false ∧ o.reruns = 0) ∧
    (∃ (s : State) (d : Desc) (g : GroupSt) (a : Armed), Admitted s 0 0x34 true d ∧ s.groupFor d (d.u32 24) = some (9, g) ∧ grHost g.record = true ∧
      g.armed = some a ∧ grOp g.record ≠ 7 ∧ seqBefore (d.u32 28) a.oldest = false ∧ a.op (d.u32 28) = none ∧ d.u32 28 ≠ a.nextLaunch ∧
      seqBefore (d.u32 28) a.nextLaunch = false) ∧
    (∃ (s : State) (d : Desc) (raw : List Byte) (g : GroupSt) (a : Armed), Admitted s 0 0x34 true d ∧ raw.length = d.length ∧
      s.groupFor d (d.u32 24) = some (9, g) ∧ grHost g.record = true ∧ g.armed = some a ∧ d.u32 28 = a.nextLaunch ∧ a.disarm = none ∧ a.lost = [] ∧
      countOk g.record (s.projects g.record) (d.u32 32) = true ∧ s.launchRefused d g.record raw = none ∧ grOp g.record = 6 ∧
      seqBefore (d.u32 28) a.oldest = false ∧ a.op (d.u32 28) = none) ∧
    (∃ (s : State) (d : Desc) (raw : List Byte) (g : GroupSt) (a : Armed), Admitted s 0 0x34 true d ∧ raw.length = d.length ∧
      s.groupFor d (d.u32 24) = some (9, g) ∧ grHost g.record = true ∧ g.armed = some a ∧ d.u32 28 = a.nextLaunch ∧ a.disarm = none ∧ a.lost = [] ∧
      countOk g.record (s.projects g.record) (d.u32 32) = true ∧ s.launchRefused d g.record raw = none ∧ grOp g.record = 7 ∧
      g.bcast.held.any (fun h => h.1 == d.u32 28) = false) ∧
    (∃ (s : State) (d : Desc), Admitted s 0 0x35 false d ∧ s.groupFor d (d.u32 24) = none) ∧
    ∃ (s : State) (d : Desc) (g : GroupSt) (a : Armed) (o : OpSt), Admitted s 0 0x35 false d ∧ s.groupFor d (d.u32 24) = some (9, g) ∧ g.armed = some a ∧
      grOp g.record ≠ 7 ∧ seqBefore (d.u32 28) a.oldest = false ∧ a.op (d.u32 28) = some o ∧ o.launched = true ∧ o.produced = true :=
  let d := launchDesc 5 0 64
  let ack := groupDesc 0x35 5 0
  let bar := barrier 0 0
  ⟨⟨holding d [], d, admits_spec (by decide +kernel), by decide +kernel⟩,
    ⟨launching d implicit none, d, groupOf implicit none, admits_spec (by decide +kernel), by decide +kernel⟩,
    ⟨launching d bar none, d, groupOf bar none, admits_spec (by decide +kernel), by decide +kernel⟩,
    ⟨launching d bar (some (armedAt 6 6 [])), d, groupOf bar (some (armedAt 6 6 [])), armedAt 6 6 [], admits_spec (by decide +kernel), by decide +kernel⟩,
    ⟨launching (launchDesc 5 1 64) bar (some (armedAt 5 6 [opAt 5 0 false])), launchDesc 5 1 64, groupOf bar (some (armedAt 5 6 [opAt 5 0 false])),
      armedAt 5 6 [opAt 5 0 false], opAt 5 0 false, admits_spec (by decide +kernel), by decide +kernel⟩,
    ⟨launching d bar (some (armedAt 5 6 [opAt 5 0 true])), d, groupOf bar (some (armedAt 5 6 [opAt 5 0 true])), armedAt 5 6 [opAt 5 0 true], opAt 5 0 true,
      admits_spec (by decide +kernel), by decide +kernel⟩,
    ⟨launching d bar (some (armedAt 4 4 [])), d, groupOf bar (some (armedAt 4 4 [])), armedAt 4 4 [], admits_spec (by decide +kernel), by decide +kernel⟩,
    ⟨launching d bar (some (armedAt 5 5 [])), d, zeros 64, groupOf bar (some (armedAt 5 5 [])), armedAt 5 5 [], admits_spec (by decide +kernel), by decide +kernel⟩,
    ⟨launching (launchDesc 5 0 65) broadcast (some (armedAt 5 5 [])), launchDesc 5 0 65, zeros 65, groupOf broadcast (some (armedAt 5 5 [])), armedAt 5 5 [],
      admits_spec (by decide +kernel), by decide +kernel⟩,
    ⟨holding ack [], ack, admits_spec (by decide +kernel), by decide +kernel⟩,
    launching ack bar (some (armedAt 5 6 [opAt 5 0 true])), ack, groupOf bar (some (armedAt 5 6 [opAt 5 0 true])), armedAt 5 6 [opAt 5 0 true], opAt 5 0 true,
      admits_spec (by decide +kernel), by decide +kernel⟩

/-! ### Conditions that can be met: moorings, manifests and tile instructions -/

/-- A MOORING_SET or MOORING_WAIT of mooring 65535. -/
def mooringDesc (op count target opts : Nat) : Desc := desc op [(2, 3), (24, 65535), (32, count), (40, target), (48, opts)]

/-- An atomic on the last word of the first 1 MiB. -/
def atomicDesc (op : Nat) : Desc := desc op [(2, 3), (24, 0xFFFF8), (32, 2 ^ 64 - 1), (40, if op = 0x42 then 1 else 0)]

theorem witness_MooringsAndAtomicsAct :
    (∃ (s : State) (d : Desc), Admitted s 0 0x40 false d ∧ s.landingMooring (d.u32 24) = true) ∧
    (∃ (s : State) (d : Desc), Admitted s 0 0x40 false d ∧ s.landingMooring (d.u32 24) = false ∧ d.u8 48 % 4 = 1 ∧ (d.u8 48).testBit 6 = true ∧
      (s.mooring (d.u32 24)).target = 0) ∧
    (∃ (s : State) (d : Desc), Admitted s 0 0x40 false d ∧ s.landingMooring (d.u32 24) = false ∧ d.u8 48 % 4 = 2 ∧ (d.u8 48).testBit 7 = true) ∧
    (∃ (s : State) (d : Desc), Admitted s 0 0x41 false d ∧ d.u64 32 ≤ (s.mooring (d.u32 24)).count) ∧
    (∃ (s : State) (d : Desc), Admitted s 0 0x41 false d ∧ (s.mooring (d.u32 24)).count < d.u64 32) ∧
    (∃ (s : State) (sram : Sram) (d : Desc), s.Coherent ∧ Admitted s 0 0x42 false d ∧ sram ≠ .uncorrectable ∧ s.firstLost (d.u64 24) 8 = none) ∧
    (∃ (s : State) (sram : Sram) (d : Desc), s.Coherent ∧ Admitted s 0 0x43 false d ∧ sram ≠ .uncorrectable ∧ s.firstLost (d.u64 24) 8 = none) ∧
    (∃ (s : State) (d : Desc), Admitted s 0 0x42 false d ∧ s.firstLost (d.u64 24) 8 = some 1023) ∧
    ∃ (s : State) (d : Desc), Admitted s 0 0x43 false d ∧ s.firstLost (d.u64 24) 8 = some 1023 :=
  let spoil := fun (s : State) => ({ s with ms := { s.ms with unreadable := [1023] } } : State)
  ⟨⟨holding (mooringDesc 0x40 0 0 0) [(9, groupOf (barrier 0 0) (some (armedAt 0 0 [])))], mooringDesc 0x40 0 0 0, admits_spec (by decide +kernel), by decide +kernel⟩,
    ⟨holding (mooringDesc 0x40 0 0 0x41) [], mooringDesc 0x40 0 0 0x41, admits_spec (by decide +kernel), by decide +kernel⟩,
    ⟨holding (mooringDesc 0x40 (2 ^ 64 - 1) 7 0x82) [], mooringDesc 0x40 (2 ^ 64 - 1) 7 0x82, admits_spec (by decide +kernel), by decide +kernel⟩,
    ⟨holding (mooringDesc 0x41 0 0 0) [], mooringDesc 0x41 0 0 0, admits_spec (by decide +kernel), by decide +kernel⟩,
    ⟨holding (mooringDesc 0x41 1 0 0) [], mooringDesc 0x41 1 0 0, admits_spec (by decide +kernel), by decide +kernel⟩,
    ⟨holding (atomicDesc 0x42) [], .clean, atomicDesc 0x42, coherent_of_empty rfl, admits_spec (by decide +kernel), by decide +kernel, by decide +kernel⟩,
    ⟨holding (atomicDesc 0x43) [], .corrected, atomicDesc 0x43, coherent_of_empty rfl, admits_spec (by decide +kernel), by decide +kernel, by decide +kernel⟩,
    ⟨spoil (holding (atomicDesc 0x42) []), atomicDesc 0x42, admits_spec (by decide +kernel), by decide +kernel⟩,
    spoil (holding (atomicDesc 0x43) []), atomicDesc 0x43, admits_spec (by decide +kernel), by decide +kernel⟩

/-- A manifest descriptor about slot 127: ACTION or SOURCE, and an image of `n` bytes at HOST_ADDR where it has one. -/
def slotDesc (op what n host : Nat) : Desc := desc op [(2, 3), (8, host), (16, n), (24, 127), (27, what)]

/-- The loader's state for a descriptor, with slot 127 in a state. -/
def slotIn (d : Desc) (state : Nat) : State := (serving d).wr MF_SLOT_STATUS_STATE 127 state

theorem witness_ManifestsChangeState :
    (∃ (s : State) (d : Desc) (bs : List Byte), Admitted s 0 0x50 false d ∧ s.loaderFree d = true ∧ s.loadUnderWay 0 = none ∧ s.hi.d3hot = false ∧
      d.u8 27 ≠ 1 ∧ bs.length = d.length ∧ s.slotState d.slot = 2) ∧
    (∃ (s : State) (d : Desc) (bs : List Byte), Admitted s 0 0x50 false d ∧ s.loaderFree d = true ∧ s.loadUnderWay 0 = none ∧ s.hi.d3hot = false ∧
      d.u8 27 ≠ 1 ∧ bs.length = d.length ∧ s.slotState d.slot = 1) ∧
    (∃ (s : State) (d : Desc), Admitted s 0 0x50 false d ∧ s.loaderFree d = true ∧ s.loadUnderWay 0 = none ∧ d.u8 27 = 1) ∧
    (∃ (s : State) (d : Desc), s.live = true ∧ s.loadUnderWay 0 = some d ∧ d.silent = false ∧ d.atRead = false ∧ d.u8 27 = 1 ∧ s.slotState d.slot < 2) ∧
    (∃ (s : State) (d : Desc), Admitted s 0 0x51 false d ∧ s.loaderFree d = true ∧ d.u8 27 ≠ 1 ∧ d.u8 27 ≠ 2 ∧ s.slotState d.slot = 0) ∧
    (∃ (s : State) (d : Desc), Admitted s 0 0x51 false d ∧ s.loaderFree d = true ∧ d.u8 27 ≠ 1 ∧ d.u8 27 ≠ 2 ∧ s.slotState d.slot = 1 ∧
      s.tilesTaken d.slot (s.mslot d.slot).image = false ∧ s.matricesInside (s.mslot d.slot).image = true ∧
      s.reservationRefused d.slot (s.mslot d.slot).image = none) ∧
    (∃ (s : State) (d : Desc), Admitted s 0 0x51 false d ∧ s.loaderFree d = true ∧ d.u8 27 = 1 ∧ s.slotState d.slot = 2 ∧ (s.mslot d.slot).bound = [] ∧
      (s.mslot d.slot).run.all (fun e => e.ended) = true) ∧
    (∃ (s : State) (d : Desc), Admitted s 0 0x51 false d ∧ s.loaderFree d = true ∧ d.u8 27 = 2 ∧ s.slotState d.slot = 1) ∧
    ∃ (s : State) (d : Desc), Admitted s 0 0x51 false d ∧ s.loaderFree d = true ∧ d.u8 27 = 2 ∧ s.slotState d.slot = 3 :=
  let host := slotDesc 0x50 0 256 0x1000
  let staged := slotDesc 0x50 1 256 0
  ⟨⟨slotIn host 2, host, zeros 256, admits_spec (by decide +kernel), by decide +kernel⟩,
    ⟨slotIn host 1, host, zeros 256, admits_spec (by decide +kernel), by decide +kernel⟩,
    ⟨slotIn staged 0, staged, admits_spec (by decide +kernel), by decide +kernel⟩,
    ⟨slotIn (begun staged) 0, begun staged, by decide +kernel⟩,
    ⟨slotIn (slotDesc 0x51 0 0 0) 0, slotDesc 0x51 0 0 0, admits_spec (by decide +kernel), by decide +kernel⟩,
    ⟨slotIn (slotDesc 0x51 0 0 0) 1, slotDesc 0x51 0 0 0, admits_spec (by decide +kernel), by decide +kernel⟩,
    ⟨slotIn (slotDesc 0x51 1 0 0) 2, slotDesc 0x51 1 0 0, admits_spec (by decide +kernel), by decide +kernel⟩,
    ⟨slotIn (slotDesc 0x51 2 0 0) 1, slotDesc 0x51 2 0 0, admits_spec (by decide +kernel), by decide +kernel⟩,
    slotIn (slotDesc 0x51 2 0 0) 3, slotDesc 0x51 2 0 0, admits_spec (by decide +kernel), by decide +kernel⟩

theorem witness_SnapshotsAndLogReads :
    (∃ (s : State) (d : Desc), Admitted s 0 0x60 false d ∧ d.u8 24 = 4 ∧ d.u32 28 + d.u32 32 = 1048576) ∧
    ∃ (s : State) (d : Desc), Admitted s 0 0x70 false d ∧ d.u32 28 = 0xFFFFFFFF ∧ d.u32 32 = 4096 :=
  let counters := desc 0x60 [(2, 0xFFFF), (8, 0x1000), (16, 8), (24, 4), (28, 1048575), (32, 1)]
  let log := desc 0x70 [(2, 0xFFFF), (8, 0x1000), (16, 64 * 4096), (28, 0xFFFFFFFF), (32, 4096)]
  ⟨⟨waiting counters, counters, admits_spec (by decide +kernel), by decide +kernel⟩, waiting log, log, admits_spec (by decide +kernel), by decide +kernel⟩

/-- The 16 bytes of a tile instruction of operation slot 0. -/
def instrBytes (op : Nat) (fields : List (Nat × Nat)) : List Byte := bytesOf 16 ((4, op) :: fields)

/-- A manifest of tile 175 alone under variant 0, with one operation slot of one 32-element FP8 block of one source, one matrix of one
row of one byte, and a stream of one instruction. -/
def oneInstr (raw : List Byte) : List Byte :=
  (bytesOf 392 [(7, 1), (18, 175), (20, 1), (40, 1), (42, 1), (44, 128), (48, 192), (52, 224), (128, 4), (129, 4), (132, 32), (136, 1), (138, 1), (142, 1),
    (146, 1), (150, 1), (154, 1), (200, 1), (202, 1), (228, 288), (288, 296), (292, 1)]).take 296 ++ raw

/-- The part of operation 5 of group 9 in an epoch. -/
def partOf (count : Nat) : LiveSlot := ⟨0, 9, 0, 5, 0, count, 0, 0, false, false, false, false, 0⟩

/-- An epoch of slot 127 under way. -/
def epochOf (void ended : Bool) (live : List LiveSlot) : EpochRun := ⟨1, 0, 0, 0, 0, none, void, ended, live, [], [0, 0]⟩

/-- Tile 175 with an instruction next, what it holds, and the epoch's parts. -/
def issuing (raw : List Byte) (y : TileSt) (live : List LiveSlot) : State :=
  { work with
    re := { ReduceSt.reset with
      slots := [(127, { SlotSt.reset with image := oneInstr raw, run := some (epochOf false false live) })],
      tiles := [(175, { y with program := raw })] },
    cl := { CollectiveSt.reset with groups := [(9, groupOf (barrier 0 0) none)] } }

/-- The tile's next instruction works, as a test. -/
theorem works_of {s : State} {k tile op : Nat} {a : LiveSlot} (P : Issue → Bool)
    (h : (s.live && (s.issue k tile).any (fun x => x.i.op == op && x.work == some a && P x)) = true) : ∃ x, Works s k tile op x a ∧ P x = true := by
  rw [Bool.and_eq_true] at h
  cases hx : s.issue k tile with
  | none => rw [hx] at h; exact absurd h.2 Bool.false_ne_true
  | some x =>
    rw [hx] at h
    have e : (x.i.op == op && x.work == some a && P x) = true := h.2
    simp only [Bool.and_eq_true, beq_iff_eq] at e
    exact ⟨x, ⟨h.1, hx, e.1.1, e.1.2⟩, e.2⟩

/-- A tile's next instruction, as a test. -/
theorem issues_of {s : State} {k tile : Nat} (P : Issue → Bool) (h : (s.issue k tile).any P = true) : ∃ x, s.issue k tile = some x ∧ P x = true := by
  cases hx : s.issue k tile with
  | none => rw [hx] at h; exact absurd h Bool.false_ne_true
  | some x => rw [hx] at h; exact ⟨x, rfl, h⟩

theorem witness_SuppressedInstructionsPass :
    (∀ op ∈ [0x01, 0x02, 0x03, 0x06, 0x07, 0x08, 0x09, 0x0A],
      let s := issuing (instrBytes op []) TileSt.reset []
      s.live = true ∧ (s.issue 127 175).any (fun x => x.i.op == op && x.work == none) = true) ∧
    ∃ s : State, s.live = true ∧ s.issue 127 175 = none :=
  ⟨by decide +kernel, work, by decide +kernel⟩

theorem witness_ReducingInstructionsAct :
    (∃ (s : State) (x : Issue) (a : LiveSlot), Works s 127 175 0x01 x a) ∧
    (∃ (s : State) (a : LiveSlot) (x : Issue), Works s 127 175 0x02 x a ∧ (s.landed 175 (x.frame a)).isNone = true) ∧
    (∃ (s : State) (a : LiveSlot) (x : Issue), Works s 127 175 0x02 x a ∧ (s.landed 175 (x.frame a)).any (fun y => !y.counted) = true) ∧
    (∃ (s : State) (a : LiveSlot) (x : Issue), Works s 127 175 0x02 x a ∧ (s.landed 175 (x.frame a)).any (fun y => y.counted) = true) ∧
    (∃ (s : State) (a : LiveSlot) (x : Issue), Works s 127 175 0x03 x a ∧
      (checkResidue (accumCheck x.p.layout ((s.tile 175).accums x.p.layout x.base 0 x.p.e)) == checkResidue ((s.tile 175).check x.chk)) = true) ∧
    (∃ (s : State) (a : LiveSlot) (x : Issue), Works s 127 175 0x03 x a ∧
      (checkResidue (accumCheck x.p.layout ((s.tile 175).accums x.p.layout x.base 0 x.p.e)) != checkResidue ((s.tile 175).check x.chk)) = true) ∧
    (∃ (s : State) (a : LiveSlot) (x : Issue), Works s 127 175 0x04 x a ∧ (s.roundValues x a).isEmpty = true) ∧
    (∃ (s : State) (a : LiveSlot) (x : Issue), Works s 127 175 0x04 x a ∧ (!(s.roundValues x a).isEmpty) = true) ∧
    (∃ (s : State) (die : Fin 2) (phys : Fin 96), s.live = true ∧ s.sentinelMay die phys = false) ∧
    (∃ (s : State) (die : Fin 2) (phys : Fin 96), s.live = true ∧ s.sentinelMay die phys = true ∧ s.logicalOf die phys = some 175) ∧
    ∃ (s : State) (die : Fin 2) (phys : Fin 96), s.live = true ∧ s.sentinelMay die phys = true ∧ s.logicalOf die phys = none :=
  let s := fun (op : Nat) (fields : List (Nat × Nat)) (y : TileSt) => issuing (instrBytes op fields) y [partOf 32]
  let held := fun (c : Bool) => ({ TileSt.reset with frames := [(0, ⟨5, 0, 0, c, 0, 32⟩)] } : TileSt)
  ⟨⟨s 1 [] TileSt.reset, (works_of (a := partOf 32) (fun _ => true) (by decide +kernel)).imp (fun _ h => ⟨partOf 32, h.1⟩)⟩,
    ⟨s 2 [] TileSt.reset, partOf 32, works_of (fun x => ((s 2 [] TileSt.reset).landed 175 (x.frame (partOf 32))).isNone) (by decide +kernel)⟩,
    ⟨s 2 [] (held false), partOf 32, works_of (fun x => ((s 2 [] (held false)).landed 175 (x.frame (partOf 32))).any (fun y => !y.counted)) (by decide +kernel)⟩,
    ⟨s 2 [] (held true), partOf 32, works_of (fun x => ((s 2 [] (held true)).landed 175 (x.frame (partOf 32))).any (fun y => y.counted)) (by decide +kernel)⟩,
    ⟨s 3 [] TileSt.reset, partOf 32, works_of (fun x => checkResidue (accumCheck x.p.layout (((s 3 [] TileSt.reset).tile 175).accums x.p.layout x.base 0 x.p.e)) ==
      checkResidue (((s 3 [] TileSt.reset).tile 175).check x.chk)) (by decide +kernel)⟩,
    ⟨s 3 [] { TileSt.reset with chk := [(0, 1)] }, partOf 32, works_of (fun x =>
      checkResidue (accumCheck x.p.layout (((s 3 [] { TileSt.reset with chk := [(0, 1)] }).tile 175).accums x.p.layout x.base 0 x.p.e)) !=
      checkResidue (((s 3 [] { TileSt.reset with chk := [(0, 1)] }).tile 175).check x.chk)) (by decide +kernel)⟩,
    ⟨s 4 [] TileSt.reset, partOf 32, works_of (fun x => ((s 4 [] TileSt.reset).roundValues x (partOf 32)).isEmpty) (by decide +kernel)⟩,
    ⟨s 4 [(14, 32)] TileSt.reset, partOf 32, works_of (fun x => !((s 4 [(14, 32)] TileSt.reset).roundValues x (partOf 32)).isEmpty) (by decide +kernel)⟩,
    ⟨set [(MF_SENTINEL_CFG_ENABLE, 0, 0)], 0, 0, by decide +kernel⟩,
    ⟨set [(MF_SENTINEL_CFG_ENABLE, 0, 1), (RE_TILE_MAP_PHYS, 175, 95), (RE_TILE_MAP_VALID, 175, 1)], 1, 95, by decide +kernel⟩,
    set [(MF_SENTINEL_CFG_ENABLE, 0, 1)], 1, 95, by decide +kernel⟩

theorem witness_ProjectingAndMovingInstructionsAct :
    (∃ (s : State), s.live = true ∧ ∃ x, s.issue 127 175 = some x ∧
      (x.i.op == 0x05 && x.live.isSome && ((s.tile 175).buf x.i.buf).isSome) = true) ∧
    (∃ (s : State), s.live = true ∧ ∃ x, s.issue 127 175 = some x ∧ (x.i.op == 0x05 && x.live.isNone) = true) ∧
    (∃ (s : State) (a : LiveSlot) (x : Issue), Works s 127 175 0x06 x a ∧
      (s.firstLost ((matrixOf x.m x.i.matrix).address + x.i.firstRow * (matrixOf x.m x.i.matrix).rowBytes) (x.i.rows * (matrixOf x.m x.i.matrix).rowBytes)).isNone = true) ∧
    (∃ (s : State) (a : LiveSlot) (x : Issue), Works s 127 175 0x07 x a ∧ ((s.tile 175).buf x.i.buf).isNone = true) ∧
    (∃ (s : State) (a : LiveSlot) (x : Issue), Works s 127 175 0x07 x a ∧
      (((s.tile 175).buf x.i.buf).isSome && (s.tile 175).holdsMatrix x.i.matrix (matrixOf x.m x.i.matrix)) = true) ∧
    (∃ (s : State) (a : LiveSlot) (x : Issue), Works s 127 175 0x08 x a ∧ (s.tile 175).product.isNone = true) ∧
    (∃ (s : State) (a : LiveSlot) (x : Issue), Works s 127 175 0x08 x a ∧ (s.tile 175).product.any (fun q => projectionChecks q.d q.c q.g q.m q.y) = true) ∧
    (∃ (s : State) (a : LiveSlot) (x : Issue), Works s 127 175 0x09 x a ∧ true = true) ∧
    (∃ (s : State) (a : LiveSlot) (x : Issue), Works s 127 175 0x0A x a ∧ (s.firstLost (s.spillAddress x a) (64 * x.p.k)).isNone = true) ∧
    ∃ (s : State), s.live = true ∧ ∃ x, s.issue 127 175 = some x ∧ (x.i.op == 0x0B) = true :=
  let s := fun (op : Nat) (y : TileSt) => issuing (instrBytes op []) y [partOf 32]
  let staged : TileSt := { TileSt.reset with staging := [(0, ⟨0, 0, false, 4, 0, zeros 32, 32, 32, false, false, false, 0, 32⟩)], weights := [(0, [0])] }
  let made : TileSt := { TileSt.reset with product := some ⟨0, 0, [], 1, 1, [], [], false, false, 0⟩ }
  ⟨⟨s 5 staged, by decide +kernel, issues_of (fun x => x.i.op == 0x05 && x.live.isSome && (((s 5 staged).tile 175).buf x.i.buf).isSome) (by decide +kernel)⟩,
    ⟨issuing (instrBytes 5 []) TileSt.reset [], by decide +kernel, issues_of (fun x => x.i.op == 0x05 && x.live.isNone) (by decide +kernel)⟩,
    ⟨s 6 TileSt.reset, partOf 32, works_of (fun x => ((s 6 TileSt.reset).firstLost ((matrixOf x.m x.i.matrix).address + x.i.firstRow * (matrixOf x.m x.i.matrix).rowBytes)
      (x.i.rows * (matrixOf x.m x.i.matrix).rowBytes)).isNone) (by decide +kernel)⟩,
    ⟨s 7 TileSt.reset, partOf 32, works_of (fun x => (((s 7 TileSt.reset).tile 175).buf x.i.buf).isNone) (by decide +kernel)⟩,
    ⟨s 7 staged, partOf 32, works_of (fun x => (((s 7 staged).tile 175).buf x.i.buf).isSome &&
      ((s 7 staged).tile 175).holdsMatrix x.i.matrix (matrixOf x.m x.i.matrix)) (by decide +kernel)⟩,
    ⟨s 8 TileSt.reset, partOf 32, works_of (fun _ => ((s 8 TileSt.reset).tile 175).product.isNone) (by decide +kernel)⟩,
    ⟨s 8 made, partOf 32, works_of (fun _ => ((s 8 made).tile 175).product.any (fun q => projectionChecks q.d q.c q.g q.m q.y)) (by decide +kernel)⟩,
    ⟨s 9 TileSt.reset, partOf 32, works_of (fun _ => true) (by decide +kernel)⟩,
    ⟨s 10 TileSt.reset, partOf 32, works_of (fun x => ((s 10 TileSt.reset).firstLost ((s 10 TileSt.reset).spillAddress x (partOf 32)) (64 * x.p.k)).isNone) (by decide +kernel)⟩,
    s 11 TileSt.reset, by decide +kernel, issues_of (fun x => x.i.op == 0x0B) (by decide +kernel)⟩

/-! ### Conditions that can be met: epochs, packets and power -/

/-- Slot 127 with an image, a state and an epoch. -/
def slotWith (m : List Byte) (state : Nat) (x : SlotSt) : State :=
  let s := set [(MF_SLOT_STATUS_STATE, 127, state), (RE_TILE_MAP_VALID, 175, 1), (MF_DIE_STATUS_VARIANT, 1, 0)]
  { s with re := { ReduceSt.reset with slots := [(127, { x with image := m })] } }

/-- A manifest of tile 175 that is triggered by time at 1,000 ns, with an empty stream. -/
def timed : List Byte := (oneInstr (zeros 16)).set 292 0

theorem witness_EpochsRun :
    (∃ (s : State) (k : Fin 128), s.live = true ∧ s.slotState k = 2 ∧ mfTrigger (s.mslot k).image ≠ 1 ∧ s.timeReady (mfDomain (s.mslot k).image) = true ∧
      (s.mslot k).next ≤ (s.dom (mfDomain (s.mslot k).image)).total ∧ (s.mslot k).nominal.isSome = true) ∧
    (∃ (s : State) (k : Fin 128), s.live = true ∧ s.slotState k ≠ 2) ∧
    (∃ (s : State) (k : Fin 128), s.live = true ∧ s.slotState k = 2 ∧ (s.mslot k).run = none ∧ (s.slotLocked k && s.lockHalted) = false ∧
      (s.lateness k).isSome = true ∧ s.mayRun k (s.mslot k).image = true) ∧
    (∃ (s : State) (k : Fin 128), s.live = true ∧ (s.mslot k).run = none) ∧
    (∃ (s : State) (k : Fin 128) (e : EpochRun), s.live = true ∧ (s.mslot k).run = some e ∧ e.ended = true ∧ e.void = true ∧
      (∀ a ∈ e.live, s.partWhole a = true ∧ ∃ g, s.armed a.group = some g ∧ g.serves a.seq = true ∧ g.disarm = none) ∧
      s.mayRun k (s.mslot k).image = true) ∧
    (∃ (s : State) (k : Fin 128) (e : EpochRun), s.live = true ∧ (s.mslot k).run = some e ∧ e.ended = false ∧ e.void = true ∧ s.slotState k ≠ 3 ∧
      ∀ kv ∈ s.cl.groups, kv.2.armed.isSome = true → s.stillOwns kv.2 = true) ∧
    (∃ (s : State) (k : Fin 128) (e : EpochRun), s.live = true ∧ (s.mslot k).run = some e ∧ e.ended = false ∧ e.void = true ∧ s.slotState k = 3) ∧
    (∃ (s : State) (k : Fin 128) (e : EpochRun), s.live = true ∧ (s.mslot k).run = some e ∧ e.ended = false ∧ e.void = false ∧
      (List.range (mfTileCount (s.mslot k).image)).all (fun n => (e.tile n).finished (s.mslot k).image e.variant n) = true) ∧
    (∃ (s : State) (k : Fin 128) (e : EpochRun), s.live = true ∧ (s.mslot k).run = some e ∧ e.ended = false ∧ e.void = false ∧
      (List.range (mfTileCount (s.mslot k).image)).all (fun n => (e.tile n).finished (s.mslot k).image e.variant n) = false) ∧
    ∃ (s : State) (k : Fin 128), s.live = true ∧ ∀ e, (s.mslot k).run = some e → e.void = false ∨ e.ended = false :=
  let run := fun (m : List Byte) (state : Nat) (e : EpochRun) => slotWith m state { SlotSt.reset with run := some e }
  ⟨⟨slotWith timed 2 { SlotSt.reset with nominal := some 0 }, 127, by decide +kernel⟩, ⟨work, 127, by decide +kernel⟩,
    ⟨slotWith timed 2 { SlotSt.reset with nominal := some 0 }, 127, by decide +kernel⟩, ⟨work, 127, by decide +kernel⟩,
    ⟨run timed 2 (epochOf true true []), 127, epochOf true true [], by decide +kernel, rfl, rfl, rfl, fun a h => absurd h List.not_mem_nil, by decide +kernel⟩,
    ⟨run timed 2 (epochOf true false []), 127, epochOf true false [], by decide +kernel⟩,
    ⟨run timed 3 (epochOf true false []), 127, epochOf true false [], by decide +kernel⟩,
    ⟨run timed 2 (epochOf false false []), 127, epochOf false false [], by decide +kernel⟩,
    ⟨run (oneInstr (zeros 16)) 2 (epochOf false false []), 127, epochOf false false [], by decide +kernel⟩,
    work, 127, by decide +kernel, fun e h => nomatch h⟩

/-! #### Packets for the device -/

/-- An IPv6 packet of UDP with a Sceca header in network v, from source MAC zero: type, group, sequence, block, payload, check. -/
def scecaPacket (type v group seq version block : Nat) (payload : List Byte) (check : Nat) : List Byte :=
  zeros 12 ++ natBe 2 0x86DD ++ natBe 4 0x60000000 ++ natBe 2 (56 + payload.length) ++ natBe 2 0x1140 ++ zeros 16 ++ natLe 16 1 ++
  natBe 2 7 ++ natBe 2 7 ++ natBe 2 (56 + payload.length) ++ zeros 2 ++
  natBe 1 (16 + type) ++ natBe 1 v ++ natBe 2 3 ++ natBe 4 group ++ natBe 4 seq ++ natBe 4 block ++ zeros 4 ++ natBe 1 4 ++ zeros 1 ++
  natBe 2 payload.length ++ zeros 4 ++ natBe 4 version ++ zeros 8 ++ natBe 8 check ++ payload

/-- A packet about group 9 with a good output check. -/
def answerPacket (type seq version block : Nat) (payload : List Byte) : List Byte :=
  scecaPacket type (if type = 4 then 4 else if type = 3 then 1 else 2) handle seq version block payload (checkWord false true (outputCheck payload))

/-- Port 0 is up toward devices, and partition 3 is ACTIVE with group 9. -/
def listening (g : List (Nat × GroupSt)) : State :=
  let s := (holding (desc 0 []) g).wrs [(PC_SCECA_CFG_ENABLE, 0, 1), (PC_SCECA_CFG_UDP_PORT, 0, 7), (PC_PORT_CFG_ENABLE, 0, 1), (PC_PORT_STATUS_LINK, 0, 3)]
  { s with hi := { s.hi with descs := [] } }

/-- A packet is taken whole, as a test. -/
theorem taken_of {s : State} {n : Nat} {tag : Option (BitVec 48)} {type : Nat} {packet : List Byte} (P : Hdr → Sceca → Bool)
    (h : (s.live && s.link n == 3 && (s.port n).arriving == none && s.inflight n == none && (!s.isFabric n || s.tagVerdict n tag == .accept) &&
      (s.controlPacket type packet).any (fun x =>
        (s.refusedIn n (if s.isFabric n = true then tagVn (tag.getD 0).toNat else 0) packet x.2).isNone && P x.1 x.2)) = true) :
    ∃ a c, Taken s n tag type packet a c ∧ P a c = true := by
  simp only [Bool.and_eq_true, Bool.or_eq_true, Bool.not_eq_true', beq_iff_eq] at h
  obtain ⟨⟨⟨⟨⟨a, b⟩, c⟩, d⟩, e⟩, f⟩ := h
  cases hx : s.controlPacket type packet with
  | none => rw [hx] at f; exact absurd f Bool.false_ne_true
  | some x =>
    rw [hx] at f
    have g := (Bool.and_eq_true _ _).mp f
    refine ⟨x.1, x.2, ⟨a, b, ⟨c, d⟩, hx, fun i => ?_, Option.isNone_iff_eq_none.mp g.1⟩, g.2⟩
    rcases e with e | e
    · rw [i] at e; exact absurd e (by decide)
    · exact e

/-- The record of a relay group of one leg whose parent is at address zero. -/
def relayRecord : List Byte := bytesOf 168 [(0, 1), (1, 4), (2, 4), (4, 1), (6, 2), (7, 1), (8, 32), (12, 1), (28, 127), (104, 1), (130, 1)]

/-- An ALL_REDUCE record of one leg and one member that launches by itself. -/
def reduceRecord : List Byte := bytesOf 168 [(0, 1), (1, 4), (2, 4), (7, 1), (8, 32), (12, 1), (28, 127), (130, 1)]

/-- Group 9 reduces on tile 175 from sequence 0 on. -/
def reducing : State :=
  let s := listening [(9, groupOf reduceRecord (some { armedAt 0 0 [] with count := 32 }))]
  { s with re := { ReduceSt.reset with slots := [(127, { SlotSt.reset with image := oneInstr (zeros 16) })] } }

/-- A contribution of 32 FP8 elements to block 0. -/
def contributionPacket (group : Nat) : List Byte := scecaPacket 1 2 group 0 0 0 (zeros 32) 0

/-- A contribution is named, as a test. -/
theorem contribution_of {s : State} {packet : List Byte} (P : Hdr → Sceca → Bool) (h : (s.contribution packet).any (fun x => P x.1 x.2) = true) :
    ∃ a c, s.contribution packet = some (a, c) ∧ P a c = true := by
  cases hx : s.contribution packet with
  | none => rw [hx] at h; exact absurd h Bool.false_ne_true
  | some x => rw [hx] at h; exact ⟨x.1, x.2, rfl, h⟩

/-- A contribution that waits for arming. -/
def waitingPacket : Waiting := ⟨contributionPacket handle, 0, 3, .arming, false⟩

theorem witness_ContributionsArriveAndCount :
    (∃ (s : State) (n : Fin 1024) (packet : List Byte), s.live = true ∧ s.link n = 3 ∧ (s.port n).arriving = none ∧ s.inflight n = none ∧
      s.isFabric n = false ∧ s.portReady n = false ∧ ∃ h c, s.contribution packet = some (h, c) ∧ true = true) ∧
    (∃ (s : State) (n : Fin 1024) (packet : List Byte), s.live = true ∧ s.link n = 3 ∧ (s.port n).arriving = none ∧ s.inflight n = none ∧
      s.isFabric n = false ∧ s.portReady n = true ∧ s.pairPort n = false ∧ ∃ h c, s.contribution packet = some (h, c) ∧
      (decide (c.partition < 256) && (s.part c.partition).state == .free) = true) ∧
    (∃ (s : State) (n : Fin 1024) (packet : List Byte), s.live = true ∧ s.link n = 3 ∧ (s.port n).arriving = none ∧ s.inflight n = none ∧
      s.isFabric n = false ∧ s.portReady n = true ∧ s.pairPort n = false ∧ ∃ h c, s.contribution packet = some (h, c) ∧
      (decide (c.partition < 256) && (s.part c.partition).state == .active && (s.groupBy c.group).isNone) = true) ∧
    (∃ (s : State) (n : Fin 1024) (packet : List Byte), s.live = true ∧ s.link n = 3 ∧ (s.port n).arriving = none ∧ s.inflight n = none ∧
      s.isFabric n = false ∧ s.portReady n = true ∧ s.pairPort n = false ∧ ∃ h c, s.contribution packet = some (h, c) ∧
      (decide (c.partition < 256) && (s.part c.partition).state == .active &&
        (match s.groupBy c.group with
        | some (i, g) => s.group i == some g && g.partition == c.partition &&
          (match g.armed with
          | some a => a.disarm == none && decide (c.source < grMembers g.record) && grOp g.record != 5 && grOp g.record != 7 && !seqBefore c.sequence a.oldest &&
            decide (wrapSub 32 c.sequence a.oldest < 4) && !arrivesEmpty g.record a && legOfMember g.record c.source == (0, 0) &&
            contributionElems g.record (s.legSlot g.record 0) (a.countOf g.record c.sequence) (some c.source) c.block c.payloadLen == .inl 32 &&
            s.reachesTiles n (recordDie g.record) && s.slotFor i 0 c.sequence c.block 0 == .frame
          | none => false)
        | none => false)) = true) ∧
    (∃ (s : State) (n : Fin 1024), s.live = true ∧ s.inflight n = none) ∧
    (∃ (s : State) (n : Fin 1024) (x : Inflight), s.live = true ∧ s.inflight n = some x) ∧
    (∃ s : State, s.live = true ∧ s.cl.waits.find? (fun w => w.cause == .arming) = none) ∧
    ∃ (s : State) (w : Waiting), s.live = true ∧ s.cl.waits.find? (fun v => v.cause == .arming) = some w ∧
      ∃ h c, s.contribution w.packet = some (h, c) ∧ true = true :=
  ⟨⟨(listening []).wr PC_PORT_STATUS_LINK 1023 3 |>.wr BT_READY_MAP_BITS 16 (2 ^ 63 - 1), 1023, contributionPacket handle, by decide +kernel, by decide +kernel,
      by decide +kernel, by decide +kernel, by decide +kernel, by decide +kernel, contribution_of (fun _ _ => true) (by decide +kernel)⟩,
    ⟨{ listening [] with hi := work.hi }, 0, contributionPacket handle, by decide +kernel, by decide +kernel, by decide +kernel, by decide +kernel, by decide +kernel,
      by decide +kernel, by decide +kernel, contribution_of _ (by decide +kernel)⟩,
    ⟨listening [], 0, contributionPacket handle, by decide +kernel, by decide +kernel, by decide +kernel, by decide +kernel, by decide +kernel,
      by decide +kernel, by decide +kernel, contribution_of _ (by decide +kernel)⟩,
    ⟨reducing, 0, contributionPacket handle, by decide +kernel, by decide +kernel, by decide +kernel, by decide +kernel, by decide +kernel,
      by decide +kernel, by decide +kernel, contribution_of _ (by decide +kernel)⟩,
    ⟨work, 1023, by decide +kernel⟩,
    ⟨{ work with cl := { CollectiveSt.reset with inflight := [(1023, ⟨[], .dropped, 0⟩)] } }, 1023, ⟨[], .dropped, 0⟩, by decide +kernel⟩,
    ⟨work, by decide +kernel⟩,
    { listening [] with cl := { CollectiveSt.reset with waits := [waitingPacket] } }, waitingPacket, by decide +kernel, by decide +kernel,
      contribution_of (fun _ _ => true) (by decide +kernel)⟩

/-! ### Conditions that can be met: answers, broadcasts, clocks and limits -/

/-- A BARRIER group of partition 3 with operation 5. -/
def barrierWith (o : OpSt) : State := listening [(9, groupOf (barrier 0 0) (some (armedAt 5 6 [o])))]

theorem witness_AnswersAndReplaysAreTaken :
    (∃ (s : State) (p : List Byte) (h : Hdr) (c : Sceca), Taken s 0 none 4 p h c ∧ ((s.ackedBy h.source c).isNone && !s.ackFromParent h.source c) = true) ∧
    (∃ (s : State) (p : List Byte) (h : Hdr) (c : Sceca), Taken s 0 none 4 p h c ∧ ((s.ackedBy h.source c).isNone && s.ackFromParent h.source c) = true) ∧
    (∃ (s : State) (p : List Byte) (h : Hdr) (c : Sceca), Taken s 0 none 4 p h c ∧
      ((s.ackedBy h.source c) == some (9, [0]) && be (c.payload p) 0 2 != statusCode .success && (s.armed 9).isSome) = true) ∧
    (∃ (s : State) (p : List Byte) (h : Hdr) (c : Sceca), Taken s 0 none 4 p h c ∧
      ((s.ackedBy h.source c) == some (9, [0]) && be (c.payload p) 0 2 == statusCode .success && grOp (s.record 9) == 6 && grLegs (s.record 9) == 0 &&
        (s.armed 9).any (fun a => !seqBefore c.sequence a.oldest && (a.op c.sequence).any (fun o => o.produced))) = true) ∧
    (∃ (s : State) (p : List Byte) (h : Hdr) (c : Sceca), Taken s 0 none 3 p h c ∧ (s.packetGroup c).isNone = true) ∧
    (∃ (s : State) (p : List Byte) (h : Hdr) (c : Sceca), Taken s 0 none 3 p h c ∧
      (s.packetGroup c).any (fun g => !(grMembersAt g.2.record h.source).isEmpty && g.2.armed.any (fun a => seqBefore c.sequence a.oldest)) = true) ∧
    (∃ (s : State) (p : List Byte) (h : Hdr) (c : Sceca), Taken s 0 none 3 p h c ∧ (s.packetGroup c).any (fun g =>
      !(grMembersAt g.2.record h.source).isEmpty && g.2.armed.any (fun a => !seqBefore c.sequence a.oldest && (a.op c.sequence).any (fun o => !o.acked && !o.produced))) = true) ∧
    (∃ (s : State) (p : List Byte) (h : Hdr) (c : Sceca), Taken s 0 none 3 p h c ∧ (s.packetGroup c).any (fun g =>
      !(grMembersAt g.2.record h.source).isEmpty && g.2.armed.any (fun a => !seqBefore c.sequence a.oldest && a.disarm == none &&
        (a.op c.sequence).any (fun o => !o.acked && o.produced && !o.rerun))) = true) ∧
    (∃ (s : State) (p : List Byte) (h : Hdr) (c : Sceca), Taken s 0 none 3 p h c ∧ (s.packetGroup c).any (fun g =>
      !(grMembersAt g.2.record h.source).isEmpty && g.2.armed.any (fun a => !seqBefore c.sequence a.oldest && (a.op c.sequence).any (fun o => o.acked))) = true) ∧
    (∃ (s : State) (p : List Byte) (h : Hdr) (c : Sceca), Taken s 0 none 2 p h c ∧ (s.packetGroup c).isNone = true) ∧
    (∃ (s : State) (p : List Byte) (h : Hdr) (c : Sceca), Taken s 0 none 2 p h c ∧ (s.packetGroup c).any (fun g =>
      grHasParent g.2.record && !grNoLegs g.2.record && g.2.armed.any (fun a => seqBefore c.sequence a.oldest)) = true) ∧
    ∃ (s : State) (p : List Byte) (h : Hdr) (c : Sceca), Taken s 0 none 2 p h c ∧ (s.packetGroup c).any (fun g =>
      grHasParent g.2.record && !grNoLegs g.2.record && g.2.armed.any (fun a => !seqBefore c.sequence a.oldest)) = true :=
  let relay := fun (old : Nat) => listening [(9, groupOf relayRecord (some (armedAt old old [])))]
  let good := natBe 2 (statusCode .success) ++ zeros 6
  ⟨⟨listening [], answerPacket 4 5 0 0 [], taken_of _ (by decide +kernel)⟩,
    ⟨{ relay 0 with cl := { (relay 0).cl with groups := [(9, groupOf (relayRecord.set 136 1) none)] } },
      scecaPacket 4 4 0 5 0 0 [] (checkWord false true (outputCheck [])), taken_of _ (by decide +kernel)⟩,
    ⟨barrierWith (opAt 5 0 true), answerPacket 4 5 0 0 (natBe 2 0xFFFF ++ zeros 6), taken_of _ (by decide +kernel)⟩,
    ⟨barrierWith (opAt 5 0 true), answerPacket 4 5 0 0 good, taken_of _ (by decide +kernel)⟩,
    ⟨listening [], answerPacket 3 5 0 0 [], taken_of _ (by decide +kernel)⟩,
    ⟨barrierWith (opAt 5 0 true), answerPacket 3 4 0 0 [], taken_of _ (by decide +kernel)⟩,
    ⟨barrierWith (opAt 5 0 false), answerPacket 3 5 0 0 [], taken_of _ (by decide +kernel)⟩,
    ⟨barrierWith (opAt 5 0 true), answerPacket 3 5 0 0 [], taken_of _ (by decide +kernel)⟩,
    ⟨barrierWith { opAt 5 0 true with acked := true }, answerPacket 3 5 0 0 [], taken_of _ (by decide +kernel)⟩,
    ⟨listening [], answerPacket 2 5 0 0 [], taken_of _ (by decide +kernel)⟩,
    ⟨relay 6, answerPacket 2 5 0 0 [], taken_of _ (by decide +kernel)⟩,
    relay 5, answerPacket 2 5 0 0 [], taken_of _ (by decide +kernel)⟩

/-- A broadcast group of one member, of which version 5 is held. -/
def castGroup (resends : Nat) : GroupSt :=
  { groupOf broadcast (some (armedAt 0 0 [])) with bcast := { Bcast.reset with held := some (5, 1), resends := [(0, resends)] } }

theorem witness_BroadcastsAndTimersRun :
    (∃ (s : State) (p : List Byte) (h : Hdr) (c : Sceca), Taken s 0 none 5 p h c ∧
      ((s.packetGroup c).filter (fun ig => grOp ig.2.record == 7 && ig.2.armed.isSome)).isNone = true) ∧
    (∃ (s : State) (p : List Byte) (h : Hdr) (c : Sceca), Taken s 0 none 5 p h c ∧
      ((s.packetGroup c).filter (fun ig => grOp ig.2.record == 7 && ig.2.armed.isSome)).any (fun g =>
        g.2.bcast.held.any (fun x => !seqBefore x.1 c.versionNo)) = true) ∧
    (∃ (s : State) (p : List Byte) (h : Hdr) (c : Sceca), Taken s 0 none 5 p h c ∧
      ((s.packetGroup c).filter (fun ig => grOp ig.2.record == 7 && ig.2.armed.isSome)).any (fun g =>
        !g.2.bcast.held.any (fun x => !seqBefore x.1 c.versionNo) && decide (c.block = 8)) = true) ∧
    (∃ (s : State) (p : List Byte) (h : Hdr) (c : Sceca), Taken s 0 none 5 p h c ∧
      ((s.packetGroup c).filter (fun ig => grOp ig.2.record == 7 && ig.2.armed.isSome)).any (fun g =>
        !g.2.bcast.held.any (fun x => !seqBefore x.1 c.versionNo) && decide (c.block = 7) && g.2.bcast.coming.isNone && decide (0 < grMembers g.2.record)) = true) ∧
    (∃ (s : State) (i : Fin 32768) (g : GroupSt), s.live = true ∧ s.group i = some g ∧ (g.armed.isSome && g.bcast.held.isSome) = false) ∧
    (∃ (s : State) (i : Fin 32768) (g : GroupSt), s.live = true ∧ s.group i = some g ∧ g.armed.isSome = true ∧ g.bcast.held.isSome = true ∧
      0 ∈ g.unackedMembers ∧ sget 0 g.bcast.resends 0 = 15) ∧
    (∃ (s : State) (i : Fin 32768) (l : Fin 33) (h : Fin 2), s.live = true ∧ (s.armed i).isSome = true ∧
      (s.leg i l).any (fun g => decide (s.rd CL_CFG_REPLAY_LIMIT 0 ≤ (g.half h).rounds)) = true ∧ s.halfUses i l h ≠ []) ∧
    (∃ (s : State) (p : Fin 256), s.live = true ∧ (s.part p).state ≠ .active) ∧ (∃ (s : State) (p : Fin 256), s.live = true ∧ (s.part p).state = .active) ∧
    (∃ (s : State) (d : Fin 2), s.live = true ∧ s.stacksReady d = false) ∧ ∃ (s : State) (d : Fin 2), s.live = true ∧ s.stacksReady d = true :=
  let cast := listening [(9, castGroup 15)]
  ⟨⟨listening [], answerPacket 5 0 6 0 [], taken_of _ (by decide +kernel)⟩,
    ⟨cast, answerPacket 5 0 5 0 [], taken_of _ (by decide +kernel)⟩, ⟨cast, answerPacket 5 0 6 8 [], taken_of _ (by decide +kernel)⟩,
    ⟨cast, answerPacket 5 0 6 7 [], taken_of _ (by decide +kernel)⟩,
    ⟨barrierWith (opAt 5 0 true), 9, _, by decide +kernel, rfl, by decide +kernel⟩,
    ⟨cast, 9, castGroup 15, by decide +kernel, rfl, by decide +kernel⟩,
    ⟨{ reducing with cl := { reducing.cl with
        groups := [(9, groupOf reduceRecord (some { armedAt 0 0 [] with count := 32, legs := [{ freshLeg 0 0 with half0 := ⟨none, 255⟩ }] }))] } }, 9, 0, 0,
      by decide +kernel⟩,
    ⟨listening [], 255, by decide +kernel⟩, ⟨listening [], 3, by decide +kernel⟩,
    ⟨work.wr BT_READY_MAP_BITS 0 0, 0, by decide +kernel⟩, work, 1, by decide +kernel⟩

/-- A die of a temperature and power in a telemetry frame. -/
def celsius (t : Nat) : BitVec 12 × BitVec 12 := (0, BitVec.ofNat 12 (16 * t))

theorem witness_VariantsMove :
    (∃ (s : State) (d : Fin 2) (dies : List (BitVec 12 × BitVec 12)), s.live = true ∧ s.dieReady (6 + d) = true ∧
      (s.telemetry dies).rd PM_DIE_STATUS_TJ (6 + d) = 1680) ∧
    (∃ (s : State) (d : Fin 2), s.live = true ∧ s.dieReady (6 + d) = false) ∧
    (∃ (s : State) (d : Fin 2) (dies : List (BitVec 12 × BitVec 12)), s.live = true ∧ s.dieReady (6 + d) = true ∧
      (s.telemetry dies).rd PM_DIE_STATUS_TJ (6 + d) < 1680 ∧ s.heldBySafety (6 + d) = true) ∧
    (∃ (s : State) (d : Fin 2) (dies : List (BitVec 12 × BitVec 12)), s.live = true ∧ s.dieReady (6 + d) = true ∧
      (s.telemetry dies).rd PM_DIE_STATUS_TJ (6 + d) < 1680 ∧ s.heldBySafety (6 + d) = false ∧ (s.allowedVariants d).contains (s.rd MF_DIE_STATUS_VARIANT d) = true) ∧
    (∃ (s : State) (d : Fin 2), s.live = true ∧ s.pm.ramping.contains d.val = true) ∧ (∃ (s : State) (d : Fin 2), s.live = true ∧ s.pm.ramping.contains d.val = false) ∧
    (∃ (s : State) (d : Fin 2), s.live = true ∧ s.dieRuns d = false ∧ s.landsOn d = false ∧ s.flag MF_DIE_STATUS_CHANGING d = true) ∧
    ∃ (s : State) (d : Fin 2), s.live = true ∧ s.flag MF_DIE_STATUS_CHANGING d = false :=
  ⟨⟨work, 1, List.replicate 9 (celsius 105), by decide +kernel⟩, ⟨set [(BT_READY_MAP_BITS, 0, 0)], 1, by decide +kernel⟩,
    ⟨{ work with pm := { PowerSt.reset with actions := [actionKey 2 7] } }, 1, List.replicate 9 (celsius 20), by decide +kernel⟩,
    ⟨work, 1, List.replicate 9 (celsius 20), by decide +kernel⟩,
    ⟨{ work with pm := { PowerSt.reset with ramping := [1] } }, 1, by decide +kernel⟩, ⟨work, 0, by decide +kernel⟩,
    ⟨set [(MF_DIE_STATUS_CHANGING, 1, 1)], 1, by decide +kernel⟩, set [(MF_DIE_STATUS_CHANGING, 1, 0)], 1, by decide +kernel⟩

theorem witness_SafetyLimitsAct :
    (∃ (s : State) (temp : BitVec 12), s.live = true ∧ temp.toNat = 1759) ∧
    (∃ (s : State) (g : Fin 9), s.live = true ∧ s.pm.actions.contains (actionKey 2 g) = true) ∧
    (∃ (s : State) (g : Fin 9) (temp : BitVec 12), s.live = true ∧ temp.toNat = 1760 ∧ s.pm.actions.contains (actionKey 2 g) = false) ∧
    (∃ (s : State) (r : Rail), s.live = true ∧ s.pm.actions.contains (actionKey 3 (railIndex r)) = true) ∧
    ∃ (s : State) (r : Rail), s.live = true ∧ s.pm.actions.contains (actionKey 3 (railIndex r)) = false :=
  ⟨⟨work, 1759, by decide +kernel⟩, ⟨{ work with pm := { PowerSt.reset with actions := [actionKey 2 8] } }, 8, by decide +kernel⟩,
    ⟨work, 8, 1760, by decide +kernel⟩, ⟨{ work with pm := { PowerSt.reset with actions := [actionKey 3 (railIndex .vddPkt)] } }, .vddPkt, by decide +kernel⟩,
    work, .vddPkt, by decide +kernel⟩

/-! ### Conditions that can be met: sentinels, lock-step and memory -/

/-- A write of fields over the reset word of a register. -/
def wordOf (r : Reg) (fs : List (Fld × Nat × Nat)) : Word := (set fs).word (r.offset 0)

/-- Port 0 is the pair's port, with lock-step on. -/
def paired (own peer : List Digest) : State :=
  let s := (portAt 0 1 3 linked).wrs [(MF_LS_CFG_ENABLE, 0, 1), (MF_LS_CFG_PORT, 0, 0), (MF_SLOT_EPOCHS_EPOCHS, 127, 1), (MF_LS_SLOTS_BITS, 1, 2 ^ 63)]
  { s with re := { ReduceSt.reset with own := own, peer := peer } }

/-- A DIGEST of slot 127's epoch 0. -/
def digestFrame : List Byte := natBe 2 0x0101 ++ natBe 2 96 ++ zeros 8 ++ natBe 1 127 ++ zeros 83

/-- An own digest of slot 127's epoch 0. -/
def ownDigest : Digest := ⟨127, 0, 0, zeros 32, 0, 0, zeros 32, []⟩

/-- The link layer answers so, and leaves some state. -/
theorem consumes {s : State} {n : Nat} {tag : Option (BitVec 48)} {len : Nat} {b : Bool} (h : (s.linkConsume n tag len).1 = b) :
    ∃ u, s.linkConsume n tag len = (b, u) := ⟨_, Prod.ext h rfl⟩

theorem witness_SentinelsAndLockstepCompare :
    (∃ (s : State) (d : Fin 2) (phys : Fin 96), s.live = true ∧ s.sentinelMay d phys = false) ∧
    (∃ (s : State) (d : Fin 2) (phys : Fin 96), s.live = true ∧ s.sentinelMay d phys = true ∧ s.logicalOf d phys = some 175) ∧
    (∃ (s : State) (v : Word), s.barOpen = true ∧ s.performs (MF_LS_CFG.offset 0) = true ∧ MF_LS_CFG_TIMEOUT_US.of v = 9) ∧
    (∃ (s : State) (v : Word), s.barOpen = true ∧ s.performs (MF_LS_CFG.offset 0) = true ∧ MF_LS_CFG_TIMEOUT_US.of v = 10 ∧ MF_LS_CFG_ENABLE.isSet v = false) ∧
    (∃ (s : State) (v : Word), s.barOpen = true ∧ s.performs (MF_LS_CFG.offset 0) = true ∧ MF_LS_CFG_TIMEOUT_US.of v = 10 ∧ MF_LS_CFG_ENABLE.isSet v = true ∧
      s.flag MF_LS_CFG_ENABLE 0 = false ∧ s.pairPortOk (MF_LS_CFG_PORT.of v) = false) ∧
    (∃ s : State, s.barOpen = true ∧ s.performs (MF_LS_STATUS.offset 0) = true) ∧
    (∃ (s : State) (n : Fin 1024), s.live = true ∧ s.link n ≠ 3) ∧
    (∃ (s : State) (n : Fin 1024) (tag : Option (BitVec 48)) (p : List Byte), s.live = true ∧ s.link n = 3 ∧
      ∃ u, s.linkConsume n tag (p.length + 18) = (false, u)) ∧
    (∃ (s : State) (n : Fin 1024) (tag : Option (BitVec 48)) (p : List Byte), s.live = true ∧ s.link n = 3 ∧ digestFormed p = false ∧
      ∃ u, s.linkConsume n tag (p.length + 18) = (true, u)) ∧
    (∃ (s : State) (n : Fin 1024) (tag : Option (BitVec 48)) (p : List Byte) (a : Digest), s.live = true ∧ s.link n = 3 ∧
      s.flag MF_LS_CFG_ENABLE 0 = true ∧ s.rd MF_LS_CFG_PORT 0 = n ∧ digestFormed p = true ∧ s.slotLocked (digestOf p).slot = true ∧
      s.re.own.find? (fun x => x.slot == (digestOf p).slot && x.epoch == (digestOf p).epoch) = some a ∧ (∀ x ∈ s.re.peer, x.slot ≠ (digestOf p).slot) ∧
      (digestOf p).epoch ≤ s.completedEpochs (digestOf p).slot ∧ ∃ u, s.linkConsume n tag (p.length + 18) = (true, u)) ∧
    (∃ (s : State) (k : Fin 128), s.live = true ∧ s.re.own.find? (fun x => x.slot == k.val) = none) ∧
    ∃ (s : State) (k : Fin 128) (g : Digest), s.live = true ∧ s.re.own.find? (fun x => x.slot == k.val) = some g :=
  ⟨⟨set [(MF_SENTINEL_CFG_ENABLE, 0, 0)], 1, 95, by decide +kernel⟩,
    ⟨set [(MF_SENTINEL_CFG_ENABLE, 0, 1), (RE_TILE_MAP_PHYS, 175, 95), (RE_TILE_MAP_VALID, 175, 1)], 1, 95, by decide +kernel⟩,
    ⟨work, wordOf MF_LS_CFG [(MF_LS_CFG_TIMEOUT_US, 0, 9)], by decide +kernel⟩,
    ⟨work, wordOf MF_LS_CFG [(MF_LS_CFG_TIMEOUT_US, 0, 10), (MF_LS_CFG_ENABLE, 0, 0)], by decide +kernel⟩,
    ⟨work, wordOf MF_LS_CFG [(MF_LS_CFG_TIMEOUT_US, 0, 10), (MF_LS_CFG_ENABLE, 0, 1)], by decide +kernel⟩, ⟨work, by decide +kernel⟩,
    ⟨work, 1023, by decide +kernel⟩, ⟨paired [] [], 0, none, zeros 46, by decide +kernel, by decide +kernel, consumes (by decide +kernel)⟩,
    ⟨paired [] [], 0, some (BitVec.ofNat 48 (makeTag 0 true 0)), zeros 46, by decide +kernel, by decide +kernel, by decide +kernel, consumes (by decide +kernel)⟩,
    ⟨paired [ownDigest] [], 0, some (BitVec.ofNat 48 (makeTag 0 true 0)), digestFrame, ownDigest, by decide +kernel, by decide +kernel, by decide +kernel,
      by decide +kernel, by decide +kernel, by decide +kernel, by decide +kernel, by decide +kernel, by decide +kernel, consumes (by decide +kernel)⟩,
    ⟨work, 127, by decide +kernel⟩, paired [ownDigest] [], 127, ownDigest, by decide +kernel⟩

/-- A line of the last stripe of die 1, with its last sector dirty. -/
def lastLine : Line := ⟨2 ^ 29 - 5, false, 2 ^ 31, [(31, zeros 32)]⟩

/-- Flow entry 0xFFFFFF of pipeline 7 has counts gathered. -/
def flowing : State := { work with ms := { MemSt.reset with flows := [(7, [(0xFFFFFF, ⟨1, 64, 0, 0⟩)])] } }

theorem witness_CacheAndCountersServe :
    (∃ (s : State) (d : Fin 2) (v : Word), s.barOpen = true ∧ s.performs (MS_CACHE_CFG.offset d) = true ∧ MS_CACHE_CFG_SHARE.of v = 17) ∧
    (∃ (s : State) (d : Fin 2) (v : Word), s.barOpen = true ∧ s.performs (MS_CACHE_CFG.offset d) = true ∧ s.flag MS_CACHE_STATUS_RESIZING d = false ∧
      MS_CACHE_CFG_SHARE.of v ≤ 16 ∧ MS_CACHE_CFG_KEEP_WAYS.of v = 12 ∧ MS_CACHE_CFG_SHARE.of v = s.rd MS_CACHE_CFG_SHARE d) ∧
    (∃ (s : State) (d : Fin 2) (v : Word), s.barOpen = true ∧ s.performs (MS_CACHE_CFG.offset d) = true ∧ s.flag MS_CACHE_STATUS_RESIZING d = false ∧
      MS_CACHE_CFG_SHARE.of v = 0 ∧ MS_CACHE_CFG_KEEP_WAYS.of v ≤ 12 ∧ MS_CACHE_CFG_SHARE.of v ≠ s.rd MS_CACHE_CFG_SHARE d ∧
      (s.plainWrite MS_CACHE_CFG d v).poolsFit = true) ∧
    (∃ (s : State) (d : Fin 2) (k : Fin 16), s.barOpen = true ∧ s.performs (MS_HINT_RANGE.offset (32 * d + 2 * k + 1)) = true) ∧
    (∃ (s : State) (stripe : Fin 536870912), s.live = true ∧ lineAt s.ms.combining stripe = none) ∧
    (∃ (s : State) (stripe : Fin 536870912) (x : Line), s.live = true ∧ lineAt s.ms.combining stripe = some x ∧
      (x.sectors.map (fun kb => kb.1)).Nodup ∧ ∀ kb ∈ x.sectors, kb.1 < 32 ∧ kb.2.length = 32) ∧
    (∃ (s : State) (p : Fin 8) (i : Fin 16777216), s.live = true ∧ (s.flows p).find? (fun kf => kf.1 == i.val) = none) ∧
    ∃ (s : State) (p : Fin 8) (i : Fin 16777216) (f : Flow), s.live = true ∧ s.narrowTakes p = true ∧
      (s.flows p).find? (fun kf => kf.1 == i.val) = some (i.val, f) ∧ (s.rd MS_FLOW_BASE_ADDR p + 32 * i) % 32 = 0 ∧ s.Coherent :=
  ⟨⟨work, 1, wordOf MS_CACHE_CFG [(MS_CACHE_CFG_SHARE, 0, 17)], by decide +kernel⟩,
    ⟨work, 1, wordOf MS_CACHE_CFG [(MS_CACHE_CFG_KEEP_WAYS, 0, 12)], by decide +kernel⟩,
    ⟨set [(MS_CACHE_CFG_SHARE, 1, 1)], 1, wordOf MS_CACHE_CFG [(MS_CACHE_CFG_SHARE, 0, 0)], by decide +kernel⟩, ⟨work, 1, 15, by decide +kernel⟩,
    ⟨work, 0, by decide +kernel⟩,
    ⟨{ work with ms := { MemSt.reset with combining := [lastLine] } }, 536870907, lastLine, by decide +kernel⟩,
    ⟨work, 7, 0xFFFFFF, by decide +kernel⟩,
    flowing, 7, 0xFFFFFF, ⟨1, 64, 0, 0⟩, by decide +kernel, by decide +kernel, by decide +kernel, by decide +kernel, coherent_of_empty rfl⟩

/-- Stack 11 serves, with what it holds. -/
def stackIn (x : Stack) : State :=
  let s := set [(MS_HBM_STATUS_STATE, 11, 1), (MS_HBM_STATUS_STATE, 5, 1)]
  { s with ms := { MemSt.reset with hbmStacks := [(11, x)] } }

/-- The stripe that stack 5 keeps first. -/
def firstStripe : Fin 536870912 := 5

/-- Nothing of that stripe is on the bad-stripe list. -/
theorem no_bad_stripe : (stackIn Stack.reset).badEntry firstStripe = none := by decide +kernel

/-- A read of a stripe with a byte wrong in member 17. -/
def oneWrong : StripeRead := ⟨(List.range 17).map (fun _ => []) ++ [[1]], [], []⟩

theorem witness_StripesAreCorrected :
    (∃ (s : State) (stripe : Fin 536870912), s.live = true ∧ s.stackServes (stripeStack stripe) = false) ∧
    (∃ (s : State) (stripe : Fin 536870912), s.live = true ∧ stripeBacked stripe = false) ∧
    (∃ (s : State) (h : Fin 12), s.live = true ∧ s.stackServes h = false) ∧
    (∃ (s : State) (stripe : Fin 536870912) (r : StripeRead), s.live = true ∧ s.stackServes (stripeStack stripe) = true ∧ stripeBacked stripe = true ∧
      s.badEntry stripe = none ∧ s.erasedMembers stripe r = [0] ∧ stripeDecode1 r 0 = .inconsistent) ∧
    (∃ (s : State) (stripe : Fin 536870912) (r : StripeRead), s.live = true ∧ s.stackServes (stripeStack stripe) = true ∧ stripeBacked stripe = true ∧
      s.badEntry stripe = none ∧ s.erasedMembers stripe r = [0, 17] ∧
      ∀ i < 18, (s.erasedMembers stripe r).contains i = false → ∀ j < 64, stripeDiff r i j = 0) ∧
    (∃ (s : State) (stripe : Fin 536870912) (r : StripeRead), s.live = true ∧ s.stackServes (stripeStack stripe) = true ∧ stripeBacked stripe = true ∧
      s.badEntry stripe = none ∧ s.erasedMembers stripe r = [] ∧ (∀ k < 18, k ≠ 17 → ∀ j < 64, stripeDiff r k j = 0) ∧ ∃ j < 64, stripeDiff r 17 j ≠ 0) ∧
    (∃ (s : State) (stripe : Fin 536870912) (r : StripeRead), s.live = true ∧ s.stackServes (stripeStack stripe) = true ∧ stripeBacked stripe = true ∧
      s.badEntry stripe = none ∧ (s.erasedMembers stripe r).length = 3) ∧
    (∃ (s : State) (stripe : Fin 536870912), s.live = true ∧ s.stackServes (stripeStack stripe) = true ∧ stripeBacked stripe = true ∧ (s.badEntry stripe).isSome = true) ∧
    ∃ (s : State) (h : Fin 12) (r : StripeRead), s.live = true ∧ s.stackServes h = true ∧
      s.badEntry (h / 6 * 2 ^ 28 + 6 * (s.hbmStack h).scrub + h % 6) = none ∧
      (s.erasedMembers (h / 6 * 2 ^ 28 + 6 * (s.hbmStack h).scrub + h % 6) r).length ≤ 2 ∧
      ∀ i < 18, (s.erasedMembers (h / 6 * 2 ^ 28 + 6 * (s.hbmStack h).scrub + h % 6) r).contains i = false → ∀ j < 64, stripeDiff r i j = 0 :=
  let clean : StripeRead := ⟨[], [], []⟩
  ⟨⟨work, 0, by decide +kernel⟩, ⟨work, 2 ^ 28 - 1, by decide +kernel⟩, ⟨work, 11, by decide +kernel⟩,
    ⟨stackIn Stack.reset, firstStripe, { oneWrong with lost := [true] }, by decide +kernel, by decide +kernel, by decide +kernel, no_bad_stripe,
      by decide +kernel, by decide +kernel⟩,
    ⟨stackIn Stack.reset, firstStripe, { oneWrong with lost := [true], uncorrected := List.replicate 17 false ++ [true] }, by decide +kernel, by decide +kernel,
      by decide +kernel, no_bad_stripe, by decide +kernel, by decide +kernel⟩,
    ⟨stackIn Stack.reset, firstStripe, oneWrong, by decide +kernel, by decide +kernel, by decide +kernel, no_bad_stripe, by decide +kernel, by decide +kernel, by decide +kernel⟩,
    ⟨stackIn Stack.reset, firstStripe, { clean with lost := [true, true, true] }, by decide +kernel, by decide +kernel, by decide +kernel, no_bad_stripe, by decide +kernel⟩,
    ⟨(stackIn Stack.reset).wrs [(MS_BAD_STRIPE_VALID, 0, 1), (MS_BAD_STRIPE_ADDRESS, 0, 5120)], firstStripe, by decide +kernel⟩,
    stackIn Stack.reset, 5, clean, by decide +kernel, by decide +kernel, no_bad_stripe, by decide +kernel, by decide +kernel⟩

/-! ### Conditions that can be met: stacks and optics -/

/-- A write of MS_HBM_CTL that is good, with more fields. -/
def hbmCtlWord (fs : List (Fld × Nat × Nat)) : Word :=
  wordOf MS_HBM_CTL ([(MS_HBM_CTL_TEMP_DELTA, 0, 40), (MS_HBM_CTL_PERIOD_S, 0, 600), (MS_HBM_CTL_SCRUB_HOURS, 0, 1)] ++ fs)

theorem witness_StacksRetrainAndTest :
    (∃ (s : State) (h : Fin 12), s.live = true ∧ s.stackServes h = false) ∧
    (∃ (s : State) (h : Fin 12), s.live = true ∧ s.stackServes h = true ∧ 63 ∉ (s.hbmStack h).queue ∧ (s.hbmStack h).retrain = none) ∧
    (∃ (s : State) (h : Fin 12) (v : Word), s.barOpen = true ∧ s.performs (MS_HBM_CTL.offset h) = true ∧ hbmCtlOk v = false ∧ MS_HBM_CTL_TEMP_DELTA.of v = 41) ∧
    (∃ (s : State) (h : Fin 12) (v : Word), s.barOpen = true ∧ s.performs (MS_HBM_CTL.offset h) = true ∧ hbmCtlOk v = true ∧ s.flag MS_HBM_CTL_TEST h = false ∧
      MS_HBM_CTL_TEST.isSet v = false ∧ MS_HBM_CTL_RETRAIN.isSet v = true ∧ MS_HBM_CTL_PC.of v = 63) ∧
    (∃ (s : State) (h : Fin 12) (v : Word), s.barOpen = true ∧ s.performs (MS_HBM_CTL.offset h) = true ∧ hbmCtlOk v = true ∧ s.flag MS_HBM_CTL_TEST h = false ∧
      MS_HBM_CTL_TEST.isSet v = true ∧ (s.hbmStack h).retrain.isSome = true) ∧
    (∃ (s : State) (h : Fin 12) (v : Word), s.barOpen = true ∧ s.performs (MS_HBM_CTL.offset h) = true ∧ hbmCtlOk v = true ∧ s.flag MS_HBM_CTL_TEST h = false ∧
      MS_HBM_CTL_TEST.isSet v = true ∧ (s.hbmStack h).retrain = none ∧ s.testOk h = false) ∧
    (∃ (s : State) (h : Fin 12) (v : Word), s.barOpen = true ∧ s.performs (MS_HBM_CTL.offset h) = true ∧ hbmCtlOk v = true ∧ s.flag MS_HBM_CTL_TEST h = false ∧
      MS_HBM_CTL_TEST.isSet v = true ∧ (s.hbmStack h).retrain = none ∧ s.testOk h = true) ∧
    (∃ (s : State) (h : Fin 12) (v : Word), s.barOpen = true ∧ s.performs (MS_HBM_CTL.offset h) = true ∧ hbmCtlOk v = true ∧ s.flag MS_HBM_CTL_TEST h = true ∧
      MS_HBM_CTL_TEST.isSet v = false) ∧
    (∃ (s : State) (h : Fin 12), s.live = true ∧ s.stackServes h = true ∧ (s.hbmStack h).retrain = none ∧ (s.hbmStack h).queue = [63]) ∧
    (∃ (s : State) (h : Fin 12), s.live = true ∧ (s.hbmStack h).queue = []) ∧
    (∃ (s : State) (h : Fin 12), s.live = true ∧ (s.hbmStack h).retrain = some ⟨63, false⟩ ∧ (s.hbmStack h).fails = 1) ∧
    (∃ (s : State) (h : Fin 12), s.live = true ∧ (s.hbmStack h).retrain = some ⟨63, false⟩ ∧ (s.hbmStack h).fails = 2) ∧
    (∃ (s : State) (h : Fin 12), s.live = true ∧ (s.hbmStack h).retrain = some ⟨63, true⟩) ∧
    (∃ (s : State) (h : Fin 12) (v : Word), s.barOpen = true ∧ s.performs (MS_HBM_TEST_CMD.offset h) = true ∧ MS_HBM_TEST_CMD_GO.isSet v = true ∧
      s.flag MS_HBM_CTL_TEST h = true ∧ s.flag MS_HBM_TEST_CMD_BUSY h = false ∧ MS_HBM_TEST_CMD_LENGTH.of v = 512) ∧
    (∃ (s : State) (h : Fin 12) (v : Word), s.barOpen = true ∧ s.performs (MS_HBM_TEST_CMD.offset h) = true ∧ MS_HBM_TEST_CMD_GO.isSet v = true ∧
      MS_HBM_TEST_CMD_LENGTH.of v = 513) ∧
    (∃ (s : State) (h : Fin 12), s.live = true ∧ s.flag MS_HBM_TEST_CMD_BUSY h = false) ∧
    (∃ (s : State) (h : Fin 12), s.live = true ∧ s.flag MS_HBM_TEST_CMD_BUSY h = true ∧ s.rd MS_HBM_TEST_CMD_LENGTH h = 512) ∧
    ∃ (s : State) (p : Fin 8) (v : Word), s.barOpen = true ∧ s.performs (MS_FLOW_CFG.offset p) = true ∧ MS_FLOW_CFG_LOG2.of v = 24 ∧
      MS_FLOW_CFG_FLUSH_US.of v ≠ 0 ∧ MS_FLOW_CFG_ENABLE.isSet v = true :=
  let busy : Stack := { Stack.reset with retrain := some ⟨63, false⟩ }
  let test := hbmCtlWord [(MS_HBM_CTL_TEST, 0, 1)]
  ⟨⟨work, 11, by decide +kernel⟩, ⟨stackIn Stack.reset, 11, by decide +kernel⟩,
    ⟨work, 11, wordOf MS_HBM_CTL [(MS_HBM_CTL_TEMP_DELTA, 0, 41)], by decide +kernel⟩,
    ⟨work, 11, hbmCtlWord [(MS_HBM_CTL_RETRAIN, 0, 1), (MS_HBM_CTL_PC, 0, 63)], by decide +kernel⟩,
    ⟨stackIn busy, 11, test, by decide +kernel⟩, ⟨(stackIn Stack.reset).wr PC_SLIP_CFG_ENABLE 1 1, 11, test, by decide +kernel⟩,
    ⟨stackIn Stack.reset, 11, test, by decide +kernel⟩, ⟨(stackIn Stack.reset).wr MS_HBM_CTL_TEST 11 1, 11, hbmCtlWord [], by decide +kernel⟩,
    ⟨stackIn { Stack.reset with queue := [63] }, 11, by decide +kernel⟩, ⟨work, 11, by decide +kernel⟩,
    ⟨stackIn { busy with fails := 1 }, 11, by decide +kernel⟩, ⟨stackIn { busy with fails := 2 }, 11, by decide +kernel⟩,
    ⟨stackIn { busy with retrain := some ⟨63, true⟩ }, 11, by decide +kernel⟩,
    ⟨work.wr MS_HBM_CTL_TEST 11 1, 11, wordOf MS_HBM_TEST_CMD [(MS_HBM_TEST_CMD_GO, 0, 1), (MS_HBM_TEST_CMD_LENGTH, 0, 512)], by decide +kernel⟩,
    ⟨work, 11, wordOf MS_HBM_TEST_CMD [(MS_HBM_TEST_CMD_GO, 0, 1), (MS_HBM_TEST_CMD_LENGTH, 0, 513)], by decide +kernel⟩,
    ⟨work, 11, by decide +kernel⟩, ⟨set [(MS_HBM_TEST_CMD_BUSY, 11, 1), (MS_HBM_TEST_CMD_LENGTH, 11, 512)], 11, by decide +kernel⟩,
    work, 7, wordOf MS_FLOW_CFG [(MS_FLOW_CFG_LOG2, 0, 24), (MS_FLOW_CFG_FLUSH_US, 0, 1), (MS_FLOW_CFG_ENABLE, 0, 1)], by decide +kernel⟩

/-- Engine 0 in a state, fibre 0's ports as register fields say, and a move under way on fibre 0. -/
def engineIn (st : Nat) (fs : List (Fld × Nat × Nat)) (moves : List (Nat × Move)) : State :=
  let s := (portAt 0 1 3 linked).wrs ([(OC_ENGINE_STATUS_STATE, 0, st)] ++ fs)
  { s with oc := { OpticalSt.reset with moves := moves } }

/-- What an up frame of engine 0 says. -/
def upBody : List Byte := natLe 2 0x0002 ++ zeros 1174

/-- An up frame of engine 0. -/
def upFrame : List Byte := upBody ++ natLe 4 (crc32 upBody)

theorem crcByte_lt (c : Nat) (b : Byte) (h : c < 2 ^ 32) : crcByte 0xEDB88320 c b < 2 ^ 32 := by
  have step : ∀ c, c < 2 ^ 32 → crcStep 0xEDB88320 c < 2 ^ 32 := fun c h => by
    unfold crcStep; split
    · exact Nat.xor_lt_two_pow (by omega) (by decide)
    · omega
  have iter : ∀ k c, c < 2 ^ 32 → (crcStep 0xEDB88320)^[k] c < 2 ^ 32 := fun k => by
    induction k with
    | zero => exact fun _ h => h
    | succ k ih => exact fun c h => ih _ (step c h)
  exact iter 8 _ (Nat.xor_lt_two_pow h (Nat.lt_of_lt_of_le b.isLt (by decide)))

theorem crc32_lt (bs : List Byte) : crc32 bs < 2 ^ 32 := by
  have fold : ∀ (bs : List Byte) (c : Nat), c < 2 ^ 32 → bs.foldl (crcByte 0xEDB88320) c < 2 ^ 32 := fun bs => by
    induction bs with
    | nil => exact fun _ h => h
    | cons b bs ih => exact fun c h => ih _ (crcByte_lt c b h)
  exact Nat.xor_lt_two_pow (fold bs _ (by decide)) (by decide)

theorem upFrame_good : upFrameGood 0 upFrame = true := by
  have len : upBody.length = 1176 := by decide +kernel
  have tail : le upFrame 1176 4 = crc32 upBody := by
    unfold le slice upFrame
    rw [← len, List.drop_left, List.take_of_length_le (by rw [natLe_length]), leNat_natLe]
    exact Nat.mod_eq_of_lt (crc32_lt _)
  have body : upFrame.take 1176 = upBody := by rw [← len]; exact List.take_left
  unfold upFrameGood
  rw [tail, body, beq_self_eq_true, Bool.and_true]
  simp only [upFrame, List.length_append, len, natLe_length]
  decide +kernel

/-- A move of lane 0 on fibre 0 that waits for its answer. -/
def waitingMove (cause : MoveCause) : Move := ⟨7, 0, 0, 8, cause, 0, none⟩

theorem witness_EnginesTuneAndHold :
    (∃ (s : State) (e : Fin 16), s.live = true ∧ s.rd OC_ENGINE_STATUS_STATE e = 2 ∧ s.rd OC_ENGINE_ENV_H_MIN e ≤ s.rd OC_ENGINE_ENV_H_MAX e) ∧
    (∃ (s : State) (e : Fin 16), s.live = true ∧ s.rd OC_ENGINE_STATUS_STATE e = 3) ∧
    (∃ (s : State) (e : Fin 16) (b : List Byte), s.live = true ∧ s.rd OC_ENGINE_STATUS_STATE e = 1 ∧ upFrameGood e b = true) ∧
    (∃ (s : State) (e : Fin 16) (b : List Byte), s.live = true ∧ s.rd OC_ENGINE_STATUS_STATE e = 1 ∧ upFrameGood e b = false) ∧
    (∃ (s : State) (f : Fin 256), s.live = true ∧ s.mayCalibrate f = false) ∧
    (∃ (s : State) (f : Fin 256), s.live = true ∧ s.mayCalibrate f = true ∧ s.upPorts f = []) ∧
    (∃ (s : State) (f : Fin 256), s.live = true ∧ s.mayCalibrate f = true ∧ s.upPorts f ≠ [] ∧ s.rotating f = true ∧ s.txFree f ≠ 15 ∧
      (((List.range 8).filter (fun j => !s.laneWithdrawn f j)).map (wlOf (s.txWl f))).filter (fun w => w != s.rd OC_FIBRE_MAP_FORD_W f) ≠ []) ∧
    (∃ (s : State) (f : Fin 256), s.live = true ∧ s.calW f = 15) ∧ ∃ (s : State) (f : Fin 256), s.live = true ∧ s.calW f = 8 :=
  ⟨⟨engineIn 2 [] [], 0, by decide +kernel⟩, ⟨engineIn 3 [] [], 0, by decide +kernel⟩, ⟨engineIn 1 [] [], 0, upFrame, by decide +kernel, by decide +kernel, upFrame_good⟩,
    ⟨engineIn 1 [] [], 0, [], by decide +kernel⟩, ⟨engineIn 3 [] [], 0, by decide +kernel⟩,
    ⟨engineIn 2 [(PC_PORT_STATUS_LINK, 0, 0), (OC_FIBRE_MAP_CAL_W, 0, 15)] [], 0, by decide +kernel⟩,
    ⟨engineIn 2 [(OC_FIBRE_MAP_ROTATE, 0, 1), (OC_FIBRE_MAP_FREE, 0, 8), (OC_FIBRE_MAP_CAL_W, 0, 15)] [], 0, by decide +kernel⟩,
    ⟨set [(OC_FIBRE_MAP_CAL_W, 255, 15)], 255, by decide +kernel⟩, set [(OC_FIBRE_MAP_CAL_W, 255, 8)], 255, by decide +kernel⟩

/-- An optical message of a type and an identifier. -/
def ocMessage (type id : Nat) : List Byte := natBe 2 (0x100 + type) ++ natBe 2 48 ++ natBe 4 id ++ zeros 40

/-- The tag of the frame that a link expects first. -/
def firstTag : Option (BitVec 48) := some (BitVec.ofNat 48 (makeTag 0 true 0))

/-- A message is taken, as a test, with a condition on what the link layer leaves. -/
theorem message_of {s : State} {n : Nat} {tag : Option (BitVec 48)} {p : List Byte} {type : Nat} (P : State → Bool)
    (h : (s.live && decide (2 ≤ s.link n) && (s.linkConsume n tag (p.length + 18)).1 && ocGood type p && P (s.linkConsume n tag (p.length + 18)).2) = true) :
    ∃ u, MessageTaken s u n tag p type ∧ P u = true := by
  simp only [Bool.and_eq_true, decide_eq_true_eq] at h
  exact ⟨_, ⟨h.1.1.1.1, h.1.1.1.2, Prod.ext h.1.1.2 rfl, h.1.2⟩, h.2⟩

theorem witness_WavelengthsMove :
    (∃ (s : State) (n : Fin 1024), s.live = true ∧ s.link n < 2) ∧
    (∃ (s : State) (n : Fin 1024) (tag : Option (BitVec 48)) (p : List Byte), s.live = true ∧ 2 ≤ s.link n ∧ ocGood 0x01 p = false ∧
      ∃ u, s.linkConsume n tag (p.length + 18) = (true, u)) ∧
    (∃ (s u : State), MessageTaken s u 0 firstTag (ocMessage 0x01 7) 0x01 ∧ (u.moveReason 0 0 != 0) = true) ∧
    (∃ (s u : State), MessageTaken s u 0 firstTag (ocMessage 0x01 7) 0x01 ∧ (u.moveReason 0 0 == 0) = true) ∧
    (∃ (s u : State), MessageTaken s u 0 firstTag (ocMessage 0x02 7) 0x02 ∧ (u.moveOf 0).isNone = true) ∧
    (∃ (s u : State), MessageTaken s u 0 firstTag (ocMessage 0x02 7) 0x02 ∧ (u.moveOf 0 == some (waitingMove .laser) && !u.engineHolds 0) = true) ∧
    (∃ (s u : State), MessageTaken s u 0 firstTag (ocMessage 0x03 7) 0x03 ∧ (u.moveOf 0 == some (waitingMove .failed) && !u.engineHolds 0) = true) ∧
    (∃ (s : State) (f : Fin 256), s.live = true ∧ s.moveOf f = some (waitingMove .calibration) ∧ s.engineHolds f = false) ∧
    ∃ (s : State) (f : Fin 256), s.live = true ∧ s.moveOf f = some (waitingMove .unlocked) ∧ s.engineHolds f = true :=
  let locked : State := { engineIn 2 [] [] with oc := { OpticalSt.reset with rings := [(ringKey 0 1 0, { RingSt.reset with locked := true })] } }
  ⟨⟨work, 1023, by decide +kernel⟩,
    ⟨engineIn 2 [] [], 0, firstTag, zeros 48, by decide +kernel, by decide +kernel, by decide +kernel, consumes (by decide +kernel)⟩,
    ⟨engineIn 2 [] [], (message_of _ (by decide +kernel))⟩, ⟨locked, (message_of _ (by decide +kernel))⟩,
    ⟨engineIn 2 [] [], (message_of (fun u => (u.moveOf 0).isNone) (by decide +kernel))⟩,
    ⟨engineIn 2 [] [(0, waitingMove .laser)], (message_of (fun u => u.moveOf 0 == some (waitingMove .laser) && !u.engineHolds 0) (by decide +kernel))⟩,
    ⟨engineIn 2 [] [(0, waitingMove .failed)], (message_of (fun u => u.moveOf 0 == some (waitingMove .failed) && !u.engineHolds 0) (by decide +kernel))⟩,
    ⟨engineIn 2 [] [(0, waitingMove .calibration)], 0, by decide +kernel⟩, engineIn 3 [] [(0, waitingMove .unlocked)], 0, by decide +kernel⟩

/-- An up frame of laser module 3. -/
def laserFrame : List Byte := (natLe 2 0x0312 ++ zeros 58) ++ natLe 4 (crc32 (natLe 2 0x0312 ++ zeros 58))

/-- Position 8 of module 3 with its register fields. -/
def laserAt (fs : List (Fld × Nat × Nat)) (x : LaserPos) : State := let s := set fs; { s with oc := { OpticalSt.reset with lasers := [(16 * 3 + 8, x)] } }

theorem witness_LasersAreSpared :
    (∃ (s : State) (m : Fin 4), s.live = true ∧ s.rd OC_LASER_MODULE_STATUS_STATE m = 1) ∧
    (∃ (s : State) (m : Fin 4), s.live = true ∧ s.rd OC_LASER_MODULE_STATUS_STATE m = 3) ∧
    (∃ (s : State) (m : Fin 4) (b : List Byte), s.live = true ∧ laserUpGood m b = true ∧ s.rd OC_LASER_MODULE_STATUS_STATE m = 2 ∧
      (s.laserPos m 8).driven (s.activeLaser m 8) ≠ 0 ∧ s.laserState m 8 = 0) ∧
    (∃ (s : State) (m : Fin 4) (b : List Byte), s.live = true ∧ laserUpGood m b = false) ∧
    (∃ (s : State) (m : Fin 4), s.live = true ∧ (s.laserPos m 8).count = 0) ∧ (∃ (s : State) (m : Fin 4), s.live = true ∧ (s.laserPos m 8).count = 1) ∧
    (∃ (s : State) (m : Fin 4) (k : Fin 9), s.live = true ∧ s.laserState m k = 1 ∧ (s.laserPos m k).lit = true) ∧
    ∃ (s : State) (m : Fin 4) (k : Fin 9), s.live = true ∧ s.laserState m k = 0 :=
  ⟨⟨laserAt [(OC_LASER_MODULE_STATUS_STATE, 3, 1)] LaserPos.reset, 3, by decide +kernel⟩,
    ⟨laserAt [(OC_LASER_MODULE_STATUS_STATE, 3, 3)] LaserPos.reset, 3, by decide +kernel⟩,
    ⟨laserAt [(OC_LASER_MODULE_STATUS_STATE, 3, 2)] { LaserPos.reset with drive0 := 1 }, 3, laserFrame, by decide +kernel⟩,
    ⟨work, 3, [], by decide +kernel⟩, ⟨work, 3, by decide +kernel⟩, ⟨laserAt [] { LaserPos.reset with count := 1 }, 3, by decide +kernel⟩,
    ⟨laserAt [(OC_LASER_STATUS_STATE, 32 * 3 + 8, 1)] { LaserPos.reset with lit := true }, 3, 8, by decide +kernel⟩, work, 3, 8, by decide +kernel⟩

/-! ### Conditions that can be met: circuits, time, supplies and recovery -/

/-- Ports 0 and 4, of engine 0, may have a circuit. -/
def fordReady : State :=
  set ([(OC_FORD_CFG_ENABLE, 0, 1), (OC_FORD_CFG_ON_COUNT, 0, 2), (OC_FORD_ELIGIBLE_BITS, 0, 17)] ++ [(0 : Nat), 4].flatMap (fun n =>
    [(PC_LANE_GROUP_LAYOUT, n / 4, 4), (PC_PORT_CFG_ENABLE, n, 1), (PC_PORT_CFG_KIND, n, 1), (PC_PORT_STATUS_LINK, n, 3), (EV_PORT_STATUS_RESULT, n, 2)]))

/-- The demand of ports 0 and 4 over one window, with one high window before. -/
def demand : Nat × Pair := (4, ⟨10 ^ 12, 10 ^ 12, 1, 1⟩)

/-- Circuit 7 of engine 0 in a state, between ports 0 and 4 or of the ports that it is given. -/
def circuitIn (st b : Nat) (x : Circuit) : State :=
  let s := (portAt 0 1 3 linked).wrs [(OC_FORD_CIRCUIT_STATE, 7, st), (OC_FORD_CIRCUIT_ID, 7, 9), (OC_FORD_CIRCUIT_PORT_A, 7, 0), (OC_FORD_CIRCUIT_PORT_B, 7, b)]
  { s with oc := { OpticalSt.reset with circuits := [(7, x)] } }

/-- A FORD_REMOVE command for a port. -/
def removal (n : Nat) : Word := wordOf OC_FORD_CMD [(OC_FORD_CMD_REMOVE, 0, 1), (OC_FORD_CMD_PORT, 0, n)]

theorem witness_FordCircuitsComeAndGo :
    (∃ (s : State) (e : Fin 16) (key : Nat) (p : Pair) (w : Nat), s.live = true ∧ (s.oc.pairs.map (fun x => x.1)).Nodup ∧ (∀ c < 8, s.circuitState (8 * e + c) = 0) ∧
      s.oc.pairs = [(key, p)] ∧ key / 1024 / 64 = e ∧ p.heldOff ≤ 1 ∧ s.reaches p.demand (s.rd OC_FORD_CFG_ON_RATE 0) = true ∧
      s.rd OC_FORD_CFG_ON_COUNT 0 ≤ min 255 (p.high + 1) ∧ s.fordPairOk (key / 1024) (key % 1024) = true ∧ s.moveOf (key / 1024 / 4) = none ∧
      s.moveOf (key % 1024 / 4) = none ∧ s.engineHolds (key / 1024 / 4) = false ∧ s.fordWave (key / 1024 / 4) (key % 1024 / 4) = some w) ∧
    (∃ (s : State) (e : Fin 16), s.live = true ∧ (s.oc.pairs.map (fun x => x.1)).Nodup ∧ ∃ c < 8, s.circuitState (8 * e + c) = 3 ∧
      s.fordPairOk (s.circuitPort (8 * e + c) 0) (s.circuitPort (8 * e + c) 1) = false) ∧
    (∃ (s : State) (n : Fin 1024), s.live = true ∧ s.link n < 2) ∧
    (∃ s u : State, MessageTaken s u 0 firstTag (ocMessage 0x12 8) 0x12 ∧ (u.circuitNamed 0 (ocMessage 0x12 8)).isNone = true) ∧
    (∃ s u : State, MessageTaken s u 0 firstTag (ocMessage 0x13 8) 0x13 ∧ (u.circuitNamed 0 (ocMessage 0x13 8)).isNone = true) ∧
    (∃ s u : State, MessageTaken s u 0 firstTag (ocMessage 0x16 9) 0x16 ∧ (u.circuitNamed 0 (ocMessage 0x16 9) == some (7, 0) && u.circuitState 7 == 1) = true) ∧
    (∃ s u : State, MessageTaken s u 0 firstTag (ocMessage 0x12 9) 0x12 ∧
      (u.circuitNamed 0 (ocMessage 0x12 9) == some (7, 0) && u.circuitState 7 == 1 && (u.circuit 7).accepted == 0) = true) ∧
    (∃ s u : State, MessageTaken s u 0 firstTag (ocMessage 0x12 9) 0x12 ∧
      (u.circuitNamed 0 (ocMessage 0x12 9) == some (7, 0) && u.circuitState 7 == 1 && (u.circuit 7).accepted == 2) = true) ∧
    (∃ s u : State, MessageTaken s u 0 firstTag (ocMessage 0x13 9) 0x13 ∧ (u.circuitNamed 0 (ocMessage 0x13 9) == some (7, 0) && u.circuitState 7 == 1) = true) ∧
    (∃ s u : State, MessageTaken s u 0 firstTag (ocMessage 0x16 9) 0x16 ∧
      (u.circuitNamed 0 (ocMessage 0x16 9) == some (7, 0) && u.circuitState 7 == 4 && (u.circuit 7).restored.isNone && (u.circuit 7).released == 2) = true) ∧
    (∃ s u : State, MessageTaken s u 0 firstTag (ocMessage 0x16 9) 0x16 ∧
      (u.circuitNamed 0 (ocMessage 0x16 9) == some (7, 0) && u.circuitState 7 == 4 && (u.circuit 7).restored.isNone && (u.circuit 7).released == 0) = true) ∧
    (∃ (s : State) (e : Fin 16) (c : Fin 8), s.live = true ∧ s.circuitState (8 * e.val + c.val) = 1) ∧
    (∃ (s : State) (e : Fin 16) (c : Fin 8), s.live = true ∧ s.circuitState (8 * e.val + c.val) = 0) ∧
    (∃ (s : State) (e : Fin 16) (c : Fin 8), s.live = true ∧ s.circuitState (8 * e.val + c.val) = 4 ∧ (s.circuit (8 * e.val + c.val)).restored = none) ∧
    (∃ (s : State) (v : Word), s.barOpen = true ∧ OC_FORD_CMD_REMOVE.isSet v = true ∧ s.circuitOf (OC_FORD_CMD_PORT.of v) = none) ∧
    (∀ st ∈ [1, 4], ∃ (s : State) (v : Word) (k side : Nat), s.barOpen = true ∧ OC_FORD_CMD_REMOVE.isSet v = true ∧
      s.circuitOf (OC_FORD_CMD_PORT.of v) = some (k, side) ∧ s.circuitState k = st ∧ s.circuitPort k 0 ≠ s.circuitPort k 1) ∧
    ∀ st ∈ [2, 3], ∃ (s : State) (v : Word) (k side : Nat), s.barOpen = true ∧ OC_FORD_CMD_REMOVE.isSet v = true ∧
      s.circuitOf (OC_FORD_CMD_PORT.of v) = some (k, side) ∧ s.circuitState k = st ∧ (s.circuit k).released = 0 ∧ (s.circuit k).restored = none ∧
      s.circuitPort k 0 ≠ s.circuitPort k 1 :=
  let offered := circuitIn 1 4 Circuit.reset
  let named (u : State) (p : List Byte) (st : Nat) : Bool := u.circuitNamed 0 p == some (7, 0) && u.circuitState 7 == st
  ⟨⟨{ fordReady with oc := { OpticalSt.reset with pairs := [demand] } }, 0, 4, demand.2, 0, by decide +kernel⟩,
    ⟨circuitIn 3 4 Circuit.reset, 0, by decide +kernel, by decide +kernel, 7, by decide +kernel⟩, ⟨work, 1023, by decide +kernel⟩,
    ⟨offered, message_of (fun u => (u.circuitNamed 0 (ocMessage 0x12 8)).isNone) (by decide +kernel)⟩,
    ⟨offered, message_of (fun u => (u.circuitNamed 0 (ocMessage 0x13 8)).isNone) (by decide +kernel)⟩,
    ⟨offered, message_of (fun u => named u (ocMessage 0x16 9) 1) (by decide +kernel)⟩,
    ⟨offered, message_of (fun u => named u (ocMessage 0x12 9) 1 && (u.circuit 7).accepted == 0) (by decide +kernel)⟩,
    ⟨circuitIn 1 4 { Circuit.reset with accepted := 2 }, message_of (fun u => named u (ocMessage 0x12 9) 1 && (u.circuit 7).accepted == 2) (by decide +kernel)⟩,
    ⟨offered, message_of (fun u => named u (ocMessage 0x13 9) 1) (by decide +kernel)⟩,
    ⟨circuitIn 4 4 { Circuit.reset with released := 2 },
      message_of (fun u => named u (ocMessage 0x16 9) 4 && (u.circuit 7).restored.isNone && (u.circuit 7).released == 2) (by decide +kernel)⟩,
    ⟨circuitIn 4 4 Circuit.reset,
      message_of (fun u => named u (ocMessage 0x16 9) 4 && (u.circuit 7).restored.isNone && (u.circuit 7).released == 0) (by decide +kernel)⟩,
    ⟨offered, 0, 7, by decide +kernel⟩, ⟨work, 15, 7, by decide +kernel⟩, ⟨circuitIn 4 4 Circuit.reset, 0, 7, by decide +kernel⟩,
    ⟨offered, removal 1023, by decide +kernel⟩,
    fun st h => ⟨circuitIn st 4 Circuit.reset, removal 4, 7, 1, by
      rcases List.mem_cons.mp h with rfl | h
      · decide +kernel
      · rcases List.mem_singleton.mp h with rfl; decide +kernel⟩,
    fun st h => ⟨circuitIn st 4 Circuit.reset, removal 4, 7, 1, by
      rcases List.mem_cons.mp h with rfl | h
      · decide +kernel
      · rcases List.mem_singleton.mp h with rfl; decide +kernel⟩⟩

/-- The device with a time base. -/
def clocked (x y : TimeDom) (fs : List (Fld × Nat × Nat)) : State := { set fs with tb := { TimeSt.reset with dom0 := x, dom1 := y } }

/-- A domain that counts. -/
def counting : TimeDom := { TimeDom.reset with running := true }

/-- A write of TB_DOM_CTL with the slew of reset, and more fields. -/
def domWord (fs : List (Fld × Nat × Nat)) : Word := wordOf TB_DOM_CTL ((TB_DOM_CTL_SLEW_PPB, 0, 500000) :: fs)

theorem witness_DomainsAreSteered :
    (∃ (s : State) (d : Fin 2) (v : Word), s.barOpen = true ∧ s.follows d = true ∧ TB_DOM_ADJ_ADJ_NS.of v = 0) ∧
    (∃ (s : State) (d : Fin 2) (v : Word), s.barOpen = true ∧ s.follows d = false ∧ (s.dom d).remaining + sext 32 (TB_DOM_ADJ_ADJ_NS.of v) * 4294967296 = -1000000000 * 4294967296) ∧
    (∃ (s : State) (d : Fin 2) (v : Word), s.barOpen = true ∧ s.follows d = false ∧ (s.dom d).remaining + sext 32 (TB_DOM_ADJ_ADJ_NS.of v) * 4294967296 < -1000000000 * 4294967296) ∧
    (∃ (s : State) (d : Fin 2) (v : Word), s.barOpen = true ∧ s.domCtlBad d v = true ∧ TB_DOM_CTL_SLEW_PPB.of v = 500001) ∧
    (∃ (s : State) (d : Fin 2) (v : Word), s.barOpen = true ∧ s.domCtlBad d v = false ∧ TB_DOM_CTL_STEP.isSet v = true ∧ TB_DOM_CTL_ENABLE.isSet v = true ∧
      s.flag TB_DOM_CTL_ENABLE d = false) ∧
    (∃ (s : State) (d : Fin 2) (v : Word), s.barOpen = true ∧ s.domCtlBad d v = false ∧ TB_DOM_CTL_STEP.isSet v = false ∧ TB_DOM_CTL_ENABLE.isSet v = true ∧
      s.flag TB_DOM_CTL_ENABLE d = false ∧ d.val = 1) ∧
    (∃ (s : State) (d : Fin 2) (v : Word), s.barOpen = true ∧ s.domCtlBad d v = false ∧ TB_DOM_CTL_STEP.isSet v = false ∧ TB_DOM_CTL_ENABLE.isSet v = false ∧
      s.flag TB_DOM_CTL_ENABLE d = true) ∧
    (∃ (s : State) (d : Fin 2) (v : Word), s.barOpen = true ∧ s.domCtlBad d v = false ∧ TB_DOM_CTL_STEP.isSet v = false ∧
      TB_DOM_CTL_ENABLE.isSet v = s.flag TB_DOM_CTL_ENABLE d ∧ s.follows d = true ∧ TB_DOM_CTL_FOLLOW.isSet v = false) ∧
    (∃ (s : State) (d : Fin 2), s.live = true ∧ (s.dom d).settling = true) ∧ (∃ (s : State) (d : Fin 2), s.live = true ∧ (s.dom d).settling = false) ∧
    (∃ (s : State) (d : Fin 2), s.live = true ∧ s.follows d = true ∧ s.timeReady (1 - d.val) = true ∧ (s.dom d).whole = (s.dom (1 - d.val)).whole) ∧
    ∃ (s : State) (d : Fin 2), s.live = true ∧ s.follows d = false :=
  ⟨⟨set [(TB_DOM_CTL_FOLLOW, 1, 1)], 1, 0, by decide +kernel⟩,
    ⟨work, 1, wordOf TB_DOM_ADJ [(TB_DOM_ADJ_ADJ_NS, 0, 2 ^ 32 - 10 ^ 9)], by decide +kernel⟩,
    ⟨work, 1, wordOf TB_DOM_ADJ [(TB_DOM_ADJ_ADJ_NS, 0, 2 ^ 32 - 10 ^ 9 - 1)], by decide +kernel⟩,
    ⟨work, 1, wordOf TB_DOM_CTL [(TB_DOM_CTL_SLEW_PPB, 0, 500001)], by decide +kernel⟩,
    ⟨work, 1, domWord [(TB_DOM_CTL_STEP, 0, 1), (TB_DOM_CTL_ENABLE, 0, 1)], by decide +kernel⟩,
    ⟨work, 1, domWord [(TB_DOM_CTL_ENABLE, 0, 1)], by decide +kernel⟩,
    ⟨clocked counting counting [(TB_DOM_CTL_ENABLE, 1, 1)], 1, domWord [(TB_DOM_CTL_ENABLE, 0, 0)], by decide +kernel⟩,
    ⟨clocked counting counting [(TB_DOM_CTL_FOLLOW, 1, 1), (TB_DOM_CTL_ENABLE, 1, 1)], 1, domWord [(TB_DOM_CTL_ENABLE, 0, 1)], by decide +kernel⟩,
    ⟨clocked { counting with settling := true } counting [], 0, by decide +kernel⟩, ⟨work, 1, by decide +kernel⟩,
    ⟨clocked counting counting [(TB_DOM_CTL_FOLLOW, 1, 1)], 1, by decide +kernel⟩, work, 1, by decide +kernel⟩

/-- An edge that waits in a FIFO. -/
def edge : Capture := ⟨true, false, false, false, 0, 0, 0, 0⟩

/-- Input 4 captures both edges, with edges in its FIFO. -/
def capturing (n : Nat) : State :=
  { set [(TB_CAP_CTL_ENABLE, 4, 1), (TB_CAP_CTL_EDGE, 4, 3)] with tb := { TimeSt.reset with captures := [(4, List.replicate n edge)] } }

theorem witness_ReferencePinsAndCaptures :
    (∃ s : State, s.live = true ∧ s.flag TB_STATUS_TCLK_PRESENT 0 = true) ∧ (∃ s : State, s.live = true ∧ s.flag TB_STATUS_TCLK_PRESENT 0 = false) ∧
    (∃ s : State, s.live = true ∧ s.flag TB_STATUS_HOLDOVER 0 = true ∧ s.tb.expired = false) ∧
    (∃ s : State, s.live = true ∧ s.flag TB_STATUS_HOLDOVER 0 = true ∧ (s.dom 1).running = true ∧ (s.dom 1).settling = false ∧ s.dieReady 8 = true) ∧
    (∃ (s : State) (drift : List (Fin 9 × Int)) (g : Fin 9), s.live = true ∧ s.dieReady g = true ∧
      sget 0 s.tb.replicas g + ((drift.filter (fun x => x.1 == g)).map (fun x => x.2)).sum = -1000) ∧
    (∃ (s : State) (drift : List (Fin 9 × Int)) (g : Fin 9), s.live = true ∧
      sget 0 s.tb.replicas g + ((drift.filter (fun x => x.1 == g)).map (fun x => x.2)).sum = 999) ∧
    (∃ (s : State) (v : Word), s.barOpen = true ∧ TB_SNAP_CTL_GO.isSet v = true) ∧ (∃ (s : State) (v : Word), s.barOpen = true ∧ TB_SNAP_CTL_GO.isSet v = false) ∧
    (∃ (s : State) (k : Fin 8) (r : Fin 4) (v : Word), s.barOpen = true ∧ (s.plainWrite (triggerReg r) k v).triggerOk k = true) ∧
    (∃ (s : State) (k : Fin 8) (r : Fin 4) (v : Word), s.barOpen = true ∧ (s.plainWrite (triggerReg r) k v).triggerOk k = false) ∧
    (∃ (s : State) (k : Fin 8) (level : Bool), s.live = true ∧ s.scheduledLevel k = some (!level)) ∧
    (∃ (s : State) (k : Fin 8) (level : Bool), s.live = true ∧ s.scheduledLevel k ≠ some (!level) ∧ s.tb.trig.testBit k ≠ (level != s.flag TB_TRIG_CFG_INVERT k)) ∧
    (∃ (s : State) (level : Bool), s.live = true ∧ s.ppsLevel = level ∧ s.tb.pps ≠ level) ∧ (∃ (s : State) (level : Bool), s.live = true ∧ s.ppsLevel ≠ level) ∧
    (∃ (s : State) (i : Fin 5) (rising : Bool), s.live = true ∧ s.flag TB_CAP_CTL_ENABLE i = true ∧
      (s.rd TB_CAP_CTL_EDGE i).testBit (if rising = true then 0 else 1) = true ∧ (s.captures i).length = 15) ∧
    (∃ (s : State) (i : Fin 5) (rising : Bool), s.live = true ∧ s.flag TB_CAP_CTL_ENABLE i = true ∧
      (s.rd TB_CAP_CTL_EDGE i).testBit (if rising = true then 0 else 1) = true ∧ (s.captures i).length = 16) ∧
    (∃ (s : State) (i : Fin 5), s.live = true ∧ s.flag TB_CAP_CTL_ENABLE i = false) ∧
    (∃ (s : State) (v : Word), s.barOpen = true ∧ TB_CAP_CTL_EDGE.of v = 0) ∧
    ∃ (s : State) (i : Fin 5) (v : Word), s.barOpen = true ∧ TB_CAP_CTL_EDGE.of v = 3 ∧ TB_CAP_CTL_POP.isSet v = true ∧ s.captures i ≠ [] :=
  ⟨⟨set [(TB_STATUS_TCLK_PRESENT, 0, 1)], by decide +kernel⟩, ⟨set [(TB_STATUS_TCLK_PRESENT, 0, 0)], by decide +kernel⟩,
    ⟨set [(TB_STATUS_HOLDOVER, 0, 1)], by decide +kernel⟩, ⟨clocked counting counting [(TB_STATUS_HOLDOVER, 0, 1)], by decide +kernel⟩,
    ⟨{ work with tb := { TimeSt.reset with replicas := [(8, -600)] } }, [(8, -300), (7, 5), (8, -100)], 8, by decide +kernel⟩,
    ⟨work, [(8, 999)], 8, by decide +kernel⟩, ⟨work, wordOf TB_SNAP_CTL [(TB_SNAP_CTL_GO, 0, 1)], by decide +kernel⟩, ⟨work, 0, by decide +kernel⟩,
    ⟨work, 7, 0, wordOf TB_TRIG_CFG [(TB_TRIG_CFG_WIDTH_NS, 0, 4)], by decide +kernel⟩,
    ⟨work, 7, 0, wordOf TB_TRIG_CFG [(TB_TRIG_CFG_WIDTH_NS, 0, 3)], by decide +kernel⟩,
    ⟨set [(TB_TRIG_CFG_MODE, 7, 5)], 7, true, by decide +kernel⟩, ⟨set [(TB_TRIG_CFG_MODE, 7, 5), (TB_TRIG_CFG_INVERT, 7, 1)], 7, false, by decide +kernel⟩,
    ⟨{ work with tb := { TimeSt.reset with pps := true } }, false, by decide +kernel⟩, ⟨work, true, by decide +kernel⟩,
    ⟨capturing 15, 4, false, by decide +kernel⟩, ⟨capturing 16, 4, true, by decide +kernel⟩, ⟨work, 4, by decide +kernel⟩, ⟨work, 0, by decide +kernel⟩,
    capturing 1, 4, wordOf TB_CAP_CTL [(TB_CAP_CTL_EDGE, 0, 3), (TB_CAP_CTL_POP, 0, 1)], by decide +kernel⟩

theorem witness_SuppliesAndClocksStop :
    (∃ (s : State) (temp : BitVec 12), s.live = true ∧ temp.toNat = 1920) ∧ (∃ (s : State) (temp : BitVec 12), s.live = true ∧ temp.toNat = 1919) ∧
    (∃ s : State, s.bt.por = false) ∧ (∃ s : State, s.bt.por = true ∧ s.live = true) ∧ (∃ s : State, s.bt.por = true ∧ s.live = false) ∧
    (∃ s : State, s.live = true ∧ s.dieReady 8 = true) ∧ (∃ s : State, s.live = false) ∧
    (∃ (s : State) (d : Fin 4), d.val ∈ s.bt.serdesLost) ∧ (∃ (s : State) (d : Fin 4), d.val ∉ s.bt.serdesLost ∧ s.live = true ∧ s.link (256 * d + 255) = 3) ∧
    ∃ (s : State) (d : Fin 4), d.val ∉ s.bt.serdesLost ∧ s.live = false :=
  ⟨⟨work, 1920, by decide +kernel⟩, ⟨work, 1919, by decide +kernel⟩, ⟨State.reset, by decide +kernel⟩, ⟨work, by decide +kernel⟩,
    ⟨{ work with bt := { work.bt with held := true } }, by decide +kernel⟩, ⟨work, by decide +kernel⟩, ⟨State.reset, by decide +kernel⟩,
    ⟨{ work with bt := { work.bt with serdesLost := [3] } }, 3, by decide +kernel⟩, ⟨portAt 1023 0 3 PortSt.reset, 3, by decide +kernel⟩,
    State.reset, 3, by decide +kernel⟩

/-- Bridge 8 in a state. -/
def bridged (x : Bridge) : State := { work with fh := { FaultSt.reset with bridges := [(8, x)] } }

theorem witness_BridgesAndDiesRecover :
    (∃ (s : State) (b : Fin 9), s.live = true ∧ (s.bridge b).retraining = true) ∧
    (∃ (s : State) (b : Fin 9), s.live = true ∧ (s.bridge b).retraining = false ∧ (s.bridge b).replays = 7) ∧
    (∃ (s : State) (b : Fin 9), s.live = true ∧ (s.bridge b).retraining = false ∧ (s.bridge b).replays = 8) ∧
    (∃ (s : State) (b : Fin 9), s.live = true ∧ (s.bridge b).retraining = true ∧ (s.bridge b).failed = true) ∧
    (∀ n ∈ [1, 2], ∃ (s : State) (b : Fin 9), s.live = true ∧ (s.bridge b).retraining = true ∧ (s.bridge b).failed = false ∧ (s.bridge b).failures = n) ∧
    (∃ (s : State) (d : Fin 8), s.live = true ∧ d.val ∈ s.fh.diesReset) ∧
    (∃ (s : State) (d : Fin 8), s.live = true ∧ ¬ (d.val ∈ s.fh.diesReset ∨ 11 * 65536 + d.val ∈ s.fh.withdrawn)) ∧
    (∃ (s : State) (d : Fin 8) (checkpoints : Fin 3), s.live = true ∧ d.val ∈ s.fh.diesReset ∧ s.cl.groups = [] ∧ d.val = 5 ∧
      (((sget [] s.ms.checkpoints 1).drop checkpoints).headD []).map (fun kv => kv.1) = [32768] ∧
      ((((sget [] s.ms.checkpoints 1).drop checkpoints).headD []).map (fun kv => kv.1)).Nodup) ∧
    (∃ (s : State) (d : Fin 8) (n : Fin 64) (copies : List (Fin 64)), s.live = true ∧ d.val ∈ s.fh.diesReset ∧ s.cl.groups = [] ∧ d.val = 7 ∧ n ∈ copies) ∧
    ∃ (s : State) (d : Fin 8) (n : Fin 64) (copies : List (Fin 64)), s.live = true ∧ d.val ∈ s.fh.diesReset ∧ s.cl.groups = [] ∧ d.val = 7 ∧ n ∉ copies ∧
      s.slotState (64 + n) ≠ 0 ∧ sm3 (s.mslot (64 + n)).copy = s.getBytes MF_SLOT_DIGEST (8 * (64 + n)) 4 :=
  let resetting (d : Nat) (s : State) : State := { s with fh := { s.fh with diesReset := [d] } }
  let twice (b : Bool) (n : Nat) : Bridge := { Bridge.reset with retraining := true, failed := b, failures := n }
  ⟨⟨bridged (twice false 0), 8, by decide +kernel⟩, ⟨bridged { Bridge.reset with replays := 7 }, 8, by decide +kernel⟩,
    ⟨bridged { Bridge.reset with replays := 8 }, 8, by decide +kernel⟩, ⟨bridged (twice true 0), 8, by decide +kernel⟩,
    fun n h => ⟨bridged (twice false n), 8, by
      rcases List.mem_cons.mp h with rfl | h
      · decide +kernel
      · rcases List.mem_singleton.mp h with rfl; decide +kernel⟩,
    ⟨resetting 7 work, 7, by decide +kernel⟩, ⟨work, 7, by decide +kernel⟩,
    ⟨resetting 5 { work with ms := { MemSt.reset with checkpoints := [(1, [[], [(32768, Mooring.reset)]])] } }, 5, 1, by decide +kernel⟩,
    ⟨resetting 7 work, 7, 63, [0, 63], by decide +kernel⟩,
    resetting 7 ((set [(MF_SLOT_STATUS_STATE, 127, 3)]).putBytes MF_SLOT_DIGEST (8 * 127) (sm3 [])), 7, 63, [0], by decide +kernel⟩

/-- The recoveries of the device. -/
def recovering (rs : List Recovery) (fs : List (Fld × Nat × Nat)) : State := { set fs with fh := { FaultSt.reset with recoveries := rs } }

/-- A recovery of a kind of unit in a state, in place 15. -/
def recovery (kind logical st : Nat) : Recovery := ⟨kind, logical, st, 0, 5, .none, if st = 0 then none else some 15, 0⟩

/-- A retirement that is asked for. -/
def retirement (kind p : Nat) : Word := wordOf FH_RETIRE_REQ [(FH_RETIRE_REQ_GO, 0, 1), (FH_RETIRE_REQ_KIND, 0, kind), (FH_RETIRE_REQ_PHYSICAL, 0, p)]

/-- Tile 175's recovery in REPAIR, with its logical tile on physical tile 5, and what the tests say. -/
def tileRepair (x : ReduceSt) (retired : List Nat) : State :=
  let s := recovering [recovery 4 175 2] [(RE_TILE_MAP_PHYS, 175, 5)]
  { s with re := x, fh := { s.fh with tilesRetired := retired } }

/-- Every physical tile of reduction die 1. -/
def everyTile : List Nat := (List.range 96).map (fun p => 128 + p)

/-- The recovery that stands in place 15. -/
def State.inPlace (s : State) : Option Recovery := s.fh.recoveries.find? (fun x => x.place == some 15)

theorem witness_RecoveriesRun :
    (∃ (s : State) (p : Fin 2304) (errors symbols : BitVec 64) (losses : Fin 4), s.live = true ∧ symbols.toNat = 999999 ∧ errors.toNat = 1 ∧
      s.rd FH_CFG_LANE_SER_EXP 0 = 6 ∧ losses = 0 ∧ sget [] s.fh.laneLocks p = []) ∧
    (∃ (s : State) (p : Fin 2304) (errors symbols : BitVec 64) (losses : Fin 4), s.live = true ∧ symbols.toNat = 1000000 ∧ errors.toNat = 1 ∧
      s.rd FH_CFG_LANE_SER_EXP 0 = 6 ∧ losses = 1 ∧ sget [] s.fh.laneLocks p = []) ∧
    (∃ (s : State) (v : Word), s.barOpen = true ∧ FH_RETIRE_REQ_GO.isSet v = false) ∧
    (∃ (s : State) (v : Word), s.barOpen = true ∧ FH_RETIRE_REQ_GO.isSet v = true ∧ retireExists (FH_RETIRE_REQ_KIND.of v) (FH_RETIRE_REQ_PHYSICAL.of v) = false ∧
      FH_RETIRE_REQ_KIND.of v = 4 ∧ FH_RETIRE_REQ_PHYSICAL.of v = 224) ∧
    (∃ (s : State) (v : Word), s.barOpen = true ∧ FH_RETIRE_REQ_GO.isSet v = true ∧ FH_RETIRE_REQ_KIND.of v = 9 ∧ s.unitInRecovery 9 (FH_RETIRE_REQ_PHYSICAL.of v) = true) ∧
    (∃ (s : State) (v : Word), s.barOpen = true ∧ FH_RETIRE_REQ_GO.isSet v = true ∧ FH_RETIRE_REQ_KIND.of v = 1 ∧ FH_RETIRE_REQ_PHYSICAL.of v = 2303 ∧
      retireExists 1 2303 = true ∧ s.unitInRecovery 1 2303 = false) ∧
    (∃ (s : State) (v : Word) (p : Nat), s.barOpen = true ∧ FH_RETIRE_REQ_GO.isSet v = true ∧ FH_RETIRE_REQ_KIND.of v = 4 ∧ FH_RETIRE_REQ_PHYSICAL.of v = p ∧
      retireExists 4 p = true ∧ s.unitInRecovery 4 p = false ∧ p ∈ s.fh.tilesRetired) ∧
    (∃ (s : State) (v : Word) (p n : Nat), s.barOpen = true ∧ FH_RETIRE_REQ_GO.isSet v = true ∧ FH_RETIRE_REQ_KIND.of v = 4 ∧ FH_RETIRE_REQ_PHYSICAL.of v = p ∧
      retireExists 4 p = true ∧ s.unitInRecovery 4 p = false ∧ p ∉ s.fh.tilesRetired ∧ s.logicalOf (p / 128) (p % 128) = some n ∧ s.recoveryOf 4 n = none) ∧
    (∃ (s : State) (v : Word) (p : Nat), s.barOpen = true ∧ FH_RETIRE_REQ_GO.isSet v = true ∧ FH_RETIRE_REQ_KIND.of v = 4 ∧ FH_RETIRE_REQ_PHYSICAL.of v = p ∧
      retireExists 4 p = true ∧ s.unitInRecovery 4 p = false ∧ s.logicalOf (p / 128) (p % 128) = none) ∧
    (∃ (s : State) (v : Word) (p : Nat), s.barOpen = true ∧ FH_RETIRE_REQ_GO.isSet v = true ∧ FH_RETIRE_REQ_KIND.of v = 9 ∧ FH_RETIRE_REQ_PHYSICAL.of v = p ∧
      retireExists 9 p = true ∧ s.unitInRecovery 9 p = false ∧ s.laserState (p / 16) (p % 16) = 0 ∧ s.noSpare (p / 16) (p % 16) = false) ∧
    (∃ (s : State) (kind : Fin 16) (logical : BitVec 32), s.live = true ∧ s.freePlace ≠ none ∧ s.recoveryOf kind logical.toNat = none) ∧
    (∃ (s : State) (kind : Fin 16) (logical : BitVec 32) (r : Recovery) (k : Nat), s.live = true ∧ s.recoveryOf kind logical.toNat = some r ∧ r.state = 0 ∧
      s.freePlace = some k ∧ kind.val = 4) ∧
    (∃ s : State, s.live = true ∧ State.inPlace s = none) ∧
    (∀ st ∈ [1, 2, 3, 4, 5], ∃ (s : State) (r : Recovery), s.live = true ∧ State.inPlace s = some r ∧ r.state = st ∧ r.kind = 11 ∧ s.mayResume r = true) ∧
    (∃ (s : State) (r : Recovery), s.live = true ∧ State.inPlace s = some r ∧ r.state = 5 ∧ s.mayResume r = false) ∧
    (∃ (s : State) (r : Recovery), s.live = true ∧ State.inPlace s = some r ∧ r.state = 2 ∧ r.kind = 1 ∧ s.laneSpareFree (r.logical / 8) = false) ∧
    (∃ (s : State) (r : Recovery) (q : Nat), s.live = true ∧ State.inPlace s = some r ∧ r.state = 2 ∧ r.kind = 1 ∧ s.laneSpareFree (r.logical / 8) = true ∧
      ((List.range 4).map (fun x => 4 * (r.logical / 8) + x)).find? (fun q => s.laneOf q (r.logical % 8)) = some q ∧ s.link q = 0) ∧
    (∃ (s : State) (r : Recovery) (q : Nat), s.live = true ∧ State.inPlace s = some r ∧ r.state = 2 ∧ r.kind = 1 ∧ s.laneSpareFree (r.logical / 8) = true ∧
      ((List.range 4).map (fun x => 4 * (r.logical / 8) + x)).find? (fun q => s.laneOf q (r.logical % 8)) = some q ∧ s.link q = 1) ∧
    (∃ (s : State) (r : Recovery), s.live = true ∧ State.inPlace s = some r ∧ r.state = 2 ∧ r.kind = 4 ∧ s.rd RE_TILE_MAP_PHYS r.logical ≠ r.old) ∧
    (∃ (s : State) (r : Recovery) (phys : Nat), s.live = true ∧ State.inPlace s = some r ∧ r.state = 2 ∧ r.kind = 4 ∧ s.rd RE_TILE_MAP_PHYS r.logical = r.old ∧
      (s.freeTiles (r.logical / 88)).find? (s.spareFits (r.logical / 88) r) = some phys) ∧
    (∃ (s : State) (r : Recovery), s.live = true ∧ State.inPlace s = some r ∧ r.state = 2 ∧ r.kind = 4 ∧ s.rd RE_TILE_MAP_PHYS r.logical = r.old ∧
      s.freeTiles (r.logical / 88) ≠ [] ∧ (s.freeTiles (r.logical / 88)).find? (s.spareFits (r.logical / 88) r) = none) ∧
    (∃ (s : State) (r : Recovery), s.live = true ∧ State.inPlace s = some r ∧ r.state = 2 ∧ r.kind = 4 ∧ s.rd RE_TILE_MAP_PHYS r.logical = r.old ∧
      s.freeTiles (r.logical / 88) = []) ∧
    (∃ (s : State) (r : Recovery) (lost : List (Fin 256)), s.live = true ∧ State.inPlace s = some r ∧ r.state = 4 ∧ r.kind = 4 ∧
      ∃ f ∈ lost, f.val ∈ s.countedFrames r.logical) ∧
    (∃ (s : State) (r : Recovery) (lost : List (Fin 256)), s.live = true ∧ State.inPlace s = some r ∧ r.state = 4 ∧ r.kind = 4 ∧
      ¬ ∃ f ∈ lost, f.val ∈ s.countedFrames r.logical) ∧
    (∃ s : State, s.live = true ∧ s.windowAt (7 * 2 ^ 32 + 9) = none) ∧ (∃ s : State, s.live = true ∧ s.windowAt (7 * 2 ^ 32 + 9) = some (3, some { code := 7 })) ∧
    (∃ s : State, s.live = true ∧ s.windowAt (7 * 2 ^ 32 + 9) = some (0, none)) ∧
    (∃ s : State, s.barOpen = true) ∧ (∃ s : State, s.live = true ∧ s.readyAt (0, 63) = true ∧ s.fh.recoveries.any (fun r => decide (1 ≤ r.state)) = false) ∧
    (∃ s : State, s.live = true ∧ s.fh.recoveries.any (fun r => decide (1 ≤ r.state)) = true ∧ s.progressExcluded = true) ∧
    ∃ s : State, s.live = true ∧ s.fh.recoveries.any (fun r => decide (1 ≤ r.state)) = true ∧ s.progressExcluded = false :=
  let window (w : Nat × Option Event) : State := { work with fh := { FaultSt.reset with windows := [(7 * 2 ^ 32 + 9, w)] } }
  let counted (f : Nat) : ReduceSt := { ReduceSt.reset with tiles := [(175, { TileSt.reset with frames := [(f, ⟨0, 0, 0, true, 0, 0⟩)] })] }
  ⟨⟨set [(FH_CFG_LANE_SER_EXP, 0, 6)], 2303, 1, 999999, 0, by decide +kernel⟩, ⟨set [(FH_CFG_LANE_SER_EXP, 0, 6)], 2303, 1, 1000000, 1, by decide +kernel⟩, ⟨work, 0, by decide +kernel⟩,
    ⟨work, retirement 4 224, by decide +kernel⟩, ⟨set [(OC_LASER_STATUS_STATE, 32 * 3 + 8, 1)], retirement 9 56, by decide +kernel⟩,
    ⟨work, retirement 1 2303, by decide +kernel⟩,
    ⟨{ work with fh := { FaultSt.reset with tilesRetired := [223] } }, retirement 4 223, 223, by decide +kernel⟩,
    ⟨work, retirement 4 128, 128, 88, by decide +kernel⟩, ⟨work, retirement 4 223, 223, by decide +kernel⟩, ⟨work, retirement 9 56, 56, by decide +kernel⟩,
    ⟨work, 4, 175, by decide +kernel⟩, ⟨recovering [recovery 4 175 0] [], 4, 175, recovery 4 175 0, 0, by decide +kernel⟩, ⟨work, by decide +kernel⟩,
    fun st h => ⟨recovering [recovery 11 7 st] [], recovery 11 7 st, by
      rcases List.mem_cons.mp h with rfl | h
      · decide +kernel
      rcases List.mem_cons.mp h with rfl | h
      · decide +kernel
      rcases List.mem_cons.mp h with rfl | h
      · decide +kernel
      rcases List.mem_cons.mp h with rfl | h
      · decide +kernel
      rcases List.mem_singleton.mp h with rfl; decide +kernel⟩,
    ⟨{ recovering [recovery 11 7 5] [] with fh := { FaultSt.reset with recoveries := [recovery 11 7 5], diesReset := [7] } }, recovery 11 7 5, by decide +kernel⟩,
    ⟨recovering [recovery 1 2047 2] [(PC_LANE_GROUP_SPARE_FOR, 255, 1)], recovery 1 2047 2, by decide +kernel⟩,
    ⟨recovering [recovery 1 2047 2] [(PC_LANE_GROUP_LAYOUT, 255, 4)], recovery 1 2047 2, 1020, by decide +kernel⟩,
    ⟨recovering [recovery 1 2047 2] [(PC_LANE_GROUP_LAYOUT, 255, 4), (PC_PORT_STATUS_LINK, 1020, 1)], recovery 1 2047 2, 1020, by decide +kernel⟩,
    ⟨recovering [recovery 4 175 2] [(RE_TILE_MAP_PHYS, 175, 6)], recovery 4 175 2, by decide +kernel⟩,
    ⟨tileRepair { ReduceSt.reset with swept := [(1, 0)] } [], recovery 4 175 2, 87, by decide +kernel⟩,
    ⟨tileRepair ReduceSt.reset [], recovery 4 175 2, by decide +kernel⟩, ⟨tileRepair ReduceSt.reset everyTile, recovery 4 175 2, by decide +kernel⟩,
    ⟨{ recovering [recovery 4 175 4] [] with re := counted 255 }, recovery 4 175 4, [0, 255], by decide +kernel⟩,
    ⟨{ recovering [recovery 4 175 4] [] with re := counted 255 }, recovery 4 175 4, [0], by decide +kernel⟩,
    ⟨work, by decide +kernel⟩, ⟨window (3, some { code := 7 }), by decide +kernel⟩, ⟨window (0, none), by decide +kernel⟩, ⟨work, by decide +kernel⟩,
    ⟨work, by decide +kernel⟩, ⟨recovering [recovery 11 7 1] [], by decide +kernel⟩,
    { recovering [recovery 11 7 1] [] with fh := { FaultSt.reset with recoveries := [recovery 11 7 1], fullSeen := true } }, by decide +kernel⟩

/-! ### Words and well-formed commands -/

/-- The table gives no row any bits, so no word spells a command, and none is put in front of a queue. -/
theorem test_words_spell_nothing : decodeTableWord 0 0 = none ∧ decodeTableWord 64 0xFFFFFFFFFFFFFFFF = none ∧
    (State.reset.withFetchWord 64 1).pending = [] := by decide

/-- One ill-formed command for each check of `Instr.wf`, and the boundary that it lets pass. -/
theorem test_ill_formed_accesses :
    (Instr.registerWrite 0x4000000 0).wf = false ∧ (Instr.registerWrite 4 0).wf = false ∧ (Instr.registerWrite 0x3FFFFF8 0).wf = true ∧
    (Instr.companionCountRead 0x4000000).wf = false ∧ (Instr.companionCountRead 1).wf = false ∧ (Instr.companionCountRead 8).wf = true ∧
    (Instr.gangwayWrite 0 0xFFFFFF [some 0, none]).wf = false ∧ (Instr.gangwayWrite 0 0xFFFFFF [none]).wf = true ∧
    (Instr.gangwayRead 15 0xFFFFFF 2).wf = false ∧ (Instr.gangwayRead 15 0xFFFFFF 1).wf = true := by decide +kernel

theorem test_ill_formed_lists :
    (Instr.pfcFrameReceived 0 255 [1, 2, 3, 4, 5, 6, 7]).wf = false ∧ (Instr.replicaCheck [(3, 1), (3, 2)]).wf = false ∧
    (Instr.replicaCheck [(3, 1), (4, 2)]).wf = true ∧ (Instr.dieResetDone 7 [5, 5] 0).wf = false ∧ (Instr.dieResetDone 7 [5, 6] 0).wf = true ∧
    (Instr.recoveryStateDone 15 [9, 9]).wf = false ∧ (Instr.recoveryStateDone 15 [9, 8]).wf = true ∧
    (Instr.hbmTestShiftDone 0 (zeros 65)).wf = false ∧ (Instr.hbmTestShiftDone 0 (zeros 64)).wf = true := by decide +kernel

theorem test_ill_formed_reads : ∃ r : StripeRead, (Instr.hbmReadComplete 0 r).wf = true ∧ (Instr.patrolScrub 0 r).wf = true ∧
    (Instr.hbmReadComplete 0 { r with errors := r.errors.drop 1 }).wf = false ∧ (Instr.patrolScrub 0 { r with errors := zeros 63 :: r.errors.drop 1 }).wf = false ∧
    (Instr.patrolScrub 0 { r with lost := r.lost.drop 1 }).wf = false ∧ (Instr.hbmReadComplete 0 { r with uncorrected := [] }).wf = false :=
  ⟨⟨List.replicate 18 (zeros 64), List.replicate 18 false, List.replicate 18 false⟩, by decide +kernel⟩

theorem test_ill_formed_dies :
    (Instr.tidelineEvaluation 1 (List.replicate 8 (0, 0)) 0 0).wf = false ∧ (Instr.tidelineEvaluation 1 (List.replicate 9 (0, 0)) 0 0).wf = true := by
  decide +kernel

/-! ### Worked examples of the spec -/

/-- The three contributions of "Worked example: a bfloat16 block". -/
def sources : List (List Byte) :=
  [[0x4980, 0x3FC0, 0xBEC0, 0x4040], [0x3F80, 0xBFC0, 0x3E80, 0x0008], [0xC980, 0x3C00, 0x3E00, 0x3F80]].map (fun l => l.flatMap (natLe 2))

/-- The exact sums of that block, in units of 2^-149. -/
def sums : List Int := (List.range 4).map (fun i => (sources.map (fun p => ((elements 0x02 4 p).getD i .nan).toX 149)).sum)

/-- From "Worked example: a bfloat16 block": the results, RNE. -/
theorem test_bfloat16_block : (roundPayload 0x02 0 149 [0, 0, 0, 0] (sums.map .fin)).bytes = [0x3F80, 0x3C00, 0x0000, 0x4080].flatMap (natLe 2) := by decide +kernel

/-- From "Worked example: checks of the bfloat16 block": C of each source, their sum and the exact check. -/
theorem test_bfloat16_checks :
    sources.map (fun p => checkResidue (contributionCheck 0x02 4 p)) = [5959650130264064, 2411582717952, 2300888119027695615] ∧
    exactCheck sums = 1007171526983680 ∧ (5959650130264064 + 2411582717952 + 2300888119027695615) % prime61 = 1007171526983680 := by decide +kernel

/-- From "Worked example: one E4M3 sum under each mode". -/
theorem test_e4m3_sums :
    ([(0, 1088), (0, 237568), (0, 262144), (1, 1088), (1, 237568), (1, 262144), (4, 237568), (4, 262144)].map (fun x =>
      (encodeOut 0x04 (modeOf x.1) (saturates x.1) 0 9 (.fin x.2)).bits)) = [0x40, 0x7E, 0x7F, 0x40, 0x7E, 0x7E, 0x7E, 0x7E] ∧
    ([1088, 237568, 262144].map (fun (x : Int) => (encodeOut 0x04 .sr false (2 ^ 31 - 1) 9 (.fin x)).bits)) = [0x40, 0x7E, 0x7F] ∧
    ([1088, 237568, 262144].map (fun (x : Int) => (encodeOut 0x04 .sr false (2 ^ 31) 9 (.fin x)).bits)) = [0x41, 0x7F, 0x7F] := by decide +kernel

/-- From "Worked example: one MXFP4 unit": sums 13, 5, -0.75 and 0.125 in units of 2^-149. -/
theorem test_mxfp4_unit :
    (roundPayload 0x14 0 149 (List.replicate 32 0) (([13 * 2 ^ 149, 5 * 2 ^ 149, -3 * 2 ^ 147, 2 ^ 146] ++ List.replicate 28 (0 : Int)).map .fin)).bytes =
      [0x80] ++ zeros 7 ++ [0x47, 0x09] ++ zeros 14 := by decide +kernel

/-- From "Worked example: locating one byte". -/
theorem test_locating_one_byte :
    let t := stripeOf 0x4123456789
    stripeDie t = 1 ∧ stripeStack t = 7 ∧ stripeInStack t = 795364 ∧ 0x4123456789 % 1024 = 905 ∧ memberChannel t 14 = 22 ∧ memberChannel t 0 = 8 ∧
    (18 * stripeInStack t + 14) / 64 = 223696 := by decide +kernel

/-- Ring 12 of "Worked example: wrap, phase and a bad doorbell", where its tail and head stand at 68 and its CQ is empty. -/
def ring12 : State :=
  let s := set [(HI_RING_CFG_SQ_LOG2, 12, 6), (HI_RING_CFG_CQ_LOG2, 12, 6), (HI_RING_CFG_ENABLE, 12, 1), (HI_RING_STATUS_SQ_HEAD, 12, 68)]
  { s with hi := { s.hi with rings := [(12, { Ring.reset with tail := 68, written := 68, consumed := 68 })] } }

/-- From "Worked example: wrap, phase and a bad doorbell", step 7: a tail of 133 sets DOORBELL_ERR; 132 does not. -/
theorem test_bad_doorbell :
    (∃ t, exec (.sqTail 12 133) ring12 = .next t ∧ t.flag HI_RING_STATUS_DOORBELL_ERR 12 = true) ∧
    ∃ t, exec (.sqTail 12 132) ring12 = .next t ∧ t.flag HI_RING_STATUS_DOORBELL_ERR 12 = false ∧ (t.ring 12).tail = 132 :=
  ⟨⟨_, rfl, by decide +kernel⟩, _, rfl, by decide +kernel⟩

/-- R454, R463: the context that a drain releases reads FREE. -/
theorem test_drain_frees_context :
    let s := releasing.wr CL_CONTEXT_STATUS_STATE 0 1
    ∃ t, exec (.drainContextRelease 255) s = .next t ∧ t.rd CL_CONTEXT_STATUS_STATE 0 = 0 ∧ s.rd CL_CONTEXT_STATUS_STATE 0 = 1 :=
  ⟨_, rfl, by decide +kernel⟩

/-- From "Worked example: reading the summary word". -/
theorem test_summary_word :
    let s : State := { work with regs := [(BT_READY_MAP.base, 0x004003D03FFF81FF)] }
    s.dieReady 8 = true ∧ s.readyAt (0, 23) = true ∧ s.readyAt (0, 29) = true ∧ s.readyAt (0, 30) = false ∧ s.timeReady 0 = true ∧ s.timeReady 1 = false := by
  decide +kernel

/-- Table B.5 of the SM3 standard: the digest of "abc". -/
theorem test_sm3_abc : (sm3 [0x61, 0x62, 0x63]).take 8 = [0x66, 0xC7, 0xF0, 0xF4, 0x62, 0xEE, 0xED, 0xD9] := by decide +kernel

/-- The check value of CRC-32: that of the digits 1 to 9. -/
theorem test_crc32_check : crc32 ((List.range 9).map (fun k => BitVec.ofNat 8 (0x31 + k))) = 0xCBF43926 := by decide +kernel

end Sys2Proof.Tests
end

section
namespace Sys2Proof.Machine

/-! ### The register map

An offset finds one element of one array, and no register stands at a companion count. -/

/-- An element that an array has is at its own place. -/
theorem Reg.slot_of_used {x : Reg} {i : Nat} (hc : i < x.count) (hu : i % x.block < x.used) : x.slot i = i := by
  unfold Reg.slot
  rw [Nat.mod_eq_of_lt hc, Nat.mod_eq_of_lt hu, Nat.div_add_mod']

/-- The element found at an offset stands there. -/
theorem Reg.offset_of_indexAt {x : Reg} {off i : Nat} (h : x.indexAt off = some i) : x.offset i = off := by
  unfold Reg.indexAt at h
  split at h
  · cases h
  · next hge =>
    split at h
    · next hi =>
      obtain ⟨hm, hc, hu⟩ := hi
      cases h
      have hd := Nat.div_add_mod (off - x.base) x.stride
      unfold Reg.offset
      rw [Reg.slot_of_used hc hu]
      omega
    · cases h

/-- The element that the map names at an offset stands there. -/
theorem offset_of_registerAt {off : Nat} {r : Reg} {i : Nat} (h : registerAt off = some (r, i)) : r.offset i = off := by
  obtain ⟨y, -, e⟩ := List.exists_of_findSome?_eq_some h
  obtain ⟨j, hj, e⟩ := Option.map_eq_some_iff.1 e
  cases e
  exact Reg.offset_of_indexAt hj

/-- An array found at an offset is one of the block of its own base. -/
theorem mem_own_block_of_registerAt {off : Nat} {r : Reg} {i : Nat} (h : registerAt off = some (r, i)) :
    r ∈ blockRegisters (r.base / 0x100000) := by
  have hr := mem_block_of_registerAt h
  rw [← Reg.offset_block (laid_of_mem hr) i, offset_of_registerAt h]
  exact hr

/-- No register stands where a companion count does (R104). -/
theorem registerAt_companionOf {x : Reg} (hx : x ∈ blockRegisters (x.base / 0x100000)) (hw : x.w1c ≠ 0) (i : Nat) :
    registerAt (companionOf (x.offset i)) = none := by
  obtain ⟨-, -, hc⟩ := mem_block hx
  obtain ⟨cl, cb, -, ca⟩ := hc hw
  have ho : companionOf (x.offset i) = x.companion.offset i := Nat.add_right_comm _ _ _
  unfold registerAt
  rw [ho, Reg.offset_block cl, cb, List.findSome?_eq_none_iff]
  intro y hy
  rw [Reg.apart_offset cl (laid_of_mem hy) (ca y hy)]
  rfl

/-- What a companion count counts for: a W1C register, whose companion count it is (R104). -/
theorem companionTarget_some {off o : Nat} (h : companionTarget off = some o) :
    companionOf o = off ∧ ∃ r i, registerAt o = some (r, i) ∧ r.w1c ≠ 0 := by
  unfold companionTarget at h
  split at h
  · cases h
  · next hge =>
    split at h
    · next r i hr =>
      split at h
      · cases h
      · next hw =>
        rw [Option.some.injEq] at h
        subst h
        exact ⟨by unfold companionOf; omega, r, i, hr, hw⟩
    · cases h

/-- A register is no companion count. -/
theorem companionTarget_of_registerAt {off : Nat} {z : Reg × Nat} (h : registerAt off = some z) : companionTarget off = none := by
  cases ho : companionTarget off with
  | none => rfl
  | some o =>
    obtain ⟨rfl, r, i, hr, hw⟩ := companionTarget_some ho
    have hn := registerAt_companionOf (mem_own_block_of_registerAt hr) hw i
    rw [offset_of_registerAt hr, h] at hn
    cases hn

/-- A register's word belongs to its array. -/
theorem ownerOf_of_registerAt {off : Nat} {r : Reg} {i : Nat} (h : registerAt off = some (r, i)) : ownerOf off = some r.base := by
  rw [← offset_of_registerAt h]
  exact ownerOf_offset (mem_own_block_of_registerAt h) i

variable {s : State} {off : Nat}

/-! ### Accesses to a BAR (R15, R24, R46, R52) -/

theorem whenBar_open (f : State → State) (h : s.barOpen = true) : whenBar f s = .next (f s) := by
  unfold whenBar
  rw [if_pos h]

theorem whenBar_closed (f : State → State) (h : s.barOpen = false) :
    whenBar f s = .next (if s.barsSet = true then s.emit .unsupportedRequest else s) := by
  unfold whenBar
  rw [h]
  rfl

theorem exec_registerWrite (v : Word) (h : off < bar0Size) :
    exec (.registerWrite off v) s = whenBar (fun t => if off % 8 = 0 then barWrite off v t else t) s :=
  if_neg (Nat.not_le.2 h)

theorem exec_companionCountRead (h : off < bar0Size) :
    exec (.companionCountRead off) s = whenBar (fun t => if off % 8 = 0 then t.countRead off else t.emit (.readAnswer (zeros 8))) s :=
  if_neg (Nat.not_le.2 h)

/-- A write at a multiple of 8 while the BARs are open. -/
theorem exec_registerWrite_aligned (v : Word) (ho : s.barOpen = true) (h : off < bar0Size) (h8 : off % 8 = 0) :
    exec (.registerWrite off v) s = .next (barWrite off v s) := by
  rw [exec_registerWrite v h, whenBar_open _ ho, if_pos h8]

/-- A read at a multiple of 8 while the BARs are open. -/
theorem exec_companionCountRead_aligned (ho : s.barOpen = true) (h : off < bar0Size) (h8 : off % 8 = 0) :
    exec (.companionCountRead off) s = .next (s.countRead off) := by
  rw [exec_companionCountRead h, whenBar_open _ ho, if_pos h8]

/-- An access is performed at once exactly where its die is reached and no bridge on the way retrains (R24, R46). -/
theorem performs_iff : s.performs off = true ↔ s.atReach off = true ∧ s.closedOn (routeOf 8 (dieOf off)) = [] := by
  unfold State.performs
  rw [Bool.and_eq_true, List.isEmpty_iff]

theorem State.acrossTo_open {die : Nat} (c : Crossing) (f : State → State) (h : s.closedOn (routeOf 8 die) = []) :
    s.acrossTo die c f = f s := by
  unfold State.acrossTo
  rw [h]

theorem State.acrossTo_waits {die b : Nat} {rest : List Nat} (c : Crossing) (f : State → State)
    (h : s.closedOn (routeOf 8 die) = b :: rest) : s.acrossTo die c f = s.holdAccess b c := by
  unfold State.acrossTo
  rw [h]

/-- What is appended to the outputs made before a step is an output of that step. -/
theorem emitted_emit {t : State} (h : t.out = s.out) (o : Out) : Emitted s (t.emit o) o := by
  unfold Emitted State.emit
  rw [h, List.drop_left]
  exact List.mem_singleton.2 rfl

/-! ### Writes (R15) -/

/-- The bits a plain write leaves: RW bits are taken from the value, RWL bits while the block is not locked, and of the others a 1 clears a W1C
bit and sets a W1S bit. -/
theorem accessWrite_testBit (r : Reg) (lock : Bool) (old v b : Nat) :
    (accessWrite r lock old v).testBit b =
      if (r.rw.testBit b || (r.rwl.testBit b && !lock)) = true then v.testBit b
      else (old.testBit b && !(r.w1c.testBit b && v.testBit b)) || (r.w1s.testBit b && v.testBit b) := by
  have hm : (if lock = true then r.rw else r.rw ||| r.rwl).testBit b = (r.rw.testBit b || (r.rwl.testBit b && !lock)) := by
    cases lock <;> simp
  unfold accessWrite
  simp only [Nat.testBit_or, Nat.testBit_xor, Nat.testBit_and, hm]
  generalize (r.rw.testBit b || (r.rwl.testBit b && !lock)) = taken
  cases taken
  · cases old.testBit b <;> simp [Bool.and_comm]
  · cases v.testBit b <;> simp

/-- The word that a plain write leaves at an offset. -/
def State.plainWord (s : State) (r : Reg) (off : Nat) (v : Word) : Word :=
  BitVec.ofNat 64 (accessWrite r (s.locked off) (s.word off).toNat v.toNat)

theorem State.plainWord_getLsbD (r : Reg) (v : Word) {b : Nat} (hb : b < 64) :
    (s.plainWord r off v).getLsbD b =
      if (r.rw.testBit b || (r.rwl.testBit b && !s.locked off)) = true then v.getLsbD b
      else ((s.word off).getLsbD b && !(r.w1c.testBit b && v.getLsbD b)) || (r.w1s.testBit b && v.getLsbD b) := by
  unfold State.plainWord
  rw [BitVec.getLsbD_ofNat, decide_eq_true hb, Bool.true_and, accessWrite_testBit, BitVec.testBit_toNat, BitVec.testBit_toNat]

theorem State.plainWrite_eq_setWord (r : Reg) (i : Nat) (v : Word) (h : r.offset i = off) :
    s.plainWrite r i v = s.setWord off (s.plainWord r off v) := by
  subst h
  rfl

/-- A register with no effect of its own takes a plain write. -/
theorem regWrite_plain {r : Reg} (h : ∀ e ∈ effects, e.1.base ≠ r.base) (i : Nat) (v : Word) : regWrite r i v s = s.plainWrite r i v := by
  have hn : effects.find? (fun e => e.1.base == r.base) = none :=
    List.find?_eq_none.2 (fun e he => by simpa using h e he)
  unfold regWrite
  rw [hn]

theorem barWrite_register {r : Reg} {i : Nat} (v : Word) (h : registerAt off = some (r, i)) :
    barWrite off v s =
      s.onReadyDie off v (fun t => if r.stride = 4 then regWrite r (i + 1) (v >>> 32) (regWrite r i v t) else regWrite r i v t) := by
  unfold barWrite
  rw [h]

/-- R15: a write of a 64-bit register that does no more than its access codes say. -/
theorem barWrite_plain {r : Reg} {i : Nat} (v : Word) (h : registerAt off = some (r, i)) (hs : r.stride ≠ 4)
    (he : ∀ e ∈ effects, e.1.base ≠ r.base) (hp : s.performs off = true) : barWrite off v s = s.setWord off (s.plainWord r off v) := by
  rw [barWrite_register v h, onReadyDie_performs hp, if_neg hs, regWrite_plain he, State.plainWrite_eq_setWord r i v (offset_of_registerAt h)]

/-- R17: a write where no register stands, and no companion count of a die that is not ready, changes nothing. -/
theorem barWrite_unassigned (v : Word) (h : registerAt off = none) (hc : ∀ o, companionTarget off = some o → s.atReach o = true) :
    barWrite off v s = s := by
  unfold barWrite
  rw [h]
  cases e : companionTarget off with
  | none => rfl
  | some o => exact if_pos (hc o e)

/-! ### Writes that do not reach their register (R24, R46) -/

@[simp] theorem State.word_holdAccess (b : Nat) (c : Crossing) (o : Nat) : (s.holdAccess b c).word o = s.word o := rfl

/-- The arrays of HI_ and FH_ stand on the control die. -/
theorem dieOf_control (h : off / 0x100000 = 0 ∨ off / 0x100000 = 12) : dieOf off = 8 := by
  unfold dieOf
  rcases h with h | h <;> simp [h]

/-- The parts that raising an event changes. -/
def raiseParts : Nat :=
  0x30600000000000000000000000000000000000000000000000000000000000000000000000000000000000000000000080000020000000000000700000000000200

/-- Of the register map, raising an event changes arrays of HI_ and FH_ alone. -/
theorem raiseParts_blocks : (List.range 14).all (fun b => decide (b = 0 ∨ b = 12) ||
    (blockRegisters b).all (fun x => !raiseParts.testBit (arrayBit x.base))) = true := by decide +kernel

theorem block_lt_of_mem {b : Nat} {x : Reg} (h : x ∈ blockRegisters b) : b < 14 := by
  by_contra hb
  match b, hb, h with
  | k + 14, _, h => cases h

/-- Raising an event changes no register of a die other than the control die. -/
theorem raiseParts_off_control {r : Reg} {i : Nat} (h : registerAt off = some (r, i)) (hd : dieOf off ≠ 8) :
    raiseParts.testBit (arrayBit r.base) = false := by
  have hr := mem_block_of_registerAt h
  have hb := List.all_eq_true.1 raiseParts_blocks _ (List.mem_range.2 (block_lt_of_mem hr))
  rw [Bool.or_eq_true, decide_eq_true_eq] at hb
  have hb := List.all_eq_true.1 (hb.resolve_left (fun k => hd (dieOf_control k))) r hr
  rwa [Bool.not_eq_true'] at hb

theorem dieOf_ne_control_of_unreached (h : s.atReach off = false) : dieOf off ≠ 8 := by
  intro e
  unfold State.atReach at h
  rw [e] at h
  cases h

/-- R46: the report of a discarded write leaves the register of the die that is not ready. -/
theorem State.word_discardWrite {r : Reg} {i : Nat} (die : Nat) (v : Word) (h : registerAt off = some (r, i)) (hr : s.atReach off = false) :
    (s.discardWrite off die v).word off = s.word off := by
  have ho : Only raiseParts s (s.discardWrite off die v) := State.discardWrite_only ⟨Nat.or_self _⟩ (Only.refl _ s)
  exact ho.same (.words r.base) (raiseParts_off_control h (dieOf_ne_control_of_unreached hr)) off (ownerOf_of_registerAt h)

/-- R24, R46: a write that is not performed at once leaves its register. -/
theorem barWrite_not_performed {r : Reg} {i : Nat} (v : Word) (h : registerAt off = some (r, i)) (hp : s.performs off = false) :
    (barWrite off v s).word off = s.word off := by
  rw [barWrite_register v h]
  unfold State.onReadyDie
  cases hr : s.atReach off with
  | false => exact State.word_discardWrite _ v h hr
  | true =>
    cases hc : s.closedOn (routeOf 8 (dieOf off)) with
    | nil => rw [performs_iff.2 ⟨hr, hc⟩] at hp; cases hp
    | cons b rest => rw [if_pos rfl, State.acrossTo_waits _ _ hc, State.word_holdAccess]

/-! ### Reads (R17, R46, R91, R105) -/

/-- A read of a register of a die that is reached. -/
theorem State.barRead_register {r : Reg} {i : Nat} (h : registerAt off = some (r, i)) (hr : s.atReach off = true) :
    s.barRead off =
      if r.stride = 4 then ((s.regValue r (i + 1) <<< 32) ||| s.regValue r i, s)
      else if r.base = HI_GW_STATUS.base then ((s.flushWindow i).regValue r i, s.flushWindow i)
      else (s.regValue r i, s) := by
  unfold State.barRead
  rw [h]
  simp only [hr, Bool.not_true, Bool.false_eq_true, if_false]

/-- R105: a read of a companion count returns it and clears it. -/
theorem State.barRead_companion {o : Nat} (h : registerAt off = none) (hc : companionTarget off = some o) (hr : s.atReach o = true) :
    s.barRead off = (s.word off, s.setWord off 0) := by
  unfold State.barRead
  simp only [h, hc, hr, if_true, State.readCompanion, (companionTarget_some hc).1]

/-- R46: a read of a die that is not ready answers zero. -/
theorem State.barRead_unreached (ha : (registerAt off).isSome = true ∨ (companionTarget off).isSome = true)
    (hr : s.atReach ((companionTarget off).getD off) = false) : s.barRead off = (0, s) := by
  unfold State.barRead
  cases h : registerAt off with
  | some z =>
    rw [companionTarget_of_registerAt h, Option.getD_none] at hr
    simp [hr]
  | none =>
    obtain ⟨o, ho⟩ := Option.isSome_iff_exists.1 (ha.resolve_left (by simp [h]))
    rw [ho, Option.getD_some] at hr
    simp [ho, hr]

/-- R17: a read of an unassigned offset answers zero. -/
theorem State.barRead_unassigned (h : registerAt off = none) (hc : companionTarget off = none) : s.barRead off = (0, s) := by
  unfold State.barRead
  rw [h, hc]

/-- A read that no bridge holds up answers what stands at its offset. -/
theorem State.countRead_open (h : s.closedOn (routeOf 8 (dieOf ((companionTarget off).getD off))) = []) :
    s.countRead off = (s.barRead off).2.emit (.readAnswer (natLe 8 (s.barRead off).1.toNat)) :=
  State.acrossTo_open _ _ h

theorem State.countRead_waits {b : Nat} {rest : List Nat}
    (h : s.closedOn (routeOf 8 (dieOf ((companionTarget off).getD off))) = b :: rest) : s.countRead off = s.holdAccess b (.count off) :=
  State.acrossTo_waits _ _ h

/-- A read of a register that is performed at once. -/
theorem State.countRead_register {r : Reg} {i : Nat} (h : registerAt off = some (r, i)) (hp : s.performs off = true) :
    s.countRead off = (s.barRead off).2.emit (.readAnswer (natLe 8 (s.barRead off).1.toNat)) := by
  apply State.countRead_open
  rw [companionTarget_of_registerAt h]
  exact (performs_iff.1 hp).2

/-- A register that shows no other state reads as its word. -/
theorem State.regValue_stored {r : Reg} (h : ∀ e ∈ shown, e.1.base ≠ r.base) (i : Nat) : s.regValue r i = s.word (r.offset i) := by
  have hn : shown.find? (fun e => e.1.base == r.base) = none :=
    List.find?_eq_none.2 (fun e he => by simpa using h e he)
  unfold State.regValue
  rw [hn]

/-! ### The commands REGISTER_WRITE and COMPANION_COUNT_READ -/

/-- R15: a plain write changes its register alone, bit by bit as its access codes say. -/
theorem registerWrite_by_access_codes {r : Reg} {i : Nat} (v : Word) (ho : s.barOpen = true) (h : off < bar0Size) (h8 : off % 8 = 0)
    (hr : registerAt off = some (r, i)) (hs : r.stride ≠ 4) (he : ∀ e ∈ effects, e.1.base ≠ r.base) (hp : s.performs off = true) :
    ∃ w : Word, exec (.registerWrite off v) s = .next (s.setWord off w) ∧
      ∀ b < 64, w.getLsbD b =
        if (r.rw.testBit b || (r.rwl.testBit b && !s.locked off)) = true then v.getLsbD b
        else ((s.word off).getLsbD b && !(r.w1c.testBit b && v.getLsbD b)) || (r.w1s.testBit b && v.getLsbD b) := by
  refine ⟨s.plainWord r off v, ?_, fun b hb => State.plainWord_getLsbD r v hb⟩
  rw [exec_registerWrite_aligned v ho h h8, barWrite_plain v hr hs he hp]

/-- R17: a write to a companion count, to an unassigned offset or at no multiple of 8 changes nothing. -/
theorem registerWrite_unassigned (v : Word) (ho : s.barOpen = true) (h : off < bar0Size)
    (hn : off % 8 ≠ 0 ∨ (registerAt off = none ∧ ∀ o, companionTarget off = some o → s.atReach o = true)) :
    exec (.registerWrite off v) s = .next s := by
  by_cases h8 : off % 8 = 0
  · obtain ⟨hr, hc⟩ := hn.resolve_left (fun k => k h8)
    rw [exec_registerWrite_aligned v ho h h8, barWrite_unassigned v hr hc]
  · rw [exec_registerWrite v h, whenBar_open _ ho, if_neg h8]

/-- R105: a read of a companion count answers it and clears it, and nothing else. -/
theorem companionCountRead_clears {o : Nat} (ho : s.barOpen = true) (h : off < bar0Size) (h8 : off % 8 = 0) (hr : registerAt off = none)
    (hc : companionTarget off = some o) (hp : s.performs o = true) :
    ∃ t, exec (.companionCountRead off) s = .next t ∧ Emitted s t (.readAnswer (natLe 8 (s.word off).toNat)) ∧ t.word off = 0 ∧
      ∀ a, a ≠ off → t.word a = s.word a := by
  obtain ⟨hreach, hopen⟩ := performs_iff.1 hp
  refine ⟨(s.setWord off 0).emit (.readAnswer (natLe 8 (s.word off).toNat)), ?_, emitted_emit rfl _, State.word_setWord_same off 0,
    fun a ha => State.word_setWord_other 0 (Ne.symm ha)⟩
  rw [exec_companionCountRead_aligned ho h h8, State.countRead_open (by rw [hc]; exact hopen), State.barRead_companion hr hc hreach]

/-- R15, R91: a read of a register answers its value; before one of HI_GW_STATUS the window's writes are committed. -/
theorem companionCountRead_register {r : Reg} {i : Nat} (ho : s.barOpen = true) (h : off < bar0Size) (h8 : off % 8 = 0)
    (hr : registerAt off = some (r, i)) (hp : s.performs off = true) :
    (r.stride ≠ 4 → r.base ≠ HI_GW_STATUS.base → exec (.companionCountRead off) s = .next (s.emit (.readAnswer (natLe 8 (s.regValue r i).toNat)))) ∧
    (r.stride = 4 → exec (.companionCountRead off) s =
      .next (s.emit (.readAnswer (natLe 8 ((s.regValue r (i + 1) <<< 32) ||| s.regValue r i).toNat)))) ∧
    (r.stride ≠ 4 → r.base = HI_GW_STATUS.base → exec (.companionCountRead off) s =
      .next ((s.flushWindow i).emit (.readAnswer (natLe 8 ((s.flushWindow i).regValue r i).toNat)))) := by
  rw [exec_companionCountRead_aligned ho h h8, State.countRead_register hr hp, State.barRead_register hr (performs_iff.1 hp).1]
  refine ⟨fun hs hb => ?_, fun hs => ?_, fun hs hb => ?_⟩
  · rw [if_neg hs, if_neg hb]
  · rw [if_pos hs]
  · rw [if_neg hs, if_pos hb]

/-- R17, R24, R46: a read waits for a bridge that retrains; one of a die that is not ready, or of an unassigned offset, answers zero. -/
theorem companionCountRead_without_register (ho : s.barOpen = true) (h : off < bar0Size) (h8 : off % 8 = 0) :
    let o := (companionTarget off).getD off
    (∀ b rest, s.closedOn (routeOf 8 (dieOf o)) = b :: rest → exec (.companionCountRead off) s = .next (s.holdAccess b (.count off))) ∧
    (s.closedOn (routeOf 8 (dieOf o)) = [] → (registerAt off).isSome = true ∨ (companionTarget off).isSome = true → s.atReach o = false →
      exec (.companionCountRead off) s = .next (s.emit (.readAnswer (natLe 8 0)))) ∧
    (s.closedOn (routeOf 8 (dieOf o)) = [] → registerAt off = none → companionTarget off = none →
      exec (.companionCountRead off) s = .next (s.emit (.readAnswer (natLe 8 0)))) := by
  intro o
  rw [exec_companionCountRead_aligned ho h h8]
  refine ⟨fun b rest hc => ?_, fun hc ha hr => ?_, fun hc hn ht => ?_⟩
  · rw [State.countRead_waits hc]
  · rw [State.countRead_open hc, State.barRead_unreached ha hr]
    rfl
  · rw [State.countRead_open hc, State.barRead_unassigned hn ht]
    rfl

/-- Settles O14: each clause is the case of its access, from the rules of one read and one write. -/
theorem registersAnswer : Obligations.RegistersAnswer := by
  refine ⟨fun s off v r i ho h h8 hr => ⟨fun hs he hp => registerWrite_by_access_codes v ho h h8 hr hs he hp, fun hp => ?_⟩,
    fun s off v ho h hn => registerWrite_unassigned v ho h hn, fun s off v ho h => ?_, fun s off v h => ?_, fun s off v h => ?_,
    fun s off o ho h h8 hr hc hp => companionCountRead_clears ho h h8 hr hc hp, fun s off r i ho h h8 hr hp => ?_,
    fun s off ho h h8 => companionCountRead_without_register ho h h8, fun s off ho h h8 => ?_, fun s off ho h => ?_⟩
  · exact ⟨_, exec_registerWrite_aligned v ho h h8, barWrite_not_performed v hr hp⟩
  · rw [exec_registerWrite v h, whenBar_closed _ ho]
  · exact ⟨_, exec_registerWrite v h⟩
  · exact ⟨if_pos h, if_pos h⟩
  · obtain ⟨hplain, hhalves, hwindow⟩ := companionCountRead_register ho h h8 hr hp
    exact ⟨hplain, hhalves, hwindow, fun hn => State.regValue_stored hn i⟩
  · rw [exec_companionCountRead h, whenBar_open _ ho, if_neg h8]
  · rw [exec_companionCountRead h, whenBar_closed _ ho]

end Sys2Proof.Machine
end

section
namespace Sys2Proof.Machine

variable {s t : State}

/-! ### What operations on a ring leave (R61, R70, R73)

No mask of parts here holds a word of HI_RING_CFG, and that of a completion alone those of HI_RING_STATUS, of which it moves QUIESCED. -/

/-- The parts that an MSI-X vector changes. -/
def vectorParts : Nat := 0x80000020000000000000000000000000200

/-- The parts that a completion changes before QUIESCED is settled. -/
def postParts : Nat := 0x80000020000000000000000000000000203

/-- The parts that a completion changes. -/
def completeParts : Nat := 0x90000020000000000000000000000000203

theorem Only.ring_eq {m : Nat} (h : Only m s t) (k : m.testBit 0 = false) (n : Nat) : t.ring n = s.ring n :=
  congrArg (fun l => sget Ring.reset l n) (h.same .hiRings k)

theorem State.only_raise (e : Event) : Only raiseParts s (s.raise e) := State.raise_only ⟨Nat.or_self _⟩ (Only.refl _ s)

@[simp] theorem State.ring_raise (e : Event) (n : Nat) : (s.raise e).ring n = s.ring n :=
  (State.only_raise e).ring_eq (by decide) n

@[simp] theorem State.descs_raise (e : Event) : (s.raise e).hi.descs = s.hi.descs :=
  (State.only_raise e).same .hiDescs (by decide)

/-- An error bit of a ring, set with an event that reports it, is set (R61). -/
theorem State.rd_raise_setErr {f : Fld} (hr : f.reg = HI_RING_STATUS) (hf : f.fits = true) (hw : f.hi = f.lo) (i : Nat) (e : Event) :
    ((s.setErr f i).raise e).rd f i = 1 := by
  rw [(State.only_raise e).rd (by rw [hr]; decide) (by rw [hr]; decide), State.rd_setErr_same hf hw]

@[simp] theorem State.hi_setErr (f : Fld) (i : Nat) : (s.setErr f i).hi = s.hi := by
  unfold State.setErr State.wr
  rw [State.setWord_hi, State.setWord_hi]

@[simp] theorem State.ring_setErr (f : Fld) (i n : Nat) : (s.setErr f i).ring n = s.ring n := by
  unfold State.ring
  rw [State.hi_setErr]

/-- A field of another register reads as before an error bit of a ring was set. -/
theorem State.rd_setErr_other {f g : Fld} (hr : f.reg = HI_RING_STATUS) (l : g.reg.listed = true)
    (k : (2 ^ arrayBit HI_RING_STATUS.base).testBit (arrayBit g.reg.base) = false) (i j : Nat) : (s.setErr f i).rd g j = s.rd g j := by
  have hc : GrantsErr (2 ^ arrayBit HI_RING_STATUS.base) f.reg :=
    Covers.err (a := 2 ^ arrayBit HI_RING_STATUS.base) ⟨Nat.or_self _⟩ (by rw [hr]; decide) (by rw [hr]; decide)
  exact (State.setErr_only f i hc (Only.refl _ s)).rd l k j

@[simp] theorem State.ring_wr (f : Fld) (i v k : Nat) : (s.wr f i v).ring k = s.ring k := by
  unfold State.ring State.wr
  rw [State.setWord_hi]

@[simp] theorem State.ring_settleQuiesced (n k : Nat) : (s.settleQuiesced n).ring k = s.ring k := rfl

/-- Settling QUIESCED leaves SQ_HEAD, which stands in the same register. -/
@[simp] theorem State.sqHead_settleQuiesced (n k : Nat) :
    (s.settleQuiesced n).rd HI_RING_STATUS_SQ_HEAD k = s.rd HI_RING_STATUS_SQ_HEAD k :=
  State.rd_wr_field (by decide) (.inl (by decide)) _ _ _

theorem State.rd_settleQuiesced {f : Fld} (l : f.reg.listed = true) (h : HI_RING_STATUS.base ≠ f.reg.base) (n k : Nat) :
    (s.settleQuiesced n).rd f k = s.rd f k := State.rd_wr_reg (by decide) l h _ _ _

@[simp] theorem State.ringEnabled_settleQuiesced (n k : Nat) : (s.settleQuiesced n).ringEnabled k = s.ringEnabled k := by
  unfold State.ringEnabled State.flag
  rw [State.rd_settleQuiesced (by decide) (by decide)]

@[simp] theorem State.outstanding_settleQuiesced (n k : Nat) : (s.settleQuiesced n).outstanding k = s.outstanding k := by
  unfold State.outstanding
  rw [(settleQuiesced_out s n).2]

@[simp] theorem State.quiesced_settleQuiesced (n : Nat) :
    (s.settleQuiesced n).rd HI_RING_STATUS_QUIESCED n = bit (!s.ringEnabled n && (s.outstanding n).isEmpty) := by
  unfold State.settleQuiesced
  rw [State.rd_wr_same (by decide)]
  cases !s.ringEnabled n && (s.outstanding n).isEmpty <;> rfl

/-! ### Vectors (R73) -/

/-- The vector of a ring is sent where the host answers and does not mask it, and the CQ disarms. -/
theorem State.ringInterrupt_unmasked {n : Nat} (ha : s.hi.answering = true)
    (hm : s.flag HI_MSIX_CTL_MASK (s.rd HI_RING_CFG_VECTOR n) = false) :
    s.ringInterrupt n = (s.setRing n { s.ring n with armed := false }).toHost (.msix (s.rd HI_RING_CFG_VECTOR n)
      (s.rd HI_MSIX_ADDR_ADDR (s.rd HI_RING_CFG_VECTOR n)) (s.rd HI_MSIX_CTL_DATA (s.rd HI_RING_CFG_VECTOR n))) := by
  unfold State.ringInterrupt State.sendVector
  rw [if_neg (by rw [show (s.setRing n _).hi.answering = s.hi.answering from rfl, ha]; decide), if_neg (by exact Bool.not_eq_true _ ▸ hm)]
  rfl

theorem State.ringInterrupt_sends {n : Nat} (ha : s.hi.answering = true)
    (hm : s.flag HI_MSIX_CTL_MASK (s.rd HI_RING_CFG_VECTOR n) = false) :
    SentHost s (s.ringInterrupt n) (.msix (s.rd HI_RING_CFG_VECTOR n) (s.rd HI_MSIX_ADDR_ADDR (s.rd HI_RING_CFG_VECTOR n))
      (s.rd HI_MSIX_CTL_DATA (s.rd HI_RING_CFG_VECTOR n))) := by
  rw [State.ringInterrupt_unmasked ha hm]
  exact toHost_sent (s.setRing n { s.ring n with armed := false }) _

/-- What is sent toward the host goes out at once outside D3hot (R52). -/
theorem SentHost.emitted {o : Out} (h : SentHost s t o) (hd : s.hi.d3hot = false) : Emitted s t o := by
  unfold SentHost at h
  rwa [if_neg (by rw [hd]; decide)] at h

@[simp] theorem State.ring_ringInterrupt (n : Nat) : (s.ringInterrupt n).ring n = { s.ring n with armed := false } := by
  unfold State.ringInterrupt
  rw [(State.sendVector_only (m := vectorParts) ⟨Nat.or_self _⟩ (Only.refl _ _)).ring_eq (by decide), State.ring_setRing]

/-! ### Completions (R69, R70, R81) -/

/-- R70: the state once the entry of a descriptor has gone to the next slot of its ring's CQ and is counted. -/
def State.posted (s : State) (d : Desc) (st : Status) (result detail : Nat) : State :=
  let slot := (s.ring d.ring).written % s.cqSize d.ring
  ((s.dropDesc d).toHost (.completion d.ring slot (s.cqSlotAddress d.ring slot) (completionOf s d st result detail).bytes)).setRing d.ring
    { s.ring d.ring with written := wrapAdd 32 (s.ring d.ring).written 1 }

/-- R69: a completion posts its entry, sends the vector or not, and settles QUIESCED. -/
theorem State.complete_reported {d : Desc} (h : d.silent = false) (st : Status) (result detail : Nat) :
    ∃ w, s.complete d st result detail = w.settleQuiesced d.ring ∧
      (w = s.posted d st result detail ∨ w = (s.posted d st result detail).ringInterrupt d.ring) := by
  unfold State.complete
  rw [if_neg (by rw [h]; decide)]
  refine ⟨_, rfl, ?_⟩
  split
  · exact .inr rfl
  · exact .inl rfl

theorem State.only_posted (d : Desc) (st : Status) (result detail : Nat) : Only postParts s (s.posted d st result detail) :=
  State.setRing_only ⟨by decide⟩ (State.toHost_only ⟨by decide⟩ (State.dropDesc_only ⟨by decide⟩ (Only.refl _ s)))

/-- A completion leaves SQ_HEAD, though its ring's QUIESCED is settled. -/
@[simp] theorem State.sqHead_complete (d : Desc) (st : Status) (result detail n : Nat) :
    (s.complete d st result detail).rd HI_RING_STATUS_SQ_HEAD n = s.rd HI_RING_STATUS_SQ_HEAD n := by
  cases h : d.silent with
  | true =>
    unfold State.complete
    rw [if_pos h]
    rfl
  | false =>
    obtain ⟨w, hw, hp⟩ := s.complete_reported h st result detail
    have ho : Only postParts s w := by
      rcases hp with rfl | rfl
      · exact State.only_posted d st result detail
      · exact State.ringInterrupt_only ⟨by decide⟩ (State.only_posted d st result detail)
    rw [hw, State.sqHead_settleQuiesced, ho.rd (by decide) (by decide)]

/-- R69: a completion takes its descriptor, and no other, off the list. -/
theorem State.descs_complete (d : Desc) (st : Status) (result detail : Nat) :
    (s.complete d st result detail).hi.descs = removeDesc d s.hi.descs := by
  cases h : d.silent with
  | true =>
    unfold State.complete
    rw [if_pos h]
    rfl
  | false =>
    have hp : (s.posted d st result detail).hi.descs = removeDesc d s.hi.descs := toHost_descs (s.dropDesc d) _
    obtain ⟨w, hw, rfl | rfl⟩ := s.complete_reported h st result detail
    · rw [hw, (settleQuiesced_out _ _).2, hp]
    · rw [hw, (settleQuiesced_out _ _).2, (ringInterrupt_grows _ _).2, hp]

/-- R70: the count of completions written moves on by one. -/
theorem State.written_complete {d : Desc} (h : d.silent = false) (st : Status) (result detail : Nat) :
    ((s.complete d st result detail).ring d.ring).written = ((s.ring d.ring).written + 1) % 2 ^ 32 := by
  have hp : ((s.posted d st result detail).ring d.ring).written = wrapAdd 32 (s.ring d.ring).written 1 := by
    unfold State.posted
    rw [State.ring_setRing]
  obtain ⟨w, hw, rfl | rfl⟩ := s.complete_reported h st result detail
  · rw [hw, State.ring_settleQuiesced, hp]
    rfl
  · rw [hw, State.ring_settleQuiesced, State.ring_ringInterrupt]
    exact hp

/-- R70: the entry of a descriptor goes toward the host, to the next slot of its ring's CQ. -/
theorem State.complete_sends {d : Desc} (h : d.silent = false) (st : Status) (result detail : Nat) :
    let slot := (s.ring d.ring).written % s.cqSize d.ring
    SentHost s (s.complete d st result detail)
      (.completion d.ring slot (s.cqSlotAddress d.ring slot) (completionOf s d st result detail).bytes) := by
  intro slot
  have hp : SentHost s (s.posted d st result detail)
      (.completion d.ring slot (s.cqSlotAddress d.ring slot) (completionOf s d st result detail).bytes) := toHost_sent (s.dropDesc d) _
  obtain ⟨w, hw, rfl | rfl⟩ := s.complete_reported h st result detail
  · rw [hw]
    exact hp
  · rw [hw]
    exact sent_grows hp (ringInterrupt_grows _ _).1

/-- Slots of 32 bytes from an aligned base are aligned, where addresses wrap too (R70). -/
theorem slot_aligned {base : Nat} (k : Nat) (h : base % 32 = 0) : (base + 32 * k) % 2 ^ 64 % 32 = 0 := by omega

/-- R70: PHASE stands in bit 7 of its byte, and is 1 while the CQ's laps are even. -/
theorem phase_byte (c size : Nat) : 128 * bit (c / size % 2 == 0) = if c / size % 2 = 0 then 128 else 0 := by
  by_cases h : c / size % 2 = 0 <;> simp [bit, h]

/-- Settles O7: the entry that `State.complete_sends` names has its fields where R81 puts them. -/
theorem completionTakesNextSlot : Obligations.CompletionTakesNextSlot := by
  intro s d st result detail h size c
  obtain ⟨hlen, htag, hstatus, hzero, hphase, hhead, hindex, hresult, hgen, hdetail⟩ :=
    Completion.bytes_fields (completionOf s d st result detail)
  refine ⟨_, s.complete_sends h st result detail, hlen, ?_, ?_, hzero, ?_, ?_, hindex, ?_, hgen, ?_, slot_aligned _,
    s.written_complete h st result detail, fun x hx => ?_⟩
  · rw [htag]
    exact Nat.mod_eq_of_lt (le_lt d.raw 4 4)
  · rw [hstatus]
    exact Nat.mod_eq_of_lt (statusCode_lt st)
  · rw [hphase]
    exact phase_byte c size
  · rw [hhead]
    exact Nat.mod_eq_of_lt (bitsOf_lt _ 63 32)
  · rw [hresult]
    exact Nat.mod_mod _ _
  · rw [hdetail]
    exact Nat.mod_mod _ _
  · rw [State.descs_complete] at hx
    simpa [removeDesc] using (List.mem_filter.1 hx).2

end Sys2Proof.Machine
end

section
namespace Sys2Proof.Machine

variable {s t : State} {n : Nat}

/-! ### Doorbells (R64, R65, R73, R74, R654) -/

theorem State.barOpen_answers (h : s.barOpen = true) : s.hi.answering = true ∧ s.hi.d3hot = false := by
  unfold State.barOpen State.barsSet at h
  simp only [Bool.and_eq_true, Bool.not_eq_true'] at h
  obtain ⟨⟨⟨-, ha⟩, -⟩, hd⟩ := h
  exact ⟨ha, hd⟩

theorem whenLive_live (f : State → State) (h : s.live = true) : whenLive f s = .next (f s) := by
  unfold whenLive
  rw [if_pos h]

/-- R62: a write of 4 bytes at offset 0 of a doorbell page. -/
theorem doorbellWrite_sqTail (n v : Nat) (s : State) : doorbellWrite n 0 4 v s = sqTail n v s := if_pos ⟨rfl, rfl⟩

/-- R62: a write of 8 bytes at offset 8 of a doorbell page. -/
theorem doorbellWrite_cqHead (n v : Nat) (s : State) : doorbellWrite n 8 8 v s = cqHead n v s := by
  unfold doorbellWrite
  rw [if_neg (by decide), if_pos ⟨rfl, rfl⟩]

theorem exec_sqTail (n : Fin 4096) (v : BitVec 32) (h : s.barOpen = true) : exec (.sqTail n v) s = .next (sqTail n v.toNat s) := by
  rw [show exec (.sqTail n v) s = execSqTail n v s from rfl, execSqTail, whenBar_open _ h, doorbellWrite_sqTail]

theorem exec_cqHead (n : Fin 4096) (v : Word) (h : s.barOpen = true) : exec (.cqHead n v) s = .next (cqHead n v.toNat s) := by
  rw [show exec (.cqHead n v) s = execCqHead n v s from rfl, execCqHead, whenBar_open _ h, doorbellWrite_cqHead]

/-- R65: a ring that is disabled or stopped takes no tail. -/
theorem sqTail_idle (v : Nat) (h : s.ringEnabled n = false ∨ (s.ring n).stopped = true) : sqTail n v s = s := by
  unfold sqTail
  rw [if_pos]
  rcases h with h | h <;> simp [h]

theorem sqTail_valid {v : Nat} (he : s.ringEnabled n = true) (hs : (s.ring n).stopped = false) (hv : s.tailValid n v = true) :
    sqTail n v s = s.setRing n { s.ring n with tail := v } := by
  unfold sqTail
  rw [if_neg (by simp [he, hs]), if_pos hv]

/-- R65: an invalid tail stops the ring and is reported. -/
theorem sqTail_invalid {v : Nat} (he : s.ringEnabled n = true) (hs : (s.ring n).stopped = false) (hv : s.tailValid n v = false) :
    (sqTail n v s).ring n = { s.ring n with stopped := true } ∧ (sqTail n v s).rd HI_RING_STATUS_DOORBELL_ERR n = 1 := by
  unfold sqTail
  rw [if_neg (by simp [he, hs]), if_neg (by simp [hv])]
  refine ⟨?_, State.rd_raise_setErr rfl (by decide) rfl n _⟩
  rw [State.ring_raise, State.ring_setErr, State.ring_setRing]

/-- R64, R65: what a write of SQ_TAIL leaves. -/
theorem sqTail_acts (n v : Nat) (s : State) :
    if s.ringEnabled n = false ∨ (s.ring n).stopped = true then sqTail n v s = s
    else if wrapSub 32 v (s.rd HI_RING_STATUS_SQ_HEAD n) ≤ 2 ^ s.rd HI_RING_CFG_SQ_LOG2 n ∧
        wrapSub 32 v (s.ring n).tail ≤ 2 ^ s.rd HI_RING_CFG_SQ_LOG2 n then
      (sqTail n v s).ring n = { s.ring n with tail := v } ∧ (sqTail n v s).regs = s.regs
    else (sqTail n v s).ring n = { s.ring n with stopped := true } ∧ (sqTail n v s).rd HI_RING_STATUS_DOORBELL_ERR n = 1 := by
  split
  next h => exact sqTail_idle v h
  next h =>
    obtain ⟨he, hs⟩ := not_or.1 h
    replace he : s.ringEnabled n = true := Bool.eq_true_of_not_eq_false he
    replace hs : (s.ring n).stopped = false := Bool.eq_false_of_not_eq_true hs
    split
    next hv =>
      rw [sqTail_valid he hs (decide_eq_true hv)]
      exact ⟨State.ring_setRing _ _ _, rfl⟩
    next hv => exact sqTail_invalid he hs (decide_eq_false hv)

theorem cqHead_disabled (v : Nat) (h : s.ringEnabled n = false) : cqHead n v s = s := by
  unfold cqHead
  exact if_pos (by rw [h]; rfl)

/-- R654: an invalid head moves nothing and is reported. -/
theorem cqHead_invalid {v : Nat} (he : s.ringEnabled n = true)
    (hv : ¬ wrapSub 32 (v % 2 ^ 32) (s.ring n).consumed ≤ (s.ring n).unconsumed) :
    (cqHead n v s).ring n = s.ring n ∧ (cqHead n v s).rd HI_RING_STATUS_CQ_HEAD_ERR n = 1 := by
  unfold cqHead
  dsimp only
  rw [if_neg (by simp [he]), if_neg hv]
  refine ⟨?_, State.rd_raise_setErr rfl (by decide) rfl n _⟩
  rw [State.ring_raise, State.ring_setErr]

/-- R654, R73: the state in which a CQ_HEAD value has become K and armed the CQ where its ARM is 1. -/
def State.acknowledged (s : State) (n v : Nat) : State :=
  s.setRing n { s.ring n with consumed := v % 2 ^ 32, armed := (s.ring n).armed || bitOf v 32 }

@[simp] theorem State.ring_acknowledged (s : State) (n v : Nat) : (s.acknowledged n v).ring n =
    { s.ring n with consumed := v % 2 ^ 32, armed := (s.ring n).armed || bitOf v 32 } := State.ring_setRing _ _ _

/-- R654, R74: a valid head is taken, and the vector is sent at once where it arms the CQ with completions left behind it. -/
theorem cqHead_valid {v : Nat} (he : s.ringEnabled n = true)
    (hv : wrapSub 32 (v % 2 ^ 32) (s.ring n).consumed ≤ (s.ring n).unconsumed) :
    cqHead n v s = if v.testBit 32 = true ∧ wrapSub 32 (s.ring n).written (v % 2 ^ 32) ≠ 0 then (s.acknowledged n v).ringInterrupt n
      else s.acknowledged n v := by
  have hu : ((s.acknowledged n v).ring n).unconsumed = wrapSub 32 (s.ring n).written (v % 2 ^ 32) := by
    rw [State.ring_acknowledged]
    rfl
  unfold cqHead
  dsimp only
  rw [if_neg (by simp [he]), if_pos hv, ← State.acknowledged, hu]
  simp only [bitOf, Bool.and_eq_true, decide_eq_true_eq, Nat.pos_iff_ne_zero]

/-- R654, R73, R74: what a valid CQ_HEAD value leaves. -/
theorem cqHead_acts {v : Nat} (ho : s.barOpen = true) (he : s.ringEnabled n = true)
    (hv : wrapSub 32 (v % 2 ^ 32) (s.ring n).consumed ≤ (s.ring n).unconsumed) :
    let left := wrapSub 32 (s.ring n).written (v % 2 ^ 32)
    ((cqHead n v s).ring n).consumed = v % 2 ^ 32 ∧
    ((cqHead n v s).ring n).armed = (if v.testBit 32 = true then decide (left = 0) else (s.ring n).armed) ∧
    (v.testBit 32 = true → left ≠ 0 → s.flag HI_MSIX_CTL_MASK (s.rd HI_RING_CFG_VECTOR n) = false →
      Emitted s (cqHead n v s) (.msix (s.rd HI_RING_CFG_VECTOR n) (s.rd HI_MSIX_ADDR_ADDR (s.rd HI_RING_CFG_VECTOR n))
        (s.rd HI_MSIX_CTL_DATA (s.rd HI_RING_CFG_VECTOR n)))) := by
  intro left
  obtain ⟨ha, hd⟩ := State.barOpen_answers ho
  rw [cqHead_valid he hv]
  split
  next h =>
    obtain ⟨harm, hleft⟩ := h
    rw [State.ring_ringInterrupt, State.ring_acknowledged, if_pos harm, decide_eq_false hleft]
    refine ⟨rfl, rfl, fun _ _ hm => ?_⟩
    have hs : SentHost (s.acknowledged n v) ((s.acknowledged n v).ringInterrupt n) _ := State.ringInterrupt_sends ha hm
    exact hs.emitted hd
  next h =>
    rw [State.ring_acknowledged]
    refine ⟨rfl, ?_, fun harm hleft => absurd ⟨harm, hleft⟩ h⟩
    cases harm : v.testBit 32 with
    | false => simp [bitOf, harm]
    | true =>
      have hleft : left = 0 := by
        by_contra hne
        exact h ⟨harm, hne⟩
      simp [bitOf, harm, hleft]

/-- R73: the oldest unconsumed completion of an armed CQ reaching MOD_TIME sends the vector of its ring and disarms the CQ. -/
theorem exec_cqModerationTimeout {n : Fin 4096} (hl : s.live = true) (ha : (s.ring n).armed = true) (hu : 0 < (s.ring n).unconsumed)
    (hm : 0 < s.rd HI_RING_CFG_MOD_TIME n) : exec (.cqModerationTimeout n) s = .next (s.ringInterrupt n) := by
  have hc : ((s.ring n).armed && decide (0 < (s.ring n).unconsumed ∧ 0 < s.rd HI_RING_CFG_MOD_TIME n)) = true := by
    rw [ha, decide_eq_true ⟨hu, hm⟩]
    rfl
  rw [show exec (.cqModerationTimeout n) s = execCqModerationTimeout n s from rfl, execCqModerationTimeout, whenLive_live _ hl, if_pos hc]

/-! ### Fetching (R61, R66, R67) -/

/-- A string of whole chunks is cut into the slices at their multiples. -/
theorem chunks_eq_slices {m : Nat} (hm : 0 < m) (k : Nat) {bs : List Byte} (h : m * k ≤ bs.length) :
    chunks m k bs = (List.range k).map (fun i => slice bs (m * i) m) := by
  induction k generalizing bs with
  | zero => rfl
  | succ k ih =>
    have hk : m * k ≤ (bs.drop m).length := by
      rw [List.length_drop]
      rw [Nat.mul_succ] at h
      omega
    have hne : bs.isEmpty = false := by
      cases bs with
      | nil => simp at h; omega
      | cons b bs => rfl
    have hs : ∀ i, slice (bs.drop m) (m * i) m = slice bs (m * (i + 1)) m := fun i => by
      unfold slice
      rw [List.drop_drop, Nat.mul_succ, Nat.add_comm]
    rw [chunks, if_neg (by simp [hne]), ih hk, List.range_succ_eq_map, List.map_cons, List.map_map]
    simp only [hs]
    rfl

/-- R66, R67: the descriptor that a fetch makes of the `i`-th slot of 64 bytes that it reads for a ring. -/
def State.fetched (s : State) (n i : Nat) (raw : List Byte) : Desc :=
  ⟨s.hi.nextId + i, n, (s.rd HI_RING_STATUS_SQ_HEAD n + i) % 2 ^ 32, raw, false, false, s.rd HI_PROT_GEN_ACTIVE 0, false,
    if le raw 0 1 = 0x24 then [s.tableChanges (le raw 24 1)] else []⟩

/-- R67: the state in which the next slot of a ring has joined its descriptors and SQ_HEAD counts it. -/
def State.joined (s : State) (n : Nat) (raw : List Byte) : State :=
  State.wr { s with hi := { s.hi with descs := s.hi.descs ++ [s.fetched n 0 raw], nextId := s.hi.nextId + 1 } }
    HI_RING_STATUS_SQ_HEAD n (wrapAdd 32 (s.rd HI_RING_STATUS_SQ_HEAD n) 1)

@[simp] theorem State.hi_joined (s : State) (n : Nat) (raw : List Byte) :
    (s.joined n raw).hi = { s.hi with descs := s.hi.descs ++ [s.fetched n 0 raw], nextId := s.hi.nextId + 1 } := by
  unfold State.joined State.wr
  rw [State.setWord_hi]

/-- R61: SQ_HEAD is a count of 32 bits. -/
theorem State.sqHead_lt (s : State) (n : Nat) : s.rd HI_RING_STATUS_SQ_HEAD n < 2 ^ 32 := bitsOf_lt _ 63 32

/-- R67: what the fetch of one slot does, by the opcode that it finds. -/
theorem State.fetchOne_eq (s : State) (n : Nat) (raw : List Byte) :
    s.fetchOne n raw = match opForm (s.fetched n 0 raw) with
      | some _ => s.joined n raw
      | none => (s.joined n raw).complete (s.fetched n 0 raw) .badOpcode 0 0 := by
  have hd : s.fetched n 0 raw = ⟨s.hi.nextId, n, s.rd HI_RING_STATUS_SQ_HEAD n, raw, false, false, s.rd HI_PROT_GEN_ACTIVE 0, false,
      if le raw 0 1 = 0x24 then [s.tableChanges (le raw 24 1)] else []⟩ := by
    unfold State.fetched
    rw [Nat.add_zero, Nat.add_zero, Nat.mod_eq_of_lt (s.sqHead_lt n)]
  unfold State.fetchOne State.joined
  rw [hd] <;> rfl

/-- What a fetch of `k` slots of a ring moves on, and what a fetched descriptor is made of besides its bytes. -/
structure FetchedSlots (s t : State) (n k : Nat) : Prop where
  nextId : t.hi.nextId = s.hi.nextId + k
  head : t.rd HI_RING_STATUS_SQ_HEAD n = (s.rd HI_RING_STATUS_SQ_HEAD n + k) % 2 ^ 32
  generation : t.rd HI_PROT_GEN_ACTIVE 0 = s.rd HI_PROT_GEN_ACTIVE 0
  changes : t.ft.changes = s.ft.changes
  awake : t.hi.d3hot = s.hi.d3hot
  grows : s.out <+: t.out ∧ s.hi.held <+: t.hi.held

theorem FetchedSlots.refl (s : State) (n : Nat) : FetchedSlots s s n 0 :=
  ⟨rfl, (Nat.mod_eq_of_lt (s.sqHead_lt n)).symm, rfl, rfl, rfl, List.prefix_refl _, List.prefix_refl _⟩

theorem FetchedSlots.trans {u : State} {j k : Nat} (h : FetchedSlots s t n j) (g : FetchedSlots t u n k) : FetchedSlots s u n (j + k) where
  nextId := by rw [g.nextId, h.nextId, Nat.add_assoc]
  head := by rw [g.head, h.head, Nat.mod_add_mod, Nat.add_assoc]
  generation := g.generation.trans h.generation
  changes := g.changes.trans h.changes
  awake := g.awake.trans h.awake
  grows := ⟨h.grows.1.trans g.grows.1, h.grows.2.trans g.grows.2⟩

/-- The next descriptor is the one that the fetch of `k` slots would have made next. -/
theorem FetchedSlots.fetched {k : Nat} (h : FetchedSlots s t n k) (i : Nat) (raw : List Byte) :
    t.fetched n i raw = s.fetched n (k + i) raw := by
  unfold State.fetched State.tableChanges
  rw [h.nextId, h.head, h.generation, h.changes, Nat.mod_add_mod, Nat.add_assoc, Nat.add_assoc]

theorem State.joined_fetchedSlots (s : State) (n : Nat) (raw : List Byte) : FetchedSlots s (s.joined n raw) n 1 where
  nextId := by rw [State.hi_joined]
  head := by
    unfold State.joined
    rw [State.rd_wr_same (by decide)]
    exact Nat.mod_mod _ _
  generation := State.rd_wr_reg (by decide) (by decide) (by decide) _ _ _
  changes := by rw [State.joined, State.wr, State.setWord_ft]
  awake := by rw [State.hi_joined]
  grows := by
    rw [State.hi_joined, State.joined, State.wr, State.setWord_out]
    exact ⟨List.prefix_refl _, List.prefix_refl _⟩

/-- A completion moves nothing of a fetch. -/
theorem State.complete_fetchedSlots (s : State) (d : Desc) (st : Status) (result detail n : Nat) :
    FetchedSlots s (s.complete d st result detail) n 0 := by
  have ho : Only completeParts s (s.complete d st result detail) :=
    State.complete_only ⟨Nat.or_self _⟩ (Only.refl _ s)
  have hh : (s.complete d st result detail).rd HI_RING_STATUS_SQ_HEAD n = (s.rd HI_RING_STATUS_SQ_HEAD n + 0) % 2 ^ 32 := by
    rw [State.sqHead_complete]
    exact (FetchedSlots.refl s n).head
  exact ⟨ho.same .hiNextId (by decide), hh, ho.rd (by decide) (by decide) 0, ho.same .ftChanges (by decide), ho.same .hiD3hot (by decide),
    complete_grows s d st result detail⟩

theorem State.fetchOne_fetchedSlots (s : State) (n : Nat) (raw : List Byte) : FetchedSlots s (s.fetchOne n raw) n 1 := by
  rw [State.fetchOne_eq]
  split
  · exact s.joined_fetchedSlots n raw
  · exact (s.joined_fetchedSlots n raw).trans (State.complete_fetchedSlots _ _ _ _ _ n)

/-- R67: a descriptor of a known opcode joins the list. -/
theorem State.descs_fetchOne {raw : List Byte} (h : (opForm (s.fetched n 0 raw)).isSome = true) :
    (s.fetchOne n raw).hi.descs = s.hi.descs ++ [s.fetched n 0 raw] := by
  obtain ⟨f, hf⟩ := Option.isSome_iff_exists.1 h
  rw [State.fetchOne_eq, hf]
  exact congrArg HostSt.descs (s.hi_joined n raw)

/-- R79: a descriptor of an unknown opcode is completed with BAD_OPCODE at once. -/
theorem State.fetchOne_badOpcode {raw : List Byte} (h : (opForm (s.fetched n 0 raw)).isSome = false) :
    Completed s (s.fetchOne n raw) (s.fetched n 0 raw) .badOpcode 0 := by
  rw [Option.isSome_eq_false_iff, Option.isNone_iff_eq_none] at h
  rw [State.fetchOne_eq, h]
  exact (State.complete_answered rfl (s.joined_fetchedSlots n raw).grows.1 (s.joined_fetchedSlots n raw).awake .badOpcode 0 0).1

/-- A completion written by one part of a run is written by the whole. -/
theorem Completed.within {r u : State} {d : Desc} {st : Status} {result : Nat} (h : Completed s t d st result)
    (ho : r.out <+: s.out) (hd : s.hi.d3hot = r.hi.d3hot) (hg : t.out <+: u.out ∧ t.hi.held <+: u.hi.held) : Completed r u d st result := by
  obtain ⟨slot, address, data, hlen, htag, hstatus, hindex, hresult, hs⟩ := h
  exact ⟨slot, address, data, hlen, htag, hstatus, hindex, hresult, sentHost_of ho hd (sent_grows hs hg)⟩

/-- The state after the slots of a list were fetched for a ring in order. -/
def State.fetchAll (s : State) (n : Nat) (l : List (List Byte)) : State := l.foldl (fun t raw => t.fetchOne n raw) s

theorem State.fetchAll_succ (s : State) (n : Nat) (f : Nat → List Byte) (k : Nat) :
    s.fetchAll n ((List.range (k + 1)).map f) = (s.fetchAll n ((List.range k).map f)).fetchOne n (f k) := by
  unfold State.fetchAll
  rw [List.range_succ, List.map_append, List.foldl_append]
  rfl

theorem State.fetchAll_fetchedSlots (s : State) (n : Nat) (f : Nat → List Byte) (k : Nat) :
    FetchedSlots s (s.fetchAll n ((List.range k).map f)) n k := by
  induction k with
  | zero => exact FetchedSlots.refl s n
  | succ k ih =>
    rw [State.fetchAll_succ]
    exact ih.trans (State.fetchOne_fetchedSlots _ _ _)

/-- The descriptor that comes next after `k` slots. -/
theorem State.fetched_fetchAll (s : State) (n : Nat) (f : Nat → List Byte) (k : Nat) (raw : List Byte) :
    (s.fetchAll n ((List.range k).map f)).fetched n 0 raw = s.fetched n k raw := (s.fetchAll_fetchedSlots n f k).fetched 0 raw

/-- R66, R67: slots of known opcodes alone join the ring's descriptors in order. -/
theorem State.descs_fetchAll (s : State) (n : Nat) (f : Nat → List Byte) (k : Nat)
    (h : ∀ i < k, (opForm (s.fetched n i (f i))).isSome = true) :
    (s.fetchAll n ((List.range k).map f)).hi.descs = s.hi.descs ++ (List.range k).map (fun i => s.fetched n i (f i)) := by
  induction k with
  | zero => exact (List.append_nil _).symm
  | succ k ih =>
    rw [State.fetchAll_succ, State.descs_fetchOne (by rw [State.fetched_fetchAll]; exact h k (Nat.lt_succ_self k)), State.fetched_fetchAll,
      ih (fun i hi => h i (Nat.lt_succ_of_lt hi)), List.range_succ, List.map_append, List.append_assoc]
    rfl

/-- R66, R79: of the slots fetched, each of an unknown opcode is completed with BAD_OPCODE. -/
theorem State.fetchAll_badOpcode (s : State) (n : Nat) (f : Nat → List Byte) (k i : Nat) (hi : i < k)
    (h : (opForm (s.fetched n i (f i))).isSome = false) :
    Completed s (s.fetchAll n ((List.range k).map f)) (s.fetched n i (f i)) .badOpcode 0 := by
  induction k with
  | zero => exact absurd hi (Nat.not_lt_zero i)
  | succ k ih =>
    have hk := s.fetchAll_fetchedSlots n f k
    rw [State.fetchAll_succ]
    rcases Nat.lt_succ_iff_lt_or_eq.1 hi with hlt | rfl
    · exact (ih hlt).within (List.prefix_refl _) rfl (State.fetchOne_fetchedSlots _ _ _).grows
    · rw [← s.fetched_fetchAll n f i (f i)] at h ⊢
      exact (State.fetchOne_badOpcode h).within hk.grows.1 hk.awake ⟨List.prefix_refl _, List.prefix_refl _⟩

theorem exec_descriptorFetch {n : Fin 4096} (data : HostData) (h : s.live = true) :
    exec (.descriptorFetch n data) s = .next (descriptorFetch n data s) := by
  rw [show exec (.descriptorFetch n data) s = execDescriptorFetch n data s from rfl, execDescriptorFetch, whenLive_live _ h]

/-- R66, R67: a fetch takes the whole slots that it may take and that host memory returned. -/
theorem descriptorFetch_some {bs : List Byte} (hf : 0 < s.fetchable n) (hb : 64 ≤ bs.length) :
    descriptorFetch n (some bs) s =
      s.fetchAll n ((List.range (min (s.fetchable n) (bs.length / 64))).map (fun i => slice bs (64 * i) 64)) := by
  have hk : 64 * min (s.fetchable n) (bs.length / 64) ≤ bs.length :=
    (Nat.mul_le_mul_left 64 (Nat.min_le_right _ _)).trans (Nat.mul_div_le _ _)
  unfold descriptorFetch
  dsimp only
  rw [if_neg (by omega), if_neg (by omega), chunks_eq_slices (by decide) _ hk]
  rfl

/-- R61: a read of host memory that fails stops the ring and is reported. -/
theorem descriptorFetch_none (hf : 0 < s.fetchable n) :
    (descriptorFetch n none s).rd HI_RING_STATUS_FETCH_ERR n = 1 ∧ ((descriptorFetch n none s).ring n).stopped = true ∧
      (descriptorFetch n none s).hi.descs = s.hi.descs := by
  unfold descriptorFetch
  dsimp only
  rw [if_neg (by omega)]
  unfold descriptorFetch.fetchFailed
  refine ⟨State.rd_raise_setErr rfl (by decide) rfl n _, ?_, ?_⟩
  · rw [State.ring_raise, State.ring_setErr, State.ring_setRing]
  · rw [State.descs_raise, State.hi_setErr]
    rfl

/-- Settles O11: each clause is what its operation leaves; a fetch goes by induction on the slots that it takes. -/
theorem doorbellsAndFetchesAct : Obligations.DoorbellsAndFetchesAct := by
  refine ⟨fun s n v ho => ⟨_, exec_sqTail n v ho, sqTail_acts n v.toNat s⟩, fun s n v ho he => ?_,
    fun s n v ho he => ?_, fun s n bs hl hf hb => ?_, fun s n hl hf => ?_, fun s n hl ha hu hm hans hmask => ?_⟩
  · refine ⟨_, exec_cqHead n v ho, ?_⟩
    split
    next hv => exact cqHead_acts ho he hv
    next hv => exact cqHead_invalid he hv
  · rw [exec_cqHead n v ho, cqHead_disabled _ he]
  · refine ⟨_, (exec_descriptorFetch _ hl).trans (congrArg _ (descriptorFetch_some hf hb)), ?_⟩
    have hk := s.fetchAll_fetchedSlots n (fun i => slice bs (64 * i) 64) (min (s.fetchable n) (bs.length / 64))
    exact ⟨hk.head, hk.nextId, s.descs_fetchAll n _ _, s.fetchAll_badOpcode n _ _⟩
  · exact ⟨_, exec_descriptorFetch _ hl, descriptorFetch_none hf⟩
  · refine ⟨_, exec_cqModerationTimeout hl ha hu hm, ?_, State.ringInterrupt_sends hans hmask⟩
    rw [State.ring_ringInterrupt]

end Sys2Proof.Machine
end

section
namespace Sys2Proof.Machine

variable {s t : State} {n : Nat}

/-! ### Enabling and disabling rings (R59, R71) -/

theorem exec_ringEnable (n : Fin 4096) (v : Word) (h : s.barOpen = true) : exec (.ringEnable n v) s = .next (ringCfgWrite n v s) := by
  rw [show exec (.ringEnable n v) s = execRingEnable n v s from rfl, execRingEnable, whenBar_open _ h]

theorem exec_ringDisable (n : Fin 4096) (v : Word) (h : s.barOpen = true) : exec (.ringDisable n v) s = .next (ringCfgWrite n v s) := by
  rw [show exec (.ringDisable n v) s = execRingDisable n v s from rfl, execRingDisable, whenBar_open _ h]

/-- Every bit of a field is RW. -/
def Fld.plain (f : Fld) : Bool := (List.range (f.hi + 1 - f.lo)).all (fun k => f.reg.rw.testBit (f.lo + k))

/-- R15: a field of RW bits takes its bits of the value written. -/
theorem State.rd_plainWrite {f : Fld} {r : Reg} (hr : f.reg = r) (hf : f.fits = true) (hp : f.plain = true) (i : Nat) (v : Word) :
    (s.plainWrite r i v).rd f i = f.of v := by
  subst hr
  obtain ⟨-, h64⟩ := of_decide_eq_true hf
  unfold State.rd Fld.of
  rw [State.plainWrite_eq_setWord f.reg i v rfl, State.word_setWord_same]
  apply Nat.eq_of_testBit_eq
  intro k
  rw [bitsOf_testBit, bitsOf_testBit]
  by_cases hk : k < f.hi + 1 - f.lo
  · have hrw : f.reg.rw.testBit (f.lo + k) = true := List.all_eq_true.1 hp k (List.mem_range.2 hk)
    rw [BitVec.testBit_toNat, BitVec.testBit_toNat, State.plainWord_getLsbD _ _ (by omega), if_pos (by rw [hrw]; rfl)]
  · rw [decide_eq_false hk, Bool.false_and, Bool.false_and]

/-- R59: a write of HI_RING_CFG leaves its ENABLE. -/
theorem State.ringEnabled_plainWrite (n : Nat) (v : Word) : (s.plainWrite HI_RING_CFG n v).ringEnabled n = HI_RING_CFG_ENABLE.isSet v := by
  unfold State.ringEnabled State.flag Fld.isSet
  rw [State.rd_plainWrite (f := HI_RING_CFG_ENABLE) (r := HI_RING_CFG) rfl (by decide) (by decide)]

theorem Only.ringEnabled {m : Nat} (h : Only m s t) (k : m.testBit (arrayBit HI_RING_CFG.base) = false) (n : Nat) :
    t.ringEnabled n = s.ringEnabled n := by
  unfold State.ringEnabled State.flag
  rw [h.rd (f := HI_RING_CFG_ENABLE) (by decide) k]

/-- R59: the configuration that a write of HI_RING_CFG gives a ring is good. -/
theorem State.ringEnableOk_iff (s : State) (n : Nat) (v : Word) :
    s.ringEnableOk n v = true ↔
      6 ≤ HI_RING_CFG_SQ_LOG2.of v ∧ HI_RING_CFG_SQ_LOG2.of v ≤ 16 ∧ 6 ≤ HI_RING_CFG_CQ_LOG2.of v ∧ HI_RING_CFG_CQ_LOG2.of v ≤ 16 ∧
      HI_RING_CFG_SQ_LOG2.of v ≤ HI_RING_CFG_CQ_LOG2.of v ∧ s.rd HI_RING_SQ_BASE_ADDR n % 4096 = 0 ∧ s.rd HI_RING_CQ_BASE_ADDR n % 4096 = 0 ∧
      1 ≤ HI_RING_CFG_VECTOR.of v ∧ s.ringLevel n ≠ 3 := by
  unfold State.ringEnableOk
  simp only [Bool.and_eq_true, decide_eq_true_eq, bne_iff_ne, and_assoc]

/-- R59: the state of a ring that a write of HI_RING_CFG has enabled, before QUIESCED is settled. -/
def State.opened (s : State) (n : Nat) (v : Word) : State :=
  ((s.plainWrite HI_RING_CFG n v).setRing n { Ring.reset with armed := true }).wr HI_RING_STATUS_SQ_HEAD n 0

theorem ringCfgWrite_enables {v : Word} (he : s.ringEnabled n = false) (hv : HI_RING_CFG_ENABLE.isSet v = true)
    (hok : s.ringEnableOk n v = true) : ringCfgWrite n v s = (s.opened n v).settleQuiesced n := by
  unfold ringCfgWrite
  rw [if_pos hv, if_neg (by rw [he]; decide), if_pos hok]
  rfl

/-- R59: an enabled ring reads the configuration written. -/
theorem State.rd_opened {f : Fld} (hr : f.reg = HI_RING_CFG) (hf : f.fits = true) (hp : f.plain = true) (n : Nat) (v : Word) :
    ((s.opened n v).settleQuiesced n).rd f n = f.of v := by
  have hl : f.reg.listed = true := by rw [hr]; decide
  have hb : HI_RING_STATUS.base ≠ f.reg.base := by rw [hr]; decide
  rw [State.rd_settleQuiesced hl hb, State.opened, State.rd_wr_reg (by decide) hl hb]
  exact State.rd_plainWrite hr hf hp n v

/-- R59: a ring starts with its head, its tail and its completions at zero and with its CQ armed. -/
theorem ringCfgWrite_good {v : Word} (he : s.ringEnabled n = false) (hv : HI_RING_CFG_ENABLE.isSet v = true)
    (hok : s.ringEnableOk n v = true) :
    (ringCfgWrite n v s).ringEnabled n = true ∧ (ringCfgWrite n v s).sqSize n = 2 ^ HI_RING_CFG_SQ_LOG2.of v ∧
    (ringCfgWrite n v s).cqSize n = 2 ^ HI_RING_CFG_CQ_LOG2.of v ∧ (ringCfgWrite n v s).ring n = ⟨0, 0, 0, true, false⟩ ∧
    (ringCfgWrite n v s).rd HI_RING_STATUS_SQ_HEAD n = 0 ∧ (ringCfgWrite n v s).rd HI_RING_STATUS_QUIESCED n = 0 := by
  have hen : ((s.opened n v).settleQuiesced n).ringEnabled n = true := by
    unfold State.ringEnabled State.flag
    rw [State.rd_opened rfl (by decide) (by decide)]
    exact hv
  rw [ringCfgWrite_enables he hv hok]
  refine ⟨hen, ?_, ?_, ?_, ?_, ?_⟩
  · unfold State.sqSize
    rw [State.rd_opened rfl (by decide) (by decide)]
  · unfold State.cqSize
    rw [State.rd_opened rfl (by decide) (by decide)]
  · rw [State.ring_settleQuiesced, State.opened, State.ring_wr, State.ring_setRing]
    rfl
  · rw [State.sqHead_settleQuiesced, State.opened, State.rd_wr_same (by decide)]
    rfl
  · rw [State.ringEnabled_settleQuiesced] at hen
    rw [State.quiesced_settleQuiesced, hen]
    rfl

/-- R59: a configuration that is not good leaves ENABLE 0 and is reported. -/
theorem ringCfgWrite_bad {v : Word} (he : s.ringEnabled n = false) (hv : HI_RING_CFG_ENABLE.isSet v = true)
    (hok : s.ringEnableOk n v = false) :
    (ringCfgWrite n v s).ringEnabled n = false ∧ (ringCfgWrite n v s).rd HI_RING_STATUS_CFG_ERR n = 1 := by
  unfold ringCfgWrite
  dsimp only
  rw [if_pos hv, if_neg (by rw [he]; decide), if_neg (by rw [hok]; decide)]
  refine ⟨?_, State.rd_raise_setErr rfl (by decide) rfl n _⟩
  rw [(State.only_raise _).ringEnabled (by decide), State.ringEnabled, State.flag, State.rd_setErr_other rfl (by decide) (by decide),
    State.rd_wr_same (by decide)]
  rfl

/-- Completions take the descriptors they name off the list, and add none. -/
theorem State.descs_completeAll (l : List Desc) (st : Status) {d : Desc}
    (h : d ∈ (l.foldl (fun u e => u.complete e st 0 0) s).hi.descs) : d ∈ s.hi.descs ∧ ∀ e ∈ l, d.id ≠ e.id := by
  induction l generalizing s with
  | nil => exact ⟨h, fun e he => absurd he List.not_mem_nil⟩
  | cons x l ih =>
    obtain ⟨hm, hl⟩ := ih h
    rw [State.descs_complete, removeDesc, List.mem_filter, bne_iff_ne] at hm
    exact ⟨hm.1, List.forall_mem_cons.2 ⟨hm.2, hl⟩⟩

/-- R71: once the unstarted descriptors of a ring were aborted, those that it holds have started. -/
theorem State.started_abortUnstarted {d : Desc} (h : d ∈ (s.abortUnstarted n).outstanding n) : d.started = true := by
  obtain ⟨hd, hring⟩ := List.mem_filter.1 h
  obtain ⟨hs, hids⟩ := State.descs_completeAll _ _ hd
  by_contra hn
  exact hids d (List.mem_filter.2 ⟨List.mem_filter.2 ⟨hs, hring⟩, by simp [hn]⟩) rfl

/-- R71: a write that clears ENABLE aborts what has not started, and settles QUIESCED. -/
theorem ringCfgWrite_disables {v : Word} (hv : HI_RING_CFG_ENABLE.isSet v = false) :
    ringCfgWrite n v s = ((s.plainWrite HI_RING_CFG n v).abortUnstarted n).settleQuiesced n := by
  unfold ringCfgWrite
  dsimp only
  rw [if_neg (by rw [hv]; decide)]

/-- R71: what a write that clears ENABLE leaves. -/
theorem ringCfgWrite_disabled {v : Word} (hv : HI_RING_CFG_ENABLE.isSet v = false) :
    (ringCfgWrite n v s).ringEnabled n = false ∧ (∀ d ∈ (ringCfgWrite n v s).outstanding n, d.started = true) ∧
    ((ringCfgWrite n v s).rd HI_RING_STATUS_QUIESCED n = 1 ↔ (ringCfgWrite n v s).outstanding n = []) := by
  have ho : Only completeParts (s.plainWrite HI_RING_CFG n v) ((s.plainWrite HI_RING_CFG n v).abortUnstarted n) :=
    State.abortUnstarted_only ⟨Nat.or_self _⟩ (Only.refl _ _)
  have hen : ((s.plainWrite HI_RING_CFG n v).abortUnstarted n).ringEnabled n = false := by
    rw [ho.ringEnabled (by decide), State.ringEnabled_plainWrite, hv]
  rw [ringCfgWrite_disables hv]
  refine ⟨?_, fun d hd => State.started_abortUnstarted hd, ?_⟩
  · rw [State.ringEnabled_settleQuiesced, hen]
  · rw [State.quiesced_settleQuiesced, State.outstanding_settleQuiesced, hen, ← List.isEmpty_iff]
    cases (((s.plainWrite HI_RING_CFG n v).abortUnstarted n).outstanding n).isEmpty <;> decide

/-- Settles O12: a write of HI_RING_CFG enables, refuses or disables, by the value's ENABLE and the configuration. -/
theorem ringsEnableAndDisable : Obligations.RingsEnableAndDisable := by
  refine ⟨fun s n v ho he hv => ⟨_, exec_ringEnable n v ho, ?_⟩, fun s n v ho _ hv => ⟨_, exec_ringDisable n v ho, ringCfgWrite_disabled hv⟩⟩
  split
  next h => exact ringCfgWrite_good he hv ((s.ringEnableOk_iff n v).2 h)
  next h => exact ringCfgWrite_bad he hv (Bool.eq_false_of_not_eq_true fun hok => h ((s.ringEnableOk_iff n v).1 hok))

end Sys2Proof.Machine
end

section
namespace Sys2Proof.Machine

variable {s t : State} {d : Desc} {n : Fin 4096} {r : List Byte} {i : Nat} {g : GroupSt}

/-! ### Finding a key in a sparse table -/

/-- What a search by key finds after a write, whatever the order of the table. -/
theorem find_sput {α : Type} (k j : Nat) (v : α) (m : List (Nat × α)) :
    (sput k v m).find? (fun kv => kv.1 == j) = if k = j then some (k, v) else m.find? (fun kv => kv.1 == j) := by
  induction m with
  | nil => by_cases hj : k = j <;> simp [sput, hj]
  | cons x m ih =>
    obtain ⟨l, w⟩ := x
    unfold sput
    split
    next hl =>
      subst hl
      by_cases hj : l = j <;> simp [hj]
    next hl =>
      split
      · by_cases hj : k = j <;> simp [hj]
      · by_cases hj : l = j
        · have hk : k ≠ j := fun hk => hl (hj.trans hk.symm)
          simp [hj, hk]
        · simp [hj, ih]

/-- What a search by key finds after a key was removed. -/
theorem find_sdel {α : Type} (k j : Nat) (m : List (Nat × α)) :
    (sdel k m).find? (fun kv => kv.1 == j) = if k = j then none else m.find? (fun kv => kv.1 == j) := by
  unfold sdel
  rw [List.find?_filter]
  split
  next hk =>
    subst hk
    simp
  next hk =>
    congr 1
    funext kv
    by_cases hj : kv.1 = j <;> simp [hj, Ne.symm hk]

/-! ### The groups after each operation on them -/

/-- The parts that the status registers of a group are (R463). -/
def shownParts : Nat := 0x300000000000000000000000000000000000000000000000000000000000000000000000000000000000000000

/-- The parts that registering or releasing a group that is not armed changes. -/
def registryParts : Nat := 0x300000000000000000000000000000000000000000000000000000000000000000060000000000000000000000

theorem State.group_congr (h : t.cl.groups = s.cl.groups) (j : Nat) : t.group j = s.group j := by
  unfold State.group
  rw [h]

theorem State.only_showGroup (s : State) (i : Nat) : Only shownParts s (s.showGroup i) :=
  State.showGroup_only ⟨Nat.or_self _⟩ (Only.refl _ s)

theorem State.only_setGroup_showGroup (s : State) (i : Nat) (g : GroupSt) : Only registryParts s ((s.setGroup i g).showGroup i) :=
  State.showGroup_only ⟨by decide⟩ (State.setGroup_only ⟨by decide⟩ (Only.refl _ s))

@[simp] theorem State.group_showGroup (s : State) (i j : Nat) : (s.showGroup i).group j = s.group j :=
  State.group_congr ((s.only_showGroup i).same .clGroups (by decide)) j

@[simp] theorem State.group_complete (s : State) (d : Desc) (st : Status) (x y j : Nat) : (s.complete d st x y).group j = s.group j :=
  State.group_congr (congrArg CollectiveSt.groups (complete_hostOnly s d st x y).cl) j

@[simp] theorem State.group_startDesc (s : State) (d : Desc) (j : Nat) : (s.startDesc d).group j = s.group j := rfl

@[simp] theorem State.group_setGroup (s : State) (i : Nat) (g : GroupSt) (j : Nat) :
    (s.setGroup i g).group j = if i = j then some g else s.group j := by
  unfold State.group State.setGroup
  rw [find_sput, apply_ite (Option.map _)]
  rfl

@[simp] theorem State.group_dropGroup (s : State) (i j : Nat) : (s.dropGroup i).group j = if i = j then none else s.group j := by
  unfold State.dropGroup
  rw [State.group_showGroup]
  unfold State.group
  rw [find_sdel, apply_ite (Option.map _)]
  rfl

theorem State.modGroup_of_group (f : GroupSt → GroupSt) (h : s.group i = some g) : s.modGroup i f = s.setGroup i (f g) := by
  unfold State.modGroup
  rw [h]

/-- R416: a handle names its group at the handle's INDEX. -/
theorem State.group_of_groupBy {handle : Nat} (h : s.groupBy handle = some (i, g)) : s.group i = some g := by
  unfold State.groupBy at h
  split at h
  next hg =>
    split at h
    · cases h
      exact hg
    · cases h
  · cases h

theorem State.group_of_groupFor {handle : Nat} (h : s.groupFor d handle = some (i, g)) : s.group i = some g :=
  State.group_of_groupBy (Option.filter_eq_some_iff.1 h).1

/-! ### A new group, and a replaced record (R416, R417) -/

/-- R416: the index that the next registration takes. -/
def State.freeIndex (s : State) : Nat := lowestFree 0 (s.cl.groups.map (fun kv => kv.1))

/-- R416: the group that a registration at an index puts there. -/
def State.freshGroup (s : State) (i p : Nat) (r : List Byte) : GroupSt := ⟨s.nextTag i, r, p, none, Bcast.reset, none⟩

theorem State.newGroup_handle (s : State) (p : Nat) (r : List Byte) :
    (s.newGroup p r).1 = handleOf s.freeIndex (s.freshGroup s.freeIndex p r) := rfl

/-- R416: a registration fills the free index and leaves every other. -/
theorem State.group_newGroup (s : State) (p : Nat) (r : List Byte) (j : Nat) :
    (s.newGroup p r).2.group j = if s.freeIndex = j then some (s.freshGroup s.freeIndex p r) else s.group j := by
  unfold State.newGroup
  rw [State.group_showGroup, State.group_setGroup]
  rfl

/-- R417: the record of a group that is not armed is replaced, and nothing is sent. -/
theorem State.replaceGroup_unarmed (r : List Byte) (h : s.group i = some g) (ha : g.armed = none) :
    s.replaceGroup i r = (s.setGroup i { g with record := r, bcast := g.bcast.replaced g.record r }).showGroup i := by
  unfold State.replaceGroup
  rw [State.modGroup_of_group _ h]
  dsimp only
  rw [if_neg]
  unfold State.armed
  rw [State.group_showGroup, State.group_setGroup, if_pos rfl, Option.bind_some, ha]
  exact Bool.false_ne_true

theorem State.makeRoom_of_room {old : Option Nat} {m : Nat} (h : s.groupRoom old m = true) (fuel : Nat) : s.makeRoom old m fuel = some s := by
  cases fuel <;> exact if_pos h

/-! ### The cases of a registration (R415, R457) -/

/-- R417: the group whose record a registration replaces. -/
def State.oldGroup (s : State) (d : Desc) (r : List Byte) : Option (Nat × GroupSt) := if grReplace r then s.groupFor d (grGroup r) else none

theorem State.oldGroup_replace (h : grReplace r = true) : s.oldGroup d r = s.groupFor d (grGroup r) := if_pos h

theorem State.oldGroup_new (h : grReplace r = false) : s.oldGroup d r = none := if_neg (by rw [h]; exact Bool.false_ne_true)

theorem State.registerGroup_restored (h : s.restorable d.partition r = some (i, g)) :
    s.registerGroup d r = ((s.setGroup i { g with retained := none }).showGroup i).complete d .success (2 ^ 32 + handleOf i g) 0 := by
  unfold State.registerGroup
  rw [h]

theorem State.registerGroup_refused {st : Status} {x : Nat} (hr : s.restorable d.partition r = none)
    (hf : s.recordRefused d.partition r (s.oldGroup d r) = some (st, x)) : s.registerGroup d r = s.complete d st 0 x := by
  unfold State.oldGroup at hf
  unfold State.registerGroup
  rw [hr]
  dsimp only
  rw [hf]

theorem State.registerGroup_new (hr : s.restorable d.partition r = none) (ho : s.oldGroup d r = none)
    (hp : s.recordRefused d.partition r none = none) (hm : s.groupRoom none (grMembers r) = true) :
    s.registerGroup d r = (s.newGroup d.partition r).2.complete d .success (s.newGroup d.partition r).1 0 := by
  unfold State.oldGroup at ho
  unfold State.registerGroup
  rw [hr]
  dsimp only
  rw [ho, hp]
  dsimp only [Option.map_none]
  rw [State.makeRoom_of_room hm]

theorem State.registerGroup_replaced (hr : s.restorable d.partition r = none) (ho : s.oldGroup d r = some (i, g))
    (hp : s.recordRefused d.partition r (some (i, g)) = none) (hm : s.groupRoom (some i) (grMembers r) = true) :
    s.registerGroup d r = (s.replaceGroup i r).complete d .success (grGroup r) 0 := by
  unfold State.oldGroup at ho
  unfold State.registerGroup
  rw [hr]
  dsimp only
  rw [ho, hp]
  dsimp only [Option.map_some]
  rw [State.makeRoom_of_room hm]

/-- The checks of a record read nothing that the start of a descriptor moves. -/
theorem State.recordRefused_startDesc (s : State) (d : Desc) (p : Nat) (r : List Byte) (old : Option (Nat × GroupSt)) :
    (s.startDesc d).recordRefused p r old = s.recordRefused p r old := by
  have ho : (s.startDesc d).ownsRecord p r = s.ownsRecord p r := rfl
  unfold State.recordRefused
  rw [ho]

/-! ### What the commands answer and leave -/

/-- The whole of what a descriptor asks of host memory is what it reads. -/
theorem hostBytes_whole (h : r.length = d.length) : hostBytes d (some r) = some r := by
  unfold hostBytes
  dsimp only
  rw [if_pos (Nat.le_of_eq h.symm), ← h, List.take_length]

/-- R415: the record is read and registered, or its read failed. -/
theorem exec_groupRegister (h : Admitted s n 0x30 true d) (data : HostData) : exec (.groupRegister n data) s =
    .next (match hostBytes (d.begun s) data with
      | none => (s.startDesc d).complete (d.begun s) .hostAccessError 0 0
      | some r => (s.startDesc d).registerGroup (d.begun s) r) :=
  runOpcode_admitted h _

theorem exec_groupRegister_record (h : Admitted s n 0x30 true d) (hl : r.length = d.length) :
    exec (.groupRegister n (some r)) s = .next ((s.startDesc d).registerGroup (d.begun s) r) := by
  rw [exec_groupRegister h, hostBytes_whole (d := d.begun s) hl]

/-- R418: a group that is not armed is forgotten. -/
theorem exec_groupRelease (h : Admitted s n 0x31 false d) : exec (.groupRelease n) s =
    .next (match s.groupFor d (d.u32 24) with
      | none => (s.startDesc d).complete (d.begun s) .notFound 0 0
      | some (i, g) => if g.armed.isSome then (s.startDesc d).complete (d.begun s) .busy 0 0
        else ((s.startDesc d).dropGroup i).complete (d.begun s) .success 0 0) :=
  runOpcode_admitted h _

/-- A started descriptor's answer at once is all that it leaves of the collectives. -/
theorem startDesc_complete_cl (st : Status) (x y : Nat) : ((s.startDesc d).complete (d.begun s) st x y).cl = s.cl :=
  (complete_hostOnly _ _ _ _ _).cl

/-- A body that changes no more than the groups answers the descriptor with the 64 bits of its RESULT. -/
theorem AdmittedWith.answersRegistry {op : Nat} {reads : Bool} (h : Admitted s n op reads d) (k : Only registryParts (s.startDesc d) t) (st : Status) (x y : Nat) :
    Answered s (t.complete (d.begun s) st x y) d st (x % 2 ^ 64) :=
  State.complete_answered (s := s) (d := d.begun s) h.silent k.keeps.out (k.same .hiD3hot (by decide)) st x y

/-- R415, R416: a record that passes its checks and replaces none is registered. -/
theorem groupRegister_new (h : Admitted s n 0x30 true d) (hl : r.length = d.length) (hnew : grReplace r = false)
    (hr : s.restorable d.partition r = none) (hp : s.recordRefused d.partition r none = none) (hm : s.groupRoom none (grMembers r) = true) :
    let g := s.freshGroup s.freeIndex d.partition r
    ∃ t, exec (.groupRegister n (some r)) s = .next t ∧ Answered s t d .success (handleOf s.freeIndex g % 2 ^ 64) ∧
      ∀ j, t.group j = if s.freeIndex = j then some g else s.group j := by
  intro g
  have ho : (s.startDesc d).oldGroup (d.begun s) r = none := State.oldGroup_new hnew
  refine ⟨_, exec_groupRegister_record h hl, ?_⟩
  rw [State.registerGroup_new (s := s.startDesc d) (d := d.begun s) hr ho (by rw [State.recordRefused_startDesc]; exact hp) hm]
  refine ⟨h.answersRegistry (State.newGroup_only ⟨Nat.or_self _⟩ (Only.refl _ _)) _ _ _, fun j => ?_⟩
  rw [State.group_complete, State.group_newGroup]
  rfl

/-- R417: a record that passes its checks and names a group that is not armed replaces that group's record under its handle and TAG. -/
theorem groupRegister_replace (h : Admitted s n 0x30 true d) (hl : r.length = d.length) (hr : s.restorable d.partition r = none)
    (hold : grReplace r = true) (hf : s.groupFor d (grGroup r) = some (i, g)) (hp : s.recordRefused d.partition r (some (i, g)) = none)
    (ha : g.armed = none) (hm : s.groupRoom (some i) (grMembers r) = true) :
    ∃ t, exec (.groupRegister n (some r)) s = .next t ∧ Answered s t d .success (grGroup r) ∧
      t.group i = some { g with record := r, bcast := g.bcast.replaced g.record r } := by
  have ho : (s.startDesc d).oldGroup (d.begun s) r = some (i, g) := (State.oldGroup_replace hold).trans hf
  have hg : (s.startDesc d).group i = some g := State.group_of_groupFor hf
  have hlt : grGroup r < 2 ^ 64 := (le_lt r 20 4).trans (by decide)
  refine ⟨_, exec_groupRegister_record h hl, ?_⟩
  rw [State.registerGroup_replaced (s := s.startDesc d) (d := d.begun s) hr ho (by rw [State.recordRefused_startDesc]; exact hp) hm, State.replaceGroup_unarmed r hg ha]
  refine ⟨h.answersOnly (State.only_setGroup_showGroup _ _ _) (by decide) _ hlt _, ?_⟩
  rw [State.group_complete, State.group_showGroup, State.group_setGroup, if_pos rfl]

/-- R415: a record that fails a check registers nothing. -/
theorem groupRegister_refused {st : Status} {x : Nat} (h : Admitted s n 0x30 true d) (hl : r.length = d.length)
    (hr : s.restorable d.partition r = none) (hf : s.recordRefused d.partition r (s.oldGroup d r) = some (st, x)) :
    ∃ t, exec (.groupRegister n (some r)) s = .next t ∧ Answered s t d st 0 ∧ t.cl = s.cl := by
  refine ⟨_, exec_groupRegister_record h hl, ?_⟩
  rw [State.registerGroup_refused (s := s.startDesc d) (d := d.begun s) hr (by rw [State.recordRefused_startDesc]; exact hf)]
  exact ⟨h.answersNow st (by decide) x, startDesc_complete_cl st 0 x⟩

/-- R457: a retained group's own record restores it. -/
theorem groupRegister_restored (h : Admitted s n 0x30 true d) (hl : r.length = d.length) (hr : s.restorable d.partition r = some (i, g)) :
    ∃ t, exec (.groupRegister n (some r)) s = .next t ∧ Answered s t d .success ((2 ^ 32 + handleOf i g) % 2 ^ 64) ∧
      t.group i = some { g with retained := none } := by
  refine ⟨_, exec_groupRegister_record h hl, ?_⟩
  rw [State.registerGroup_restored (s := s.startDesc d) (d := d.begun s) hr]
  refine ⟨h.answersRegistry (State.only_setGroup_showGroup _ _ _) _ _ _, ?_⟩
  rw [State.group_complete, State.group_showGroup, State.group_setGroup, if_pos rfl]

/-- R418: what GROUP_RELEASE answers and leaves, by the group that its handle names. -/
theorem groupRelease_acts (h : Admitted s n 0x31 false d) : ∃ t, exec (.groupRelease n) s = .next t ∧
    match s.groupFor d (d.u32 24) with
    | none => Answered s t d .notFound 0 ∧ t.cl = s.cl
    | some (i, g) =>
      if g.armed.isSome = true then Answered s t d .busy 0 ∧ t.cl = s.cl
      else Answered s t d .success 0 ∧ t.group i = none ∧ ∀ j, j ≠ i → t.group j = s.group j := by
  refine ⟨_, exec_groupRelease h, ?_⟩
  cases s.groupFor d (d.u32 24) with
  | none => exact ⟨h.answersNow _ (by decide) _, startDesc_complete_cl _ _ _⟩
  | some ig =>
    obtain ⟨i, g⟩ := ig
    dsimp only
    split
    · exact ⟨h.answersNow _ (by decide) _, startDesc_complete_cl _ _ _⟩
    · refine ⟨h.answersOnly (State.dropGroup_only (m := registryParts) ⟨by decide⟩ (Only.refl _ _)) (by decide) _ (by decide) _, ?_, fun j hj => ?_⟩
      · rw [State.group_complete, State.group_dropGroup, if_pos rfl]
      · rw [State.group_complete, State.group_dropGroup, if_neg hj.symm, State.group_startDesc]

/-- Settles O33: each clause is the case of its command, by what the record restores, replaces or fails. -/
theorem groupsRegisterAndRelease : Obligations.GroupsRegisterAndRelease := by
  refine ⟨fun s n d bs h hl hnew hr hp hm => ?_, fun s n d bs i g st x h hl hr hold hf => ⟨fun hx => ?_, fun hp ha hm => ?_⟩,
    fun s n d bs st x h hl hr hnew hx => ?_, fun s n d bs i g h hl hr => groupRegister_restored h hl hr,
    fun s n d h => ⟨_, exec_groupRegister h none, h.answersNow _ (by decide) _⟩, fun s n d h => groupRelease_acts h⟩
  · obtain ⟨t, ht, hans, hgroups⟩ := groupRegister_new h hl hnew hr hp hm
    exact ⟨t, _, ht, hans, (hgroups _).trans (if_pos rfl), rfl, rfl, rfl, rfl, rfl, fun j hj => (hgroups j).trans (if_neg hj.symm)⟩
  · exact groupRegister_refused h hl hr (by rw [State.oldGroup_replace hold, hf]; exact hx)
  · obtain ⟨t, ht, hans, hgroup⟩ := groupRegister_replace h hl hr hold hf hp ha hm
    exact ⟨t, _, ht, hans, hgroup, rfl, rfl⟩
  · exact groupRegister_refused h hl hr (by rw [State.oldGroup_new hnew]; exact hx)

end Sys2Proof.Machine
end
